-- ==== Sys2Proof/Word.lean ====
section
/-! DEFINITION. Word.lean: the word types, bit fields and the sparse map that holds every array of the machine.

An array of the device (a register file, a memory, a table of units) is a list of (key, value) pairs in ONE canonical
form: keys strictly rising, and no pair whose value is what an unlisted key reads as. Equal arrays are equal lists. -/

namespace Sys2Proof

/-- A 64-bit word: a scalar register, a BAR0 register, a field of a record (R8, R129). -/
abbrev Word := BitVec 64

/-- A byte of a memory (R8). -/
abbrev Byte := BitVec 8

/-- A sparse array: pairs of key and value in canonical form (see `SMap.wf`). -/
abbrev SMap (α : Type) := List (Nat × α)

namespace SMap

variable {α : Type}

/-- What the array holds at key `k`; an unlisted key reads as `d k`. -/
def get (d : Nat → α) : SMap α → Nat → α
  | [], k => d k
  | (a, v) :: r, k => if a = k then v else get d r k

/-- The array with key `k` unlisted. -/
def del : SMap α → Nat → SMap α
  | [], _ => []
  | (a, v) :: r, k => if a = k then del r k else (a, v) :: del r k

/-- Insert a pair in key order, in place of the pair of the same key. -/
def ins : SMap α → Nat → α → SMap α
  | [], k, x => [(k, x)]
  | (a, v) :: r, k, x =>
    if a = k then (k, x) :: r else if k < a then (k, x) :: (a, v) :: r else (a, v) :: ins r k x

/-- Write `x` at key `k`; writing what an unlisted key reads as removes the pair. -/
def put [DecidableEq α] (d : Nat → α) (m : SMap α) (k : Nat) (x : α) : SMap α :=
  if x = d k then del m k else ins m k x

/-- The pairs whose key satisfies `keep`; every other key goes back to what an unlisted key reads as. -/
def keepIf (m : SMap α) (keep : Nat → Bool) : SMap α := m.filter (fun e => keep e.1)

/-- Change the value at key `k` by `f`. -/
def upd [DecidableEq α] (d : Nat → α) (m : SMap α) (k : Nat) (f : α → α) : SMap α :=
  put d m k (f (get d m k))

/-- Every key of the list is above `n`, and the keys rise strictly. -/
def sortedAbove : Nat → SMap α → Bool
  | _, [] => true
  | n, (a, _) :: r => decide (n < a) && sortedAbove a r

/-- The keys rise strictly. -/
def sorted : SMap α → Bool
  | [] => true
  | (a, _) :: r => sortedAbove a r

/-- The canonical form: keys strictly rising, and no pair equal to what an unlisted key reads as. -/
def wf [DecidableEq α] (d : Nat → α) (m : SMap α) : Bool :=
  sorted m && m.all (fun e => decide (e.2 ≠ d e.1))

end SMap

/-- Bits [hi:lo] of a number, as a number. -/
def bits (n hi lo : Nat) : Nat := (n >>> lo) % 2 ^ (hi + 1 - lo)

/-- The number `n` with bits [hi:lo] replaced by the low bits of `v`. -/
def setBits (n hi lo v : Nat) : Nat :=
  n - (bits n hi lo) * 2 ^ lo + (v % 2 ^ (hi + 1 - lo)) * 2 ^ lo

/-- Bit `i` of a number. -/
def bitOf (n i : Nat) : Bool := n.testBit i

/-- The two's-complement value of the low `w` bits of `n`. -/
def signed (w n : Nat) : Int :=
  let m := n % 2 ^ w
  if m < 2 ^ (w - 1) then (m : Int) else (m : Int) - (2 ^ w : Nat)

/-- The low `w` bits of the two's complement of an integer. -/
def toTwos (w : Nat) (i : Int) : Nat := (i % ((2 ^ w : Nat) : Int)).toNat

/-- 1 for true, 0 for false. -/
def b2n (b : Bool) : Nat := if b then 1 else 0

/-- A little-endian number of a list of bytes (R8). -/
def leNat : List Byte → Nat
  | [] => 0
  | b :: r => b.toNat + 256 * leNat r

/-- The `n` little-endian bytes of a number (R8). -/
def leBytes : Nat → Nat → List Byte
  | 0, _ => []
  | n + 1, v => BitVec.ofNat 8 (v % 256) :: leBytes n (v / 256)

/-- The smallest multiple count: `a / b` rounded up, with 0 for b = 0. -/
def ceilDiv (a b : Nat) : Nat := if b = 0 then 0 else (a + b - 1) / b

/-- `a` rounded up to a multiple of `b`. -/
def alignUp (a b : Nat) : Nat := ceilDiv a b * b

/-- Whether `n` is a power of two. -/
def isPow2 (n : Nat) : Bool := n != 0 && (n &&& (n - 1)) == 0

/-- `n` limited to `2 ^ w - 1`: a saturating counter of `w` bits (R14). -/
def satAt (w n : Nat) : Nat := min n (2 ^ w - 1)

/-- Whether two byte ranges [a, a + n) and [b, b + m) share a byte. -/
def overlaps (a n b m : Nat) : Bool := decide (0 < n) && decide (0 < m) && decide (a < b + m) && decide (b < a + n)

/-- The numbers `a, a + 1, … , a + n - 1`. -/
def upFrom (a n : Nat) : List Nat := (List.range n).map (a + ·)

/-- The lowest element of a list of numbers, if there is one. -/
def lowest : List Nat → Option Nat
  | [] => none
  | a :: r => match lowest r with
    | none => some a
    | some b => some (min a b)

/-- Fold a function over a list of inputs, threading a value. -/
def threadAll {α β : Type} (f : α → β → α) : α → List β → α
  | s, [] => s
  | s, x :: r => threadAll f (f s x) r

end Sys2Proof
end

