-- ==== Sys2Proof/Syntax.lean ====
section
/-! DEFINITION. Syntax.lean: the commands of the block, one constructor per row of spec/opcode_table.json, and the operands
they carry. The table gives no operands: they are this model's (assumption 2). -/

namespace Sys2Proof

/-- A physical tile, 0 to 271 (R20). -/
abbrev PTile := Fin 272
/-- A partition, 0 to 15. -/
abbrev PartId := Fin 16
/-- A function of the PCI Express endpoint: 0 is PF0 and p + 1 the virtual function of partition p (R550). -/
abbrev FnId := Fin 17

/-- What the memories do while a command runs: scratchpad bytes (keys of `Core.scratch`) whose word still fails parity after
three replays (R333), device-memory bytes (keys of `Core.dram`) whose access is lost (R363), the status with which the host link
ends an access through space 0x3 (0: it succeeds; R556), and the accesses that replays correct: of a scratchpad byte, with the replays
(R332), of a device-memory byte, with the replays after a link check and after a parity failure (R362). DESIGN CHOICE (assumption 2).
DESIGN CHOICE (assumption 2). DESIGN CHOICE (assumption 27). -/
structure MemEnv where
  scratchLost : List Nat := []
  dramLost : List Nat := []
  hostStatus : Nat := 0
  scratchReplayed : List (Nat × Nat) := []
  dramReplayed : List (Nat × Nat × Nat) := []
  deriving DecidableEq, Repr

/-- A scalar-format instruction issued by a tile (R132); `wide` is the 64-bit immediate of a scalar-wide form.
DESIGN CHOICE (assumption 2). -/
structure SArgs where
  tile : PTile
  guard : Fin 8 := 7
  neg : Bool := false
  d : Fin 32 := 0
  a : Fin 32 := 0
  b : Fin 32 := 0
  imm : BitVec 37 := 0
  wide : Option Word := none
  env : MemEnv := {}
  deriving DecidableEq, Repr

/-- A tensor-format instruction issued by a tile (R132); `wide` is the 64-bit immediate of a tensor-wide form.
DESIGN CHOICE (assumption 2). -/
structure TArgs where
  tile : PTile
  guard : Fin 8 := 7
  neg : Bool := false
  td : Fin 16 := 0
  ta : Fin 16 := 0
  tb : Fin 16 := 0
  tc : Fin 16 := 0
  k : Fin 16 := 0
  mods : BitVec 24 := 0
  wide : Option Word := none
  env : MemEnv := {}
  deriving DecidableEq, Repr

/-- An Apong packet as a port hands it to the transport (R431): where it arrived, its header fields, whether its form breaks
check 1 of R455, how its tag checks (0 fails, 1 under the current key, 2 under the previous epoch's key alone), and its
payload, whose length is PLEN. `cas` tells a compare-and-swap request from a fetch-and-add: R431 names no place for it
(assumption 16). DESIGN CHOICE (assumption 2). DESIGN CHOICE (assumption 16). -/
structure Pkt where
  port : Fin 8
  iface : Fin 2 := 0
  malformed : Bool := false
  auth : Fin 3 := 1
  vc : Fin 16
  path : Fin 8 := 0
  key : BitVec 8
  dstDev : BitVec 14
  srcDev : BitVec 14
  dstQp : BitVec 16
  srcQp : BitVec 16
  msn : BitVec 32
  psn : BitVec 24 := 0
  retx : Bool := false
  offset : BitVec 32 := 0
  total : BitVec 32 := 0
  roff : BitVec 46 := 0
  rkey : BitVec 18 := 0
  cas : Bool := false
  payload : List Byte := []
  deriving DecidableEq, Repr

/-- A received Ethernet frame (R412): its interface, length L, whether its FCS is right, its destination address (first wire
byte in the low bits), its VLAN tags, its EtherType and UDP destination port, the time of its first bit, its Apong packet
with its OPCODE if it carries one, and its bytes. DESIGN CHOICE (assumption 2). -/
structure Frame where
  port : Fin 8
  iface : Fin 2 := 0
  len : BitVec 16
  fcsOk : Bool := true
  dst : BitVec 48
  vlans : Fin 4 := 0
  etherType : BitVec 16
  udpPort : Option (BitVec 16) := none
  ns : Fin 40 := 0
  apong : Option (BitVec 8 × Pkt) := none
  bytes : List Byte := []
  deriving DecidableEq, Repr

/-- What the rail sense points and the thermal sensors give for the four quadrants (R46): VCORE in mV, Tj in 0.1 °C. -/
structure QuadSample where
  v : Vector (BitVec 16) 4
  t : Vector (BitVec 16) 4
  deriving DecidableEq, Repr

/-- What the power manager reads in a control step (R586, R592, R596, R599): P in 0.1 W; each quadrant's rail in mV and current in
0.25 A; the thermal sensors in 0.1 °C; VSAVE in mV; the energy of the last millisecond in mJ, by partition and unassigned.
DESIGN CHOICE (assumption 2). DEDUCED (assumption 66). -/
structure Telemetry where
  p : BitVec 16
  mv : Vector (BitVec 10) 4
  amps : Vector (BitVec 11) 4
  temps : Vector (BitVec 12) 32
  vsave : BitVec 14
  energy : Vector (BitVec 32) 16
  rest : BitVec 32
  deriving DecidableEq, Repr

/-- What a boot finds (R610, R618, R619, R643): the step at which each firmware area fails (0: none), whether the save image's CRC is
right, and the indices of cleared sparing records whose resource fails its test. DESIGN CHOICE (assumption 2). -/
structure BootEnv where
  step0 : Fin 6 := 0
  step1 : Fin 6 := 0
  saveGood : Bool := true
  badSpares : List Nat := []
  deriving DecidableEq, Repr

/-- A PCI Express configuration request (R551, R556): a read, a BAR4 size as a power of two of bytes, Bus Master Enable. -/
inductive CfgReq where
  | read
  | bar4Size (log : Fin 38)
  | busMaster (on : Bool)
  deriving DecidableEq, Repr

/-- A command of the block: one constructor per row of spec/opcode_table.json, in the table's order. DESIGN CHOICE (assumption 2). -/
inductive Instr where
  | registerWrite (fn : FnId) (off : BitVec 32) (n : Fin 17) (w : Word) (set : Word)
  | rcRead (fn : FnId) (off : BitVec 32) (n : Fin 17) (inc : Word)
  | rcLowerWordRead (fn : FnId) (off : BitVec 32) (inc : Word)
  | tileSpareRequest (l : Fin 256) (trigger : Fin 3)
  | tileSwapDrained (l : Fin 256) (lost : List Nat)
  | tileSpared (l : Fin 256)
  | regionSkewClamp (x : QuadSample)
  | regionSkewRelease (q : Fin 4)
  | regionSkewPersist (q : Fin 4)
  | tsServoMeasure (offset : Word)
  | tsStep (w : Word)
  | tsSourceLost
  | refclkLost
  | evtQEnable (n : FnId) (w : Word)
  | evtQHeadWrite (n : FnId) (w : Word)
  | evtQueueWriteFail (n : FnId)
  | evtQModTimer (n : FnId)
  | logDataRead
  | nop (x : SArgs)
  | add (x : SArgs)
  | sub (x : SArgs)
  | mul (x : SArgs)
  | divu (x : SArgs)
  | remu (x : SArgs)
  | and (x : SArgs)
  | or (x : SArgs)
  | xor (x : SArgs)
  | shl (x : SArgs)
  | shr (x : SArgs)
  | sar (x : SArgs)
  | mins (x : SArgs)
  | maxs (x : SArgs)
  | taddr (x : SArgs)
  | sysv (x : SArgs)
  | cmpeq (x : SArgs)
  | cmpne (x : SArgs)
  | cmplt (x : SArgs)
  | cmpltu (x : SArgs)
  | cmpge (x : SArgs)
  | cmpgeu (x : SArgs)
  | pand (x : SArgs)
  | por (x : SArgs)
  | pxor (x : SArgs)
  | br (x : SArgs)
  | bri (x : SArgs)
  | call (x : SArgs)
  | halt (x : SArgs)
  | illegalInstruction (tile : PTile) (word next : Word)
  | ld1 (x : SArgs)
  | ld2 (x : SArgs)
  | ld4 (x : SArgs)
  | ld8 (x : SArgs)
  | st1 (x : SArgs)
  | st2 (x : SArgs)
  | st4 (x : SArgs)
  | st8 (x : SArgs)
  | ldt (x : SArgs)
  | stt (x : SArgs)
  | lds1 (x : SArgs)
  | lds2 (x : SArgs)
  | lds4 (x : SArgs)
  | copy (x : TArgs)
  | fill (x : TArgs)
  | gather (x : TArgs)
  | scatter (x : TArgs)
  | mm (x : TArgs)
  | mmsp (x : TArgs)
  | mmbs (x : TArgs)
  | mm32 (x : TArgs)
  | vadd (x : TArgs)
  | vsub (x : TArgs)
  | vmul (x : TArgs)
  | vfma (x : TArgs)
  | vmax (x : TArgs)
  | vmin (x : TArgs)
  | vcvt (x : TArgs)
  | vscale (x : TArgs)
  | vrsum (x : TArgs)
  | vrmax (x : TArgs)
  | vnormsq (x : TArgs)
  | vexp (x : TArgs)
  | vrecip (x : TArgs)
  | vrsqrt (x : TArgs)
  | vsoftmax (x : TArgs)
  | cbload (x : TArgs)
  | encode (x : TArgs)
  | decode (x : TArgs)
  | enc16 (x : TArgs)
  | srelu (x : TArgs)
  | stashSpillDone (t : PTile)
  | sdrop (x : TArgs)
  | sabs (x : TArgs)
  | sclamp (x : TArgs)
  | grelu (x : TArgs)
  | gdrop (x : TArgs)
  | gabs (x : TArgs)
  | gclamp (x : TArgs)
  | grelux (x : TArgs)
  | gdropx (x : TArgs)
  | gabsx (x : TArgs)
  | gclampx (x : TArgs)
  | rput (x : TArgs)
  | rget (x : TArgs)
  | ratom (x : TArgs)
  | rsend (x : TArgs)
  | rrecv (x : TArgs)
  | rscat (x : TArgs)
  | agath (x : TArgs)
  | a2a (x : TArgs)
  | ring (x : TArgs)
  | audit (x : TArgs)
  | ckpt (x : TArgs)
  | update (x : TArgs)
  | updprog (x : TArgs)
  | updprogChunkTimeout (p : PartId) (op : Nat)
  | lscale (x : TArgs)
  | exportOp (x : TArgs)
  | rowupd (x : TArgs)
  | route (x : TArgs)
  | wait (x : SArgs)
  | waitt (x : SArgs)
  | signal (x : SArgs)
  | waitf (x : SArgs)
  | waitfc (x : SArgs)
  | phase (x : SArgs)
  | event (x : SArgs)
  | cqpost (x : SArgs)
  | stest (x : SArgs)
  | cfgbegin (x : TArgs)
  | cfgwr (x : TArgs)
  | cfgcommit (x : TArgs)
  | cfgrback (x : TArgs)
  | operationComplete (id : Nat)
  | programEnd (p : PartId)
  | stepClose (p : PartId)
  | stepAgreementTimeout (p : PartId)
  | updateApplyDone (p : PartId) (op : Nat) (lost : Bool)
  | stepBoundary (p : PartId)
  | programStart (p : PartId)
  | bankOff (t : PTile) (banks : BitVec 24)
  | bankPowerDown (t : PTile) (b : Fin 24)
  | bankOn (t : PTile) (banks : BitVec 24)
  | bankRetain (t : PTile) (banks : BitVec 24)
  | bankWake (t : PTile) (b : Fin 24)
  | bankWakeDone (t : PTile) (b : Fin 24)
  | bankCfgWrite (t : PTile) (w : Word)
  | bankSwapReq (t : PTile) (w : Word)
  | bankSpared (t : PTile) (lost : List Nat)
  | umbraWiped (k : Nat)
  | channelRetrain (h : Fin 48) (ok : Bool)
  | retireReq (w : Word)
  | channelRetireStart
  | granuleMigrated (lost : List Nat)
  | channelRetired (lost : List Nat)
  | ssdEnable (slot : Fin 8) (w : Word) (lbaOk : Bool)
  | nvmeCompletion (id : Nat) (status : BitVec 16)
  | ssdFailed (id : Nat)
  | dirData (p : PartId) (w : Word)
  | rowAccessDeadline (id : Nat) (item : Bool)
  | rowAccept (p : PartId) (op : Nat)
  | rowFetchDone (p : PartId)
  | rowWriteback (slot : Fin 8) (block : BitVec 33)
  | rowWritebackDone (slot : Fin 8) (block : BitVec 33)
  | rowStepDeadline (p : PartId)
  | laneSpareTrigger (e : Fin 4) (lane : Fin 8) (rx : Bool)
  | oeSpareReq (e : Fin 4) (w : Word)
  | txSparePause (e : Fin 4)
  | laneSpared (e : Fin 4) (ok : Bool) (ns : BitVec 16)
  | portEnable (port : Fin 8) (iface : Fin 2) (w : Word)
  | linkUp (port : Fin 8) (iface : Fin 2)
  | linkFault (port : Fin 8) (iface : Fin 2) (cause : Fin 4) (codewords : BitVec 16)
  | linkDown (port : Fin 8) (iface : Fin 2) (cause : Fin 4)
  | frameReceive (f : Frame) (hostFail : Bool)
  | creditUpdate (port : Fin 8) (iface : Fin 2) (vc : Fin 16) (dev : BitVec 14)
  | rawTxTail (port : Fin 8) (iface : Fin 2) (v : BitVec 12) (hostFail : Bool)
  | txTsTag (port : Fin 8) (iface : Fin 2)
  | snap (port : Fin 8) (iface : Fin 2) (groups : BitVec 4)
  | write (k : Pkt)
  | send (k : Pkt)
  | readReq (k : Pkt)
  | readResp (k : Pkt)
  | atomicReq (k : Pkt)
  | atomicResp (k : Pkt)
  | done (k : Pkt)
  | nak (k : Pkt)
  | status (k : Pkt)
  | statusReq (k : Pkt)
  | credit (k : Pkt)
  | creditReq (k : Pkt)
  | creditReturn (k : Pkt)
  | abort (k : Pkt)
  | rtoExpiry (qp : BitVec 16) (msn : BitVec 32) (resp : Bool)
  | backoffExpiry (qp : BitVec 16) (msn : BitVec 32) (context : Bool)
  | reassemblyTimeout (qp : BitVec 16) (msn : BitVec 32)
  | creditIdleReturn (port : Fin 8) (iface : Fin 2) (vc : Fin 16) (dev : BitVec 14)
  | creditRepeat (port : Fin 8) (iface : Fin 2) (vc : Fin 16) (dev : BitVec 14)
  | creditReqRetry (port : Fin 8) (iface : Fin 2) (vc : Fin 16) (dev : BitVec 14)
  | qpCreate (p : PartId) (qp : BitVec 16)
  | qpDestroy (p : PartId) (qp : BitVec 16)
  | regionInval (p : PartId) (key : BitVec 18)
  | regionInvalDrained (p : PartId)
  | contextFetchDone (qp : BitVec 16) (status : BitVec 16)
  | groupForm (p : PartId) (g : Fin 16)
  | groupDissolve (p : PartId) (g : Fin 16)
  | collData (k : Pkt)
  | commit (k : Pkt)
  | replay (k : Pkt)
  | collAbort (k : Pkt)
  | collTimeout (op : Nat)
  | probeCmd (w : Word)
  | probe (k : Pkt)
  | probeResp (k : Pkt)
  | partitionCreate (p : PartId) (groups : BitVec 16)
  | partitionRemove (p : PartId)
  | keyIdsRevoked (p : PartId)
  | partitionFreed (p : PartId)
  | partitionDrainForced (p : PartId)
  | granuleScrubbed (p : PartId)
  | partitionReset (p : PartId) (flr : Bool)
  | installEpoch (host : BitVec 16) (saveOk : Bool)
  | switchEpoch
  | epochGraceEnd
  | installModel (p : PartId) (slot : Fin 16) (env : MemEnv)
  | installBinding (p : PartId) (slot : Fin 16) (env : MemEnv)
  | deleteSlot (p : PartId) (slot : Fin 16)
  | sealCmd (p : PartId) (slot : Fin 16) (env : MemEnv)
  | unsealCmd (p : PartId) (slot : Fin 16) (env : MemEnv)
  | claim (host : BitVec 16)
  | release (host : BitVec 16)
  | lcRetire (host : BitVec 16)
  | tamperDetected (pin : Bool) (sensors : BitVec 5)
  | spdmRequest (fn : FnId) (kind : Fin 3) (index : BitVec 8)
  | sqDoorbell (p : PartId) (q : Fin 64) (v : BitVec 16)
  | cqDoorbell (p : PartId) (q : Fin 64) (v : BitVec 16)
  | sqEntryFetch (p : PartId) (env : MemEnv)
  | program (id : Nat) (env : MemEnv)
  | sqCopy (id : Nat) (env : MemEnv)
  | fence (id : Nat)
  | fenceComplete (id : Nat)
  | orderedItemStart (id : Nat)
  | pCancel (p : PartId) (w : Word)
  | itemTimeLimit (id : Nat)
  | recordWrite (p : PartId) (q : Fin 64)
  | cqWriteError (p : PartId) (q : Fin 64)
  | sqFetchError (p : PartId) (status : BitVec 16)
  | sqEnable (p : PartId) (q : Fin 64) (w : Word)
  | cqEnable (p : PartId) (q : Fin 64) (w : Word)
  | cqModTimer (p : PartId) (q : Fin 64)
  | txnBegin (k : FnId)
  | txnCommit (k : FnId)
  | txnRollback (k : FnId)
  | cfgTxnTimeout (k : FnId)
  | coldReset (cause : Fin 3) (env : BootEnv)
  | deviceReady
  | warmReset
  | pf0Flr
  | tileReset (w : Word)
  | heldClear
  | hostLinkDown
  | hostLinkChanged (rate : Fin 4) (width : Fin 17) (flit : Bool)
  | atsInvalidation (fn : FnId)
  | bar4Access (fn : FnId) (off : BitVec 37) (n : Fin 4097) (data : Option (List Byte))
  | powerControlStep (x : Telemetry)
  | capWrite (w : Word)
  | dutySlot
  | railLimit (q : Fin 4) (amps : BitVec 16)
  | marginTrimmed (q : Fin 4) (low : BitVec 16)
  | marginAlarm (m : Fin 128) (slack : BitVec 8)
  | thermalThrottle (sensor : Fin 32) (tj : BitVec 12)
  | thermalThrottleEnd (sensor : Fin 32) (tj : BitVec 12)
  | thermalTrip (sensor : Fin 32) (reading : BitVec 12)
  | sensorFault (sensor : Fin 32)
  | supplyWarning (rails : BitVec 8) (vsaveLow : Bool)
  | supplyWarningEnd
  | vsaveCharged
  | supplyLossDetected (pin : Bool)
  | saveCommit (us : BitVec 16) (env : BootEnv)
  | saveRestore (w : Word)
  | budgetReport
  | budgetReportReceive (dev : BitVec 14) (period : BitVec 32) (slack : BitVec 16) (cap : BitVec 16) (tag : BitVec 16)
  | budgetDecision
  | tagSlotClear (k : Fin 64) (w : Word)
  | fwStage (host : BitVec 16)
  | fwStaged (flashOk : Bool)
  | fwActivate (force : Bool)
  | fwActivationBarrier
  | fwActivated
  | fwActivateTimeout
  | fwAbandon
  | fwDiscard
  | svnCommit
  | fwTrialPass
  | fwTrialTimeout (bad : BitVec 7)
  | settingsMigrated
  | spareClear (w : Word)
  | tstateCmd (w : Word)
  | gpioEdge (levels : BitVec 8)
  | hostLinkUp (rate : Fin 4) (width : Fin 17) (flit : Bool)
  | refclkReturned (env : BootEnv)
  | perstNRelease (env : BootEnv)
  | pfailNRelease (env : BootEnv)
  | pcsLock (port : Fin 8) (iface : Fin 2)
  | beaconRestarted
  | thermtripTimeout
  | saveVsaveLost (env : BootEnv)
  | provisioning (seed : Nat) (signed_ : Bool)
  | configRequest (fn : FnId) (req : CfgReq)
  deriving DecidableEq, Repr

end Sys2Proof
end

