-- ==== Sys2Proof/Decode.lean ====
section
/-! DEFINITION. Decode.lean: the commands that words spell by the bits of the opcode table. -/

namespace Sys2Proof

/-- The table gives no row any bits, so no word spells a command. DESIGN CHOICE (assumption 2). -/
def decodeTableWord (_nbits _w : Nat) : Option Instr := none

end Sys2Proof
end

