-- ==== Sys2Proof/Config.lean ====
section
/-! DEFINITION. Config.lean: the values the spec leaves open (opaque: nothing can be proved of them), the cryptographic
functions whose standards stand outside the spec (R7), and the constants of the device. -/

namespace Sys2Proof

/-- A value the spec leaves open; the argument is the free counter of the state, so each use is a fresh value. -/
opaque Config.freeWord : Nat → BitVec 64

/-- Random draws of the device: nonces and keys (R512, R527, R537). The argument is the free counter of the state.
DESIGN CHOICE (assumption 72). -/
opaque Config.random : Nat → BitVec 256

/-- SHAKE256 (FIPS 202) of a byte string, 64 bytes of output (R7). DESIGN CHOICE (assumption 72). -/
opaque Config.shake256 : List Byte → List Byte

/-- ML-DSA-65 signature verification (FIPS 204): public key, message, signature (R7). DESIGN CHOICE (assumption 72). -/
opaque Config.mldsaVerify : (key msg sig : List Byte) → Bool

/-- Lomeleri's firmware key, whose hash is fused (R617), and the check of a signature by the owner whose key has this hash (R536, R616). -/
opaque Config.vendorKey : List Byte
/-- DESIGN CHOICE (assumption 72). -/
opaque Config.ownerVerify : (hash msg sig : List Byte) → Bool

/-- DEVICE_HASH of the identity that a seed gives (R524). -/
opaque Config.deviceHash : Nat → List Byte

/-- The X.509 chain of an identity seed, and the value of a firmware measurement (R524, R526), whose contents the spec leaves open.
DESIGN CHOICE (assumption 11). -/
opaque Config.certificates : Nat → List Byte
/-- DESIGN CHOICE (assumption 11). -/
opaque Config.measurement : (index build : Nat) → List Byte

/-- ML-DSA-65 signing under the alias key of an identity seed (R524, R525). -/
opaque Config.mldsaSign : Nat → List Byte → List Byte

/-- ML-KEM-768 decapsulation of a blob and AES-256-GCM opening of what it seals (FIPS 203, SP 800-38D): the device's key
identity, the context, the blob; none when authentication fails (R529). DESIGN CHOICE (assumption 72). -/
opaque Config.openBlob : Nat → List Byte → List Byte → Option (List Byte)

/-- AES-256-GCM sealing: key, nonce and context, plaintext; ciphertext with its tag (SP 800-38D). DESIGN CHOICE (assumption 72). -/
opaque Config.gcmSeal : Nat → List Byte → List Byte → List Byte

/-- AES-256-GCM opening: key, nonce and context, ciphertext with its tag; none when authentication fails. DESIGN CHOICE (assumption 72). -/
opaque Config.gcmOpen : Nat → List Byte → List Byte → Option (List Byte)

/-- AES-256-XTS decryption of a byte of a licensed window: key, byte address, stored byte (R532). -/
opaque Config.xtsByte : Nat → Nat → Byte → Byte

/-- What the byte at a view offset reads as under memory key `k` when it was last written under another key `w` (0: it holds a
zero line, R679): the XTS decryption of foreign ciphertext (R366, R543). DESIGN CHOICE (assumption 8). -/
opaque Config.foreignByte : (k w view : Nat) → Byte

/-- A byte read from another device's memory through a remote group of space 0x5 (R382): device, region key, offset, and the
free counter. -/
opaque Config.remoteByte : (dev key off n : Nat) → Byte

/-- The nanoseconds of a tick (R53). -/
def Config.tickNs : Nat := 40

/-- Ticks in a millisecond (R53). -/
def Config.ticksPerMs : Nat := 25000

/-- The bytes of BAR0 (R551). -/
def Config.bar0Bytes : Nat := 64 * 1024 * 1024

end Sys2Proof
end

