-- ==== Sys2Proof/Machine/Codes.lean ====
section
/-! DEFINITION. Codes.lean: status codes (R17), event classes (R57) and source indices (R58). -/

namespace Sys2Proof.Machine

/-! Status codes of R17. -/
namespace St
def SUCCESS : Nat := 0x0000
def PARITY : Nat := 0x0001
def KEY_REVOKED : Nat := 0x0002
def PARTITION_RESET : Nat := 0x0003
def LENGTH : Nat := 0x0004
def BOUNDS : Nat := 0x0005
def PROTECTION : Nat := 0x0006
def CONTEXT : Nat := 0x0007
def STASH_FULL : Nat := 0x0008
def STEP_SKIPPED : Nat := 0x0009
def SUPPLY_LOSS : Nat := 0x000A
def CHECKSUM : Nat := 0x000B
def TIMEOUT : Nat := 0x000C
def FW_ACTIVATION : Nat := 0x000D
def LINK_DOWN : Nat := 0x000E
def ABORTED : Nat := 0x000F
def ILLEGAL : Nat := 0x0010
def ROW_DEADLINE : Nat := 0x0011
end St

/-! Event classes of R57. -/
namespace Cls
def supply : Nat := 0
def tamper : Nat := 1
def trip : Nat := 2
def device : Nat := 3
def lifeCycle : Nat := 4
def partition : Nat := 5
def link : Nat := 6
def item : Nat := 7
def completion : Nat := 8
def info : Nat := 9
end Cls

/-! Source indices of R58. -/
namespace Src
def tile (t : Nat) : Nat := t
def dme (e : Nat) : Nat := 0x110 + e
def updEngine (n : Nat) : Nat := 0x150 + n
def route (q : Nat) : Nat := 0x160 + q
def region (q : Nat) : Nat := 0x164 + q
def memCtl (c : Nat) : Nat := 0x170 + c
def channel (c : Nat) : Nat := 0x180 + c
def port (p : Nat) : Nat := 0x1B0 + p
def optical (q : Nat) : Nat := 0x1B8 + q
def pcie : Nat := 0x1C0
def beacon : Nat := 0x1C1
def timebase : Nat := 0x1C2
def pfail : Nat := 0x1C3
def supplyMon : Nat := 0x1C4
def tamperN : Nat := 0x1C5
def tamperSensors : Nat := 0x1C6
def gpio (n : Nat) : Nat := 0x1C8 + n
def thermal (n : Nat) : Nat := 0x1D0 + n
def delayMon (n : Nat) : Nat := 0x1F0 + n
def ssd (s : Nat) : Nat := 0x270 + s
def part (p : Nat) : Nat := 0x280 + p
def devTxn : Nat := 0x290
def firmware : Nat := 0x291
def security : Nat := 0x292
def saveStore : Nat := 0x293
end Src

/-- PARTITION of an event of the device as a whole (R67). -/
def devPart : Nat := 0x1F

end Sys2Proof.Machine
end

