-- ==== Sys2Proof/Machine/Regs.lean ====
section
/-! DEFINITION. Regs.lean: every BAR0 register of the device, from the register tables of the spec.

A register array is one `Reg`; its instances are numbered from 0 with the first dimension of `dims` turning fastest.
Offsets are BAR0 offsets (the block base of R552 is added). -/

namespace Sys2Proof.Machine

/-- The access types of R11. -/
inductive Access where
  | RO | RW | W1C | RC | WO | RWL
  deriving DecidableEq, Repr

/-- A register or register array: BAR0 offset of instance 0, the (count, stride) of each dimension, its size in bytes
and the word it holds after reset. -/
structure Reg where
  base : Nat
  dims : List (Nat × Nat)
  size : Nat
  reset : Nat
  deriving DecidableEq, Repr

/-- A field of a register: bits [hi:lo] with an access type (R11). -/
structure Fld where
  reg : Reg
  hi : Nat
  lo : Nat
  access : Access
  deriving DecidableEq, Repr

/-- A row of the register map: the manual's name of the register, the register and its fields. -/
structure RegRow where
  name : String
  reg : Reg
  fields : List Fld
  deriving DecidableEq, Repr

/-- The offset of an instance number within an array of dimensions `dims`. -/
def Reg.offsetOf : List (Nat × Nat) → Nat → Nat
  | [], _ => 0
  | (n, st) :: r, i => (i % n) * st + Reg.offsetOf r (i / n)

/-- The BAR0 offset of instance `i` of a register. -/
def Reg.at (r : Reg) (i : Nat) : Nat := r.base + Reg.offsetOf r.dims i

/-- The number of instances of an array of dimensions `dims`. -/
def Reg.countOf : List (Nat × Nat) → Nat
  | [] => 1
  | (n, _) :: r => n * Reg.countOf r

/-- The instance number that a distance from the base names, if it names one; dimensions are searched from the last, whose
stride is largest. -/
def Reg.indexIn : List (Nat × Nat) → Nat → Option Nat
  | [], 0 => some 0
  | [], _ => none
  | (n, st) :: r, d =>
    let hi := d - d % (match r with | [] => n * st | (_, st') :: _ => st')
    let lo := d - hi
    match Reg.indexIn r hi with
    | none => none
    | some j => if lo % st = 0 ∧ lo / st < n then some (lo / st + n * j) else none

/-- The instance whose register starts at BAR0 offset `off`. -/
def Reg.index (r : Reg) (off : Nat) : Option Nat :=
  if off < r.base then none else Reg.indexIn r.dims (off - r.base)

namespace Regs

/-- DEV.ID (R582). -/
def DEV_ID : Reg := ⟨0x0, [], 8, 0x2B10A201F7A⟩
def DEV_ID_VENDOR : Fld := ⟨DEV_ID, 15, 0, .RO⟩
def DEV_ID_DEVICE : Fld := ⟨DEV_ID, 31, 16, .RO⟩
def DEV_ID_STEPPING : Fld := ⟨DEV_ID, 39, 32, .RO⟩
def DEV_ID_DIOTH_REV : Fld := ⟨DEV_ID, 47, 40, .RO⟩
/-- DEV.PART_NO (R582). -/
def DEV_PART_NO : Reg := ⟨0x8, [(2, 0x8)], 8, 0x0⟩
def DEV_PART_NO_TEXT : Fld := ⟨DEV_PART_NO, 63, 0, .RO⟩
/-- DEV.STATUS (R582). -/
def DEV_STATUS : Reg := ⟨0x18, [], 8, 0x0⟩
def DEV_STATUS_READY : Fld := ⟨DEV_STATUS, 0, 0, .RO⟩
def DEV_STATUS_HELD : Fld := ⟨DEV_STATUS, 1, 1, .RO⟩
def DEV_STATUS_FATAL : Fld := ⟨DEV_STATUS, 2, 2, .W1C⟩
def DEV_STATUS_RECORDS_LOST : Fld := ⟨DEV_STATUS, 3, 3, .W1C⟩
def DEV_STATUS_LAST_RESET : Fld := ⟨DEV_STATUS, 7, 4, .RO⟩
/-- DEV.RESET_CMD (R582). -/
def DEV_RESET_CMD : Reg := ⟨0x20, [], 8, 0x0⟩
def DEV_RESET_CMD_COLD : Fld := ⟨DEV_RESET_CMD, 0, 0, .WO⟩
/-- DEV.RESET_STATUS (R582). -/
def DEV_RESET_STATUS : Reg := ⟨0x28, [], 8, 0x0⟩
def DEV_RESET_STATUS_RESULT : Fld := ⟨DEV_RESET_STATUS, 31, 16, .RO⟩
/-- DEV.TILE_RESET (R582). -/
def DEV_TILE_RESET : Reg := ⟨0x30, [], 8, 0x0⟩
def DEV_TILE_RESET_TILE : Fld := ⟨DEV_TILE_RESET, 8, 0, .WO⟩
def DEV_TILE_RESET_GO : Fld := ⟨DEV_TILE_RESET, 9, 9, .WO⟩
/-- DEV.TILE_RESET_STATUS (R582). -/
def DEV_TILE_RESET_STATUS : Reg := ⟨0x38, [], 8, 0x0⟩
def DEV_TILE_RESET_STATUS_BUSY : Fld := ⟨DEV_TILE_RESET_STATUS, 0, 0, .RO⟩
def DEV_TILE_RESET_STATUS_RESULT : Fld := ⟨DEV_TILE_RESET_STATUS, 31, 16, .RO⟩
/-- DEV.HELD_COUNT (R582). -/
def DEV_HELD_COUNT : Reg := ⟨0x40, [], 8, 0x0⟩
def DEV_HELD_COUNT_COUNT : Fld := ⟨DEV_HELD_COUNT, 31, 0, .RO⟩
/-- DEV.HELD_INDEX (R582). -/
def DEV_HELD_INDEX : Reg := ⟨0x48, [], 8, 0x0⟩
def DEV_HELD_INDEX_INDEX : Fld := ⟨DEV_HELD_INDEX, 31, 0, .RW⟩
def DEV_HELD_INDEX_PART : Fld := ⟨DEV_HELD_INDEX, 36, 32, .RO⟩
/-- DEV.HELD_DATA (R582). -/
def DEV_HELD_DATA : Reg := ⟨0x50, [(4, 0x8)], 8, 0x0⟩
def DEV_HELD_DATA_RECORD : Fld := ⟨DEV_HELD_DATA, 63, 0, .RO⟩
/-- DEV.HELD_CLEAR (R582). -/
def DEV_HELD_CLEAR : Reg := ⟨0x70, [], 8, 0x0⟩
def DEV_HELD_CLEAR_CLEAR : Fld := ⟨DEV_HELD_CLEAR, 0, 0, .WO⟩
/-- DEV.SPARE_COUNT (R651). -/
def DEV_SPARE_COUNT : Reg := ⟨0x100, [], 8, 0x0⟩
def DEV_SPARE_COUNT_COUNT : Fld := ⟨DEV_SPARE_COUNT, 10, 0, .RO⟩
/-- DEV.SPARE_INDEX (R651). -/
def DEV_SPARE_INDEX : Reg := ⟨0x108, [], 8, 0x0⟩
def DEV_SPARE_INDEX_INDEX : Fld := ⟨DEV_SPARE_INDEX, 9, 0, .RW⟩
/-- DEV.SPARE_DATA (R651). -/
def DEV_SPARE_DATA : Reg := ⟨0x110, [], 8, 0x0⟩
def DEV_SPARE_DATA_KIND : Fld := ⟨DEV_SPARE_DATA, 1, 0, .RO⟩
def DEV_SPARE_DATA_UNIT : Fld := ⟨DEV_SPARE_DATA, 10, 2, .RO⟩
def DEV_SPARE_DATA_SUB : Fld := ⟨DEV_SPARE_DATA, 15, 11, .RO⟩
def DEV_SPARE_DATA_CLEARED : Fld := ⟨DEV_SPARE_DATA, 16, 16, .RO⟩
def DEV_SPARE_DATA_HOURS : Fld := ⟨DEV_SPARE_DATA, 63, 32, .RO⟩
/-- DEV.SPARE_CLEAR (R651). -/
def DEV_SPARE_CLEAR : Reg := ⟨0x118, [], 8, 0x0⟩
def DEV_SPARE_CLEAR_INDEX : Fld := ⟨DEV_SPARE_CLEAR, 9, 0, .WO⟩
def DEV_SPARE_CLEAR_ALL : Fld := ⟨DEV_SPARE_CLEAR, 10, 10, .WO⟩
def DEV_SPARE_CLEAR_GO : Fld := ⟨DEV_SPARE_CLEAR, 11, 11, .WO⟩
/-- DEV.FATAL_INFO (R651). -/
def DEV_FATAL_INFO : Reg := ⟨0x120, [], 8, 0x0⟩
def DEV_FATAL_INFO_CODE : Fld := ⟨DEV_FATAL_INFO, 15, 0, .RO⟩
def DEV_FATAL_INFO_SOURCE : Fld := ⟨DEV_FATAL_INFO, 27, 16, .RO⟩
def DEV_FATAL_INFO_CLASS : Fld := ⟨DEV_FATAL_INFO, 31, 28, .RO⟩
/-- DEV.FAULT_PIN (R651). -/
def DEV_FAULT_PIN : Reg := ⟨0x128, [], 8, 0x1⟩
def DEV_FAULT_PIN_LOW : Fld := ⟨DEV_FAULT_PIN, 0, 0, .RO⟩
/-- DEV.DEGRADED (R651). -/
def DEV_DEGRADED : Reg := ⟨0x130, [], 8, 0x0⟩
def DEV_DEGRADED_GROUPS : Fld := ⟨DEV_DEGRADED, 15, 0, .RO⟩
/-- DEV.TSTATE_CMD (R651). -/
def DEV_TSTATE_CMD : Reg := ⟨0x140, [], 8, 0x0⟩
def DEV_TSTATE_CMD_PART : Fld := ⟨DEV_TSTATE_CMD, 3, 0, .WO⟩
def DEV_TSTATE_CMD_GO : Fld := ⟨DEV_TSTATE_CMD, 4, 4, .WO⟩
/-- DEV.TSTATE_ARG (R651). -/
def DEV_TSTATE_ARG : Reg := ⟨0x148, [], 8, 0x0⟩
def DEV_TSTATE_ARG_OFFSET : Fld := ⟨DEV_TSTATE_ARG, 39, 0, .RW⟩
/-- DEV.TSTATE_STATUS (R651). -/
def DEV_TSTATE_STATUS : Reg := ⟨0x150, [], 8, 0x0⟩
def DEV_TSTATE_STATUS_BUSY : Fld := ⟨DEV_TSTATE_STATUS, 0, 0, .RO⟩
def DEV_TSTATE_STATUS_RESULT : Fld := ⟨DEV_TSTATE_STATUS, 31, 16, .RO⟩
/-- DEV.GPIO_CFG (R666). -/
def DEV_GPIO_CFG : Reg := ⟨0x200, [], 8, 0x0⟩
def DEV_GPIO_CFG_OE : Fld := ⟨DEV_GPIO_CFG, 7, 0, .RW⟩
def DEV_GPIO_CFG_OUT : Fld := ⟨DEV_GPIO_CFG, 15, 8, .RW⟩
/-- DEV.GPIO_IN (R666). -/
def DEV_GPIO_IN : Reg := ⟨0x208, [], 8, 0x0⟩
def DEV_GPIO_IN_LEVEL : Fld := ⟨DEV_GPIO_IN, 7, 0, .RO⟩
/-- DEV.GPIO_EDGE (R666). -/
def DEV_GPIO_EDGE : Reg := ⟨0x210, [], 8, 0x0⟩
def DEV_GPIO_EDGE_RISE : Fld := ⟨DEV_GPIO_EDGE, 7, 0, .W1C⟩
def DEV_GPIO_EDGE_FALL : Fld := ⟨DEV_GPIO_EDGE, 15, 8, .W1C⟩
/-- EVT.TICK_COUNT (R76). -/
def EVT_TICK_COUNT : Reg := ⟨0x10000, [], 8, 0x0⟩
def EVT_TICK_COUNT_TICK : Fld := ⟨EVT_TICK_COUNT, 63, 0, .RO⟩
/-- EVT.TS (R76). -/
def EVT_TS : Reg := ⟨0x10008, [], 8, 0x0⟩
def EVT_TS_TS : Fld := ⟨EVT_TS, 63, 0, .RO⟩
/-- EVT.TS_CTRL (R76). -/
def EVT_TS_CTRL : Reg := ⟨0x10010, [], 8, 0x20⟩
def EVT_TS_CTRL_SRC : Fld := ⟨EVT_TS_CTRL, 1, 0, .RW⟩
def EVT_TS_CTRL_PTP_PORT : Fld := ⟨EVT_TS_CTRL, 4, 2, .RW⟩
def EVT_TS_CTRL_SLEW_EN : Fld := ⟨EVT_TS_CTRL, 5, 5, .RW⟩
/-- EVT.TS_STEP (R76). -/
def EVT_TS_STEP : Reg := ⟨0x10018, [], 8, 0x0⟩
def EVT_TS_STEP_STEP : Fld := ⟨EVT_TS_STEP, 63, 0, .WO⟩
/-- EVT.TS_OFFSET (R76). -/
def EVT_TS_OFFSET : Reg := ⟨0x10020, [], 8, 0x0⟩
def EVT_TS_OFFSET_OFFSET : Fld := ⟨EVT_TS_OFFSET, 63, 0, .RO⟩
/-- EVT.TS_STATUS (R76). -/
def EVT_TS_STATUS : Reg := ⟨0x10028, [], 8, 0x0⟩
def EVT_TS_STATUS_LOCKED : Fld := ⟨EVT_TS_STATUS, 0, 0, .RO⟩
def EVT_TS_STATUS_STEP_ERR : Fld := ⟨EVT_TS_STATUS, 1, 1, .W1C⟩
def EVT_TS_STATUS_REF_LOST : Fld := ⟨EVT_TS_STATUS, 2, 2, .W1C⟩
def EVT_TS_STATUS_REF_NOW_ABSENT : Fld := ⟨EVT_TS_STATUS, 3, 3, .RO⟩
/-- EVT.LOG_HEAD (R76). -/
def EVT_LOG_HEAD : Reg := ⟨0x10040, [], 8, 0x0⟩
def EVT_LOG_HEAD_HEAD : Fld := ⟨EVT_LOG_HEAD, 11, 0, .RO⟩
/-- EVT.LOG_LOST (R76). -/
def EVT_LOG_LOST : Reg := ⟨0x10048, [], 8, 0x0⟩
def EVT_LOG_LOST_LOST : Fld := ⟨EVT_LOG_LOST, 63, 0, .RC⟩
/-- EVT.LOG_CTRL (R76). -/
def EVT_LOG_CTRL : Reg := ⟨0x10050, [], 8, 0x0⟩
def EVT_LOG_CTRL_FREEZE : Fld := ⟨EVT_LOG_CTRL, 0, 0, .RW⟩
/-- EVT.LOG_INDEX (R76). -/
def EVT_LOG_INDEX : Reg := ⟨0x10058, [], 8, 0x0⟩
def EVT_LOG_INDEX_INDEX : Fld := ⟨EVT_LOG_INDEX, 11, 0, .RW⟩
/-- EVT.LOG_DATA (R76). -/
def EVT_LOG_DATA : Reg := ⟨0x10060, [(4, 0x8)], 8, 0x0⟩
def EVT_LOG_DATA_DATA : Fld := ⟨EVT_LOG_DATA, 63, 0, .RO⟩
/-- EVT.SKEW_STATUS (R76). -/
def EVT_SKEW_STATUS : Reg := ⟨0x10080, [], 8, 0x0⟩
def EVT_SKEW_STATUS_CLAMPED : Fld := ⟨EVT_SKEW_STATUS, 3, 0, .RO⟩
/-- EVT.SKEW_CLAMPS (R76). -/
def EVT_SKEW_CLAMPS : Reg := ⟨0x10090, [(4, 0x8)], 8, 0x0⟩
def EVT_SKEW_CLAMPS_COUNT : Fld := ⟨EVT_SKEW_CLAMPS, 63, 0, .RC⟩
/-- EVT.Q_BASE (R76). -/
def EVT_Q_BASE : Reg := ⟨0x11000, [(17, 0x80)], 8, 0x0⟩
def EVT_Q_BASE_BASE : Fld := ⟨EVT_Q_BASE, 63, 12, .RW⟩
/-- EVT.Q_SIZE (R76). -/
def EVT_Q_SIZE : Reg := ⟨0x11008, [(17, 0x80)], 8, 0x0⟩
def EVT_Q_SIZE_SIZE : Fld := ⟨EVT_Q_SIZE, 16, 0, .RW⟩
/-- EVT.Q_TAIL (R76). -/
def EVT_Q_TAIL : Reg := ⟨0x11010, [(17, 0x80)], 8, 0x0⟩
def EVT_Q_TAIL_TAIL : Fld := ⟨EVT_Q_TAIL, 15, 0, .RO⟩
/-- EVT.Q_HEAD (R76). -/
def EVT_Q_HEAD : Reg := ⟨0x11018, [(17, 0x80)], 8, 0x0⟩
def EVT_Q_HEAD_HEAD : Fld := ⟨EVT_Q_HEAD, 15, 0, .RW⟩
/-- EVT.Q_CTRL (R76). -/
def EVT_Q_CTRL : Reg := ⟨0x11020, [(17, 0x80)], 8, 0x90⟩
def EVT_Q_CTRL_ENABLE : Fld := ⟨EVT_Q_CTRL, 0, 0, .RW⟩
def EVT_Q_CTRL_COPY_ALL : Fld := ⟨EVT_Q_CTRL, 1, 1, .RW⟩
def EVT_Q_CTRL_CLASS_MAX : Fld := ⟨EVT_Q_CTRL, 7, 4, .RW⟩
def EVT_Q_CTRL_VECTOR : Fld := ⟨EVT_Q_CTRL, 26, 16, .RW⟩
/-- EVT.Q_MOD (R76). -/
def EVT_Q_MOD : Reg := ⟨0x11028, [(17, 0x80)], 8, 0x1⟩
def EVT_Q_MOD_COUNT : Fld := ⟨EVT_Q_MOD, 15, 0, .RW⟩
def EVT_Q_MOD_TIMER : Fld := ⟨EVT_Q_MOD, 31, 16, .RW⟩
/-- EVT.Q_STATUS (R76). -/
def EVT_Q_STATUS : Reg := ⟨0x11030, [(17, 0x80)], 8, 0x0⟩
def EVT_Q_STATUS_ACTIVE : Fld := ⟨EVT_Q_STATUS, 0, 0, .RO⟩
def EVT_Q_STATUS_CFG_ERR : Fld := ⟨EVT_Q_STATUS, 1, 1, .W1C⟩
def EVT_Q_STATUS_OVERFLOW : Fld := ⟨EVT_Q_STATUS, 2, 2, .W1C⟩
def EVT_Q_STATUS_WRITE_ERR : Fld := ⟨EVT_Q_STATUS, 3, 3, .W1C⟩
/-- EVT.Q_DROPPED (R76). -/
def EVT_Q_DROPPED : Reg := ⟨0x11038, [(17, 0x80)], 8, 0x0⟩
def EVT_Q_DROPPED_DROPPED : Fld := ⟨EVT_Q_DROPPED, 63, 0, .RC⟩
/-- CFG.TXN_CMD (R583). -/
def CFG_TXN_CMD : Reg := ⟨0x20000, [], 8, 0x0⟩
def CFG_TXN_CMD_CMD : Fld := ⟨CFG_TXN_CMD, 1, 0, .WO⟩
/-- CFG.P_TXN_CMD (R583). -/
def CFG_P_TXN_CMD : Reg := ⟨0x21000, [(16, 0x100)], 8, 0x0⟩
def CFG_P_TXN_CMD_CMD : Fld := ⟨CFG_P_TXN_CMD, 1, 0, .WO⟩
/-- CFG.TXN_STATUS (R583). -/
def CFG_TXN_STATUS : Reg := ⟨0x20008, [], 8, 0x0⟩
def CFG_TXN_STATUS_OPEN : Fld := ⟨CFG_TXN_STATUS, 0, 0, .RO⟩
def CFG_TXN_STATUS_OUTSIDE : Fld := ⟨CFG_TXN_STATUS, 1, 1, .W1C⟩
def CFG_TXN_STATUS_OVERFLOW : Fld := ⟨CFG_TXN_STATUS, 2, 2, .W1C⟩
def CFG_TXN_STATUS_END : Fld := ⟨CFG_TXN_STATUS, 10, 8, .RO⟩
def CFG_TXN_STATUS_RESULT : Fld := ⟨CFG_TXN_STATUS, 31, 16, .RO⟩
/-- CFG.P_TXN_STATUS (R583). -/
def CFG_P_TXN_STATUS : Reg := ⟨0x21008, [(16, 0x100)], 8, 0x0⟩
def CFG_P_TXN_STATUS_OPEN : Fld := ⟨CFG_P_TXN_STATUS, 0, 0, .RO⟩
def CFG_P_TXN_STATUS_OUTSIDE : Fld := ⟨CFG_P_TXN_STATUS, 1, 1, .W1C⟩
def CFG_P_TXN_STATUS_OVERFLOW : Fld := ⟨CFG_P_TXN_STATUS, 2, 2, .W1C⟩
def CFG_P_TXN_STATUS_END : Fld := ⟨CFG_P_TXN_STATUS, 10, 8, .RO⟩
def CFG_P_TXN_STATUS_RESULT : Fld := ⟨CFG_P_TXN_STATUS, 31, 16, .RO⟩
/-- CFG.TXN_WRITES (R583). -/
def CFG_TXN_WRITES : Reg := ⟨0x20010, [], 8, 0x0⟩
def CFG_TXN_WRITES_COUNT : Fld := ⟨CFG_TXN_WRITES, 12, 0, .RO⟩
/-- CFG.P_TXN_WRITES (R583). -/
def CFG_P_TXN_WRITES : Reg := ⟨0x21010, [(16, 0x100)], 8, 0x0⟩
def CFG_P_TXN_WRITES_COUNT : Fld := ⟨CFG_P_TXN_WRITES, 10, 0, .RO⟩
/-- CFG.TXN_ERR (R583). -/
def CFG_TXN_ERR : Reg := ⟨0x20018, [], 8, 0x0⟩
def CFG_TXN_ERR_ERR_OFFSET : Fld := ⟨CFG_TXN_ERR, 25, 0, .RO⟩
/-- CFG.P_TXN_ERR (R583). -/
def CFG_P_TXN_ERR : Reg := ⟨0x21018, [(16, 0x100)], 8, 0x0⟩
def CFG_P_TXN_ERR_ERR_OFFSET : Fld := ⟨CFG_P_TXN_ERR, 25, 0, .RO⟩
/-- CFG.TXN_OPENED (R583). -/
def CFG_TXN_OPENED : Reg := ⟨0x20020, [], 8, 0x0⟩
def CFG_TXN_OPENED_TICK : Fld := ⟨CFG_TXN_OPENED, 63, 0, .RO⟩
/-- CFG.P_TXN_OPENED (R583). -/
def CFG_P_TXN_OPENED : Reg := ⟨0x21020, [(16, 0x100)], 8, 0x0⟩
def CFG_P_TXN_OPENED_TICK : Fld := ⟨CFG_P_TXN_OPENED, 63, 0, .RO⟩
/-- CFG.TXN_COMMITS (R583). -/
def CFG_TXN_COMMITS : Reg := ⟨0x20028, [], 8, 0x0⟩
def CFG_TXN_COMMITS_COUNT : Fld := ⟨CFG_TXN_COMMITS, 63, 0, .RC⟩
/-- CFG.P_TXN_COMMITS (R583). -/
def CFG_P_TXN_COMMITS : Reg := ⟨0x21028, [(16, 0x100)], 8, 0x0⟩
def CFG_P_TXN_COMMITS_COUNT : Fld := ⟨CFG_P_TXN_COMMITS, 63, 0, .RC⟩
/-- PWR.PWR_STATUS (R614). -/
def PWR_PWR_STATUS : Reg := ⟨0x40000, [], 8, 0xE⟩
def PWR_PWR_STATUS_CAP_UNMET : Fld := ⟨PWR_PWR_STATUS, 0, 0, .RO⟩
def PWR_PWR_STATUS_DUTY : Fld := ⟨PWR_PWR_STATUS, 3, 1, .RO⟩
def PWR_PWR_STATUS_THROTTLE : Fld := ⟨PWR_PWR_STATUS, 7, 4, .RO⟩
def PWR_PWR_STATUS_SUPPLY_WARN : Fld := ⟨PWR_PWR_STATUS, 8, 8, .RO⟩
def PWR_PWR_STATUS_VSAVE_CHARGED : Fld := ⟨PWR_PWR_STATUS, 9, 9, .RO⟩
def PWR_PWR_STATUS_CFG_ERR : Fld := ⟨PWR_PWR_STATUS, 10, 10, .W1C⟩
/-- PWR.CAP (R614). -/
def PWR_CAP : Reg := ⟨0x40008, [], 8, 0x2BC⟩
def PWR_CAP_WATTS : Fld := ⟨PWR_CAP, 9, 0, .RW⟩
/-- PWR.CAP_EFF (R614). -/
def PWR_CAP_EFF : Reg := ⟨0x40010, [], 8, 0x2BC⟩
def PWR_CAP_EFF_WATTS : Fld := ⟨PWR_CAP_EFF, 9, 0, .RO⟩
/-- PWR.CAP_CFG (R614). -/
def PWR_CAP_CFG : Reg := ⟨0x40018, [], 8, 0xA⟩
def PWR_CAP_CFG_UP_PCT : Fld := ⟨PWR_CAP_CFG, 4, 0, .RW⟩
/-- PWR.VTARGET (R614). -/
def PWR_VTARGET : Reg := ⟨0x40020, [], 8, 0x2EE⟩
def PWR_VTARGET_MV : Fld := ⟨PWR_VTARGET, 9, 0, .RW⟩
/-- PWR.RAIL_LIMIT (R614). -/
def PWR_RAIL_LIMIT : Reg := ⟨0x40028, [], 8, 0x104⟩
def PWR_RAIL_LIMIT_AMPS : Fld := ⟨PWR_RAIL_LIMIT, 8, 0, .RW⟩
/-- PWR.POWER (R614). -/
def PWR_POWER : Reg := ⟨0x40030, [], 8, 0x0⟩
def PWR_POWER_DECIWATTS : Fld := ⟨PWR_POWER, 15, 0, .RO⟩
/-- PWR.VR_ADDR (R614). -/
def PWR_VR_ADDR : Reg := ⟨0x40038, [], 8, 0x0⟩
def PWR_VR_ADDR_ADDR0 : Fld := ⟨PWR_VR_ADDR, 6, 0, .RW⟩
def PWR_VR_ADDR_ADDR1 : Fld := ⟨PWR_VR_ADDR, 14, 8, .RW⟩
def PWR_VR_ADDR_ADDR2 : Fld := ⟨PWR_VR_ADDR, 22, 16, .RW⟩
def PWR_VR_ADDR_ADDR3 : Fld := ⟨PWR_VR_ADDR, 30, 24, .RW⟩
/-- PWR.VCORE (R614). -/
def PWR_VCORE : Reg := ⟨0x40040, [(4, 0x8)], 8, 0x0⟩
def PWR_VCORE_SET_MV : Fld := ⟨PWR_VCORE, 9, 0, .RO⟩
def PWR_VCORE_MEAS_MV : Fld := ⟨PWR_VCORE, 25, 16, .RO⟩
def PWR_VCORE_AMPS : Fld := ⟨PWR_VCORE, 42, 32, .RO⟩
/-- PWR.MARGIN (R614). -/
def PWR_MARGIN : Reg := ⟨0x40060, [(4, 0x8)], 8, 0x7000000000000⟩
def PWR_MARGIN_MARGIN_MV : Fld := ⟨PWR_MARGIN, 7, 0, .RO⟩
def PWR_MARGIN_VMIN_MV : Fld := ⟨PWR_MARGIN, 25, 16, .RO⟩
def PWR_MARGIN_FLOOR_MV : Fld := ⟨PWR_MARGIN, 42, 32, .RO⟩
def PWR_MARGIN_DUTY : Fld := ⟨PWR_MARGIN, 50, 48, .RO⟩
/-- PWR.VSAVE_MEAS (R614). -/
def PWR_VSAVE_MEAS : Reg := ⟨0x40080, [], 8, 0x0⟩
def PWR_VSAVE_MEAS_MV : Fld := ⟨PWR_VSAVE_MEAS, 13, 0, .RO⟩
/-- PWR.THERM_CFG (R614). -/
def PWR_THERM_CFG : Reg := ⟨0x40088, [], 8, 0x25F⟩
def PWR_THERM_CFG_THROTTLE : Fld := ⟨PWR_THERM_CFG, 7, 0, .RW⟩
def PWR_THERM_CFG_HYST : Fld := ⟨PWR_THERM_CFG, 11, 8, .RW⟩
/-- PWR.TEMP (R614). -/
def PWR_TEMP : Reg := ⟨0x40090, [(32, 0x8)], 8, 0x0⟩
def PWR_TEMP_DECI_C : Fld := ⟨PWR_TEMP, 11, 0, .RO⟩
def PWR_TEMP_FAILED : Fld := ⟨PWR_TEMP, 12, 12, .RO⟩
/-- PWR.TJ (R614). -/
def PWR_TJ : Reg := ⟨0x40190, [(4, 0x8)], 8, 0x0⟩
def PWR_TJ_DECI_C : Fld := ⟨PWR_TJ, 11, 0, .RO⟩
/-- PWR.THROTTLE_TICKS (R614). -/
def PWR_THROTTLE_TICKS : Reg := ⟨0x401B0, [], 8, 0x0⟩
def PWR_THROTTLE_TICKS_COUNT : Fld := ⟨PWR_THROTTLE_TICKS, 63, 0, .RC⟩
/-- PWR.GATED_TICKS (R614). -/
def PWR_GATED_TICKS : Reg := ⟨0x401B8, [], 8, 0x0⟩
def PWR_GATED_TICKS_COUNT : Fld := ⟨PWR_GATED_TICKS, 63, 0, .RC⟩
/-- PWR.LIMIT_EVENTS (R614). -/
def PWR_LIMIT_EVENTS : Reg := ⟨0x401C0, [], 8, 0x0⟩
def PWR_LIMIT_EVENTS_COUNT : Fld := ⟨PWR_LIMIT_EVENTS, 63, 0, .RC⟩
/-- PWR.ENERGY_DEV (R614). -/
def PWR_ENERGY_DEV : Reg := ⟨0x401C8, [], 8, 0x0⟩
def PWR_ENERGY_DEV_MJ : Fld := ⟨PWR_ENERGY_DEV, 63, 0, .RO⟩
/-- PWR.ENERGY_UNASSIGNED (R614). -/
def PWR_ENERGY_UNASSIGNED : Reg := ⟨0x401D0, [], 8, 0x0⟩
def PWR_ENERGY_UNASSIGNED_MJ : Fld := ⟨PWR_ENERGY_UNASSIGNED, 63, 0, .RO⟩
/-- PWR.ENERGY_PART (R614). -/
def PWR_ENERGY_PART : Reg := ⟨0x40200, [(16, 0x8)], 8, 0x0⟩
def PWR_ENERGY_PART_MJ : Fld := ⟨PWR_ENERGY_PART, 63, 0, .RO⟩
/-- PWR.JOB_TAG (R614). -/
def PWR_JOB_TAG : Reg := ⟨0x40280, [(16, 0x8)], 8, 0x0⟩
def PWR_JOB_TAG_TAG : Fld := ⟨PWR_JOB_TAG, 15, 0, .RW⟩
/-- PWR.TAG_STATUS (R614). -/
def PWR_TAG_STATUS : Reg := ⟨0x40300, [], 8, 0x0⟩
def PWR_TAG_STATUS_TAG_OVF : Fld := ⟨PWR_TAG_STATUS, 0, 0, .W1C⟩
/-- PWR.TAG_SLOT (R614). -/
def PWR_TAG_SLOT : Reg := ⟨0x40400, [(64, 0x10)], 8, 0x0⟩
def PWR_TAG_SLOT_TAG : Fld := ⟨PWR_TAG_SLOT, 15, 0, .RO⟩
def PWR_TAG_SLOT_VALID : Fld := ⟨PWR_TAG_SLOT, 16, 16, .RO⟩
def PWR_TAG_SLOT_CLEAR : Fld := ⟨PWR_TAG_SLOT, 17, 17, .WO⟩
/-- PWR.TAG_ENERGY (R614). -/
def PWR_TAG_ENERGY : Reg := ⟨0x40408, [(64, 0x10)], 8, 0x0⟩
def PWR_TAG_ENERGY_MJ : Fld := ⟨PWR_TAG_ENERGY, 63, 0, .RO⟩
/-- PWR.HERD_PWR (R614). -/
def PWR_HERD_PWR : Reg := ⟨0x40800, [], 8, 0x80000640A00⟩
def PWR_HERD_PWR_EN : Fld := ⟨PWR_HERD_PWR, 0, 0, .RW⟩
def PWR_HERD_PWR_STEP_W : Fld := ⟨PWR_HERD_PWR, 15, 8, .RW⟩
def PWR_HERD_PWR_PERIOD_MS : Fld := ⟨PWR_HERD_PWR, 31, 16, .RW⟩
def PWR_HERD_PWR_HYST : Fld := ⟨PWR_HERD_PWR, 47, 32, .RW⟩
def PWR_HERD_PWR_GROUP_TAG : Fld := ⟨PWR_HERD_PWR, 63, 48, .RW⟩
/-- PWR.HERD_ORG (R614). -/
def PWR_HERD_ORG : Reg := ⟨0x40808, [], 8, 0x0⟩
def PWR_HERD_ORG_ORG_ID : Fld := ⟨PWR_HERD_ORG, 23, 0, .RW⟩
def PWR_HERD_ORG_COUNT : Fld := ⟨PWR_HERD_ORG, 30, 24, .RW⟩
/-- PWR.CAP_RANGE (R614). -/
def PWR_CAP_RANGE : Reg := ⟨0x40810, [], 8, 0x2BC00FA⟩
def PWR_CAP_RANGE_MIN : Fld := ⟨PWR_CAP_RANGE, 9, 0, .RW⟩
def PWR_CAP_RANGE_MAX : Fld := ⟨PWR_CAP_RANGE, 25, 16, .RW⟩
/-- PWR.HERD_STATUS (R614). -/
def PWR_HERD_STATUS : Reg := ⟨0x40818, [], 8, 0x0⟩
def PWR_HERD_STATUS_PERIOD : Fld := ⟨PWR_HERD_STATUS, 31, 0, .RO⟩
def PWR_HERD_STATUS_SLACK : Fld := ⟨PWR_HERD_STATUS, 47, 32, .RO⟩
/-- PWR.TRANSFERS (R614). -/
def PWR_TRANSFERS : Reg := ⟨0x40820, [], 8, 0x0⟩
def PWR_TRANSFERS_COUNT : Fld := ⟨PWR_TRANSFERS, 63, 0, .RC⟩
/-- PWR.SAVE_STATUS (R614). -/
def PWR_SAVE_STATUS : Reg := ⟨0x40A00, [], 8, 0x0⟩
def PWR_SAVE_STATUS_IMAGE : Fld := ⟨PWR_SAVE_STATUS, 1, 0, .RO⟩
def PWR_SAVE_STATUS_ITEMS : Fld := ⟨PWR_SAVE_STATUS, 17, 2, .RO⟩
def PWR_SAVE_STATUS_PARTS : Fld := ⟨PWR_SAVE_STATUS, 33, 18, .RO⟩
def PWR_SAVE_STATUS_SAVE_US : Fld := ⟨PWR_SAVE_STATUS, 63, 48, .RO⟩
/-- PWR.SAVE_CMD (R614). -/
def PWR_SAVE_CMD : Reg := ⟨0x40A08, [], 8, 0x0⟩
def PWR_SAVE_CMD_SECTION : Fld := ⟨PWR_SAVE_CMD, 3, 0, .WO⟩
def PWR_SAVE_CMD_PART : Fld := ⟨PWR_SAVE_CMD, 7, 4, .WO⟩
def PWR_SAVE_CMD_GO : Fld := ⟨PWR_SAVE_CMD, 8, 8, .WO⟩
/-- PWR.SAVE_CMD_STATUS (R614). -/
def PWR_SAVE_CMD_STATUS : Reg := ⟨0x40A10, [], 8, 0x0⟩
def PWR_SAVE_CMD_STATUS_BUSY : Fld := ⟨PWR_SAVE_CMD_STATUS, 0, 0, .RO⟩
def PWR_SAVE_CMD_STATUS_RESULT : Fld := ⟨PWR_SAVE_CMD_STATUS, 31, 16, .RO⟩
/-- PWR.SAVE_COUNT (R614). -/
def PWR_SAVE_COUNT : Reg := ⟨0x40A18, [], 8, 0x0⟩
def PWR_SAVE_COUNT_COUNT : Fld := ⟨PWR_SAVE_COUNT, 31, 0, .RO⟩
/-- PWR.HERD_MEMBER (R614). -/
def PWR_HERD_MEMBER : Reg := ⟨0x40C00, [(64, 0x8)], 8, 0x0⟩
def PWR_HERD_MEMBER_DEV : Fld := ⟨PWR_HERD_MEMBER, 13, 0, .RW⟩
/-- SEC.LC_STATE (R548). -/
def SEC_LC_STATE : Reg := ⟨0x60000, [], 8, 0x0⟩
def SEC_LC_STATE_STATE : Fld := ⟨SEC_LC_STATE, 1, 0, .RO⟩
def SEC_LC_STATE_OWN_STEPS : Fld := ⟨SEC_LC_STATE, 13, 8, .RO⟩
/-- SEC.LC_CMD (R548). -/
def SEC_LC_CMD : Reg := ⟨0x60008, [], 8, 0x0⟩
def SEC_LC_CMD_CMD : Fld := ⟨SEC_LC_CMD, 2, 0, .WO⟩
def SEC_LC_CMD_GO : Fld := ⟨SEC_LC_CMD, 3, 3, .WO⟩
/-- SEC.LC_ARG (R548). -/
def SEC_LC_ARG : Reg := ⟨0x60010, [], 8, 0x0⟩
def SEC_LC_ARG_ADDR : Fld := ⟨SEC_LC_ARG, 63, 0, .RW⟩
/-- SEC.LC_STATUS (R548). -/
def SEC_LC_STATUS : Reg := ⟨0x60018, [], 8, 0x0⟩
def SEC_LC_STATUS_BUSY : Fld := ⟨SEC_LC_STATUS, 0, 0, .RO⟩
def SEC_LC_STATUS_RESULT : Fld := ⟨SEC_LC_STATUS, 31, 16, .RO⟩
def SEC_LC_STATUS_CFG_ERR : Fld := ⟨SEC_LC_STATUS, 32, 32, .W1C⟩
/-- SEC.TAMPER_STATUS (R548). -/
def SEC_TAMPER_STATUS : Reg := ⟨0x60020, [], 8, 0x0⟩
def SEC_TAMPER_STATUS_LATCHED : Fld := ⟨SEC_TAMPER_STATUS, 0, 0, .W1C⟩
def SEC_TAMPER_STATUS_PIN_NOW : Fld := ⟨SEC_TAMPER_STATUS, 1, 1, .RO⟩
def SEC_TAMPER_STATUS_SENSORS_NOW : Fld := ⟨SEC_TAMPER_STATUS, 6, 2, .RO⟩
/-- SEC.TAMPER_CFG (R548). -/
def SEC_TAMPER_CFG : Reg := ⟨0x60028, [], 8, 0x3⟩
def SEC_TAMPER_CFG_PIN_EN : Fld := ⟨SEC_TAMPER_CFG, 0, 0, .RWL⟩
def SEC_TAMPER_CFG_SENSOR_EN : Fld := ⟨SEC_TAMPER_CFG, 1, 1, .RWL⟩
/-- SEC.EPOCH (R548). -/
def SEC_EPOCH : Reg := ⟨0x60030, [], 8, 0x64000000000000⟩
def SEC_EPOCH_CUR : Fld := ⟨SEC_EPOCH, 31, 0, .RO⟩
def SEC_EPOCH_INSTALLS : Fld := ⟨SEC_EPOCH, 47, 32, .RO⟩
def SEC_EPOCH_GRACE_MS : Fld := ⟨SEC_EPOCH, 63, 48, .RW⟩
/-- SEC.EPOCH_CMD (R548). -/
def SEC_EPOCH_CMD : Reg := ⟨0x60038, [], 8, 0x0⟩
def SEC_EPOCH_CMD_CMD : Fld := ⟨SEC_EPOCH_CMD, 1, 0, .WO⟩
def SEC_EPOCH_CMD_GO : Fld := ⟨SEC_EPOCH_CMD, 2, 2, .WO⟩
/-- SEC.EPOCH_ARG (R548). -/
def SEC_EPOCH_ARG : Reg := ⟨0x60040, [], 8, 0x0⟩
def SEC_EPOCH_ARG_ADDR : Fld := ⟨SEC_EPOCH_ARG, 63, 0, .RW⟩
/-- SEC.EPOCH_STATUS (R548). -/
def SEC_EPOCH_STATUS : Reg := ⟨0x60048, [], 8, 0x0⟩
def SEC_EPOCH_STATUS_BUSY : Fld := ⟨SEC_EPOCH_STATUS, 0, 0, .RO⟩
def SEC_EPOCH_STATUS_RESULT : Fld := ⟨SEC_EPOCH_STATUS, 31, 16, .RO⟩
/-- SEC.DEV_NONCE (R548). -/
def SEC_DEV_NONCE : Reg := ⟨0x60060, [(4, 0x8)], 8, 0x0⟩
def SEC_DEV_NONCE_NONCE : Fld := ⟨SEC_DEV_NONCE, 63, 0, .RO⟩
/-- SEC.KEYID_MAP (R548). -/
def SEC_KEYID_MAP : Reg := ⟨0x60408, [(255, 0x8)], 8, 0x1F⟩
def SEC_KEYID_MAP_PART : Fld := ⟨SEC_KEYID_MAP, 4, 0, .RW⟩
def SEC_KEYID_MAP_REVOKED : Fld := ⟨SEC_KEYID_MAP, 5, 5, .RO⟩
def SEC_KEYID_MAP_SENT : Fld := ⟨SEC_KEYID_MAP, 63, 16, .RO⟩
/-- SEC.KEY_CMD (R548). -/
def SEC_KEY_CMD : Reg := ⟨0x61000, [(16, 0x100)], 8, 0x0⟩
def SEC_KEY_CMD_CMD : Fld := ⟨SEC_KEY_CMD, 3, 0, .WO⟩
def SEC_KEY_CMD_SLOT : Fld := ⟨SEC_KEY_CMD, 7, 4, .WO⟩
def SEC_KEY_CMD_GO : Fld := ⟨SEC_KEY_CMD, 8, 8, .WO⟩
/-- SEC.KEY_ARG (R548). -/
def SEC_KEY_ARG : Reg := ⟨0x61008, [(16, 0x100)], 8, 0x0⟩
def SEC_KEY_ARG_ADDR : Fld := ⟨SEC_KEY_ARG, 39, 0, .RW⟩
/-- SEC.KEY_STATUS (R548). -/
def SEC_KEY_STATUS : Reg := ⟨0x61010, [(16, 0x100)], 8, 0x0⟩
def SEC_KEY_STATUS_BUSY : Fld := ⟨SEC_KEY_STATUS, 0, 0, .RO⟩
def SEC_KEY_STATUS_RESULT : Fld := ⟨SEC_KEY_STATUS, 31, 16, .RO⟩
def SEC_KEY_STATUS_SLOTS : Fld := ⟨SEC_KEY_STATUS, 47, 32, .RO⟩
/-- SEC.SEAL_SRC (R548). -/
def SEC_SEAL_SRC : Reg := ⟨0x61018, [(16, 0x100)], 8, 0x0⟩
def SEC_SEAL_SRC_OFFSET : Fld := ⟨SEC_SEAL_SRC, 39, 0, .RW⟩
/-- SEC.SEAL_DST (R548). -/
def SEC_SEAL_DST : Reg := ⟨0x61020, [(16, 0x100)], 8, 0x0⟩
def SEC_SEAL_DST_OFFSET : Fld := ⟨SEC_SEAL_DST, 39, 0, .RW⟩
/-- SEC.SEAL_LEN (R548). -/
def SEC_SEAL_LEN : Reg := ⟨0x61028, [(16, 0x100)], 8, 0x0⟩
def SEC_SEAL_LEN_LEN : Fld := ⟨SEC_SEAL_LEN, 40, 0, .RW⟩
/-- SEC.RELEASE_NONCE (R548). -/
def SEC_RELEASE_NONCE : Reg := ⟨0x61040, [(4, 0x8), (16, 0x100)], 8, 0x0⟩
def SEC_RELEASE_NONCE_NONCE : Fld := ⟨SEC_RELEASE_NONCE, 63, 0, .RO⟩
/-- SEC.LIC_WIN (R548). -/
def SEC_LIC_WIN : Reg := ⟨0x61080, [(4, 0x10), (16, 0x100)], 8, 0x0⟩
def SEC_LIC_WIN_BASE : Fld := ⟨SEC_LIC_WIN, 39, 12, .RW⟩
def SEC_LIC_WIN_SLOT : Fld := ⟨SEC_LIC_WIN, 43, 40, .RW⟩
def SEC_LIC_WIN_EN : Fld := ⟨SEC_LIC_WIN, 44, 44, .RW⟩
/-- SEC.LIC_LEN (R548). -/
def SEC_LIC_LEN : Reg := ⟨0x61088, [(4, 0x10), (16, 0x100)], 8, 0x0⟩
def SEC_LIC_LEN_LENGTH : Fld := ⟨SEC_LIC_LEN, 39, 12, .RW⟩
/-- FW.FW_STATUS (R635). -/
def FW_FW_STATUS : Reg := ⟨0x80000, [], 8, 0x0⟩
def FW_FW_STATUS_STATE : Fld := ⟨FW_FW_STATUS, 2, 0, .RO⟩
def FW_FW_STATUS_ACTIVE_AREA : Fld := ⟨FW_FW_STATUS, 3, 3, .RO⟩
def FW_FW_STATUS_FALLBACK : Fld := ⟨FW_FW_STATUS, 4, 4, .W1C⟩
def FW_FW_STATUS_RECOVERY : Fld := ⟨FW_FW_STATUS, 5, 5, .RO⟩
def FW_FW_STATUS_RESULT : Fld := ⟨FW_FW_STATUS, 31, 16, .RO⟩
/-- FW.FW_CMD (R635). -/
def FW_FW_CMD : Reg := ⟨0x80008, [], 8, 0x0⟩
def FW_FW_CMD_CMD : Fld := ⟨FW_FW_CMD, 2, 0, .WO⟩
def FW_FW_CMD_FORCE : Fld := ⟨FW_FW_CMD, 3, 3, .WO⟩
def FW_FW_CMD_GO : Fld := ⟨FW_FW_CMD, 4, 4, .WO⟩
/-- FW.FW_ARG (R635). -/
def FW_FW_ARG : Reg := ⟨0x80010, [], 8, 0x0⟩
def FW_FW_ARG_ADDR : Fld := ⟨FW_FW_ARG, 63, 0, .RW⟩
/-- FW.FW_LEN (R635). -/
def FW_FW_LEN : Reg := ⟨0x80018, [], 8, 0x0⟩
def FW_FW_LEN_BYTES : Fld := ⟨FW_FW_LEN, 31, 0, .RW⟩
/-- FW.FW_CFG (R635). -/
def FW_FW_CFG : Reg := ⟨0x80020, [], 8, 0x2710⟩
def FW_FW_CFG_ACT_TIMEOUT_MS : Fld := ⟨FW_FW_CFG, 15, 0, .RW⟩
def FW_FW_CFG_OWNER_SIG : Fld := ⟨FW_FW_CFG, 16, 16, .RWL⟩
/-- FW.REFUSE (R635). -/
def FW_REFUSE : Reg := ⟨0x80028, [], 8, 0x0⟩
def FW_REFUSE_OWNER_LOCK : Fld := ⟨FW_REFUSE, 0, 0, .RO⟩
def FW_REFUSE_MOTION : Fld := ⟨FW_REFUSE, 1, 1, .RO⟩
def FW_REFUSE_VSAVE : Fld := ⟨FW_REFUSE, 2, 2, .RO⟩
def FW_REFUSE_SUPPLY_WARN : Fld := ⟨FW_REFUSE, 3, 3, .RO⟩
def FW_REFUSE_SVN : Fld := ⟨FW_REFUSE, 4, 4, .RO⟩
def FW_REFUSE_SIG : Fld := ⟨FW_REFUSE, 5, 5, .RO⟩
def FW_REFUSE_DIGEST : Fld := ⟨FW_REFUSE, 6, 6, .RO⟩
def FW_REFUSE_FORMAT : Fld := ⟨FW_REFUSE, 7, 7, .RO⟩
/-- FW.COMP (R635). -/
def FW_COMP : Reg := ⟨0x80040, [(7, 0x8)], 8, 0x0⟩
def FW_COMP_SVN_RUN : Fld := ⟨FW_COMP, 6, 0, .RO⟩
def FW_COMP_SVN_STAGED : Fld := ⟨FW_COMP, 14, 8, .RO⟩
def FW_COMP_COUNTER : Fld := ⟨FW_COMP, 22, 16, .RO⟩
def FW_COMP_CHANGED : Fld := ⟨FW_COMP, 24, 24, .RO⟩
def FW_COMP_B_VALID : Fld := ⟨FW_COMP, 25, 25, .RO⟩
/-- FW.BUILD (R635). -/
def FW_BUILD : Reg := ⟨0x80080, [], 8, 0x0⟩
def FW_BUILD_BUILD : Fld := ⟨FW_BUILD, 63, 0, .RO⟩
/-- FW.STAGED_BUILD (R635). -/
def FW_STAGED_BUILD : Reg := ⟨0x80088, [], 8, 0x0⟩
def FW_STAGED_BUILD_BUILD : Fld := ⟨FW_STAGED_BUILD, 63, 0, .RO⟩
/-- FW.SETTINGS (R635). -/
def FW_SETTINGS : Reg := ⟨0x80090, [], 8, 0x0⟩
def FW_SETTINGS_FORMAT : Fld := ⟨FW_SETTINGS, 15, 0, .RO⟩
def FW_SETTINGS_MIGRATING : Fld := ⟨FW_SETTINGS, 16, 16, .RO⟩
/-- FW.ACTIVATIONS (R635). -/
def FW_ACTIVATIONS : Reg := ⟨0x80098, [], 8, 0x0⟩
def FW_ACTIVATIONS_COUNT : Fld := ⟨FW_ACTIVATIONS, 63, 0, .RC⟩
/-- FW.ACT_TICK (R635). -/
def FW_ACT_TICK : Reg := ⟨0x800A0, [], 8, 0x0⟩
def FW_ACT_TICK_TICK : Fld := ⟨FW_ACT_TICK, 63, 0, .RO⟩
/-- FW.HOLD_TICKS (R635). -/
def FW_HOLD_TICKS : Reg := ⟨0x800A8, [], 8, 0x0⟩
def FW_HOLD_TICKS_TICKS : Fld := ⟨FW_HOLD_TICKS, 31, 0, .RO⟩
/-- FW.P_MOTION (R635). -/
def FW_P_MOTION : Reg := ⟨0x81000, [(16, 0x100)], 8, 0x0⟩
def FW_P_MOTION_MOTION : Fld := ⟨FW_P_MOTION, 0, 0, .RW⟩
/-- HIF.LINK_STATUS (R584). -/
def HIF_LINK_STATUS : Reg := ⟨0xA0000, [], 8, 0x0⟩
def HIF_LINK_STATUS_RATE : Fld := ⟨HIF_LINK_STATUS, 1, 0, .RO⟩
def HIF_LINK_STATUS_WIDTH : Fld := ⟨HIF_LINK_STATUS, 8, 4, .RO⟩
def HIF_LINK_STATUS_FLIT : Fld := ⟨HIF_LINK_STATUS, 9, 9, .RO⟩
def HIF_LINK_STATUS_UP : Fld := ⟨HIF_LINK_STATUS, 10, 10, .RO⟩
/-- HIF.PF_WIN (R584). -/
def HIF_PF_WIN : Reg := ⟨0xA0008, [], 8, 0x0⟩
def HIF_PF_WIN_PART : Fld := ⟨HIF_PF_WIN, 3, 0, .RW⟩
def HIF_PF_WIN_BASE : Fld := ⟨HIF_PF_WIN, 39, 28, .RW⟩
def HIF_PF_WIN_EN : Fld := ⟨HIF_PF_WIN, 40, 40, .RW⟩
/-- HIF.ATC_MISSES (R584). -/
def HIF_ATC_MISSES : Reg := ⟨0xA0010, [], 8, 0x0⟩
def HIF_ATC_MISSES_COUNT : Fld := ⟨HIF_ATC_MISSES, 63, 0, .RC⟩
/-- HIF.ATC_INVALS (R584). -/
def HIF_ATC_INVALS : Reg := ⟨0xA0018, [], 8, 0x0⟩
def HIF_ATC_INVALS_COUNT : Fld := ⟨HIF_ATC_INVALS, 63, 0, .RC⟩
/-- HIF.BAR4_REFUSED (R584). -/
def HIF_BAR4_REFUSED : Reg := ⟨0xA0020, [], 8, 0x0⟩
def HIF_BAR4_REFUSED_COUNT : Fld := ⟨HIF_BAR4_REFUSED, 63, 0, .RC⟩
/-- HIF.SQ_BASE (R584). -/
def HIF_SQ_BASE : Reg := ⟨0xB0000, [(64, 0x40), (16, 0x4000)], 8, 0x0⟩
def HIF_SQ_BASE_ADDR : Fld := ⟨HIF_SQ_BASE, 63, 0, .RW⟩
/-- HIF.SQ_CFG (R584). -/
def HIF_SQ_CFG : Reg := ⟨0xB0008, [(64, 0x40), (16, 0x4000)], 8, 0x0⟩
def HIF_SQ_CFG_SIZE : Fld := ⟨HIF_SQ_CFG, 16, 0, .RW⟩
def HIF_SQ_CFG_CQ : Fld := ⟨HIF_SQ_CFG, 22, 17, .RW⟩
def HIF_SQ_CFG_ENABLE : Fld := ⟨HIF_SQ_CFG, 23, 23, .RW⟩
/-- HIF.SQ_PTR (R584). -/
def HIF_SQ_PTR : Reg := ⟨0xB0010, [(64, 0x40), (16, 0x4000)], 8, 0x0⟩
def HIF_SQ_PTR_HEAD : Fld := ⟨HIF_SQ_PTR, 15, 0, .RO⟩
def HIF_SQ_PTR_TAIL : Fld := ⟨HIF_SQ_PTR, 31, 16, .RO⟩
/-- HIF.SQ_STATUS (R584). -/
def HIF_SQ_STATUS : Reg := ⟨0xB0018, [(64, 0x40), (16, 0x4000)], 8, 0x0⟩
def HIF_SQ_STATUS_ACTIVE : Fld := ⟨HIF_SQ_STATUS, 0, 0, .RO⟩
def HIF_SQ_STATUS_CFG_ERR : Fld := ⟨HIF_SQ_STATUS, 1, 1, .W1C⟩
def HIF_SQ_STATUS_DB_ERR : Fld := ⟨HIF_SQ_STATUS, 2, 2, .W1C⟩
def HIF_SQ_STATUS_FETCH_ERR : Fld := ⟨HIF_SQ_STATUS, 3, 3, .W1C⟩
/-- HIF.CQ_BASE (R584). -/
def HIF_CQ_BASE : Reg := ⟨0xB1000, [(64, 0x40), (16, 0x4000)], 8, 0x0⟩
def HIF_CQ_BASE_BASE : Fld := ⟨HIF_CQ_BASE, 63, 12, .RW⟩
/-- HIF.CQ_CFG (R584). -/
def HIF_CQ_CFG : Reg := ⟨0xB1008, [(64, 0x40), (16, 0x4000)], 8, 0x0⟩
def HIF_CQ_CFG_SIZE : Fld := ⟨HIF_CQ_CFG, 16, 0, .RW⟩
def HIF_CQ_CFG_ENABLE : Fld := ⟨HIF_CQ_CFG, 17, 17, .RW⟩
def HIF_CQ_CFG_VECTOR : Fld := ⟨HIF_CQ_CFG, 28, 18, .RW⟩
def HIF_CQ_CFG_FN : Fld := ⟨HIF_CQ_CFG, 29, 29, .RW⟩
def HIF_CQ_CFG_EVT : Fld := ⟨HIF_CQ_CFG, 30, 30, .RW⟩
/-- HIF.CQ_MOD (R584). -/
def HIF_CQ_MOD : Reg := ⟨0xB1010, [(64, 0x40), (16, 0x4000)], 8, 0x1⟩
def HIF_CQ_MOD_COUNT : Fld := ⟨HIF_CQ_MOD, 15, 0, .RW⟩
def HIF_CQ_MOD_TIMER : Fld := ⟨HIF_CQ_MOD, 31, 16, .RW⟩
/-- HIF.CQ_PTR (R584). -/
def HIF_CQ_PTR : Reg := ⟨0xB1018, [(64, 0x40), (16, 0x4000)], 8, 0x0⟩
def HIF_CQ_PTR_TAIL : Fld := ⟨HIF_CQ_PTR, 15, 0, .RO⟩
def HIF_CQ_PTR_HEAD : Fld := ⟨HIF_CQ_PTR, 31, 16, .RO⟩
/-- HIF.CQ_STATUS (R584). -/
def HIF_CQ_STATUS : Reg := ⟨0xB1020, [(64, 0x40), (16, 0x4000)], 8, 0x0⟩
def HIF_CQ_STATUS_FULL : Fld := ⟨HIF_CQ_STATUS, 0, 0, .RO⟩
def HIF_CQ_STATUS_CFG_ERR : Fld := ⟨HIF_CQ_STATUS, 1, 1, .W1C⟩
def HIF_CQ_STATUS_WRITE_ERR : Fld := ⟨HIF_CQ_STATUS, 2, 2, .W1C⟩
/-- HIF.P_CANCEL (R584). -/
def HIF_P_CANCEL : Reg := ⟨0xB2000, [(16, 0x4000)], 8, 0x0⟩
def HIF_P_CANCEL_SQ : Fld := ⟨HIF_P_CANCEL, 5, 0, .WO⟩
def HIF_P_CANCEL_ENTRY : Fld := ⟨HIF_P_CANCEL, 21, 6, .WO⟩
def HIF_P_CANCEL_ALL : Fld := ⟨HIF_P_CANCEL, 22, 22, .WO⟩
def HIF_P_CANCEL_GO : Fld := ⟨HIF_P_CANCEL, 23, 23, .WO⟩
/-- HIF.CANCEL_STATUS (R584). -/
def HIF_CANCEL_STATUS : Reg := ⟨0xB2008, [(16, 0x4000)], 8, 0x0⟩
def HIF_CANCEL_STATUS_RESULT : Fld := ⟨HIF_CANCEL_STATUS, 31, 16, .RO⟩
/-- HIF.RECORDS (R584). -/
def HIF_RECORDS : Reg := ⟨0xB2010, [(16, 0x4000)], 8, 0x0⟩
def HIF_RECORDS_USED : Fld := ⟨HIF_RECORDS, 12, 0, .RO⟩
def HIF_RECORDS_HELD : Fld := ⟨HIF_RECORDS, 28, 16, .RO⟩
def HIF_RECORDS_PEAK : Fld := ⟨HIF_RECORDS, 44, 32, .RO⟩
/-- HIF.P_PASID (R584). -/
def HIF_P_PASID : Reg := ⟨0xB2018, [(16, 0x4000)], 8, 0x0⟩
def HIF_P_PASID_VALUE : Fld := ⟨HIF_P_PASID, 19, 0, .RW⟩
def HIF_P_PASID_EN : Fld := ⟨HIF_P_PASID, 20, 20, .RW⟩
/-- HIF.P_BAR4 (R584). -/
def HIF_P_BAR4 : Reg := ⟨0xB2020, [(16, 0x4000)], 8, 0x0⟩
def HIF_P_BAR4_BASE : Fld := ⟨HIF_P_BAR4, 39, 28, .RW⟩
/-- HIF.ITEMS_ENDED (R584). -/
def HIF_ITEMS_ENDED : Reg := ⟨0xB2028, [(16, 0x4000)], 8, 0x0⟩
def HIF_ITEMS_ENDED_COUNT : Fld := ⟨HIF_ITEMS_ENDED, 63, 0, .RC⟩
/-- PART.STATE (R549). -/
def PART_STATE : Reg := ⟨0x100000, [(16, 0x1000)], 8, 0x0⟩
def PART_STATE_STATE : Fld := ⟨PART_STATE, 1, 0, .RO⟩
/-- PART.CTRL (R549). -/
def PART_CTRL : Reg := ⟨0x100008, [(16, 0x1000)], 8, 0x0⟩
def PART_CTRL_CMD : Fld := ⟨PART_CTRL, 1, 0, .WO⟩
/-- PART.TILE_GROUPS (R549). -/
def PART_TILE_GROUPS : Reg := ⟨0x100010, [(16, 0x1000)], 8, 0x0⟩
def PART_TILE_GROUPS_GROUPS : Fld := ⟨PART_TILE_GROUPS, 15, 0, .RW⟩
/-- PART.STATUS (R549). -/
def PART_STATUS : Reg := ⟨0x100018, [(16, 0x1000)], 8, 0x0⟩
def PART_STATUS_FATAL : Fld := ⟨PART_STATUS, 0, 0, .W1C⟩
def PART_STATUS_CFG_ERR : Fld := ⟨PART_STATUS, 1, 1, .W1C⟩
def PART_STATUS_OWNER_LOCK : Fld := ⟨PART_STATUS, 2, 2, .RW⟩
/-- PART.OPEN_ITEMS (R549). -/
def PART_OPEN_ITEMS : Reg := ⟨0x100020, [(16, 0x1000)], 8, 0x0⟩
def PART_OPEN_ITEMS_COUNT : Fld := ⟨PART_OPEN_ITEMS, 31, 0, .RO⟩
/-- PART.FORCED_ITEMS (R549). -/
def PART_FORCED_ITEMS : Reg := ⟨0x100028, [(16, 0x1000)], 8, 0x0⟩
def PART_FORCED_ITEMS_COUNT : Fld := ⟨PART_FORCED_ITEMS, 63, 0, .RC⟩
/-- PART.REVOKE_TICK (R549). -/
def PART_REVOKE_TICK : Reg := ⟨0x100030, [(16, 0x1000)], 8, 0x0⟩
def PART_REVOKE_TICK_TICK : Fld := ⟨PART_REVOKE_TICK, 63, 0, .RO⟩
/-- PART.SCRUB_CFG (R549). -/
def PART_SCRUB_CFG : Reg := ⟨0x100038, [(16, 0x1000)], 8, 0x80⟩
def PART_SCRUB_CFG_SCRUB_SHARE : Fld := ⟨PART_SCRUB_CFG, 7, 0, .RW⟩
/-- PART.SCRUB_LEFT (R549). -/
def PART_SCRUB_LEFT : Reg := ⟨0x100040, [(16, 0x1000)], 8, 0x0⟩
def PART_SCRUB_LEFT_GRANULES : Fld := ⟨PART_SCRUB_LEFT, 8, 0, .RO⟩
/-- PART.DOORBELL_DROPS (R549). -/
def PART_DOORBELL_DROPS : Reg := ⟨0x100048, [(16, 0x1000)], 8, 0x0⟩
def PART_DOORBELL_DROPS_COUNT : Fld := ⟨PART_DOORBELL_DROPS, 63, 0, .RC⟩
/-- PART.MEM_KEY_GEN (R549). -/
def PART_MEM_KEY_GEN : Reg := ⟨0x100050, [(16, 0x1000)], 8, 0x0⟩
def PART_MEM_KEY_GEN_GEN : Fld := ⟨PART_MEM_KEY_GEN, 31, 0, .RO⟩
/-- PART.IMAGE_DIGEST (R549). -/
def PART_IMAGE_DIGEST : Reg := ⟨0x100058, [(8, 0x8), (16, 0x1000)], 8, 0x0⟩
def PART_IMAGE_DIGEST_DIGEST : Fld := ⟨PART_IMAGE_DIGEST, 63, 0, .RO⟩
/-- TILE.SEQ_STATUS (R189). -/
def TILE_SEQ_STATUS : Reg := ⟨0x200000, [(272, 0x1000)], 8, 0x0⟩
def TILE_SEQ_STATUS_STATE : Fld := ⟨TILE_SEQ_STATUS, 1, 0, .RO⟩
def TILE_SEQ_STATUS_PHASE : Fld := ⟨TILE_SEQ_STATUS, 3, 2, .RO⟩
def TILE_SEQ_STATUS_WAITING : Fld := ⟨TILE_SEQ_STATUS, 4, 4, .RO⟩
def TILE_SEQ_STATUS_BARRIER : Fld := ⟨TILE_SEQ_STATUS, 5, 5, .RO⟩
def TILE_SEQ_STATUS_CLAMPED : Fld := ⟨TILE_SEQ_STATUS, 6, 6, .RO⟩
/-- TILE.SEQ_PC (R189). -/
def TILE_SEQ_PC : Reg := ⟨0x200008, [(272, 0x1000)], 8, 0x0⟩
def TILE_SEQ_PC_PC : Fld := ⟨TILE_SEQ_PC, 21, 0, .RO⟩
/-- TILE.TOKENS (R189). -/
def TILE_TOKENS : Reg := ⟨0x200010, [(272, 0x1000)], 8, 0x0⟩
def TILE_TOKENS_PENDING : Fld := ⟨TILE_TOKENS, 15, 0, .RO⟩
def TILE_TOKENS_FAILED : Fld := ⟨TILE_TOKENS, 31, 16, .RO⟩
/-- TILE.FAULT_INFO (R189). -/
def TILE_FAULT_INFO : Reg := ⟨0x200018, [(272, 0x1000)], 8, 0x0⟩
def TILE_FAULT_INFO_STATUS : Fld := ⟨TILE_FAULT_INFO, 15, 0, .RO⟩
def TILE_FAULT_INFO_REASON : Fld := ⟨TILE_FAULT_INFO, 23, 16, .RO⟩
def TILE_FAULT_INFO_OPCODE : Fld := ⟨TILE_FAULT_INFO, 31, 24, .RO⟩
def TILE_FAULT_INFO_PC : Fld := ⟨TILE_FAULT_INFO, 53, 32, .RO⟩
/-- TILE.INSTR_COUNT (R189). -/
def TILE_INSTR_COUNT : Reg := ⟨0x200020, [(272, 0x1000)], 8, 0x0⟩
def TILE_INSTR_COUNT_COUNT : Fld := ⟨TILE_INSTR_COUNT, 63, 0, .RC⟩
/-- TILE.WAIT_TICKS (R189). -/
def TILE_WAIT_TICKS : Reg := ⟨0x200028, [(272, 0x1000)], 8, 0x0⟩
def TILE_WAIT_TICKS_COUNT : Fld := ⟨TILE_WAIT_TICKS, 63, 0, .RC⟩
/-- TILE.MAP (R189). -/
def TILE_MAP : Reg := ⟨0x200030, [(272, 0x1000)], 8, 0x0⟩
def TILE_MAP_LOGICAL : Fld := ⟨TILE_MAP, 7, 0, .RO⟩
def TILE_MAP_MAPPED : Fld := ⟨TILE_MAP, 8, 8, .RO⟩
/-- TILE.SYNC_FLAG (R189). -/
def TILE_SYNC_FLAG : Reg := ⟨0x200100, [(32, 0x4), (272, 0x1000)], 4, 0x0⟩
def TILE_SYNC_FLAG_VALUE : Fld := ⟨TILE_SYNC_FLAG, 31, 0, .RO⟩
/-- TILE.NUM_STATUS (R128). -/
def TILE_NUM_STATUS : Reg := ⟨0x200400, [(272, 0x1000)], 8, 0x0⟩
def TILE_NUM_STATUS_NF : Fld := ⟨TILE_NUM_STATUS, 0, 0, .W1C⟩
def TILE_NUM_STATUS_NF_INPUT : Fld := ⟨TILE_NUM_STATUS, 1, 1, .W1C⟩
def TILE_NUM_STATUS_DECODE_OVF : Fld := ⟨TILE_NUM_STATUS, 2, 2, .W1C⟩
/-- TILE.SAT_TOTAL (R128). -/
def TILE_SAT_TOTAL : Reg := ⟨0x200408, [(272, 0x1000)], 8, 0x0⟩
def TILE_SAT_TOTAL_COUNT : Fld := ⟨TILE_SAT_TOTAL, 63, 0, .RC⟩
/-- TILE.FLUSH_TOTAL (R128). -/
def TILE_FLUSH_TOTAL : Reg := ⟨0x200410, [(272, 0x1000)], 8, 0x0⟩
def TILE_FLUSH_TOTAL_COUNT : Fld := ⟨TILE_FLUSH_TOTAL, 63, 0, .RC⟩
/-- TILE.NF_ELEMENTS (R128). -/
def TILE_NF_ELEMENTS : Reg := ⟨0x200418, [(272, 0x1000)], 8, 0x0⟩
def TILE_NF_ELEMENTS_COUNT : Fld := ⟨TILE_NF_ELEMENTS, 63, 0, .RC⟩
/-- TILE.CB_STATUS (R128). -/
def TILE_CB_STATUS : Reg := ⟨0x200420, [(272, 0x1000)], 8, 0x0⟩
def TILE_CB_STATUS_VALID : Fld := ⟨TILE_CB_STATUS, 15, 0, .RO⟩
def TILE_CB_STATUS_LINEAR : Fld := ⟨TILE_CB_STATUS, 31, 16, .RO⟩
def TILE_CB_STATUS_WIDE : Fld := ⟨TILE_CB_STATUS, 47, 32, .RO⟩
/-- TILE.MALFORMED (R128). -/
def TILE_MALFORMED : Reg := ⟨0x200428, [(272, 0x1000)], 8, 0x0⟩
def TILE_MALFORMED_COUNT : Fld := ⟨TILE_MALFORMED, 63, 0, .RC⟩
/-- TILE.MM_STATUS (R263). -/
def TILE_MM_STATUS : Reg := ⟨0x200500, [(272, 0x1000)], 8, 0x0⟩
def TILE_MM_STATUS_BUSY : Fld := ⟨TILE_MM_STATUS, 0, 0, .RO⟩
def TILE_MM_STATUS_MODE : Fld := ⟨TILE_MM_STATUS, 2, 1, .RO⟩
def TILE_MM_STATUS_TRANSPOSE : Fld := ⟨TILE_MM_STATUS, 3, 3, .RO⟩
/-- TILE.MM_CYCLES (R263). -/
def TILE_MM_CYCLES : Reg := ⟨0x200508, [(272, 0x1000)], 8, 0x0⟩
def TILE_MM_CYCLES_COUNT : Fld := ⟨TILE_MM_CYCLES, 63, 0, .RC⟩
/-- TILE.MM_OPS (R263). -/
def TILE_MM_OPS : Reg := ⟨0x200510, [(272, 0x1000)], 8, 0x0⟩
def TILE_MM_OPS_COUNT : Fld := ⟨TILE_MM_OPS, 63, 0, .RC⟩
/-- TILE.MM_SKIP_ROWS (R263). -/
def TILE_MM_SKIP_ROWS : Reg := ⟨0x200518, [(272, 0x1000)], 8, 0x0⟩
def TILE_MM_SKIP_ROWS_COUNT : Fld := ⟨TILE_MM_SKIP_ROWS, 63, 0, .RC⟩
/-- TILE.MM_SKIP_SLICES (R263). -/
def TILE_MM_SKIP_SLICES : Reg := ⟨0x200520, [(272, 0x1000)], 8, 0x0⟩
def TILE_MM_SKIP_SLICES_COUNT : Fld := ⟨TILE_MM_SKIP_SLICES, 63, 0, .RC⟩
/-- TILE.MM_STALL (R263). -/
def TILE_MM_STALL : Reg := ⟨0x200528, [(272, 0x1000)], 8, 0x0⟩
def TILE_MM_STALL_COUNT : Fld := ⟨TILE_MM_STALL, 63, 0, .RC⟩
/-- TILE.MM_OPERATIONS (R263). -/
def TILE_MM_OPERATIONS : Reg := ⟨0x200530, [(272, 0x1000)], 8, 0x0⟩
def TILE_MM_OPERATIONS_COUNT : Fld := ⟨TILE_MM_OPERATIONS, 63, 0, .RC⟩
/-- TILE.RU_TOKENS (R263). -/
def TILE_RU_TOKENS : Reg := ⟨0x200538, [(272, 0x1000)], 8, 0x0⟩
def TILE_RU_TOKENS_COUNT : Fld := ⟨TILE_RU_TOKENS, 63, 0, .RC⟩
/-- TILE.RU_DROPPED (R263). -/
def TILE_RU_DROPPED : Reg := ⟨0x200540, [(272, 0x1000)], 8, 0x0⟩
def TILE_RU_DROPPED_COUNT : Fld := ⟨TILE_RU_DROPPED, 63, 0, .RC⟩
/-- TILE.RU_REROUTED (R263). -/
def TILE_RU_REROUTED : Reg := ⟨0x200548, [(272, 0x1000)], 8, 0x0⟩
def TILE_RU_REROUTED_COUNT : Fld := ⟨TILE_RU_REROUTED, 63, 0, .RC⟩
/-- TILE.RU_LAST (R263). -/
def TILE_RU_LAST : Reg := ⟨0x200550, [(272, 0x1000)], 8, 0x0⟩
def TILE_RU_LAST_DROPPED : Fld := ⟨TILE_RU_LAST, 31, 0, .RO⟩
def TILE_RU_LAST_REROUTED : Fld := ⟨TILE_RU_LAST, 63, 32, .RO⟩
/-- TILE.STASH_STATUS (R286). -/
def TILE_STASH_STATUS : Reg := ⟨0x200600, [(272, 0x1000)], 8, 0x0⟩
def TILE_STASH_STATUS_POLICY : Fld := ⟨TILE_STASH_STATUS, 1, 0, .RO⟩
def TILE_STASH_STATUS_SPILLING : Fld := ⟨TILE_STASH_STATUS, 2, 2, .RO⟩
def TILE_STASH_STATUS_SPILLED : Fld := ⟨TILE_STASH_STATUS, 3, 3, .RO⟩
def TILE_STASH_STATUS_DROPPED : Fld := ⟨TILE_STASH_STATUS, 4, 4, .RO⟩
def TILE_STASH_STATUS_EXHAUSTED : Fld := ⟨TILE_STASH_STATUS, 5, 5, .RO⟩
def TILE_STASH_STATUS_SPILL_CFG_ERR : Fld := ⟨TILE_STASH_STATUS, 6, 6, .W1C⟩
def TILE_STASH_STATUS_LOST : Fld := ⟨TILE_STASH_STATUS, 7, 7, .RO⟩
/-- TILE.STASH_RES (R286). -/
def TILE_STASH_RES : Reg := ⟨0x200608, [(272, 0x1000)], 8, 0x0⟩
def TILE_STASH_RES_PAGES : Fld := ⟨TILE_STASH_RES, 9, 0, .RO⟩
def TILE_STASH_RES_BASE : Fld := ⟨TILE_STASH_RES, 53, 32, .RO⟩
/-- TILE.STASH_SPILL_BASE (R286). -/
def TILE_STASH_SPILL_BASE : Reg := ⟨0x200610, [(272, 0x1000)], 8, 0x0⟩
def TILE_STASH_SPILL_BASE_BASE : Fld := ⟨TILE_STASH_SPILL_BASE, 39, 12, .RW⟩
/-- TILE.STASH_SPILL_PAGES (R286). -/
def TILE_STASH_SPILL_PAGES : Reg := ⟨0x200618, [(272, 0x1000)], 8, 0x0⟩
def TILE_STASH_SPILL_PAGES_PAGES : Fld := ⟨TILE_STASH_SPILL_PAGES, 23, 0, .RW⟩
/-- TILE.STASH_USE (R286). -/
def TILE_STASH_USE : Reg := ⟨0x200620, [(272, 0x1000)], 8, 0x0⟩
def TILE_STASH_USE_RESIDENT : Fld := ⟨TILE_STASH_USE, 15, 0, .RO⟩
def TILE_STASH_USE_ENTRIES : Fld := ⟨TILE_STASH_USE, 28, 16, .RO⟩
def TILE_STASH_USE_SPILL_WORDS : Fld := ⟨TILE_STASH_USE, 63, 32, .RO⟩
/-- TILE.STASH_PEAK (R286). -/
def TILE_STASH_PEAK : Reg := ⟨0x200628, [(272, 0x1000)], 8, 0x0⟩
def TILE_STASH_PEAK_RESIDENT : Fld := ⟨TILE_STASH_PEAK, 15, 0, .RO⟩
def TILE_STASH_PEAK_SPILL_WORDS : Fld := ⟨TILE_STASH_PEAK, 63, 32, .RO⟩
/-- TILE.STASH_SPILL_BYTES (R286). -/
def TILE_STASH_SPILL_BYTES : Reg := ⟨0x200630, [(272, 0x1000)], 8, 0x0⟩
def TILE_STASH_SPILL_BYTES_COUNT : Fld := ⟨TILE_STASH_SPILL_BYTES, 63, 0, .RC⟩
/-- TILE.STASH_FETCH_BYTES (R286). -/
def TILE_STASH_FETCH_BYTES : Reg := ⟨0x200638, [(272, 0x1000)], 8, 0x0⟩
def TILE_STASH_FETCH_BYTES_COUNT : Fld := ⟨TILE_STASH_FETCH_BYTES, 63, 0, .RC⟩
/-- TILE.STASH_STALL (R286). -/
def TILE_STASH_STALL : Reg := ⟨0x200640, [(272, 0x1000)], 8, 0x0⟩
def TILE_STASH_STALL_COUNT : Fld := ⟨TILE_STASH_STALL, 63, 0, .RC⟩
/-- TILE.STASH_DROPPED (R286). -/
def TILE_STASH_DROPPED : Reg := ⟨0x200648, [(272, 0x1000)], 8, 0x0⟩
def TILE_STASH_DROPPED_COUNT : Fld := ⟨TILE_STASH_DROPPED, 63, 0, .RC⟩
/-- TILE.BANK_MAP (R355). -/
def TILE_BANK_MAP : Reg := ⟨0x200700, [(272, 0x1000)], 8, 0x0⟩
def TILE_BANK_MAP_SPARE_USED : Fld := ⟨TILE_BANK_MAP, 0, 0, .RO⟩
def TILE_BANK_MAP_SPARE_FOR : Fld := ⟨TILE_BANK_MAP, 5, 1, .RO⟩
def TILE_BANK_MAP_RETIRED : Fld := ⟨TILE_BANK_MAP, 10, 6, .RO⟩
/-- TILE.BANK_STATE (R355). -/
def TILE_BANK_STATE : Reg := ⟨0x200708, [(272, 0x1000)], 8, 0x0⟩
def TILE_BANK_STATE_STATE : Fld := ⟨TILE_BANK_STATE, 47, 0, .RO⟩
/-- TILE.BANK_OFF (R355). -/
def TILE_BANK_OFF : Reg := ⟨0x200710, [(272, 0x1000)], 8, 0x0⟩
def TILE_BANK_OFF_OFF : Fld := ⟨TILE_BANK_OFF, 23, 0, .WO⟩
/-- TILE.BANK_RETAIN (R355). -/
def TILE_BANK_RETAIN : Reg := ⟨0x200718, [(272, 0x1000)], 8, 0x0⟩
def TILE_BANK_RETAIN_RETAIN : Fld := ⟨TILE_BANK_RETAIN, 23, 0, .WO⟩
/-- TILE.BANK_ON (R355). -/
def TILE_BANK_ON : Reg := ⟨0x200720, [(272, 0x1000)], 8, 0x0⟩
def TILE_BANK_ON_ON : Fld := ⟨TILE_BANK_ON, 23, 0, .WO⟩
/-- TILE.BANK_CFG (R355). -/
def TILE_BANK_CFG : Reg := ⟨0x200728, [(272, 0x1000)], 8, 0x8⟩
def TILE_BANK_CFG_SWAP_THRESH : Fld := ⟨TILE_BANK_CFG, 7, 0, .RW⟩
def TILE_BANK_CFG_TX1_COMPAT : Fld := ⟨TILE_BANK_CFG, 8, 8, .RW⟩
/-- TILE.BANK_SWAP_REQ (R355). -/
def TILE_BANK_SWAP_REQ : Reg := ⟨0x200730, [(272, 0x1000)], 8, 0x0⟩
def TILE_BANK_SWAP_REQ_BANK : Fld := ⟨TILE_BANK_SWAP_REQ, 4, 0, .WO⟩
def TILE_BANK_SWAP_REQ_GO : Fld := ⟨TILE_BANK_SWAP_REQ, 5, 5, .WO⟩
/-- TILE.BANK_STATUS (R355). -/
def TILE_BANK_STATUS : Reg := ⟨0x200738, [(272, 0x1000)], 8, 0x0⟩
def TILE_BANK_STATUS_SWAPPING : Fld := ⟨TILE_BANK_STATUS, 0, 0, .RO⟩
def TILE_BANK_STATUS_PWR_REFUSED : Fld := ⟨TILE_BANK_STATUS, 1, 1, .W1C⟩
def TILE_BANK_STATUS_SWAP_REFUSED : Fld := ⟨TILE_BANK_STATUS, 2, 2, .W1C⟩
def TILE_BANK_STATUS_WORD_LOST : Fld := ⟨TILE_BANK_STATUS, 3, 3, .W1C⟩
def TILE_BANK_STATUS_WIPING : Fld := ⟨TILE_BANK_STATUS, 4, 4, .RO⟩
/-- TILE.PAR_REPLAYS (R355). -/
def TILE_PAR_REPLAYS : Reg := ⟨0x200740, [(272, 0x1000)], 8, 0x0⟩
def TILE_PAR_REPLAYS_COUNT : Fld := ⟨TILE_PAR_REPLAYS, 63, 0, .RC⟩
/-- TILE.PAR_CORRECTED (R355). -/
def TILE_PAR_CORRECTED : Reg := ⟨0x200748, [(272, 0x1000)], 8, 0x0⟩
def TILE_PAR_CORRECTED_COUNT : Fld := ⟨TILE_PAR_CORRECTED, 63, 0, .RC⟩
/-- TILE.PAR_EXHAUSTED (R355). -/
def TILE_PAR_EXHAUSTED : Reg := ⟨0x200750, [(272, 0x1000)], 8, 0x0⟩
def TILE_PAR_EXHAUSTED_COUNT : Fld := ⟨TILE_PAR_EXHAUSTED, 63, 0, .RC⟩
/-- TILE.BANK_WAKES (R355). -/
def TILE_BANK_WAKES : Reg := ⟨0x200758, [(272, 0x1000)], 8, 0x0⟩
def TILE_BANK_WAKES_COUNT : Fld := ⟨TILE_BANK_WAKES, 63, 0, .RC⟩
/-- TILE.BANK_ERRS (R355). -/
def TILE_BANK_ERRS : Reg := ⟨0x200760, [(3, 0x8), (272, 0x1000)], 8, 0x0⟩
def TILE_BANK_ERRS_COUNT : Fld := ⟨TILE_BANK_ERRS, 63, 0, .RO⟩
/-- TILE.LAST_ERR (R355). -/
def TILE_LAST_ERR : Reg := ⟨0x200778, [(272, 0x1000)], 8, 0x0⟩
def TILE_LAST_ERR_OFFSET : Fld := ⟨TILE_LAST_ERR, 21, 0, .RO⟩
def TILE_LAST_ERR_REPLAYS : Fld := ⟨TILE_LAST_ERR, 23, 22, .RO⟩
def TILE_LAST_ERR_EXHAUSTED : Fld := ⟨TILE_LAST_ERR, 24, 24, .RO⟩
/-- TILE.BANK_FUSE (R355). -/
def TILE_BANK_FUSE : Reg := ⟨0x200780, [(272, 0x1000)], 8, 0x0⟩
def TILE_BANK_FUSE_COLUMNS : Fld := ⟨TILE_BANK_FUSE, 11, 0, .RO⟩
/-- MEM.CTRL_STATUS (R396). -/
def MEM_CTRL_STATUS : Reg := ⟨0x400000, [(12, 0x10000)], 8, 0x0⟩
def MEM_CTRL_STATUS_TRAINED : Fld := ⟨MEM_CTRL_STATUS, 3, 0, .RO⟩
def MEM_CTRL_STATUS_RETIRED : Fld := ⟨MEM_CTRL_STATUS, 7, 4, .RO⟩
def MEM_CTRL_STATUS_RETRAINING : Fld := ⟨MEM_CTRL_STATUS, 11, 8, .RO⟩
def MEM_CTRL_STATUS_FAILED : Fld := ⟨MEM_CTRL_STATUS, 15, 12, .RO⟩
/-- MEM.CTRL_CFG (R396). -/
def MEM_CTRL_CFG : Reg := ⟨0x400008, [(12, 0x10000)], 8, 0x64⟩
def MEM_CTRL_CFG_RETRAIN_MS : Fld := ⟨MEM_CTRL_CFG, 15, 0, .RW⟩
/-- MEM.CH_CFG (R396). -/
def MEM_CH_CFG : Reg := ⟨0x400010, [(12, 0x10000)], 8, 0x3E8⟩
def MEM_CH_CFG_CORR_THRESH : Fld := ⟨MEM_CH_CFG, 15, 0, .RW⟩
/-- MEM.EDC_REPLAYS (R396). -/
def MEM_EDC_REPLAYS : Reg := ⟨0x400100, [(4, 0x40), (12, 0x10000)], 8, 0x0⟩
def MEM_EDC_REPLAYS_COUNT : Fld := ⟨MEM_EDC_REPLAYS, 63, 0, .RC⟩
/-- MEM.PAR_REPLAYS (R396). -/
def MEM_PAR_REPLAYS : Reg := ⟨0x400108, [(4, 0x40), (12, 0x10000)], 8, 0x0⟩
def MEM_PAR_REPLAYS_COUNT : Fld := ⟨MEM_PAR_REPLAYS, 63, 0, .RC⟩
/-- MEM.CORRECTED (R396). -/
def MEM_CORRECTED : Reg := ⟨0x400110, [(4, 0x40), (12, 0x10000)], 8, 0x0⟩
def MEM_CORRECTED_COUNT : Fld := ⟨MEM_CORRECTED, 63, 0, .RC⟩
/-- MEM.EXHAUSTED (R396). -/
def MEM_EXHAUSTED : Reg := ⟨0x400118, [(4, 0x40), (12, 0x10000)], 8, 0x0⟩
def MEM_EXHAUSTED_COUNT : Fld := ⟨MEM_EXHAUSTED, 63, 0, .RC⟩
/-- MEM.RETRAINS (R396). -/
def MEM_RETRAINS : Reg := ⟨0x400120, [(4, 0x40), (12, 0x10000)], 8, 0x0⟩
def MEM_RETRAINS_COUNT : Fld := ⟨MEM_RETRAINS, 63, 0, .RC⟩
/-- MEM.LAST_ERR (R396). -/
def MEM_LAST_ERR : Reg := ⟨0x400128, [(4, 0x40), (12, 0x10000)], 8, 0x0⟩
def MEM_LAST_ERR_OFFSET : Fld := ⟨MEM_LAST_ERR, 32, 0, .RO⟩
def MEM_LAST_ERR_LINK : Fld := ⟨MEM_LAST_ERR, 33, 33, .RO⟩
def MEM_LAST_ERR_REPLAYS : Fld := ⟨MEM_LAST_ERR, 35, 34, .RO⟩
def MEM_LAST_ERR_EXH : Fld := ⟨MEM_LAST_ERR, 36, 36, .RO⟩
/-- MEM.MEM_STATUS (R396). -/
def MEM_MEM_STATUS : Reg := ⟨0x408000, [], 8, 0xFFFFFFFFFFFF⟩
def MEM_MEM_STATUS_ACTIVE : Fld := ⟨MEM_MEM_STATUS, 47, 0, .RO⟩
def MEM_MEM_STATUS_RETIRED_COUNT : Fld := ⟨MEM_MEM_STATUS, 51, 48, .RO⟩
def MEM_MEM_STATUS_MIGRATING : Fld := ⟨MEM_MEM_STATUS, 52, 52, .RO⟩
/-- MEM.USABLE (R396). -/
def MEM_USABLE : Reg := ⟨0x408008, [], 8, 0x174⟩
def MEM_USABLE_GRANULES : Fld := ⟨MEM_USABLE, 8, 0, .RO⟩
/-- MEM.RETIRE_REQ (R396). -/
def MEM_RETIRE_REQ : Reg := ⟨0x408010, [], 8, 0x0⟩
def MEM_RETIRE_REQ_CHANNEL : Fld := ⟨MEM_RETIRE_REQ, 5, 0, .WO⟩
def MEM_RETIRE_REQ_GO : Fld := ⟨MEM_RETIRE_REQ, 6, 6, .WO⟩
/-- MEM.RETIRE_CFG (R396). -/
def MEM_RETIRE_CFG : Reg := ⟨0x408018, [], 8, 0x4001⟩
def MEM_RETIRE_CFG_AUTO : Fld := ⟨MEM_RETIRE_CFG, 0, 0, .RW⟩
def MEM_RETIRE_CFG_MIG_SHARE : Fld := ⟨MEM_RETIRE_CFG, 15, 8, .RW⟩
/-- MEM.MIG_STATUS (R396). -/
def MEM_MIG_STATUS : Reg := ⟨0x408020, [], 8, 0x0⟩
def MEM_MIG_STATUS_CHANNEL : Fld := ⟨MEM_MIG_STATUS, 5, 0, .RO⟩
def MEM_MIG_STATUS_STEP : Fld := ⟨MEM_MIG_STATUS, 7, 6, .RO⟩
def MEM_MIG_STATUS_GRANULE : Fld := ⟨MEM_MIG_STATUS, 16, 8, .RO⟩
/-- MEM.MIG_FRONTIER (R396). -/
def MEM_MIG_FRONTIER : Reg := ⟨0x408028, [], 8, 0x0⟩
def MEM_MIG_FRONTIER_DPA : Fld := ⟨MEM_MIG_FRONTIER, 39, 0, .RO⟩
/-- MEM.RETIRE_ERR (R396). -/
def MEM_RETIRE_ERR : Reg := ⟨0x408030, [], 8, 0x0⟩
def MEM_RETIRE_ERR_LIMIT : Fld := ⟨MEM_RETIRE_ERR, 0, 0, .W1C⟩
def MEM_RETIRE_ERR_SPACE : Fld := ⟨MEM_RETIRE_ERR, 1, 1, .W1C⟩
def MEM_RETIRE_ERR_FW : Fld := ⟨MEM_RETIRE_ERR, 2, 2, .W1C⟩
/-- MEM.GRANULE_OWNER (R396). -/
def MEM_GRANULE_OWNER : Reg := ⟨0x409000, [(372, 0x8)], 8, 0x1F⟩
def MEM_GRANULE_OWNER_PART : Fld := ⟨MEM_GRANULE_OWNER, 4, 0, .RW⟩
def MEM_GRANULE_OWNER_VIEW : Fld := ⟨MEM_GRANULE_OWNER, 13, 5, .RW⟩
def MEM_GRANULE_OWNER_UNUSABLE : Fld := ⟨MEM_GRANULE_OWNER, 14, 14, .RO⟩
/-- SLOW.SLOW_STATUS (R397). -/
def SLOW_SLOW_STATUS : Reg := ⟨0x500000, [], 8, 0x0⟩
def SLOW_SLOW_STATUS_ACTIVE : Fld := ⟨SLOW_SLOW_STATUS, 7, 0, .RO⟩
def SLOW_SLOW_STATUS_FAILED : Fld := ⟨SLOW_SLOW_STATUS, 15, 8, .RO⟩
/-- SLOW.NVME_TIMEOUT (R397). -/
def SLOW_NVME_TIMEOUT : Reg := ⟨0x500008, [], 8, 0x3E8⟩
def SLOW_NVME_TIMEOUT_MS : Fld := ⟨SLOW_NVME_TIMEOUT, 15, 0, .RW⟩
/-- SLOW.SSD_CTRL (R397). -/
def SLOW_SSD_CTRL : Reg := ⟨0x500100, [(8, 0x40)], 8, 0x20⟩
def SLOW_SSD_CTRL_ENABLE : Fld := ⟨SLOW_SSD_CTRL, 0, 0, .RW⟩
def SLOW_SSD_CTRL_QCOUNT_M1 : Fld := ⟨SLOW_SSD_CTRL, 4, 1, .RW⟩
def SLOW_SSD_CTRL_Q_FIRST : Fld := ⟨SLOW_SSD_CTRL, 20, 5, .RW⟩
def SLOW_SSD_CTRL_PART : Fld := ⟨SLOW_SSD_CTRL, 24, 21, .RW⟩
def SLOW_SSD_CTRL_DSTRD : Fld := ⟨SLOW_SSD_CTRL, 28, 25, .RW⟩
/-- SLOW.DB_BASE (R397). -/
def SLOW_DB_BASE : Reg := ⟨0x500108, [(8, 0x40)], 8, 0x0⟩
def SLOW_DB_BASE_ADDR : Fld := ⟨SLOW_DB_BASE, 63, 0, .RW⟩
/-- SLOW.NSID (R397). -/
def SLOW_NSID : Reg := ⟨0x500110, [(8, 0x40)], 8, 0x0⟩
def SLOW_NSID_NSID : Fld := ⟨SLOW_NSID, 31, 0, .RW⟩
/-- SLOW.SSD_STATUS (R397). -/
def SLOW_SSD_STATUS : Reg := ⟨0x500118, [(8, 0x40)], 8, 0x0⟩
def SLOW_SSD_STATUS_ACTIVE : Fld := ⟨SLOW_SSD_STATUS, 0, 0, .RO⟩
def SLOW_SSD_STATUS_FAILED : Fld := ⟨SLOW_SSD_STATUS, 1, 1, .RO⟩
def SLOW_SSD_STATUS_FORMAT_ERR : Fld := ⟨SLOW_SSD_STATUS, 2, 2, .W1C⟩
/-- SLOW.READS (R397). -/
def SLOW_READS : Reg := ⟨0x500120, [(8, 0x40)], 8, 0x0⟩
def SLOW_READS_COUNT : Fld := ⟨SLOW_READS, 63, 0, .RC⟩
/-- SLOW.WRITES (R397). -/
def SLOW_WRITES : Reg := ⟨0x500128, [(8, 0x40)], 8, 0x0⟩
def SLOW_WRITES_COUNT : Fld := ⟨SLOW_WRITES, 63, 0, .RC⟩
/-- SLOW.ERRORS (R397). -/
def SLOW_ERRORS : Reg := ⟨0x500130, [(8, 0x40)], 8, 0x0⟩
def SLOW_ERRORS_COUNT : Fld := ⟨SLOW_ERRORS, 63, 0, .RC⟩
/-- SLOW.TABLE_BASE (R397). -/
def SLOW_TABLE_BASE : Reg := ⟨0x501000, [(16, 0x100)], 8, 0x0⟩
def SLOW_TABLE_BASE_BASE : Fld := ⟨SLOW_TABLE_BASE, 39, 12, .RW⟩
/-- SLOW.TABLE_COUNT (R397). -/
def SLOW_TABLE_COUNT : Reg := ⟨0x501008, [(16, 0x100)], 8, 0x0⟩
def SLOW_TABLE_COUNT_COUNT : Fld := ⟨SLOW_TABLE_COUNT, 8, 0, .RW⟩
/-- SLOW.DIR_RANGE (R397). -/
def SLOW_DIR_RANGE : Reg := ⟨0x501010, [(16, 0x100)], 8, 0x0⟩
def SLOW_DIR_RANGE_FIRST : Fld := ⟨SLOW_DIR_RANGE, 18, 0, .RW⟩
def SLOW_DIR_RANGE_COUNT : Fld := ⟨SLOW_DIR_RANGE, 51, 32, .RW⟩
/-- SLOW.PEND_BASE (R397). -/
def SLOW_PEND_BASE : Reg := ⟨0x501018, [(16, 0x100)], 8, 0x0⟩
def SLOW_PEND_BASE_BASE : Fld := ⟨SLOW_PEND_BASE, 39, 12, .RW⟩
/-- SLOW.PEND_ROWS (R397). -/
def SLOW_PEND_ROWS : Reg := ⟨0x501020, [(16, 0x100)], 8, 0x0⟩
def SLOW_PEND_ROWS_ROWS : Fld := ⟨SLOW_PEND_ROWS, 16, 0, .RW⟩
/-- SLOW.STAGE_BASE (R397). -/
def SLOW_STAGE_BASE : Reg := ⟨0x501028, [(16, 0x100)], 8, 0x0⟩
def SLOW_STAGE_BASE_BASE : Fld := ⟨SLOW_STAGE_BASE, 39, 12, .RW⟩
/-- SLOW.STAGE_BLOCKS (R397). -/
def SLOW_STAGE_BLOCKS : Reg := ⟨0x501030, [(16, 0x100)], 8, 0x0⟩
def SLOW_STAGE_BLOCKS_BLOCKS : Fld := ⟨SLOW_STAGE_BLOCKS, 15, 0, .RW⟩
/-- SLOW.DEADLINE (R397). -/
def SLOW_DEADLINE : Reg := ⟨0x501038, [(16, 0x100)], 8, 0x4E20⟩
def SLOW_DEADLINE_US : Fld := ⟨SLOW_DEADLINE, 31, 0, .RW⟩
/-- SLOW.FAIL_BASE (R397). -/
def SLOW_FAIL_BASE : Reg := ⟨0x501040, [(16, 0x100)], 8, 0x0⟩
def SLOW_FAIL_BASE_BASE : Fld := ⟨SLOW_FAIL_BASE, 39, 12, .RW⟩
/-- SLOW.FAIL_SIZE (R397). -/
def SLOW_FAIL_SIZE : Reg := ⟨0x501048, [(16, 0x100)], 8, 0x0⟩
def SLOW_FAIL_SIZE_SIZE : Fld := ⟨SLOW_FAIL_SIZE, 16, 0, .RW⟩
/-- SLOW.FAIL_TAIL (R397). -/
def SLOW_FAIL_TAIL : Reg := ⟨0x501050, [(16, 0x100)], 8, 0x0⟩
def SLOW_FAIL_TAIL_TAIL : Fld := ⟨SLOW_FAIL_TAIL, 15, 0, .RO⟩
/-- SLOW.FAIL_HEAD (R397). -/
def SLOW_FAIL_HEAD : Reg := ⟨0x501058, [(16, 0x100)], 8, 0x0⟩
def SLOW_FAIL_HEAD_HEAD : Fld := ⟨SLOW_FAIL_HEAD, 15, 0, .RW⟩
/-- SLOW.PEND_USE (R397). -/
def SLOW_PEND_USE : Reg := ⟨0x501060, [(16, 0x100)], 8, 0x0⟩
def SLOW_PEND_USE_USED : Fld := ⟨SLOW_PEND_USE, 16, 0, .RO⟩
def SLOW_PEND_USE_PEAK : Fld := ⟨SLOW_PEND_USE, 48, 32, .RO⟩
/-- SLOW.ROWS_APPLIED (R397). -/
def SLOW_ROWS_APPLIED : Reg := ⟨0x501068, [(16, 0x100)], 8, 0x0⟩
def SLOW_ROWS_APPLIED_COUNT : Fld := ⟨SLOW_ROWS_APPLIED, 63, 0, .RC⟩
/-- SLOW.ROWS_FAILED (R397). -/
def SLOW_ROWS_FAILED : Reg := ⟨0x501070, [(16, 0x100)], 8, 0x0⟩
def SLOW_ROWS_FAILED_COUNT : Fld := ⟨SLOW_ROWS_FAILED, 63, 0, .RC⟩
/-- SLOW.FETCHES (R397). -/
def SLOW_FETCHES : Reg := ⟨0x501078, [(16, 0x100)], 8, 0x0⟩
def SLOW_FETCHES_COUNT : Fld := ⟨SLOW_FETCHES, 63, 0, .RC⟩
/-- SLOW.WAITED_ROWS (R397). -/
def SLOW_WAITED_ROWS : Reg := ⟨0x501080, [(16, 0x100)], 8, 0x0⟩
def SLOW_WAITED_ROWS_COUNT : Fld := ⟨SLOW_WAITED_ROWS, 63, 0, .RC⟩
/-- SLOW.REMOTE_QP (R397). -/
def SLOW_REMOTE_QP : Reg := ⟨0x501088, [(16, 0x100)], 8, 0x0⟩
def SLOW_REMOTE_QP_QP : Fld := ⟨SLOW_REMOTE_QP, 15, 0, .RW⟩
/-- SLOW.SLOW_PSTATUS (R397). -/
def SLOW_SLOW_PSTATUS : Reg := ⟨0x501090, [(16, 0x100)], 8, 0x0⟩
def SLOW_SLOW_PSTATUS_CFG_ERR : Fld := ⟨SLOW_SLOW_PSTATUS, 0, 0, .W1C⟩
def SLOW_SLOW_PSTATUS_FAIL_OVF : Fld := ⟨SLOW_SLOW_PSTATUS, 1, 1, .W1C⟩
/-- SLOW.DIR_INDEX (R397). -/
def SLOW_DIR_INDEX : Reg := ⟨0x5010A0, [(16, 0x100)], 8, 0x0⟩
def SLOW_DIR_INDEX_INDEX : Fld := ⟨SLOW_DIR_INDEX, 18, 0, .RW⟩
/-- SLOW.DIR_DATA (R397). -/
def SLOW_DIR_DATA : Reg := ⟨0x5010A8, [(16, 0x100)], 8, 0x0⟩
def SLOW_DIR_DATA_ENTRY : Fld := ⟨SLOW_DIR_DATA, 63, 0, .RW⟩
/-- FAB.PORT_CTRL (R429). -/
def FAB_PORT_CTRL : Reg := ⟨0x600000, [(2, 0x8000), (8, 0x10000)], 8, 0x0⟩
def FAB_PORT_CTRL_ENABLE : Fld := ⟨FAB_PORT_CTRL, 0, 0, .RW⟩
def FAB_PORT_CTRL_SPLIT : Fld := ⟨FAB_PORT_CTRL, 1, 1, .RW⟩
def FAB_PORT_CTRL_PROMISC : Fld := ⟨FAB_PORT_CTRL, 2, 2, .RW⟩
def FAB_PORT_CTRL_BCAST_EN : Fld := ⟨FAB_PORT_CTRL, 3, 3, .RW⟩
/-- FAB.PORT_STATUS (R429). -/
def FAB_PORT_STATUS : Reg := ⟨0x600008, [(2, 0x8000), (8, 0x10000)], 8, 0x0⟩
def FAB_PORT_STATUS_LINK_UP : Fld := ⟨FAB_PORT_STATUS, 0, 0, .RO⟩
def FAB_PORT_STATUS_PCS_LOCK : Fld := ⟨FAB_PORT_STATUS, 1, 1, .RO⟩
def FAB_PORT_STATUS_FEC_LOCK : Fld := ⟨FAB_PORT_STATUS, 2, 2, .RO⟩
def FAB_PORT_STATUS_PAUSED : Fld := ⟨FAB_PORT_STATUS, 3, 3, .RO⟩
def FAB_PORT_STATUS_LOCAL_FAULT : Fld := ⟨FAB_PORT_STATUS, 4, 4, .RO⟩
def FAB_PORT_STATUS_REMOTE_FAULT : Fld := ⟨FAB_PORT_STATUS, 5, 5, .RO⟩
def FAB_PORT_STATUS_CFG_ERR : Fld := ⟨FAB_PORT_STATUS, 6, 6, .W1C⟩
/-- FAB.LINK_CFG (R429). -/
def FAB_LINK_CFG : Reg := ⟨0x600010, [(2, 0x8000), (8, 0x10000)], 8, 0x100064⟩
def FAB_LINK_CFG_HOLD_US : Fld := ⟨FAB_LINK_CFG, 15, 0, .RW⟩
def FAB_LINK_CFG_UNCORR_LIMIT : Fld := ⟨FAB_LINK_CFG, 31, 16, .RW⟩
/-- FAB.APONG_CFG (R429). -/
def FAB_APONG_CFG : Reg := ⟨0x600018, [(2, 0x8000), (8, 0x10000)], 8, 0x1F7A000088B5⟩
def FAB_APONG_CFG_ETHERTYPE : Fld := ⟨FAB_APONG_CFG, 15, 0, .RW⟩
def FAB_APONG_CFG_RAW_EN : Fld := ⟨FAB_APONG_CFG, 16, 16, .RW⟩
def FAB_APONG_CFG_UDP_PORT : Fld := ⟨FAB_APONG_CFG, 47, 32, .RW⟩
/-- FAB.UCAST (R429). -/
def FAB_UCAST : Reg := ⟨0x600020, [(4, 0x8), (2, 0x8000), (8, 0x10000)], 8, 0x0⟩
def FAB_UCAST_ADDR : Fld := ⟨FAB_UCAST, 47, 0, .RW⟩
def FAB_UCAST_EN : Fld := ⟨FAB_UCAST, 48, 48, .RW⟩
/-- FAB.HASH (R429). -/
def FAB_HASH : Reg := ⟨0x600040, [(8, 0x8), (2, 0x8000), (8, 0x10000)], 8, 0x0⟩
def FAB_HASH_BINS : Fld := ⟨FAB_HASH, 63, 0, .RW⟩
/-- FAB.VC_CFG (R429). -/
def FAB_VC_CFG : Reg := ⟨0x600100, [(16, 0x8), (2, 0x8000), (8, 0x10000)], 8, 0x1F0000⟩
def FAB_VC_CFG_CELLS : Fld := ⟨FAB_VC_CFG, 13, 0, .RW⟩
def FAB_VC_CFG_OWNER : Fld := ⟨FAB_VC_CFG, 20, 16, .RW⟩
/-- FAB.SNAP (R429). -/
def FAB_SNAP : Reg := ⟨0x600180, [(2, 0x8000), (8, 0x10000)], 8, 0x0⟩
def FAB_SNAP_GROUPS : Fld := ⟨FAB_SNAP, 3, 0, .WO⟩
/-- FAB.SNAP_TICK (R429). -/
def FAB_SNAP_TICK : Reg := ⟨0x600188, [(2, 0x8000), (8, 0x10000)], 8, 0x0⟩
def FAB_SNAP_TICK_TICK : Fld := ⟨FAB_SNAP_TICK, 63, 0, .RO⟩
/-- FAB.RX_FRAMES (R429). -/
def FAB_RX_FRAMES : Reg := ⟨0x600200, [(2, 0x8000), (8, 0x10000)], 8, 0x0⟩
def FAB_RX_FRAMES_COUNT : Fld := ⟨FAB_RX_FRAMES, 63, 0, .RC⟩
/-- FAB.RX_BYTES (R429). -/
def FAB_RX_BYTES : Reg := ⟨0x600208, [(2, 0x8000), (8, 0x10000)], 8, 0x0⟩
def FAB_RX_BYTES_COUNT : Fld := ⟨FAB_RX_BYTES, 63, 0, .RC⟩
/-- FAB.RX_FCS_ERR (R429). -/
def FAB_RX_FCS_ERR : Reg := ⟨0x600210, [(2, 0x8000), (8, 0x10000)], 8, 0x0⟩
def FAB_RX_FCS_ERR_COUNT : Fld := ⟨FAB_RX_FCS_ERR, 63, 0, .RC⟩
/-- FAB.RX_LEN_ERR (R429). -/
def FAB_RX_LEN_ERR : Reg := ⟨0x600218, [(2, 0x8000), (8, 0x10000)], 8, 0x0⟩
def FAB_RX_LEN_ERR_COUNT : Fld := ⟨FAB_RX_LEN_ERR, 63, 0, .RC⟩
/-- FAB.RX_FILTERED (R429). -/
def FAB_RX_FILTERED : Reg := ⟨0x600220, [(2, 0x8000), (8, 0x10000)], 8, 0x0⟩
def FAB_RX_FILTERED_COUNT : Fld := ⟨FAB_RX_FILTERED, 63, 0, .RC⟩
/-- FAB.RX_OVF_FRAMES (R429). -/
def FAB_RX_OVF_FRAMES : Reg := ⟨0x600228, [(2, 0x8000), (8, 0x10000)], 8, 0x0⟩
def FAB_RX_OVF_FRAMES_COUNT : Fld := ⟨FAB_RX_OVF_FRAMES, 63, 0, .RC⟩
/-- FAB.RX_CREDIT_VIOL (R429). -/
def FAB_RX_CREDIT_VIOL : Reg := ⟨0x600230, [(2, 0x8000), (8, 0x10000)], 8, 0x0⟩
def FAB_RX_CREDIT_VIOL_COUNT : Fld := ⟨FAB_RX_CREDIT_VIOL, 63, 0, .RC⟩
/-- FAB.RX_REVOKED_DROPS (R429). -/
def FAB_RX_REVOKED_DROPS : Reg := ⟨0x600238, [(2, 0x8000), (8, 0x10000)], 8, 0x0⟩
def FAB_RX_REVOKED_DROPS_COUNT : Fld := ⟨FAB_RX_REVOKED_DROPS, 63, 0, .RC⟩
/-- FAB.RX_PROT_DROPS (R429). -/
def FAB_RX_PROT_DROPS : Reg := ⟨0x600240, [(2, 0x8000), (8, 0x10000)], 8, 0x0⟩
def FAB_RX_PROT_DROPS_COUNT : Fld := ⟨FAB_RX_PROT_DROPS, 63, 0, .RC⟩
/-- FAB.RX_RAW_FULL (R429). -/
def FAB_RX_RAW_FULL : Reg := ⟨0x600248, [(2, 0x8000), (8, 0x10000)], 8, 0x0⟩
def FAB_RX_RAW_FULL_COUNT : Fld := ⟨FAB_RX_RAW_FULL, 63, 0, .RC⟩
/-- FAB.TX_FRAMES (R429). -/
def FAB_TX_FRAMES : Reg := ⟨0x600280, [(2, 0x8000), (8, 0x10000)], 8, 0x0⟩
def FAB_TX_FRAMES_COUNT : Fld := ⟨FAB_TX_FRAMES, 63, 0, .RC⟩
/-- FAB.TX_BYTES (R429). -/
def FAB_TX_BYTES : Reg := ⟨0x600288, [(2, 0x8000), (8, 0x10000)], 8, 0x0⟩
def FAB_TX_BYTES_COUNT : Fld := ⟨FAB_TX_BYTES, 63, 0, .RC⟩
/-- FAB.TX_RAW_REFUSED (R429). -/
def FAB_TX_RAW_REFUSED : Reg := ⟨0x600290, [(2, 0x8000), (8, 0x10000)], 8, 0x0⟩
def FAB_TX_RAW_REFUSED_COUNT : Fld := ⟨FAB_TX_RAW_REFUSED, 63, 0, .RC⟩
/-- FAB.TX_PAUSE_NS (R429). -/
def FAB_TX_PAUSE_NS : Reg := ⟨0x600298, [(2, 0x8000), (8, 0x10000)], 8, 0x0⟩
def FAB_TX_PAUSE_NS_COUNT : Fld := ⟨FAB_TX_PAUSE_NS, 63, 0, .RC⟩
/-- FAB.FEC_CORR_CW (R429). -/
def FAB_FEC_CORR_CW : Reg := ⟨0x600300, [(2, 0x8000), (8, 0x10000)], 8, 0x0⟩
def FAB_FEC_CORR_CW_COUNT : Fld := ⟨FAB_FEC_CORR_CW, 63, 0, .RC⟩
/-- FAB.FEC_UNCORR_CW (R429). -/
def FAB_FEC_UNCORR_CW : Reg := ⟨0x600308, [(2, 0x8000), (8, 0x10000)], 8, 0x0⟩
def FAB_FEC_UNCORR_CW_COUNT : Fld := ⟨FAB_FEC_UNCORR_CW, 63, 0, .RC⟩
/-- FAB.LANE_SYM_ERR (R429). -/
def FAB_LANE_SYM_ERR : Reg := ⟨0x600310, [(4, 0x8), (2, 0x8000), (8, 0x10000)], 8, 0x0⟩
def FAB_LANE_SYM_ERR_COUNT : Fld := ⟨FAB_LANE_SYM_ERR, 63, 0, .RC⟩
/-- FAB.LINK_DOWNS (R429). -/
def FAB_LINK_DOWNS : Reg := ⟨0x600330, [(2, 0x8000), (8, 0x10000)], 8, 0x0⟩
def FAB_LINK_DOWNS_COUNT : Fld := ⟨FAB_LINK_DOWNS, 63, 0, .RC⟩
/-- FAB.VC_RX_CELLS (R429). -/
def FAB_VC_RX_CELLS : Reg := ⟨0x600400, [(16, 0x8), (2, 0x8000), (8, 0x10000)], 8, 0x0⟩
def FAB_VC_RX_CELLS_COUNT : Fld := ⟨FAB_VC_RX_CELLS, 63, 0, .RC⟩
/-- FAB.VC_TX_CELLS (R429). -/
def FAB_VC_TX_CELLS : Reg := ⟨0x600480, [(16, 0x8), (2, 0x8000), (8, 0x10000)], 8, 0x0⟩
def FAB_VC_TX_CELLS_COUNT : Fld := ⟨FAB_VC_TX_CELLS, 63, 0, .RC⟩
/-- FAB.VC_STALL (R429). -/
def FAB_VC_STALL : Reg := ⟨0x600500, [(16, 0x8), (2, 0x8000), (8, 0x10000)], 8, 0x0⟩
def FAB_VC_STALL_COUNT : Fld := ⟨FAB_VC_STALL, 63, 0, .RC⟩
/-- FAB.SNAPSHOT (R429). -/
def FAB_SNAPSHOT : Reg := ⟨0x601200, [(112, 0x8), (2, 0x8000), (8, 0x10000)], 8, 0x0⟩
def FAB_SNAPSHOT_SNAPSHOT : Fld := ⟨FAB_SNAPSHOT, 63, 0, .RO⟩
/-- FAB.RAW_RX_BASE (R429). -/
def FAB_RAW_RX_BASE : Reg := ⟨0x600800, [(2, 0x8000), (8, 0x10000)], 8, 0x0⟩
def FAB_RAW_RX_BASE_BASE : Fld := ⟨FAB_RAW_RX_BASE, 63, 12, .RW⟩
/-- FAB.RAW_RX_SIZE (R429). -/
def FAB_RAW_RX_SIZE : Reg := ⟨0x600808, [(2, 0x8000), (8, 0x10000)], 8, 0x0⟩
def FAB_RAW_RX_SIZE_SLOTS : Fld := ⟨FAB_RAW_RX_SIZE, 12, 0, .RW⟩
def FAB_RAW_RX_SIZE_ENABLE : Fld := ⟨FAB_RAW_RX_SIZE, 16, 16, .RW⟩
/-- FAB.RAW_RX_TAIL (R429). -/
def FAB_RAW_RX_TAIL : Reg := ⟨0x600810, [(2, 0x8000), (8, 0x10000)], 8, 0x0⟩
def FAB_RAW_RX_TAIL_TAIL : Fld := ⟨FAB_RAW_RX_TAIL, 11, 0, .RO⟩
/-- FAB.RAW_RX_HEAD (R429). -/
def FAB_RAW_RX_HEAD : Reg := ⟨0x600818, [(2, 0x8000), (8, 0x10000)], 8, 0x0⟩
def FAB_RAW_RX_HEAD_HEAD : Fld := ⟨FAB_RAW_RX_HEAD, 11, 0, .RW⟩
/-- FAB.RAW_TX_BASE (R429). -/
def FAB_RAW_TX_BASE : Reg := ⟨0x600820, [(2, 0x8000), (8, 0x10000)], 8, 0x0⟩
def FAB_RAW_TX_BASE_BASE : Fld := ⟨FAB_RAW_TX_BASE, 63, 12, .RW⟩
/-- FAB.RAW_TX_SIZE (R429). -/
def FAB_RAW_TX_SIZE : Reg := ⟨0x600828, [(2, 0x8000), (8, 0x10000)], 8, 0x0⟩
def FAB_RAW_TX_SIZE_SLOTS : Fld := ⟨FAB_RAW_TX_SIZE, 12, 0, .RW⟩
def FAB_RAW_TX_SIZE_ENABLE : Fld := ⟨FAB_RAW_TX_SIZE, 16, 16, .RW⟩
/-- FAB.RAW_TX_TAIL (R429). -/
def FAB_RAW_TX_TAIL : Reg := ⟨0x600830, [(2, 0x8000), (8, 0x10000)], 8, 0x0⟩
def FAB_RAW_TX_TAIL_TAIL : Fld := ⟨FAB_RAW_TX_TAIL, 11, 0, .RW⟩
/-- FAB.RAW_TX_HEAD (R429). -/
def FAB_RAW_TX_HEAD : Reg := ⟨0x600838, [(2, 0x8000), (8, 0x10000)], 8, 0x0⟩
def FAB_RAW_TX_HEAD_HEAD : Fld := ⟨FAB_RAW_TX_HEAD, 11, 0, .RO⟩
/-- FAB.RAW_STATUS (R429). -/
def FAB_RAW_STATUS : Reg := ⟨0x600840, [(2, 0x8000), (8, 0x10000)], 8, 0x0⟩
def FAB_RAW_STATUS_RX_WRITE_ERR : Fld := ⟨FAB_RAW_STATUS, 0, 0, .W1C⟩
def FAB_RAW_STATUS_TX_READ_ERR : Fld := ⟨FAB_RAW_STATUS, 1, 1, .W1C⟩
def FAB_RAW_STATUS_CFG_ERR : Fld := ⟨FAB_RAW_STATUS, 2, 2, .W1C⟩
/-- FAB.RAW_VECTOR (R429). -/
def FAB_RAW_VECTOR : Reg := ⟨0x600848, [(2, 0x8000), (8, 0x10000)], 8, 0x0⟩
def FAB_RAW_VECTOR_RX_VEC : Fld := ⟨FAB_RAW_VECTOR, 10, 0, .RW⟩
def FAB_RAW_VECTOR_TX_VEC : Fld := ⟨FAB_RAW_VECTOR, 26, 16, .RW⟩
/-- FAB.TX_TS_TAG (R429). -/
def FAB_TX_TS_TAG : Reg := ⟨0x600850, [(2, 0x8000), (8, 0x10000)], 8, 0x0⟩
def FAB_TX_TS_TAG_TAG : Fld := ⟨FAB_TX_TS_TAG, 15, 0, .RO⟩
def FAB_TX_TS_TAG_VALID : Fld := ⟨FAB_TX_TS_TAG, 16, 16, .RO⟩
def FAB_TX_TS_TAG_LOST : Fld := ⟨FAB_TX_TS_TAG, 17, 17, .RO⟩
/-- FAB.TX_TS_TIME (R429). -/
def FAB_TX_TS_TIME : Reg := ⟨0x600858, [(2, 0x8000), (8, 0x10000)], 8, 0x0⟩
def FAB_TX_TS_TIME_TIME : Fld := ⟨FAB_TX_TS_TIME, 63, 0, .RO⟩
/-- FAB.PTP_CFG (R429). -/
def FAB_PTP_CFG : Reg := ⟨0x600880, [(2, 0x8000), (8, 0x10000)], 8, 0x0⟩
def FAB_PTP_CFG_DOMAIN : Fld := ⟨FAB_PTP_CFG, 7, 0, .RW⟩
def FAB_PTP_CFG_TRANSPORT : Fld := ⟨FAB_PTP_CFG, 9, 8, .RW⟩
def FAB_PTP_CFG_COPY : Fld := ⟨FAB_PTP_CFG, 10, 10, .RW⟩
/-- FAB.PTP_LAT (R429). -/
def FAB_PTP_LAT : Reg := ⟨0x600888, [(2, 0x8000), (8, 0x10000)], 8, 0x0⟩
def FAB_PTP_LAT_TX_LAT : Fld := ⟨FAB_PTP_LAT, 15, 0, .RW⟩
def FAB_PTP_LAT_RX_LAT : Fld := ⟨FAB_PTP_LAT, 31, 16, .RW⟩
/-- FAB.OE_STATUS (R429). -/
def FAB_OE_STATUS : Reg := ⟨0x60C000, [(4, 0x20000)], 8, 0x0⟩
def FAB_OE_STATUS_TX_OK : Fld := ⟨FAB_OE_STATUS, 8, 0, .RO⟩
def FAB_OE_STATUS_RX_OK : Fld := ⟨FAB_OE_STATUS, 24, 16, .RO⟩
def FAB_OE_STATUS_SWITCHING : Fld := ⟨FAB_OE_STATUS, 32, 32, .RO⟩
/-- FAB.OE_SPARE (R429). -/
def FAB_OE_SPARE : Reg := ⟨0x60C008, [(4, 0x20000)], 8, 0x0⟩
def FAB_OE_SPARE_TX_FOR : Fld := ⟨FAB_OE_SPARE, 2, 0, .RO⟩
def FAB_OE_SPARE_TX_USED : Fld := ⟨FAB_OE_SPARE, 3, 3, .RO⟩
def FAB_OE_SPARE_RX_FOR : Fld := ⟨FAB_OE_SPARE, 10, 8, .RO⟩
def FAB_OE_SPARE_RX_USED : Fld := ⟨FAB_OE_SPARE, 11, 11, .RO⟩
/-- FAB.OE_SPARE_REQ (R429). -/
def FAB_OE_SPARE_REQ : Reg := ⟨0x60C010, [(4, 0x20000)], 8, 0x0⟩
def FAB_OE_SPARE_REQ_LANE : Fld := ⟨FAB_OE_SPARE_REQ, 2, 0, .WO⟩
def FAB_OE_SPARE_REQ_DIR : Fld := ⟨FAB_OE_SPARE_REQ, 3, 3, .WO⟩
def FAB_OE_SPARE_REQ_GO : Fld := ⟨FAB_OE_SPARE_REQ, 4, 4, .WO⟩
/-- FAB.OE_CFG (R429). -/
def FAB_OE_CFG : Reg := ⟨0x60C018, [(4, 0x20000)], 8, 0xFE70FCE00213⟩
def FAB_OE_CFG_SER_LIMIT : Fld := ⟨FAB_OE_CFG, 15, 0, .RW⟩
def FAB_OE_CFG_RX_PWR_MIN : Fld := ⟨FAB_OE_CFG, 31, 16, .RW⟩
def FAB_OE_CFG_TX_PWR_MIN : Fld := ⟨FAB_OE_CFG, 47, 32, .RW⟩
/-- FAB.LANE_MON (R429). -/
def FAB_LANE_MON : Reg := ⟨0x60C100, [(9, 0x8), (4, 0x20000)], 8, 0x80008000⟩
def FAB_LANE_MON_TX_PWR : Fld := ⟨FAB_LANE_MON, 15, 0, .RO⟩
def FAB_LANE_MON_RX_PWR : Fld := ⟨FAB_LANE_MON, 31, 16, .RO⟩
def FAB_LANE_MON_BIAS : Fld := ⟨FAB_LANE_MON, 47, 32, .RO⟩
/-- RMA.RMA_STATUS (R467). -/
def RMA_RMA_STATUS : Reg := ⟨0x700000, [], 8, 0x0⟩
def RMA_RMA_STATUS_CACHED : Fld := ⟨RMA_RMA_STATUS, 12, 0, .RO⟩
def RMA_RMA_STATUS_PINNED : Fld := ⟨RMA_RMA_STATUS, 28, 16, .RO⟩
/-- RMA.GRANT_CFG (R467). -/
def RMA_GRANT_CFG : Reg := ⟨0x700008, [], 8, 0x10800⟩
def RMA_GRANT_CFG_GRANT_CELLS : Fld := ⟨RMA_GRANT_CFG, 13, 0, .RW⟩
def RMA_GRANT_CFG_VC_SEL : Fld := ⟨RMA_GRANT_CFG, 19, 16, .RW⟩
/-- RMA.CTX_HITS (R467). -/
def RMA_CTX_HITS : Reg := ⟨0x700010, [], 8, 0x0⟩
def RMA_CTX_HITS_COUNT : Fld := ⟨RMA_CTX_HITS, 63, 0, .RC⟩
/-- RMA.CTX_MISSES (R467). -/
def RMA_CTX_MISSES : Reg := ⟨0x700018, [], 8, 0x0⟩
def RMA_CTX_MISSES_COUNT : Fld := ⟨RMA_CTX_MISSES, 63, 0, .RC⟩
/-- RMA.CTX_WAITS (R467). -/
def RMA_CTX_WAITS : Reg := ⟨0x700020, [], 8, 0x0⟩
def RMA_CTX_WAITS_COUNT : Fld := ⟨RMA_CTX_WAITS, 63, 0, .RC⟩
/-- RMA.MALFORMED (R467). -/
def RMA_MALFORMED : Reg := ⟨0x700028, [], 8, 0x0⟩
def RMA_MALFORMED_COUNT : Fld := ⟨RMA_MALFORMED, 63, 0, .RC⟩
/-- RMA.MISROUTED (R467). -/
def RMA_MISROUTED : Reg := ⟨0x700030, [], 8, 0x0⟩
def RMA_MISROUTED_COUNT : Fld := ⟨RMA_MISROUTED, 63, 0, .RC⟩
/-- RMA.AUTH_FAIL (R467). -/
def RMA_AUTH_FAIL : Reg := ⟨0x700038, [], 8, 0x0⟩
def RMA_AUTH_FAIL_COUNT : Fld := ⟨RMA_AUTH_FAIL, 63, 0, .RC⟩
/-- RMA.WINDOW_DROPS (R467). -/
def RMA_WINDOW_DROPS : Reg := ⟨0x700040, [], 8, 0x0⟩
def RMA_WINDOW_DROPS_COUNT : Fld := ⟨RMA_WINDOW_DROPS, 63, 0, .RC⟩
/-- RMA.MISS_USE (R467). -/
def RMA_MISS_USE : Reg := ⟨0x700100, [(8, 0x8)], 8, 0x0⟩
def RMA_MISS_USE_BYTES : Fld := ⟨RMA_MISS_USE, 18, 0, .RO⟩
def RMA_MISS_USE_PEAK : Fld := ⟨RMA_MISS_USE, 50, 32, .RC⟩
/-- RMA.QP_RANGE (R467). -/
def RMA_QP_RANGE : Reg := ⟨0x701000, [(16, 0x200)], 8, 0x0⟩
def RMA_QP_RANGE_FIRST : Fld := ⟨RMA_QP_RANGE, 15, 0, .RW⟩
def RMA_QP_RANGE_COUNT : Fld := ⟨RMA_QP_RANGE, 48, 32, .RW⟩
/-- RMA.KEY_RANGE (R467). -/
def RMA_KEY_RANGE : Reg := ⟨0x701008, [(16, 0x200)], 8, 0x0⟩
def RMA_KEY_RANGE_FIRST : Fld := ⟨RMA_KEY_RANGE, 17, 0, .RW⟩
def RMA_KEY_RANGE_COUNT : Fld := ⟨RMA_KEY_RANGE, 50, 32, .RW⟩
/-- RMA.PD_RANGE (R467). -/
def RMA_PD_RANGE : Reg := ⟨0x701010, [(16, 0x200)], 8, 0x0⟩
def RMA_PD_RANGE_FIRST : Fld := ⟨RMA_PD_RANGE, 11, 0, .RW⟩
def RMA_PD_RANGE_COUNT : Fld := ⟨RMA_PD_RANGE, 44, 32, .RW⟩
/-- RMA.CTX_BASE (R467). -/
def RMA_CTX_BASE : Reg := ⟨0x701018, [(16, 0x200)], 8, 0x0⟩
def RMA_CTX_BASE_ADDR : Fld := ⟨RMA_CTX_BASE, 63, 0, .RW⟩
/-- RMA.REGION_BASE (R467). -/
def RMA_REGION_BASE : Reg := ⟨0x701020, [(16, 0x200)], 8, 0x0⟩
def RMA_REGION_BASE_ADDR : Fld := ⟨RMA_REGION_BASE, 63, 0, .RW⟩
/-- RMA.QP_CMD (R467). -/
def RMA_QP_CMD : Reg := ⟨0x701028, [(16, 0x200)], 8, 0x0⟩
def RMA_QP_CMD_QP : Fld := ⟨RMA_QP_CMD, 15, 0, .WO⟩
def RMA_QP_CMD_CMD : Fld := ⟨RMA_QP_CMD, 17, 16, .WO⟩
def RMA_QP_CMD_GO : Fld := ⟨RMA_QP_CMD, 18, 18, .WO⟩
/-- RMA.QP_CMD_STATUS (R467). -/
def RMA_QP_CMD_STATUS : Reg := ⟨0x701030, [(16, 0x200)], 8, 0x0⟩
def RMA_QP_CMD_STATUS_BUSY : Fld := ⟨RMA_QP_CMD_STATUS, 0, 0, .RO⟩
def RMA_QP_CMD_STATUS_RESULT : Fld := ⟨RMA_QP_CMD_STATUS, 31, 16, .RO⟩
/-- RMA.REGION_INVAL (R467). -/
def RMA_REGION_INVAL : Reg := ⟨0x701038, [(16, 0x200)], 8, 0x0⟩
def RMA_REGION_INVAL_KEY : Fld := ⟨RMA_REGION_INVAL, 17, 0, .WO⟩
def RMA_REGION_INVAL_GO : Fld := ⟨RMA_REGION_INVAL, 18, 18, .WO⟩
def RMA_REGION_INVAL_BUSY : Fld := ⟨RMA_REGION_INVAL, 32, 32, .RO⟩
/-- RMA.RETRY_CFG (R467). -/
def RMA_RETRY_CFG : Reg := ⟨0x701040, [(16, 0x200)], 8, 0x2710040000470064⟩
def RMA_RETRY_CFG_RTO_US : Fld := ⟨RMA_RETRY_CFG, 15, 0, .RW⟩
def RMA_RETRY_CFG_RETRY_LIMIT : Fld := ⟨RMA_RETRY_CFG, 19, 16, .RW⟩
def RMA_RETRY_CFG_BACKOFF_MIN_US : Fld := ⟨RMA_RETRY_CFG, 31, 20, .RW⟩
def RMA_RETRY_CFG_BACKOFF_MAX_US : Fld := ⟨RMA_RETRY_CFG, 47, 32, .RW⟩
def RMA_RETRY_CFG_REASM_TIMEOUT_US : Fld := ⟨RMA_RETRY_CFG, 63, 48, .RW⟩
/-- RMA.TX_MSGS (R467). -/
def RMA_TX_MSGS : Reg := ⟨0x701048, [(16, 0x200)], 8, 0x0⟩
def RMA_TX_MSGS_COUNT : Fld := ⟨RMA_TX_MSGS, 63, 0, .RC⟩
/-- RMA.RX_MSGS (R467). -/
def RMA_RX_MSGS : Reg := ⟨0x701050, [(16, 0x200)], 8, 0x0⟩
def RMA_RX_MSGS_COUNT : Fld := ⟨RMA_RX_MSGS, 63, 0, .RC⟩
/-- RMA.RETX_PKTS (R467). -/
def RMA_RETX_PKTS : Reg := ⟨0x701058, [(16, 0x200)], 8, 0x0⟩
def RMA_RETX_PKTS_COUNT : Fld := ⟨RMA_RETX_PKTS, 63, 0, .RC⟩
/-- RMA.NAKS_SENT (R467). -/
def RMA_NAKS_SENT : Reg := ⟨0x701060, [(16, 0x200)], 8, 0x0⟩
def RMA_NAKS_SENT_COUNT : Fld := ⟨RMA_NAKS_SENT, 63, 0, .RC⟩
/-- RMA.NAKS_RECEIVED (R467). -/
def RMA_NAKS_RECEIVED : Reg := ⟨0x701068, [(16, 0x200)], 8, 0x0⟩
def RMA_NAKS_RECEIVED_COUNT : Fld := ⟨RMA_NAKS_RECEIVED, 63, 0, .RC⟩
/-- RMA.REFUSED (R467). -/
def RMA_REFUSED : Reg := ⟨0x701070, [(16, 0x200)], 8, 0x0⟩
def RMA_REFUSED_COUNT : Fld := ⟨RMA_REFUSED, 63, 0, .RC⟩
/-- RMA.ABORTS (R467). -/
def RMA_ABORTS : Reg := ⟨0x701078, [(16, 0x200)], 8, 0x0⟩
def RMA_ABORTS_COUNT : Fld := ⟨RMA_ABORTS, 63, 0, .RC⟩
/-- RMA.RMA_PSTATUS (R467). -/
def RMA_RMA_PSTATUS : Reg := ⟨0x701080, [(16, 0x200)], 8, 0x0⟩
def RMA_RMA_PSTATUS_CFG_ERR : Fld := ⟨RMA_RMA_PSTATUS, 0, 0, .W1C⟩
def RMA_RMA_PSTATUS_REGION_ERR : Fld := ⟨RMA_RMA_PSTATUS, 1, 1, .W1C⟩
def RMA_RMA_PSTATUS_FETCH_ERR : Fld := ⟨RMA_RMA_PSTATUS, 2, 2, .W1C⟩
/-- COL.HERD_CFG (R510). -/
def COL_HERD_CFG : Reg := ⟨0x800000, [], 8, 0x0⟩
def COL_HERD_CFG_DEV_ID : Fld := ⟨COL_HERD_CFG, 13, 0, .RW⟩
def COL_HERD_CFG_ORDINAL : Fld := ⟨COL_HERD_CFG, 29, 16, .RW⟩
def COL_HERD_CFG_SIZE : Fld := ⟨COL_HERD_CFG, 46, 32, .RW⟩
def COL_HERD_CFG_VALID : Fld := ⟨COL_HERD_CFG, 48, 48, .RW⟩
/-- COL.HERD_STATUS (R510). -/
def COL_HERD_STATUS : Reg := ⟨0x800008, [], 8, 0x0⟩
def COL_HERD_STATUS_IN_HERD : Fld := ⟨COL_HERD_STATUS, 0, 0, .RO⟩
def COL_HERD_STATUS_CFG_ERR : Fld := ⟨COL_HERD_STATUS, 1, 1, .W1C⟩
/-- COL.PROBE_CMD (R510). -/
def COL_PROBE_CMD : Reg := ⟨0x800010, [], 8, 0x0⟩
def COL_PROBE_CMD_PART : Fld := ⟨COL_PROBE_CMD, 3, 0, .WO⟩
def COL_PROBE_CMD_QP : Fld := ⟨COL_PROBE_CMD, 19, 4, .WO⟩
def COL_PROBE_CMD_PATH : Fld := ⟨COL_PROBE_CMD, 22, 20, .WO⟩
def COL_PROBE_CMD_GO : Fld := ⟨COL_PROBE_CMD, 23, 23, .WO⟩
def COL_PROBE_CMD_KIB : Fld := ⟨COL_PROBE_CMD, 55, 32, .WO⟩
/-- COL.PROBE_STATUS (R510). -/
def COL_PROBE_STATUS : Reg := ⟨0x800018, [], 8, 0x0⟩
def COL_PROBE_STATUS_BUSY : Fld := ⟨COL_PROBE_STATUS, 0, 0, .RO⟩
def COL_PROBE_STATUS_RESULT : Fld := ⟨COL_PROBE_STATUS, 31, 16, .RO⟩
/-- COL.PROBE_LAT (R510). -/
def COL_PROBE_LAT : Reg := ⟨0x800020, [], 8, 0x0⟩
def COL_PROBE_LAT_NS : Fld := ⟨COL_PROBE_LAT, 31, 0, .RO⟩
/-- COL.PROBE_BW (R510). -/
def COL_PROBE_BW : Reg := ⟨0x800028, [], 8, 0x0⟩
def COL_PROBE_BW_MBPS : Fld := ⟨COL_PROBE_BW, 31, 0, .RO⟩
/-- COL.COLL_CFG (R510). -/
def COL_COLL_CFG : Reg := ⟨0x801000, [(16, 0x400)], 8, 0x3E8⟩
def COL_COLL_CFG_TIMEOUT_MS : Fld := ⟨COL_COLL_CFG, 15, 0, .RW⟩
/-- COL.COLL_STATUS (R510). -/
def COL_COLL_STATUS : Reg := ⟨0x801008, [(16, 0x400)], 8, 0x0⟩
def COL_COLL_STATUS_CFG_ERR : Fld := ⟨COL_COLL_STATUS, 0, 0, .W1C⟩
def COL_COLL_STATUS_CHUNK_FAILED : Fld := ⟨COL_COLL_STATUS, 1, 1, .W1C⟩
def COL_COLL_STATUS_DIVERGED : Fld := ⟨COL_COLL_STATUS, 2, 2, .W1C⟩
/-- COL.GROUP_CMD (R510). -/
def COL_GROUP_CMD : Reg := ⟨0x801010, [(16, 0x400)], 8, 0x0⟩
def COL_GROUP_CMD_GROUP : Fld := ⟨COL_GROUP_CMD, 3, 0, .WO⟩
def COL_GROUP_CMD_CMD : Fld := ⟨COL_GROUP_CMD, 5, 4, .WO⟩
def COL_GROUP_CMD_GO : Fld := ⟨COL_GROUP_CMD, 6, 6, .WO⟩
/-- COL.GROUP_CMD_STATUS (R510). -/
def COL_GROUP_CMD_STATUS : Reg := ⟨0x801018, [(16, 0x400)], 8, 0x0⟩
def COL_GROUP_CMD_STATUS_BUSY : Fld := ⟨COL_GROUP_CMD_STATUS, 0, 0, .RO⟩
def COL_GROUP_CMD_STATUS_RESULT : Fld := ⟨COL_GROUP_CMD_STATUS, 31, 16, .RO⟩
/-- COL.GROUP_DESC (R510). -/
def COL_GROUP_DESC : Reg := ⟨0x801020, [(16, 0x400)], 8, 0x0⟩
def COL_GROUP_DESC_ADDR : Fld := ⟨COL_GROUP_DESC, 63, 0, .RW⟩
/-- COL.COLL_STAGE_BASE (R510). -/
def COL_COLL_STAGE_BASE : Reg := ⟨0x801028, [(16, 0x400)], 8, 0x0⟩
def COL_COLL_STAGE_BASE_BASE : Fld := ⟨COL_COLL_STAGE_BASE, 39, 12, .RW⟩
/-- COL.COLL_STAGE_BYTES (R510). -/
def COL_COLL_STAGE_BYTES : Reg := ⟨0x801030, [(16, 0x400)], 8, 0x0⟩
def COL_COLL_STAGE_BYTES_SIZE : Fld := ⟨COL_COLL_STAGE_BYTES, 31, 12, .RW⟩
/-- COL.ACCUM (R510). -/
def COL_ACCUM : Reg := ⟨0x801038, [(16, 0x400)], 8, 0x1⟩
def COL_ACCUM_COUNT : Fld := ⟨COL_ACCUM, 15, 0, .RW⟩
/-- COL.NOISE (R510). -/
def COL_NOISE : Reg := ⟨0x801040, [(16, 0x400)], 8, 0x0⟩
def COL_NOISE_NOISE_C : Fld := ⟨COL_NOISE, 31, 0, .RO⟩
def COL_NOISE_NOISE_R : Fld := ⟨COL_NOISE, 63, 32, .RO⟩
/-- COL.NOISE_STEP (R510). -/
def COL_NOISE_STEP : Reg := ⟨0x801048, [(16, 0x400)], 8, 0x0⟩
def COL_NOISE_STEP_STEP : Fld := ⟨COL_NOISE_STEP, 63, 0, .RO⟩
/-- COL.NOISE_INFO (R510). -/
def COL_NOISE_INFO : Reg := ⟨0x801050, [(16, 0x400)], 8, 0x0⟩
def COL_NOISE_INFO_G : Fld := ⟨COL_NOISE_INFO, 14, 0, .RO⟩
def COL_NOISE_INFO_ACCUM : Fld := ⟨COL_NOISE_INFO, 31, 16, .RO⟩
/-- COL.CKPT_QP (R510). -/
def COL_CKPT_QP : Reg := ⟨0x801058, [(16, 0x400)], 8, 0x0⟩
def COL_CKPT_QP_QP : Fld := ⟨COL_CKPT_QP, 15, 0, .RW⟩
/-- COL.BUDDY_BASE (R510). -/
def COL_BUDDY_BASE : Reg := ⟨0x801060, [(16, 0x400)], 8, 0x0⟩
def COL_BUDDY_BASE_BASE : Fld := ⟨COL_BUDDY_BASE, 39, 12, .RW⟩
/-- COL.BUDDY_SLOT (R510). -/
def COL_BUDDY_SLOT : Reg := ⟨0x801068, [(16, 0x400)], 8, 0x0⟩
def COL_BUDDY_SLOT_SLOT_BYTES : Fld := ⟨COL_BUDDY_SLOT, 39, 12, .RW⟩
/-- COL.BUDDY_SRC (R510). -/
def COL_BUDDY_SRC : Reg := ⟨0x801070, [(16, 0x400)], 8, 0x0⟩
def COL_BUDDY_SRC_DEV : Fld := ⟨COL_BUDDY_SRC, 13, 0, .RW⟩
def COL_BUDDY_SRC_EN : Fld := ⟨COL_BUDDY_SRC, 16, 16, .RW⟩
/-- COL.BUDDY_STATE (R510). -/
def COL_BUDDY_STATE : Reg := ⟨0x801078, [(16, 0x400)], 8, 0x0⟩
def COL_BUDDY_STATE_A_STATE : Fld := ⟨COL_BUDDY_STATE, 1, 0, .RO⟩
def COL_BUDDY_STATE_A_LOCK : Fld := ⟨COL_BUDDY_STATE, 2, 2, .RW⟩
def COL_BUDDY_STATE_B_STATE : Fld := ⟨COL_BUDDY_STATE, 5, 4, .RO⟩
def COL_BUDDY_STATE_B_LOCK : Fld := ⟨COL_BUDDY_STATE, 6, 6, .RW⟩
/-- COL.BUDDY_A_STEP (R510). -/
def COL_BUDDY_A_STEP : Reg := ⟨0x801080, [(16, 0x400)], 8, 0x0⟩
def COL_BUDDY_A_STEP_STEP : Fld := ⟨COL_BUDDY_A_STEP, 63, 0, .RO⟩
/-- COL.BUDDY_B_STEP (R510). -/
def COL_BUDDY_B_STEP : Reg := ⟨0x801088, [(16, 0x400)], 8, 0x0⟩
def COL_BUDDY_B_STEP_STEP : Fld := ⟨COL_BUDDY_B_STEP, 63, 0, .RO⟩
/-- COL.CHUNKS_SENT (R510). -/
def COL_CHUNKS_SENT : Reg := ⟨0x801090, [(16, 0x400)], 8, 0x0⟩
def COL_CHUNKS_SENT_COUNT : Fld := ⟨COL_CHUNKS_SENT, 63, 0, .RC⟩
/-- COL.CHUNK_REPLAYS (R510). -/
def COL_CHUNK_REPLAYS : Reg := ⟨0x801098, [(16, 0x400)], 8, 0x0⟩
def COL_CHUNK_REPLAYS_COUNT : Fld := ⟨COL_CHUNK_REPLAYS, 63, 0, .RC⟩
/-- COL.MISMATCHES (R510). -/
def COL_MISMATCHES : Reg := ⟨0x8010A0, [(16, 0x400)], 8, 0x0⟩
def COL_MISMATCHES_COUNT : Fld := ⟨COL_MISMATCHES, 63, 0, .RC⟩
/-- COL.CHUNKS_FAILED (R510). -/
def COL_CHUNKS_FAILED : Reg := ⟨0x8010A8, [(16, 0x400)], 8, 0x0⟩
def COL_CHUNKS_FAILED_COUNT : Fld := ⟨COL_CHUNKS_FAILED, 63, 0, .RC⟩
/-- COL.NF_CHUNKS (R510). -/
def COL_NF_CHUNKS : Reg := ⟨0x8010B0, [(16, 0x400)], 8, 0x0⟩
def COL_NF_CHUNKS_COUNT : Fld := ⟨COL_NF_CHUNKS, 63, 0, .RC⟩
/-- COL.DIVERGENCES (R510). -/
def COL_DIVERGENCES : Reg := ⟨0x8010B8, [(16, 0x400)], 8, 0x0⟩
def COL_DIVERGENCES_COUNT : Fld := ⟨COL_DIVERGENCES, 63, 0, .RC⟩
/-- COL.AGREE_MISMATCH (R510). -/
def COL_AGREE_MISMATCH : Reg := ⟨0x8010C0, [(16, 0x400)], 8, 0x0⟩
def COL_AGREE_MISMATCH_COUNT : Fld := ⟨COL_AGREE_MISMATCH, 63, 0, .RC⟩
/-- COL.PIPE_TX_STALL5 (R510). -/
def COL_PIPE_TX_STALL5 : Reg := ⟨0x8010C8, [(16, 0x400)], 8, 0x0⟩
def COL_PIPE_TX_STALL5_COUNT : Fld := ⟨COL_PIPE_TX_STALL5, 63, 0, .RC⟩
/-- COL.PIPE_TX_STALL6 (R510). -/
def COL_PIPE_TX_STALL6 : Reg := ⟨0x8010D0, [(16, 0x400)], 8, 0x0⟩
def COL_PIPE_TX_STALL6_COUNT : Fld := ⟨COL_PIPE_TX_STALL6, 63, 0, .RC⟩
/-- COL.PIPE_RX_WAIT5 (R510). -/
def COL_PIPE_RX_WAIT5 : Reg := ⟨0x8010D8, [(16, 0x400)], 8, 0x0⟩
def COL_PIPE_RX_WAIT5_COUNT : Fld := ⟨COL_PIPE_RX_WAIT5, 63, 0, .RC⟩
/-- COL.PIPE_RX_WAIT6 (R510). -/
def COL_PIPE_RX_WAIT6 : Reg := ⟨0x8010E0, [(16, 0x400)], 8, 0x0⟩
def COL_PIPE_RX_WAIT6_COUNT : Fld := ⟨COL_PIPE_RX_WAIT6, 63, 0, .RC⟩
/-- COL.GRP_INFO (R510). -/
def COL_GRP_INFO : Reg := ⟨0x801200, [(16, 0x20), (16, 0x400)], 8, 0x0⟩
def COL_GRP_INFO_POSITION : Fld := ⟨COL_GRP_INFO, 13, 0, .RO⟩
def COL_GRP_INFO_COUNT : Fld := ⟨COL_GRP_INFO, 30, 16, .RO⟩
def COL_GRP_INFO_RVC : Fld := ⟨COL_GRP_INFO, 35, 32, .RO⟩
def COL_GRP_INFO_GVC : Fld := ⟨COL_GRP_INFO, 39, 36, .RO⟩
def COL_GRP_INFO_FORMED : Fld := ⟨COL_GRP_INFO, 63, 63, .RO⟩
/-- COL.GRP_DIGEST (R510). -/
def COL_GRP_DIGEST : Reg := ⟨0x801208, [(16, 0x20), (16, 0x400)], 8, 0x0⟩
def COL_GRP_DIGEST_DIGEST : Fld := ⟨COL_GRP_DIGEST, 63, 0, .RO⟩
/-- COL.GRP_TAG (R510). -/
def COL_GRP_TAG : Reg := ⟨0x801210, [(16, 0x20), (16, 0x400)], 8, 0x0⟩
def COL_GRP_TAG_TAG : Fld := ⟨COL_GRP_TAG, 15, 0, .RO⟩
def COL_GRP_TAG_CHUNK_ELEMS : Fld := ⟨COL_GRP_TAG, 50, 32, .RO⟩
/-- UPD.ENG_STATUS (R326). -/
def UPD_ENG_STATUS : Reg := ⟨0x900000, [(16, 0x1000)], 8, 0x0⟩
def UPD_ENG_STATUS_LEAD : Fld := ⟨UPD_ENG_STATUS, 0, 0, .RO⟩
def UPD_ENG_STATUS_STATE : Fld := ⟨UPD_ENG_STATUS, 2, 1, .RO⟩
/-- UPD.ENG_ITEMS (R326). -/
def UPD_ENG_ITEMS : Reg := ⟨0x900008, [(16, 0x1000)], 8, 0x0⟩
def UPD_ENG_ITEMS_COUNT : Fld := ⟨UPD_ENG_ITEMS, 63, 0, .RC⟩
/-- UPD.ENG_ELEMS (R326). -/
def UPD_ENG_ELEMS : Reg := ⟨0x900010, [(16, 0x1000)], 8, 0x0⟩
def UPD_ENG_ELEMS_COUNT : Fld := ⟨UPD_ENG_ELEMS, 63, 0, .RC⟩
/-- UPD.ENG_SKIPPED (R326). -/
def UPD_ENG_SKIPPED : Reg := ⟨0x900018, [(16, 0x1000)], 8, 0x0⟩
def UPD_ENG_SKIPPED_COUNT : Fld := ⟨UPD_ENG_SKIPPED, 63, 0, .RC⟩
/-- UPD.ENG_NF_ELEMS (R326). -/
def UPD_ENG_NF_ELEMS : Reg := ⟨0x900020, [(16, 0x1000)], 8, 0x0⟩
def UPD_ENG_NF_ELEMS_COUNT : Fld := ⟨UPD_ENG_NF_ELEMS, 63, 0, .RC⟩
/-- UPD.STEP (R326). -/
def UPD_STEP : Reg := ⟨0x900100, [(16, 0x1000)], 8, 0x0⟩
def UPD_STEP_STEP : Fld := ⟨UPD_STEP, 63, 0, .RO⟩
/-- UPD.LS_STATE (R326). -/
def UPD_LS_STATE : Reg := ⟨0x900108, [(16, 0x1000)], 8, 0x0⟩
def UPD_LS_STATE_E : Fld := ⟨UPD_LS_STATE, 7, 0, .RW⟩
def UPD_LS_STATE_VALID : Fld := ⟨UPD_LS_STATE, 8, 8, .RW⟩
def UPD_LS_STATE_RECOVERY_LEFT : Fld := ⟨UPD_LS_STATE, 24, 16, .RW⟩
def UPD_LS_STATE_CLEAN : Fld := ⟨UPD_LS_STATE, 63, 32, .RW⟩
/-- UPD.LS_HIST (R326). -/
def UPD_LS_HIST : Reg := ⟨0x900110, [(16, 0x1000)], 8, 0x0⟩
def UPD_LS_HIST_HIST : Fld := ⟨UPD_LS_HIST, 63, 0, .RW⟩
/-- UPD.LS_CFG (R326). -/
def UPD_LS_CFG : Reg := ⟨0x900118, [(16, 0x1000)], 8, 0xC07D0⟩
def UPD_LS_CFG_GROW_INTERVAL : Fld := ⟨UPD_LS_CFG, 15, 0, .RW⟩
def UPD_LS_CFG_RECOVERY_EXP : Fld := ⟨UPD_LS_CFG, 23, 16, .RW⟩
def UPD_LS_CFG_AGREE_GROUP : Fld := ⟨UPD_LS_CFG, 27, 24, .RW⟩
def UPD_LS_CFG_AGREE_EN : Fld := ⟨UPD_LS_CFG, 28, 28, .RW⟩
/-- UPD.CLIP (R326). -/
def UPD_CLIP : Reg := ⟨0x900120, [(16, 0x1000)], 8, 0x0⟩
def UPD_CLIP_NORM : Fld := ⟨UPD_CLIP, 31, 0, .RW⟩
/-- UPD.GNORM (R326). -/
def UPD_GNORM : Reg := ⟨0x900128, [(16, 0x1000)], 8, 0x0⟩
def UPD_GNORM_G : Fld := ⟨UPD_GNORM, 31, 0, .RO⟩
def UPD_GNORM_C_FACTOR : Fld := ⟨UPD_GNORM, 63, 32, .RO⟩
/-- UPD.SCHED_KIND (R326). -/
def UPD_SCHED_KIND : Reg := ⟨0x900130, [(16, 0x1000)], 8, 0x0⟩
def UPD_SCHED_KIND_KIND : Fld := ⟨UPD_SCHED_KIND, 2, 0, .RW⟩
/-- UPD.SCHED_LR (R326). -/
def UPD_SCHED_LR : Reg := ⟨0x900138, [(16, 0x1000)], 8, 0x0⟩
def UPD_SCHED_LR_LR0 : Fld := ⟨UPD_SCHED_LR, 31, 0, .RW⟩
def UPD_SCHED_LR_LRMIN : Fld := ⟨UPD_SCHED_LR, 63, 32, .RW⟩
/-- UPD.SCHED_SPAN (R326). -/
def UPD_SCHED_SPAN : Reg := ⟨0x900140, [(16, 0x1000)], 8, 0x0⟩
def UPD_SCHED_SPAN_WARMUP : Fld := ⟨UPD_SCHED_SPAN, 31, 0, .RW⟩
def UPD_SCHED_SPAN_TOTAL : Fld := ⟨UPD_SCHED_SPAN, 63, 32, .RW⟩
/-- UPD.SCHED_STEP (R326). -/
def UPD_SCHED_STEP : Reg := ⟨0x900148, [(16, 0x1000)], 8, 0x0⟩
def UPD_SCHED_STEP_INTERVAL : Fld := ⟨UPD_SCHED_STEP, 31, 0, .RW⟩
def UPD_SCHED_STEP_GAMMA : Fld := ⟨UPD_SCHED_STEP, 63, 32, .RW⟩
/-- UPD.SCHED_STRIDE (R326). -/
def UPD_SCHED_STRIDE : Reg := ⟨0x900150, [(16, 0x1000)], 8, 0x0⟩
def UPD_SCHED_STRIDE_STRIDE : Fld := ⟨UPD_SCHED_STRIDE, 31, 0, .RW⟩
/-- UPD.SCHED_N (R326). -/
def UPD_SCHED_N : Reg := ⟨0x900158, [(16, 0x1000)], 8, 0x0⟩
def UPD_SCHED_N_N : Fld := ⟨UPD_SCHED_N, 63, 0, .RW⟩
/-- UPD.SCHED_RATE (R326). -/
def UPD_SCHED_RATE : Reg := ⟨0x900160, [(16, 0x1000)], 8, 0x0⟩
def UPD_SCHED_RATE_ETA : Fld := ⟨UPD_SCHED_RATE, 31, 0, .RO⟩
/-- UPD.LAYER_TABLE (R326). -/
def UPD_LAYER_TABLE : Reg := ⟨0x900168, [(16, 0x1000)], 8, 0x0⟩
def UPD_LAYER_TABLE_BASE : Fld := ⟨UPD_LAYER_TABLE, 39, 12, .RW⟩
/-- UPD.SCHED_TABLE (R326). -/
def UPD_SCHED_TABLE : Reg := ⟨0x900170, [(16, 0x1000)], 8, 0x0⟩
def UPD_SCHED_TABLE_BASE : Fld := ⟨UPD_SCHED_TABLE, 39, 12, .RW⟩
/-- UPD.WATCH_CFG (R326). -/
def UPD_WATCH_CFG : Reg := ⟨0x900178, [(16, 0x1000)], 8, 0x3E8⟩
def UPD_WATCH_CFG_UNDERFLOW_STEPS : Fld := ⟨UPD_WATCH_CFG, 15, 0, .RW⟩
/-- UPD.AGREE_TIMEOUT (R326). -/
def UPD_AGREE_TIMEOUT : Reg := ⟨0x900180, [(16, 0x1000)], 8, 0x64⟩
def UPD_AGREE_TIMEOUT_MS : Fld := ⟨UPD_AGREE_TIMEOUT, 15, 0, .RW⟩
/-- UPD.STEP_STATUS (R326). -/
def UPD_STEP_STATUS : Reg := ⟨0x900188, [(16, 0x1000)], 8, 0x0⟩
def UPD_STEP_STATUS_CLOSED : Fld := ⟨UPD_STEP_STATUS, 0, 0, .RO⟩
def UPD_STEP_STATUS_DECIDED : Fld := ⟨UPD_STEP_STATUS, 1, 1, .RO⟩
def UPD_STEP_STATUS_LAST_SKIPPED : Fld := ⟨UPD_STEP_STATUS, 2, 2, .RO⟩
def UPD_STEP_STATUS_CFG_ERR : Fld := ⟨UPD_STEP_STATUS, 3, 3, .W1C⟩
def UPD_STEP_STATUS_INCOMPLETE : Fld := ⟨UPD_STEP_STATUS, 4, 4, .W1C⟩
/-- UPD.STEPS_COMMITTED (R326). -/
def UPD_STEPS_COMMITTED : Reg := ⟨0x900190, [(16, 0x1000)], 8, 0x0⟩
def UPD_STEPS_COMMITTED_COUNT : Fld := ⟨UPD_STEPS_COMMITTED, 63, 0, .RC⟩
/-- UPD.STEPS_SKIPPED (R326). -/
def UPD_STEPS_SKIPPED : Reg := ⟨0x900198, [(16, 0x1000)], 8, 0x0⟩
def UPD_STEPS_SKIPPED_COUNT : Fld := ⟨UPD_STEPS_SKIPPED, 63, 0, .RC⟩
/-- UPD.CLIPPED_STEPS (R326). -/
def UPD_CLIPPED_STEPS : Reg := ⟨0x9001A0, [(16, 0x1000)], 8, 0x0⟩
def UPD_CLIPPED_STEPS_COUNT : Fld := ⟨UPD_CLIPPED_STEPS, 63, 0, .RC⟩
/-- UPD.LATE_ITEMS (R326). -/
def UPD_LATE_ITEMS : Reg := ⟨0x9001A8, [(16, 0x1000)], 8, 0x0⟩
def UPD_LATE_ITEMS_COUNT : Fld := ⟨UPD_LATE_ITEMS, 63, 0, .RC⟩
/-- UPD.UNDERFLOWS (R326). -/
def UPD_UNDERFLOWS : Reg := ⟨0x9001B0, [(16, 0x1000)], 8, 0x0⟩
def UPD_UNDERFLOWS_COUNT : Fld := ⟨UPD_UNDERFLOWS, 63, 0, .RC⟩
/-- UPD.RATIO_EVENTS (R326). -/
def UPD_RATIO_EVENTS : Reg := ⟨0x9001B8, [(16, 0x1000)], 8, 0x0⟩
def UPD_RATIO_EVENTS_COUNT : Fld := ⟨UPD_RATIO_EVENTS, 63, 0, .RC⟩
/-- Registers of the device and its faults (R582, R651, R666). -/
def rowsDEV : List RegRow := [
  ⟨"DEV.ID", DEV_ID, [DEV_ID_VENDOR, DEV_ID_DEVICE, DEV_ID_STEPPING, DEV_ID_DIOTH_REV]⟩,
  ⟨"DEV.PART_NO", DEV_PART_NO, [DEV_PART_NO_TEXT]⟩,
  ⟨"DEV.STATUS", DEV_STATUS, [DEV_STATUS_READY, DEV_STATUS_HELD, DEV_STATUS_FATAL, DEV_STATUS_RECORDS_LOST, DEV_STATUS_LAST_RESET]⟩,
  ⟨"DEV.RESET_CMD", DEV_RESET_CMD, [DEV_RESET_CMD_COLD]⟩,
  ⟨"DEV.RESET_STATUS", DEV_RESET_STATUS, [DEV_RESET_STATUS_RESULT]⟩,
  ⟨"DEV.TILE_RESET", DEV_TILE_RESET, [DEV_TILE_RESET_TILE, DEV_TILE_RESET_GO]⟩,
  ⟨"DEV.TILE_RESET_STATUS", DEV_TILE_RESET_STATUS, [DEV_TILE_RESET_STATUS_BUSY, DEV_TILE_RESET_STATUS_RESULT]⟩,
  ⟨"DEV.HELD_COUNT", DEV_HELD_COUNT, [DEV_HELD_COUNT_COUNT]⟩,
  ⟨"DEV.HELD_INDEX", DEV_HELD_INDEX, [DEV_HELD_INDEX_INDEX, DEV_HELD_INDEX_PART]⟩,
  ⟨"DEV.HELD_DATA", DEV_HELD_DATA, [DEV_HELD_DATA_RECORD]⟩,
  ⟨"DEV.HELD_CLEAR", DEV_HELD_CLEAR, [DEV_HELD_CLEAR_CLEAR]⟩,
  ⟨"DEV.SPARE_COUNT", DEV_SPARE_COUNT, [DEV_SPARE_COUNT_COUNT]⟩,
  ⟨"DEV.SPARE_INDEX", DEV_SPARE_INDEX, [DEV_SPARE_INDEX_INDEX]⟩,
  ⟨"DEV.SPARE_DATA", DEV_SPARE_DATA, [DEV_SPARE_DATA_KIND, DEV_SPARE_DATA_UNIT, DEV_SPARE_DATA_SUB, DEV_SPARE_DATA_CLEARED, DEV_SPARE_DATA_HOURS]⟩,
  ⟨"DEV.SPARE_CLEAR", DEV_SPARE_CLEAR, [DEV_SPARE_CLEAR_INDEX, DEV_SPARE_CLEAR_ALL, DEV_SPARE_CLEAR_GO]⟩,
  ⟨"DEV.FATAL_INFO", DEV_FATAL_INFO, [DEV_FATAL_INFO_CODE, DEV_FATAL_INFO_SOURCE, DEV_FATAL_INFO_CLASS]⟩,
  ⟨"DEV.FAULT_PIN", DEV_FAULT_PIN, [DEV_FAULT_PIN_LOW]⟩,
  ⟨"DEV.DEGRADED", DEV_DEGRADED, [DEV_DEGRADED_GROUPS]⟩,
  ⟨"DEV.TSTATE_CMD", DEV_TSTATE_CMD, [DEV_TSTATE_CMD_PART, DEV_TSTATE_CMD_GO]⟩,
  ⟨"DEV.TSTATE_ARG", DEV_TSTATE_ARG, [DEV_TSTATE_ARG_OFFSET]⟩,
  ⟨"DEV.TSTATE_STATUS", DEV_TSTATE_STATUS, [DEV_TSTATE_STATUS_BUSY, DEV_TSTATE_STATUS_RESULT]⟩,
  ⟨"DEV.GPIO_CFG", DEV_GPIO_CFG, [DEV_GPIO_CFG_OE, DEV_GPIO_CFG_OUT]⟩,
  ⟨"DEV.GPIO_IN", DEV_GPIO_IN, [DEV_GPIO_IN_LEVEL]⟩,
  ⟨"DEV.GPIO_EDGE", DEV_GPIO_EDGE, [DEV_GPIO_EDGE_RISE, DEV_GPIO_EDGE_FALL]⟩]
/-- Registers of the timebase and the event queues (R76). -/
def rowsEVT : List RegRow := [
  ⟨"EVT.TICK_COUNT", EVT_TICK_COUNT, [EVT_TICK_COUNT_TICK]⟩,
  ⟨"EVT.TS", EVT_TS, [EVT_TS_TS]⟩,
  ⟨"EVT.TS_CTRL", EVT_TS_CTRL, [EVT_TS_CTRL_SRC, EVT_TS_CTRL_PTP_PORT, EVT_TS_CTRL_SLEW_EN]⟩,
  ⟨"EVT.TS_STEP", EVT_TS_STEP, [EVT_TS_STEP_STEP]⟩,
  ⟨"EVT.TS_OFFSET", EVT_TS_OFFSET, [EVT_TS_OFFSET_OFFSET]⟩,
  ⟨"EVT.TS_STATUS", EVT_TS_STATUS, [EVT_TS_STATUS_LOCKED, EVT_TS_STATUS_STEP_ERR, EVT_TS_STATUS_REF_LOST, EVT_TS_STATUS_REF_NOW_ABSENT]⟩,
  ⟨"EVT.LOG_HEAD", EVT_LOG_HEAD, [EVT_LOG_HEAD_HEAD]⟩,
  ⟨"EVT.LOG_LOST", EVT_LOG_LOST, [EVT_LOG_LOST_LOST]⟩,
  ⟨"EVT.LOG_CTRL", EVT_LOG_CTRL, [EVT_LOG_CTRL_FREEZE]⟩,
  ⟨"EVT.LOG_INDEX", EVT_LOG_INDEX, [EVT_LOG_INDEX_INDEX]⟩,
  ⟨"EVT.LOG_DATA", EVT_LOG_DATA, [EVT_LOG_DATA_DATA]⟩,
  ⟨"EVT.SKEW_STATUS", EVT_SKEW_STATUS, [EVT_SKEW_STATUS_CLAMPED]⟩,
  ⟨"EVT.SKEW_CLAMPS", EVT_SKEW_CLAMPS, [EVT_SKEW_CLAMPS_COUNT]⟩,
  ⟨"EVT.Q_BASE", EVT_Q_BASE, [EVT_Q_BASE_BASE]⟩,
  ⟨"EVT.Q_SIZE", EVT_Q_SIZE, [EVT_Q_SIZE_SIZE]⟩,
  ⟨"EVT.Q_TAIL", EVT_Q_TAIL, [EVT_Q_TAIL_TAIL]⟩,
  ⟨"EVT.Q_HEAD", EVT_Q_HEAD, [EVT_Q_HEAD_HEAD]⟩,
  ⟨"EVT.Q_CTRL", EVT_Q_CTRL, [EVT_Q_CTRL_ENABLE, EVT_Q_CTRL_COPY_ALL, EVT_Q_CTRL_CLASS_MAX, EVT_Q_CTRL_VECTOR]⟩,
  ⟨"EVT.Q_MOD", EVT_Q_MOD, [EVT_Q_MOD_COUNT, EVT_Q_MOD_TIMER]⟩,
  ⟨"EVT.Q_STATUS", EVT_Q_STATUS, [EVT_Q_STATUS_ACTIVE, EVT_Q_STATUS_CFG_ERR, EVT_Q_STATUS_OVERFLOW, EVT_Q_STATUS_WRITE_ERR]⟩,
  ⟨"EVT.Q_DROPPED", EVT_Q_DROPPED, [EVT_Q_DROPPED_DROPPED]⟩]
/-- Registers of configuration transactions (R583). -/
def rowsCFG : List RegRow := [
  ⟨"CFG.TXN_CMD", CFG_TXN_CMD, [CFG_TXN_CMD_CMD]⟩,
  ⟨"CFG.P_TXN_CMD", CFG_P_TXN_CMD, [CFG_P_TXN_CMD_CMD]⟩,
  ⟨"CFG.TXN_STATUS", CFG_TXN_STATUS, [CFG_TXN_STATUS_OPEN, CFG_TXN_STATUS_OUTSIDE, CFG_TXN_STATUS_OVERFLOW, CFG_TXN_STATUS_END, CFG_TXN_STATUS_RESULT]⟩,
  ⟨"CFG.P_TXN_STATUS", CFG_P_TXN_STATUS, [CFG_P_TXN_STATUS_OPEN, CFG_P_TXN_STATUS_OUTSIDE, CFG_P_TXN_STATUS_OVERFLOW, CFG_P_TXN_STATUS_END, CFG_P_TXN_STATUS_RESULT]⟩,
  ⟨"CFG.TXN_WRITES", CFG_TXN_WRITES, [CFG_TXN_WRITES_COUNT]⟩,
  ⟨"CFG.P_TXN_WRITES", CFG_P_TXN_WRITES, [CFG_P_TXN_WRITES_COUNT]⟩,
  ⟨"CFG.TXN_ERR", CFG_TXN_ERR, [CFG_TXN_ERR_ERR_OFFSET]⟩,
  ⟨"CFG.P_TXN_ERR", CFG_P_TXN_ERR, [CFG_P_TXN_ERR_ERR_OFFSET]⟩,
  ⟨"CFG.TXN_OPENED", CFG_TXN_OPENED, [CFG_TXN_OPENED_TICK]⟩,
  ⟨"CFG.P_TXN_OPENED", CFG_P_TXN_OPENED, [CFG_P_TXN_OPENED_TICK]⟩,
  ⟨"CFG.TXN_COMMITS", CFG_TXN_COMMITS, [CFG_TXN_COMMITS_COUNT]⟩,
  ⟨"CFG.P_TXN_COMMITS", CFG_P_TXN_COMMITS, [CFG_P_TXN_COMMITS_COUNT]⟩]
/-- Registers of power (R614). -/
def rowsPWR : List RegRow := [
  ⟨"PWR.PWR_STATUS", PWR_PWR_STATUS, [PWR_PWR_STATUS_CAP_UNMET, PWR_PWR_STATUS_DUTY, PWR_PWR_STATUS_THROTTLE, PWR_PWR_STATUS_SUPPLY_WARN, PWR_PWR_STATUS_VSAVE_CHARGED, PWR_PWR_STATUS_CFG_ERR]⟩,
  ⟨"PWR.CAP", PWR_CAP, [PWR_CAP_WATTS]⟩,
  ⟨"PWR.CAP_EFF", PWR_CAP_EFF, [PWR_CAP_EFF_WATTS]⟩,
  ⟨"PWR.CAP_CFG", PWR_CAP_CFG, [PWR_CAP_CFG_UP_PCT]⟩,
  ⟨"PWR.VTARGET", PWR_VTARGET, [PWR_VTARGET_MV]⟩,
  ⟨"PWR.RAIL_LIMIT", PWR_RAIL_LIMIT, [PWR_RAIL_LIMIT_AMPS]⟩,
  ⟨"PWR.POWER", PWR_POWER, [PWR_POWER_DECIWATTS]⟩,
  ⟨"PWR.VR_ADDR", PWR_VR_ADDR, [PWR_VR_ADDR_ADDR0, PWR_VR_ADDR_ADDR1, PWR_VR_ADDR_ADDR2, PWR_VR_ADDR_ADDR3]⟩,
  ⟨"PWR.VCORE", PWR_VCORE, [PWR_VCORE_SET_MV, PWR_VCORE_MEAS_MV, PWR_VCORE_AMPS]⟩,
  ⟨"PWR.MARGIN", PWR_MARGIN, [PWR_MARGIN_MARGIN_MV, PWR_MARGIN_VMIN_MV, PWR_MARGIN_FLOOR_MV, PWR_MARGIN_DUTY]⟩,
  ⟨"PWR.VSAVE_MEAS", PWR_VSAVE_MEAS, [PWR_VSAVE_MEAS_MV]⟩,
  ⟨"PWR.THERM_CFG", PWR_THERM_CFG, [PWR_THERM_CFG_THROTTLE, PWR_THERM_CFG_HYST]⟩,
  ⟨"PWR.TEMP", PWR_TEMP, [PWR_TEMP_DECI_C, PWR_TEMP_FAILED]⟩,
  ⟨"PWR.TJ", PWR_TJ, [PWR_TJ_DECI_C]⟩,
  ⟨"PWR.THROTTLE_TICKS", PWR_THROTTLE_TICKS, [PWR_THROTTLE_TICKS_COUNT]⟩,
  ⟨"PWR.GATED_TICKS", PWR_GATED_TICKS, [PWR_GATED_TICKS_COUNT]⟩,
  ⟨"PWR.LIMIT_EVENTS", PWR_LIMIT_EVENTS, [PWR_LIMIT_EVENTS_COUNT]⟩,
  ⟨"PWR.ENERGY_DEV", PWR_ENERGY_DEV, [PWR_ENERGY_DEV_MJ]⟩,
  ⟨"PWR.ENERGY_UNASSIGNED", PWR_ENERGY_UNASSIGNED, [PWR_ENERGY_UNASSIGNED_MJ]⟩,
  ⟨"PWR.ENERGY_PART", PWR_ENERGY_PART, [PWR_ENERGY_PART_MJ]⟩,
  ⟨"PWR.JOB_TAG", PWR_JOB_TAG, [PWR_JOB_TAG_TAG]⟩,
  ⟨"PWR.TAG_STATUS", PWR_TAG_STATUS, [PWR_TAG_STATUS_TAG_OVF]⟩,
  ⟨"PWR.TAG_SLOT", PWR_TAG_SLOT, [PWR_TAG_SLOT_TAG, PWR_TAG_SLOT_VALID, PWR_TAG_SLOT_CLEAR]⟩,
  ⟨"PWR.TAG_ENERGY", PWR_TAG_ENERGY, [PWR_TAG_ENERGY_MJ]⟩,
  ⟨"PWR.HERD_PWR", PWR_HERD_PWR, [PWR_HERD_PWR_EN, PWR_HERD_PWR_STEP_W, PWR_HERD_PWR_PERIOD_MS, PWR_HERD_PWR_HYST, PWR_HERD_PWR_GROUP_TAG]⟩,
  ⟨"PWR.HERD_ORG", PWR_HERD_ORG, [PWR_HERD_ORG_ORG_ID, PWR_HERD_ORG_COUNT]⟩,
  ⟨"PWR.CAP_RANGE", PWR_CAP_RANGE, [PWR_CAP_RANGE_MIN, PWR_CAP_RANGE_MAX]⟩,
  ⟨"PWR.HERD_STATUS", PWR_HERD_STATUS, [PWR_HERD_STATUS_PERIOD, PWR_HERD_STATUS_SLACK]⟩,
  ⟨"PWR.TRANSFERS", PWR_TRANSFERS, [PWR_TRANSFERS_COUNT]⟩,
  ⟨"PWR.SAVE_STATUS", PWR_SAVE_STATUS, [PWR_SAVE_STATUS_IMAGE, PWR_SAVE_STATUS_ITEMS, PWR_SAVE_STATUS_PARTS, PWR_SAVE_STATUS_SAVE_US]⟩,
  ⟨"PWR.SAVE_CMD", PWR_SAVE_CMD, [PWR_SAVE_CMD_SECTION, PWR_SAVE_CMD_PART, PWR_SAVE_CMD_GO]⟩,
  ⟨"PWR.SAVE_CMD_STATUS", PWR_SAVE_CMD_STATUS, [PWR_SAVE_CMD_STATUS_BUSY, PWR_SAVE_CMD_STATUS_RESULT]⟩,
  ⟨"PWR.SAVE_COUNT", PWR_SAVE_COUNT, [PWR_SAVE_COUNT_COUNT]⟩,
  ⟨"PWR.HERD_MEMBER", PWR_HERD_MEMBER, [PWR_HERD_MEMBER_DEV]⟩]
/-- Registers of security (R548). -/
def rowsSEC : List RegRow := [
  ⟨"SEC.LC_STATE", SEC_LC_STATE, [SEC_LC_STATE_STATE, SEC_LC_STATE_OWN_STEPS]⟩,
  ⟨"SEC.LC_CMD", SEC_LC_CMD, [SEC_LC_CMD_CMD, SEC_LC_CMD_GO]⟩,
  ⟨"SEC.LC_ARG", SEC_LC_ARG, [SEC_LC_ARG_ADDR]⟩,
  ⟨"SEC.LC_STATUS", SEC_LC_STATUS, [SEC_LC_STATUS_BUSY, SEC_LC_STATUS_RESULT, SEC_LC_STATUS_CFG_ERR]⟩,
  ⟨"SEC.TAMPER_STATUS", SEC_TAMPER_STATUS, [SEC_TAMPER_STATUS_LATCHED, SEC_TAMPER_STATUS_PIN_NOW, SEC_TAMPER_STATUS_SENSORS_NOW]⟩,
  ⟨"SEC.TAMPER_CFG", SEC_TAMPER_CFG, [SEC_TAMPER_CFG_PIN_EN, SEC_TAMPER_CFG_SENSOR_EN]⟩,
  ⟨"SEC.EPOCH", SEC_EPOCH, [SEC_EPOCH_CUR, SEC_EPOCH_INSTALLS, SEC_EPOCH_GRACE_MS]⟩,
  ⟨"SEC.EPOCH_CMD", SEC_EPOCH_CMD, [SEC_EPOCH_CMD_CMD, SEC_EPOCH_CMD_GO]⟩,
  ⟨"SEC.EPOCH_ARG", SEC_EPOCH_ARG, [SEC_EPOCH_ARG_ADDR]⟩,
  ⟨"SEC.EPOCH_STATUS", SEC_EPOCH_STATUS, [SEC_EPOCH_STATUS_BUSY, SEC_EPOCH_STATUS_RESULT]⟩,
  ⟨"SEC.DEV_NONCE", SEC_DEV_NONCE, [SEC_DEV_NONCE_NONCE]⟩,
  ⟨"SEC.KEYID_MAP", SEC_KEYID_MAP, [SEC_KEYID_MAP_PART, SEC_KEYID_MAP_REVOKED, SEC_KEYID_MAP_SENT]⟩,
  ⟨"SEC.KEY_CMD", SEC_KEY_CMD, [SEC_KEY_CMD_CMD, SEC_KEY_CMD_SLOT, SEC_KEY_CMD_GO]⟩,
  ⟨"SEC.KEY_ARG", SEC_KEY_ARG, [SEC_KEY_ARG_ADDR]⟩,
  ⟨"SEC.KEY_STATUS", SEC_KEY_STATUS, [SEC_KEY_STATUS_BUSY, SEC_KEY_STATUS_RESULT, SEC_KEY_STATUS_SLOTS]⟩,
  ⟨"SEC.SEAL_SRC", SEC_SEAL_SRC, [SEC_SEAL_SRC_OFFSET]⟩,
  ⟨"SEC.SEAL_DST", SEC_SEAL_DST, [SEC_SEAL_DST_OFFSET]⟩,
  ⟨"SEC.SEAL_LEN", SEC_SEAL_LEN, [SEC_SEAL_LEN_LEN]⟩,
  ⟨"SEC.RELEASE_NONCE", SEC_RELEASE_NONCE, [SEC_RELEASE_NONCE_NONCE]⟩,
  ⟨"SEC.LIC_WIN", SEC_LIC_WIN, [SEC_LIC_WIN_BASE, SEC_LIC_WIN_SLOT, SEC_LIC_WIN_EN]⟩,
  ⟨"SEC.LIC_LEN", SEC_LIC_LEN, [SEC_LIC_LEN_LENGTH]⟩]
/-- Registers of firmware (R635). -/
def rowsFW : List RegRow := [
  ⟨"FW.FW_STATUS", FW_FW_STATUS, [FW_FW_STATUS_STATE, FW_FW_STATUS_ACTIVE_AREA, FW_FW_STATUS_FALLBACK, FW_FW_STATUS_RECOVERY, FW_FW_STATUS_RESULT]⟩,
  ⟨"FW.FW_CMD", FW_FW_CMD, [FW_FW_CMD_CMD, FW_FW_CMD_FORCE, FW_FW_CMD_GO]⟩,
  ⟨"FW.FW_ARG", FW_FW_ARG, [FW_FW_ARG_ADDR]⟩,
  ⟨"FW.FW_LEN", FW_FW_LEN, [FW_FW_LEN_BYTES]⟩,
  ⟨"FW.FW_CFG", FW_FW_CFG, [FW_FW_CFG_ACT_TIMEOUT_MS, FW_FW_CFG_OWNER_SIG]⟩,
  ⟨"FW.REFUSE", FW_REFUSE, [FW_REFUSE_OWNER_LOCK, FW_REFUSE_MOTION, FW_REFUSE_VSAVE, FW_REFUSE_SUPPLY_WARN, FW_REFUSE_SVN, FW_REFUSE_SIG, FW_REFUSE_DIGEST, FW_REFUSE_FORMAT]⟩,
  ⟨"FW.COMP", FW_COMP, [FW_COMP_SVN_RUN, FW_COMP_SVN_STAGED, FW_COMP_COUNTER, FW_COMP_CHANGED, FW_COMP_B_VALID]⟩,
  ⟨"FW.BUILD", FW_BUILD, [FW_BUILD_BUILD]⟩,
  ⟨"FW.STAGED_BUILD", FW_STAGED_BUILD, [FW_STAGED_BUILD_BUILD]⟩,
  ⟨"FW.SETTINGS", FW_SETTINGS, [FW_SETTINGS_FORMAT, FW_SETTINGS_MIGRATING]⟩,
  ⟨"FW.ACTIVATIONS", FW_ACTIVATIONS, [FW_ACTIVATIONS_COUNT]⟩,
  ⟨"FW.ACT_TICK", FW_ACT_TICK, [FW_ACT_TICK_TICK]⟩,
  ⟨"FW.HOLD_TICKS", FW_HOLD_TICKS, [FW_HOLD_TICKS_TICKS]⟩,
  ⟨"FW.P_MOTION", FW_P_MOTION, [FW_P_MOTION_MOTION]⟩]
/-- Registers of the host interface (R584). -/
def rowsHIF : List RegRow := [
  ⟨"HIF.LINK_STATUS", HIF_LINK_STATUS, [HIF_LINK_STATUS_RATE, HIF_LINK_STATUS_WIDTH, HIF_LINK_STATUS_FLIT, HIF_LINK_STATUS_UP]⟩,
  ⟨"HIF.PF_WIN", HIF_PF_WIN, [HIF_PF_WIN_PART, HIF_PF_WIN_BASE, HIF_PF_WIN_EN]⟩,
  ⟨"HIF.ATC_MISSES", HIF_ATC_MISSES, [HIF_ATC_MISSES_COUNT]⟩,
  ⟨"HIF.ATC_INVALS", HIF_ATC_INVALS, [HIF_ATC_INVALS_COUNT]⟩,
  ⟨"HIF.BAR4_REFUSED", HIF_BAR4_REFUSED, [HIF_BAR4_REFUSED_COUNT]⟩,
  ⟨"HIF.SQ_BASE", HIF_SQ_BASE, [HIF_SQ_BASE_ADDR]⟩,
  ⟨"HIF.SQ_CFG", HIF_SQ_CFG, [HIF_SQ_CFG_SIZE, HIF_SQ_CFG_CQ, HIF_SQ_CFG_ENABLE]⟩,
  ⟨"HIF.SQ_PTR", HIF_SQ_PTR, [HIF_SQ_PTR_HEAD, HIF_SQ_PTR_TAIL]⟩,
  ⟨"HIF.SQ_STATUS", HIF_SQ_STATUS, [HIF_SQ_STATUS_ACTIVE, HIF_SQ_STATUS_CFG_ERR, HIF_SQ_STATUS_DB_ERR, HIF_SQ_STATUS_FETCH_ERR]⟩,
  ⟨"HIF.CQ_BASE", HIF_CQ_BASE, [HIF_CQ_BASE_BASE]⟩,
  ⟨"HIF.CQ_CFG", HIF_CQ_CFG, [HIF_CQ_CFG_SIZE, HIF_CQ_CFG_ENABLE, HIF_CQ_CFG_VECTOR, HIF_CQ_CFG_FN, HIF_CQ_CFG_EVT]⟩,
  ⟨"HIF.CQ_MOD", HIF_CQ_MOD, [HIF_CQ_MOD_COUNT, HIF_CQ_MOD_TIMER]⟩,
  ⟨"HIF.CQ_PTR", HIF_CQ_PTR, [HIF_CQ_PTR_TAIL, HIF_CQ_PTR_HEAD]⟩,
  ⟨"HIF.CQ_STATUS", HIF_CQ_STATUS, [HIF_CQ_STATUS_FULL, HIF_CQ_STATUS_CFG_ERR, HIF_CQ_STATUS_WRITE_ERR]⟩,
  ⟨"HIF.P_CANCEL", HIF_P_CANCEL, [HIF_P_CANCEL_SQ, HIF_P_CANCEL_ENTRY, HIF_P_CANCEL_ALL, HIF_P_CANCEL_GO]⟩,
  ⟨"HIF.CANCEL_STATUS", HIF_CANCEL_STATUS, [HIF_CANCEL_STATUS_RESULT]⟩,
  ⟨"HIF.RECORDS", HIF_RECORDS, [HIF_RECORDS_USED, HIF_RECORDS_HELD, HIF_RECORDS_PEAK]⟩,
  ⟨"HIF.P_PASID", HIF_P_PASID, [HIF_P_PASID_VALUE, HIF_P_PASID_EN]⟩,
  ⟨"HIF.P_BAR4", HIF_P_BAR4, [HIF_P_BAR4_BASE]⟩,
  ⟨"HIF.ITEMS_ENDED", HIF_ITEMS_ENDED, [HIF_ITEMS_ENDED_COUNT]⟩]
/-- Registers of partitions (R549). -/
def rowsPART : List RegRow := [
  ⟨"PART.STATE", PART_STATE, [PART_STATE_STATE]⟩,
  ⟨"PART.CTRL", PART_CTRL, [PART_CTRL_CMD]⟩,
  ⟨"PART.TILE_GROUPS", PART_TILE_GROUPS, [PART_TILE_GROUPS_GROUPS]⟩,
  ⟨"PART.STATUS", PART_STATUS, [PART_STATUS_FATAL, PART_STATUS_CFG_ERR, PART_STATUS_OWNER_LOCK]⟩,
  ⟨"PART.OPEN_ITEMS", PART_OPEN_ITEMS, [PART_OPEN_ITEMS_COUNT]⟩,
  ⟨"PART.FORCED_ITEMS", PART_FORCED_ITEMS, [PART_FORCED_ITEMS_COUNT]⟩,
  ⟨"PART.REVOKE_TICK", PART_REVOKE_TICK, [PART_REVOKE_TICK_TICK]⟩,
  ⟨"PART.SCRUB_CFG", PART_SCRUB_CFG, [PART_SCRUB_CFG_SCRUB_SHARE]⟩,
  ⟨"PART.SCRUB_LEFT", PART_SCRUB_LEFT, [PART_SCRUB_LEFT_GRANULES]⟩,
  ⟨"PART.DOORBELL_DROPS", PART_DOORBELL_DROPS, [PART_DOORBELL_DROPS_COUNT]⟩,
  ⟨"PART.MEM_KEY_GEN", PART_MEM_KEY_GEN, [PART_MEM_KEY_GEN_GEN]⟩,
  ⟨"PART.IMAGE_DIGEST", PART_IMAGE_DIGEST, [PART_IMAGE_DIGEST_DIGEST]⟩]
/-- Registers of the tiles (R128, R189, R263, R286, R355). -/
def rowsTILE0 : List RegRow := [
  ⟨"TILE.SEQ_STATUS", TILE_SEQ_STATUS, [TILE_SEQ_STATUS_STATE, TILE_SEQ_STATUS_PHASE, TILE_SEQ_STATUS_WAITING, TILE_SEQ_STATUS_BARRIER, TILE_SEQ_STATUS_CLAMPED]⟩,
  ⟨"TILE.SEQ_PC", TILE_SEQ_PC, [TILE_SEQ_PC_PC]⟩,
  ⟨"TILE.TOKENS", TILE_TOKENS, [TILE_TOKENS_PENDING, TILE_TOKENS_FAILED]⟩,
  ⟨"TILE.FAULT_INFO", TILE_FAULT_INFO, [TILE_FAULT_INFO_STATUS, TILE_FAULT_INFO_REASON, TILE_FAULT_INFO_OPCODE, TILE_FAULT_INFO_PC]⟩,
  ⟨"TILE.INSTR_COUNT", TILE_INSTR_COUNT, [TILE_INSTR_COUNT_COUNT]⟩,
  ⟨"TILE.WAIT_TICKS", TILE_WAIT_TICKS, [TILE_WAIT_TICKS_COUNT]⟩,
  ⟨"TILE.MAP", TILE_MAP, [TILE_MAP_LOGICAL, TILE_MAP_MAPPED]⟩,
  ⟨"TILE.SYNC_FLAG", TILE_SYNC_FLAG, [TILE_SYNC_FLAG_VALUE]⟩,
  ⟨"TILE.NUM_STATUS", TILE_NUM_STATUS, [TILE_NUM_STATUS_NF, TILE_NUM_STATUS_NF_INPUT, TILE_NUM_STATUS_DECODE_OVF]⟩,
  ⟨"TILE.SAT_TOTAL", TILE_SAT_TOTAL, [TILE_SAT_TOTAL_COUNT]⟩,
  ⟨"TILE.FLUSH_TOTAL", TILE_FLUSH_TOTAL, [TILE_FLUSH_TOTAL_COUNT]⟩,
  ⟨"TILE.NF_ELEMENTS", TILE_NF_ELEMENTS, [TILE_NF_ELEMENTS_COUNT]⟩,
  ⟨"TILE.CB_STATUS", TILE_CB_STATUS, [TILE_CB_STATUS_VALID, TILE_CB_STATUS_LINEAR, TILE_CB_STATUS_WIDE]⟩,
  ⟨"TILE.MALFORMED", TILE_MALFORMED, [TILE_MALFORMED_COUNT]⟩,
  ⟨"TILE.MM_STATUS", TILE_MM_STATUS, [TILE_MM_STATUS_BUSY, TILE_MM_STATUS_MODE, TILE_MM_STATUS_TRANSPOSE]⟩,
  ⟨"TILE.MM_CYCLES", TILE_MM_CYCLES, [TILE_MM_CYCLES_COUNT]⟩,
  ⟨"TILE.MM_OPS", TILE_MM_OPS, [TILE_MM_OPS_COUNT]⟩,
  ⟨"TILE.MM_SKIP_ROWS", TILE_MM_SKIP_ROWS, [TILE_MM_SKIP_ROWS_COUNT]⟩,
  ⟨"TILE.MM_SKIP_SLICES", TILE_MM_SKIP_SLICES, [TILE_MM_SKIP_SLICES_COUNT]⟩,
  ⟨"TILE.MM_STALL", TILE_MM_STALL, [TILE_MM_STALL_COUNT]⟩,
  ⟨"TILE.MM_OPERATIONS", TILE_MM_OPERATIONS, [TILE_MM_OPERATIONS_COUNT]⟩,
  ⟨"TILE.RU_TOKENS", TILE_RU_TOKENS, [TILE_RU_TOKENS_COUNT]⟩,
  ⟨"TILE.RU_DROPPED", TILE_RU_DROPPED, [TILE_RU_DROPPED_COUNT]⟩,
  ⟨"TILE.RU_REROUTED", TILE_RU_REROUTED, [TILE_RU_REROUTED_COUNT]⟩,
  ⟨"TILE.RU_LAST", TILE_RU_LAST, [TILE_RU_LAST_DROPPED, TILE_RU_LAST_REROUTED]⟩,
  ⟨"TILE.STASH_STATUS", TILE_STASH_STATUS, [TILE_STASH_STATUS_POLICY, TILE_STASH_STATUS_SPILLING, TILE_STASH_STATUS_SPILLED, TILE_STASH_STATUS_DROPPED, TILE_STASH_STATUS_EXHAUSTED, TILE_STASH_STATUS_SPILL_CFG_ERR, TILE_STASH_STATUS_LOST]⟩,
  ⟨"TILE.STASH_RES", TILE_STASH_RES, [TILE_STASH_RES_PAGES, TILE_STASH_RES_BASE]⟩,
  ⟨"TILE.STASH_SPILL_BASE", TILE_STASH_SPILL_BASE, [TILE_STASH_SPILL_BASE_BASE]⟩,
  ⟨"TILE.STASH_SPILL_PAGES", TILE_STASH_SPILL_PAGES, [TILE_STASH_SPILL_PAGES_PAGES]⟩,
  ⟨"TILE.STASH_USE", TILE_STASH_USE, [TILE_STASH_USE_RESIDENT, TILE_STASH_USE_ENTRIES, TILE_STASH_USE_SPILL_WORDS]⟩,
  ⟨"TILE.STASH_PEAK", TILE_STASH_PEAK, [TILE_STASH_PEAK_RESIDENT, TILE_STASH_PEAK_SPILL_WORDS]⟩,
  ⟨"TILE.STASH_SPILL_BYTES", TILE_STASH_SPILL_BYTES, [TILE_STASH_SPILL_BYTES_COUNT]⟩,
  ⟨"TILE.STASH_FETCH_BYTES", TILE_STASH_FETCH_BYTES, [TILE_STASH_FETCH_BYTES_COUNT]⟩,
  ⟨"TILE.STASH_STALL", TILE_STASH_STALL, [TILE_STASH_STALL_COUNT]⟩,
  ⟨"TILE.STASH_DROPPED", TILE_STASH_DROPPED, [TILE_STASH_DROPPED_COUNT]⟩,
  ⟨"TILE.BANK_MAP", TILE_BANK_MAP, [TILE_BANK_MAP_SPARE_USED, TILE_BANK_MAP_SPARE_FOR, TILE_BANK_MAP_RETIRED]⟩,
  ⟨"TILE.BANK_STATE", TILE_BANK_STATE, [TILE_BANK_STATE_STATE]⟩,
  ⟨"TILE.BANK_OFF", TILE_BANK_OFF, [TILE_BANK_OFF_OFF]⟩,
  ⟨"TILE.BANK_RETAIN", TILE_BANK_RETAIN, [TILE_BANK_RETAIN_RETAIN]⟩,
  ⟨"TILE.BANK_ON", TILE_BANK_ON, [TILE_BANK_ON_ON]⟩]
/-- Registers of the tiles (R128, R189, R263, R286, R355). -/
def rowsTILE1 : List RegRow := [
  ⟨"TILE.BANK_CFG", TILE_BANK_CFG, [TILE_BANK_CFG_SWAP_THRESH, TILE_BANK_CFG_TX1_COMPAT]⟩,
  ⟨"TILE.BANK_SWAP_REQ", TILE_BANK_SWAP_REQ, [TILE_BANK_SWAP_REQ_BANK, TILE_BANK_SWAP_REQ_GO]⟩,
  ⟨"TILE.BANK_STATUS", TILE_BANK_STATUS, [TILE_BANK_STATUS_SWAPPING, TILE_BANK_STATUS_PWR_REFUSED, TILE_BANK_STATUS_SWAP_REFUSED, TILE_BANK_STATUS_WORD_LOST, TILE_BANK_STATUS_WIPING]⟩,
  ⟨"TILE.PAR_REPLAYS", TILE_PAR_REPLAYS, [TILE_PAR_REPLAYS_COUNT]⟩,
  ⟨"TILE.PAR_CORRECTED", TILE_PAR_CORRECTED, [TILE_PAR_CORRECTED_COUNT]⟩,
  ⟨"TILE.PAR_EXHAUSTED", TILE_PAR_EXHAUSTED, [TILE_PAR_EXHAUSTED_COUNT]⟩,
  ⟨"TILE.BANK_WAKES", TILE_BANK_WAKES, [TILE_BANK_WAKES_COUNT]⟩,
  ⟨"TILE.BANK_ERRS", TILE_BANK_ERRS, [TILE_BANK_ERRS_COUNT]⟩,
  ⟨"TILE.LAST_ERR", TILE_LAST_ERR, [TILE_LAST_ERR_OFFSET, TILE_LAST_ERR_REPLAYS, TILE_LAST_ERR_EXHAUSTED]⟩,
  ⟨"TILE.BANK_FUSE", TILE_BANK_FUSE, [TILE_BANK_FUSE_COLUMNS]⟩]
/-- Registers of device memory (R396). -/
def rowsMEM : List RegRow := [
  ⟨"MEM.CTRL_STATUS", MEM_CTRL_STATUS, [MEM_CTRL_STATUS_TRAINED, MEM_CTRL_STATUS_RETIRED, MEM_CTRL_STATUS_RETRAINING, MEM_CTRL_STATUS_FAILED]⟩,
  ⟨"MEM.CTRL_CFG", MEM_CTRL_CFG, [MEM_CTRL_CFG_RETRAIN_MS]⟩,
  ⟨"MEM.CH_CFG", MEM_CH_CFG, [MEM_CH_CFG_CORR_THRESH]⟩,
  ⟨"MEM.EDC_REPLAYS", MEM_EDC_REPLAYS, [MEM_EDC_REPLAYS_COUNT]⟩,
  ⟨"MEM.PAR_REPLAYS", MEM_PAR_REPLAYS, [MEM_PAR_REPLAYS_COUNT]⟩,
  ⟨"MEM.CORRECTED", MEM_CORRECTED, [MEM_CORRECTED_COUNT]⟩,
  ⟨"MEM.EXHAUSTED", MEM_EXHAUSTED, [MEM_EXHAUSTED_COUNT]⟩,
  ⟨"MEM.RETRAINS", MEM_RETRAINS, [MEM_RETRAINS_COUNT]⟩,
  ⟨"MEM.LAST_ERR", MEM_LAST_ERR, [MEM_LAST_ERR_OFFSET, MEM_LAST_ERR_LINK, MEM_LAST_ERR_REPLAYS, MEM_LAST_ERR_EXH]⟩,
  ⟨"MEM.MEM_STATUS", MEM_MEM_STATUS, [MEM_MEM_STATUS_ACTIVE, MEM_MEM_STATUS_RETIRED_COUNT, MEM_MEM_STATUS_MIGRATING]⟩,
  ⟨"MEM.USABLE", MEM_USABLE, [MEM_USABLE_GRANULES]⟩,
  ⟨"MEM.RETIRE_REQ", MEM_RETIRE_REQ, [MEM_RETIRE_REQ_CHANNEL, MEM_RETIRE_REQ_GO]⟩,
  ⟨"MEM.RETIRE_CFG", MEM_RETIRE_CFG, [MEM_RETIRE_CFG_AUTO, MEM_RETIRE_CFG_MIG_SHARE]⟩,
  ⟨"MEM.MIG_STATUS", MEM_MIG_STATUS, [MEM_MIG_STATUS_CHANNEL, MEM_MIG_STATUS_STEP, MEM_MIG_STATUS_GRANULE]⟩,
  ⟨"MEM.MIG_FRONTIER", MEM_MIG_FRONTIER, [MEM_MIG_FRONTIER_DPA]⟩,
  ⟨"MEM.RETIRE_ERR", MEM_RETIRE_ERR, [MEM_RETIRE_ERR_LIMIT, MEM_RETIRE_ERR_SPACE, MEM_RETIRE_ERR_FW]⟩,
  ⟨"MEM.GRANULE_OWNER", MEM_GRANULE_OWNER, [MEM_GRANULE_OWNER_PART, MEM_GRANULE_OWNER_VIEW, MEM_GRANULE_OWNER_UNUSABLE]⟩]
/-- Registers of the slow tier (R397). -/
def rowsSLOW : List RegRow := [
  ⟨"SLOW.SLOW_STATUS", SLOW_SLOW_STATUS, [SLOW_SLOW_STATUS_ACTIVE, SLOW_SLOW_STATUS_FAILED]⟩,
  ⟨"SLOW.NVME_TIMEOUT", SLOW_NVME_TIMEOUT, [SLOW_NVME_TIMEOUT_MS]⟩,
  ⟨"SLOW.SSD_CTRL", SLOW_SSD_CTRL, [SLOW_SSD_CTRL_ENABLE, SLOW_SSD_CTRL_QCOUNT_M1, SLOW_SSD_CTRL_Q_FIRST, SLOW_SSD_CTRL_PART, SLOW_SSD_CTRL_DSTRD]⟩,
  ⟨"SLOW.DB_BASE", SLOW_DB_BASE, [SLOW_DB_BASE_ADDR]⟩,
  ⟨"SLOW.NSID", SLOW_NSID, [SLOW_NSID_NSID]⟩,
  ⟨"SLOW.SSD_STATUS", SLOW_SSD_STATUS, [SLOW_SSD_STATUS_ACTIVE, SLOW_SSD_STATUS_FAILED, SLOW_SSD_STATUS_FORMAT_ERR]⟩,
  ⟨"SLOW.READS", SLOW_READS, [SLOW_READS_COUNT]⟩,
  ⟨"SLOW.WRITES", SLOW_WRITES, [SLOW_WRITES_COUNT]⟩,
  ⟨"SLOW.ERRORS", SLOW_ERRORS, [SLOW_ERRORS_COUNT]⟩,
  ⟨"SLOW.TABLE_BASE", SLOW_TABLE_BASE, [SLOW_TABLE_BASE_BASE]⟩,
  ⟨"SLOW.TABLE_COUNT", SLOW_TABLE_COUNT, [SLOW_TABLE_COUNT_COUNT]⟩,
  ⟨"SLOW.DIR_RANGE", SLOW_DIR_RANGE, [SLOW_DIR_RANGE_FIRST, SLOW_DIR_RANGE_COUNT]⟩,
  ⟨"SLOW.PEND_BASE", SLOW_PEND_BASE, [SLOW_PEND_BASE_BASE]⟩,
  ⟨"SLOW.PEND_ROWS", SLOW_PEND_ROWS, [SLOW_PEND_ROWS_ROWS]⟩,
  ⟨"SLOW.STAGE_BASE", SLOW_STAGE_BASE, [SLOW_STAGE_BASE_BASE]⟩,
  ⟨"SLOW.STAGE_BLOCKS", SLOW_STAGE_BLOCKS, [SLOW_STAGE_BLOCKS_BLOCKS]⟩,
  ⟨"SLOW.DEADLINE", SLOW_DEADLINE, [SLOW_DEADLINE_US]⟩,
  ⟨"SLOW.FAIL_BASE", SLOW_FAIL_BASE, [SLOW_FAIL_BASE_BASE]⟩,
  ⟨"SLOW.FAIL_SIZE", SLOW_FAIL_SIZE, [SLOW_FAIL_SIZE_SIZE]⟩,
  ⟨"SLOW.FAIL_TAIL", SLOW_FAIL_TAIL, [SLOW_FAIL_TAIL_TAIL]⟩,
  ⟨"SLOW.FAIL_HEAD", SLOW_FAIL_HEAD, [SLOW_FAIL_HEAD_HEAD]⟩,
  ⟨"SLOW.PEND_USE", SLOW_PEND_USE, [SLOW_PEND_USE_USED, SLOW_PEND_USE_PEAK]⟩,
  ⟨"SLOW.ROWS_APPLIED", SLOW_ROWS_APPLIED, [SLOW_ROWS_APPLIED_COUNT]⟩,
  ⟨"SLOW.ROWS_FAILED", SLOW_ROWS_FAILED, [SLOW_ROWS_FAILED_COUNT]⟩,
  ⟨"SLOW.FETCHES", SLOW_FETCHES, [SLOW_FETCHES_COUNT]⟩,
  ⟨"SLOW.WAITED_ROWS", SLOW_WAITED_ROWS, [SLOW_WAITED_ROWS_COUNT]⟩,
  ⟨"SLOW.REMOTE_QP", SLOW_REMOTE_QP, [SLOW_REMOTE_QP_QP]⟩,
  ⟨"SLOW.SLOW_PSTATUS", SLOW_SLOW_PSTATUS, [SLOW_SLOW_PSTATUS_CFG_ERR, SLOW_SLOW_PSTATUS_FAIL_OVF]⟩,
  ⟨"SLOW.DIR_INDEX", SLOW_DIR_INDEX, [SLOW_DIR_INDEX_INDEX]⟩,
  ⟨"SLOW.DIR_DATA", SLOW_DIR_DATA, [SLOW_DIR_DATA_ENTRY]⟩]
/-- Registers of the fabric ports (R429). -/
def rowsFAB0 : List RegRow := [
  ⟨"FAB.PORT_CTRL", FAB_PORT_CTRL, [FAB_PORT_CTRL_ENABLE, FAB_PORT_CTRL_SPLIT, FAB_PORT_CTRL_PROMISC, FAB_PORT_CTRL_BCAST_EN]⟩,
  ⟨"FAB.PORT_STATUS", FAB_PORT_STATUS, [FAB_PORT_STATUS_LINK_UP, FAB_PORT_STATUS_PCS_LOCK, FAB_PORT_STATUS_FEC_LOCK, FAB_PORT_STATUS_PAUSED, FAB_PORT_STATUS_LOCAL_FAULT, FAB_PORT_STATUS_REMOTE_FAULT, FAB_PORT_STATUS_CFG_ERR]⟩,
  ⟨"FAB.LINK_CFG", FAB_LINK_CFG, [FAB_LINK_CFG_HOLD_US, FAB_LINK_CFG_UNCORR_LIMIT]⟩,
  ⟨"FAB.APONG_CFG", FAB_APONG_CFG, [FAB_APONG_CFG_ETHERTYPE, FAB_APONG_CFG_RAW_EN, FAB_APONG_CFG_UDP_PORT]⟩,
  ⟨"FAB.UCAST", FAB_UCAST, [FAB_UCAST_ADDR, FAB_UCAST_EN]⟩,
  ⟨"FAB.HASH", FAB_HASH, [FAB_HASH_BINS]⟩,
  ⟨"FAB.VC_CFG", FAB_VC_CFG, [FAB_VC_CFG_CELLS, FAB_VC_CFG_OWNER]⟩,
  ⟨"FAB.SNAP", FAB_SNAP, [FAB_SNAP_GROUPS]⟩,
  ⟨"FAB.SNAP_TICK", FAB_SNAP_TICK, [FAB_SNAP_TICK_TICK]⟩,
  ⟨"FAB.RX_FRAMES", FAB_RX_FRAMES, [FAB_RX_FRAMES_COUNT]⟩,
  ⟨"FAB.RX_BYTES", FAB_RX_BYTES, [FAB_RX_BYTES_COUNT]⟩,
  ⟨"FAB.RX_FCS_ERR", FAB_RX_FCS_ERR, [FAB_RX_FCS_ERR_COUNT]⟩,
  ⟨"FAB.RX_LEN_ERR", FAB_RX_LEN_ERR, [FAB_RX_LEN_ERR_COUNT]⟩,
  ⟨"FAB.RX_FILTERED", FAB_RX_FILTERED, [FAB_RX_FILTERED_COUNT]⟩,
  ⟨"FAB.RX_OVF_FRAMES", FAB_RX_OVF_FRAMES, [FAB_RX_OVF_FRAMES_COUNT]⟩,
  ⟨"FAB.RX_CREDIT_VIOL", FAB_RX_CREDIT_VIOL, [FAB_RX_CREDIT_VIOL_COUNT]⟩,
  ⟨"FAB.RX_REVOKED_DROPS", FAB_RX_REVOKED_DROPS, [FAB_RX_REVOKED_DROPS_COUNT]⟩,
  ⟨"FAB.RX_PROT_DROPS", FAB_RX_PROT_DROPS, [FAB_RX_PROT_DROPS_COUNT]⟩,
  ⟨"FAB.RX_RAW_FULL", FAB_RX_RAW_FULL, [FAB_RX_RAW_FULL_COUNT]⟩,
  ⟨"FAB.TX_FRAMES", FAB_TX_FRAMES, [FAB_TX_FRAMES_COUNT]⟩,
  ⟨"FAB.TX_BYTES", FAB_TX_BYTES, [FAB_TX_BYTES_COUNT]⟩,
  ⟨"FAB.TX_RAW_REFUSED", FAB_TX_RAW_REFUSED, [FAB_TX_RAW_REFUSED_COUNT]⟩,
  ⟨"FAB.TX_PAUSE_NS", FAB_TX_PAUSE_NS, [FAB_TX_PAUSE_NS_COUNT]⟩,
  ⟨"FAB.FEC_CORR_CW", FAB_FEC_CORR_CW, [FAB_FEC_CORR_CW_COUNT]⟩,
  ⟨"FAB.FEC_UNCORR_CW", FAB_FEC_UNCORR_CW, [FAB_FEC_UNCORR_CW_COUNT]⟩,
  ⟨"FAB.LANE_SYM_ERR", FAB_LANE_SYM_ERR, [FAB_LANE_SYM_ERR_COUNT]⟩,
  ⟨"FAB.LINK_DOWNS", FAB_LINK_DOWNS, [FAB_LINK_DOWNS_COUNT]⟩,
  ⟨"FAB.VC_RX_CELLS", FAB_VC_RX_CELLS, [FAB_VC_RX_CELLS_COUNT]⟩,
  ⟨"FAB.VC_TX_CELLS", FAB_VC_TX_CELLS, [FAB_VC_TX_CELLS_COUNT]⟩,
  ⟨"FAB.VC_STALL", FAB_VC_STALL, [FAB_VC_STALL_COUNT]⟩,
  ⟨"FAB.SNAPSHOT", FAB_SNAPSHOT, [FAB_SNAPSHOT_SNAPSHOT]⟩,
  ⟨"FAB.RAW_RX_BASE", FAB_RAW_RX_BASE, [FAB_RAW_RX_BASE_BASE]⟩,
  ⟨"FAB.RAW_RX_SIZE", FAB_RAW_RX_SIZE, [FAB_RAW_RX_SIZE_SLOTS, FAB_RAW_RX_SIZE_ENABLE]⟩,
  ⟨"FAB.RAW_RX_TAIL", FAB_RAW_RX_TAIL, [FAB_RAW_RX_TAIL_TAIL]⟩,
  ⟨"FAB.RAW_RX_HEAD", FAB_RAW_RX_HEAD, [FAB_RAW_RX_HEAD_HEAD]⟩,
  ⟨"FAB.RAW_TX_BASE", FAB_RAW_TX_BASE, [FAB_RAW_TX_BASE_BASE]⟩,
  ⟨"FAB.RAW_TX_SIZE", FAB_RAW_TX_SIZE, [FAB_RAW_TX_SIZE_SLOTS, FAB_RAW_TX_SIZE_ENABLE]⟩,
  ⟨"FAB.RAW_TX_TAIL", FAB_RAW_TX_TAIL, [FAB_RAW_TX_TAIL_TAIL]⟩,
  ⟨"FAB.RAW_TX_HEAD", FAB_RAW_TX_HEAD, [FAB_RAW_TX_HEAD_HEAD]⟩,
  ⟨"FAB.RAW_STATUS", FAB_RAW_STATUS, [FAB_RAW_STATUS_RX_WRITE_ERR, FAB_RAW_STATUS_TX_READ_ERR, FAB_RAW_STATUS_CFG_ERR]⟩]
/-- Registers of the fabric ports (R429). -/
def rowsFAB1 : List RegRow := [
  ⟨"FAB.RAW_VECTOR", FAB_RAW_VECTOR, [FAB_RAW_VECTOR_RX_VEC, FAB_RAW_VECTOR_TX_VEC]⟩,
  ⟨"FAB.TX_TS_TAG", FAB_TX_TS_TAG, [FAB_TX_TS_TAG_TAG, FAB_TX_TS_TAG_VALID, FAB_TX_TS_TAG_LOST]⟩,
  ⟨"FAB.TX_TS_TIME", FAB_TX_TS_TIME, [FAB_TX_TS_TIME_TIME]⟩,
  ⟨"FAB.PTP_CFG", FAB_PTP_CFG, [FAB_PTP_CFG_DOMAIN, FAB_PTP_CFG_TRANSPORT, FAB_PTP_CFG_COPY]⟩,
  ⟨"FAB.PTP_LAT", FAB_PTP_LAT, [FAB_PTP_LAT_TX_LAT, FAB_PTP_LAT_RX_LAT]⟩,
  ⟨"FAB.OE_STATUS", FAB_OE_STATUS, [FAB_OE_STATUS_TX_OK, FAB_OE_STATUS_RX_OK, FAB_OE_STATUS_SWITCHING]⟩,
  ⟨"FAB.OE_SPARE", FAB_OE_SPARE, [FAB_OE_SPARE_TX_FOR, FAB_OE_SPARE_TX_USED, FAB_OE_SPARE_RX_FOR, FAB_OE_SPARE_RX_USED]⟩,
  ⟨"FAB.OE_SPARE_REQ", FAB_OE_SPARE_REQ, [FAB_OE_SPARE_REQ_LANE, FAB_OE_SPARE_REQ_DIR, FAB_OE_SPARE_REQ_GO]⟩,
  ⟨"FAB.OE_CFG", FAB_OE_CFG, [FAB_OE_CFG_SER_LIMIT, FAB_OE_CFG_RX_PWR_MIN, FAB_OE_CFG_TX_PWR_MIN]⟩,
  ⟨"FAB.LANE_MON", FAB_LANE_MON, [FAB_LANE_MON_TX_PWR, FAB_LANE_MON_RX_PWR, FAB_LANE_MON_BIAS]⟩]
/-- Registers of remote memory access (R467). -/
def rowsRMA : List RegRow := [
  ⟨"RMA.RMA_STATUS", RMA_RMA_STATUS, [RMA_RMA_STATUS_CACHED, RMA_RMA_STATUS_PINNED]⟩,
  ⟨"RMA.GRANT_CFG", RMA_GRANT_CFG, [RMA_GRANT_CFG_GRANT_CELLS, RMA_GRANT_CFG_VC_SEL]⟩,
  ⟨"RMA.CTX_HITS", RMA_CTX_HITS, [RMA_CTX_HITS_COUNT]⟩,
  ⟨"RMA.CTX_MISSES", RMA_CTX_MISSES, [RMA_CTX_MISSES_COUNT]⟩,
  ⟨"RMA.CTX_WAITS", RMA_CTX_WAITS, [RMA_CTX_WAITS_COUNT]⟩,
  ⟨"RMA.MALFORMED", RMA_MALFORMED, [RMA_MALFORMED_COUNT]⟩,
  ⟨"RMA.MISROUTED", RMA_MISROUTED, [RMA_MISROUTED_COUNT]⟩,
  ⟨"RMA.AUTH_FAIL", RMA_AUTH_FAIL, [RMA_AUTH_FAIL_COUNT]⟩,
  ⟨"RMA.WINDOW_DROPS", RMA_WINDOW_DROPS, [RMA_WINDOW_DROPS_COUNT]⟩,
  ⟨"RMA.MISS_USE", RMA_MISS_USE, [RMA_MISS_USE_BYTES, RMA_MISS_USE_PEAK]⟩,
  ⟨"RMA.QP_RANGE", RMA_QP_RANGE, [RMA_QP_RANGE_FIRST, RMA_QP_RANGE_COUNT]⟩,
  ⟨"RMA.KEY_RANGE", RMA_KEY_RANGE, [RMA_KEY_RANGE_FIRST, RMA_KEY_RANGE_COUNT]⟩,
  ⟨"RMA.PD_RANGE", RMA_PD_RANGE, [RMA_PD_RANGE_FIRST, RMA_PD_RANGE_COUNT]⟩,
  ⟨"RMA.CTX_BASE", RMA_CTX_BASE, [RMA_CTX_BASE_ADDR]⟩,
  ⟨"RMA.REGION_BASE", RMA_REGION_BASE, [RMA_REGION_BASE_ADDR]⟩,
  ⟨"RMA.QP_CMD", RMA_QP_CMD, [RMA_QP_CMD_QP, RMA_QP_CMD_CMD, RMA_QP_CMD_GO]⟩,
  ⟨"RMA.QP_CMD_STATUS", RMA_QP_CMD_STATUS, [RMA_QP_CMD_STATUS_BUSY, RMA_QP_CMD_STATUS_RESULT]⟩,
  ⟨"RMA.REGION_INVAL", RMA_REGION_INVAL, [RMA_REGION_INVAL_KEY, RMA_REGION_INVAL_GO, RMA_REGION_INVAL_BUSY]⟩,
  ⟨"RMA.RETRY_CFG", RMA_RETRY_CFG, [RMA_RETRY_CFG_RTO_US, RMA_RETRY_CFG_RETRY_LIMIT, RMA_RETRY_CFG_BACKOFF_MIN_US, RMA_RETRY_CFG_BACKOFF_MAX_US, RMA_RETRY_CFG_REASM_TIMEOUT_US]⟩,
  ⟨"RMA.TX_MSGS", RMA_TX_MSGS, [RMA_TX_MSGS_COUNT]⟩,
  ⟨"RMA.RX_MSGS", RMA_RX_MSGS, [RMA_RX_MSGS_COUNT]⟩,
  ⟨"RMA.RETX_PKTS", RMA_RETX_PKTS, [RMA_RETX_PKTS_COUNT]⟩,
  ⟨"RMA.NAKS_SENT", RMA_NAKS_SENT, [RMA_NAKS_SENT_COUNT]⟩,
  ⟨"RMA.NAKS_RECEIVED", RMA_NAKS_RECEIVED, [RMA_NAKS_RECEIVED_COUNT]⟩,
  ⟨"RMA.REFUSED", RMA_REFUSED, [RMA_REFUSED_COUNT]⟩,
  ⟨"RMA.ABORTS", RMA_ABORTS, [RMA_ABORTS_COUNT]⟩,
  ⟨"RMA.RMA_PSTATUS", RMA_RMA_PSTATUS, [RMA_RMA_PSTATUS_CFG_ERR, RMA_RMA_PSTATUS_REGION_ERR, RMA_RMA_PSTATUS_FETCH_ERR]⟩]
/-- Registers of collectives (R510). -/
def rowsCOL : List RegRow := [
  ⟨"COL.HERD_CFG", COL_HERD_CFG, [COL_HERD_CFG_DEV_ID, COL_HERD_CFG_ORDINAL, COL_HERD_CFG_SIZE, COL_HERD_CFG_VALID]⟩,
  ⟨"COL.HERD_STATUS", COL_HERD_STATUS, [COL_HERD_STATUS_IN_HERD, COL_HERD_STATUS_CFG_ERR]⟩,
  ⟨"COL.PROBE_CMD", COL_PROBE_CMD, [COL_PROBE_CMD_PART, COL_PROBE_CMD_QP, COL_PROBE_CMD_PATH, COL_PROBE_CMD_GO, COL_PROBE_CMD_KIB]⟩,
  ⟨"COL.PROBE_STATUS", COL_PROBE_STATUS, [COL_PROBE_STATUS_BUSY, COL_PROBE_STATUS_RESULT]⟩,
  ⟨"COL.PROBE_LAT", COL_PROBE_LAT, [COL_PROBE_LAT_NS]⟩,
  ⟨"COL.PROBE_BW", COL_PROBE_BW, [COL_PROBE_BW_MBPS]⟩,
  ⟨"COL.COLL_CFG", COL_COLL_CFG, [COL_COLL_CFG_TIMEOUT_MS]⟩,
  ⟨"COL.COLL_STATUS", COL_COLL_STATUS, [COL_COLL_STATUS_CFG_ERR, COL_COLL_STATUS_CHUNK_FAILED, COL_COLL_STATUS_DIVERGED]⟩,
  ⟨"COL.GROUP_CMD", COL_GROUP_CMD, [COL_GROUP_CMD_GROUP, COL_GROUP_CMD_CMD, COL_GROUP_CMD_GO]⟩,
  ⟨"COL.GROUP_CMD_STATUS", COL_GROUP_CMD_STATUS, [COL_GROUP_CMD_STATUS_BUSY, COL_GROUP_CMD_STATUS_RESULT]⟩,
  ⟨"COL.GROUP_DESC", COL_GROUP_DESC, [COL_GROUP_DESC_ADDR]⟩,
  ⟨"COL.COLL_STAGE_BASE", COL_COLL_STAGE_BASE, [COL_COLL_STAGE_BASE_BASE]⟩,
  ⟨"COL.COLL_STAGE_BYTES", COL_COLL_STAGE_BYTES, [COL_COLL_STAGE_BYTES_SIZE]⟩,
  ⟨"COL.ACCUM", COL_ACCUM, [COL_ACCUM_COUNT]⟩,
  ⟨"COL.NOISE", COL_NOISE, [COL_NOISE_NOISE_C, COL_NOISE_NOISE_R]⟩,
  ⟨"COL.NOISE_STEP", COL_NOISE_STEP, [COL_NOISE_STEP_STEP]⟩,
  ⟨"COL.NOISE_INFO", COL_NOISE_INFO, [COL_NOISE_INFO_G, COL_NOISE_INFO_ACCUM]⟩,
  ⟨"COL.CKPT_QP", COL_CKPT_QP, [COL_CKPT_QP_QP]⟩,
  ⟨"COL.BUDDY_BASE", COL_BUDDY_BASE, [COL_BUDDY_BASE_BASE]⟩,
  ⟨"COL.BUDDY_SLOT", COL_BUDDY_SLOT, [COL_BUDDY_SLOT_SLOT_BYTES]⟩,
  ⟨"COL.BUDDY_SRC", COL_BUDDY_SRC, [COL_BUDDY_SRC_DEV, COL_BUDDY_SRC_EN]⟩,
  ⟨"COL.BUDDY_STATE", COL_BUDDY_STATE, [COL_BUDDY_STATE_A_STATE, COL_BUDDY_STATE_A_LOCK, COL_BUDDY_STATE_B_STATE, COL_BUDDY_STATE_B_LOCK]⟩,
  ⟨"COL.BUDDY_A_STEP", COL_BUDDY_A_STEP, [COL_BUDDY_A_STEP_STEP]⟩,
  ⟨"COL.BUDDY_B_STEP", COL_BUDDY_B_STEP, [COL_BUDDY_B_STEP_STEP]⟩,
  ⟨"COL.CHUNKS_SENT", COL_CHUNKS_SENT, [COL_CHUNKS_SENT_COUNT]⟩,
  ⟨"COL.CHUNK_REPLAYS", COL_CHUNK_REPLAYS, [COL_CHUNK_REPLAYS_COUNT]⟩,
  ⟨"COL.MISMATCHES", COL_MISMATCHES, [COL_MISMATCHES_COUNT]⟩,
  ⟨"COL.CHUNKS_FAILED", COL_CHUNKS_FAILED, [COL_CHUNKS_FAILED_COUNT]⟩,
  ⟨"COL.NF_CHUNKS", COL_NF_CHUNKS, [COL_NF_CHUNKS_COUNT]⟩,
  ⟨"COL.DIVERGENCES", COL_DIVERGENCES, [COL_DIVERGENCES_COUNT]⟩,
  ⟨"COL.AGREE_MISMATCH", COL_AGREE_MISMATCH, [COL_AGREE_MISMATCH_COUNT]⟩,
  ⟨"COL.PIPE_TX_STALL5", COL_PIPE_TX_STALL5, [COL_PIPE_TX_STALL5_COUNT]⟩,
  ⟨"COL.PIPE_TX_STALL6", COL_PIPE_TX_STALL6, [COL_PIPE_TX_STALL6_COUNT]⟩,
  ⟨"COL.PIPE_RX_WAIT5", COL_PIPE_RX_WAIT5, [COL_PIPE_RX_WAIT5_COUNT]⟩,
  ⟨"COL.PIPE_RX_WAIT6", COL_PIPE_RX_WAIT6, [COL_PIPE_RX_WAIT6_COUNT]⟩,
  ⟨"COL.GRP_INFO", COL_GRP_INFO, [COL_GRP_INFO_POSITION, COL_GRP_INFO_COUNT, COL_GRP_INFO_RVC, COL_GRP_INFO_GVC, COL_GRP_INFO_FORMED]⟩,
  ⟨"COL.GRP_DIGEST", COL_GRP_DIGEST, [COL_GRP_DIGEST_DIGEST]⟩,
  ⟨"COL.GRP_TAG", COL_GRP_TAG, [COL_GRP_TAG_TAG, COL_GRP_TAG_CHUNK_ELEMS]⟩]
/-- Registers of the update engines (R326). -/
def rowsUPD : List RegRow := [
  ⟨"UPD.ENG_STATUS", UPD_ENG_STATUS, [UPD_ENG_STATUS_LEAD, UPD_ENG_STATUS_STATE]⟩,
  ⟨"UPD.ENG_ITEMS", UPD_ENG_ITEMS, [UPD_ENG_ITEMS_COUNT]⟩,
  ⟨"UPD.ENG_ELEMS", UPD_ENG_ELEMS, [UPD_ENG_ELEMS_COUNT]⟩,
  ⟨"UPD.ENG_SKIPPED", UPD_ENG_SKIPPED, [UPD_ENG_SKIPPED_COUNT]⟩,
  ⟨"UPD.ENG_NF_ELEMS", UPD_ENG_NF_ELEMS, [UPD_ENG_NF_ELEMS_COUNT]⟩,
  ⟨"UPD.STEP", UPD_STEP, [UPD_STEP_STEP]⟩,
  ⟨"UPD.LS_STATE", UPD_LS_STATE, [UPD_LS_STATE_E, UPD_LS_STATE_VALID, UPD_LS_STATE_RECOVERY_LEFT, UPD_LS_STATE_CLEAN]⟩,
  ⟨"UPD.LS_HIST", UPD_LS_HIST, [UPD_LS_HIST_HIST]⟩,
  ⟨"UPD.LS_CFG", UPD_LS_CFG, [UPD_LS_CFG_GROW_INTERVAL, UPD_LS_CFG_RECOVERY_EXP, UPD_LS_CFG_AGREE_GROUP, UPD_LS_CFG_AGREE_EN]⟩,
  ⟨"UPD.CLIP", UPD_CLIP, [UPD_CLIP_NORM]⟩,
  ⟨"UPD.GNORM", UPD_GNORM, [UPD_GNORM_G, UPD_GNORM_C_FACTOR]⟩,
  ⟨"UPD.SCHED_KIND", UPD_SCHED_KIND, [UPD_SCHED_KIND_KIND]⟩,
  ⟨"UPD.SCHED_LR", UPD_SCHED_LR, [UPD_SCHED_LR_LR0, UPD_SCHED_LR_LRMIN]⟩,
  ⟨"UPD.SCHED_SPAN", UPD_SCHED_SPAN, [UPD_SCHED_SPAN_WARMUP, UPD_SCHED_SPAN_TOTAL]⟩,
  ⟨"UPD.SCHED_STEP", UPD_SCHED_STEP, [UPD_SCHED_STEP_INTERVAL, UPD_SCHED_STEP_GAMMA]⟩,
  ⟨"UPD.SCHED_STRIDE", UPD_SCHED_STRIDE, [UPD_SCHED_STRIDE_STRIDE]⟩,
  ⟨"UPD.SCHED_N", UPD_SCHED_N, [UPD_SCHED_N_N]⟩,
  ⟨"UPD.SCHED_RATE", UPD_SCHED_RATE, [UPD_SCHED_RATE_ETA]⟩,
  ⟨"UPD.LAYER_TABLE", UPD_LAYER_TABLE, [UPD_LAYER_TABLE_BASE]⟩,
  ⟨"UPD.SCHED_TABLE", UPD_SCHED_TABLE, [UPD_SCHED_TABLE_BASE]⟩,
  ⟨"UPD.WATCH_CFG", UPD_WATCH_CFG, [UPD_WATCH_CFG_UNDERFLOW_STEPS]⟩,
  ⟨"UPD.AGREE_TIMEOUT", UPD_AGREE_TIMEOUT, [UPD_AGREE_TIMEOUT_MS]⟩,
  ⟨"UPD.STEP_STATUS", UPD_STEP_STATUS, [UPD_STEP_STATUS_CLOSED, UPD_STEP_STATUS_DECIDED, UPD_STEP_STATUS_LAST_SKIPPED, UPD_STEP_STATUS_CFG_ERR, UPD_STEP_STATUS_INCOMPLETE]⟩,
  ⟨"UPD.STEPS_COMMITTED", UPD_STEPS_COMMITTED, [UPD_STEPS_COMMITTED_COUNT]⟩,
  ⟨"UPD.STEPS_SKIPPED", UPD_STEPS_SKIPPED, [UPD_STEPS_SKIPPED_COUNT]⟩,
  ⟨"UPD.CLIPPED_STEPS", UPD_CLIPPED_STEPS, [UPD_CLIPPED_STEPS_COUNT]⟩,
  ⟨"UPD.LATE_ITEMS", UPD_LATE_ITEMS, [UPD_LATE_ITEMS_COUNT]⟩,
  ⟨"UPD.UNDERFLOWS", UPD_UNDERFLOWS, [UPD_UNDERFLOWS_COUNT]⟩,
  ⟨"UPD.RATIO_EVENTS", UPD_RATIO_EVENTS, [UPD_RATIO_EVENTS_COUNT]⟩]

/-- The register map of BAR0, block by block. -/
def all : List RegRow :=
  rowsDEV ++ rowsEVT ++ rowsCFG ++ rowsPWR ++ rowsSEC ++ rowsFW ++ rowsHIF ++ rowsPART ++ rowsTILE0 ++ rowsTILE1 ++ rowsMEM ++ rowsSLOW ++ rowsFAB0 ++ rowsFAB1 ++ rowsRMA ++ rowsCOL ++ rowsUPD

end Regs

/-- The row of the register map that holds the register at a BAR0 offset, and the instance. -/
def findReg (off : Nat) : Option (RegRow × Nat) :=
  Regs.all.findSome? (fun row => (row.reg.index off).map (fun i => (row, i)))

/-- What the register at a BAR0 offset holds after reset. -/
def regReset (off : Nat) : Word :=
  match findReg off with
  | some (row, _) => BitVec.ofNat 64 row.reg.reset
  | none => 0

end Sys2Proof.Machine
end

