-- ==== Sys2Proof/Machine/State.lean ====
section
/-! DEFINITION. State.lean: everything the spec gives the device, as plain data.

Registers that BAR0 shows stand in `Core.regs` under their BAR0 offset unless another field of the state is their home
(then a read computes them, see Access.lean). Arrays are sparse maps in canonical form (Word.lean). -/

namespace Sys2Proof.Machine

/-! ### Events (R55-R75) -/

/-- An event as a unit raises it; the tick that samples it adds the timestamp and SEQ (R67). -/
structure Evt where
  cls : Nat
  source : Nat
  part : Nat
  code : Nat
  info0 : Nat := 0
  info1 : Nat := 0
  deriving DecidableEq, Repr

/-- An entry of the device log: the event with its timestamp and SEQ, and whether LOG_DATA has shown it (R75, R76). -/
structure LogEnt where
  valid : Bool := false
  ts : Nat := 0
  seq : Nat := 0
  evt : Evt := ⟨0, 0, 0, 0, 0, 0⟩
  read : Bool := false
  deriving DecidableEq, Repr

/-- What an event queue or a completion queue holds beside its registers: base and size as read when it was enabled, the pass bit
of the next record, the records not yet signalled and the tick of the first of them (R67, R74, R76, R569). -/
structure QHid where
  base : Nat := 0
  size : Nat := 0
  phase : Bool := true
  unsignalled : Nat := 0
  firstTick : Nat := 0
  deriving DecidableEq, Repr

/-- A message the block sends on one of its links and that leaves it at once: an MSI-X vector, a packet, an NVMe command, a
bus message. The list of them is an output; nothing in the block reads it. DESIGN CHOICE (assumption 1). -/
structure OutMsg where
  kind : Nat
  args : List Nat
  deriving DecidableEq, Repr

/-! ### Tiles (R129, R156, R90, R272) -/

/-- A completion token: outstanding count and status (R129, R156, R157). -/
structure Token where
  count : Nat := 0
  status : Nat := 0
  deriving DecidableEq, Repr

/-- A codebook in a slot of the codec unit (R90). -/
structure Codebook where
  wide : Bool
  linear : Bool
  m : Nat
  s : Nat
  entries : List Nat
  deriving DecidableEq, Repr

/-- Where the bits of a stash entry are (R272). -/
inductive StashLoc where
  | resident | spilled | dropped | lost
  deriving DecidableEq, Repr

/-- A record of the stash directory (R272): the entry's name, its bits per element, element count and place; `addr` is the word
of the reservation or of the spill area where its bits start. -/
structure StashEnt where
  name : Nat
  width : Nat
  count : Nat
  loc : StashLoc
  addr : Nat
  deriving DecidableEq, Repr

/-- An allocation of the reservation's ring (R273, R274): its first word, its words, and the entry they serve (none: dead). -/
structure RingSlot where
  start : Nat
  words : Nat
  name : Option Nat
  deriving DecidableEq, Repr

/-- What a stalled sequencer waits for (R158, R161, R163, R171, R230). -/
inductive Stall where
  | tokens (mask : Nat) (tolerant : Option Nat) (len : Nat)
  | halt
  | flag (n : Nat) (threshold : Nat) (consume : Bool)
  | barrier (bwd : Bool)
  | drain (bwd : Bool)
  | stest (d : Nat) (entry : Nat)
  | spill
  deriving DecidableEq, Repr

/-- Sequencer state of a tile (R129, R189) and the state of its codec and stash units (R95, R272). -/
structure Tile where
  run : Nat := 0
  g : SMap Word := []
  p : BitVec 8 := 0x80
  t : SMap (BitVec 256) := []
  tok : SMap Token := []
  pc : Nat := 0
  flags : SMap Nat := []
  imageTile : Nat := 0
  stall : Option Stall := none
  cb : SMap (Option Codebook) := []
  stash : List StashEnt := []
  /-- the ring of the reservation, oldest allocation first -/
  ring : List RingSlot := []
  /-- the word after the newest allocation (R273) -/
  ringNext : Nat := 0
  /-- words used in the spill area (R279) -/
  spillHead : Nat := 0
  /-- dropped pairs of segment and micro-batch (R281) -/
  pairs : List (Nat × Nat) := []
  ovfStep : Option Nat := none
  lastIssue : Nat := 0
  deriving DecidableEq, Repr

/-! ### Items, records, programs, operations (R16, R155-R161, R562-R571) -/

/-- What an open item is. -/
inductive ItemKind where
  | program | copy | fence | op
  deriving DecidableEq, Repr

/-- Bytes that an operation writes: displacements [off, off + len) of unified address `addr` of a logical tile of a partition. -/
structure Span where
  part : Nat
  ltile : Nat
  addr : Nat
  off : Nat
  len : Nat
  deriving DecidableEq, Repr

/-- An open item: a host entry or an operation with REC (R160, R564). -/
structure Item where
  id : Nat
  part : Nat
  kind : ItemKind
  sq : Nat := 0
  entry : Nat := 0
  tag : Nat := 0
  ltile : Nat := 0
  cq : Nat := 0
  order : Bool := false
  started : Bool := false
  openTick : Nat := 0
  startTick : Nat := 0
  limit : Nat := 0
  addr0 : Nat := 0
  addr1 : Nat := 0
  len : Nat := 0
  info : Nat := 0
  source : Nat := 0
  /-- the first failure of its parts, until it ends -/
  status : Nat := 0
  /-- what a copy that waits writes, and the banks it touches: physical tile and logical bank (R60, R337) -/
  dests : List Span := []
  banks : List (Nat × Nat) := []
  deriving DecidableEq, Repr

/-- A completion record that waits in its slot (R568, R570, R571); `held` marks the records of R578. -/
structure Rec where
  part : Nat
  cq : Nat
  tag : Nat
  status : Nat
  sq : Nat
  origin : Nat
  ltile : Nat
  entry : Nat
  info : Nat
  ts : Nat
  held : Bool := false
  deriving DecidableEq, Repr

/-- A recompute segment of a program image (R178). -/
structure Segment where
  id : Nat
  first : Nat
  last : Nat
  ckpt : Nat
  deriving DecidableEq, Repr

/-- A program loaded in a partition (R175-R185). -/
structure Prog where
  item : Nat
  tiles : List Nat
  started : Bool := false
  entries : List Nat := []
  policy : Nat := 0
  shadowPages : Nat := 0
  segments : List Segment := []
  /-- CODE sections: logical tile, offset, bytes (R340) -/
  code : List (Nat × Nat × Nat) := []
  /-- status, reason, logical tile and pc of the fault that ends it (R183, R184) -/
  fault : Option (Nat × Nat × Nat × Nat) := none
  stopping : Bool := false
  endStatus : Nat := 0
  deriving DecidableEq, Repr

/-- An asynchronous operation between its issue and its completion (R155-R160). Its data is moved at issue; `status` is what
its completion will record. `unit` is the source index of the unit that runs it, `wait` tells that a later command of the
protocol ends it. -/
structure AOp where
  id : Nat
  part : Nat
  ltile : Nat
  tok : Nat
  major : Nat
  unit : Nat
  pc : Nat := 0
  item : Option Nat := none
  status : Nat := 0
  info : Nat := 0
  slots : List Nat := []
  wait : Bool := false
  /-- matrix operations that the unit accepted: 8 + MODE + 4 × TRANSPOSE of MM_STATUS (R263); else 0 -/
  note : Nat := 0
  /-- what completion adds: operations for MM_OPS, RU_LAST for ROUTE (R263) -/
  work : Nat := 0
  /-- the banks that its operands touch: physical tile and logical bank (R337) -/
  banks : List (Nat × Nat) := []
  /-- what it writes (R60) -/
  dests : List Span := []
  /-- it accesses space 0x5 (R381) -/
  rowAccess : Bool := false
  deriving DecidableEq, Repr

/-- A configuration transaction: its shadow writes, newest last (R572, R573); the offset of the first write beyond its limit; and who ended
the last one (R232): 0 a program, or none was ever opened; 1 the host; 2 the timeout. -/
structure Txn where
  writes : List (Nat × Word) := []
  excess : Option Nat := none
  ender : Nat := 0
  deriving DecidableEq, Repr

/-- What the block answers to a host read: data, an Unsupported Request or a Completer Abort (R552, R560, R678).
DESIGN CHOICE (assumption 2). -/
inductive Resp where
  | none
  | data (w : Word)
  | bytes (b : List Byte)
  | unsupported
  | abort
  | retry
  deriving DecidableEq, Repr

/-! ### Training steps and pending rows (R289-R306, R384-R393) -/

/-- An update item that a step holds (R297): its operation, layer slot, engine, descriptors, statistics (Z, NZ, S, non-finite),
and what the apply pass has done: rows still to be accepted, sums of the ratio watch (R322), elements left unchanged (R315).
`table` is the row table of a ROWUPD, `user` marks UPDPROG, `open` that the item has not ended. -/
structure StepItem where
  op : Nat
  layer : Nat
  eng : Nat
  ltile : Nat
  user : Bool := false
  table : Option Nat := none
  td : Nat := 0
  ta : Nat := 0
  tb : Nat := 0
  tc : Nat := 0
  z : Nat := 0
  nz : Nat := 0
  s : Nat := 0
  nf : Bool := false
  open_ : Bool := true
  rows : List Nat := []
  /-- positions not yet accepted (R384, R387) -/
  todo : List Nat := []
  sx : Nat := 0
  sd : Nat := 0
  kept : Nat := 0
  deriving DecidableEq, Repr

/-- Sums of a layer slot over a step (R299): L² and NZ. -/
structure SlotSum where
  slot : Nat
  l2 : Nat
  nz : Nat
  deriving DecidableEq, Repr

/-- A partition's current training step (R296-R305): its held items, and from the close on what the close took: the local flag
and slot sums, η, C, GROW_INTERVAL, UNDERFLOW_STEPS; from the decision on the outcome and c. -/
structure StepSt where
  items : List StepItem := []
  nf : Bool := false
  closed : Bool := false
  closeTick : Nat := 0
  flag : Bool := false
  slots : List SlotSum := []
  eta : Nat := 0
  clip : Nat := 0
  grow : Nat := 0
  under : Nat := 0
  agree : Option Nat := none
  decided : Bool := false
  decideTick : Nat := 0
  committed : Bool := false
  agreed : List SlotSum := []
  g : Nat := 0
  cf : Nat := 0
  aflag : Bool := false
  /-- items ended in the apply passes with a status other than SUCCESS (R324) -/
  broken : Nat := 0
  pendFull : Bool := false
  rowsFailed : Nat := 0
  rowsPosted : Bool := false
  /-- rows of the step that failed, with their status (R391, R392) -/
  failed : List (Nat × Nat × Nat) := []
  /-- NOISE_C and NOISE_R of this device and of the herd, with the members of the agreement group (R489; 0: no exchange) -/
  ownNoise : Nat × Nat := (0, 0)
  noise : Nat × Nat := (0, 0)
  noiseG : Nat := 0
  /-- an AGREE message that came before the close (R487) -/
  agreeIn : Option (List Byte) := none
  deriving DecidableEq, Repr

/-- An entry of the pending buffer (R384-R389): its slot, table and row, the fixed-point accumulator with 24 fraction bits, the
contributions, whether the row's state is present, whether its fetch waits for a staging block, the bytes of a remote row, and
the status of a failed fetch. -/
structure PendRow where
  slot : Nat
  table : Nat
  row : Nat
  acc : List Int
  count : Nat
  present : Bool
  waits : Bool := false
  remote : Option (List Byte) := none
  failed : Option Nat := none
  deriving DecidableEq, Repr

/-- A 4 KiB block in the staging area (R376, R390): SSD slot and block, the table of its rows, whether its fetch, its write-back
is in flight, whether it holds bytes that flash does not, and whether its write-back failed. -/
structure StageBlk where
  part : Nat
  slot : Nat
  block : Nat
  table : Nat
  fetching : Bool := true
  writing : Bool := false
  dirty : Bool := false
  stuck : Bool := false
  deriving DecidableEq, Repr

/-- The training settings in force for a step (R296): the UPD configuration registers of the lead engine and GMUL of every layer slot, as they stood at
the last step boundary or at program start. DEDUCED (assumption 41). -/
structure UpdCfg where
  kind : Nat := 0
  lr0 : Nat := 0
  lrMin : Nat := 0
  warm : Nat := 0
  total : Nat := 0
  interval : Nat := 0
  gamma : Nat := 0
  stride : Nat := 0
  table : Nat := 0
  clip : Nat := 0
  grow : Nat := 0
  under : Nat := 0
  /-- AGREE_GROUP when AGREE_EN is 1, and AGREE_TIMEOUT -/
  agree : Option Nat := none
  timeout : Nat := 0
  layers : Nat := 0
  gmul : SMap Nat := []
  deriving DecidableEq, Repr

/-- State of a partition beside its registers (R515, R517, R540-R546, R578). -/
structure Part where
  phase : Nat := 0
  prog : Option Prog := none
  resetting : Bool := false
  resetItems : Nat := 0
  /-- the memory key of the partition (R512, R518); 0: none -/
  key : Nat := 0
  removeTick : Nat := 0
  revoked : Bool := false
  /-- items that have ended since the removal began (R547) -/
  drainEnded : Nat := 0
  /-- granules still to scrub, the one being scrubbed first, and how many have been scrubbed (R543) -/
  scrub : List Nat := []
  scrubbed : Nat := 0
  /-- PARTITION_FREED has been posted: the function is disabled (R544, R678) -/
  freed : Bool := false
  /-- the phase-fwd barrier of R164 waits for the step boundary -/
  boundaryWait : Bool := false
  /-- a step boundary has been taken since the phase became BWD (R164): its tiles waited elsewhere when the step closed -/
  stepTaken : Bool := false
  /-- the partition's barrier is complete and the activation barrier holds its tiles (R627) -/
  barrierHeld : Bool := false
  sqTurn : Nat := 0
  cfg : UpdCfg := {}
  step : StepSt := {}
  pend : List PendRow := []
  /-- ACCUM in force (R490) -/
  accum : Nat := 1
  /-- RSCAT totals of the step (R489): group, TILE, SEQ, contributions, result -/
  noise : List (Nat × Nat × Nat × Nat × Nat) := []
  deriving DecidableEq, Repr

/-- A wipe of Umbra banks in progress (R352, R353): the tile groups, the trigger code of UMBRA_WIPED, the partition and the
status that a refused access takes (0: the access waits). -/
structure Wipe where
  groups : Nat
  trigger : Nat
  part : Nat
  status : Nat
  /-- the one physical tile it covers, for a tile reset (R580) -/
  tile : Option Nat := none
  deriving DecidableEq, Repr

/-- A tile swap in progress (R34): the tile group, the logical tile and the step it has reached. -/
structure TileSwap where
  ltile : Nat
  step : Nat
  trigger : Nat
  /-- offsets of the words that the copy cannot read after their replays (R36) -/
  lost : List Nat := []
  deriving DecidableEq, Repr

/-- A bank swap in progress (R346): the physical tile, the logical bank, the trigger. -/
structure BankSwap where
  tile : Nat
  bank : Nat
  trigger : Nat
  /-- offsets of the 32-bit words lost (R334) -/
  words : List Nat := []
  /-- a second trigger came: a tile swap follows (R348) -/
  thenTile : Bool := false
  deriving DecidableEq, Repr

/-- A sparing trigger that waits until the activation tick (R633): of a logical tile, or of a logical bank of a physical tile with its
lost words. -/
inductive HeldSwap where
  | tile (l trigger : Nat)
  | bank (t b trigger : Nat) (words : List Nat)
  deriving DecidableEq, Repr

/-- A key slot of a partition (R530): whether it holds a model key (else a binding key), its LABEL, its BIND digest and the
key itself. -/
structure KeySlot where
  model : Bool
  label : Nat
  bind : List Byte
  key : Nat
  deriving DecidableEq, Repr

/-- A request of BANK_OFF or BANK_RETAIN that has not taken effect (R337, R341). -/
structure BankReq where
  tile : Nat
  bank : Nat
  retain : Bool
  deriving DecidableEq, Repr

/-- A sparing record (R643, R651): KIND, UNIT, SUB, CLEARED, HOURS. -/
structure SpareRec where
  kind : Nat
  unit : Nat
  sub : Nat
  cleared : Bool := false
  hours : Nat := 0
  deriving DecidableEq, Repr

/-- What an NVMe command serves: an operation of a tile, a host item, a pending row (R382, R384, R390). -/
inductive NvOwner where
  | op (id : Nat)
  | item (id : Nat)
  | fetch (p : Nat)
  | writeback (p : Nat)
  deriving DecidableEq, Repr

/-- An NVMe command in flight (R375-R377): the slot, Read (0), Write (1) or Flush (2), the 4 KiB block on the namespace, what it
serves, and the failed tries. -/
structure NvCmd where
  id : Nat
  slot : Nat
  kind : Nat
  block : Nat
  owner : NvOwner
  tries : Nat := 0
  issued : Nat := 0
  /-- the tick of its first issue, from which DEADLINE counts (R382); `issued` is that of its last (R377) -/
  began : Nat := 0
  deriving DecidableEq, Repr

/-! ### Remote memory (R435-R465) -/

/-- What a message of a queue pair belongs to: an operation of a tile, the slow tier's access of an operation or of a pending
row, a collective and the ring position it goes to, or nothing that waits. -/
inductive MsgOwner where
  | op (id : Nat)
  | coll (id pos : Nat)
  /-- a row fetch or write-back: partition, table, row (R389) -/
  | row (p table row : Nat)
  /-- an access of an operation or a host item through a remote group of space 0x5 (R382) -/
  | slow (id : Nat) (item : Bool)
  | none
  deriving DecidableEq, Repr

/-- A message this device sends on a queue pair (R446, R450): its number, packet type, length, target, bytes, the packets already
sent and those to send again, the first packet not known received, and the tries and rounds spent (R456). -/
structure TxMsg where
  msn : Nat
  kind : Nat
  vc : Nat
  total : Nat
  roff : Nat := 0
  rkey : Nat := 0
  data : List Byte := []
  owner : MsgOwner := .none
  next : Nat := 0
  base : Nat := 0
  again : List Nat := []
  tries : Nat := 0
  rounds : Nat := 0
  waiting : Bool := false
  /-- packets of a READ_RESP already written (R449) -/
  got : List Nat := []
  /-- the descriptor that takes what a READ_REQ or an ATOMIC_REQ brings back -/
  desc : Nat := 0
  /-- an ATOMIC_REQ that compares and swaps -/
  cas : Bool := false
  deriving DecidableEq, Repr

/-- A posted receive buffer (R447): the operation, its tile and its descriptor register's bits, and whether it waits for the
context's fetch (R462). -/
structure RecvBuf where
  op : Nat
  ltile : Nat
  desc : Nat
  len : Nat
  waits : Bool := false
  deriving DecidableEq, Repr

/-- A reassembly record (R451): the fields of the first packet seen, the packets received, and how the message ended if it has.
`data` holds the bytes of a message that no region or buffer takes (a collective message). -/
structure RxRec where
  msn : Nat
  kind : Nat
  vc : Nat
  total : Nat
  roff : Nat
  rkey : Nat
  got : List Nat := []
  base : Nat := 0
  /-- BASE of the region that admitted the message (R443) -/
  region : Nat := 0
  buf : Option RecvBuf := none
  data : SMap Byte := []
  done : Option Nat := none
  deriving DecidableEq, Repr

/-- An access to a remote group that waits for its message (R382): partition, device, key, offset, length, whether it
writes, and what it serves. -/
structure SlowReq where
  part : Nat
  dev : Nat
  key : Nat
  off : Nat
  len : Nat
  write : Bool := false
  owner : MsgOwner
  deriving DecidableEq, Repr

/-- A queue pair: its context (R436) and what bytes 176 to 255 of it hold. -/
structure QP where
  num : Nat
  part : Nat
  state : Nat := 0
  err : Nat := 0
  remoteQp : Nat := 0
  remoteDev : Nat := 0
  pd : Nat := 0
  vc : Nat := 0
  pmtu : Nat := 1024
  key : Nat := 0
  form : Nat := 0
  /-- port and interface of each path -/
  paths : List (Nat × Nat) := []
  psn : List Nat := []
  rxPsn : List Nat := []
  nextPath : Nat := 0
  txMsn : Nat := 0
  rxLow : Nat := 0
  tx : List TxMsg := []
  rx : List RxRec := []
  /-- refused messages: MSN and status (R456) -/
  refused : List (Nat × Nat) := []
  bufs : List RecvBuf := []
  /-- results of the last atomics (R448) -/
  atomics : List (Nat × Nat) := []
  cached : Bool := false
  lastUse : Nat := 0
  fetching : Bool := false
  /-- DESTROY waits for the context fetch (R465) -/
  destroying : Bool := false
  /-- packets that wait for the context: OPCODE, packet, and whether the miss buffer holds it (R463) -/
  waiting : List (Nat × Pkt × Bool) := []
  /-- millisecond of the last REGION_REFUSED (R466) -/
  refusedMs : Option Nat := none
  deriving DecidableEq, Repr

/-- A sender's credit on an interface and VC (R457, R458, R460). -/
structure TxCredit where
  limit : Nat := 0
  consumed : Nat := 0
  granted : Bool := false
  requested : Bool := false
  lastSend : Nat := 0
  deriving DecidableEq, Repr

/-- A receiver's grant to a sender on an interface (unit: interface + 2 × port) and VC (R458-R461): the sender's limit, the cells
it has consumed, those freed and not yet returned, those that packets still hold (`kept`), whether the limit has changed since the
last CREDIT, and the CONSUMED count of a CREDIT_RETURN that waits for held cells. -/
structure RxGrant where
  unit : Nat
  vc : Nat
  dev : Nat
  limit : Nat := 0
  consumed : Nat := 0
  freed : Nat := 0
  kept : Nat := 0
  changed : Bool := false
  returned : Option Nat := none
  deriving DecidableEq, Repr

/-- A credit request that waits (R458). -/
structure CreditReq where
  unit : Nat
  vc : Nat
  dev : Nat
  cells : Nat
  deriving DecidableEq, Repr

/-! ### Collectives (R468-R508) -/

/-- A collective that this device has issued (R475-R500): its operation, group, logical tile, SEQ, KIND, COMPACT, element count,
descriptors; and what has happened: outcomes of shards, chunks seen (shard, chunk), attempts of a shard or chunk (R485, R493),
squared norms of its chunks (R489), digests of shards, the table of owners' digests with its lost entries (R494), messages sent
and confirmed. A collective that has ended stays until the next of its group and tile, so that late replays are served. -/
structure Coll where
  op : Nat
  part : Nat
  group : Nat
  ltile : Nat
  seq : Nat
  kind : Nat
  compact : Bool := false
  e : Nat := 0
  td : Nat := 0
  ta : Nat := 0
  tc : Nat := 0
  outcomes : List (Nat × Nat) := []
  owned : List (Nat × Nat) := []
  seen : List (Nat × Nat) := []
  tries : List (Nat × Nat × Nat) := []
  squares : List (Nat × Nat × Nat) := []
  digests : List (Nat × Nat) := []
  lost : List Nat := []
  asked : List (Nat × Nat × Nat) := []
  sent : Nat := 0
  confirmed : Nat := 0
  lastTick : Nat := 0
  ended : Bool := false
  status : Nat := 0
  deriving DecidableEq, Repr

/-- A message whose collective has not been issued here (R477): the queue pair, the OPCODE, its bytes, and whether it stays in its
receive cells because the staging area is full; then the interface, VC, sender and number of the cells it holds. -/
structure Parked where
  part : Nat
  qp : Nat
  opcode : Nat
  bytes : List Byte
  inCells : Bool
  hold : Option (Nat × Nat × Nat × Nat) := none
  deriving DecidableEq, Repr

/-- A probe in progress (R501): queue pair, path, KIB, whether the rate is being measured, the tick of its first packet, bytes to
send. -/
structure Probe where
  part : Nat
  qp : Nat
  path : Nat
  kib : Nat
  rate : Bool := false
  started : Nat := 0
  left : Nat := 0
  deriving DecidableEq, Repr

/-- A replacement of a lane path by the spare (R401-R405), running or waiting: the engine, the lane, transmit or receive, the trigger,
whether it runs, and whether the transmit pause has begun. -/
structure LaneSwap where
  engine : Nat
  lane : Nat
  rx : Bool
  trigger : Nat
  running : Bool := false
  paused : Bool := false
  deriving DecidableEq, Repr

/-! ### Power, firmware, save (R585-R635) -/

/-- A component of a firmware area (R617): its SVN and its DIGEST. -/
structure FwComp where
  svn : Nat := 0
  digest : List Byte := []
  deriving DecidableEq, Repr

/-- A firmware area of the boot flash (R615, R616): whether it holds a complete checked manifest, its BUILD and settings range, and
components 1 to 7. -/
structure FwArea where
  valid : Bool := false
  build : Nat := 0
  setMin : Nat := 0
  setMax : Nat := 0
  comps : List FwComp := []
  deriving DecidableEq, Repr

/-- A partition section of the save image (R608): state, granules still to scrub, step counter, loss-scale state, SCHED_N, (ZERO_RUN, GMUL,
GMUL_F16) of every layer slot, BUDDY_STATE and both slot STEP values. -/
structure SavedPart where
  part : Nat
  state : Nat
  scrub : List Nat
  step : Nat
  ls : Nat
  hist : Nat
  schedN : Nat
  slots : List (Nat × Nat × Nat)
  buddy : Nat
  stepA : Nat
  stepB : Nat
  deriving DecidableEq, Repr

/-- The save image (R608): LAST_RESET cause, tick and timestamp of ts, the open items as the records they become (R610), partition
sections, a migration in progress (channel, frontier) and the newest 512 entries of the device log. -/
structure SaveImg where
  cause : Nat
  tick : Nat
  ts : Nat
  items : List Rec
  parts : List SavedPart
  mig : Option (Nat × Nat)
  log : List LogEnt
  deriving DecidableEq, Repr

/-- A budget report (R601, R603): the member, the period, its slack and CAP_EFF, the sums of its pipeline counters. -/
structure BudgetRep where
  dev : Nat
  period : Nat
  slack : Nat
  cap : Nat
  tx : Nat
  rx : Nat
  deriving DecidableEq, Repr


/-- The physical tile that serves a logical tile on a new part (R20, R21). -/
def mapDefault (l : Nat) : Option Nat := some (17 * (l / 16) + l % 16)

/-- Everything a cold reset clears (R577): registers, units, memories, queues. DESIGN CHOICE (assumption 3). -/
structure Core where
  tick : Nat := 0
  ts : Nat := 0
  regs : SMap Word := []
  hold : SMap Word := []
  resp : Resp := .none
  evtBuf : List Evt := []
  log : SMap LogEnt := []
  evq : SMap QHid := []
  cqh : SMap QHid := []
  out : List OutMsg := []
  scratch : SMap Byte := []
  dram : SMap Byte := []
  dramKey : SMap Nat := []
  nextKey : Nat := 1
  host : SMap Byte := []
  tiles : SMap Tile := []
  map : SMap (Option Nat) := []
  parts : SMap Part := []
  items : List Item := []
  recs : List Rec := []
  ops : List AOp := []
  txns : SMap Txn := []
  nextItem : Nat := 0
  nextOp : Nat := 0
  free : Nat := 0
  wipes : List Wipe := []
  tileSwaps : List TileSwap := []
  bankSwaps : List BankSwap := []
  /-- triggers that wait while an activation holds (R633) -/
  heldSwaps : List HeldSwap := []
  /-- key slots: slot n of partition p is 16 p + n (R530) -/
  slots : SMap (Option KeySlot) := []
  /-- licensed pages of Umbra (R533): 1024 × logical tile + page of its space 0x0 -/
  marks : List Nat := []
  /-- the row residency directory (R380) -/
  dir : SMap Word := []
  /-- the bytes of the SSD namespaces: 2^45 × slot + byte (R376) -/
  flash : SMap Byte := []
  /-- Beacon holds new work at the firmware barrier (R628) -/
  fwHold : Bool := false
  /-- the power manager gates issue in these quadrants (R593) -/
  gated : Nat := 0
  /-- the supply is lost and the save runs (R605) -/
  lost : Bool := false
  /-- submission queues whose ENABLE clears once their open items have ended (R562) -/
  sqOff : List Nat := []
  bankReqs : List BankReq := []
  /-- the banks that the operation issued last has touched; the next one starts anew -/
  touched : List (Nat × Nat) := []
  /-- what the operation issued last writes; the next one starts anew -/
  dests : List Span := []
  /-- whether the operation issued last accesses space 0x5; the next one starts anew -/
  rowAccess : Bool := false
  /-- physical tiles out of service (R37, R38) -/
  outTiles : List Nat := []
  /-- sparing records that Beacon has yet to write to its settings (R643) -/
  spareQ : List SpareRec := []
  nvcmds : List NvCmd := []
  nextNv : Nat := 0
  qps : List QP := []
  txCredit : SMap TxCredit := []
  rxGrants : List RxGrant := []
  creditReqs : List CreditReq := []
  /-- GRANT_CELLS of each VC (R458, R467) -/
  grantCells : SMap Nat := []
  /-- region entries on chip: 2^18 × partition + key (R443) -/
  regionCache : SMap (Option Nat) := []
  /-- keys being invalidated: partition and key (R443) -/
  invals : List (Nat × Nat) := []
  /-- release nonces as numbers of random draws: key 0 the device's, p + 1 partition p's (R527), and the draws made -/
  nonces : SMap Nat := []
  draws : Nat := 17
  /-- functions whose IDE stream holds keys (R523) -/
  ide : List Nat := []
  /-- epoch secrets in the key store: number and install count of the current, the next and the previous epoch (R522) -/
  epochCur : Option (Nat × Nat) := none
  epochNext : Option (Nat × Nat) := none
  epochPrev : Option (Nat × Nat) := none
  /-- the secrets of those epochs (R520), and the tick of the last SWITCH_EPOCH -/
  secretCur : Nat := 0
  secretNext : Nat := 0
  secretPrev : Nat := 0
  switchTick : Nat := 0
  /-- bytes of staged blocks that flash does not hold yet (R390) -/
  staged : SMap (Option Byte) := []
  stageBlks : List StageBlk := []
  slowReqs : List SlowReq := []
  /-- bytes on their way to remote groups: (device × 2^18 + key) × 2^48 + offset (R382) -/
  remoteOut : SMap (Option Byte) := []
  /-- failed channels (R364), and the failed trainings in a row of a channel -/
  failedCh : List Nat := []
  trainFails : SMap Nat := []
  /-- ticks of a channel's corrected accesses in the last second, newest first (R368) -/
  corrTicks : SMap (List Nat) := []
  /-- physical tiles and logical banks whose BANK_ERRS has reached SWAP_THRESH: their swap starts at the next tick (R335) -/
  swapDue : List (Nat × Nat) := []
  /-- lines that partitions have lost in the running migration (R372) -/
  migLost : SMap Nat := []
  /-- channels whose retirement is requested, with the trigger (R368) -/
  retireQ : List (Nat × Nat) := []
  colls : List Coll := []
  /-- the next SEQ of a group and logical tile: (16 × partition + group) × 256 + tile (R475) -/
  collSeq : SMap Nat := []
  /-- members of formed groups, by group + 16 × partition: device ID, ordinal, queue pair (R471) -/
  colMembers : SMap (List (Nat × Nat × Nat)) := []
  parked : List Parked := []
  /-- messages of collectives that have ended: operation, position, status -/
  collEnds : List (Nat × Nat × Nat) := []
  probe : Option Probe := none
  /-- probe bytes received on a queue pair (R501) -/
  probeGot : SMap Nat := []
  laneSwaps : List LaneSwap := []
  /-- transmit timestamps of an interface, oldest first: TAG and stamp (R425) -/
  txStamps : SMap (List (Nat × Nat)) := []
  /-- snapshot groups asked for at the next tick, by interface (R427) -/
  snapReq : SMap Nat := []
  /-- nanoseconds that the servo has still to slew, and the tick of its last step (R62) -/
  slew : Int := 0
  slewTick : Nat := 0
  /-- values written to TS_STEP that the next tick adds (R76) -/
  tsSteps : List Nat := []
  /-- clamped quadrants: quadrant, tick of the clamp, INFO0 of its event, whether REGION_SKEW_PERSIST has been posted (R51, R52) -/
  clamps : List (Nat × Nat × Nat × Bool) := []
  /-- an event of class 0x0 to 0x3 has been recorded in FATAL_INFO since FATAL was last cleared (R636) -/
  fatalSeen : Bool := false
  /-- the thermal trip has been sampled (R598) -/
  tripped : Bool := false
  /-- the ladder of the power manager: voltage notches below the top and the duty in eighths (R592) -/
  notch : Nat := 0
  duty : Nat := 8
  /-- what the temperature demands of a quadrant: mV below the top and duty notches (R597) -/
  therm : SMap (Nat × Nat) := []
  /-- control steps in a row with P at or below CAP_EFF (R594) -/
  metSteps : Nat := 0
  /-- the tick until which RAIL_LIMIT holds a quadrant at duty 4/8 (R595), and the slot of the duty window (R593) -/
  limitUntil : SMap Nat := []
  dutySlot : Nat := 0
  /-- slack of the budget period: ticks that mapped tiles waited, ticks of mapped tiles (R601) -/
  slackWait : Nat := 0
  slackAll : Nat := 0
  /-- budget reports held, and a raise that waits for its donor: donor and the CAP_EFF it must show (R603) -/
  reports : List BudgetRep := []
  raise_ : Option (Nat × Nat) := none
  /-- PCI Express configuration: the BAR4 size and Bus Master Enable of each function (R551, R556) -/
  barSize : SMap Nat := []
  busMaster : List Nat := []
  /-- the queue memory of the NVMe engines (R559) -/
  qmem : SMap Byte := []
  /-- Beacon restarts on changed firmware (R629) -/
  beaconDown : Bool := false
  /-- FORCE of the activation, the ticks of ACTIVATE, of tb, and of Beacon's start on the running firmware (R627-R631) -/
  fwForce : Bool := false
  fwStart : Nat := 0
  fwHoldTick : Nat := 0
  fwTrialTick : Nat := 0
  /-- THERMTRIP_N is low, and the tick of the trip (R598) -/
  thermtrip : Bool := false
  tripTick : Nat := 0
  /-- the device is held in reset; PERST_N and PFAIL_N are low (R579, R667) -/
  inReset : Bool := false
  perstLow : Bool := false
  pfailLow : Bool := false
  /-- an image captured and not yet committed (R605), and the reset that waits for it: its LAST_RESET cause -/
  savePend : Option SaveImg := none
  saveReset : Option Nat := none
  /-- a channel migration that the boot has to finish (R373) -/
  migDue : Option Nat := none
  /-- granules that the boot has to scrub (R546) -/
  scrubDue : List Nat := []
  deriving DecidableEq, Repr

/-- The firmware areas of a new part: area 0 is complete. -/
def areaDefault : Nat → FwArea := fun k => if k = 0 then { valid := true } else {}

/-- What every reset keeps (R577): fuses, the save store, Beacon's persistent settings, the boot flash. DESIGN CHOICE (assumption 3). -/
structure Perm where
  lastReset : Nat := 0
  /-- sparing records (R643) -/
  spares : List SpareRec := []
  /-- channels retired over the life of the part (R368) -/
  retired : List Nat := []
  /-- powered hours before the last reset -/
  hours : Nat := 0
  /-- life-cycle state, ownership steps used, the owner's key hash, the identity seed (R524, R536) -/
  lc : Nat := 0
  ownSteps : Nat := 0
  ownerHash : List Byte := []
  seed : Option Nat := none
  /-- the tamper latch, and a clear of it that waits for a cold reset (R539) -/
  tamper : Bool := false
  tamperClear : Bool := false
  /-- the key-epoch record (R522) -/
  epochHi : Nat := 0
  epochCnt : Nat := 0
  /-- trimmed margins and fused VMIN of the quadrants in mV (R588, R589) -/
  margins : SMap Nat := []
  vmin : SMap Nat := []
  /-- the boot header and the two firmware areas (R615); area 0 is the one a new part runs -/
  activeArea : Nat := 0
  trial : Bool := false
  /-- components whose trial check failed, if the last trial failed (R630) -/
  trialBad : Option Nat := none
  areas : SMap FwArea := []
  /-- the B area holds a staged set, and its CHANGED components (R625) -/
  fwStaged : Bool := false
  fwChanged : Nat := 0
  /-- the one-time-programmable SVN counters of components 1 to 7 (R621) -/
  svn : SMap Nat := []
  /-- the settings format (R632) -/
  settings : Nat := 0
  /-- the save store: the image, SAVE_STATUS.IMAGE, the saves over its life, the duration of the last write in µs (R608, R614) -/
  image : Option SaveImg := none
  imageState : Nat := 0
  saveCount : Nat := 0
  saveUs : Nat := 0
  /-- what the next start finds: 0 nothing new, 1 a committed image, 2 a save that was not committed (R610) -/
  saveMark : Nat := 0
  /-- records listed in HELD_DATA (R579) -/
  held : List Rec := []
  deriving DecidableEq, Repr

/-- The state of the block: what a cold reset clears, what it keeps, and the commands that wait, first in, first out. -/
structure State where
  core : Core
  perm : Perm
  pending : List Instr
  deriving DecidableEq, Repr

/-- The block right after a cold reset (R577): every register at its reset value (`Reg.reset`, Regs.lean), every queue, memory
and unit empty, no sparing record and no fuse blown (assumption 3). DESIGN CHOICE (assumption 3). -/
def State.reset : State := { core := {}, perm := {}, pending := [] }

/-- Why the block stops where the spec names no effect. -/
inductive Fault where
  /-- A BAR0 access names an offset of 64 MiB or more, which BAR0 does not have (R551). Raised by REGISTER_WRITE, RC_READ and
  RC_LOWER_WORD_READ. Safe: no such access reaches the device. -/
  | outsideBar0
  deriving DecidableEq, Repr

/-- Why the block refuses a command. -/
inductive Refusal where
  /-- A command that has no meaning yet. Raised by exec alone. Safe. -/
  | notModelled (mnemonic : String)
  /-- An access to a register of the debug block at BAR0 0x00A0_0000, whose registers the spec does not give (R552). Raised by
  REGISTER_WRITE, RC_READ and RC_LOWER_WORD_READ. Safe: nothing is claimed of the access. -/
  | debugBlock
  deriving DecidableEq, Repr

/-- A command whose effect is on the volatile part alone. -/
def State.on (s : State) (f : Core → Core) : Host.Outcome State Fault Refusal := .next { s with core := f s.core }

end Sys2Proof.Machine
end

