-- ==== Sys2Proof/Machine/Ops.lean ====
section
/-! DEFINITION. Ops.lean: the named operations every meaning is written over: registers, events, units and their owners,
the memories, items and their records. -/

namespace Sys2Proof.Machine

/-! ### Registers -/

/-- The word of instance `i` of a register. -/
def Core.rd (c : Core) (r : Reg) (i : Nat := 0) : Nat := (c.regs.get (fun _ => BitVec.ofNat 64 r.reset) (r.at i)).toNat

/-- Write the word of instance `i` of a register. -/
def Core.wr (c : Core) (r : Reg) (i : Nat) (v : Nat) : Core :=
  { c with regs := c.regs.put (fun _ => BitVec.ofNat 64 r.reset) (r.at i) (BitVec.ofNat 64 v) }

/-- The value of a field of instance `i`. -/
def Core.rf (c : Core) (f : Fld) (i : Nat := 0) : Nat := bits (c.rd f.reg i) f.hi f.lo

/-- Write a field of instance `i`. -/
def Core.wf (c : Core) (f : Fld) (i : Nat) (v : Nat) : Core := c.wr f.reg i (setBits (c.rd f.reg i) f.hi f.lo v)

/-- Whether a one-bit field is set. -/
def Core.flag (c : Core) (f : Fld) (i : Nat := 0) : Bool := c.rf f i == 1

/-- The largest value of a field. -/
def Fld.top (f : Fld) : Nat := 2 ^ (f.hi + 1 - f.lo) - 1

/-- Add to a counter field, which saturates (R14). -/
def Core.count (c : Core) (f : Fld) (i : Nat := 0) (n : Nat := 1) : Core := c.wf f i (min (c.rf f i + n) f.top)

/-- Raise a high-water field to at least `n`. -/
def Core.peak (c : Core) (f : Fld) (i : Nat) (n : Nat) : Core := c.wf f i (min (max (c.rf f i) n) f.top)

/-- The register's own reset value comes back. -/
def Core.resetReg (c : Core) (r : Reg) (i : Nat := 0) : Core := c.wr r i r.reset

/-- Every register in [lo, hi) takes its reset value. -/
def Core.resetRange (c : Core) (lo hi : Nat) : Core :=
  { c with regs := c.regs.keepIf (fun k => decide (k < lo) || decide (hi ≤ k)) }

/-! ### Events -/

/-- Present an event to the event collector (R54-R56). -/
def Core.post (c : Core) (e : Evt) : Core := { c with evtBuf := c.evtBuf ++ [e] }

/-- Post an event from its parts. -/
def Core.evt (c : Core) (cls source part code : Nat) (info0 : Nat := 0) (info1 : Nat := 0) : Core :=
  c.post ⟨cls, source, part, code, info0 % 2 ^ 64, info1 % 2 ^ 64⟩

/-- Send a message on a link. DESIGN CHOICE (assumption 86). -/
def Core.send (c : Core) (kind : Nat) (args : List Nat) : Core := { c with out := c.out ++ [⟨kind, args⟩] }

/-- Raise an MSI-X vector of a function (R569). DESIGN CHOICE (assumption 86). -/
def Core.msix (c : Core) (fn vec : Nat) : Core := c.send 0 [fn, vec]

/-- A fresh value the spec leaves open. DESIGN CHOICE (assumption 5). -/
def Core.fresh (c : Core) : Word × Core := (Config.freeWord c.free, { c with free := c.free + 1 })

/-! ### Tiles, groups and partitions -/

def Core.tile (c : Core) (t : Nat) : Tile := c.tiles.get (fun _ => {}) t
def Core.setTile (c : Core) (t : Nat) (x : Tile) : Core := { c with tiles := c.tiles.put (fun _ => {}) t x }
def Core.part (c : Core) (p : Nat) : Part := c.parts.get (fun _ => {}) p
def Core.setPart (c : Core) (p : Nat) (x : Part) : Core := { c with parts := c.parts.put (fun _ => {}) p x }

/-- The physical tile that serves a logical tile; none when the index is unmapped (R37). -/
def Core.phys (c : Core) (l : Nat) : Option Nat := c.map.get mapDefault l

/-- The logical tile that a physical tile serves, if any (R189 MAP). -/
def Core.logical (c : Core) (t : Nat) : Option Nat :=
  (upFrom (16 * (t / 17)) 16).find? (fun l => c.phys l == some t)

/-- The tile group of a physical tile, of a logical tile; the quadrant of a tile group (R20, R21). -/
def groupOfPhys (t : Nat) : Nat := t / 17
def groupOfLogical (l : Nat) : Nat := l / 16
def quadOfGroup (g : Nat) : Nat := g / 4

/-- States of a partition (R515). -/
def pFREE : Nat := 0
def pACTIVE : Nat := 1
def pDRAINING : Nat := 2
def pSCRUBBING : Nat := 3

def Core.pstate (c : Core) (p : Nat) : Nat := c.rf Regs.PART_STATE_STATE p

/-- Whether partition p owns tile group g (R26). -/
def Core.ownsGroup (c : Core) (p g : Nat) : Bool := c.pstate p != pFREE && bitOf (c.rf Regs.PART_TILE_GROUPS_GROUPS p) g

/-- The tile groups of a partition, in increasing number. -/
def Core.groups (c : Core) (p : Nat) : List Nat := (List.range 16).filter (c.ownsGroup p)

/-- The partition that owns a tile group, if any. -/
def Core.partOfGroup (c : Core) (g : Nat) : Option Nat := (List.range 16).find? (fun p => c.ownsGroup p g)

/-- The partition's mapped logical tiles in increasing index (R179). -/
def Core.ltiles (c : Core) (p : Nat) : List Nat :=
  ((c.groups p).flatMap (fun g => upFrom (16 * g) 16)).filter (fun l => (c.phys l).isSome)

/-- The lead engine of a partition: its lowest tile group (R28). -/
def Core.lead (c : Core) (p : Nat) : Nat := ((c.groups p).head?).getD 0

/-- The partition's step counter (R28). -/
def Core.stepOf (c : Core) (p : Nat) : Nat := c.rf Regs.UPD_STEP_STEP (c.lead p)

/-- The data-movement engine of a logical tile (R22). -/
def dmeOf (l : Nat) : Nat := 4 * (l / 16) + (l % 16) % 4

/-! ### Banks and the scratchpad (R327, R328, R336-R341) -/

/-- Bank states of R355. -/
def bkOFF : Nat := 0
def bkCLEARING : Nat := 1
def bkON : Nat := 2
def bkRETAIN : Nat := 3

/-- The state of logical bank b of a physical tile. -/
def Core.bankState (c : Core) (t b : Nat) : Nat := bits (c.rf Regs.TILE_BANK_STATE_STATE t) (2 * b + 1) (2 * b)

def Core.setBankState (c : Core) (t b v : Nat) : Core :=
  c.wf Regs.TILE_BANK_STATE_STATE t (setBits (c.rf Regs.TILE_BANK_STATE_STATE t) (2 * b + 1) (2 * b) v)

/-- The physical bank that serves logical bank b (R328). -/
def Core.physBank (c : Core) (t b : Nat) : Nat :=
  if c.flag Regs.TILE_BANK_MAP_SPARE_USED t && c.rf Regs.TILE_BANK_MAP_SPARE_FOR t == b then 24 else b

/-- Bytes of a bank. -/
def bankBytes : Nat := 131072

/-- The key of a byte of a physical bank in `Core.scratch`. -/
def bankKey (t pb o : Nat) : Nat := (t * 25 + pb) * bankBytes + o

/-- The key of the byte at an offset of a physical tile's space 0x0 (R327). -/
def Core.scratchKey (c : Core) (t o : Nat) : Nat := bankKey t (c.physBank t (o / bankBytes)) (o % bankBytes)

/-- The reset contents of a byte that nothing has written: zero (assumption 6). DESIGN CHOICE (assumption 6). -/
def zeroByte : Nat → Byte := fun _ => 0

/-- The canonical form of a byte memory: addresses strictly rising, no listed byte zero. -/
def Memory.wf (m : SMap Byte) : Bool := m.wf zeroByte

/-- Every byte of a physical bank reads zero. -/
def Core.clearBank (c : Core) (t pb : Nat) : Core :=
  { c with scratch := c.scratch.keepIf (fun k => decide (k / bankBytes ≠ t * 25 + pb)) }

/-- Umbra banks: logical banks 22 and 23 of logical tiles 0 to 7 of a group (R349). -/
def isUmbra (l b : Nat) : Bool := decide (l % 16 < 8) && decide (22 ≤ b)

/-- Start the power-up of an off or retained bank (R338, R341). -/
def Core.wakeBank (c : Core) (t b : Nat) : Core :=
  let st := c.bankState t b
  if st = bkOFF then
    (((c.clearBank t (c.physBank t b)).setBankState t b bkCLEARING).count Regs.TILE_BANK_WAKES_COUNT t).wr
      Regs.TILE_BANK_ERRS (3 * t + b / 8)
      (setBits (c.rd Regs.TILE_BANK_ERRS (3 * t + b / 8)) (8 * (b % 8) + 7) (8 * (b % 8)) 0)
  else if st = bkRETAIN then
    (c.setBankState t b bkON).count Regs.TILE_BANK_WAKES_COUNT t
  else c

/-- Turn a bank off: its contents are lost (R336). -/
def Core.bankOff (c : Core) (t b : Nat) : Core := (c.clearBank t (c.physBank t b)).setBankState t b bkOFF

/-- Wake every bank that a byte range of a tile touches (R337, R338). -/
def Core.wakeRange (c : Core) (t o n : Nat) : Core :=
  if n = 0 then c
  else threadAll (fun c b => c.wakeBank t b) c (upFrom (o / bankBytes) ((o + n - 1) / bankBytes + 1 - o / bankBytes))

/-- Read n bytes of a physical tile's space 0x0 from offset o. -/
def Core.readScratch (c : Core) (t o n : Nat) : List Byte :=
  (upFrom o n).map (fun a => c.scratch.get zeroByte (c.scratchKey t a))

/-- Write bytes to a physical tile's space 0x0 from offset o. -/
def Core.writeScratch (c : Core) (t o : Nat) (bs : List Byte) : Core :=
  let c := c.wakeRange t o bs.length
  let put := fun (m : SMap Byte) (e : Nat × Byte) => m.put zeroByte (c.scratchKey t e.1) e.2
  { c with scratch := threadAll put c.scratch ((upFrom o bs.length).zip bs) }

/-! ### Device memory, host memory, Umbra -/

/-- Bytes of a granule (R365). -/
def granuleBytes : Nat := 0x10000000

/-- The device physical address of a byte of a partition's view, if an owned granule carries its window (R140, R365). -/
def Core.viewToDpa (c : Core) (p off : Nat) : Option Nat :=
  match (List.range 372).find? (fun i => c.rf Regs.MEM_GRANULE_OWNER_PART i == p && c.rf Regs.MEM_GRANULE_OWNER_VIEW i == off / granuleBytes) with
  | some i => some (i * granuleBytes + off % granuleBytes)
  | none => none

/-- Whether every byte of a view range lies in an owned window. -/
def Core.viewOk (c : Core) (p off n : Nat) : Bool :=
  (upFrom (off / granuleBytes) ((off + (max n 1) - 1) / granuleBytes + 1 - off / granuleBytes)).all
    (fun w => decide (w < 4096) && (c.viewToDpa p (w * granuleBytes)).isSome)

/-! ### Channels (R356, R359) -/

/-- The active channels in increasing number (R359). -/
def Core.activeChannels (c : Core) : List Nat := (List.range 48).filter (bitOf (c.rf Regs.MEM_MEM_STATUS_ACTIVE))

/-- The channel and the channel offset of a DPA under a list of active channels (R359). -/
def channelOf (active : List Nat) (d : Nat) : Nat × Nat :=
  let n := active.length
  let u := d / 256
  let row := u / n
  let f := (bits row 5 0 ^^^ bits row 11 6) ^^^ (bits row 17 12 ^^^ bits row 22 18)
  ((active[(u % n + f) % n]?).getD 0, 256 * row + d % 256)

/-- The channel that serves a DPA: during the re-interleave the new hash holds at and above the frontier (R359, R371). -/
def Core.serves (c : Core) (d : Nat) : Nat × Nat :=
  let old := c.activeChannels
  let new := old.filter (· != c.rf Regs.MEM_MIG_STATUS_CHANNEL)
  channelOf (if c.rf Regs.MEM_MIG_STATUS_STEP = 2 ∧ c.rf Regs.MEM_MIG_FRONTIER_DPA ≤ d then new else old) d

/-- Whether the channel that serves a DPA has failed: every access to it fails (R364, R369). -/
def Core.channelFailed (c : Core) (d : Nat) : Bool := !c.failedCh.isEmpty && c.failedCh.contains (c.serves d).1

/-- The byte of view offset `v` at device address `d` under a memory key (R366, R679): what was written under that key, else a foreign byte. -/
def Core.dramByte (c : Core) (key v d : Nat) : Byte :=
  let w := c.dramKey.get (fun _ => 0) d
  if w = key then c.dram.get zeroByte d else Config.foreignByte key w v

/-- Write a byte of device memory under a memory key. -/
def Core.putDram (c : Core) (key d : Nat) (b : Byte) : Core :=
  { c with dram := c.dram.put zeroByte d b, dramKey := c.dramKey.put (fun _ => 0) d key }

def Core.readView (c : Core) (p off n : Nat) : List Byte :=
  (upFrom off n).map (fun a => match c.viewToDpa p a with | some d => c.dramByte (c.part p).key a d | none => 0)

def Core.writeView (c : Core) (p off : Nat) (bs : List Byte) : Core :=
  let put := fun (c : Core) (e : Nat × Byte) =>
    match c.viewToDpa p e.1 with | some d => c.putDram (c.part p).key d e.2 | none => c
  threadAll put c ((upFrom off bs.length).zip bs)

def Core.readHost (c : Core) (a n : Nat) : List Byte := (upFrom a n).map (fun x => c.host.get zeroByte x)

def Core.writeHost (c : Core) (a : Nat) (bs : List Byte) : Core :=
  let put := fun (m : SMap Byte) (e : Nat × Byte) => m.put zeroByte e.1 e.2
  { c with host := threadAll put c.host ((upFrom a bs.length).zip bs) }

/-- Bytes of Umbra that a partition owns (R350). -/
def Core.umbraBytes (c : Core) (p : Nat) : Nat := 0x200000 * (c.groups p).length

/-- The logical tile and the offset in its space 0x0 of byte o of space 0x6 (R350). -/
def Core.umbraPlace (c : Core) (p o : Nat) : Option (Nat × Nat) :=
  match (c.groups p)[o / 0x200000]? with
  | some g => some (16 * g + bits o 20 18, (22 + bits o 17 17) * bankBytes + o % bankBytes)
  | none => none

/-- The physical tile and offset of a byte of space 0x6, when its tile is mapped. -/
def Core.umbraPhys (c : Core) (p o : Nat) : Option (Nat × Nat) :=
  match c.umbraPlace p o with
  | some (l, a) => (c.phys l).map (fun t => (t, a))
  | none => none

/-- The lowest offset of a tile's space 0x0 that ordinary accesses may not reach: the Shadow store reservation and the Umbra
banks stand above it (R142, R180, R349). -/
def Core.ordinaryEnd (c : Core) (t l : Nat) : Nat :=
  let top := if l % 16 < 8 then 0x2C0000 else 0x300000
  top - 4096 * c.rf Regs.TILE_STASH_RES_PAGES t

/-! ### Items and records (R16, R59, R564-R571) -/

/-- Record slots in use: open items and waiting records of the partition (R570). -/
def Core.slotsUsed (c : Core) (p : Nat) : Nat :=
  (c.items.filter (fun i => i.part == p)).length + (c.recs.filter (fun r => r.part == p)).length

/-- Instance number of queue q of partition p in HIF's register arrays (R584). -/
def qi (p q : Nat) : Nat := q + 64 * p

def Core.item? (c : Core) (id : Nat) : Option Item := c.items.find? (fun i => i.id == id)

/-- Open an item: it takes the next number and holds a record slot (R570). DEDUCED (assumption 49). -/
def Core.openItem (c : Core) (i : Item) : Core :=
  let j : Item := { i with id := c.nextItem, openTick := c.tick }
  let c : Core := { c with items := c.items ++ [j], nextItem := c.nextItem + 1 }
  c.peak Regs.HIF_RECORDS_PEAK i.part (c.slotsUsed i.part)

/-- A submission queue whose ENABLE the host has cleared stops once it has no open item (R562). DEDUCED (assumption 47). -/
def Core.sqClear (c : Core) (p q : Nat) : Core :=
  if c.sqOff.contains (qi p q) && !c.items.any (fun i => i.part == p && i.sq == q && i.kind != .op) then
    ({ c with sqOff := c.sqOff.filter (· != qi p q) } : Core).wf Regs.HIF_SQ_CFG_ENABLE (qi p q) 0
  else c

/-- Whether the device may open an item for a partition: a record slot is free (R570), fewer than 8,192 items are open (R609), and
VSAVE is charged (R607). -/
def Core.canOpen (c : Core) (p : Nat) : Bool :=
  decide (c.slotsUsed p < 4096) && decide (c.items.length < 8192) && c.flag Regs.PWR_PWR_STATUS_VSAVE_CHARGED

/-- End an item with a status, which is KEY_REVOKED once the partition's keys are revoked (R542): its record goes to its slot (R16, R570); `own` tells that its own completion ends it, which
posts ITEM_COMPLETED when its queue asks for it (R569). -/
def Core.endItem (c : Core) (id status : Nat) (own : Bool) : Core :=
  match c.item? id with
  | none => c
  | some i =>
    let late := (c.part i.part).revoked
    let status := if late then St.KEY_REVOKED else status
    let own := own && !late
    let r : Rec :=
      { part := i.part, cq := i.cq, tag := i.tag, status := status, sq := i.sq
        origin := if i.kind = .op then 1 else 0
        ltile := i.ltile, entry := i.entry, info := i.info, ts := c.ts }
    let c := { c with items := c.items.filter (fun j => j.id != id), recs := c.recs ++ [r] }
    let c := if c.pstate i.part = pDRAINING then (let x := c.part i.part; c.setPart i.part { x with drainEnded := x.drainEnded + 1 }) else c
    let c := c.sqClear i.part i.sq
    if own && c.flag Regs.HIF_CQ_CFG_EVT (qi i.part i.cq) then
      c.evt Cls.completion i.source i.part 0x0D0A (status + i.cq * 2 ^ 16 + r.origin * 2 ^ 22) i.tag
    else c

/-- Change an open item. -/
def Core.updItem (c : Core) (id : Nat) (f : Item → Item) : Core :=
  { c with items := c.items.map (fun i => if i.id = id then f i else i) }

/-! ### Operations and tokens (R155-R160) -/

def Tile.token (t : Tile) (k : Nat) : Token := t.tok.get (fun _ => {}) k
def Tile.setToken (t : Tile) (k : Nat) (x : Token) : Tile := { t with tok := t.tok.put (fun _ => {}) k x }

/-- Lower a token's count and record a first failure (R157). -/
def Tile.signalToken (t : Tile) (k status : Nat) : Tile :=
  let x := t.token k
  t.setToken k { count := x.count - 1, status := if x.status = 0 then status else x.status }

def Core.op? (c : Core) (id : Nat) : Option AOp := c.ops.find? (fun o => o.id == id)
def Core.updOp (c : Core) (id : Nat) (f : AOp → AOp) : Core :=
  { c with ops := c.ops.map (fun o => if o.id = id then f o else o) }

end Sys2Proof.Machine
end

