-- ==== Sys2Proof/Machine/Events.lean ====
section
/-! DEFINITION. Events.lean: event records, event queues and the device log (R67-R76, R636). -/

namespace Sys2Proof.Machine

/-- The 32 bytes of an event record (R67). -/
def evtBytes (ts seq : Nat) (e : Evt) (phase : Bool) : List Byte :=
  leBytes 8 ts ++
  leBytes 8 (seq % 2 ^ 16 + e.cls * 2 ^ 16 + e.source * 2 ^ 20 + e.part * 2 ^ 32 + e.code * 2 ^ 40 + b2n phase * 2 ^ 63) ++
  leBytes 8 e.info0 ++ leBytes 8 e.info1

/-! ### The device log (R75) -/

def logDefault : Nat → LogEnt := fun _ => {}

/-- Write an event to the device log, or count it as lost while the log is frozen. -/
def Core.logEvent (c : Core) (seq : Nat) (e : Evt) : Core :=
  if c.flag Regs.EVT_LOG_CTRL_FREEZE then c.count Regs.EVT_LOG_LOST_LOST
  else
    let h := c.rf Regs.EVT_LOG_HEAD_HEAD
    let old := c.log.get logDefault h
    let c := if old.valid && !old.read then c.count Regs.EVT_LOG_LOST_LOST else c
    let c : Core := { c with log := c.log.put logDefault h { valid := true, ts := c.ts, seq := seq, evt := e } }
    c.wf Regs.EVT_LOG_HEAD_HEAD 0 ((h + 1) % 4096)

/-- The bytes of the log entry at LOG_INDEX. -/
def Core.logBytes (c : Core) : List Byte :=
  let x := c.log.get logDefault (c.rf Regs.EVT_LOG_INDEX_INDEX)
  if x.valid then evtBytes x.ts x.seq x.evt false else List.replicate 32 0

/-! ### Event queues (R69-R74) -/

def Core.evq? (c : Core) (n : Nat) : QHid := c.evq.get (fun _ => {}) n
def Core.setEvq (c : Core) (n : Nat) (q : QHid) : Core := { c with evq := c.evq.put (fun _ => {}) n q }

/-- Unread records of a queue (R72). -/
def Core.evUnread (c : Core) (n : Nat) : Nat :=
  let s := max (c.evq? n).size 1
  (c.rf Regs.EVT_Q_TAIL_TAIL n + s - c.rf Regs.EVT_Q_HEAD_HEAD n % s) % s

/-- The function whose MSI-X vectors a queue raises (R69). DEDUCED (assumption 50). -/
def Core.evVector (c : Core) (n : Nat) : Core :=
  let q := c.evq? n
  (c.setEvq n { q with unsignalled := 0 }).msix n (c.rf Regs.EVT_Q_CTRL_VECTOR n)

/-- Write a record into the next slot of a queue and raise its vector when R74 asks for it. -/
def Core.evPut (c : Core) (n seq : Nat) (e : Evt) : Core :=
  let q := c.evq? n
  let t := c.rf Regs.EVT_Q_TAIL_TAIL n
  let c := c.writeHost (q.base + 32 * t) (evtBytes c.ts seq e q.phase)
  let wrap := t + 1 == q.size
  let c := c.setEvq n { q with
    phase := if wrap then !q.phase else q.phase
    unsignalled := q.unsignalled + 1
    firstTick := if q.unsignalled = 0 then c.tick else q.firstTick }
  let c := c.wf Regs.EVT_Q_TAIL_TAIL n (if wrap then 0 else t + 1)
  if e.cls ≤ 4 ∨ max 1 (c.rf Regs.EVT_Q_MOD_COUNT n) ≤ c.evUnread n then c.evVector n else c

/-- Judge an event for a queue (R71-R73); from supply loss on only the device log takes events (R605). -/
def Core.evJudge (c : Core) (n seq : Nat) (e : Evt) : Core :=
  if c.lost || decide (c.rf Regs.EVT_Q_CTRL_CLASS_MAX n < e.cls) then c
  else if !c.flag Regs.EVT_Q_STATUS_ACTIVE n then c.count Regs.EVT_Q_DROPPED_DROPPED n
  else
    let u := c.evUnread n
    let s := (c.evq? n).size
    if s ≤ u + 1 then c.count Regs.EVT_Q_DROPPED_DROPPED n
    else if u + 2 = s then
      let part := if n = 0 then devPart else n - 1
      let c := c.evPut n seq ⟨Cls.info, Src.timebase, part, 0x0105, n, 0⟩
      (c.wf Regs.EVT_Q_STATUS_OVERFLOW n 1).count Regs.EVT_Q_DROPPED_DROPPED n
    else c.evPut n seq e

/-- Sample an event at a tick: the log, its queue, the copy in queue 0, and what its class does to DEV (R69, R75, R636). -/
def Core.sample (c : Core) (seq : Nat) (e : Evt) : Core :=
  let c := c.logEvent seq e
  let c := if e.part = devPart then c.evJudge 0 seq e
    else
      let c := c.evJudge (e.part + 1) seq e
      if c.flag Regs.EVT_Q_CTRL_COPY_ALL 0 then c.evJudge 0 seq e else c
  if e.cls ≤ 3 then
    let c := if c.fatalSeen then c
      else ({ c with fatalSeen := true } : Core).wr Regs.DEV_FATAL_INFO 0 (e.code + e.source * 2 ^ 16 + e.cls * 2 ^ 28)
    if e.cls = 3 then c.wf Regs.DEV_STATUS_FATAL 0 1 else c
  else c

/-- Events in the order of R56. -/
def evtLe (a b : Evt) : Bool := decide (a.cls < b.cls) || (a.cls == b.cls && decide (a.source ≤ b.source))

/-- Split what waits at the collector into one event of each source and the rest (R55). -/
def onePerSource (es : List Evt) : List Evt × List Evt :=
  es.foldl (fun (acc : List Evt × List Evt) e =>
    if acc.1.any (fun x => x.source == e.source) then (acc.1, acc.2 ++ [e]) else (acc.1 ++ [e], acc.2)) ([], [])

/-- Sample the events of a tick in order, numbering them with SEQ (R56, R67). -/
def Core.sampleAll (c : Core) : Core :=
  let (now, later) := onePerSource c.evtBuf
  let es := now.mergeSort evtLe
  threadAll (fun c (e : Evt × Nat) => c.sample e.2 e.1) { c with evtBuf := later } es.zipIdx

/-! ### Register writes of event queues (R72, R73, R76) -/

/-- A write of Q_CTRL. -/
def Core.qCtrl (c : Core) (n w : Nat) : Core :=
  let was := c.flag Regs.EVT_Q_CTRL_ENABLE n
  let size := c.rf Regs.EVT_Q_SIZE_SIZE n
  let copy := if n = 0 then bits w 1 1 else 0
  let rest := copy * 2 + bits w 7 4 * 16 + bits w 26 16 * 2 ^ 16
  if bitOf w 0 && !was then
    if isPow2 size && decide (64 ≤ size) && decide (size ≤ 65536) then
      let c := c.setEvq n { base := c.rf Regs.EVT_Q_BASE_BASE n * 4096, size := size }
      let c := (c.wf Regs.EVT_Q_TAIL_TAIL n 0).wf Regs.EVT_Q_HEAD_HEAD n 0
      (c.wr Regs.EVT_Q_CTRL n (rest + 1)).wf Regs.EVT_Q_STATUS_ACTIVE n 1
    else (c.wr Regs.EVT_Q_CTRL n rest).wf Regs.EVT_Q_STATUS_CFG_ERR n 1
  else
    let c := c.wr Regs.EVT_Q_CTRL n (rest + b2n (bitOf w 0))
    if bitOf w 0 then c else c.wf Regs.EVT_Q_STATUS_ACTIVE n 0

/-- A write of Q_HEAD. -/
def Core.qHead (c : Core) (n w : Nat) : Core :=
  let size := if c.flag Regs.EVT_Q_STATUS_ACTIVE n then (c.evq? n).size else c.rf Regs.EVT_Q_SIZE_SIZE n
  if size ≤ w then c.wf Regs.EVT_Q_STATUS_CFG_ERR n 1 else c.wf Regs.EVT_Q_HEAD_HEAD n w

/-- EVT_Q_ENABLE: a write of the Q_CTRL of queue n (R76). -/
def execEvtQEnable (n : FnId) (w : Word) (s : State) : Host.Outcome State Fault Refusal := s.on (fun c => c.qCtrl n.val w.toNat)

/-- EVT_Q_HEAD_WRITE: a write of the Q_HEAD of queue n (R72, R76). -/
def execEvtQHeadWrite (n : FnId) (w : Word) (s : State) : Host.Outcome State Fault Refusal := s.on (fun c => c.qHead n.val w.toNat)

/-- EVT_QUEUE_WRITE_FAIL: the host-memory write of the newest record of queue n has failed (R73). What stands in its slot is
open. DESIGN CHOICE (assumption 39). -/
def execEvtQueueWriteFail (n : FnId) (s : State) : Host.Outcome State Fault Refusal :=
  s.on (fun c =>
    let q := c.evq? n.val
    if !c.flag Regs.EVT_Q_STATUS_ACTIVE n.val || c.evUnread n.val == 0 then c
    else
      let t := c.rf Regs.EVT_Q_TAIL_TAIL n.val
      let t' := if t = 0 then q.size - 1 else t - 1
      let junk := fun (c : Core) (k : Nat) => (let (w, c) := c.fresh; c.writeHost (q.base + 32 * t' + 8 * k) (leBytes 8 w.toNat))
      let c := threadAll junk c [0, 1, 2, 3]
      let c := c.setEvq n.val { q with unsignalled := q.unsignalled - 1 }
      let c := (c.wf Regs.EVT_Q_TAIL_TAIL n.val t').count Regs.EVT_Q_DROPPED_DROPPED n.val
      ((c.wf Regs.EVT_Q_CTRL_ENABLE n.val 0).wf Regs.EVT_Q_STATUS_ACTIVE n.val 0).wf Regs.EVT_Q_STATUS_WRITE_ERR n.val 1)

/-- EVT_Q_MOD_TIMER: TIMER ticks have passed since the first record not yet signalled (R74). -/
def execEvtQModTimer (n : FnId) (s : State) : Host.Outcome State Fault Refusal :=
  s.on (fun c =>
    let q := c.evq? n.val
    let timer := c.rf Regs.EVT_Q_MOD_TIMER n.val
    if timer == 0 || q.unsignalled == 0 || decide (c.tick < q.firstTick + timer) then c else c.evVector n.val)

/-- LOG_DATA_READ: a read of the last word of LOG_DATA marks the entry read (R75, R76). -/
def execLogDataRead (s : State) : Host.Outcome State Fault Refusal :=
  s.on (fun c =>
    let i := c.rf Regs.EVT_LOG_INDEX_INDEX
    let x := c.log.get logDefault i
    let v := leNat ((c.logBytes).drop 24)
    { c with resp := .data (BitVec.ofNat 64 v), log := if x.valid then c.log.put logDefault i { x with read := true } else c.log })

end Sys2Proof.Machine
end

