-- ==== Sys2Proof/Machine/Crc.lean ====
section
/-! DEFINITION. Crc.lean: the CRC-64 of R492 and the CRC-32 of R412. -/

namespace Sys2Proof.Machine

/-- Shift the CRC-64 register of ECMA-182 by n bits. -/
def crc64Shift : Nat → Nat → Nat
  | 0, r => r
  | n + 1, r => crc64Shift n (if r < 2 ^ 63 then 2 * r else (2 * r % 2 ^ 64) ^^^ 0x42F0E1EBA9EA3693)

/-- CRC-64 of ECMA-182: initial value 0, no reflection, no final XOR (R492). -/
def crc64 (bs : List Byte) : Nat := bs.foldl (fun r b => crc64Shift 8 (r ^^^ (b.toNat * 2 ^ 56))) 0

/-- Shift the reflected CRC-32 register of IEEE 802.3 by n bits. -/
def crc32Shift : Nat → Nat → Nat
  | 0, r => r
  | n + 1, r => crc32Shift n (if r % 2 = 0 then r / 2 else (r / 2) ^^^ 0xEDB88320)

/-- CRC-32 of IEEE 802.3. -/
def crc32 (bs : List Byte) : Nat := (bs.foldl (fun r b => crc32Shift 8 (r ^^^ b.toNat)) 0xFFFFFFFF) ^^^ 0xFFFFFFFF

end Sys2Proof.Machine
end

