-- ==== Sys2Proof/Machine/Dioth.lean ====
section
/-! DEFINITION. Dioth.lean: the Dioth-2 encoding (R132-R136, R190, R194, R197, R233, R680): opcodes, the fields each one uses,
the words of an instruction, and the decoder of a tile's instruction memory. -/

namespace Sys2Proof.Machine

/-- The opcodes of the scalar format (R195, R201, R228). -/
inductive SOp where
  | NOP | ADD | SUB | MUL | DIVU | REMU | AND | OR | XOR | SHL | SHR | SAR | MINS | MAXS | TADDR | SYSV | CMPEQ | CMPNE | CMPLT | CMPLTU | CMPGE | CMPGEU | PAND | POR | PXOR | BR | BRI | CALL | HALT 
  | LD1 | LD2 | LD4 | LD8 | ST1 | ST2 | ST4 | ST8 | LDT | STT | LDS1 | LDS2 | LDS4 
  | WAIT | WAITT | SIGNAL | WAITF | WAITFC | PHASE | EVENT | CQPOST | STEST
  deriving DecidableEq, Repr

/-- The opcodes of the tensor format (R202-R231). -/
inductive TOp where
  | COPY | FILL | GATHER | SCATTER | MM | MMSP | MMBS | MM32 
  | VADD | VSUB | VMUL | VFMA | VMAX | VMIN | VCVT | VSCALE | VRSUM | VRMAX | VNORMSQ | VEXP | VRECIP | VRSQRT | VSOFTMAX | CBLOAD | ENCODE | DECODE | ENC16 
  | SRELU | SDROP | SABS | SCLAMP | GRELU | GDROP | GABS | GCLAMP | GRELUX | GDROPX | GABSX | GCLAMPX 
  | RPUT | RGET | RATOM | RSEND | RRECV | RSCAT | AGATH | A2A | RING | AUDIT | CKPT 
  | UPDATE | UPDPROG | LSCALE | EXPORT | ROWUPD | ROUTE | CFGBEGIN | CFGWR | CFGCOMMIT | CFGRBACK
  deriving DecidableEq, Repr

/-- How many low bits of d, a, b and imm37 an opcode uses; every other bit of them is reserved (R197, R201, R228). -/
structure SUse where
  d : Nat
  a : Nat
  b : Nat
  imm : Nat
  deriving DecidableEq, Repr

/-- What a tensor-format opcode uses: its operands (R680), the modifier bits its entry defines, the largest rounding code (0:
it carries none), its phase mark (0 free, 1 forward-only, 2 backward-only: R166), its wide form (0 none, 1 allowed, 2 wide
only: R194, R233) and the reserved bits of its immediate. -/
structure TUse where
  major : Nat
  td : Bool
  ta : Bool
  tb : Bool
  tc : Bool
  mods : Nat
  rnd : Nat
  phase : Nat
  wide : Nat
  immReserved : Nat
  deriving DecidableEq, Repr

/-- The major opcode (R195, R201, R228). -/
def SOp.major : SOp → Nat
  | .NOP => 0x00
  | .ADD => 0x01
  | .SUB => 0x02
  | .MUL => 0x03
  | .DIVU => 0x04
  | .REMU => 0x05
  | .AND => 0x06
  | .OR => 0x07
  | .XOR => 0x08
  | .SHL => 0x09
  | .SHR => 0x0A
  | .SAR => 0x0B
  | .MINS => 0x0C
  | .MAXS => 0x0D
  | .TADDR => 0x0E
  | .SYSV => 0x0F
  | .CMPEQ => 0x10
  | .CMPNE => 0x11
  | .CMPLT => 0x12
  | .CMPLTU => 0x13
  | .CMPGE => 0x14
  | .CMPGEU => 0x15
  | .PAND => 0x16
  | .POR => 0x17
  | .PXOR => 0x18
  | .BR => 0x19
  | .BRI => 0x1A
  | .CALL => 0x1B
  | .HALT => 0x1F
  | .LD1 => 0x20
  | .LD2 => 0x21
  | .LD4 => 0x22
  | .LD8 => 0x23
  | .ST1 => 0x24
  | .ST2 => 0x25
  | .ST4 => 0x26
  | .ST8 => 0x27
  | .LDT => 0x28
  | .STT => 0x29
  | .LDS1 => 0x2A
  | .LDS2 => 0x2B
  | .LDS4 => 0x2C
  | .WAIT => 0xC0
  | .WAITT => 0xC1
  | .SIGNAL => 0xC2
  | .WAITF => 0xC3
  | .WAITFC => 0xC4
  | .PHASE => 0xC5
  | .EVENT => 0xC6
  | .CQPOST => 0xC7
  | .STEST => 0xC8

/-- The fields an opcode uses (R197, R201, R228). -/
def SOp.uses : SOp → SUse
  | .NOP => ⟨0, 0, 0, 0⟩
  | .ADD => ⟨5, 5, 5, 37⟩
  | .SUB => ⟨5, 5, 5, 37⟩
  | .MUL => ⟨5, 5, 5, 37⟩
  | .DIVU => ⟨5, 5, 5, 37⟩
  | .REMU => ⟨5, 5, 5, 37⟩
  | .AND => ⟨5, 5, 5, 37⟩
  | .OR => ⟨5, 5, 5, 37⟩
  | .XOR => ⟨5, 5, 5, 37⟩
  | .SHL => ⟨5, 5, 5, 37⟩
  | .SHR => ⟨5, 5, 5, 37⟩
  | .SAR => ⟨5, 5, 5, 37⟩
  | .MINS => ⟨5, 5, 5, 37⟩
  | .MAXS => ⟨5, 5, 5, 37⟩
  | .TADDR => ⟨4, 5, 5, 37⟩
  | .SYSV => ⟨5, 0, 0, 37⟩
  | .CMPEQ => ⟨3, 5, 5, 37⟩
  | .CMPNE => ⟨3, 5, 5, 37⟩
  | .CMPLT => ⟨3, 5, 5, 37⟩
  | .CMPLTU => ⟨3, 5, 5, 37⟩
  | .CMPGE => ⟨3, 5, 5, 37⟩
  | .CMPGEU => ⟨3, 5, 5, 37⟩
  | .PAND => ⟨3, 3, 3, 0⟩
  | .POR => ⟨3, 3, 3, 0⟩
  | .PXOR => ⟨3, 3, 3, 0⟩
  | .BR => ⟨0, 0, 0, 37⟩
  | .BRI => ⟨0, 5, 0, 37⟩
  | .CALL => ⟨5, 0, 0, 37⟩
  | .HALT => ⟨0, 0, 0, 0⟩
  | .LD1 => ⟨5, 5, 0, 37⟩
  | .LD2 => ⟨5, 5, 0, 37⟩
  | .LD4 => ⟨5, 5, 0, 37⟩
  | .LD8 => ⟨5, 5, 0, 37⟩
  | .ST1 => ⟨0, 5, 5, 37⟩
  | .ST2 => ⟨0, 5, 5, 37⟩
  | .ST4 => ⟨0, 5, 5, 37⟩
  | .ST8 => ⟨0, 5, 5, 37⟩
  | .LDT => ⟨4, 5, 0, 37⟩
  | .STT => ⟨4, 5, 0, 37⟩
  | .LDS1 => ⟨5, 5, 0, 37⟩
  | .LDS2 => ⟨5, 5, 0, 37⟩
  | .LDS4 => ⟨5, 5, 0, 37⟩
  | .WAIT => ⟨0, 0, 0, 16⟩
  | .WAITT => ⟨5, 0, 0, 16⟩
  | .SIGNAL => ⟨0, 5, 0, 21⟩
  | .WAITF => ⟨0, 0, 0, 37⟩
  | .WAITFC => ⟨0, 0, 0, 37⟩
  | .PHASE => ⟨0, 0, 0, 1⟩
  | .EVENT => ⟨5, 5, 5, 0⟩
  | .CQPOST => ⟨0, 5, 5, 6⟩
  | .STEST => ⟨3, 0, 0, 17⟩

/-- Whether the opcode may be the BASE of a scalar-wide form (R233). -/
def SOp.wideOk : SOp → Bool
  | .ADD | .SUB | .MUL | .DIVU | .REMU | .AND | .OR | .XOR | .SHL | .SHR | .SAR | .MINS | .MAXS | .TADDR | .CMPEQ | .CMPNE | .CMPLT | .CMPLTU | .CMPGE | .CMPGEU | .BRI | .LD1 | .LD2 | .LD4 | .LD8 | .ST1 | .ST2 | .ST4 | .ST8 | .LDT | .STT | .LDS1 | .LDS2 | .LDS4 => true
  | _ => false

/-- The entry of a tensor-format opcode. -/
def TOp.uses : TOp → TUse
  | .COPY => ⟨0x30, true, true, false, false, 0x0, 0, 0, 0, 0x0⟩
  | .FILL => ⟨0x31, true, false, false, false, 0x0, 0, 0, 1, 0xFFFFFFFF00000000⟩
  | .GATHER => ⟨0x32, true, true, true, false, 0x0, 0, 0, 0, 0x0⟩
  | .SCATTER => ⟨0x33, true, true, true, false, 0x0, 0, 0, 0, 0x0⟩
  | .MM => ⟨0x40, true, true, true, false, 0xF, 3, 0, 0, 0x0⟩
  | .MMSP => ⟨0x41, true, true, true, true, 0x1F, 3, 0, 0, 0x0⟩
  | .MMBS => ⟨0x42, true, true, true, true, 0xF, 3, 0, 0, 0x0⟩
  | .MM32 => ⟨0x43, true, true, true, false, 0xF, 3, 0, 0, 0x0⟩
  | .VADD => ⟨0x60, true, true, true, false, 0x7, 3, 0, 0, 0x0⟩
  | .VSUB => ⟨0x61, true, true, true, false, 0x7, 3, 0, 0, 0x0⟩
  | .VMUL => ⟨0x62, true, true, true, false, 0x7, 3, 0, 0, 0x0⟩
  | .VFMA => ⟨0x63, true, true, true, true, 0x7, 3, 0, 0, 0x0⟩
  | .VMAX => ⟨0x64, true, true, true, false, 0x7, 3, 0, 0, 0x0⟩
  | .VMIN => ⟨0x65, true, true, true, false, 0x7, 3, 0, 0, 0x0⟩
  | .VCVT => ⟨0x66, true, true, false, false, 0x7, 3, 0, 0, 0x0⟩
  | .VSCALE => ⟨0x67, true, true, false, false, 0x7FF, 3, 0, 0, 0x0⟩
  | .VRSUM => ⟨0x68, true, true, false, false, 0x7, 3, 0, 0, 0x0⟩
  | .VRMAX => ⟨0x69, true, true, false, false, 0x7, 3, 0, 0, 0x0⟩
  | .VNORMSQ => ⟨0x6A, true, true, false, false, 0x7, 3, 0, 0, 0x0⟩
  | .VEXP => ⟨0x6B, true, true, false, false, 0x7, 3, 0, 0, 0x0⟩
  | .VRECIP => ⟨0x6C, true, true, false, false, 0x7, 3, 0, 0, 0x0⟩
  | .VRSQRT => ⟨0x6D, true, true, false, false, 0x7, 3, 0, 0, 0x0⟩
  | .VSOFTMAX => ⟨0x6E, true, true, false, false, 0x7, 3, 0, 0, 0x0⟩
  | .CBLOAD => ⟨0x80, false, true, false, false, 0xF, 0, 0, 0, 0x0⟩
  | .ENCODE => ⟨0x81, true, true, true, false, 0x7, 4, 0, 0, 0x0⟩
  | .DECODE => ⟨0x82, true, true, false, false, 0x0, 0, 0, 0, 0x0⟩
  | .ENC16 => ⟨0x83, true, true, false, false, 0xFF, 4, 0, 0, 0x0⟩
  | .SRELU => ⟨0x90, true, true, false, false, 0x1FFFF, 0, 1, 0, 0x0⟩
  | .SDROP => ⟨0x91, true, true, false, false, 0x1FFFF, 0, 1, 2, 0x0⟩
  | .SABS => ⟨0x92, true, true, false, false, 0x1FFFF, 0, 1, 0, 0x0⟩
  | .SCLAMP => ⟨0x93, true, true, false, false, 0x1FFFF, 0, 1, 2, 0x0⟩
  | .GRELU => ⟨0x98, true, true, false, false, 0x1FFFF, 0, 2, 0, 0x0⟩
  | .GDROP => ⟨0x99, true, true, false, false, 0x1FFFF, 0, 2, 2, 0x0⟩
  | .GABS => ⟨0x9A, true, true, false, false, 0x1FFFF, 0, 2, 0, 0x0⟩
  | .GCLAMP => ⟨0x9B, true, true, false, false, 0x1FFFF, 0, 2, 0, 0x0⟩
  | .GRELUX => ⟨0x9C, true, true, false, true, 0x0, 0, 2, 0, 0x0⟩
  | .GDROPX => ⟨0x9D, true, true, false, false, 0x0, 0, 2, 2, 0x0⟩
  | .GABSX => ⟨0x9E, true, true, false, true, 0x0, 0, 2, 0, 0x0⟩
  | .GCLAMPX => ⟨0x9F, true, true, false, true, 0x0, 0, 2, 2, 0x0⟩
  | .RPUT => ⟨0xA0, true, true, false, false, 0x0, 0, 0, 2, 0xFFFFFFFC00000000⟩
  | .RGET => ⟨0xA1, true, true, false, false, 0x0, 0, 0, 2, 0xFFFFFFFC00000000⟩
  | .RATOM => ⟨0xA2, true, true, true, false, 0x1, 0, 0, 2, 0xFFFFFFFC00000000⟩
  | .RSEND => ⟨0xA3, false, true, false, false, 0x0, 0, 0, 2, 0xFFFFFFFFFFFF0000⟩
  | .RRECV => ⟨0xA4, true, false, false, false, 0x0, 0, 0, 2, 0xFFFFFFFFFFFF0000⟩
  | .RSCAT => ⟨0xA8, true, true, false, false, 0x1F, 0, 0, 0, 0x0⟩
  | .AGATH => ⟨0xA9, true, true, false, false, 0xF, 0, 0, 0, 0x0⟩
  | .A2A => ⟨0xAA, true, true, false, true, 0x1F, 0, 0, 0, 0x0⟩
  | .RING => ⟨0xAB, true, true, false, false, 0xF, 0, 0, 0, 0x0⟩
  | .AUDIT => ⟨0xAC, false, true, false, false, 0xF, 0, 0, 0, 0x0⟩
  | .CKPT => ⟨0xAD, true, true, false, false, 0x3, 0, 0, 0, 0x0⟩
  | .UPDATE => ⟨0xB0, true, true, true, false, 0x3FF, 0, 0, 0, 0x0⟩
  | .UPDPROG => ⟨0xB1, true, true, true, true, 0x3FF, 0, 0, 0, 0x0⟩
  | .LSCALE => ⟨0xB2, true, true, false, false, 0x0, 0, 0, 0, 0x0⟩
  | .EXPORT => ⟨0xB3, true, true, true, false, 0x0, 0, 0, 0, 0x0⟩
  | .ROWUPD => ⟨0xB4, false, true, true, false, 0xFF, 0, 0, 0, 0x0⟩
  | .ROUTE => ⟨0xB8, true, true, false, false, 0x1F, 0, 0, 2, 0xFFFFFFFF00000000⟩
  | .CFGBEGIN => ⟨0xD0, false, false, false, false, 0x0, 0, 0, 0, 0x0⟩
  | .CFGWR => ⟨0xD1, false, false, false, false, 0x7FFFFF, 0, 0, 2, 0x0⟩
  | .CFGCOMMIT => ⟨0xD2, false, false, false, false, 0x0, 0, 0, 0, 0x0⟩
  | .CFGRBACK => ⟨0xD3, false, false, false, false, 0x0, 0, 0, 0, 0x0⟩

/-- The opcodes of each format. -/
def SOp.all : List SOp := [.NOP, .ADD, .SUB, .MUL, .DIVU, .REMU, .AND, .OR, .XOR, .SHL, .SHR, .SAR, .MINS, .MAXS, .TADDR, .SYSV, .CMPEQ, .CMPNE, .CMPLT, .CMPLTU, .CMPGE, .CMPGEU, .PAND, .POR, .PXOR, .BR, .BRI, .CALL, .HALT, .LD1, .LD2, .LD4, .LD8, .ST1, .ST2, .ST4, .ST8, .LDT, .STT, .LDS1, .LDS2, .LDS4, .WAIT, .WAITT, .SIGNAL, .WAITF, .WAITFC, .PHASE, .EVENT, .CQPOST, .STEST]
def TOp.all : List TOp := [.COPY, .FILL, .GATHER, .SCATTER, .MM, .MMSP, .MMBS, .MM32, .VADD, .VSUB, .VMUL, .VFMA, .VMAX, .VMIN, .VCVT, .VSCALE, .VRSUM, .VRMAX, .VNORMSQ, .VEXP, .VRECIP, .VRSQRT, .VSOFTMAX, .CBLOAD, .ENCODE, .DECODE, .ENC16, .SRELU, .SDROP, .SABS, .SCLAMP, .GRELU, .GDROP, .GABS, .GCLAMP, .GRELUX, .GDROPX, .GABSX, .GCLAMPX, .RPUT, .RGET, .RATOM, .RSEND, .RRECV, .RSCAT, .AGATH, .A2A, .RING, .AUDIT, .CKPT, .UPDATE, .UPDPROG, .LSCALE, .EXPORT, .ROWUPD, .ROUTE, .CFGBEGIN, .CFGWR, .CFGCOMMIT, .CFGRBACK]
/-- The scalar opcode of a major opcode. -/
def SOp.ofMajor (m : Nat) : Option SOp := SOp.all.find? (fun o => o.major == m)
/-- The tensor opcode of a major opcode. -/
def TOp.ofMajor (m : Nat) : Option TOp := TOp.all.find? (fun o => o.uses.major == m)

/-- The configuration instructions carry no REC and CQ (R231). -/
def TOp.isCfg : TOp → Bool
  | .CFGBEGIN | .CFGWR | .CFGCOMMIT | .CFGRBACK => true
  | _ => false

/-- A decoded scalar-format instruction. -/
structure SIns where
  op : SOp
  guard : BitVec 3
  neg : Bool
  d : BitVec 5
  a : BitVec 5
  b : BitVec 5
  imm : BitVec 37
  wide : Option Word
  deriving DecidableEq, Repr

/-- A decoded tensor-format instruction. -/
structure TIns where
  op : TOp
  guard : BitVec 3
  neg : Bool
  td : BitVec 4
  ta : BitVec 4
  tb : BitVec 4
  tc : BitVec 4
  k : BitVec 4
  mods : BitVec 24
  wide : Option Word
  deriving DecidableEq, Repr

/-- A decoded instruction. -/
inductive Ins where
  | s (i : SIns)
  | t (i : TIns)
  deriving DecidableEq, Repr

/-- Reserved fields of a scalar-format instruction are zero (R136, R197); a wide form has no imm37. -/
def SIns.fieldsOk (i : SIns) : Bool :=
  let u := i.op.uses
  decide (i.d.toNat < 2 ^ u.d) && decide (i.a.toNat < 2 ^ u.a) && decide (i.b.toNat < 2 ^ u.b) &&
    match i.wide with
    | none => decide (i.imm.toNat < 2 ^ u.imm)
    | some _ => i.imm == 0

/-- The form exists: a wide form only of the opcodes of R233. -/
def SIns.formOk (i : SIns) : Bool := i.wide.isNone || i.op.wideOk

/-- Rounding codes above the largest one the entry allows are reserved (R82). -/
def TUse.rndOk (u : TUse) (mods : Nat) : Bool := u.rnd == 0 || decide (bits mods 2 0 ≤ u.rnd)

/-- Reserved fields and modifier values of a tensor-format instruction (R136, R190, R680, R231, R233). -/
def TIns.fieldsOk (i : TIns) : Bool :=
  let u := i.op.uses
  let m := i.mods.toNat
  (u.td || i.td == 0) && (u.ta || i.ta == 0) && (u.tb || i.tb == 0) && (u.tc || i.tc == 0) &&
  (if i.op.isCfg then (m &&& u.mods) == m
   else (m % 2 ^ 17 &&& u.mods) == m % 2 ^ 17 && (bitOf m 23 || bits m 22 17 == 0)) &&
  u.rndOk m &&
  match i.wide with
  | none => true
  | some w => (w.toNat &&& u.immReserved) == 0

/-- The form exists: wide only, or ordinary only, as R194 and R233 say. -/
def TIns.formOk (i : TIns) : Bool :=
  match i.wide with
  | none => i.op.uses.wide != 2
  | some _ => i.op.uses.wide != 0

/-- Well-formed instructions: the form exists and every reserved field is zero. -/
def SIns.wf (i : SIns) : Bool := i.formOk && i.fieldsOk
def TIns.wf (i : TIns) : Bool := i.formOk && i.fieldsOk

/-- The first word of a scalar-format instruction (R132). -/
def SIns.word (i : SIns) : Word :=
  let n : BitVec 1 := BitVec.ofBool i.neg
  match i.wide with
  | none => BitVec.ofNat 8 i.op.major ++ i.guard ++ n ++ i.d ++ i.a ++ i.b ++ i.imm
  | some _ => (0xF0 : BitVec 8) ++ i.guard ++ n ++ i.d ++ i.a ++ i.b ++ BitVec.ofNat 8 i.op.major ++ (0 : BitVec 29)

/-- The first word of a tensor-format instruction (R132). -/
def TIns.word (i : TIns) : Word :=
  let n : BitVec 1 := BitVec.ofBool i.neg
  let m := BitVec.ofNat 8 i.op.uses.major
  match i.wide with
  | none => m ++ i.guard ++ n ++ i.td ++ i.ta ++ i.tb ++ i.tc ++ i.k ++ (0 : BitVec 8) ++ i.mods
  | some _ => (0xF1 : BitVec 8) ++ i.guard ++ n ++ i.td ++ i.ta ++ i.tb ++ i.tc ++ i.k ++ m ++ i.mods

/-- The words of an instruction: one, or two for a wide form (R132). -/
def Ins.words : Ins → List Word
  | .s i => match i.wide with | none => [i.word] | some w => [i.word, w]
  | .t i => match i.wide with | none => [i.word] | some w => [i.word, w]

/-- What decoding gives: an instruction and its length in words, or the reason of R187 with the length that R134 gives. -/
inductive Decoded where
  | ins (i : Ins) (len : Nat)
  | illegal (reason : Nat) (len : Nat)
  deriving DecidableEq, Repr

/-- The fields of a scalar-format first word. -/
def sFields (op : SOp) (w : Word) (wide : Option Word) : SIns :=
  { op := op, guard := w.extractLsb' 53 3, neg := w.getLsbD 52
    d := w.extractLsb' 47 5, a := w.extractLsb' 42 5, b := w.extractLsb' 37 5
    imm := if wide.isSome then 0 else w.extractLsb' 0 37
    wide := wide }

/-- The fields of a tensor-format first word. -/
def tFields (op : TOp) (w : Word) (wide : Option Word) : TIns :=
  { op := op, guard := w.extractLsb' 53 3, neg := w.getLsbD 52
    td := w.extractLsb' 48 4, ta := w.extractLsb' 44 4, tb := w.extractLsb' 40 4
    tc := w.extractLsb' 36 4, k := w.extractLsb' 32 4, mods := w.extractLsb' 0 24
    wide := wide }

/-- A scalar-format instruction, checked. -/
def checkS (i : SIns) (len : Nat) : Decoded :=
  if !i.formOk then .illegal 1 len else if !i.fieldsOk then .illegal 2 len else .ins (.s i) len

/-- A tensor-format instruction, checked. -/
def checkT (i : TIns) (len : Nat) : Decoded :=
  if !i.formOk then .illegal 1 len else if !i.fieldsOk then .illegal 2 len else .ins (.t i) len

/-- Decode a first word and the word after it (R132-R136). Reason 1 is an illegal opcode, reason 2 a non-zero reserved field or
a reserved modifier value (R187). -/
def decodeDioth (w next : Word) : Decoded :=
  let m := (w.extractLsb' 56 8).toNat
  if m = 0xF0 then
    match SOp.ofMajor (w.extractLsb' 29 8).toNat with
    | some op =>
      if !op.wideOk then .illegal 1 2
      else if w.extractLsb' 0 29 ≠ 0 then .illegal 2 2 else checkS (sFields op w (some next)) 2
    | none => .illegal 1 2
  else if m = 0xF1 then
    match TOp.ofMajor (w.extractLsb' 24 8).toNat with
    | some op => checkT (tFields op w (some next)) 2
    | none => .illegal 1 2
  else if 0xF2 ≤ m ∧ m ≤ 0xF7 then .illegal 1 2
  else
    match SOp.ofMajor m, TOp.ofMajor m with
    | some op, _ => checkS (sFields op w none) 1
    | none, some op =>
      if op.uses.wide = 2 then .illegal 1 1
      else if w.extractLsb' 24 8 ≠ 0 then .illegal 2 1 else checkT (tFields op w none) 1
    | none, none => .illegal 1 1

/-- The 64-bit words of a byte string. -/
def wordsOf : Nat → List Byte → List Word
  | 0, _ => []
  | n + 1, bs => BitVec.ofNat 64 (leNat (bs.take 8)) :: wordsOf n (bs.drop 8)

/-- Check 10 of R181 over the words of a CODE section: the index of the first word that refuses it, if any; `skip` tells
that the next word is the immediate of a wide form. -/
def scanCode : List Word → Nat → Bool → Option Nat
  | [], i, skip => if skip then some (i - 1) else none
  | w :: r, i, skip =>
    if skip then scanCode r (i + 1) false
    else match decodeDioth w (r.headD 0) with
      | .illegal _ _ => some i
      | .ins _ len => scanCode r (i + 1) (len == 2)

end Sys2Proof.Machine
end

