-- ==== Sys2Proof/Machine/Float.lean ====
section
/-! DEFINITION. Float.lean: the exact arithmetic behind FP16 and FP32, and the one rounding of every result (R77-R89).

A stored element is decoded to an exact value (`Num`), the operation is done exactly on fractions (`Q`), and the result
is rounded once into the destination format. -/

namespace Sys2Proof.Machine

/-- A fraction in lowest terms (the denominator is never 0 for a value this file builds). -/
structure Q where
  num : Int
  den : Nat
  deriving DecidableEq, Repr

namespace Q

/-- The fraction n / d in lowest terms. -/
def mk' (n : Int) (d : Nat) : Q :=
  let g := Nat.gcd n.natAbs d
  if g = 0 then ⟨n, 1⟩ else ⟨n / (g : Int), d / g⟩

def ofInt (n : Int) : Q := ⟨n, 1⟩
def ofNat (n : Nat) : Q := ⟨n, 1⟩
def zero : Q := ⟨0, 1⟩

/-- 2 to an integer power. -/
def pow2 : Int → Q
  | .ofNat n => ⟨(2 ^ n : Nat), 1⟩
  | .negSucc n => ⟨1, 2 ^ (n + 1)⟩

def add (a b : Q) : Q :=
  if a.den = b.den then mk' (a.num + b.num) a.den else mk' (a.num * b.den + b.num * a.den) (a.den * b.den)
def neg (a : Q) : Q := ⟨-a.num, a.den⟩
def sub (a b : Q) : Q := add a (neg b)
def mul (a b : Q) : Q := mk' (a.num * b.num) (a.den * b.den)
/-- a / b, and 0 when b is 0 (no caller divides by 0). -/
def div (a b : Q) : Q :=
  if b.num = 0 then zero
  else if b.num < 0 then mk' (-(a.num * b.den)) (a.den * b.num.natAbs) else mk' (a.num * b.den) (a.den * b.num.natAbs)
def lt (a b : Q) : Bool := decide (a.num * b.den < b.num * a.den)
def le (a b : Q) : Bool := decide (a.num * b.den ≤ b.num * a.den)
def eq (a b : Q) : Bool := decide (a.num * b.den = b.num * a.den)
def abs (a : Q) : Q := ⟨a.num.natAbs, a.den⟩
def isZero (a : Q) : Bool := a.num == 0
def isNeg (a : Q) : Bool := decide (a.num < 0)
def max (a b : Q) : Q := if lt a b then b else a
def min (a b : Q) : Q := if lt b a then b else a
/-- The integer part of a non-negative fraction. -/
def floorNat (a : Q) : Nat := a.num.toNat / a.den
/-- The greatest integer at or below a fraction. -/
def floor (a : Q) : Int := a.num / (a.den : Int)

/-- floor(log2 a) of a positive fraction. -/
def log2 (a : Q) : Int :=
  let n := a.num.toNat
  let e : Int := (Nat.log2 n : Int) - (Nat.log2 a.den : Int)
  if le (pow2 e) a then e else e - 1

/-- ceil(log2 a) of a positive fraction. -/
def clog2 (a : Q) : Int := let e := log2 a; if eq (pow2 e) a then e else e + 1

end Q

/-- The two arithmetic formats (R77, R78). -/
inductive FFmt where
  | fp16 | fp32
  deriving DecidableEq, Repr

/-- The exact value of an element: NaN, an infinity, or a sign and a magnitude (a zero keeps its sign). -/
inductive Num where
  | nan
  | inf (neg : Bool)
  | fin (neg : Bool) (mag : Q)
  deriving DecidableEq, Repr

namespace FFmt
/-- Element size in bytes. -/
def bytes : FFmt → Nat | fp16 => 2 | fp32 => 4
/-- Significand bits, the hidden bit included. -/
def prec : FFmt → Nat | fp16 => 11 | fp32 => 24
/-- Exponent of the smallest normal. -/
def emin : FFmt → Int | fp16 => -14 | fp32 => -126
/-- Exponent of the largest finite value. -/
def emax : FFmt → Int | fp16 => 15 | fp32 => 127
/-- Fraction bits. -/
def frac : FFmt → Nat | fp16 => 10 | fp32 => 23
/-- The canonical quiet NaN (R78). -/
def qnan : FFmt → Nat | fp16 => 0x7E00 | fp32 => 0x7FC00000
/-- The bits of +infinity. -/
def infBits : FFmt → Nat | fp16 => 0x7C00 | fp32 => 0x7F800000
/-- The bits of the largest finite value. -/
def maxBits : FFmt → Nat | fp16 => 0x7BFF | fp32 => 0x7F7FFFFF
/-- The sign bit. -/
def signBit : FFmt → Nat | fp16 => 0x8000 | fp32 => 0x80000000
/-- The largest finite value. -/
def maxQ : FFmt → Q | fp16 => Q.ofNat 65504 | fp32 => Q.ofNat ((2 ^ 24 - 1) * 2 ^ 104)
/-- The bits of 1.0. -/
def one : FFmt → Nat | fp16 => 0x3C00 | fp32 => 0x3F800000
end FFmt

/-- The exact value of stored bits: FP16 subnormals are kept (R79), FP32 subnormals read as zero (R80). -/
def decodeF (f : FFmt) (w : Nat) : Num :=
  let b := w % (2 * f.signBit)
  let neg := decide (f.signBit ≤ b)
  let m := b % f.signBit
  let ex := m / 2 ^ f.frac
  let fr := m % 2 ^ f.frac
  if m > f.infBits then .nan
  else if m = f.infBits then .inf neg
  else if ex = 0 then
    match f with
    | .fp16 => .fin neg (Q.mul (Q.ofNat fr) (Q.pow2 (-24)))
    | .fp32 => .fin neg Q.zero
  else .fin neg (Q.mul (Q.ofNat (2 ^ f.frac + fr)) (Q.pow2 ((ex : Int) - 1 + f.emin - f.frac)))

namespace Num
def isNaN : Num → Bool | .nan => true | _ => false
/-- NaN or an infinity: what R87 calls non-finite. -/
def nonFinite : Num → Bool | .fin _ _ => false | _ => true
def isNeg : Num → Bool | .nan => false | .inf n => n | .fin n _ => n
def isZero : Num → Bool | .fin _ q => q.isZero | _ => false
/-- The signed fraction of a finite value (0 for the others). -/
def toQ : Num → Q | .fin true q => q.neg | .fin false q => q | _ => Q.zero
/-- The value of a signed fraction; zero is +0. -/
def ofQ (q : Q) : Num := .fin q.isNeg q.abs
def negate : Num → Num | .nan => .nan | .inf n => .inf (!n) | .fin n q => .fin (!n) q
def absolute : Num → Num | .nan => .nan | .inf _ => .inf false | .fin _ q => .fin false q
end Num

/-- The rounding modes of R81: codes 0 to 4. -/
inductive RMode where
  | nearest | zero | up | down | stochastic
  deriving DecidableEq, Repr

/-- The mode of a code 0 to 4; 5 to 7 are reserved (R81, R82). -/
def RMode.ofCode : Nat → Option RMode
  | 0 => some .nearest | 1 => some .zero | 2 => some .up | 3 => some .down | 4 => some .stochastic | _ => none

/-- Whether a magnitude strictly between n and n + 1 (with fraction part `fr`, 0 < fr < 1) goes up: R81, and R89 with `r`
for the stochastic mode. -/
def roundsUp (m : RMode) (neg : Bool) (n : Nat) (fr : Q) (r : Nat) : Bool :=
  match m with
  | .nearest => Q.lt ⟨1, 2⟩ fr || (Q.eq ⟨1, 2⟩ fr && n % 2 == 1)
  | .zero => false
  | .up => !neg
  | .down => neg
  | .stochastic => decide ((Q.mul fr (Q.ofNat 65536)).floorNat > r)

/-- A positive magnitude rounded to an integer count of 2^qe. -/
def roundCount (m : RMode) (neg : Bool) (mag : Q) (qe : Int) (r : Nat) : Nat :=
  let x := Q.mul mag (Q.pow2 (-qe))
  let n := x.floorNat
  let fr := Q.sub x (Q.ofNat n)
  if fr.isZero then n else if roundsUp m neg n fr r then n + 1 else n

/-- The bits of an infinity or of the largest finite value, as overflow rounds under R83. -/
def overflowBits (f : FFmt) (m : RMode) (neg : Bool) : Nat :=
  let s := if neg then f.signBit else 0
  let toInf := match m with
    | .nearest => true
    | .zero => false
    | .up => !neg
    | .down => neg
    | .stochastic => true
  s + if toInf then f.infBits else f.maxBits

/-- Round a sign and an exact magnitude into a format (R79, R80, R83, R89); `r` is the draw of R88. -/
def roundMag (f : FFmt) (m : RMode) (neg : Bool) (mag : Q) (r : Nat) : Nat :=
  let s := if neg then f.signBit else 0
  if mag.isZero then s
  else
    let e := mag.log2
    let qe := match f with
      | .fp16 => max (e - 10) (-24)
      | .fp32 => e - 23
    if m = .stochastic ∧ Q.lt f.maxQ mag then s + f.infBits
    else
      let n := roundCount m neg mag qe r
      let v := Q.mul (Q.ofNat n) (Q.pow2 qe)
      if Q.lt f.maxQ v then overflowBits f m neg
      else if n = 0 then s
      else
        let e' := v.log2
        if e' < f.emin then
          match f with
          | .fp16 => s + n
          | .fp32 => s
        else
          let q' := e' - f.frac
          let k := (Q.mul v (Q.pow2 (-q'))).floorNat
          s + (e' - f.emin + 1).toNat * 2 ^ f.frac + (k - 2 ^ f.frac)

/-- Round a value into a format; NaN becomes the canonical quiet NaN (R84). -/
def roundNum (f : FFmt) (m : RMode) (x : Num) (r : Nat := 0) : Nat :=
  match x with
  | .nan => f.qnan
  | .inf neg => (if neg then f.signBit else 0) + f.infBits
  | .fin neg q => roundMag f m neg q r

/-- The exact sum of two values; the sign of an exact zero is R85's, which depends on the mode. -/
def addNum (m : RMode) (a b : Num) : Num :=
  match a, b with
  | .nan, _ => .nan
  | _, .nan => .nan
  | .inf x, .inf y => if x = y then .inf x else .nan
  | .inf x, .fin _ _ => .inf x
  | .fin _ _, .inf y => .inf y
  | .fin x p, .fin y q =>
    let s := Q.add (if x then p.neg else p) (if y then q.neg else q)
    if s.isZero then
      if p.isZero ∧ q.isZero ∧ x = y then .fin x Q.zero else .fin (m = .down) Q.zero
    else .fin s.isNeg s.abs

/-- The exact product of two values. -/
def mulNum (a b : Num) : Num :=
  match a, b with
  | .nan, _ => .nan
  | _, .nan => .nan
  | .inf x, .inf y => .inf (x != y)
  | .inf x, .fin y q => if q.isZero then .nan else .inf (x != y)
  | .fin x q, .inf y => if q.isZero then .nan else .inf (x != y)
  | .fin x p, .fin y q => .fin (x != y) (Q.mul p q)

/-- The exact quotient of two values (IEEE 754 for zero and infinite operands). -/
def divNum (a b : Num) : Num :=
  match a, b with
  | .nan, _ => .nan
  | _, .nan => .nan
  | .inf _, .inf _ => .nan
  | .inf x, .fin y _ => .inf (x != y)
  | .fin x _, .inf y => .fin (x != y) Q.zero
  | .fin x p, .fin y q =>
    if q.isZero then (if p.isZero then .nan else .inf (x != y)) else .fin (x != y) (Q.div p q)

/-- a < b on non-NaN values, with -0 below +0 (R86). -/
def ltNum (a b : Num) : Bool :=
  match a, b with
  | .nan, _ => false
  | _, .nan => false
  | .inf x, .inf y => x && !y
  | .inf x, .fin _ _ => x
  | .fin _ _, .inf y => !y
  | .fin x p, .fin y q =>
    if p.isZero ∧ q.isZero then x && !y
    else Q.lt (if x then p.neg else p) (if y then q.neg else q)

/-- The maximum of R86. -/
def maxNum (a b : Num) : Num :=
  match a, b with
  | .nan, x => x
  | x, .nan => x
  | x, y => if ltNum x y then y else x

/-- The minimum of R86. -/
def minNum (a b : Num) : Num :=
  match a, b with
  | .nan, x => x
  | x, .nan => x
  | x, y => if ltNum y x then y else x

/-- FP32 addition of bits, round to nearest. -/
def add32 (a b : Nat) : Nat := roundNum .fp32 .nearest (addNum .nearest (decodeF .fp32 a) (decodeF .fp32 b))
/-- FP32 subtraction of bits, round to nearest. -/
def sub32 (a b : Nat) : Nat := roundNum .fp32 .nearest (addNum .nearest (decodeF .fp32 a) (decodeF .fp32 b).negate)
/-- FP32 multiplication of bits, round to nearest. -/
def mul32 (a b : Nat) : Nat := roundNum .fp32 .nearest (mulNum (decodeF .fp32 a) (decodeF .fp32 b))
/-- FP32 division of bits, round to nearest. -/
def div32 (a b : Nat) : Nat := roundNum .fp32 .nearest (divNum (decodeF .fp32 a) (decodeF .fp32 b))

/-- Binary digits of the integer square root: the greatest s with s * s ≤ n, found bit by bit from bit k - 1. -/
def isqrtBits (n : Nat) : Nat → Nat → Nat
  | 0, s => s
  | k + 1, s => let t := s + 2 ^ k; isqrtBits n k (if t * t ≤ n then t else s)

/-- The integer square root. -/
def isqrt (n : Nat) : Nat := isqrtBits n (Nat.log2 n / 2 + 1) 0

/-- A fraction that rounds as the square root of `q` does in every format and mode: the root itself when it is exact in
units of 2^-k, else the middle of the interval of that width that holds it (no rounding boundary lies in it). -/
def sqrtQ (q : Q) : Q :=
  if q.isZero then Q.zero
  else
    let k := 64 + 2 * Nat.log2 q.den
    let n := q.num.toNat * 2 ^ k / q.den
    let exact := decide (n * q.den = q.num.toNat * 2 ^ k)
    let s := isqrt n
    if exact ∧ s * s = n then Q.mk' s (2 ^ (k / 2)) else Q.mk' (2 * s + 1) (2 ^ (k / 2 + 1))

/-- 1/√a (R216): +∞ of the zero's sign for a zero, NaN below zero, +0 for +∞. -/
def rsqrtNum : Num → Num
  | .nan => .nan
  | .inf true => .nan
  | .inf false => .fin false Q.zero
  | .fin neg q => if q.isZero then .inf neg else if neg then .nan else .fin false (sqrtQ (Q.div (Q.ofNat 1) q))

/-- √a: NaN below zero, a zero for a zero of the same sign. -/
def sqrtNum : Num → Num
  | .nan => .nan
  | .inf true => .nan
  | .inf false => .inf false
  | .fin neg q => if q.isZero then .fin neg Q.zero else if neg then .nan else .fin false (sqrtQ q)

/-- The Taylor sum of e^y in units of 2^-240, `k` terms from term `i` on, for the current term `t`. -/
def expTerms (y : Nat) : Nat → Nat → Nat → Nat → Nat
  | 0, _, _, acc => acc
  | k + 1, i, t, acc => let t' := t * y / 2 ^ 240 / i; expTerms y k (i + 1) t' (acc + t')

/-- Square a fixed-point number of 240 fraction bits n times. -/
def squareTimes : Nat → Nat → Nat
  | 0, x => x
  | n + 1, x => squareTimes n (x * x / 2 ^ 240)

/-- e^q for a fraction 0 ≤ q < 256, in units of 2^-240, to more than 200 significant bits. -/
def expFixed (q : Q) : Nat :=
  let y := q.num.toNat * 2 ^ 240 / (q.den * 256)
  squareTimes 8 (expTerms y 60 1 (2 ^ 240) (2 ^ 240))

/-- A fraction that rounds as e^q does (R216): e^0 is exactly 1; every other value is irrational, and the enclosure is far
narrower than the distance to a rounding boundary of either format. -/
def expQ (q : Q) : Q :=
  if q.isZero then Q.ofNat 1
  else if q.isNeg then
    if Q.lt q (Q.ofInt (-200)) then Q.pow2 (-288) else Q.mk' (2 ^ 240 : Nat) (expFixed q.abs)
  else if Q.lt (Q.ofInt 200) q then Q.pow2 288 else Q.mk' (expFixed q) (2 ^ 240)

/-- e^a of a value. -/
def expNum : Num → Num
  | .nan => .nan
  | .inf true => .fin false Q.zero
  | .inf false => .inf false
  | .fin neg q => .fin false (expQ (if neg then q.neg else q))

/-- The Taylor sums of cos: term t (units of 2^-240) times -y² / ((i+1)(i+2)), `k` terms. -/
def cosTerms (y2 : Nat) : Nat → Nat → Nat → Int → Bool → Int
  | 0, _, _, acc, _ => acc
  | k + 1, i, t, acc, minus =>
    let t' := t * y2 / 2 ^ 240 / ((i + 1) * (i + 2))
    cosTerms y2 k (i + 2) t' (if minus then acc - t' else acc + t') (!minus)

/-- arctan(1/n) in units of 2^-240: `k` terms of the alternating series. -/
def arctanTerms (n : Nat) : Nat → Nat → Nat → Int → Bool → Int
  | 0, _, _, acc, _ => acc
  | k + 1, i, p, acc, minus =>
    let p' := p / (n * n)
    let t : Int := (p' / (i + 2) : Nat)
    arctanTerms n k (i + 2) p' (if minus then acc - t else acc + t) (!minus)

/-- π in units of 2^-240 (Machin's formula). -/
def piFixed : Nat :=
  let a := arctanTerms 5 110 1 (2 ^ 240 / 5) ((2 ^ 240 / 5 : Nat) : Int) true
  let b := arctanTerms 239 40 1 (2 ^ 240 / 239) ((2 ^ 240 / 239 : Nat) : Int) true
  (16 * a - 4 * b).toNat

/-- cos(π × q) for a fraction 0 ≤ q ≤ 1, to more than 200 bits; exact at q = 0, 1/3, 1/2, 2/3 and 1, the only rational values
there (Niven). -/
def cosPi (q : Q) : Q :=
  if q.isZero then Q.ofNat 1
  else if Q.eq q (Q.ofNat 1) then Q.ofInt (-1)
  else if Q.eq q ⟨1, 2⟩ then Q.zero
  else if Q.eq q ⟨1, 3⟩ then ⟨1, 2⟩
  else if Q.eq q ⟨2, 3⟩ then ⟨-1, 2⟩
  else
    let y := piFixed * q.num.toNat / q.den
    Q.mk' (cosTerms (y * y / 2 ^ 240) 50 0 (2 ^ 240) ((2 ^ 240 : Nat) : Int) true) (2 ^ 240)

/-- The counter-based generator of R88: a 64-bit value of a seed, a step and an index. -/
def draw64 (seed step index : Nat) : Nat :=
  let w : Nat := 2 ^ 64
  let z := (seed + 0x9E3779B97F4A7C15 * (index + 1)) % w
  let z := z ^^^ (step * 0xD1B54A32D192ED03 % w)
  let z := ((z ^^^ (z >>> 30)) * 0xBF58476D1CE4E5B9) % w
  let z := ((z ^^^ (z >>> 27)) * 0x94D049BB133111EB) % w
  z ^^^ (z >>> 31)

/-- The 16-bit random value r of R88. -/
def draw16 (seed step index : Nat) : Nat := draw64 seed step index % 65536

end Sys2Proof.Machine
end

