-- ==== Sys2Proof/Machine/Operands.lean ====
section
/-! DEFINITION. Operands.lean: unified addresses (R140-R145), tensor descriptors (R146-R153), the checks of an asynchronous
operation (R676), and reading and writing elements. -/

namespace Sys2Proof.Machine

/-! ### Places: where a byte of a unified address is -/

/-- A byte of one of the device's memories. -/
inductive Place where
  | scratch (t o : Nat)
  | view (p o : Nat)
  | host (a : Nat)
  | flash (a : Nat)
  | remote (dev key o : Nat)
  | nowhere
  deriving DecidableEq, Repr

/-- A row table descriptor (R378). -/
structure RowTable where
  rows : Nat
  elems : Nat
  strideLog : Nat
  groupLog : Nat
  first : Nat
  layer : Nat
  reserved : Nat
  deriving DecidableEq, Repr

/-- Bytes of a row. -/
def RowTable.stride (r : RowTable) : Nat := 2 ^ r.strideLog
/-- Bytes of a group. -/
def RowTable.groupBytes (r : RowTable) : Nat := 2 ^ (r.strideLog + r.groupLog)
/-- Directory entries of a table. -/
def RowTable.groups (r : RowTable) : Nat := ceilDiv r.rows (2 ^ r.groupLog)

/-- Descriptor n of a partition's row tables (R378). -/
def Core.rowTable (c : Core) (p n : Nat) : RowTable :=
  let w := leNat (c.readView p (c.rf Regs.SLOW_TABLE_BASE_BASE p * 4096 + 32 * n) 32)
  { rows := bits w 31 0, elems := bits w 47 32, strideLog := bits w 55 48, groupLog := bits w 63 56
    first := bits w 95 64, layer := bits w 111 96, reserved := bits w 255 112 }

/-- The view offset of the layer table: LAYER_TABLE in force while a program runs (R296), else the register. -/
def Core.layerBase (c : Core) (p : Nat) : Nat :=
  4096 * match (c.part p).prog with
    | some pr => if pr.started then (c.part p).cfg.layers else c.rf Regs.UPD_LAYER_TABLE_BASE (c.lead p)
    | none => c.rf Regs.UPD_LAYER_TABLE_BASE (c.lead p)

/-- A field of bits [hi:lo] from byte `b` of layer slot `l`'s record (R291). -/
def Core.layerBits (c : Core) (p l b n : Nat) : Nat := leNat (c.readView p (c.layerBase p + 64 * l + b) n)

/-- The settings of the next step, taken at the boundary before it or at program start (R296). DEDUCED (assumption 41). -/
def Core.takeCfg (c : Core) (p : Nat) : UpdCfg :=
  let e := c.lead p
  let base := c.rf Regs.UPD_LAYER_TABLE_BASE e
  let g := fun (l : Nat) => leNat (c.readView p (4096 * base + 64 * l + 1) 1) % 32
  { kind := c.rf Regs.UPD_SCHED_KIND_KIND e, lr0 := c.rf Regs.UPD_SCHED_LR_LR0 e, lrMin := c.rf Regs.UPD_SCHED_LR_LRMIN e
    warm := c.rf Regs.UPD_SCHED_SPAN_WARMUP e, total := c.rf Regs.UPD_SCHED_SPAN_TOTAL e, interval := c.rf Regs.UPD_SCHED_STEP_INTERVAL e
    gamma := c.rf Regs.UPD_SCHED_STEP_GAMMA e, stride := c.rf Regs.UPD_SCHED_STRIDE_STRIDE e, table := c.rf Regs.UPD_SCHED_TABLE_BASE e
    clip := c.rf Regs.UPD_CLIP_NORM e, grow := c.rf Regs.UPD_LS_CFG_GROW_INTERVAL e, under := c.rf Regs.UPD_WATCH_CFG_UNDERFLOW_STEPS e
    agree := if c.flag Regs.UPD_LS_CFG_AGREE_EN e then some (c.rf Regs.UPD_LS_CFG_AGREE_GROUP e) else none
    timeout := c.rf Regs.UPD_AGREE_TIMEOUT_MS e, layers := base
    gmul := threadAll (fun (m : SMap Nat) l => m.put (fun _ => 0) l (g l)) [] (List.range 1024) }

/-- OPT of a layer slot (R291). -/
def Core.layerOpt (c : Core) (p l : Nat) : Nat := bits (c.layerBits p l 0 1) 1 0

/-- The check of a row table when an access or a ROWUPD names it (R379); 0 when it passes. -/
def Core.rowTableCheck (c : Core) (p n : Nat) : Nat :=
  if c.rf Regs.SLOW_TABLE_COUNT_COUNT p ≤ n then St.BOUNDS
  else
    let r := c.rowTable p n
    let state := r.elems * (if c.layerOpt p r.layer = 0 then 8 else 12)
    if r.reserved ≠ 0 ∨ r.rows = 0 ∨ r.elems = 0 ∨ 1024 < r.elems ∨ r.strideLog < 6 ∨ 12 < r.strideLog ∨
       r.stride < state ∨ 16 < r.groupLog ∨ r.groupLog + r.strideLog < 12 ∨ 1023 < r.layer ∨
       c.rf Regs.SLOW_DIR_RANGE_COUNT p < r.first + r.groups ∨ c.layerOpt p r.layer = 3
    then St.LENGTH else St.SUCCESS

/-- What an entry of the row residency directory that software has not written holds: TIER 0, ADDR 0, no pending row
(assumption 7). DESIGN CHOICE (assumption 7). -/
def dirDefault : Nat → Word := fun _ => BitVec.ofNat 64 (0x1FFFF * 2 ^ 47)

/-- The directory entry of a group of a partition's table (R380). DESIGN CHOICE (assumption 7). -/
def Core.dirEntry (c : Core) (p : Nat) (r : RowTable) (g : Nat) : Nat :=
  (c.dir.get dirDefault (c.rf Regs.SLOW_DIR_RANGE_FIRST p + r.first + g)).toNat

/-- The place of byte `o` of a row table, in whatever tier the directory names (R380, R382). DEDUCED (assumption 18). -/
def Core.rowPlace (c : Core) (p n o : Nat) : Place :=
  let r := c.rowTable p n
  let g := o / r.groupBytes
  let e := c.dirEntry p r g
  let k := o % r.groupBytes
  match bits e 1 0 with
  | 0 => match c.phys (bits e 33 26) with
    | some t => .scratch t (bits e 25 4 + k)
    | none => .nowhere
  | 1 => .view p (bits e 35 4 * 4096 + k)
  | 2 => .flash (bits e 35 33 * 2 ^ 45 + bits e 32 4 * 4096 + k)
  | _ => .remote (bits e 35 22) (bits e 21 4) (g * r.groupBytes + k)

/-- The place of the byte at displacement `o` from the offset field of a unified address, for logical tile `l` of
partition `p` (R140). -/
def Core.place (c : Core) (p l : Nat) (addr o : Nat) : Place :=
  match bits addr 63 60 with
  | 0 => match c.phys l with | some t => .scratch t (bits addr 59 0 + o) | none => .nowhere
  | 1 => match c.phys (bits addr 47 40) with | some t => .scratch t (bits addr 39 0 + o) | none => .nowhere
  | 2 => .view p (bits addr 59 0 + o)
  | 3 => .host (bits addr 59 0 + o)
  | 4 => .remote (bits addr 59 46) 0 (bits addr 45 0 + o)
  | 5 => c.rowPlace p (bits addr 55 48) (bits addr 47 0 + o)
  | 6 => match c.umbraPhys p (bits addr 59 0 + o) with | some (t, a) => .scratch t a | none => .nowhere
  | _ => .nowhere

/-- Read the byte at a place. Staged bytes stand before those of flash (R390); a remote byte is not held by this device: any
value may come (assumption 17). DESIGN CHOICE (assumption 6). DESIGN CHOICE (assumption 17). -/
def Core.readPlace (c : Core) : Place → Byte
  | .scratch t o => c.scratch.get zeroByte (c.scratchKey t o)
  | .view p o => match c.viewToDpa p o with | some d => c.dramByte (c.part p).key o d | none => 0
  | .host a => c.host.get zeroByte a
  | .flash a => (c.staged.get (fun _ => none) a).getD (c.flash.get zeroByte a)
  | .remote dev key o => Config.remoteByte dev key o c.free
  | .nowhere => 0

/-- The key of a remote byte in `Core.remoteOut`. DESIGN CHOICE (assumption 17). -/
def remoteKey (dev key o : Nat) : Nat := (dev * 2 ^ 18 + key) * 2 ^ 48 + o

/-- Write the byte at a place. DESIGN CHOICE (assumption 17). -/
def Core.writePlace (c : Core) (b : Byte) : Place → Core
  | .scratch t o => c.writeScratch t o [b]
  | .view p o => c.writeView p o [b]
  | .host a => c.writeHost a [b]
  | .flash a => { c with flash := c.flash.put zeroByte a b }
  | .remote dev key o => { c with remoteOut := c.remoteOut.put (fun _ => none) (remoteKey dev key o) (some b) }
  | .nowhere => c

/-- Read n bytes from displacement o of a unified address. -/
def Core.readAt (c : Core) (p l addr o n : Nat) : List Byte := (upFrom o n).map (fun k => c.readPlace (c.place p l addr k))

/-- Write bytes from displacement o of a unified address. -/
def Core.writeAt (c : Core) (p l addr o : Nat) (bs : List Byte) : Core :=
  let put := fun (c : Core) (e : Nat × Byte) => c.writePlace e.2 (c.place p l addr e.1)
  threadAll put c ((upFrom o bs.length).zip bs)

/-! ### Checks of an access -/

/-- Whether every logical tile that holds a part of a range of space 0x6 is mapped: an access to an unmapped index ends with BOUNDS
(R37). -/
def Core.umbraMapped (c : Core) (p o n : Nat) : Bool :=
  (upFrom (o / 0x40000) ((o + n - 1) / 0x40000 + 1 - o / 0x40000)).all (fun k => (c.umbraPhys p (k * 0x40000)).isSome)

/-- Whether every TIER 0 group of a range of a row table lies in a mapped logical tile (R37, R380). DEDUCED (assumption 18). -/
def Core.rowsMapped (c : Core) (p : Nat) (r : RowTable) (o n : Nat) : Bool :=
  (upFrom (o / r.groupBytes) ((o + n - 1) / r.groupBytes + 1 - o / r.groupBytes)).all (fun g =>
    bits (c.dirEntry p r g) 1 0 != 0 || (c.phys (bits (c.dirEntry p r g) 33 26)).isSome)

/-- Whether a range of n bytes from displacement o of an address lies in its space (R140, R141, R143): stage 3 of R676 but
for the spaces accepted and the alignment. DEDUCED (assumption 18). -/
def Core.boundsOk (c : Core) (p addr o n : Nat) : Bool :=
  let n := max n 1
  match bits addr 63 60 with
  | 0 => bits addr 59 22 == 0 && decide (bits addr 21 0 + o + n ≤ 0x300000)
  | 1 => bits addr 59 48 == 0 && bits addr 39 22 == 0 && decide (bits addr 21 0 + o + n ≤ 0x300000) &&
      (c.phys (bits addr 47 40)).isSome
  | 2 => bits addr 59 40 == 0 && decide (bits addr 39 0 + o + n ≤ 2 ^ 40) && c.viewOk p (bits addr 39 0 + o) n
  | 3 => decide (bits addr 59 0 + o + n ≤ 2 ^ 60)
  | 4 => c.flag Regs.COL_HERD_CFG_VALID && bits addr 59 46 != c.rf Regs.COL_HERD_CFG_DEV_ID &&
      decide (bits addr 59 46 < c.rf Regs.COL_HERD_CFG_SIZE) && decide (bits addr 45 0 + o + n ≤ 2 ^ 46)
  | 5 => bits addr 59 56 == 0 && c.rowTableCheck p (bits addr 55 48) != St.BOUNDS &&
      (let r := c.rowTable p (bits addr 55 48)
       c.rowTableCheck p (bits addr 55 48) != 0 || (decide (bits addr 47 0 + o + n ≤ r.rows * r.stride) && c.rowsMapped p r (bits addr 47 0 + o) n))
  | 6 => bits addr 59 25 == 0 && decide (bits addr 24 0 + o + n ≤ c.umbraBytes p) &&
      c.umbraMapped p (bits addr 24 0 + o) n
  | _ => false

/-- The backing stores and the region tables that space 0x2 may not touch (R435, R440): start and bytes. -/
def Core.backing (c : Core) (p : Nat) : List (Nat × Nat) :=
  let one := fun (a n : Nat) => if bits a 63 60 = 2 then [(bits a 39 0, n)] else []
  one (c.rf Regs.RMA_CTX_BASE_ADDR p) (256 * c.rf Regs.RMA_QP_RANGE_COUNT p) ++
  one (c.rf Regs.RMA_REGION_BASE_ADDR p) (32 * c.rf Regs.RMA_KEY_RANGE_COUNT p)

/-- The view ranges of the licensed windows in force (R531): window, start and bytes. -/
def Core.licensed (c : Core) (p : Nat) : List (Nat × Nat × Nat) :=
  ((List.range 4).filter (fun n => c.flag Regs.SEC_LIC_WIN_EN (n + 4 * p))).map
    (fun n =>
      let len := c.rf Regs.SEC_LIC_LEN_LENGTH (n + 4 * p) * 4096
      (n, c.rf Regs.SEC_LIC_WIN_BASE (n + 4 * p) * 4096, len + 16 * (len / 4096)))

/-- Whether a view range touches a licensed window. -/
def Core.inLicensed (c : Core) (p o n : Nat) : Bool := (c.licensed p).any (fun w => overlaps o n w.2.1 w.2.2)

/-- Whether a range keeps to what the partition may reach (stage 4 of R676: R27, R141, R142, R435). -/
def Core.protOk (c : Core) (p l addr o n : Nat) : Bool :=
  let n := max n 1
  let ordinary := fun (l' off : Nat) => match c.phys l' with
    | some t => decide (off + n ≤ c.ordinaryEnd t l')
    | none => true
  match bits addr 63 60 with
  | 0 => ordinary l (bits addr 21 0 + o)
  | 1 => c.ownsGroup p (groupOfLogical (bits addr 47 40)) && ordinary (bits addr 47 40) (bits addr 21 0 + o)
  | 2 => !(c.backing p).any (fun b => overlaps (bits addr 39 0 + o) n b.1 b.2)
  | _ => true

/-- The 4 KiB Umbra page of a byte of space 0x6, as a mark of R533. -/
def Core.umbraPage (c : Core) (p o : Nat) : Nat :=
  match c.umbraPlace p o with | some (l, a) => 1024 * l + a / 4096 | none => 0

/-- Whether a range of space 0x6 touches a marked page (R533). -/
def Core.marked (c : Core) (p o n : Nat) : Bool :=
  (upFrom (o / 4096) ((o + n + 4095) / 4096 - o / 4096)).any (fun k => c.marks.contains (c.umbraPage p (k * 4096)))

/-- The bank of a scratchpad place that a wipe holds, and the status it gives (R353). -/
def Core.wipeStatus (c : Core) (t o : Nat) : Option Nat :=
  match c.logical t with
  | none => none
  | some l =>
    if isUmbra l (o / bankBytes) then
      (c.wipes.find? (fun w => bitOf w.groups (groupOfPhys t) && (w.tile == none || w.tile == some t))).map (fun w => w.status)
    else none

/-! ### Descriptors -/

/-- A tensor descriptor (R146). -/
structure Desc where
  addr : Nat
  fmt : Nat
  cb : Nat
  layout : Nat
  res77 : Nat
  red : Nat
  e0 : Nat
  e1 : Nat
  e2 : Nat
  e3 : Nat
  s1 : Nat
  s2 : Nat
  s3 : Nat
  res254 : Nat
  /-- a range of bytes in place of a tensor (host items, images) -/
  len : Option Nat := none
  deriving DecidableEq, Repr

/-- The fields of 256 bits (R146). -/
def Desc.ofBits (v : BitVec 256) : Desc :=
  let w := v.toNat
  { addr := bits w 63 0, fmt := bits w 71 64, cb := bits w 75 72, layout := bits w 76 76, res77 := bits w 77 77
    red := bits w 79 78, e0 := bits w 103 80, e1 := bits w 127 104, e2 := bits w 151 128, e3 := bits w 175 152
    s1 := bits w 201 176, s2 := bits w 227 202, s3 := bits w 253 228, res254 := bits w 255 254 }

namespace Desc
def isFP16 (d : Desc) : Bool := d.fmt == 1
def isFP32 (d : Desc) : Bool := d.fmt == 2
def isFP (d : Desc) : Bool := d.fmt == 1 || d.fmt == 2
def isBlock (d : Desc) : Bool := d.fmt == 0x10 || d.fmt == 0x11 || d.fmt == 0x12 || d.fmt == 0x13
/-- The arithmetic format of an FP16 or FP32 tensor. -/
def ffmt (d : Desc) : FFmt := if d.fmt = 2 then .fp32 else .fp16
/-- Element size of FP16 and FP32. -/
def esize (d : Desc) : Nat := d.ffmt.bytes
def ext (d : Desc) : Nat → Nat | 0 => d.e0 | 1 => d.e1 | 2 => d.e2 | _ => d.e3
def exts (d : Desc) : List Nat := [d.e0, d.e1, d.e2, d.e3]
def count (d : Desc) : Nat := d.e0 * d.e1 * d.e2 * d.e3
def empty (d : Desc) : Bool := d.count == 0
/-- Columns of a square (R150). -/
def squareW (d : Desc) : Nat := if d.fmt = 2 then 16 else 32
def blocked (d : Desc) : Bool := d.layout == 1
/-- Squares of a square-row. -/
def sq (d : Desc) : Nat := ceilDiv d.e0 d.squareW

/-- Block size, code bits, code bytes of a block (R96). -/
def blockB (d : Desc) : Nat := if d.fmt = 0x10 ∨ d.fmt = 0x12 then 16 else 32
def codeBits (d : Desc) : Nat := if d.fmt = 0x10 ∨ d.fmt = 0x11 then 4 else 8
def codeBytes (d : Desc) : Nat := d.blockB * d.codeBits / 8
/-- Bytes of a group record (R96). -/
def recBytes (d : Desc) : Nat := 64 + 64 * d.codeBytes
/-- K, N, groups along K and along N of a block-coded tensor (R97). -/
def kExt (d : Desc) : Nat := d.ext d.red
def nRows (d : Desc) : Nat :=
  (d.exts.zipIdx.filter (fun e => e.2 != d.red)).foldl (fun a e => a * e.1) 1
def kGroups (d : Desc) : Nat := ceilDiv d.kExt d.blockB
def tableBytes (d : Desc) : Nat := alignUp (8 * d.nRows) 64
def blockBytes (d : Desc) : Nat := d.tableBytes + ceilDiv d.nRows 64 * d.kGroups * d.recBytes

/-- The displacement of an element of an FP16 or FP32 tensor (R149, R150). -/
def elemOff (d : Desc) (i0 i1 i2 i3 : Nat) : Nat :=
  if d.blocked then
    2048 * (i1 / 32 * d.sq + i0 / d.squareW) + 64 * (i1 % 32) + d.esize * (i0 % d.squareW) + 16 * (d.s2 * i2 + d.s3 * i3)
  else d.esize * i0 + 16 * (d.s1 * i1 + d.s2 * i2 + d.s3 * i3)

/-- The byte runs of a tensor, as displacement and length. -/
def runs (d : Desc) : List (Nat × Nat) :=
  if let some n := d.len then [(0, n)]
  else if d.empty then [(0, 0)]
  else if d.isBlock then [(0, d.blockBytes)]
  else if d.blocked then
    (List.range d.e3).flatMap (fun i3 => (List.range d.e2).map (fun i2 =>
      (16 * (d.s2 * i2 + d.s3 * i3), 2048 * d.sq * ceilDiv d.e1 32)))
  else
    (List.range d.e3).flatMap (fun i3 => (List.range d.e2).flatMap (fun i2 => (List.range d.e1).map (fun i1 =>
      (16 * (d.s1 * i1 + d.s2 * i2 + d.s3 * i3), d.esize * d.e0))))

/-- Bytes from the first to the last byte of a tensor (0 when it is empty). -/
def span (d : Desc) : Nat := if let some n := d.len then n else if d.empty then 0 else (d.runs.map (fun r => r.1 + r.2)).foldl max 0

/-- The destination rule of R149: each used dimension spans at least what stands below it. -/
def destOk (d : Desc) : Bool :=
  let step := fun (acc : Nat × Bool) (es : Nat × Nat) =>
    if 1 < es.1 then (max acc.1 (16 * es.2 * es.1), acc.2 && decide (acc.1 ≤ 16 * es.2 * es.1)) else acc
  ([(d.e1, d.s1), (d.e2, d.s2), (d.e3, d.s3)].foldl step (d.esize * d.e0, true)).2

/-- Stage 1 of R676: format code, reserved bits, layout, strides and CB (R149-R153). -/
def formOk (d : Desc) (dest : Bool) : Bool :=
  (d.isFP || d.isBlock) && d.res77 == 0 && d.res254 == 0 &&
  if d.isBlock then d.layout == 0 && d.s1 == 0 && d.s2 == 0 && d.s3 == 0
  else d.cb == 0 &&
    if d.blocked then
      d.s1 == 0 && (decide (d.e2 ≤ 1) || d.s2 % 128 == 0) && (decide (d.e3 ≤ 1) || d.s3 % 128 == 0)
    else !dest || d.empty || d.destOk

/-- The alignment of ADDR (R149, R150, R152). -/
def alignment (d : Desc) : Nat := if d.len.isSome then 1 else if d.isBlock then 64 else if d.blocked then 2048 else d.esize

/-- The same ADDR, FORMAT, LAYOUT, extents and strides: the in-place exception of R192. -/
def sameAs (a b : Desc) : Bool :=
  a.addr == b.addr && a.fmt == b.fmt && a.layout == b.layout && a.exts == b.exts && a.s1 == b.s1 && a.s2 == b.s2 && a.s3 == b.s3

/-- Equal extents. -/
def sameExt (a b : Desc) : Bool := a.exts == b.exts
/-- A raw word tensor of 2 or 4 byte words (R193). -/
def raw16 (d : Desc) : Bool := d.fmt == 1 && d.layout == 0
def raw32 (d : Desc) : Bool := d.fmt == 2 && d.layout == 0
end Desc

/-- A range of n bytes at a unified address. -/
def Desc.range (addr n : Nat) : Desc := { Desc.ofBits 0 with addr := addr, fmt := 1, len := some n }

/-- Descriptor t[n] of a tile. -/
def Tile.desc (t : Tile) (n : Nat) : Desc := Desc.ofBits (t.t.get (fun _ => 0) n)

/-- An operand of an operation: its descriptor, whether it is the destination, the spaces it accepts (bit s for space s), and
whether a marked Umbra page may be read through it (R533). -/
structure Operand where
  d : Desc
  dest : Bool := false
  spaces : Nat
  licensed : Bool := false
  deriving DecidableEq, Repr

/-- Spaces of R145. -/
def spUnit : Nat := 0b1000001
def spMove : Nat := 0b1111111
def spColl : Nat := 0b1010111
def spUpd : Nat := 0b0100100
def spOwn : Nat := 0b0000001

/-- Stage 3 of R676 for an operand. -/
def Core.boundsStage (c : Core) (p : Nat) (o : Operand) : Bool :=
  bitOf o.spaces (bits o.d.addr 63 60) && o.d.addr % o.d.alignment == 0 &&
  o.d.runs.all (fun r => c.boundsOk p o.d.addr r.1 r.2)

/-- Stage 4 of R676 for an operand; a read of a licensed window or of a marked page ends with PROTECTION too (R532, R533). -/
def Core.protStage (c : Core) (p l : Nat) (o : Operand) : Bool :=
  o.d.runs.all (fun r => c.protOk p l o.d.addr r.1 r.2 &&
    (o.dest || r.2 == 0 || o.licensed ||
      match bits o.d.addr 63 60 with
      | 2 => !c.inLicensed p (bits o.d.addr 39 0 + r.1) r.2
      | 6 => !c.marked p (bits o.d.addr 24 0 + r.1) r.2
      | _ => true))

/-- The range of an operand in the spaces that stage 5 compares: a store number (tile or Umbra), first byte and length. -/
def Operand.extent (o : Operand) (l : Nat) : Option (Nat × Nat × Nat) :=
  match bits o.d.addr 63 60 with
  | 0 => some (l, bits o.d.addr 21 0, o.d.span)
  | 1 => some (bits o.d.addr 47 40, bits o.d.addr 21 0, o.d.span)
  | 6 => some (256, bits o.d.addr 24 0, o.d.span)
  | _ => none

/-- Whether the destination overlaps a source (R192). -/
def overlapStage (l : Nat) (ops : List Operand) (inPlace : Bool) : Bool :=
  let dests := ops.filter (·.dest)
  let srcs := ops.filter (fun o => !o.dest)
  dests.any (fun d => (srcs.zipIdx).any (fun s =>
    if inPlace && s.2 == 0 && d.d.sameAs s.1.d then false
    else match d.extent l, s.1.extent l with
      | some a, some b => a.1 == b.1 && overlaps a.2.1 a.2.2 b.2.1 b.2.2
      | _, _ => false))

/-- Stages 1 to 5 of R676 over the operands in the order td, ta, tb, tc: the status of the first failing check, or SUCCESS.
`shape` is stage 2. -/
def Core.issueChecks (c : Core) (p l : Nat) (ops : List Operand) (shape inPlace : Bool) : Nat :=
  if !ops.all (fun o => o.d.formOk o.dest) then St.LENGTH
  else if !shape then St.LENGTH
  else if ops.any (fun o => bits o.d.addr 63 60 == 5 && bitOf o.spaces 5 && bits o.d.addr 59 56 == 0 &&
      c.rowTableCheck p (bits o.d.addr 55 48) == St.LENGTH) then St.LENGTH
  else if !ops.all (c.boundsStage p) then St.BOUNDS
  else if !ops.all (c.protStage p l) then St.PROTECTION
  else if overlapStage l ops inPlace then St.BOUNDS
  else St.SUCCESS

/-- The event of a refused read of a licensed window (R532, R547). -/
def Core.licensedRefused (c : Core) (p o n : Nat) : Core :=
  match (c.licensed p).find? (fun w => overlaps o n w.2.1 w.2.2) with
  | some w => c.evt Cls.item Src.security p 0x0C0C (w.1 + (max o w.2.1) / 4096 * 2 ^ 32)
  | none => c

/-- The first source of an operation that reads a licensed window it may not read posts the refusal, when the operation ends with
PROTECTION (R532). -/
def Core.licensedEvent (c : Core) (p : Nat) (ops : List Operand) (st : Nat) : Core :=
  let reads := (ops.filter (fun o => !o.dest && !o.licensed && bits o.d.addr 63 60 == 2)).flatMap
    (fun o => o.d.runs.map (fun r => (bits o.d.addr 39 0 + r.1, r.2)))
  match reads.find? (fun r => st == St.PROTECTION && c.inLicensed p r.1 r.2) with
  | some r => c.licensedRefused p r.1 r.2
  | none => c

/-! ### Memory faults while an operation runs -/

/-- The place of each byte of an operand, with the size of the scratchpad unit that the access reads and checks there: the 64-byte bank
word of a read (R329), the 32-bit word that a write covers in part (R331), none (0) where a write covers the word. -/
def Core.accesses (c : Core) (p l : Nat) (o : Operand) : List (Place × Nat) :=
  let checks := fun (r : Nat × Nat) (k : Nat) (pl : Place) =>
    if !o.dest then 64
    else match pl with
      | .scratch _ a => if r.1 + a % 4 ≤ k ∧ k - a % 4 + 4 ≤ r.1 + r.2 then 0 else 4
      | _ => 0
  o.d.runs.flatMap (fun r => (upFrom r.1 r.2).map (fun k => let pl := c.place p l o.d.addr k; (pl, checks r k pl)))

/-- The lost byte (R333) that checking the unit of offset `a` of a tile's space 0x0 meets, as an offset of it.
DESIGN CHOICE (assumption 27). -/
def Core.lostWord (c : Core) (t a unit : Nat) (env : MemEnv) : Option Nat :=
  if unit = 0 then none
  else (env.scratchLost.find? (fun b => b / unit == c.scratchKey t a / unit)).map (fun b => a / unit * unit + b % unit)

/-- Whether the access of a line of device memory is lost (R363); every access of a FAILED channel is (R369).
DESIGN CHOICE (assumption 27). -/
def Core.lostLine (c : Core) (d : Nat) (env : MemEnv) : Bool := env.dramLost.any (fun b => b / 64 == d / 64) || c.channelFailed d

/-- The status of the first byte of an operand that the memories refuse: a wipe, a lost word or line, the host link, a failed SSD. -/
def Core.touches (c : Core) (p l : Nat) (o : Operand) (env : MemEnv) : Nat :=
  let hit := fun (x : Place × Nat) => match x.1 with
    | .scratch t a => match c.wipeStatus t a with
      | some st => st
      | none => if (c.lostWord t a x.2 env).isSome then St.PARITY else 0
    | .view q v => match c.viewToDpa q v with
      | some d => if c.lostLine d env then St.PARITY else 0
      | none => 0
    | .host _ => if c.flag Regs.HIF_LINK_STATUS_UP && c.busMaster.contains (p + 1) then env.hostStatus else St.LINK_DOWN
    | .flash a => if c.flag Regs.SLOW_SSD_STATUS_ACTIVE (a / 2 ^ 45) && !c.flag Regs.SLOW_SSD_STATUS_FAILED (a / 2 ^ 45) then 0
      else St.LINK_DOWN
    | _ => 0
  match env.scratchLost, env.dramLost, env.hostStatus, c.wipes,
    bits o.d.addr 63 60 == 5 || !c.failedCh.isEmpty || 
      (bits o.d.addr 63 60 == 3 && (!c.flag Regs.HIF_LINK_STATUS_UP || !c.busMaster.contains (p + 1))) with
  | [], [], 0, [], false => 0
  | _, _, _, _, _ => (((c.accesses p l o).map hit).find? (· != 0)).getD 0

/-! ### Elements -/

/-- Bits of the element at an index of an FP16, FP32 or raw tensor. -/
def Core.elem (c : Core) (p l : Nat) (d : Desc) (i0 i1 i2 i3 : Nat) : Nat :=
  leNat (c.readAt p l d.addr (d.elemOff i0 i1 i2 i3) d.esize)

/-- The indices of a tensor in element order, dimension 0 fastest. -/
def Desc.indices (d : Desc) : List (Nat × Nat × Nat × Nat) :=
  (List.range d.e3).flatMap (fun i3 => (List.range d.e2).flatMap (fun i2 => (List.range d.e1).flatMap (fun i1 =>
    (List.range d.e0).map (fun i0 => (i0, i1, i2, i3)))))

/-- Every element of a tensor, in element order. -/
def Core.elems (c : Core) (p l : Nat) (d : Desc) : List Nat :=
  d.indices.map (fun i => c.elem p l d i.1 i.2.1 i.2.2.1 i.2.2.2)

/-- Write elements at indices. -/
def Core.putElems (c : Core) (p l : Nat) (d : Desc) (es : List ((Nat × Nat × Nat × Nat) × Nat)) : Core :=
  let put := fun (c : Core) (e : (Nat × Nat × Nat × Nat) × Nat) =>
    c.writeAt p l d.addr (d.elemOff e.1.1 e.1.2.1 e.1.2.2.1 e.1.2.2.2) (leBytes d.esize e.2)
  threadAll put c es

/-- The padding positions of the squares of a blocked tensor take +0 (R151). -/
def Core.zeroPadding (c : Core) (p l : Nat) (d : Desc) : Core :=
  if !d.blocked then c
  else
    let w := alignUp d.e0 d.squareW
    let h := alignUp d.e1 32
    if w = d.e0 ∧ h = d.e1 then c
    else
      let pads := (List.range d.e3).flatMap (fun i3 => (List.range d.e2).flatMap (fun i2 =>
        (List.range h).flatMap (fun i1 => (List.range w).filterMap (fun i0 =>
          if i0 < d.e0 ∧ i1 < d.e1 then none else some (i0, i1, i2, i3)))))
      c.putElems p l d (pads.map (fun i => (i, 0)))

/-- Whether two elements of a destination can fall at one address (R149): a used dimension steps less than what stands below
it spans. -/
def Desc.mayCollide (d : Desc) : Bool :=
  let step := fun (acc : Nat × Bool) (es : Nat × Nat) =>
    if 1 < es.1 then (max acc.1 (16 * es.2 * es.1), acc.2 || decide (16 * es.2 < acc.1)) else acc
  if d.blocked then
    ([(d.e2, d.s2), (d.e3, d.s3)].foldl step (2048 * d.sq * ceilDiv d.e1 32, false)).2
  else ([(d.e1, d.s1), (d.e2, d.s2), (d.e3, d.s3)].foldl step (d.esize * d.e0, false)).2

/-- Where elements of one destination fall at one address, that address holds one of their values, and the spec does not say
which (R149): a free choice among them. -/
def Core.chooseColliding (c : Core) (d : Desc) (es : List ((Nat × Nat × Nat × Nat) × Nat)) :
    List ((Nat × Nat × Nat × Nat) × Nat) × Core :=
  let off := fun (e : (Nat × Nat × Nat × Nat) × Nat) => d.elemOff e.1.1 e.1.2.1 e.1.2.2.1 e.1.2.2.2
  let pick := fun (e : (Nat × Nat × Nat × Nat) × Nat) =>
    let same := es.filter (fun f => off f == off e)
    (e.1, ((same[(Config.freeWord (c.free + off e)).toNat % same.length]?).getD e).2)
  (es.map pick, { c with free := c.free + d.span + 1 })

/-- Write a whole tensor, elements in element order, padding as R151 says. -/
def Core.putTensor (c : Core) (p l : Nat) (d : Desc) (es : List Nat) : Core :=
  let c := c.zeroPadding p l d
  if d.mayCollide then
    let (ps, c) := c.chooseColliding d (d.indices.zip es)
    c.putElems p l d ps
  else c.putElems p l d (d.indices.zip es)

/-- An index of a source that repeats along the dimensions of extent 1 (R213). -/
def Desc.clip (d : Desc) (i : Nat × Nat × Nat × Nat) : Nat × Nat × Nat × Nat :=
  let f := fun (e k : Nat) => if e = 1 then 0 else k
  (f d.e0 i.1, f d.e1 i.2.1, f d.e2 i.2.2.1, f d.e3 i.2.2.2)

/-- Each extent of a source equals the destination's or is 1 (R213). -/
def Desc.fits (s d : Desc) : Bool := (s.exts.zip d.exts).all (fun e => e.1 == e.2 || e.1 == 1)

end Sys2Proof.Machine
end

