-- ==== Sys2Proof/Machine/Flags.lean ====
section
/-! DEFINITION. Flags.lean: the non-finite flag and the numeric counters of a tile (R87, R128). -/

namespace Sys2Proof.Machine

/-- Non-finite elements among stored bits. -/
def nonFinites (f : FFmt) (es : List Nat) : Nat := (es.filter (fun w => (decodeF f w).nonFinite)).length

/-- Account for the non-finite elements that an operation of physical tile `t` reads and stores (R87, R128). -/
def Core.noteNF (c : Core) (t inputs outputs : Nat) : Core :=
  let c := if 0 < inputs + outputs then c.wf Regs.TILE_NUM_STATUS_NF t 1 else c
  let c := if 0 < inputs then c.wf Regs.TILE_NUM_STATUS_NF_INPUT t 1 else c
  c.count Regs.TILE_NF_ELEMENTS_COUNT t (inputs + outputs)

/-- A decode that gave an infinity: DECODE_OVF, NF and the event, at most once per tile per step (R102, R127). -/
def Core.decodeOverflow (c : Core) (t p : Nat) : Core :=
  let c := c.wf Regs.TILE_NUM_STATUS_DECODE_OVF t 1
  let step := c.stepOf p
  if (c.tile t).ovfStep = some step then c
  else (c.setTile t { c.tile t with ovfStep := some step }).evt Cls.info (Src.tile t) p 0x0201 step

end Sys2Proof.Machine
end

