-- ==== Sys2Proof/Machine/Issue.lean ====
section
/-! DEFINITION. Issue.lean: how a tile's sequencer takes an instruction (R133-R139), how a program faults (R183-R187), and how
an asynchronous operation is issued and completed (R155-R161, R190, R191). -/

namespace Sys2Proof.Machine

/-! ### Sequencer registers -/

/-- A scalar register; g0 reads as zero (R130). -/
def Tile.gr (x : Tile) (n : Nat) : Word := if n = 0 then 0 else x.g.get (fun _ => 0) n
/-- Write a scalar register; a write to g0 is discarded (R130). -/
def Tile.setGr (x : Tile) (n : Nat) (v : Word) : Tile := if n = 0 then x else { x with g := x.g.put (fun _ => 0) n v }
/-- A predicate; p7 reads as 1 (R130). -/
def Tile.pr (x : Tile) (n : Nat) : Bool := if n = 7 then true else x.p.getLsbD n
/-- Write a predicate; a write to p7 is discarded (R130). -/
def Tile.setPr (x : Tile) (n : Nat) (v : Bool) : Tile :=
  if n = 7 then x else { x with p := BitVec.ofNat 8 (setBits x.p.toNat n n (b2n v)) }
/-- A synchronisation flag. -/
def Tile.fl (x : Tile) (n : Nat) : Nat := x.flags.get (fun _ => 0) n
def Tile.setFl (x : Tile) (n v : Nat) : Tile := { x with flags := x.flags.put (fun _ => 0) n v }

/-- The guard of R133. -/
def Tile.guardTrue (x : Tile) (g : Nat) (neg : Bool) : Bool := x.pr g != neg

end Sys2Proof.Machine

namespace Sys2Proof
open Machine

/-- The decoded instruction a scalar-format command stands for. -/
def SArgs.ins (x : SArgs) (op : SOp) : SIns :=
  { op := op, guard := BitVec.ofNat 3 x.guard.val, neg := x.neg, d := BitVec.ofNat 5 x.d.val
    a := BitVec.ofNat 5 x.a.val, b := BitVec.ofNat 5 x.b.val, imm := x.imm, wide := x.wide }

/-- The decoded instruction a tensor-format command stands for. -/
def TArgs.ins (x : TArgs) (op : TOp) : TIns :=
  { op := op, guard := BitVec.ofNat 3 x.guard.val, neg := x.neg, td := BitVec.ofNat 4 x.td.val
    ta := BitVec.ofNat 4 x.ta.val, tb := BitVec.ofNat 4 x.tb.val, tc := BitVec.ofNat 4 x.tc.val
    k := BitVec.ofNat 4 x.k.val, mods := x.mods, wide := x.wide }

/-- imm37 or the 64-bit immediate (R132, R196). -/
def SArgs.immWord (x : SArgs) : Word := match x.wide with | some w => w | none => x.imm.signExtend 64

/-- The operand B of R196. -/
def SArgs.bOp (x : SArgs) (t : Tile) : Word := t.gr x.b.val + x.immWord

/-- REC and CQ of the modifiers (R190). -/
def TArgs.isRec (x : TArgs) (op : TOp) : Bool := !op.isCfg && bitOf x.mods.toNat 23
def TArgs.cq (x : TArgs) : Nat := bits x.mods.toNat 22 17

end Sys2Proof

namespace Sys2Proof.Machine

/-! ### Programs -/

/-- Whether a quadrant is clamped (R50). -/
def Core.clamped (c : Core) (q : Nat) : Bool := bitOf (c.rf Regs.EVT_SKEW_STATUS_CLAMPED) q

/-- Whether the sequencer of physical tile `t` can issue: it runs a program, nothing stalls it, and no clamp, swap, duty slot,
firmware barrier or supply loss holds it (R34, R50, R183, R346, R593, R605, R628). -/
def Core.canIssue (c : Core) (t : Nat) : Bool :=
  let x := c.tile t
  x.run == 1 && x.stall.isNone && !c.fwHold && !c.lost && !c.clamped (quadOfGroup (groupOfPhys t)) &&
  !bitOf c.gated (quadOfGroup (groupOfPhys t)) &&
  !(c.bankSwaps.any (fun b => b.tile == t)) &&
  match c.logical t, c.partOfGroup (groupOfPhys t) with
  | some l, some p =>
    !(c.tileSwaps.any (fun s => s.ltile == l)) && c.pstate p == pACTIVE &&
    match (c.part p).prog with
    | some pr => !pr.stopping
    | none => false
  | _, _ => false

/-- The logical tile and the partition that physical tile `t` serves. -/
def Core.who (c : Core) (t : Nat) : Nat × Nat :=
  ((c.logical t).getD 0, (c.partOfGroup (groupOfPhys t)).getD 0)

/-- The tile of a program that stops: it holds at its instruction boundary (R183). -/
def Core.stopTile (c : Core) (l : Nat) : Core :=
  match c.phys l with
  | some t => if (c.tile t).run = 1 then c.setTile t { c.tile t with run := 2, stall := none } else c
  | none => c

/-- Stop the program of a partition: every tile stops at its next instruction boundary (R183); the first cause stands. -/
def Core.stopProgram (c : Core) (p status : Nat) (fault : Option (Nat × Nat × Nat × Nat)) : Core :=
  match (c.part p).prog with
  | none => c
  | some pr =>
    if pr.stopping then c
    else
      let pr := { pr with stopping := true, endStatus := status, fault := fault }
      threadAll Core.stopTile (c.setPart p { c.part p with prog := some pr }) pr.tiles

/-- FAULT_INFO, and INFO0 of PROGRAM_FAULT (R186, R189). -/
def Core.faultWord (c : Core) (t reason status major : Nat) : Nat :=
  status + reason * 2 ^ 16 + major * 2 ^ 24 + (c.tile t).pc * 2 ^ 32

/-- FAULT_INFO and PROGRAM_FAULT of physical tile `t`, which stops. -/
def Core.noteFault (c : Core) (t w : Nat) : Core :=
  ((c.wr Regs.TILE_FAULT_INFO t w).setTile t { c.tile t with run := 2, stall := none }).evt Cls.item (Src.tile t) (c.who t).2 0x0300 w
    ((c.who t).1 + (c.tile t).imageTile * 2 ^ 8)

/-- A program fault of physical tile `t` (R183, R186, R187): its FAULT_INFO, PROGRAM_FAULT, and the stop of the program. -/
def Core.programFault (c : Core) (t reason status major : Nat) : Core :=
  (c.noteFault t (c.faultWord t reason status major)).stopProgram (c.who t).2 status
    (some (status, reason, (c.who t).1, (c.tile t).pc))

/-- Why the fetch at a tile's pc fails, if it does (R138): at or above 0x30_0000 BOUNDS, in Umbra or the Shadow store reservation
PROTECTION. DEDUCED (assumption 12). -/
def Core.fetchFault (c : Core) (t : Nat) : Option Nat :=
  let pc := (c.tile t).pc
  if 0x300000 ≤ pc + 7 then some St.BOUNDS
  else if c.ordinaryEnd t ((c.logical t).getD 0) < pc + 8 then some St.PROTECTION
  else none

/-- Move the pc past an instruction (R132). -/
def Core.advance (c : Core) (t len : Nat) : Core :=
  c.setTile t { c.tile t with pc := ((c.tile t).pc + len) % 2 ^ 22 }

/-- What every instruction does before its effect: nothing when the tile cannot issue; a fetch fault; the count; the encoding
check, before the guard (R136, R138); and the guard (R137). `reason` is R187's reason of a failing encoding. -/
def Core.sequence (c : Core) (t : Nat) (major len : Nat) (reason : Option Nat) (guard : Nat) (neg : Bool)
    (body : Core → Core) : Core :=
  if !c.canIssue t then c
  else match c.fetchFault t with
  | some st => c.programFault t 5 st major
  | none =>
    let c := c.count Regs.TILE_INSTR_COUNT_COUNT t
    match reason with
    | some r => c.programFault t r St.ILLEGAL major
    | none => if (c.tile t).guardTrue guard neg then body c else c.advance t len

/-- Bytes of an instruction (R132). -/
def wideLen (w : Option Word) : Nat := if w.isSome then 16 else 8

/-- R187's reason of a scalar-format instruction that fails R136. -/
def SIns.reason (i : SIns) : Option Nat := if !i.formOk then some 1 else if !i.fieldsOk then some 2 else none
/-- R187's reason of a tensor-format instruction that fails R136. -/
def TIns.reason (i : TIns) : Option Nat := if !i.formOk then some 1 else if !i.fieldsOk then some 2 else none

/-- A scalar-format instruction with effect `body`; the body moves the pc itself. -/
def Core.scalarIns (c : Core) (x : SArgs) (op : SOp) (body : Core → Core) : Core :=
  c.sequence x.tile.val op.major (wideLen x.wide) (x.ins op).reason x.guard.val x.neg body

/-! ### Asynchronous operations -/

/-- What running an operation gives: the device after its effect, the status its completion records, whether a later command of
a protocol ends it, the codec slots it names (R94), the bytes its record reports, and R157's unit. -/
structure OpRes where
  c : Core
  st : Nat := 0
  wait : Bool := false
  slots : List Nat := []
  info : Nat := 0
  note : Nat := 0
  work : Nat := 0
  deriving DecidableEq, Repr

/-- An operation that ends with a status and no effect. -/
def OpRes.fail (c : Core) (st : Nat) : OpRes := { c := c, st := st }

/-- Whether the phase mark of an instruction admits the partition's phase (R166): phases NONE 0, FWD 1, BWD 2. -/
def phaseOk (mark phase : Nat) : Bool := mark == 0 || mark == phase

/-- The unit that runs an opcode issued by logical tile `l` of partition `p`, as a source index (R22, R58, R226). -/
def Core.unitOf (c : Core) (op : TOp) (t l p : Nat) : Nat :=
  match op with
  | .COPY | .FILL | .GATHER | .SCATTER | .RPUT | .RGET | .RATOM | .RSEND | .RRECV | .RSCAT | .AGATH | .A2A | .RING
  | .AUDIT | .CKPT => Src.dme (dmeOf l)
  | .UPDATE | .UPDPROG | .EXPORT | .ROWUPD => Src.updEngine (groupOfLogical l)
  | .LSCALE => Src.updEngine (c.lead p)
  | .ROUTE => Src.route (quadOfGroup (groupOfPhys t))
  | .CFGBEGIN | .CFGWR | .CFGCOMMIT | .CFGRBACK => Src.part p
  | _ => Src.tile t

/-- What running the operation of an instruction gives; with REC and a queue that is not enabled it fails with BOUNDS, unless it fails
anyway (R191). -/
def Core.runOp (c : Core) (x : TArgs) (op : TOp) (l p : Nat) (body : Core → Nat → Nat → OpRes) : OpRes :=
  let c : Core := { c with touched := [], dests := [], rowAccess := false }
  let r := body c l p
  if x.isRec op && !c.flag Regs.HIF_CQ_CFG_ENABLE (qi p x.cq) then
    if r.st ≠ 0 && !r.wait then OpRes.fail c r.st else OpRes.fail c St.BOUNDS
  else r

/-- The operation that an instruction starts: its tile's pc is `pc`, the item it opened `item`. -/
def AOp.issued (x : TArgs) (op : TOp) (id l p unit pc : Nat) (item : Option Nat) (r : OpRes) : AOp :=
  { id := id, part := p, ltile := l, tok := x.k.val, major := op.uses.major, unit := unit, pc := pc
    item := item, status := r.st, info := r.info, slots := r.slots, wait := r.wait, note := r.note, work := r.work
    banks := r.c.touched, dests := r.c.dests, rowAccess := r.c.rowAccess }

/-- Start an asynchronous operation (R155, R160): `body` runs, the pc moves on, the token counts one more outstanding operation, an item is
opened when REC asks for a record (R190), and the operation is in progress. DESIGN CHOICE (assumption 86). -/
def Core.beginOp (c : Core) (x : TArgs) (op : TOp) (l p : Nat) (body : Core → Nat → Nat → OpRes) : Core :=
  let t := x.tile.val
  let k := x.k.val
  let pc := (c.tile t).pc
  let unit := c.unitOf op t l p
  let opens := x.isRec op && c.flag Regs.HIF_CQ_CFG_ENABLE (qi p x.cq)
  let r := c.runOp x op l p body
  let item := if opens then some r.c.nextItem else none
  let c := ({ r.c with touched := [], dests := [], rowAccess := false } : Core).advance t (wideLen x.wide)
  let c := c.setTile t ((c.tile t).setToken k { (c.tile t).token k with count := ((c.tile t).token k).count + 1 })
  let c := if opens then
      c.openItem
        { id := 0, part := p, kind := .op, tag := pc + k * 2 ^ 22 + op.uses.major * 2 ^ 26
          ltile := l, cq := x.cq, source := unit, started := true, info := r.info }
    else c
  { c with ops := c.ops ++ [AOp.issued x op c.nextOp l p unit pc item r], nextOp := c.nextOp + 1 }

/-- Issue of an asynchronous instruction (R155): the phase mark, the token stall of R156 and the stalls of R570, R607 and R609 (no issue),
REC (R160, R190, R191), then `body` on the device, the logical tile and the partition. `body` has made the checks of R676. -/
def Core.tensorIns (c : Core) (x : TArgs) (op : TOp) (body : Core → Nat → Nat → OpRes) : Core :=
  let t := x.tile.val
  let (l, p) := c.who t
  let runs := (x.ins op).reason.isNone && (c.tile t).guardTrue x.guard.val x.neg
  if runs && ((c.tile t).token x.k.val).count == 255 then c
  else if runs && x.isRec op && !c.canOpen p then c
  else
    c.sequence t op.uses.major (wideLen x.wide) (x.ins op).reason x.guard.val x.neg (fun c =>
      if !phaseOk op.uses.phase (c.part p).phase then c.programFault t 3 St.ILLEGAL op.uses.major
      else c.beginOp x op l p body)

/-! ### What wakes a stalled sequencer -/

/-- The units that a PHASE drains (R163): matrix, vector, codec, stash and route. -/
def drained (major : Nat) : Bool := (decide (0x40 ≤ major) && decide (major ≤ 0x9F)) || major == 0xB8

/-- The stash unit's opcodes (R230). -/
def isStash (major : Nat) : Bool := decide (0x90 ≤ major) && decide (major ≤ 0x9F)

/-- The lowest-numbered token of a mask that holds a failure, and its status (R158). -/
def Tile.failedToken (x : Tile) (mask : Nat) : Option Nat :=
  ((List.range 16).find? (fun k => bitOf mask k && (x.token k).status != 0)).map (fun k => (x.token k).status)

/-- Whether every token of a mask is signalled (R157). -/
def Tile.signalled (x : Tile) (mask : Nat) : Bool :=
  (List.range 16).all (fun k => !bitOf mask k || (x.token k).count == 0)

/-- Whether a stash entry is readable in the current step (R230, R272). -/
def Tile.stashReadable (x : Tile) (entry : Nat) : Bool :=
  x.stash.any (fun e => e.name == entry && (e.loc == .resident || e.loc == .spilled))

/-- Empty the stash directory, the reservation and the spill area of a tile (R275, R286). -/
def Core.emptyStash (c : Core) (t : Nat) : Core :=
  let c := c.setTile t { c.tile t with stash := [], ring := [], ringNext := 0, spillHead := 0, pairs := [] }
  let c := c.wr Regs.TILE_STASH_USE t 0
  let c := c.wf Regs.TILE_STASH_STATUS_SPILLING t 0
  let c := c.wf Regs.TILE_STASH_STATUS_SPILLED t 0
  let c := c.wf Regs.TILE_STASH_STATUS_DROPPED t 0
  c.wf Regs.TILE_STASH_STATUS_LOST t 0

/-- Whether a partition has a tile group in a clamped quadrant (R51). -/
def Core.partClamped (c : Core) (p : Nat) : Bool := (c.groups p).any (fun g => c.clamped (quadOfGroup g))

/-- Whether a firmware activation waits or holds (R627, R628). -/
def Core.fwWaits (c : Core) : Bool := c.rf Regs.FW_FW_STATUS_STATE == 3 || c.rf Regs.FW_FW_STATUS_STATE == 4

/-- Complete the partition's barrier when every tile of the program has arrived (R163-R165); `boundary` tells that the step
boundary has been taken, which the barrier of R164 waits for. A boundary already taken since the phase became BWD is that one while
the step after it holds nothing. A firmware activation holds a complete barrier (R627). DEDUCED (assumptions 15, 43).
DEDUCED (assumption 15). DEDUCED (assumption 43). -/
def Core.tryBarrier (c : Core) (p : Nat) (boundary : Bool) : Core :=
  let st := (c.part p).step
  let boundary := boundary || (c.part p).barrierHeld || ((c.part p).stepTaken && st.items.isEmpty && !st.closed)
  match (c.part p).prog with
  | none => c
  | some pr =>
    let stalls := pr.tiles.map (fun l => match c.phys l with | some t => (c.tile t).stall | none => none)
    if pr.stopping || c.partClamped p then c
    else
      let go := fun (bwd : Bool) =>
        if stalls.all (· == some (Stall.barrier bwd)) then
          if !bwd && (c.part p).phase == 2 && !boundary then c.setPart p { c.part p with boundaryWait := true }
          else if c.fwWaits then c.setPart p { c.part p with barrierHeld := true, boundaryWait := false }
          else
            let isBoundary := !bwd && (c.part p).phase == 2
            let ph := if bwd then 2 else 1
            let old := (c.part p).phase
            let taken := decide (old = ph) && (c.part p).stepTaken
            let c := c.setPart p { c.part p with phase := ph, boundaryWait := false, barrierHeld := false, stepTaken := taken }
            let resume := fun (c : Core) (l : Nat) => match c.phys l with
              | some t =>
                let c := c.setTile t { c.tile t with stall := none, pc := ((c.tile t).pc + 8) % 2 ^ 22 }
                if isBoundary then c.emptyStash t else c
              | none => c
            let c := threadAll resume c pr.tiles
            if old = ph then c
            else
              let src := match pr.tiles.head? with | some l => (c.phys l).getD 0 | none => 0
              c.evt Cls.info (Src.tile src) p 0x0302 (ph + c.stepOf p * 2 ^ 8)
        else c
      if stalls.any (· == some (Stall.barrier true)) then go true else go false

/-- The barriers that an activation held go on (R627, R628). -/
def Core.releaseBarriers (c : Core) : Core :=
  threadAll (fun c p => if (c.part p).barrierHeld then c.tryBarrier p false else c) c (List.range 16)

/-- A WAITING activation is abandoned: STATE returns to STAGED, and held tiles go on (R631, R633). DEDUCED (assumption 81). -/
def Core.fwAbandon (c : Core) (cause : Nat) : Core :=
  if c.rf Regs.FW_FW_STATUS_STATE = 3 then
    ((c.wf Regs.FW_FW_STATUS_STATE 0 2).releaseBarriers).evt Cls.info Src.firmware devPart 0x0F04 cause
  else c

/-- Let a stalled sequencer go on when what it waits for has come (R158, R161, R163, R171, R230). -/
def Core.wake (c : Core) (t : Nat) : Core :=
  let x := c.tile t
  let done := fun (x : Tile) (len : Nat) => { x with stall := none, pc := (x.pc + len) % 2 ^ 22 }
  match x.stall with
  | some (.tokens mask tol len) =>
    if !x.signalled mask then c
    else match tol with
      | some d =>
        let st := (x.failedToken mask).getD 0
        let clear := fun (x : Tile) (k : Nat) =>
          if bitOf mask k then x.setToken k { x.token k with status := 0 } else x
        c.setTile t (done (threadAll clear (x.setGr d (BitVec.ofNat 64 st)) (List.range 16)) len)
      | none => match x.failedToken mask with
        | some st => c.programFault t 7 st 0xC0
        | none => c.setTile t (done x len)
  | some .halt =>
    if !x.signalled 0xFFFF then c
    else match x.failedToken 0xFFFF with
      | some st => c.programFault t 8 st 0x1F
      | none => c.setTile t { x with stall := none, run := 3 }
  | some (.flag n thr consume) =>
    if x.fl n < thr then c
    else c.setTile t (done (if consume then x.setFl n (x.fl n - thr) else x) 8)
  | some (.drain bwd) =>
    let (l, p) := c.who t
    if c.ops.any (fun o => o.ltile == l && o.part == p && drained o.major) then c
    else
      let others := match (c.part p).prog with
        | some pr => pr.tiles.any (fun l' => match c.phys l' with
            | some t' => (c.tile t').stall == some (Stall.barrier (!bwd))
            | none => false)
        | none => false
      if others then c.programFault t 4 St.ILLEGAL 0xC5
      else (c.setTile t { x with stall := some (.barrier bwd) }).tryBarrier p false
  | some (.stest d entry) =>
    let (l, p) := c.who t
    if c.ops.any (fun o => o.ltile == l && o.part == p && isStash o.major) then c
    else c.setTile t (done (x.setPr d (x.stashReadable entry)) 8)
  | _ => c

/-- Put a sequencer into a stall and let it go on at once when it can. -/
def Core.stallOn (c : Core) (t : Nat) (s : Stall) : Core := (c.setTile t { c.tile t with stall := some s }).wake t

end Sys2Proof.Machine
end

