-- ==== Sys2Proof/Machine/Spare.lean ====
section
/-! DEFINITION. Spare.lean: tile sparing (R33-R39, R644), bank sparing (R345-R348) and what a lost scratchpad word or a lost
device-memory access does (R333, R363). -/

namespace Sys2Proof.Machine

/-- The physical tile of a group that neither serves a logical tile nor is out of service (R34, R37). -/
def Core.spareTile (c : Core) (g : Nat) : Option Nat :=
  (upFrom (17 * g) 17).find? (fun t => (c.logical t).isNone && !c.outTiles.contains t)

/-! ### Results cut short (R60) -/

/-- Bytes of a span take free values: an operation that ended early may have written any part of them (R60). Bytes that another device
holds are not of this device. DEDUCED (assumption 52). -/
def Core.spoil (c : Core) (x : Span) : Core :=
  let one := fun (c : Core) (k : Nat) => match c.place x.part x.ltile x.addr k with
    | .remote _ _ _ => c
    | place => let (w, c) := c.fresh; c.writePlace (w.setWidth 8) place
  threadAll one c (upFrom x.off x.len)

/-- An operation that something else ends before its own end (R59): of its destinations any part has been written. Once the keys of its
partition are revoked nothing more is written (R542). DEDUCED (assumption 52). -/
def Core.cutOp (c : Core) (o : AOp) : Core := if o.status = 0 && !(c.part o.part).revoked then threadAll (fun c x => c.spoil x) c o.dests else c

/-- A copy that something else ends while it runs: INFO holds the bytes written, which are open, a multiple of 64 (R60, R567, R568); the
bytes after them are open too. DEDUCED (assumption 52). -/
def Core.cutCopy (c : Core) (i : Item) : Core :=
  if i.kind = .copy && i.started && !(c.part i.part).revoked then
    let (w, c) := c.fresh
    let k := w.toNat % (i.len + 1) / 64 * 64
    let rest := fun (x : Span) => { x with off := x.off + k, len := x.len - k }
    (threadAll (fun c x => c.spoil x) c (i.dests.map rest)).updItem i.id (fun i => { i with info := k })
  else c

/-- What an operand writes, as spans. -/
def Operand.dests (o : Operand) (p l : Nat) : List Span :=
  if o.dest then o.d.runs.map (fun r => ⟨p, l, o.d.addr, r.1, r.2⟩) else []

/-- End with a status every item running on a logical tile: its operations with REC, and its program (R36, R333). -/
def Core.endTileItems (c : Core) (p l status : Nat) : Core :=
  let mine := c.ops.filter (fun o => o.part == p && o.ltile == l && o.item.isSome)
  let stop := fun (c : Core) (o : AOp) =>
    ((c.cutOp o).endItem (o.item.getD 0) status false).updOp o.id (fun o => { o with item := none, status := status })
  (threadAll stop c mine).stopProgram p status none

/-- INFO0 of TILE_SPARE_START and TILE_SPARED (R644). -/
def swapInfo (l t trigger : Nat) : Nat := l + t * 2 ^ 8 + trigger * 2 ^ 17

/-- A sparing trigger while an activation holds waits until ta + 1 (R633). -/
def Core.holdSwap (c : Core) (x : HeldSwap) : Core := if c.heldSwaps.contains x then c else { c with heldSwaps := c.heldSwaps ++ [x] }

/-- A tile needs its spare (R33): start the swap (step 1 of R34), or take the logical tile out of service when the group has no
spare (R37). A request of PF0 (trigger 2) for such a group, or a second request in a group, is refused (R37, R39). While an activation
holds the trigger waits (R633). -/
def Core.startTileSwap (c : Core) (l trigger : Nat) : Core :=
  let g := groupOfLogical l
  if c.fwHold then c.holdSwap (.tile l trigger)
  else match c.phys l with
  | none => c
  | some t =>
    if c.tileSwaps.any (fun s => groupOfLogical s.ltile == g) then c
    else if (c.spareTile g).isNone then
      if trigger = 2 then c
      else
        let p := (c.partOfGroup g).getD devPart
        let c := c.evt Cls.item (Src.tile t) p 0x1002 (g + l * 2 ^ 4)
        let c := c.endTileItems p l St.PARITY
        let r : SpareRec := { kind := 0, unit := t, sub := 0 }
        { c with map := c.map.put mapDefault l none, outTiles := c.outTiles ++ [t], spareQ := c.spareQ ++ [r] }
    else
      let c := c.evt Cls.info (Src.tile t) ((c.partOfGroup g).getD devPart) 0x1000 (swapInfo l t trigger)
      let c := c.wf Regs.TILE_BANK_STATUS_SWAPPING t 0
      { c with
        bankSwaps := c.bankSwaps.filter (fun b => b.tile != t)
        tileSwaps := c.tileSwaps ++ [{ ltile := l, step := 1, trigger := trigger }] }

/-- INFO0 of BANK_SPARE_START and BANK_SPARED (R354). -/
def bankSwapInfo (b pb trigger : Nat) : Nat := b + pb * 2 ^ 5 + trigger * 2 ^ 10

/-- A bank needs the spare (R345, R346 step 1): start the swap; with the spare in use it becomes a tile swap, and during a
swap of the tile the tile swap follows (R348). While the tile itself is swapped no bank swap runs (R39). While an activation holds the
trigger waits (R633). -/
def Core.startBankSwap (c : Core) (t b trigger : Nat) (words : List Nat) : Core :=
  let p := (c.partOfGroup (groupOfPhys t)).getD devPart
  if c.fwHold then c.holdSwap (.bank t b trigger words)
  else if c.tileSwaps.any (fun s => c.phys s.ltile == some t) then c
  else if c.bankSwaps.any (fun s => s.tile == t && s.bank == b) then
    { c with bankSwaps := c.bankSwaps.map (fun s => if s.tile = t ∧ s.bank = b then { s with words := s.words ++ words } else s) }
  else if c.bankSwaps.any (fun s => s.tile == t) then
    { c with bankSwaps := c.bankSwaps.map (fun s => if s.tile = t then { s with thenTile := true } else s) }
  else if c.flag Regs.TILE_BANK_MAP_SPARE_USED t then
    match c.logical t with | some l => c.startTileSwap l 0 | none => c
  else
    let c := c.evt Cls.info (Src.tile t) p 0x0700 (bankSwapInfo b (c.physBank t b) trigger)
    let c := c.wf Regs.TILE_BANK_STATUS_SWAPPING t 1
    { c with bankSwaps := c.bankSwaps ++ [{ tile := t, bank := b, trigger := trigger, words := words }] }

/-- One more read of a logical bank that needed a replay (R335): the count, and the device with it. -/
def Core.bankErr (c : Core) (t b : Nat) : Nat × Core :=
  let i := 3 * t + b / 8
  let f : Nat := 8 * (b % 8)
  let n := min (bits (c.rd Regs.TILE_BANK_ERRS i) (f + 7) f + 1) 255
  (n, c.wr Regs.TILE_BANK_ERRS i (setBits (c.rd Regs.TILE_BANK_ERRS i) (f + 7) f n))

/-- A scratchpad read of physical tile `t` at offset `o` of its space 0x0 is exhausted: counters and BANK_WORD_LOST (R333, R335,
R354, R355). -/
def Core.wordEvent (c : Core) (t o : Nat) : Core :=
  let (l, p) := c.who t
  let w := o / 4 * 4
  let umbra := b2n (isUmbra l (o / bankBytes))
  let c := (c.bankErr t (o / bankBytes)).2
  let c := c.count Regs.TILE_PAR_REPLAYS_COUNT t 3
  let c := c.count Regs.TILE_PAR_EXHAUSTED_COUNT t
  let c := c.wr Regs.TILE_LAST_ERR t (w + 3 * 2 ^ 22 + 2 ^ 24)
  let c := c.wf Regs.TILE_BANK_STATUS_WORD_LOST t 1
  c.evt Cls.item (Src.tile t) p 0x0702 (w + umbra * 2 ^ 22 + c.stepOf p % 2 ^ 32 * 2 ^ 32) l

/-- A lost word ends every item of the tile and asks for a bank swap (R333). -/
def Core.wordLost (c : Core) (t o : Nat) : Core :=
  let (l, p) := c.who t
  ((c.wordEvent t o).endTileItems p l St.PARITY).startBankSwap t (o / bankBytes) 0 [o / 4 * 4]

/-- A scratchpad read that a replay corrected (R332): the counters; at the threshold a swap is due, which starts at the next tick (R335).
DESIGN CHOICE (assumption 27). -/
def Core.wordCorrected (c : Core) (t o replays : Nat) : Core :=
  let b := o / bankBytes
  let (n, c) := c.bankErr t b
  let c := c.count Regs.TILE_PAR_REPLAYS_COUNT t replays
  let c := c.count Regs.TILE_PAR_CORRECTED_COUNT t
  let c := c.wr Regs.TILE_LAST_ERR t (o / 4 * 4 + replays * 2 ^ 22)
  let th := c.rf Regs.TILE_BANK_CFG_SWAP_THRESH t
  if 0 < th ∧ th ≤ n then { c with swapDue := c.swapDue ++ [(t, b)] } else c

/-- The swaps that a threshold has made due start, unless the count has returned to zero (R335). DESIGN CHOICE (assumption 27). -/
def Core.startDueSwaps (c : Core) : Core :=
  let one := fun (c : Core) (e : Nat × Nat) =>
    let th := c.rf Regs.TILE_BANK_CFG_SWAP_THRESH e.1
    let n := bits (c.rd Regs.TILE_BANK_ERRS (3 * e.1 + e.2 / 8)) (8 * (e.2 % 8) + 7) (8 * (e.2 % 8))
    if 0 < th ∧ th ≤ n ∧ c.bankSwaps.all (fun s => s.tile != e.1 || s.bank != e.2) then c.startBankSwap e.1 e.2 1 [] else c
  if c.fwHold then c else threadAll one { c with swapDue := [] } c.swapDue.eraseDups

/-- The triggers that an activation has held act (R633). DEDUCED (assumption 71). -/
def Core.releaseSwaps (c : Core) : Core :=
  let one := fun (c : Core) (x : HeldSwap) => match x with
    | .tile l k => c.startTileSwap l k
    | .bank t b k ws => c.startBankSwap t b k ws
  threadAll one { c with heldSwaps := [] } c.heldSwaps

/-- Ask for the retirement of a channel, once (R368). -/
def Core.askRetire (c : Core) (h trigger : Nat) : Core :=
  if c.retireQ.any (fun r => r.1 == h) then c else { c with retireQ := c.retireQ ++ [(h, trigger)] }

/-- The replays of an access of channel `h`, after a link check and after a parity failure (R362, R396). -/
def Core.countReplays (c : Core) (h edc par : Nat) : Core :=
  (c.count Regs.MEM_EDC_REPLAYS_COUNT h edc).count Regs.MEM_PAR_REPLAYS_COUNT h par

/-- A second in ticks. -/
def secondTicks : Nat := 1000 * Config.ticksPerMs

/-- An access of device memory that replays corrected (R362): the channel's counters, and a retirement request when those of one second
reach CORR_THRESH (R368), from which they count anew. What failed last is free where both checks failed. DESIGN CHOICE (assumption 27). -/
def Core.lineCorrected (c : Core) (dpa edc par : Nat) : Core :=
  let (h, off) := c.serves dpa
  let (w, c) := c.fresh
  let link := if par = 0 then 1 else if edc = 0 then 0 else w.toNat % 2
  let c := (c.countReplays h edc par).count Regs.MEM_CORRECTED_COUNT h
  let c := c.wr Regs.MEM_LAST_ERR h (off / 64 * 64 + link * 2 ^ 33 + (edc + par) * 2 ^ 34)
  let ticks := c.tick :: (c.corrTicks.get (fun _ => []) h).filter (fun t => decide (c.tick < t + secondTicks))
  let th := c.rf Regs.MEM_CH_CFG_CORR_THRESH (h / 4)
  let hit := decide (0 < th) && decide (th ≤ ticks.length)
  let c : Core := { c with corrTicks := c.corrTicks.put (fun _ => []) h (if hit then [] else ticks) }
  if hit && c.flag Regs.MEM_RETIRE_CFG_AUTO then c.askRetire h 3 else c

/-- The accesses that replays correct (R332, R362): each word and each line that the environment names and that is read or written here,
once. DESIGN CHOICE (assumption 27). -/
def Core.replayed (c : Core) (acc : List (Place × Nat)) (env : MemEnv) : Core :=
  let word := fun (c : Core) (e : Nat × Nat) =>
    let at_ := acc.findSome? (fun x => match x.1 with
      | .scratch t a => if 0 < x.2 && e.1 / x.2 == c.scratchKey t a / x.2 then some (t, a / x.2 * x.2 + e.1 % x.2) else none
      | _ => none)
    match at_ with | some (t, o) => c.wordCorrected t o e.2 | none => c
  let line := fun (c : Core) (e : Nat × Nat × Nat) =>
    let hit := acc.any (fun x => match x.1 with
      | .view q v => (match c.viewToDpa q v with | some d => d / 64 == e.1 / 64 | none => false)
      | _ => false)
    if hit then c.lineCorrected e.1 e.2.1 e.2.2 else c
  threadAll line (threadAll word c env.scratchReplayed) env.dramReplayed

/-- Whether the environment names an access that replays correct. -/
def corrects (e : MemEnv) : Bool := !e.scratchReplayed.isEmpty || !e.dramReplayed.isEmpty

/-- A device-memory access is exhausted (R363): the channel's counters and MEM_ACCESS_LOST, and a retirement request when AUTO is 1
(R368). How many of its replays followed a link check, and whether the last failure was one, is free. DESIGN CHOICE (assumption 27). -/
def Core.accessLost (c : Core) (p view dpa : Nat) (write : Bool) : Core :=
  let (h, off) := c.serves dpa
  let (w, c) := c.fresh
  let link := w.toNat % 2
  let edc := w.toNat / 2 % 4
  let c := c.countReplays h edc (3 - edc)
  let c := c.count Regs.MEM_EXHAUSTED_COUNT h
  let c := c.wr Regs.MEM_LAST_ERR h (off / 64 * 64 + link * 2 ^ 33 + 3 * 2 ^ 34 + 2 ^ 36)
  let c := if c.flag Regs.MEM_RETIRE_CFG_AUTO then c.askRetire h 2 else c
  c.evt Cls.item (Src.channel h) p 0x0800 (dpa / 64 * 64 + b2n write * 2 ^ 40 + link * 2 ^ 41) (p + view / 64 * 2 ^ 8)

/-- What the lost bytes of an operand do to the device, after `Core.touches` has given a status. -/
def Core.lossEffects (c : Core) (p l : Nat) (o : Operand) (env : MemEnv) : Core :=
  let one := fun (x : Place × Nat) => match x.1 with
    | .scratch t a => (c.lostWord t a x.2 env).map (c.wordLost t)
    | .view q v => match c.viewToDpa q v with
      | some d => if c.lostLine d env then some (c.accessLost q v d o.dest) else none
      | none => none
    | _ => none
  ((c.accesses p l o).findSome? one).getD c

/-- Wake the banks that an operand touches (R336, R338). -/
def Core.wakeOperand (c : Core) (p l : Nat) (o : Operand) : Core :=
  let one := fun (c : Core) (k : Nat) => match c.place p l o.d.addr k with
    | .scratch t a =>
      let c := c.wakeBank t (a / bankBytes)
      if c.touched.contains (t, a / bankBytes) then c else { c with touched := c.touched ++ [(t, a / bankBytes)] }
    | _ => c
  threadAll one c (o.d.runs.flatMap (fun r =>
    if r.2 = 0 then [] else (List.range (ceilDiv r.2 4096)).map (fun i => r.1 + 4096 * i) ++ [r.1 + r.2 - 1]))

/-- The memory faults of an operation over its operands: its status and the device after R333 or R363 (0: none). The operation wakes the
banks it touches, and its replays count (R332, R362); one that meets a fault may have written any part of its destinations (R60).
DESIGN CHOICE (assumption 27). DEDUCED (assumption 52). -/
def Core.memFaults (c : Core) (p l : Nat) (ops : List Operand) (env : MemEnv) : Nat × Core :=
  let outs := ops.flatMap (fun o => o.dests p l)
  let woken := threadAll (fun c o => c.wakeOperand p l o) c ops
  match ops.find? (fun o => c.touches p l o env != 0) with
  | some o =>
    let st := c.touches p l o env
    let cut := threadAll (fun c x => c.spoil x) woken outs
    (st, if st = St.PARITY then cut.lossEffects p l o env else cut)
  | none =>
    let c : Core := { woken with dests := woken.dests ++ outs, rowAccess := woken.rowAccess || ops.any (fun o => bits o.d.addr 63 60 == 5) }
    (0, if corrects env then c.replayed (ops.flatMap (c.accesses p l)) env else c)

/-! ### Commands -/

/-- TILE_SPARE_REQUEST: a failing tile, or PF0, asks for the spare (R33). -/
def execTileSpareRequest (l : Fin 256) (trigger : Fin 3) (s : State) : Host.Outcome State Fault Refusal :=
  s.on (fun c => c.startTileSwap l.val trigger.val)

/-- TILE_SWAP_DRAINED: the tile's issued operations have completed, so the copy of step 4 starts; `lost` names the words that it cannot
read after their replays, as offsets of space 0x0 (R34, R36). -/
def execTileSwapDrained (l : Fin 256) (lost : List Nat) (s : State) : Host.Outcome State Fault Refusal :=
  s.on (fun c =>
    if c.ops.any (fun o => o.ltile == l.val) then c
    else { c with tileSwaps := c.tileSwaps.map (fun w => if w.ltile = l.val ∧ w.step = 1 then { w with step := 4, lost := lost } else w) })

/-- Registers of a tile's block that stay with the physical tile (R328, R355). -/
def staysPhysical (off : Nat) : Bool := off == 0x700 || off == 0x780

/-- Copy the registers, the sequencer and the 24 logical banks of tile `a` to tile `b`; `a` is left powered off (R34, R38). -/
def Core.copyTile (c : Core) (a b : Nat) : Core :=
  let base := fun t => 0x200000 + 0x1000 * t
  let mine := c.regs.filter (fun e => decide (base a ≤ e.1) && decide (e.1 < base a + 0x1000) && !staysPhysical (e.1 - base a))
  let kept := c.regs.keepIf (fun k => !((decide (base a ≤ k) && decide (k < base a + 0x1000) && !staysPhysical (k - base a)) ||
    (decide (base b ≤ k) && decide (k < base b + 0x1000) && !staysPhysical (k - base b))))
  let regs := threadAll (fun (m : SMap Word) (e : Nat × Word) => m.ins (e.1 - base a + base b) e.2) kept mine
  let bank := fun (m : SMap Byte) (lb : Nat) =>
    let src := a * 25 + c.physBank a lb
    let dst := b * 25 + c.physBank b lb
    let bytes := c.scratch.filter (fun e => e.1 / bankBytes == src)
    threadAll (fun (m : SMap Byte) (e : Nat × Byte) => m.ins (dst * bankBytes + e.1 % bankBytes) e.2)
      (m.keepIf (fun k => k / bankBytes != dst)) bytes
  let scratch := threadAll bank c.scratch (List.range 24)
  let c : Core := { c with regs := regs, scratch := scratch.keepIf (fun k => k / bankBytes / 25 != a) }
  (c.setTile b (c.tile a)).setTile a {}

/-- Words that a tile swap could not read take free values: the spec gives none (R36). DESIGN CHOICE (assumption 27). -/
def Core.freeWords (c : Core) (t : Nat) (offs : List Nat) : Core :=
  let byte := fun (c : Core) (o : Nat) =>
    let (w, c) := c.fresh
    { c with scratch := c.scratch.put zeroByte (c.scratchKey t o) (w.setWidth 8) }
  threadAll byte c (offs.flatMap (fun o => upFrom (o / 4 * 4) 4))

/-- TILE_SPARED: the copy ends, the map changes, the old tile goes out of service (R34 steps 4 to 6, R36, R38).
DESIGN CHOICE (assumption 19). -/
def execTileSpared (l : Fin 256) (s : State) : Host.Outcome State Fault Refusal :=
  s.on (fun c =>
    match c.tileSwaps.find? (fun w => w.ltile == l.val && w.step == 4), c.phys l.val, c.spareTile (groupOfLogical l.val) with
    | some w, some old, some new =>
      let p := (c.partOfGroup (groupOfLogical l.val)).getD devPart
      let c := threadAll (fun c o => c.wordEvent old o) c w.lost
      let c := ((c.copyTile old new).freeWords new w.lost).wf Regs.TILE_BANK_STATUS_SWAPPING new 0
      let r : SpareRec := { kind := 0, unit := old, sub := 0 }
      let c : Core :=
        { c with
          map := c.map.put mapDefault l.val (some new)
          outTiles := c.outTiles ++ [old]
          spareQ := c.spareQ ++ [r]
          bankSwaps := c.bankSwaps.filter (fun b => b.tile != old)
          tileSwaps := c.tileSwaps.filter (fun v => v.ltile != l.val) }
      let c := if w.lost.isEmpty then c else c.endTileItems p l.val St.PARITY
      let (cycles, c) := c.fresh
      c.evt Cls.info (Src.tile old) p 0x1001 (swapInfo l.val old w.trigger) cycles.toNat
    | _, _, _ => c)

end Sys2Proof.Machine
end

