-- ==== Sys2Proof/Machine/LoadStore.lean ====
section
/-! DEFINITION. LoadStore.lean: the scalar loads and stores of a tile (R201, R140-R145, R331-R333). -/

namespace Sys2Proof.Machine

/-- The address of a scalar access: g[a] plus the immediate (R201). -/
def SArgs.address (x : SArgs) (t : Tile) : Nat := (t.gr x.a.val + x.immWord).toNat

/-- Spaces of a scalar load or store (R145). -/
def spScalar : Nat := 0b1000111

/-- The status of a scalar access of n bytes: alignment and space, range, protection, licensed bytes (R141-R145, R532, R533). -/
def Core.scalarCheck (c : Core) (p l addr n : Nat) (spaces : Nat) (write : Bool) : Nat :=
  if addr % n ≠ 0 ∨ !bitOf spaces (bits addr 63 60) then St.BOUNDS
  else if !c.boundsOk p addr 0 n then St.BOUNDS
  else if !c.protOk p l addr 0 n then St.PROTECTION
  else if !write && bits addr 63 60 == 2 && c.inLicensed p (bits addr 39 0) n then St.PROTECTION
  else if !write && bits addr 63 60 == 6 && c.marked p (bits addr 24 0) n then St.PROTECTION
  else St.SUCCESS

/-- The scratchpad unit that a scalar access of n bytes reads and checks: the bank word of a load (R329), the 32-bit word of a store of 1 or
2 bytes (R331), none (0) for a store that covers whole words. -/
def scalarUnit (n : Nat) (write : Bool) : Nat := if !write then 64 else if n < 4 then 4 else 0

/-- The status that the memory gives a scalar access, and the device after it: a wipe's status, a lost word or line. A store of
1 or 2 bytes reads its word first (R331), so it can be lost; a store that covers whole words is not read. -/
def Core.scalarFault (c : Core) (p l addr n : Nat) (write : Bool) (env : MemEnv) : Nat × Core :=
  let unit := scalarUnit n write
  let one := fun (pl : Place) => match pl with
    | .scratch t a => match c.wipeStatus t a with
      | some st => some (st, c)
      | none => (c.lostWord t a unit env).map (fun o => (St.PARITY, c.wordLost t o))
    | .view q v => match c.viewToDpa q v with
      | some d => if c.lostLine d env then some (St.PARITY, c.accessLost q v d write) else none
      | none => none
    | _ => none
  (((upFrom 0 n).map (c.place p l addr)).findSome? one).getD (0, c)

/-- The banks that a scalar access touches are awake (R338). -/
def Core.wakePlaces (c : Core) (ps : List Place) : Core :=
  let one := fun (c : Core) (pl : Place) => match pl with | .scratch t o => c.wakeBank t (o / bankBytes) | _ => c
  threadAll one c ps

/-- The bytes of a scalar access of n bytes are reached: its banks are awake, and its replays count (R332, R338, R362). -/
def Core.reachBytes (c : Core) (p l addr n : Nat) (write : Bool) (env : MemEnv) : Core :=
  let ps := (upFrom 0 n).map (c.place p l addr)
  (c.wakePlaces ps).replayed (ps.map (fun pl => (pl, scalarUnit n write))) env

/-- A load of n bytes: `put` writes the value to the sequencer (R201). -/
def Core.load (c : Core) (x : SArgs) (op : SOp) (n spaces : Nat) (put : Tile → Nat → Tile) : Core :=
  c.scalarIns x op (fun c =>
    let t := x.tile.val
    let (l, p) := c.who t
    let addr := SArgs.address x (c.tile t)
    let st := c.scalarCheck p l addr n spaces false
    if st ≠ 0 then
      let c := if bits addr 63 60 = 2 ∧ st = St.PROTECTION ∧ c.inLicensed p (bits addr 39 0) n then
        c.licensedRefused p (bits addr 39 0) n else c
      c.programFault t 5 st op.major
    else
      let (fs, c) := c.scalarFault p l addr n false x.env
      if fs ≠ 0 then c.programFault t 5 fs op.major
      else
        let c := c.reachBytes p l addr n false x.env
        let v := leNat (c.readAt p l addr 0 n)
        (c.setTile t (put (c.tile t) v)).advance t (wideLen x.wide))

/-- A store of n bytes of a value of the sequencer (R201). -/
def Core.store (c : Core) (x : SArgs) (op : SOp) (n spaces : Nat) (value : Tile → Nat) : Core :=
  c.scalarIns x op (fun c =>
    let t := x.tile.val
    let (l, p) := c.who t
    let addr := SArgs.address x (c.tile t)
    let st := c.scalarCheck p l addr n spaces true
    if st ≠ 0 then c.programFault t 5 st op.major
    else
      let (fs, c) := c.scalarFault p l addr n true x.env
      if fs ≠ 0 then c.programFault t 5 fs op.major
      else ((c.reachBytes p l addr n true x.env).writeAt p l addr 0 (leBytes n (value (c.tile t)))).advance t (wideLen x.wide))

/-- LD1 to LD8: g[d] receives n bytes, zero-extended. -/
def Core.loadZero (c : Core) (x : SArgs) (op : SOp) (n : Nat) : Core :=
  c.load x op n spScalar (fun t v => t.setGr x.d.val (BitVec.ofNat 64 v))

/-- LDS1 to LDS4: g[d] receives n bytes, sign-extended. -/
def Core.loadSigned (c : Core) (x : SArgs) (op : SOp) (n : Nat) : Core :=
  c.load x op n spScalar (fun t v => t.setGr x.d.val (BitVec.ofInt 64 (signed (8 * n) v)))

/-- ST1 to ST8: the low n bytes of g[b] go to memory. -/
def Core.storeLow (c : Core) (x : SArgs) (op : SOp) (n : Nat) : Core :=
  c.store x op n spScalar (fun t => (t.gr x.b.val).toNat)

def execLd1 (x : SArgs) (s : State) : Host.Outcome State Fault Refusal := s.on (fun c => c.loadZero x .LD1 1)
def execLd2 (x : SArgs) (s : State) : Host.Outcome State Fault Refusal := s.on (fun c => c.loadZero x .LD2 2)
def execLd4 (x : SArgs) (s : State) : Host.Outcome State Fault Refusal := s.on (fun c => c.loadZero x .LD4 4)
def execLd8 (x : SArgs) (s : State) : Host.Outcome State Fault Refusal := s.on (fun c => c.loadZero x .LD8 8)
def execSt1 (x : SArgs) (s : State) : Host.Outcome State Fault Refusal := s.on (fun c => c.storeLow x .ST1 1)
def execSt2 (x : SArgs) (s : State) : Host.Outcome State Fault Refusal := s.on (fun c => c.storeLow x .ST2 2)
def execSt4 (x : SArgs) (s : State) : Host.Outcome State Fault Refusal := s.on (fun c => c.storeLow x .ST4 4)
def execSt8 (x : SArgs) (s : State) : Host.Outcome State Fault Refusal := s.on (fun c => c.storeLow x .ST8 8)
/-- LDT loads a descriptor without checking it (R153, R201). -/
def execLdt (x : SArgs) (s : State) : Host.Outcome State Fault Refusal :=
  s.on (fun c => c.load x .LDT 32 spOwn (fun t v => { t with t := t.t.put (fun _ => 0) x.d.val (BitVec.ofNat 256 v) }))
/-- STT stores a descriptor (R201). -/
def execStt (x : SArgs) (s : State) : Host.Outcome State Fault Refusal :=
  s.on (fun c => c.store x .STT 32 spOwn (fun t => (t.t.get (fun _ => 0) x.d.val).toNat))
def execLds1 (x : SArgs) (s : State) : Host.Outcome State Fault Refusal := s.on (fun c => c.loadSigned x .LDS1 1)
def execLds2 (x : SArgs) (s : State) : Host.Outcome State Fault Refusal := s.on (fun c => c.loadSigned x .LDS2 2)
def execLds4 (x : SArgs) (s : State) : Host.Outcome State Fault Refusal := s.on (fun c => c.loadSigned x .LDS4 4)

end Sys2Proof.Machine
end

