-- ==== Sys2Proof/Machine/DataMove.lean ====
section
/-! DEFINITION. DataMove.lean: COPY, FILL, GATHER and SCATTER (R202-R204), accesses through the slow tier (R382) and the
decrypting copy of licensed windows (R532, R533). -/

namespace Sys2Proof.Machine

/-! ### The slow tier -/

/-- The byte ranges of row tables that operands name, as partition offsets of space 0x5: table, offset, length, destination. -/
def slowRanges (ops : List Operand) : List (Nat × Nat × Nat × Bool) :=
  (ops.filter (fun o => bits o.d.addr 63 60 == 5)).flatMap (fun o =>
    o.d.runs.map (fun r => (bits o.d.addr 55 48, bits o.d.addr 47 0 + r.1, r.2, o.dest)))

/-- Count an access of a row in its group's directory entry (R380 ACCESS, saturating). -/
def Core.countAccess (c : Core) (p table g : Nat) (busy : Bool) : Core :=
  let r := c.rowTable p table
  let k := c.rf Regs.SLOW_DIR_RANGE_FIRST p + r.first + g
  let e := (c.dir.get dirDefault k).toNat
  let e := setBits e 46 36 (min (bits e 46 36 + 1) 2047)
  { c with dir := c.dir.put dirDefault k (BitVec.ofNat 64 (if busy then setBits e 2 2 1 else e)) }

/-- Start an NVMe command (R376). -/
def Core.nvme (c : Core) (slot kind block : Nat) (owner : NvOwner) : Core :=
  let n : NvCmd := { id := c.nextNv, slot := slot, kind := kind, block := block, owner := owner, issued := c.tick, began := c.tick }
  let c : Core := { c with nvcmds := c.nvcmds ++ [n], nextNv := c.nextNv + 1 }
  let c := if kind = 0 then c.count Regs.SLOW_READS_COUNT slot else if kind = 1 then c.count Regs.SLOW_WRITES_COUNT slot else c
  c.send 1 [slot, kind, c.rf Regs.SLOW_NSID_NSID slot, block]

/-- An access to the bytes [off, off + n) of a row table that lie in one group (R382): rows are counted; a group on flash needs
its blocks read, and written back by a write; a group on a remote device needs a message. -/
def Core.slowPart (c : Core) (p tb off n : Nat) (dest : Bool) (owner : NvOwner) : Bool × Core :=
  let t := c.rowTable p tb
  let rows := upFrom (off / t.stride) ((off + n - 1) / t.stride + 1 - off / t.stride)
  let c := threadAll (fun c row => c.countAccess p tb (row / 2 ^ t.groupLog) false) c rows
  match c.rowPlace p tb off with
  | .remote dev key o =>
    let w : MsgOwner := match owner with | .op id => .slow id false | .item id => .slow id true | _ => .none
    let r : SlowReq := { part := p, dev := dev, key := key, off := o, len := n, write := dest, owner := w }
    (true, { c with slowReqs := c.slowReqs ++ [r] })
  | .flash _ =>
    let cmd := fun (c : Core) (b : Nat) => match c.rowPlace p tb (b * 4096) with
      | .flash a =>
        let c := c.countAccess p tb (b * 4096 / t.groupBytes) true
        let c := c.nvme (a / 2 ^ 45) 0 (a % 2 ^ 45 / 4096) owner
        if dest then c.nvme (a / 2 ^ 45) 1 (a % 2 ^ 45 / 4096) owner else c
      | _ => c
    (true, threadAll cmd c (upFrom (off / 4096) ((off + n - 1) / 4096 + 1 - off / 4096)))
  | _ => (false, c)

/-- The accesses of an operation through space 0x5, group by group: whether it waits for commands or messages (R382). -/
def Core.slowAccess (c : Core) (p : Nat) (ops : List Operand) (owner : NvOwner) : Bool × Core :=
  let one := fun (acc : Bool × Core) (r : Nat × Nat × Nat × Bool) =>
    let (tb, off, n, dest) := r
    if n = 0 then acc
    else
      let gb := (acc.2.rowTable p tb).groupBytes
      let part := fun (acc : Bool × Core) (g : Nat) =>
        let lo := max off (g * gb)
        let hi := min (off + n) ((g + 1) * gb)
        let (w, c) := acc.2.slowPart p tb lo (hi - lo) dest owner
        (acc.1 || w, c)
      threadAll part acc (upFrom (off / gb) ((off + n - 1) / gb + 1 - off / gb))
  threadAll one (false, c) (slowRanges ops)

/-! ### Licensed windows -/

/-- The digest of a partition's running image (R549). -/
def Core.imageDigest (c : Core) (p : Nat) : List Byte :=
  (List.range 8).flatMap (fun i => leBytes 8 (c.rd Regs.PART_IMAGE_DIGEST (i + 8 * p)))

/-- Key slot n of partition p. -/
def Core.slot (c : Core) (p n : Nat) : Option KeySlot := c.slots.get (fun _ => none) (16 * p + n)

/-- The licensed window that holds a view range whole, if any. -/
def Core.windowOf (c : Core) (p o n : Nat) : Option (Nat × Nat × Nat) :=
  (c.licensed p).find? (fun w => decide (w.2.1 ≤ o) && decide (o + n ≤ w.2.1 + w.2.2))

/-- Decrypt chunk `k` of window `w`: its 4,096 bytes, or none when its tag fails (R531, R532). -/
def Core.openChunk (c : Core) (p : Nat) (w : Nat × Nat × Nat) (s : KeySlot) (k : Nat) : Option (List Byte) :=
  let len := c.rf Regs.SEC_LIC_LEN_LENGTH (w.1 + 4 * p) * 4096
  let ct := c.readView p (w.2.1 + 4096 * k) 4096 ++ c.readView p (w.2.1 + len + 16 * k) 16
  Config.gcmOpen s.key (leBytes 8 s.label ++ leBytes 4 k) ct

/-- Mark the Umbra pages that an operand writes (R533). -/
def Core.markPages (c : Core) (p : Nat) (o : Operand) : Core :=
  let base := bits o.d.addr 24 0
  let pages := o.d.runs.flatMap (fun r => (upFrom ((base + r.1) / 4096) ((base + r.1 + r.2 + 4095) / 4096 - (base + r.1) / 4096)).map
    (fun k => c.umbraPage p (k * 4096)))
  { c with marks := c.marks ++ pages.filter (fun k => !c.marks.contains k) }

/-- The conditions of a decrypting COPY on its window and its slot (R532): a status and the device after it. -/
def Core.licensedStatus (c : Core) (p : Nat) (ta : Desc) (w : Nat × Nat × Nat) : Nat × Core :=
  let first := bits ta.addr 39 0
  let len := c.rf Regs.SEC_LIC_LEN_LENGTH (w.1 + 4 * p) * 4096
  if (first - w.2.1) % 4096 ≠ 0 ∨ ta.span % 4096 ≠ 0 ∨ w.2.1 + len < first + ta.span then (St.LENGTH, c)
  else match c.slot p (c.rf Regs.SEC_LIC_WIN_SLOT (w.1 + 4 * p)) with
    | none => (St.PROTECTION, c)
    | some s => if !s.model || s.bind != c.imageDigest p then (St.PROTECTION, c.licensedRefused p first ta.span) else (0, c)

/-- The decrypting COPY (R532), its conditions met: every chunk is decrypted and checked in turn; the first that fails its tag ends the
copy, and what stood before it stays written. -/
def Core.copyLicensed (c : Core) (p l : Nat) (td ta : Desc) (w : Nat × Nat × Nat) : OpRes :=
  match c.slot p (c.rf Regs.SEC_LIC_WIN_SLOT (w.1 + 4 * p)) with
    | none => .fail c St.PROTECTION
    | some s =>
        let first := bits ta.addr 39 0
        let chunks := upFrom ((first - w.2.1) / 4096) (ta.span / 4096)
        let plain := (chunks.map (c.openChunk p w s)).takeWhile (·.isSome)
        let bytes := plain.flatMap (fun x => x.getD [])
        let idx := ta.indices.filter (fun i => decide (ta.elemOff i.1 i.2.1 i.2.2.1 i.2.2.2 + ta.esize ≤ bytes.length))
        let val := fun (i : Nat × Nat × Nat × Nat) =>
          leNat ((bytes.drop (ta.elemOff i.1 i.2.1 i.2.2.1 i.2.2.2)).take ta.esize)
        let c := if td.isBlock then c.writeAt p l td.addr 0 (bytes.take td.blockBytes)
          else c.putElems p l td (idx.map (fun i => (i, val i)))
        let c := c.markPages p { d := td, dest := true, spaces := spMove }
        { c := c, st := if plain.length = chunks.length then 0 else St.PROTECTION }

/-! ### The four operations -/

/-- The two forms of R203: the same FP format in either layout, or the same block-coded format with equal N and K. -/
def copyShape (td ta : Desc) : Bool :=
  td.sameExt ta && td.fmt == ta.fmt && (td.isFP || (td.nRows == ta.nRows && td.kExt == ta.kExt))

/-- Move every element, or a block-coded tensor byte for byte (R203). -/
def Core.copyData (c : Core) (p l : Nat) (td ta : Desc) : Core :=
  if td.isBlock then c.writeAt p l td.addr 0 (c.readAt p l ta.addr 0 ta.blockBytes)
  else c.putTensor p l td (c.elems p l ta)

/-- The operation of COPY (R203, R532, R533, R676). -/
def Core.opCopy (c : Core) (x : TArgs) (l p : Nat) : OpRes :=
  let t := c.tile x.tile.val
  let td := t.desc x.td.val
  let ta := t.desc x.ta.val
  let win := if bits ta.addr 63 60 = 2 ∧ bits td.addr 63 60 = 6 then c.windowOf p (bits ta.addr 39 0) ta.span else none
  let toUmbra := bits td.addr 63 60 == 6
  let ops : List Operand :=
    [{ d := td, dest := true, spaces := spMove },
     { d := ta, spaces := spMove, licensed := win.isSome || (toUmbra && bits ta.addr 63 60 == 6) }]
  let st := c.issueChecks p l ops (copyShape td ta) false
  if st ≠ 0 then .fail (c.licensedEvent p ops st) st
  else if td.empty then { c := c }
  else
    let refused := match win with | some w => c.licensedStatus p ta w | none => (0, c)
    if refused.1 ≠ 0 then .fail refused.2 refused.1
    else
      let (fs, c) := c.memFaults p l ops x.env
      if fs ≠ 0 then .fail c fs
      else match win with
      | some w => c.copyLicensed p l td ta w
      | none =>
        let (wait, c) := c.slowAccess p ops (.op c.nextOp)
        let c := c.copyData p l td ta
        let srcMarked := bits ta.addr 63 60 == 6 && ta.runs.any (fun r => c.marked p (bits ta.addr 24 0 + r.1) r.2)
        { c := if srcMarked then c.markPages p { d := td, dest := true, spaces := spMove } else c, wait := wait }

/-- The operation of FILL (R202, R233). The bytes of a group after its header hold no codes and are left as they were. -/
def Core.opFill (c : Core) (x : TArgs) (l p : Nat) : OpRes :=
  let td := (c.tile x.tile.val).desc x.td.val
  let ops : List Operand := [{ d := td, dest := true, spaces := spMove }]
  let shape := match x.wide with
    | none => true
    | some w => td.isFP && (td.isFP32 || bits w.toNat 31 16 == 0)
  let st := c.issueChecks p l ops shape false
  if st ≠ 0 then .fail c st
  else if td.empty then { c := c }
  else
    let (fs, c) := c.memFaults p l ops x.env
    if fs ≠ 0 then .fail c fs
    else
      let (wait, c) := c.slowAccess p ops (.op c.nextOp)
      let v := match x.wide with | none => 0 | some w => w.toNat % 2 ^ (8 * td.esize)
      let group := fun (c : Core) (g : Nat) =>
        c.writeAt p l td.addr (td.tableBytes + g * td.recBytes) (List.replicate 8 0 ++ List.replicate 32 0xFF ++ List.replicate 24 0)
      let c := if td.isBlock then
          threadAll group (c.writeAt p l td.addr 0 (List.replicate td.tableBytes 0)) (List.range (ceilDiv td.nRows 64 * td.kGroups))
        else c.putTensor p l td (List.replicate td.count v)
      { c := c, wait := wait }

/-- The rows of a tensor: the runs of dimension 0, numbered with dimension 1 fastest (R204). -/
def Desc.rows (d : Desc) : Nat := d.e1 * d.e2 * d.e3
def Desc.rowIndex (d : Desc) (r i0 : Nat) : Nat × Nat × Nat × Nat := (i0, r % d.e1, r / d.e1 % d.e2, r / d.e1 / d.e2)

/-- The operations of GATHER and SCATTER (R204): all indices are read and checked before a row is written. -/
def Core.opRows (c : Core) (x : TArgs) (l p : Nat) (gather : Bool) : OpRes :=
  let t := c.tile x.tile.val
  let td := t.desc x.td.val
  let ta := t.desc x.ta.val
  let tb := t.desc x.tb.val
  let ops : List Operand :=
    [{ d := td, dest := true, spaces := spMove }, { d := ta, spaces := spMove }, { d := tb, spaces := spMove }]
  let ordered := if gather then td else ta
  let indexed := if gather then ta else td
  let shape := td.isFP && td.fmt == ta.fmt && td.e0 == ta.e0 && tb.raw32 && tb.e0 == ordered.rows &&
    tb.e1 == 1 && tb.e2 == 1 && tb.e3 == 1
  let st := c.issueChecks p l ops shape false
  if st ≠ 0 then .fail (c.licensedEvent p ops st) st
  else if td.empty then { c := c }
  else
    let (fs, c) := c.memFaults p l ops x.env
    if fs ≠ 0 then .fail c fs
    else
      let idx := c.elems p l tb
      if idx.any (fun i => decide (indexed.rows ≤ i)) then .fail c St.BOUNDS
      else
        let (wait, c) := c.slowAccess p ops (.op c.nextOp)
        let cols := List.range td.e0
        let move := fun (m : Core) (e : Nat × Nat) =>
          let (src, dst) := if gather then (e.1, e.2) else (e.2, e.1)
          let row := cols.map (fun k => let s := ta.rowIndex src k; c.elem p l ta s.1 s.2.1 s.2.2.1 s.2.2.2)
          m.putElems p l td ((cols.map (td.rowIndex dst)).zip row)
        { c := threadAll move (c.zeroPadding p l td) (idx.zip (List.range idx.length)), wait := wait }

end Sys2Proof.Machine
end

