-- ==== Sys2Proof/Machine/Codec.lean ====
section
/-! DEFINITION. Codec.lean: codebooks (R90-R95), block-coded tensors (R96-R103), encodes (R104-R126) and the codec
instructions (R217, R218). -/

namespace Sys2Proof.Machine

/-! ### Codebooks -/

/-- The entry of a code as a value; a code beyond the table does not occur. -/
def Codebook.value (b : Codebook) (code : Nat) : Num := decodeF .fp16 ((b.entries[code]?).getD 0)

/-- Codes of a codebook. -/
def Codebook.size (b : Codebook) : Nat := if b.wide then 256 else 16

/-- The limit L (R93). -/
def Codebook.limit (b : Codebook) : Q :=
  let qs := b.entries.map (fun e => (decodeF .fp16 e).toQ)
  let hi := qs.foldl Q.max Q.zero
  let lo := qs.foldl Q.min Q.zero
  Q.min hi lo.neg

/-- The codebook image of a byte string of 96 or 576 bytes (R90), or none when R91 refuses it. -/
def parseCodebook (bs : List Byte) : Option Codebook :=
  let h := leNat (bs.take 8)
  let wide := bitOf h 0
  let linear := bitOf h 1
  let n := if wide then 256 else 16
  let es := (List.range n).map (fun i => leNat ((bs.drop (64 + 2 * i)).take 2))
  let nums := es.map (decodeF .fp16)
  let half := n / 2
  let d := ((nums[1]?).getD Num.nan).toQ
  let reservedOk := bits h 15 2 == 0 && bits h 63 37 == 0 && ((bs.drop 8).take 56).all (· == 0)
  let finite := nums.all (fun x => !x.nonFinite)
  let linearOk := Q.lt Q.zero d && (es.zipIdx).all (fun e =>
    let m := e.2 % half
    let want := Q.mul (Q.ofNat m) d
    if m = 0 then e.1 == (if e.2 < half then 0 else 0x8000)
    else match decodeF .fp16 e.1 with
      | .fin neg q => neg == decide (half ≤ e.2) && Q.eq q want
      | _ => false)
  let plainOk := es.eraseDups.length == es.length && !es.contains 0x8000 &&
    nums.any (fun x => Q.lt Q.zero x.toQ) && nums.any (fun x => Q.lt x.toQ Q.zero)
  if bs.length == 64 + 2 * n && reservedOk && finite && es.head? == some 0 && (if linear then linearOk else plainOk) then
    some { wide := wide, linear := linear, m := bits h 31 16, s := bits h 36 32, entries := es }
  else none

/-- The codebook in a slot of a tile. -/
def Tile.book (t : Tile) (slot : Nat) : Option Codebook := t.cb.get (fun _ => none) slot

/-- The codebook of a block-coded descriptor, when its slot holds one of the format's code width (R94). -/
def Tile.bookFor (t : Tile) (d : Desc) : Option Codebook :=
  match t.book d.cb with
  | some b => if b.wide == (d.codeBits == 8) then some b else none
  | none => none

/-- Count a refused image, header, row table entry or scale record (R128). -/
def Core.malformed (c : Core) (t : Nat) : Core := c.count Regs.TILE_MALFORMED_COUNT t

/-! ### Decoding -/

/-- A group record as read: the bytes of its header and code area (R98, R99). -/
structure Group where
  occ : Nat
  exps : Nat
  e2 : Int
  affine : Bool
  reserved : Bool
  codes : List Byte
  deriving DecidableEq, Repr

/-- The displacement of group (r, k) of a tensor (R97). -/
def Desc.groupOff (d : Desc) (r k : Nat) : Nat := d.tableBytes + (r * d.kGroups + k) * d.recBytes

/-- Read a group record. -/
def Core.readGroup (c : Core) (p l : Nat) (d : Desc) (r k : Nat) : Group :=
  let bs := c.readAt p l d.addr (d.groupOff r k) d.recBytes
  let b41 := leNat ((bs.drop 41).take 1)
  { occ := leNat (bs.take 8), exps := leNat ((bs.drop 8).take 32)
    e2 := signed 8 (leNat ((bs.drop 40).take 1)), affine := bitOf b41 0
    reserved := decide (2 ≤ b41) || !((bs.drop 42).take 22).all (· == 0)
    codes := bs.drop 64 }

/-- The offset field of block i. -/
def Group.exp (g : Group) (i : Nat) : Nat := bits g.exps (4 * i + 3) (4 * i)

/-- Whether a decode may deliver the group's elements (R101). -/
def Group.ok (g : Group) : Bool :=
  !g.reserved && (List.range 64).all (fun i => bitOf g.occ i == (g.exp i != 15)) &&
  (!g.affine || (g.e2 == 0 && (List.range 64).all (fun i => !bitOf g.occ i || g.exp i == 0)))

/-- Occupied blocks before block i (R99). -/
def Group.rank (g : Group) (i : Nat) : Nat := ((List.range i).filter (bitOf g.occ)).length

/-- The code of element k of block i (R99, R100). -/
def Group.code (g : Group) (d : Desc) (i k : Nat) : Nat :=
  let at' := g.rank i * d.codeBytes
  if d.codeBits = 4 then
    let b := ((g.codes[at' + k / 2]?).getD 0).toNat
    if k % 2 = 0 then b % 16 else b / 16
  else ((g.codes[at' + k]?).getD 0).toNat

/-- A row table entry (R122). -/
structure RowScale where
  scale : Nat
  offset : Nat
  reserved : Nat
  deriving DecidableEq, Repr

def Core.readRow (c : Core) (p l : Nat) (d : Desc) (n : Nat) : RowScale :=
  let w := leNat (c.readAt p l d.addr (8 * n) 8)
  { scale := bits w 31 0, offset := bits w 47 32, reserved := bits w 63 48 }

/-- Whether a row table entry is well formed (R125): SCALE zero or a positive normal, OFFSET finite. -/
def RowScale.ok (r : RowScale) : Bool :=
  r.reserved == 0 && (r.scale == 0 || (decide (0x00800000 ≤ r.scale) && decide (r.scale < 0x7F800000))) &&
  !(decodeF .fp16 r.offset).nonFinite

/-- The FP16 bits of an element of a group, and whether its decode overflowed (R102, R103, R125). -/
def decodeElem (b : Codebook) (g : Group) (row : RowScale) (d : Desc) (i k : Nat) : Nat × Bool :=
  if !bitOf g.occ i then (0, false)
  else
    let v := b.value (g.code d i k)
    let x := if g.affine then
        (if row.scale = 0 then decodeF .fp16 row.offset
         else addNum .nearest (mulNum v (decodeF .fp32 row.scale)) (decodeF .fp16 row.offset))
      else mulNum v (.fin false (Q.pow2 (g.e2 + g.exp i - 7)))
    let w := if g.affine ∧ row.scale = 0 then row.offset else roundNum .fp16 .nearest x
    (w, (decodeF .fp16 w).nonFinite)

/-- The row and reduction position of a logical index (R97): rows run over the other extents, lower dimensions fastest. -/
def Desc.rowOf (d : Desc) (i : Nat × Nat × Nat × Nat) : Nat × Nat :=
  let is := [i.1, i.2.1, i.2.2.1, i.2.2.2]
  let step := fun (acc : Nat × Nat) (e : (Nat × Nat) × Nat) =>
    if e.2 = d.red then acc else (acc.1 + acc.2 * e.1.1, acc.2 * e.1.2)
  (((is.zip d.exts).zipIdx.foldl step (0, 1)).1, (is[d.red]?).getD 0)

/-- The index of row n, reduction position k. -/
def Desc.indexOf (d : Desc) (n k : Nat) : Nat × Nat × Nat × Nat :=
  let step := fun (acc : List Nat × Nat) (e : Nat × Nat) =>
    if e.2 = d.red then (acc.1 ++ [k], acc.2) else (acc.1 ++ [acc.2 % (max e.1 1)], acc.2 / (max e.1 1))
  match ((d.exts.zipIdx).foldl step ([], n)).1 with
  | [a, b, e, f] => (a, b, e, f)
  | _ => (0, 0, 0, 0)

/-- The groups of a tensor in record order, up to the first that a decode refuses. -/
def Core.goodGroups (c : Core) (p l : Nat) (d : Desc) : List (Nat × Nat × Group) :=
  let all := (List.range (ceilDiv d.nRows 64)).flatMap (fun r => (List.range d.kGroups).map (fun k => (r, k, c.readGroup p l d r k)))
  all.takeWhile (fun e => e.2.2.ok && (!e.2.2.affine ||
    (upFrom (64 * e.1) (min 64 (d.nRows - 64 * e.1))).all (fun n => (c.readRow p l d n).ok)))

/-- Whether every group of a block-coded tensor decodes. -/
def Core.groupsOk (c : Core) (p l : Nat) (d : Desc) : Bool :=
  (c.goodGroups p l d).length == ceilDiv d.nRows 64 * d.kGroups

/-- Every element of a block-coded tensor's good groups: index, FP16 bits, overflow. -/
def Core.decodeAll (c : Core) (p l : Nat) (d : Desc) (b : Codebook) : List ((Nat × Nat × Nat × Nat) × Nat × Bool) :=
  (c.goodGroups p l d).flatMap (fun e =>
    (upFrom (64 * e.1) (min 64 (d.nRows - 64 * e.1))).flatMap (fun n =>
      let row := c.readRow p l d n
      (upFrom (d.blockB * e.2.1) (min d.blockB (d.kExt - d.blockB * e.2.1))).map (fun k =>
        (d.indexOf n k, decodeElem b e.2.2 row d (n % 64) (k % d.blockB)))))

/-! ### Encoding one element -/

/-- Whether an entry reads as zero. -/
def Codebook.zeroCode (b : Codebook) (code : Nat) : Bool := (b.value code).isZero

/-- The codes of a codebook sorted by the value of their entries; equal values keep code order. -/
def Codebook.sorted (b : Codebook) : List (Q × Nat) :=
  ((List.range b.size).map (fun k => ((b.value k).toQ, k))).foldr
    (fun e acc => (acc.takeWhile (fun f => Q.lt f.1 e.1)) ++ e :: acc.dropWhile (fun f => Q.lt f.1 e.1)) []

/-- The code of the largest entry, of the most negative entry. -/
def Codebook.topCode (b : Codebook) : Nat := if b.linear then b.size / 2 - 1 else ((b.sorted.getLast?).getD (Q.zero, 0)).2
def Codebook.bottomCode (b : Codebook) : Nat := if b.linear then b.size - 1 else ((b.sorted.head?).getD (Q.zero, 0)).2

/-- Non-linear encode of a scaled value (R105, R106): the code and whether it saturated. -/
def encodePlain (b : Codebook) (m : RMode) (y : Q) (r : Nat) : Nat × Bool :=
  let ss := b.sorted
  let below := ((ss.filter (fun e => Q.le e.1 y)).getLast?)
  let above := ((ss.filter (fun e => Q.le y e.1)).head?)
  match below, above with
  | none, _ => (b.bottomCode, true)
  | _, none => (b.topCode, true)
  | some lo, some hi =>
    if Q.eq lo.1 y then (lo.2, false)
    else if Q.eq hi.1 y then (hi.2, false)
    else
      let dl := Q.sub y lo.1
      let dh := Q.sub hi.1 y
      match m with
      | .nearest => (if Q.lt dl dh then lo.2 else if Q.lt dh dl then hi.2 else min lo.2 hi.2, false)
      | .zero => (if y.isNeg then hi.2 else lo.2, false)
      | .up => (hi.2, false)
      | .down => (lo.2, false)
      | .stochastic =>
        let (near, far) := if y.isNeg then (hi, lo) else (lo, hi)
        let f := (Q.mul (Q.div (Q.sub y.abs near.1.abs) (Q.sub far.1.abs near.1.abs)) (Q.ofNat 65536)).floorNat
        (if r < f then far.2 else near.2, false)

/-- Linear encode of a scaled value (R107-R109). -/
def encodeLinear (b : Codebook) (m : RMode) (y : Q) (r : Nat) : Nat × Bool :=
  let q := min (Q.mul y.abs (Q.ofNat 65536)).floorNat (2 ^ 32 - 1)
  let a := match m with
    | .nearest => if b.s = 0 then 0 else 2 ^ (b.s - 1)
    | .zero => 0
    | .up => if y.isNeg then 0 else 2 ^ b.s - 1
    | .down => if y.isNeg then 2 ^ b.s - 1 else 0
    | .stochastic => (r <<< b.s) >>> 16
  let v := (q * b.m + a) >>> b.s
  let top := b.size / 2 - 1
  let sat := decide (top < v)
  let v := min v top
  (if v = 0 then 0 else (if y.isNeg then b.size / 2 else 0) + v, sat)

/-- Encode a finite scaled value. -/
def encodeValue (b : Codebook) (m : RMode) (y : Q) (r : Nat) : Nat × Bool :=
  if b.linear then encodeLinear b m y r else encodePlain b m y r

/-- The code of an input element, and whether it saturated: an infinity takes the end entry, a NaN code 0 (R110). -/
def encodeElem (b : Codebook) (m : RMode) (x : Num) (scale : Q → Q) (r : Nat) : Nat × Bool :=
  match x with
  | .nan => (0, false)
  | .inf neg => (if neg then b.bottomCode else b.topCode, true)
  | .fin _ _ => encodeValue b m (scale x.toQ) r

/-! ### Scale records -/

/-- A scale record (R113). -/
structure ScaleRec where
  seed : Nat
  e2 : Int
  flags : Nat
  histCount : Nat
  run : Nat
  step : Nat
  amax : Nat
  sat : Nat
  flush : Nat
  hist : List Nat
  satTotal : Nat
  reserved : Bool
  deriving DecidableEq, Repr

/-- The scale record of 128 bytes. -/
def parseScale (bs : List Byte) : ScaleRec :=
  let f := fun (at' n : Nat) => leNat ((bs.drop at').take n)
  { seed := f 0 8, e2 := signed 8 (f 8 1), flags := f 9 1 % 16, histCount := f 10 1, run := f 11 1, step := f 16 8
    amax := f 24 4, sat := f 28 4, flush := f 32 4, hist := (List.range 16).map (fun i => f (40 + 4 * i) 4)
    satTotal := f 104 8
    reserved := f 9 1 / 16 != 0 || f 12 4 != 0 || f 36 4 != 0 || f 112 8 != 0 || f 120 8 != 0 }

/-- The 128 bytes of a scale record. -/
def ScaleRec.bytes (r : ScaleRec) : List Byte :=
  leBytes 8 r.seed ++ leBytes 1 (toTwos 8 r.e2) ++ leBytes 1 r.flags ++ leBytes 1 r.histCount ++ leBytes 1 r.run ++
  leBytes 4 0 ++ leBytes 8 r.step ++ leBytes 4 r.amax ++ leBytes 4 r.sat ++ leBytes 4 r.flush ++ leBytes 4 0 ++
  r.hist.flatMap (leBytes 4) ++ leBytes 8 r.satTotal ++ leBytes 16 0

/-- FLAGS of a scale record. -/
def ScaleRec.pinned (r : ScaleRec) : Bool := bitOf r.flags 0
def ScaleRec.frozen (r : ScaleRec) : Bool := bitOf r.flags 2
def ScaleRec.touched (r : ScaleRec) : Bool := bitOf r.flags 3

/-- Whether a record may be used (R114). -/
def ScaleRec.ok (r : ScaleRec) : Bool := !r.reserved && decide (r.histCount ≤ 16) && decide (r.run ≤ 16)

/-- The magnitude of an FP32 field of a record. -/
def mag32 (w : Nat) : Q := (decodeF .fp32 w).toQ.abs

/-- The roll-over of R117 at step `s` for a codebook limit L: the record, and whether E2 was clamped (R118). -/
def ScaleRec.rollOver (r : ScaleRec) (s : Nat) (lim : Q) : ScaleRec × Bool :=
  if s = r.step then (r, false)
  else
    let done := fun (r : ScaleRec) =>
      { r with step := s, amax := 0, sat := 0, flush := 0, flags := setBits r.flags 3 3 0 }
    if !r.touched then (done r, false)
    else
      let r := { r with hist := (r.amax :: r.hist).take 16, histCount := min (r.histCount + 1) 16 }
      if r.frozen then (done r, false)
      else
        let t := Q.mul lim (Q.pow2 (r.e2 + 7))
        let a := mag32 r.amax
        let (e2, run) : Int × Nat :=
          if Q.lt t a then (r.e2 + (Q.div a t).clog2, 0)
          else if Q.lt (Q.mul (Q.ofNat 4) a) t then
            if r.run + 1 = 16 then
              let m := (r.hist.map mag32).foldl Q.max Q.zero
              (if Q.lt Q.zero m then r.e2 - max 1 ((Q.div t m).log2 - 2) else r.e2, 0)
            else (r.e2, r.run + 1)
          else (r.e2, 0)
        let lo := decide (e2 < -128)
        let hi := decide (127 < e2)
        let e2' : Int := if lo then -128 else if hi then 127 else e2
        let r := { r with e2 := e2', run := run, flags := if lo || hi then setBits r.flags 1 1 1 else r.flags }
        (done r, lo || hi)

/-! ### Encoding a tensor -/

/-- What an encode counts: saturated, flushed. -/
structure EncCount where
  sat : Nat := 0
  flush : Nat := 0
  deriving DecidableEq, Repr

/-- The bytes of a block's codes (R100). -/
def packCodes (d : Desc) (codes : List Nat) : List Byte :=
  if d.codeBits = 4 then
    (List.range (d.blockB / 2)).map (fun j =>
      BitVec.ofNat 8 ((codes[2 * j]?).getD 0 + 16 * (codes[2 * j + 1]?).getD 0))
  else codes.map (BitVec.ofNat 8)

/-- A group record from its blocks: per block none for a zero block, else its offset and codes (R98, R99, R111). Bytes of the
code area after the stored codes are not written. -/
def groupBytes (d : Desc) (e2 : Int) (affine : Bool) (blocks : List (Option (Nat × List Nat))) : List Byte :=
  let ix := blocks.zipIdx
  let occ := ix.foldl (fun a b => if b.1.isSome then a + 2 ^ b.2 else a) 0
  let exps := ix.foldl (fun a b => a + (match b.1 with | some (e, _) => e | none => 15) * 2 ^ (4 * b.2)) 0
  leBytes 8 occ ++ leBytes 32 exps ++ leBytes 1 (toTwos 8 e2) ++ leBytes 1 (b2n affine) ++ leBytes 22 0 ++
  blocks.flatMap (fun b => match b with | some (_, cs) => packCodes d cs | none => [])

/-- The offset of a block (R104): the smallest e with amax ≤ L × 2^(E2 + e − 7), 14 when none is. -/
def blockOffset (amax lim : Q) (e2 : Int) : Nat :=
  ((List.range 15).find? (fun (e : Nat) => Q.le amax (Q.mul lim (Q.pow2 (e2 + (e : Int) - 7))))).getD 14

/-- The input elements of a row, in reduction order. -/
def Core.rowElems (c : Core) (p l : Nat) (ta : Desc) (n : Nat) : List Num :=
  (List.range ta.kExt).map (fun k => let i := ta.indexOf n k; decodeF ta.ffmt (c.elem p l ta i.1 i.2.1 i.2.2.1 i.2.2.2))

/-- Codes of a run of elements with their counts: `idx` is the linear index of the first (R88), `scale` the scaling to y. -/
def encodeRun (b : Codebook) (m : RMode) (xs : List Num) (scale : Q → Q) (seed step idx : Nat) : List Nat × EncCount :=
  let cs := xs.zipIdx.map (fun e => (e.1, encodeElem b m e.1 scale (draw16 seed step (idx + e.2))))
  let sat := (cs.filter (fun e => e.2.2)).length
  let fl := (cs.filter (fun e => match e.1 with | .fin _ q => !q.isZero && b.zeroCode e.2.1 | _ => false)).length
  (cs.map (fun e => e.2.1), { sat := sat, flush := fl })

/-- The finite magnitudes' maximum. -/
def finMax (xs : List Num) : Q := xs.foldl (fun a x => match x with | .fin _ q => Q.max a q | _ => a) Q.zero

/-- Encode block (n, k) in block-exponent mode (R104-R112). -/
def encodeBlock (d : Desc) (b : Codebook) (m : RMode) (e2 : Int) (xs : List Num) (seed step idx : Nat) :
    Option (Nat × List Nat) × EncCount :=
  let e := blockOffset (finMax xs) b.limit e2
  let (cs, n) := encodeRun b m xs (fun q => Q.mul q (Q.pow2 (7 - e2 - e))) seed step idx
  let zero := cs.all (fun k => k == 0 || b.zeroCode k)
  (if zero then none else some (e, cs ++ List.replicate (d.blockB - cs.length) 0), n)

/-- An OFFSET: rounded to FP16 to nearest, and finite (R122-R124). DEDUCED (assumption 87). -/
def offsetBits (q : Q) : Nat :=
  let o := roundNum .fp16 .nearest (Num.ofQ q)
  if (decodeF .fp16 o).nonFinite then (if q.isNeg then 0xFBFF else 0x7BFF) else o

/-- The row's SCALE and OFFSET (R123, R124). -/
def rowScale (b : Codebook) (xs : List Num) : RowScale :=
  let fs := xs.filterMap (fun x => match x with | .fin _ _ => some x.toQ | _ => none)
  match fs with
  | [] => { scale := 0, offset := 0, reserved := 0 }
  | q :: qs =>
    let mx := qs.foldl Q.max q
    let mn := qs.foldl Q.min q
    if Q.eq mx mn then { scale := 0, offset := offsetBits q, reserved := 0 }
    else
      let off := offsetBits (Q.div (Q.add mx mn) (Q.ofNat 2))
      let oq := (decodeF .fp16 off).toQ
      let h := Q.max (Q.sub mx oq) (Q.sub oq mn)
      let s := Q.div h b.limit
      let w := if Q.lt s (Q.pow2 (-126)) then 0x00800000 else roundNum .fp32 .up (Num.ofQ s)
      { scale := if w = 0x7F800000 then 0x7F7FFFFF else w, offset := off, reserved := 0 }

/-- Encode a row of the affine mode in blocks (R123-R125). -/
def encodeAffineRow (d : Desc) (b : Codebook) (m : RMode) (rs : RowScale) (xs : List Num) (seed step idx : Nat) :
    List (Option (Nat × List Nat)) × EncCount :=
  let oq := (decodeF .fp16 rs.offset).toQ
  let sq := (decodeF .fp32 rs.scale).toQ
  let (cs, n) := if rs.scale = 0 then
      (xs.map (fun _ => 0),
       { sat := (xs.filter (fun x => match x with | .inf _ => true | _ => false)).length
         flush := (xs.filter (fun x => match x with | .fin _ q => !q.isZero | _ => false)).length })
    else encodeRun b m xs (fun q => Q.div (Q.sub q oq) sq) seed step idx
  let block := fun (k : Nat) =>
    let part := (cs.drop (d.blockB * k)).take d.blockB
    if rs.scale = 0 ∧ rs.offset = 0 then none else some (0, part ++ List.replicate (d.blockB - part.length) 0)
  ((List.range d.kGroups).map block, n)

/-- Write a block-coded tensor from the elements of `ta` (R97-R126): the counts come back with the device. -/
def Core.encodeTensor (c : Core) (p l : Nat) (td ta : Desc) (b : Codebook) (m : RMode) (affine : Bool) (e2 : Int)
    (seed step : Nat) : Core × EncCount :=
  let k := td.kExt
  let rows := (List.range td.nRows).map (fun n =>
    let xs := c.rowElems p l ta n
    if affine then
      let rs := rowScale b xs
      let r := encodeAffineRow td b m rs xs seed step (n * k)
      (some rs, r.1, r.2)
    else
      let bl := (List.range td.kGroups).map (fun g =>
        encodeBlock td b m e2 ((xs.drop (td.blockB * g)).take td.blockB) seed step (n * k + td.blockB * g))
      (none, bl.map (·.1), bl.foldl (fun a x => { sat := a.sat + x.2.sat, flush := a.flush + x.2.flush }) {}))
  let total : EncCount := rows.foldl (fun a r => { sat := a.sat + r.2.2.sat, flush := a.flush + r.2.2.flush }) {}
  let c := if affine then
      c.writeAt p l td.addr 0 (rows.flatMap (fun r => match r.1 with
        | some rs => leBytes 4 rs.scale ++ leBytes 2 rs.offset ++ leBytes 2 0 | none => leBytes 8 0) ++
        List.replicate (td.tableBytes - 8 * td.nRows) 0)
    else c
  let one := fun (c : Core) (rk : Nat × Nat) =>
    let blocks := (upFrom (64 * rk.1) 64).map (fun n => match rows[n]? with
      | some r => (r.2.1[rk.2]?).getD none
      | none => none)
    c.writeAt p l td.addr (td.groupOff rk.1 rk.2) (groupBytes td (if affine then 0 else e2) affine blocks)
  let gs := (List.range (ceilDiv td.nRows 64)).flatMap (fun r => (List.range td.kGroups).map (fun k => (r, k)))
  (threadAll one c gs, total)

/-! ### The codec instructions -/

/-- The operation of CBLOAD (R90-R94, R218). -/
def Core.opCbload (c : Core) (x : TArgs) (l p : Nat) : OpRes :=
  let t := x.tile.val
  let ta := (c.tile t).desc x.ta.val
  let ops : List Operand := [{ d := ta, spaces := spOwn }]
  let shape := ta.raw16 && (ta.e0 == 48 || ta.e0 == 288) && ta.e1 == 1 && ta.e2 == 1 && ta.e3 == 1
  let st := c.issueChecks p l ops shape false
  if st ≠ 0 then .fail c st
  else if ta.addr % 64 ≠ 0 then .fail c St.BOUNDS
  else
    let (fs, c) := c.memFaults p l ops x.env
    if fs ≠ 0 then .fail c fs
    else
      let slot := bits x.mods.toNat 3 0
      match parseCodebook (c.readAt p l ta.addr 0 (2 * ta.e0)) with
      | none => .fail (c.malformed t) St.LENGTH
      | some b =>
        { c := c.setTile t { c.tile t with cb := (c.tile t).cb.put (fun _ => none) slot (some b) }, slots := [slot] }

/-- Whether a partition is in recovery mode (R309, R310). -/
def Core.recovering (c : Core) (p : Nat) : Bool := c.rf Regs.UPD_LS_STATE_RECOVERY_LEFT (c.lead p) != 0

/-- The operation of ENCODE (R104-R126, R218). -/
def Core.opEncode (c : Core) (x : TArgs) (l p : Nat) : OpRes :=
  let t := x.tile.val
  let td := (c.tile t).desc x.td.val
  let ta := (c.tile t).desc x.ta.val
  let tb := (c.tile t).desc x.tb.val
  let ops : List Operand :=
    [{ d := td, dest := true, spaces := spUnit }, { d := ta, spaces := spUnit, licensed := true }, { d := tb, spaces := spOwn }]
  let shape := td.isBlock && ta.isFP && ta.sameExt td && ta.red == td.red && tb.raw16 && tb.e0 == 64 && tb.e1 == 1 &&
    tb.e2 == 1 && tb.e3 == 1
  let st := c.issueChecks p l ops shape false
  if st ≠ 0 then .fail c st
  else if tb.addr % 128 ≠ 0 then .fail c St.BOUNDS
  else match (c.tile t).bookFor td with
    | none => .fail c St.LENGTH
    | some b =>
      let rc := parseScale (c.readAt p l tb.addr 0 128)
      if !rc.ok then .fail (c.malformed t) St.LENGTH
      else if td.empty then { c := c, slots := [td.cb] }
      else
        let (fs, c) := c.memFaults p l ops x.env
        if fs ≠ 0 then .fail c fs
        else
          let step := c.stepOf p
          let (rc, clamped) := rc.rollOver step b.limit
          let c := if clamped then
              c.evt Cls.info (Src.tile t) p 0x0200 (bits tb.addr 21 0 + toTwos 8 rc.e2 * 2 ^ 32 + b2n (decide (0 < rc.e2)) * 2 ^ 40)
            else c
          let m := (RMode.ofCode (bits x.mods.toNat 2 0)).getD .nearest
          let affine := rc.pinned || c.recovering p
          let es := c.elems p l ta
          let nums := es.map (decodeF ta.ffmt)
          let (c, n) := c.encodeTensor p l td ta b m affine rc.e2 rc.seed step
          let amax := roundNum .fp32 .nearest (.fin false (Q.max (mag32 rc.amax) (finMax nums)))
          let rc :=
            { rc with
              amax := amax, sat := min (rc.sat + n.sat) (2 ^ 32 - 1), flush := min (rc.flush + n.flush) (2 ^ 32 - 1)
              satTotal := min (rc.satTotal + n.sat) (2 ^ 64 - 1), flags := setBits rc.flags 3 3 1 }
          let c := c.writeAt p l tb.addr 0 rc.bytes
          let c := c.count Regs.TILE_SAT_TOTAL_COUNT t n.sat
          let c := c.count Regs.TILE_FLUSH_TOTAL_COUNT t n.flush
          { c := c.noteNF t (nonFinites ta.ffmt es) 0, slots := [td.cb] }

/-- The operation of DECODE (R101-R103, R125, R218). -/
def Core.opDecode (c : Core) (x : TArgs) (l p : Nat) : OpRes :=
  let t := x.tile.val
  let td := (c.tile t).desc x.td.val
  let ta := (c.tile t).desc x.ta.val
  let ops : List Operand := [{ d := td, dest := true, spaces := spUnit }, { d := ta, spaces := spUnit, licensed := true }]
  let st := c.issueChecks p l ops (ta.isBlock && td.isFP16 && ta.sameExt td && ta.red == td.red) false
  if st ≠ 0 then .fail c st
  else match (c.tile t).bookFor ta with
    | none => .fail c St.LENGTH
    | some b =>
      if td.empty then { c := c, slots := [ta.cb] }
      else
        let (fs, c) := c.memFaults p l ops x.env
        if fs ≠ 0 then .fail c fs
        else
          let ok := c.groupsOk p l ta
          let es := c.decodeAll p l ta b
          let ovf := (es.filter (fun e => e.2.2)).length
          let c := if ok then c.putTensor p l td (td.indices.map (fun i =>
              (((es.find? (fun e => e.1 == i)).map (fun e => e.2.1)).getD 0)))
            else (c.putElems p l td (es.map (fun e => (e.1, e.2.1)))).malformed t
          let c := if 0 < ovf then c.decodeOverflow t p else c
          { c := c.noteNF t 0 ovf, st := if ok then 0 else St.LENGTH, slots := [ta.cb] }

/-- The linear position of an index with the reduction extent fastest (R88). -/
def Desc.linear (d : Desc) (i : Nat × Nat × Nat × Nat) : Nat := let r := d.rowOf i; r.1 * d.kExt + r.2

/-- The operation of ENC16 (R83, R89, R217, R218). -/
def Core.opEnc16 (c : Core) (x : TArgs) (l p : Nat) : OpRes :=
  let t := x.tile.val
  let td := (c.tile t).desc x.td.val
  let ta := (c.tile t).desc x.ta.val
  let ops : List Operand := [{ d := td, dest := true, spaces := spUnit }, { d := ta, spaces := spUnit, licensed := true }]
  let st := c.issueChecks p l ops (ta.isFP32 && td.isFP16 && ta.sameExt td) false
  if st ≠ 0 then .fail c st
  else if td.empty then { c := c }
  else
    let (fs, c) := c.memFaults p l ops x.env
    if fs ≠ 0 then .fail c fs
    else
      let m := (RMode.ofCode (bits x.mods.toNat 2 0)).getD .nearest
      let seed := ((c.tile t).gr (bits x.mods.toNat 7 3)).toNat
      let step := c.stepOf p
      let es := c.elems p l ta
      let out := (ta.indices.zip es).map (fun e => roundNum .fp16 m (decodeF .fp32 e.2) (draw16 seed step (ta.linear e.1)))
      { c := (c.putTensor p l td out).noteNF t (nonFinites .fp32 es) (nonFinites .fp16 out) }

def execCbload (x : TArgs) (s : State) : Host.Outcome State Fault Refusal :=
  s.on (fun c => c.tensorIns x .CBLOAD (fun c l p => c.opCbload x l p))
def execEncode (x : TArgs) (s : State) : Host.Outcome State Fault Refusal :=
  s.on (fun c => c.tensorIns x .ENCODE (fun c l p => c.opEncode x l p))
def execDecode (x : TArgs) (s : State) : Host.Outcome State Fault Refusal :=
  s.on (fun c => c.tensorIns x .DECODE (fun c l p => c.opDecode x l p))
def execEnc16 (x : TArgs) (s : State) : Host.Outcome State Fault Refusal :=
  s.on (fun c => c.tensorIns x .ENC16 (fun c l p => c.opEnc16 x l p))

end Sys2Proof.Machine
end

