-- ==== Sys2Proof/Machine/Matrix.lean ====
section
/-! DEFINITION. Matrix.lean: the matrix unit (R205-R210, R236-R251) and the route units (R226, R227, R252-R260). -/

namespace Sys2Proof.Machine

/-! ### Operands of the array -/

/-- An element as the array meets it: refused by its decode, absent, or a value in its bits. -/
inductive MatEl where
  | bad | absent | val (w : Nat) (nf : Bool)
  deriving DecidableEq, Repr

/-- Batch indices (i2, i3) of a tensor. -/
abbrev Batch := Nat × Nat

/-- The element of an FP16, FP32 or block-coded tensor at an index. -/
def Core.matEl (c : Core) (p l : Nat) (d : Desc) (book : Option Codebook) (i : Nat × Nat × Nat × Nat) : MatEl :=
  if d.isBlock then
    match book with
    | none => .bad
    | some b =>
      let (n, k) := d.rowOf i
      let g := c.readGroup p l d (n / 64) (k / d.blockB)
      if !g.ok then .bad
      else if g.affine && !(upFrom (n / 64 * 64) (min 64 (d.nRows - n / 64 * 64))).all (fun r => (c.readRow p l d r).ok) then .bad
      else if !bitOf g.occ (n % 64) then .absent
      else
        let (w, nf) := decodeElem b g (c.readRow p l d n) d (n % 64) (k % d.blockB)
        .val w nf
  else
    let w := c.elem p l d i.1 i.2.1 i.2.2.1 i.2.2.2
    .val w (decodeF d.ffmt w).nonFinite

/-- The index of reduction position k, other position x of a matrix operand (R206). -/
def Desc.matIndex (d : Desc) (k x : Nat) (b : Batch) : Nat × Nat × Nat × Nat :=
  let i2 := if d.e2 = 1 then 0 else b.1
  let i3 := if d.e3 = 1 then 0 else b.2
  if d.red = 0 then (k, x, i2, i3) else (x, k, i2, i3)

/-- The reduction extent and the other extent of a matrix operand (R206). -/
def Desc.matK (d : Desc) : Nat := d.ext d.red
def Desc.matX (d : Desc) : Nat := d.ext (1 - d.red)

/-- Squares of a blocked tensor; the index of the square of an element, batches after one another (R150, R210; assumption 13). -/
def Desc.squares (d : Desc) : Nat := d.sq * ceilDiv d.e1 32 * d.e2 * d.e3
def Desc.squareOf (d : Desc) (i : Nat × Nat × Nat × Nat) : Nat :=
  (i.2.2.2 * d.e2 + i.2.2.1) * (d.sq * ceilDiv d.e1 32) + i.2.1 / 32 * d.sq + i.1 / d.squareW

/-- Which of the four instructions. -/
inductive MatKind where
  | mm | sp | bs | m32
  deriving DecidableEq, Repr

/-- The position nibble of kept element i of group g, column x of tc (R209). -/
def Core.nibble (c : Core) (p l : Nat) (tc : Desc) (kk g i x : Nat) (b : Batch) : Nat :=
  let ix := tc.matIndex (g * (kk / 4) + i / 4) x b
  bits (c.elem p l tc ix.1 ix.2.1 ix.2.2.1 ix.2.2.2) (4 * (i % 4) + 3) (4 * (i % 4))

/-- The tb element at reduction position k of column x, as the slice holds it (R240, R248). -/
def Core.matB (c : Core) (p l : Nat) (kind : MatKind) (tb tc : Desc) (book : Option Codebook) (kk : Nat) (k x : Nat)
    (b : Batch) : MatEl :=
  match kind with
  | .sp =>
    let ns := (List.range kk).map (fun i => c.nibble p l tc kk (k / 16) i x b)
    if !(ns.zip ns.tail).all (fun e => decide (e.1 < e.2)) then .bad
    else match (List.range kk).find? (fun i => ns[i]? == some (k % 16)) with
      | some i => c.matEl p l tb book (tb.matIndex (k / 16 * kk + i) x b)
      | none => .absent
  | .bs =>
    let ix := tb.matIndex k x b
    let n := tb.squareOf ix
    if bitOf (c.elem p l tc (n / 16) 0 0 0) (n % 16) then c.matEl p l tb book ix else .absent
  | _ => c.matEl p l tb book (tb.matIndex k x b)

/-! ### The order of accumulation (R241) -/

/-- `combine` of R241 over FP32 bits. -/
def combine (x y : Option Nat) : Option Nat :=
  match x, y with
  | some a, some b => some (add32 a b)
  | some a, none => some a
  | none, y => y

/-- The pairwise combination of 2^n leaves: position c with c + half, down to one. -/
def combineTree : Nat → List (Option Nat) → Option Nat
  | 0, v => (v.head?).getD none
  | n + 1, v => combineTree n ((List.range (2 ^ n)).map (fun c => combine ((v[c]?).getD none) ((v[c + 2 ^ n]?).getD none)))

/-- A leaf: the product in FP32 (R241). -/
def leaf (f : FFmt) (a b : MatEl) : Option Nat :=
  match a, b with
  | .val x _, .val y _ => some (roundNum .fp32 .nearest (mulNum (decodeF f x) (decodeF f y)))
  | _, _ => none

/-! ### The operation -/

/-- The numbers of R236 for an operation: log2 of P, rows and columns of an output block, slice-load cycles. -/
structure MatMode where
  code : Nat
  logP : Nat
  rows : Nat
  cols : Nat
  ls : Nat
  deriving DecidableEq, Repr

def matMode (kind : MatKind) (ksel : Bool) : MatMode :=
  match kind with
  | .m32 => ⟨3, 4, 256, 32, 32⟩
  | .sp => if ksel then ⟨2, 5, 64, 256, 64⟩ else ⟨1, 5, 128, 128, 64⟩
  | _ => ⟨0, 5, 256, 64, 64⟩

/-- An output block: its batch, its rows and its columns. -/
structure MatBlock where
  b : Batch
  m0 : Nat
  mn : Nat
  n0 : Nat
  nn : Nat
  deriving DecidableEq, Repr

/-- The output blocks in the order of R237. -/
def matBlocks (md : MatMode) (e2 e3 mm nn : Nat) : List MatBlock :=
  (List.range e3).flatMap (fun i3 => (List.range e2).flatMap (fun i2 =>
    (List.range (ceilDiv nn md.cols)).flatMap (fun cb => (List.range (ceilDiv mm md.rows)).map (fun rb =>
      { b := (i2, i3), m0 := rb * md.rows, mn := min md.rows (mm - rb * md.rows)
        n0 := cb * md.cols, nn := min md.cols (nn - cb * md.cols) }))))

/-- Stage 2 of R676 for the matrix instructions (R206, R207, R209, R210). -/
def matShape (kind : MatKind) (kk : Nat) (td ta tb tc : Desc) : Bool :=
  let operand := fun (d : Desc) => if kind = .m32 then d.isFP32 && d.blocked else (d.isFP16 && d.blocked) || d.isBlock
  let dest := if kind = .m32 then td.isFP32 && td.blocked else td.isFP && td.blocked
  let batch := fun (d : Desc) => (d.e2 == td.e2 || d.e2 == 1) && (d.e3 == td.e3 || d.e3 == 1)
  dest && operand ta && operand tb && decide (ta.red ≤ 1) && decide (tb.red ≤ 1) && td.red == 0 &&
  td.e0 == tb.matX && td.e1 == ta.matX && ta.e2 == td.e2 && ta.e3 == td.e3 && batch tb &&
  match kind with
  | .sp =>
    ta.matK % 16 == 0 && tb.matK == ta.matK * kk / 16 && tc.raw16 && tc.red == tb.red &&
    tc.matK == ta.matK / 16 * (kk / 4) && tc.matX == tb.matX && tc.e2 == tb.e2 && tc.e3 == tb.e3
  | .bs =>
    tb.matK == ta.matK && tb.isFP16 && tb.blocked && tc.raw16 && tc.e0 == ceilDiv tb.squares 16 && tc.e1 == 1 &&
    tc.e2 == 1 && tc.e3 == 1
  | _ => tb.matK == ta.matK

/-- What the array does for the whole operation, over the elements of ta and tb. -/
structure MatView where
  a : Nat → Nat → Batch → MatEl
  b : Nat → Nat → Batch → MatEl
  prior : Nat → Nat → Batch → Option Nat
  f : FFmt
  k : Nat
  md : MatMode

/-- Positions of chunk j. -/
def MatView.chunk (v : MatView) (j : Nat) : List Nat := upFrom (j * 2 ^ v.md.logP) (min (2 ^ v.md.logP) (v.k - j * 2 ^ v.md.logP))
/-- Chunks of the reduction. -/
def MatView.chunks (v : MatView) : Nat := ceilDiv v.k (2 ^ v.md.logP)
/-- The slice of chunk j of a block is skipped (R250). -/
def MatView.sliceSkip (v : MatView) (bl : MatBlock) (j : Nat) : Bool :=
  (v.chunk j).all (fun k => (upFrom bl.n0 bl.nn).all (fun n => v.b k n bl.b == .absent))
/-- Row m is skipped in chunk j (R250). -/
def MatView.rowSkip (v : MatView) (bl : MatBlock) (m j : Nat) : Bool := (v.chunk j).all (fun k => v.a m k bl.b == .absent)
/-- Whether the unit reaches a refused group or position word in the block (R209, R247). DEDUCED (assumption 13). -/
def MatView.blockBad (v : MatView) (bl : MatBlock) : Bool :=
  (List.range v.chunks).any (fun j =>
    (v.chunk j).any (fun k => (upFrom bl.n0 bl.nn).any (fun n => v.b k n bl.b == .bad)) ||
    (!v.sliceSkip bl j && (v.chunk j).any (fun k => (upFrom bl.m0 bl.mn).any (fun m => v.a m k bl.b == .bad))))
/-- The FP32 result of element (m, n) (R241). -/
def MatView.result (v : MatView) (m n : Nat) (b : Batch) : Nat :=
  let chunkSum := fun (j : Nat) =>
    combineTree v.md.logP ((List.range (2 ^ v.md.logP)).map (fun c =>
      let k := j * 2 ^ v.md.logP + c
      if k < v.k then leaf v.f (v.a m k b) (v.b k n b) else none))
  (((List.range v.chunks).foldl (fun acc j => combine acc (chunkSum j)) (v.prior m n b))).getD 0
/-- Rows streamed and row chunks and slices skipped in a block (R250, R263). -/
def MatView.cycles (v : MatView) (bl : MatBlock) : Nat × Nat × Nat :=
  (List.range v.chunks).foldl (fun (acc : Nat × Nat × Nat) j =>
    if v.sliceSkip bl j then (acc.1, acc.2.1, acc.2.2 + 1)
    else
      let skip := ((upFrom bl.m0 bl.mn).filter (fun m => v.rowSkip bl m j)).length
      (acc.1 + (bl.mn - skip), acc.2.1 + skip, acc.2.2)) (0, 0, 0)

/-- The elements of a block, padding of its squares included (R151), with their stored bits. -/
def blockElems (td : Desc) (bl : MatBlock) (el : Nat → Nat → Batch → Nat) : List ((Nat × Nat × Nat × Nat) × Nat) :=
  let w := alignUp (bl.n0 + bl.nn) td.squareW
  let h := alignUp (bl.m0 + bl.mn) 32
  (upFrom bl.m0 (h - bl.m0)).flatMap (fun m => (upFrom bl.n0 (w - bl.n0)).map (fun n =>
    ((n, m, bl.b.1, bl.b.2), if n < td.e0 ∧ m < td.e1 then el m n bl.b else 0)))

/-- Whether an element is a non-finite value. -/
def MatEl.nonFin : MatEl → Bool | .val _ nf => nf | _ => false

/-- The non-finite element positions that the blocks read of ta, of tb, and of the prior values (R243, R128). -/
def MatView.inputsNF (v : MatView) (td ta tb : Desc) (acc : Bool) (blocks : List MatBlock) : Nat × Nat × Nat :=
  let positions := fun (ok : Batch → Nat → Nat → Bool) (d : Desc) (el : Nat → Nat → Batch → MatEl) =>
    ((List.range (max d.e3 1)).flatMap (fun i3 => (List.range (max d.e2 1)).flatMap (fun i2 =>
      (List.range d.matX).flatMap (fun x => (List.range v.k).filter (fun k => (el x k (i2, i3)).nonFin && ok (i2, i3) x k))))).length
  let has := fun (d : Desc) (b b' : Batch) => (d.e2 == 1 || b.1 == b'.1) && (d.e3 == 1 || b.2 == b'.2)
  let streamed := fun (b : Batch) (m k : Nat) => blocks.any (fun bl =>
    has ta b bl.b && decide (bl.m0 ≤ m) && decide (m < bl.m0 + bl.mn) && !v.sliceSkip bl (k / 2 ^ v.md.logP))
  let present := fun (b : Batch) (n k : Nat) => blocks.any (fun bl =>
    has tb b bl.b && decide (bl.n0 ≤ n) && decide (n < bl.n0 + bl.nn) &&
    (upFrom bl.m0 bl.mn).any (fun m => v.a m k bl.b != .absent))
  let prior := if acc then
      (blocks.map (fun bl => ((upFrom bl.m0 bl.mn).flatMap (fun m => (upFrom bl.n0 bl.nn).filter (fun n =>
        match v.prior m n bl.b with | some w => (decodeF .fp32 w).nonFinite | none => false))).length)).foldl (· + ·) 0
    else 0
  (positions streamed ta v.a, positions present tb (fun n k b => v.b k n b), if td.empty then 0 else prior)

/-- The operation of MM, MMSP, MMBS and MM32; an element that its decode overflows posts DECODE_OVERFLOW (R102, R243).
DEDUCED (assumption 13). DESIGN CHOICE (assumption 19). DESIGN CHOICE (assumption 20). -/
def Core.opMatrix (kind : MatKind) (c : Core) (x : TArgs) (l p : Nat) : OpRes :=
  let t := x.tile.val
  let tl := c.tile t
  let td := tl.desc x.td.val
  let ta := tl.desc x.ta.val
  let tb := tl.desc x.tb.val
  let tc := tl.desc x.tc.val
  let ksel := bitOf x.mods.toNat 4
  let kk := if ksel then 4 else 8
  let usesC := kind = .sp ∨ kind = .bs
  let ops : List Operand :=
    [{ d := td, dest := true, spaces := spUnit }, { d := ta, spaces := spUnit, licensed := true },
     { d := tb, spaces := spUnit, licensed := true }] ++
    (if usesC then [{ d := tc, spaces := spUnit, licensed := true }] else [])
  let st := c.issueChecks p l ops (matShape kind kk td ta tb tc) false
  let slots := (if ta.isBlock then [ta.cb] else []) ++ (if tb.isBlock then [tb.cb] else [])
  let occBad := kind = .bs ∧ !td.empty ∧
    (upFrom tb.squares (16 * tc.e0 - tb.squares)).any (fun n => bitOf (c.elem p l tc (n / 16) 0 0 0) (n % 16))
  if st ≠ 0 then .fail c st
  else if (ta.isBlock && (tl.bookFor ta).isNone) || (tb.isBlock && (tl.bookFor tb).isNone) then .fail c St.LENGTH
  else if occBad then .fail c St.LENGTH
  else
    let md := matMode kind ksel
    let note := 8 + md.code + 4 * b2n ((!ta.isBlock && ta.red == 1) || (!tb.isBlock && tb.red == 1))
    let work := 2 * ta.matX * tb.matX * ta.matK * (td.e2 * td.e3)
    if td.empty then { c := c, slots := slots, note := note, work := 0 }
    else
      let (fs, c) := c.memFaults p l ops x.env
      if fs ≠ 0 then { c := c, st := fs, slots := slots, note := note }
      else
        let acc := bitOf x.mods.toNat 3
        let v : MatView :=
          { a := fun m k b => c.matEl p l ta (tl.bookFor ta) (ta.matIndex k m b)
            b := fun k n b => c.matB p l kind tb tc (tl.bookFor tb) kk k n b
            prior := fun m n b => if acc then some (roundNum .fp32 .nearest (decodeF td.ffmt (c.elem p l td n m b.1 b.2))) else none
            f := if kind = .m32 then .fp32 else .fp16
            k := ta.matK
            md := md }
        let rnd := (RMode.ofCode (bits x.mods.toNat 2 0)).getD .nearest
        let blocks := matBlocks md td.e2 td.e3 td.e1 td.e0
        let good := blocks.takeWhile (fun bl => !v.blockBad bl)
        let ok := good.length == blocks.length
        let (fw, c1) := c.fresh
        let drained := if ok then good else good.take (good.length - fw.toNat % 2)
        let el := fun (m n : Nat) (b : Batch) =>
          if td.isFP32 then v.result m n b else roundNum .fp16 rnd (decodeF .fp32 (v.result m n b))
        let es := drained.flatMap (fun bl => blockElems td bl el)
        let (es, c2) := if td.mayCollide then c1.chooseColliding td es else (es, c1)
        let c3 := c2.putElems p l td es
        let outNF := (es.filter (fun e => (decodeF td.ffmt e.2).nonFinite)).length
        let reached := blocks.take (good.length + 1)
        let cyc := good.map v.cycles
        let (nfA, nfB, nfP) := v.inputsNF td ta tb acc (if ok then good else reached)
        let c3 := c3.noteNF t (nfA + nfB + nfP) outNF
        let c3 := if (ta.isBlock && decide (0 < nfA)) || (tb.isBlock && decide (0 < nfB)) then c3.decodeOverflow t p else c3
        let c3 := c3.count Regs.TILE_MM_CYCLES_COUNT t ((cyc.map (·.1)).foldl (· + ·) 0)
        let c3 := c3.count Regs.TILE_MM_SKIP_ROWS_COUNT t ((cyc.map (·.2.1)).foldl (· + ·) 0)
        let c3 := c3.count Regs.TILE_MM_SKIP_SLICES_COUNT t ((cyc.map (·.2.2)).foldl (· + ·) 0)
        let (stall, c3) := c3.fresh
        let c3 := c3.count Regs.TILE_MM_STALL_COUNT t stall.toNat
        if ok then { c := c3, slots := slots, note := note, work := work }
        else { c := c3.malformed t, st := St.LENGTH, slots := slots, note := note }

def execMm (x : TArgs) (s : State) : Host.Outcome State Fault Refusal :=
  s.on (fun c => c.tensorIns x .MM (fun c l p => c.opMatrix .mm x l p))
def execMmsp (x : TArgs) (s : State) : Host.Outcome State Fault Refusal :=
  s.on (fun c => c.tensorIns x .MMSP (fun c l p => c.opMatrix .sp x l p))
def execMmbs (x : TArgs) (s : State) : Host.Outcome State Fault Refusal :=
  s.on (fun c => c.tensorIns x .MMBS (fun c l p => c.opMatrix .bs x l p))
def execMm32 (x : TArgs) (s : State) : Host.Outcome State Fault Refusal :=
  s.on (fun c => c.tensorIns x .MM32 (fun c l p => c.opMatrix .m32 x l p))

/-! ### The route units -/

/-- Whether logit a ranks before logit b of a higher index (R253): a NaN ranks below −∞, equal values keep index order. -/
def rankNotAfter (a b : Num) : Bool :=
  match a, b with
  | _, .nan => true
  | .nan, _ => false
  | a, b => !ltNum a b

/-- Insert an expert into a ranking whose entries have higher indices. -/
def insertRank (e : Nat × Num) : List (Nat × Num) → List (Nat × Num)
  | [] => [e]
  | f :: r => if rankNotAfter e.2 f.2 then e :: f :: r else f :: insertRank e r

/-- The ranking of a token's logits (R253): experts with their logits, best first. -/
def rankLogits (ls : List Num) : List (Nat × Num) := (ls.zipIdx.map (fun e => (e.2, e.1))).foldr insertRank []

/-- The FP32 weights of a token's top logits (R255). -/
def routeWeights (top : List Num) : List Nat :=
  let l0 := (top.head?).getD .nan
  if top.any Num.isNaN || l0 == .inf false then top.map (fun _ => FFmt.fp32.qnan)
  else
    let es := top.map (fun l => roundNum .fp32 .nearest (expNum (addNum .nearest l l0.negate)))
    match es with
    | [] => []
    | e :: r => let s := r.foldl add32 e; es.map (fun e => div32 e s)

/-- The capacity decision of R254: assignments in order (expert, token, rank), the selections dropped and rerouted. -/
structure RouteAcc where
  asg : List (Nat × Nat × Nat) := []
  dropped : Nat := 0
  rerouted : Nat := 0
  deriving DecidableEq, Repr

/-- One selection of R254. -/
def routeOne (cap k : Nat) (reroute : Bool) (ranks : List (List (Nat × Num))) (a : RouteAcc) (tr : Nat × Nat) : RouteAcc :=
  let (t, r) := tr
  let rk := ((ranks[t]?).getD []).map (·.1)
  let room := fun (e : Nat) => decide ((a.asg.filter (fun x => x.1 == e)).length < cap)
  match rk[r]? with
  | none => a
  | some e =>
    if room e then { a with asg := a.asg ++ [(e, t, r)] }
    else
      let cand := (rk.drop (r + 1)).find? (fun f =>
        !(rk.take k).contains f && !(a.asg.any (fun x => x.1 == f && x.2.1 == t)) && room f)
      match reroute, cand with
      | true, some f => { a with asg := a.asg ++ [(f, t, r)], rerouted := a.rerouted + 1 }
      | _, _ => { a with dropped := a.dropped + 1 }

/-- The operation of ROUTE (R227, R252-R260). -/
def Core.opRoute (c : Core) (x : TArgs) (l p : Nat) : OpRes :=
  let t := x.tile.val
  let td := (c.tile t).desc x.td.val
  let ta := (c.tile t).desc x.ta.val
  let ops : List Operand := [{ d := td, dest := true, spaces := 0b101 }, { d := ta, spaces := 0b1000101 }]
  let k := bits x.mods.toNat 3 0
  let reroute := bitOf x.mods.toNat 4
  let cap := bits (x.wide.getD 0).toNat 31 0
  let nx := ta.kExt
  let nt := ta.nRows
  let shape := ta.isFP && !ta.blocked && td.raw32 && td.e1 == 1 && td.e2 == 1 && td.e3 == 1 && decide (1 ≤ k) &&
    decide (k ≤ 8) && decide (k ≤ nx) && decide (nx ≤ 4096) && decide (16 + 2 * nx + 3 * nt * k ≤ td.e0)
  let st := c.issueChecks p l ops shape false
  if st ≠ 0 then .fail c st
  else
    let (fs, c) := c.memFaults p l ops x.env
    if fs ≠ 0 then .fail c fs
    else
      let logits := (List.range nt).map (fun n => (List.range nx).map (fun e =>
        let i := ta.indexOf n e
        decodeF ta.ffmt (c.elem p l ta i.1 i.2.1 i.2.2.1 i.2.2.2)))
      let ranks := logits.map rankLogits
      let sel := (List.range k).flatMap (fun r => (List.range nt).map (fun n => (n, r)))
      let a := sel.foldl (routeOne cap k reroute ranks) {}
      let byExpert := (List.range nx).flatMap (fun e => a.asg.filter (fun s => s.1 == e))
      let ws := ranks.map (fun rk => routeWeights ((rk.take k).map (·.2)))
      let countOf := fun (e : Nat) => (a.asg.filter (fun s => s.1 == e)).length
      let starts := (List.range nx).map (fun e => ((List.range e).map countOf).foldl (· + ·) 0)
      let step := c.stepOf p
      let put := fun (c : Core) (off : Nat) (bs : List Byte) => c.writeAt p l td.addr off bs
      let c := put c 64 ((List.range nx).flatMap (fun e => leBytes 4 (countOf e) ++ leBytes 4 ((starts[e]?).getD 0)))
      let c := put c (64 + 8 * nx) (byExpert.flatMap (fun s =>
        leBytes 4 s.2.1 ++ leBytes 4 ((((ws[s.2.1]?).getD [])[s.2.2]?).getD 0)))
      let slotOf := fun (n r : Nat) => ((byExpert.zipIdx.find? (fun s => s.1.2.1 == n && s.1.2.2 == r)).map (·.2)).getD 0xFFFFFFFF
      let c := put c (64 + 8 * nx + 8 * nt * k) ((List.range nt).flatMap (fun n => (List.range k).flatMap (fun r => leBytes 4 (slotOf n r))))
      let c := put c 0 (leBytes 4 nx ++ leBytes 4 nt ++ leBytes 4 k ++ leBytes 4 cap ++ leBytes 4 byExpert.length ++
        leBytes 4 a.dropped ++ leBytes 4 a.rerouted ++ leBytes 4 (b2n reroute) ++ leBytes 8 step ++ leBytes 24 0)
      let c := if logits.any (fun r => r.any Num.nonFinite) then
          (c.wf Regs.TILE_NUM_STATUS_NF t 1).wf Regs.TILE_NUM_STATUS_NF_INPUT t 1
        else c
      let c := c.count Regs.TILE_RU_TOKENS_COUNT t nt
      let c := c.count Regs.TILE_RU_DROPPED_COUNT t a.dropped
      let c := c.count Regs.TILE_RU_REROUTED_COUNT t a.rerouted
      let c := if 0 < a.dropped then
          c.evt Cls.info (Src.route (quadOfGroup (groupOfPhys t))) p 0x0400 (a.dropped % 2 ^ 32 + l * 2 ^ 32) step
        else c
      { c := c, work := a.dropped % 2 ^ 32 + a.rerouted % 2 ^ 32 * 2 ^ 32 }

def execRoute (x : TArgs) (s : State) : Host.Outcome State Fault Refusal :=
  s.on (fun c => c.tensorIns x .ROUTE (fun c l p => c.opRoute x l p))

end Sys2Proof.Machine
end

