-- ==== Sys2Proof/Machine/Vector.lean ====
section
/-! DEFINITION. Vector.lean: the vector unit (R211-R216). -/

namespace Sys2Proof.Machine

/-- The value of a source at an index of the destination, repeated where its extent is 1 (R213). -/
def Core.vecEl (c : Core) (p l : Nat) (d : Desc) (i : Nat × Nat × Nat × Nat) : Num :=
  let j := d.clip i
  decodeF d.ffmt (c.elem p l d j.1 j.2.1 j.2.2.1 j.2.2.2)

/-- The RND of a vector or matrix instruction. -/
def TArgs.rnd (x : TArgs) : RMode := (RMode.ofCode (bits x.mods.toNat 2 0)).getD .nearest

/-- An elementwise instruction over its sources (R212, R213): the exact result of an element from the exact sources. -/
def Core.opElementwise (c : Core) (x : TArgs) (l p : Nat) (srcs : List Desc) (f : RMode → List Num → Num) : OpRes :=
  let t := x.tile.val
  let td := (c.tile t).desc x.td.val
  let ops : List Operand := { d := td, dest := true, spaces := spUnit } ::
    srcs.map (fun d => { d := d, spaces := spUnit, licensed := true })
  let shape := td.isFP && srcs.all (fun d => d.isFP && d.fits td)
  let st := c.issueChecks p l ops shape true
  if st ≠ 0 then .fail c st
  else if td.empty then { c := c }
  else
    let (fs, c) := c.memFaults p l ops x.env
    if fs ≠ 0 then .fail c fs
    else
      let m := TArgs.rnd x
      let out := td.indices.map (fun i => roundNum td.ffmt m (f m (srcs.map (fun d => c.vecEl p l d i))))
      let nfIn := (srcs.map (fun d => nonFinites d.ffmt (c.elems p l d))).foldl (· + ·) 0
      { c := (c.putTensor p l td out).noteNF t nfIn (nonFinites td.ffmt out) }

/-- The index with the reduction coordinate replaced. -/
def setCoord (red : Nat) (i : Nat × Nat × Nat × Nat) (k : Nat) : Nat × Nat × Nat × Nat :=
  match red with
  | 0 => (k, i.2.1, i.2.2.1, i.2.2.2)
  | 1 => (i.1, k, i.2.2.1, i.2.2.2)
  | 2 => (i.1, i.2.1, k, i.2.2.2)
  | _ => (i.1, i.2.1, i.2.2.1, k)

/-- The 64-partial reduction of R214 over FP32 bits. -/
def reduce64 (f : Nat → Nat → Nat) (xs : List Nat) : Nat :=
  let ix := xs.zipIdx
  let part := fun (j : Nat) => ((ix.filter (fun e => e.2 % 64 == j)).map (·.1)).foldl
    (fun (acc : Option Nat) e => match acc with | none => some e | some a => some (f a e)) none
  let join := fun (a b : Option Nat) => match a, b with
    | some x, some y => some (f x y)
    | some x, none => some x
    | none, y => y
  let rec go : Nat → List (Option Nat) → Option Nat
    | 0, v => (v.head?).getD none
    | n + 1, v => go n ((List.range (2 ^ n)).map (fun c => join ((v[c]?).getD none) ((v[c + 2 ^ n]?).getD none)))
  (go 6 ((List.range 64).map part)).getD 0

/-- FP32 maximum of bits (R86). -/
def max32 (a b : Nat) : Nat := roundNum .fp32 .nearest (maxNum (decodeF .fp32 a) (decodeF .fp32 b))

/-- The FP32 values of a line of a tensor along RED. -/
def Core.line (c : Core) (p l : Nat) (ta : Desc) (i : Nat × Nat × Nat × Nat) : List Nat :=
  (List.range (ta.ext ta.red)).map (fun k => roundNum .fp32 .nearest (c.vecEl p l ta (setCoord ta.red i k)))

/-- A reduction along RED (R213, R214): from the FP32 line to the FP32 result. -/
def Core.opReduce (c : Core) (x : TArgs) (l p : Nat) (f : List Nat → Nat) : OpRes :=
  let t := x.tile.val
  let td := (c.tile t).desc x.td.val
  let ta := (c.tile t).desc x.ta.val
  let ops : List Operand := [{ d := td, dest := true, spaces := spUnit }, { d := ta, spaces := spUnit, licensed := true }]
  let shape := td.isFP && ta.isFP && (List.range 4).all (fun k => td.ext k == (if k = ta.red then 1 else ta.ext k))
  let st := c.issueChecks p l ops shape false
  if st ≠ 0 then .fail c st
  else if td.empty || ta.empty then { c := c }
  else
    let (fs, c) := c.memFaults p l ops x.env
    if fs ≠ 0 then .fail c fs
    else
      let out := td.indices.map (fun i => roundNum td.ffmt (TArgs.rnd x) (decodeF .fp32 (f (c.line p l ta i))))
      { c := (c.putTensor p l td out).noteNF t (nonFinites ta.ffmt (c.elems p l ta)) (nonFinites td.ffmt out) }

/-- The softmax of a line (R215): the exact quotients. -/
def softmaxLine (xs : List Nat) : List Num :=
  let m := reduce64 max32 xs
  let mv := decodeF .fp32 m
  if mv == .inf true then xs.map (fun _ => .nan)
  else
    let es := xs.map (fun a => roundNum .fp32 .nearest (expNum (addNum .nearest (decodeF .fp32 a) mv.negate)))
    let s := decodeF .fp32 (reduce64 add32 es)
    es.map (fun e => divNum (decodeF .fp32 e) s)

/-- The operation of VSOFTMAX (R215). -/
def Core.opSoftmax (c : Core) (x : TArgs) (l p : Nat) : OpRes :=
  let t := x.tile.val
  let td := (c.tile t).desc x.td.val
  let ta := (c.tile t).desc x.ta.val
  let ops : List Operand := [{ d := td, dest := true, spaces := spUnit }, { d := ta, spaces := spUnit, licensed := true }]
  let st := c.issueChecks p l ops (td.isFP && ta.isFP && td.sameExt ta) true
  if st ≠ 0 then .fail c st
  else if td.empty then { c := c }
  else
    let (fs, c) := c.memFaults p l ops x.env
    if fs ≠ 0 then .fail c fs
    else
      let coord := fun (i : Nat × Nat × Nat × Nat) => match ta.red with
        | 0 => i.1 | 1 => i.2.1 | 2 => i.2.2.1 | _ => i.2.2.2
      let out := td.indices.map (fun i =>
        roundNum td.ffmt (TArgs.rnd x) (((softmaxLine (c.line p l ta i))[coord i]?).getD .nan))
      { c := (c.putTensor p l td out).noteNF t (nonFinites ta.ffmt (c.elems p l ta)) (nonFinites td.ffmt out) }

/-- First, second and third source. -/
def arg (xs : List Num) (n : Nat) : Num := (xs[n]?).getD .nan

/-- The sources of an instruction, as descriptors of its tile. -/
def Core.src1 (c : Core) (x : TArgs) : List Desc := [(c.tile x.tile.val).desc x.ta.val]
def Core.src2 (c : Core) (x : TArgs) : List Desc := c.src1 x ++ [(c.tile x.tile.val).desc x.tb.val]
def Core.src3 (c : Core) (x : TArgs) : List Desc := c.src2 x ++ [(c.tile x.tile.val).desc x.tc.val]

def execVadd (x : TArgs) (s : State) : Host.Outcome State Fault Refusal :=
  s.on (fun c => c.tensorIns x .VADD (fun c l p => c.opElementwise x l p (c.src2 x) (fun m xs => addNum m (arg xs 0) (arg xs 1))))
def execVsub (x : TArgs) (s : State) : Host.Outcome State Fault Refusal :=
  s.on (fun c => c.tensorIns x .VSUB (fun c l p =>
    c.opElementwise x l p (c.src2 x) (fun m xs => addNum m (arg xs 0) (arg xs 1).negate)))
def execVmul (x : TArgs) (s : State) : Host.Outcome State Fault Refusal :=
  s.on (fun c => c.tensorIns x .VMUL (fun c l p => c.opElementwise x l p (c.src2 x) (fun _ xs => mulNum (arg xs 0) (arg xs 1))))
def execVfma (x : TArgs) (s : State) : Host.Outcome State Fault Refusal :=
  s.on (fun c => c.tensorIns x .VFMA (fun c l p =>
    c.opElementwise x l p (c.src3 x) (fun m xs => addNum m (mulNum (arg xs 0) (arg xs 1)) (arg xs 2))))
def execVmax (x : TArgs) (s : State) : Host.Outcome State Fault Refusal :=
  s.on (fun c => c.tensorIns x .VMAX (fun c l p => c.opElementwise x l p (c.src2 x) (fun _ xs => maxNum (arg xs 0) (arg xs 1))))
def execVmin (x : TArgs) (s : State) : Host.Outcome State Fault Refusal :=
  s.on (fun c => c.tensorIns x .VMIN (fun c l p => c.opElementwise x l p (c.src2 x) (fun _ xs => minNum (arg xs 0) (arg xs 1))))
def execVcvt (x : TArgs) (s : State) : Host.Outcome State Fault Refusal :=
  s.on (fun c => c.tensorIns x .VCVT (fun c l p => c.opElementwise x l p (c.src1 x) (fun _ xs => arg xs 0)))
def execVscale (x : TArgs) (s : State) : Host.Outcome State Fault Refusal :=
  s.on (fun c => c.tensorIns x .VSCALE (fun c l p => c.opElementwise x l p (c.src1 x) (fun _ xs =>
    mulNum (arg xs 0) (.fin false (Q.pow2 (signed 8 (bits x.mods.toNat 10 3)))))))
def execVrsum (x : TArgs) (s : State) : Host.Outcome State Fault Refusal :=
  s.on (fun c => c.tensorIns x .VRSUM (fun c l p => c.opReduce x l p (reduce64 add32)))
def execVrmax (x : TArgs) (s : State) : Host.Outcome State Fault Refusal :=
  s.on (fun c => c.tensorIns x .VRMAX (fun c l p => c.opReduce x l p (reduce64 max32)))
def execVnormsq (x : TArgs) (s : State) : Host.Outcome State Fault Refusal :=
  s.on (fun c => c.tensorIns x .VNORMSQ (fun c l p => c.opReduce x l p (fun xs => reduce64 add32 (xs.map (fun e => mul32 e e)))))
def execVexp (x : TArgs) (s : State) : Host.Outcome State Fault Refusal :=
  s.on (fun c => c.tensorIns x .VEXP (fun c l p => c.opElementwise x l p (c.src1 x) (fun _ xs => expNum (arg xs 0))))
def execVrecip (x : TArgs) (s : State) : Host.Outcome State Fault Refusal :=
  s.on (fun c => c.tensorIns x .VRECIP (fun c l p => c.opElementwise x l p (c.src1 x) (fun _ xs =>
    divNum (.fin false (Q.ofNat 1)) (arg xs 0))))
def execVrsqrt (x : TArgs) (s : State) : Host.Outcome State Fault Refusal :=
  s.on (fun c => c.tensorIns x .VRSQRT (fun c l p => c.opElementwise x l p (c.src1 x) (fun _ xs => rsqrtNum (arg xs 0))))
def execVsoftmax (x : TArgs) (s : State) : Host.Outcome State Fault Refusal :=
  s.on (fun c => c.tensorIns x .VSOFTMAX (fun c l p => c.opSoftmax x l p))

end Sys2Proof.Machine
end

