-- ==== Sys2Proof/Machine/Stash.lean ====
section
/-! DEFINITION. Stash.lean: the Shadow store and the stash instructions (R219-R222, R269-R286). -/

namespace Sys2Proof.Machine

/-! ### Entries -/

/-- LAYER, MB and SUB of an entry's name (R219). -/
def entLayer (name : Nat) : Nat := bits name 9 0
def entMB (name : Nat) : Nat := bits name 13 10
def entSub (name : Nat) : Nat := bits name 16 14

/-- Words of an entry (R271). -/
def entWords (count width : Nat) : Nat := ceilDiv (count * width) 512
def StashEnt.words (e : StashEnt) : Nat := entWords e.count e.width

/-- The record of a name. -/
def Tile.entry? (x : Tile) (name : Nat) : Option StashEnt := x.stash.find? (fun e => e.name == name)
/-- Write a record: in place of the record of its name, else as a new one. -/
def Tile.putEntry (x : Tile) (e : StashEnt) : Tile :=
  if x.stash.any (fun f => f.name == e.name) then { x with stash := x.stash.map (fun f => if f.name = e.name then e else f) }
  else { x with stash := x.stash ++ [e] }
/-- The ring slot of an entry becomes dead (R274). -/
def Tile.killSlot (x : Tile) (name : Nat) : Tile :=
  { x with ring := x.ring.map (fun r => if r.name = some name then { r with name := none } else r) }

/-- The words of the ring in use, live and dead. -/
def Tile.ringUsed (x : Tile) : Nat := (x.ring.map (·.words)).foldl (· + ·) 0

/-- Words of a tile's reservation (R269). -/
def Core.resWords (c : Core) (t : Nat) : Nat := 64 * c.rf Regs.TILE_STASH_RES_PAGES t

/-- Dead words at the oldest end are reclaimed (R274). -/
def Tile.reclaim (x : Tile) : Tile := { x with ring := x.ring.dropWhile (fun r => r.name.isNone) }

/-- The offset in space 0x0 of byte k of ring word w. -/
def Core.resByte (c : Core) (t w k : Nat) : Nat :=
  c.rf Regs.TILE_STASH_RES_BASE t + (64 * w + k) % max (64 * c.resWords t) 1

/-- The view offset of byte k of spill word w (R279). -/
def Core.spillByte (c : Core) (t w k : Nat) : Nat := 4096 * c.rf Regs.TILE_STASH_SPILL_BASE_BASE t + 64 * w + k

/-- The words of the spill area: none when it lies partly outside the view (R279). -/
def Core.spillWords (c : Core) (t p : Nat) : Nat :=
  let n := 4096 * c.rf Regs.TILE_STASH_SPILL_PAGES_PAGES t
  if 0 < n ∧ c.spillByte t 0 n ≤ 2 ^ 40 ∧ c.viewOk p (c.spillByte t 0 0) n then n / 64 else 0

/-- Update STASH_USE, STASH_PEAK and STASH_STATUS.LOST from the directory (R286). -/
def Core.stashRegs (c : Core) (t : Nat) : Core :=
  let x := (c.tile t).reclaim
  let c := c.setTile t x
  let c := c.wr Regs.TILE_STASH_USE t (x.ringUsed % 2 ^ 16 + x.stash.length % 2 ^ 13 * 2 ^ 16 + x.spillHead % 2 ^ 32 * 2 ^ 32)
  let c := c.peak Regs.TILE_STASH_PEAK_RESIDENT t x.ringUsed
  let c := c.peak Regs.TILE_STASH_PEAK_SPILL_WORDS t x.spillHead
  c.wf Regs.TILE_STASH_STATUS_LOST t (b2n (x.stash.any (fun e => e.loc == .lost)))

/-- Store the bytes of an entry in the reservation or in the spill area. -/
def Core.storeEntry (c : Core) (t p : Nat) (e : StashEnt) (bs : List Byte) : Core :=
  match e.loc with
  | .resident => threadAll (fun c (b : Byte × Nat) => c.writeScratch t (c.resByte t e.addr b.2) [b.1]) c bs.zipIdx
  | .spilled => c.writeView p (c.spillByte t e.addr 0) bs
  | _ => c

/-- Allocate the next words of the ring for an entry and store it there (R273). -/
def Core.allocEntry (c : Core) (t p : Nat) (e : StashEnt) (bs : List Byte) : Core :=
  let x := c.tile t
  let need := e.words
  let e : StashEnt := { e with addr := x.ringNext % max (c.resWords t) 1 }
  let y := x.putEntry e
  let c := c.setTile t
    { y with
      ring := y.ring ++ [{ start := e.addr, words := need, name := some e.name }]
      ringNext := (e.addr + need) % max (c.resWords t) 1 }
  (c.storeEntry t p e bs).stashRegs t

/-- The bytes of an entry. -/
def Core.loadEntry (c : Core) (t p : Nat) (e : StashEnt) : List Byte :=
  match e.loc with
  | .resident => (List.range (64 * e.words)).map (fun k => c.scratch.get zeroByte (c.scratchKey t (c.resByte t e.addr k)))
  | .spilled => c.readView p (c.spillByte t e.addr 0) (64 * e.words)
  | _ => []

/-- The first byte of a resident entry whose read fails parity (R276, R284), as an offset of space 0x0. -/
def Core.entryLost (c : Core) (t : Nat) (e : StashEnt) (env : MemEnv) : Option Nat :=
  if e.loc = .resident ∧ env.scratchLost ≠ [] then
    (List.range e.words).findSome? (fun k => c.lostWord t (c.resByte t e.addr (64 * k)) 64 env)
  else none

/-- The first byte of a spilled entry whose read is lost (R363). -/
def Core.spillLost (c : Core) (t p : Nat) (e : StashEnt) (env : MemEnv) : Option (Nat × Nat) :=
  if e.loc = .spilled ∧ (env.dramLost ≠ [] ∨ c.failedCh ≠ []) then
    (List.range e.words).findSome? (fun k =>
      let v := c.spillByte t e.addr (64 * k)
      match c.viewToDpa p v with
      | some d => if c.lostLine d env then some (v, d) else none
      | none => none)
  else none

/-- The lines of the spill area that an S-form has written and whose write is exhausted, as view offsets with their DPAs: those from word
`h` on, and those of its entry where it was spilled before (R274, R363). -/
def Core.spillWritesLost (c : Core) (t p h : Nat) (old : Option StashEnt) (env : MemEnv) : List (Nat × Nat) :=
  if env.dramLost = [] ∧ c.failedCh = [] then []
  else
    let again := match old with
      | some e => if e.loc = .spilled ∧ (c.tile t).entry? e.name = old then upFrom e.addr e.words else []
      | none => []
    (again ++ upFrom h ((c.tile t).spillHead - h)).filterMap (fun w =>
      let v := c.spillByte t w 0
      match c.viewToDpa p v with
      | some d => if c.lostLine d env then some (v, d) else none
      | none => none)

/-- The words or lines that a read of an entry takes. -/
def Core.entryAccesses (c : Core) (t p : Nat) (e : StashEnt) : List (Place × Nat) :=
  (List.range e.words).map (fun k =>
    (if e.loc = .resident then Place.scratch t (c.resByte t e.addr (64 * k)) else .view p (c.spillByte t e.addr (64 * k)), 64))

/-! ### Making room (R277-R282) -/

/-- The recompute segment of the partition's image that holds a layer (R178). -/
def Core.segmentOf (c : Core) (p layer : Nat) : Option Segment :=
  match (c.part p).prog with
  | some pr => pr.segments.find? (fun s => decide (s.first ≤ layer) && decide (layer ≤ s.last))
  | none => none

/-- Why an S-form cannot be stashed: the cause code of STASH_EXHAUSTED (R285). -/
abbrev Exhaust := Nat

/-- Drop a pair of segment and micro-batch (R281). DEDUCED (assumption 21). -/
def Core.dropPair (c : Core) (t p : Nat) (sg : Segment) (mb : Nat) : Core :=
  let x := c.tile t
  let hit := fun (e : StashEnt) => decide (sg.first ≤ entLayer e.name) && decide (entLayer e.name ≤ sg.last) && entMB e.name == mb &&
    (e.loc == .resident || e.loc == .spilled)
  let gone := x.stash.filter hit
  let x := threadAll (fun (x : Tile) (e : StashEnt) => (x.putEntry { e with loc := .dropped }).killSlot e.name) x gone
  let c := c.setTile t { x with pairs := x.pairs ++ [(sg.id, mb)] }
  let c := c.wf Regs.TILE_STASH_STATUS_DROPPED t 1
  let c := c.count Regs.TILE_STASH_DROPPED_COUNT t gone.length
  c.evt Cls.info (Src.tile t) p 0x0501 (sg.id + mb * 2 ^ 16) (c.stepOf p)

/-- The first spill of the step posts STASH_SPILL and checks the area (R279, R285). DEDUCED (assumption 21). -/
def Core.firstSpill (c : Core) (t p name : Nat) : Core :=
  if c.flag Regs.TILE_STASH_STATUS_SPILLED t then c
  else
    let c := if c.spillWords t p = 0 ∧ c.rf Regs.TILE_STASH_SPILL_PAGES_PAGES t ≠ 0 then c.wf Regs.TILE_STASH_STATUS_SPILL_CFG_ERR t 1
      else c
    if c.spillWords t p = 0 then c
    else
      let free := c.resWords t - (c.tile t).ringUsed
      let c := c.wf Regs.TILE_STASH_STATUS_SPILLED t 1
      c.evt Cls.info (Src.tile t) p 0x0500 (name + free * 2 ^ 32) (c.stepOf p)

/-- Take the oldest slot of the ring away (R274, R278, R281); false when the spill area cannot take it. -/
def Core.freeOldest (c : Core) (t p name : Nat) (recompute : Bool) (env : MemEnv) : Core × Bool :=
  let x := c.tile t
  match x.ring with
  | [] => (c, true)
  | r :: rest =>
    let pop := fun (c : Core) => c.setTile t { c.tile t with ring := rest }
    match r.name with
    | none => (pop c, true)
    | some nm =>
      match x.entry? nm, (if recompute then c.segmentOf p (entLayer nm) else none) with
      | some _, some sg => (c.dropPair t p sg (entMB nm), true)
      | some e, none =>
        let c := c.firstSpill t p name
        if c.spillWords t p < x.spillHead + r.words then (c, false)
        else
          let lost := c.entryLost t e env
          let e' : StashEnt := { e with loc := .spilled, addr := x.spillHead }
          let c := c.storeEntry t p e' (c.loadEntry t p e)
          let c := c.setTile t { (c.tile t).putEntry (match lost with | some _ => { e' with loc := .lost } | none => e') with
            spillHead := x.spillHead + r.words, ring := rest }
          let c := c.count Regs.TILE_STASH_SPILL_BYTES_COUNT t (64 * r.words)
          let c := c.wf Regs.TILE_STASH_STATUS_SPILLING t 1
          match lost with
          | some o => (((c.wordEvent t o).startBankSwap t (o / bankBytes) 0 [o / 4 * 4]).evt
              Cls.item (Src.tile t) p 0x0503 nm (c.stepOf p), true)
          | none => (c, true)
      | none, _ => (pop c, true)

/-- Free words until the new entry fits; each pass takes or kills one slot, so twice the slots suffice. -/
def Core.makeRoom (t p name need : Nat) (recompute : Bool) (env : MemEnv) : Nat → Core → Core × Bool
  | 0, c => (c, true)
  | n + 1, c =>
    if (c.tile t).ringUsed + need ≤ c.resWords t then (c, true)
    else match c.freeOldest t p name recompute env with
      | (c', true) => Core.makeRoom t p name need recompute env n c'
      | (c', false) => (c', false)

/-- Stash the bytes of an entry (R274-R282): the device, or the cause of the exhaustion. DEDUCED (assumption 21). -/
def Core.stashEntry (c : Core) (t p name width count : Nat) (bs : List Byte) (env : MemEnv) : Core × Option Exhaust :=
  let policy := c.rf Regs.TILE_STASH_STATUS_POLICY t
  let x := c.tile t
  let need := entWords count width
  let old := x.entry? name
  let fresh : StashEnt := { name := name, width := width, count := count, loc := .resident, addr := 0 }
  let dropped := match c.segmentOf p (entLayer name) with
    | some sg => x.pairs.contains (sg.id, entMB name)
    | none => false
  let inPlace : Bool := match old with
    | some e => e.width == width && e.count == count && (e.loc == StashLoc.resident || e.loc == StashLoc.spilled)
    | none => false
  if old.isNone && x.stash.length == 4096 then (c, some 2)
  else if dropped then
    let c := c.setTile t ((x.putEntry { fresh with loc := .dropped }).killSlot name)
    ((if old.map (fun e => e.loc) = some StashLoc.dropped then c else c.count Regs.TILE_STASH_DROPPED_COUNT t).stashRegs t, none)
  else if inPlace then
    (match old with | some e => c.storeEntry t p e bs | none => c, none)
  else if need = 0 then ((c.setTile t ((x.killSlot name).putEntry fresh)).stashRegs t, none)
  else
    let c1 := c.setTile t (x.killSlot name)
    if policy = 2 then
      let c1 := c1.setTile t (c1.tile t).reclaim
      if (c1.tile t).ringUsed + need ≤ c1.resWords t then (c1.allocEntry t p fresh bs, none) else (c, some 0)
    else if c.resWords t < need then
      let c1 := c1.firstSpill t p name
      if c1.spillWords t p < x.spillHead + need then (c1, some 1)
      else
        let e : StashEnt := { fresh with loc := .spilled, addr := x.spillHead }
        let c1 := c1.setTile t { (c1.tile t).putEntry e with spillHead := x.spillHead + need }
        let c1 := c1.count Regs.TILE_STASH_SPILL_BYTES_COUNT t (64 * need)
        ((c1.storeEntry t p e bs).stashRegs t, none)
    else match Core.makeRoom t p name need (policy == 1) env (2 * x.ring.length + 2) c1 with
      | (c1, false) => (c1.stashRegs t, some 1)
      | (c1, true) =>
        let c1 := if c1.flag Regs.TILE_STASH_STATUS_SPILLING t then c1.setTile t { c1.tile t with stall := some .spill } else c1
        (c1.allocEntry t p fresh bs, none)

/-! ### The S-forms (R220) -/

/-- Elements of a tensor in the order of R88's index. -/
def Desc.indices88 (d : Desc) : List (Nat × Nat × Nat × Nat) :=
  if d.empty then [] else (List.range d.nRows).flatMap (fun n => (List.range d.kExt).map (fun k => d.indexOf n k))

/-- Values of `width` bits each, packed into whole 64-byte words (R270, R271). -/
def packEntry (width : Nat) (vs : List Nat) : List Byte :=
  let per := 8 / width
  (List.range (64 * entWords vs.length width)).map (fun j =>
    BitVec.ofNat 8 (((List.range per).map (fun i => ((vs[per * j + i]?).getD 0) % 2 ^ width * 2 ^ (width * i))).foldl (· + ·) 0))

/-- Element i of a packed entry. -/
def unpackEntry (width : Nat) (bs : List Byte) (i : Nat) : Nat :=
  let per := 8 / width
  bits ((bs[i / per]?).getD 0).toNat (width * (i % per) + width - 1) (width * (i % per))

/-- a < b by value: the two zeros are equal. -/
def ltVal (a b : Num) : Bool := ltNum a b && !(a.isZero && b.isZero)

/-- The y and the stashed value of an element: from its raw bits, its value and its index. -/
abbrev SForm := Nat → Num → Nat → Num × Nat

/-- SRELU. -/
def reluS : SForm := fun _ x _ => if ltVal (.fin false Q.zero) x then (x, 1) else (.fin false Q.zero, 0)
/-- SABS: the bit is the sign bit of x. -/
def absS (f : FFmt) : SForm := fun w x _ => (x.absolute, b2n (decide (f.signBit ≤ w % (2 * f.signBit))))
/-- SCLAMP with bounds lo and hi. -/
def clampS (lo hi : Num) : SForm := fun _ x _ =>
  if x.isNaN then (.nan, 0) else if ltVal x lo then (lo, 1) else if ltVal hi x then (hi, 2) else (x, 0)
/-- The dropout scale s (R220). -/
def dropScale (t : Nat) : Num := decodeF .fp32 (roundNum .fp32 .nearest (.fin false (Q.div (Q.ofNat 65536) (Q.ofNat (65536 - t)))))
/-- SDROP with threshold, seed and step. -/
def dropS (t seed step : Nat) : SForm := fun _ x i => if draw16 seed step i < t then (.fin false Q.zero, 0) else (mulNum x (dropScale t), 1)

/-- An S-form over td, ta: `bad` is LENGTH_INVALID of the immediate (R221). A line of the spill area that cannot be written keeps what it
held, and the S-form ends (R363); any part of y may stand (R60). DEDUCED (assumption 52). -/
def Core.opStash (c : Core) (x : TArgs) (l p width : Nat) (bad : Bool) (f : FFmt → SForm) : OpRes :=
  let t := x.tile.val
  let td := (c.tile t).desc x.td.val
  let ta := (c.tile t).desc x.ta.val
  let name := bits x.mods.toNat 16 0
  let ops : List Operand := [{ d := td, dest := true, spaces := spUnit }, { d := ta, spaces := spUnit, licensed := true }]
  let st := c.issueChecks p l ops (td.isFP && ta.isFP && ta.sameExt td && !bad) true
  if st ≠ 0 then .fail c st
  else
    let (fs, c) := c.memFaults p l ops x.env
    if fs ≠ 0 ∧ !td.empty then .fail c fs
    else
      let ix := td.indices88
      let raw := ix.map (fun i => c.elem p l ta i.1 i.2.1 i.2.2.1 i.2.2.2)
      let ys := raw.zipIdx.map (fun e => f ta.ffmt e.1 (decodeF ta.ffmt e.1) e.2)
      match c.stashEntry t p name width ix.length (packEntry width (ys.map (·.2))) x.env with
      | (c, some cause) =>
        { c := c, st := St.STASH_FULL, work := cause + name * 2 ^ 4 + entWords ix.length width * 2 ^ 32 }
      | (c', none) =>
        let gone := c'.spillWritesLost t p (c.tile t).spillHead ((c.tile t).entry? name) x.env
        let c := threadAll (fun c'' (e : Nat × Nat) => c''.writeView p e.1 (c.readView p e.1 64)) c' gone
        match gone with
        | vd :: _ =>
          let cut := threadAll (fun c s => c.spoil s) c (({ d := td, dest := true, spaces := spUnit } : Operand).dests p l)
          { c := cut.accessLost p vd.1 vd.2 true, st := St.PARITY }
        | [] =>
        if td.empty then { c := c }
        else
          let es := ix.zip (ys.map (fun y => roundNum td.ffmt .nearest y.1))
          let c := c.zeroPadding p l td
          let (es, c) := if td.mayCollide then c.chooseColliding td es else (es, c)
          { c := c.putElems p l td es }

/-! ### The G-forms (R220-R222) -/

/-- The value of a gradient element from its stashed value. -/
abbrev GForm := Num → Nat → Num
def reluG : GForm := fun g m => if m = 1 then g else .fin false Q.zero
def dropG (t : Nat) : GForm := fun g m => if m = 1 then mulNum g (dropScale t) else .fin false Q.zero
def absG : GForm := fun g m => if m = 1 then g.negate else g
def clampG : GForm := fun g m => if m = 0 then g else .fin false Q.zero

/-- Write td from ta and the stashed values. -/
def Core.gradOut (c : Core) (p l : Nat) (td ta : Desc) (g : GForm) (vs : Nat → Nat) : Core :=
  let ix := td.indices88
  let es := ix.zipIdx.map (fun e =>
    (e.1, roundNum td.ffmt .nearest (g (decodeF ta.ffmt (c.elem p l ta e.1.1 e.1.2.1 e.1.2.2.1 e.1.2.2.2)) (vs e.2))))
  let c := c.zeroPadding p l td
  let (es, c) := if td.mayCollide then c.chooseColliding td es else (es, c)
  c.putElems p l td es

/-- A G-form that reads its entry. DESIGN CHOICE (assumption 14). -/
def Core.opGrad (c : Core) (x : TArgs) (l p width : Nat) (g : GForm) : OpRes :=
  let t := x.tile.val
  let td := (c.tile t).desc x.td.val
  let ta := (c.tile t).desc x.ta.val
  let name := bits x.mods.toNat 16 0
  let ops : List Operand := [{ d := td, dest := true, spaces := spUnit }, { d := ta, spaces := spUnit, licensed := true }]
  let st := c.issueChecks p l ops (td.isFP && ta.isFP && ta.sameExt td) true
  if st ≠ 0 then .fail c st
  else if ta.empty then { c := c }
  else match (c.tile t).entry? name with
    | none => .fail c St.BOUNDS
    | some e =>
      if e.count ≠ ta.count then .fail c St.LENGTH
      else if e.loc = .dropped then .fail c St.STASH_FULL
      else if e.loc = .lost then .fail c St.PARITY
      else
        let lose := fun (c : Core) => ((c.setTile t ((c.tile t).putEntry { e with loc := .lost })).stashRegs t).evt
          Cls.item (Src.tile t) p 0x0503 name (c.stepOf p)
        match c.entryLost t e x.env, c.spillLost t p e x.env with
        | some o, _ => .fail ((lose c).wordLost t o) St.PARITY
        | none, some vd => .fail ((lose c).accessLost p vd.1 vd.2 false) St.PARITY
        | none, none =>
          let (fs, c) := c.memFaults p l ops x.env
          if fs ≠ 0 then .fail c fs
          else
            let bs := c.loadEntry t p e
            let (fw, c1) := c.fresh
            -- an entry of another width: the spec does not say which bits are read (assumption 14)
            let vs := fun (i : Nat) => if e.width = width then unpackEntry width bs i
              else (Config.freeWord (fw.toNat + i)).toNat % 2 ^ width
            let c := if e.width = width then c else c1
            let c := if e.loc = .spilled then c.count Regs.TILE_STASH_FETCH_BYTES_COUNT t (64 * e.words)
              else threadAll (fun c k => c.wakeBank t (c.resByte t e.addr (64 * k) / bankBytes)) c (List.range e.words)
            let c := if corrects x.env then c.replayed (c.entryAccesses t p e) x.env else c
            { c := c.gradOut p l td ta g vs }

/-- A G-form that takes its bits from tc or from the seed. -/
def Core.opGradX (c : Core) (x : TArgs) (l p : Nat) (useTc bad : Bool) (g : GForm) (f : FFmt → SForm) : OpRes :=
  let t := x.tile.val
  let td := (c.tile t).desc x.td.val
  let ta := (c.tile t).desc x.ta.val
  let tc := (c.tile t).desc x.tc.val
  let ops : List Operand :=
    [{ d := td, dest := true, spaces := spUnit }, { d := ta, spaces := spUnit, licensed := true }] ++
    (if useTc then [{ d := tc, spaces := spUnit, licensed := true }] else [])
  let st := c.issueChecks p l ops (td.isFP && ta.isFP && ta.sameExt td && (!useTc || (tc.isFP && tc.sameExt td)) && !bad) true
  if st ≠ 0 then .fail c st
  else if td.empty then { c := c }
  else
    let (fs, c) := c.memFaults p l ops x.env
    if fs ≠ 0 then .fail c fs
    else
      let vs := td.indices88.zipIdx.map (fun e =>
        if useTc then
          let w := c.elem p l tc e.1.1 e.1.2.1 e.1.2.2.1 e.1.2.2.2
          (f tc.ffmt w (decodeF tc.ffmt w) e.2).2
        else (f .fp32 0 .nan e.2).2)
      { c := c.gradOut p l td ta g (fun i => (vs[i]?).getD 0) }

/-! ### Immediates -/

/-- T and the seed (R220). -/
def TArgs.dropT (x : TArgs) : Nat := bits (x.wide.getD 0).toNat 15 0
def TArgs.dropSeed (x : TArgs) : Nat := bits (x.wide.getD 0).toNat 63 16
/-- lo and hi. -/
def TArgs.lo (x : TArgs) : Num := decodeF .fp32 (bits (x.wide.getD 0).toNat 31 0)
def TArgs.hi (x : TArgs) : Num := decodeF .fp32 (bits (x.wide.getD 0).toNat 63 32)
def TArgs.badBounds (x : TArgs) : Bool := (TArgs.lo x).isNaN || (TArgs.hi x).isNaN || ltVal (TArgs.hi x) (TArgs.lo x)

/-! ### Commands -/

def execSrelu (x : TArgs) (s : State) : Host.Outcome State Fault Refusal :=
  s.on (fun c => c.tensorIns x .SRELU (fun c l p => c.opStash x l p 1 false (fun _ => reluS)))
def execSdrop (x : TArgs) (s : State) : Host.Outcome State Fault Refusal :=
  s.on (fun c => c.tensorIns x .SDROP (fun c l p =>
    c.opStash x l p 1 false (fun _ => dropS (TArgs.dropT x) (TArgs.dropSeed x) (c.stepOf p))))
def execSabs (x : TArgs) (s : State) : Host.Outcome State Fault Refusal :=
  s.on (fun c => c.tensorIns x .SABS (fun c l p => c.opStash x l p 1 false absS))
def execSclamp (x : TArgs) (s : State) : Host.Outcome State Fault Refusal :=
  s.on (fun c => c.tensorIns x .SCLAMP (fun c l p =>
    c.opStash x l p 2 (TArgs.badBounds x) (fun _ => clampS (TArgs.lo x) (TArgs.hi x))))
def execGrelu (x : TArgs) (s : State) : Host.Outcome State Fault Refusal :=
  s.on (fun c => c.tensorIns x .GRELU (fun c l p => c.opGrad x l p 1 reluG))
def execGdrop (x : TArgs) (s : State) : Host.Outcome State Fault Refusal :=
  s.on (fun c => c.tensorIns x .GDROP (fun c l p => c.opGrad x l p 1 (dropG (TArgs.dropT x))))
def execGabs (x : TArgs) (s : State) : Host.Outcome State Fault Refusal :=
  s.on (fun c => c.tensorIns x .GABS (fun c l p => c.opGrad x l p 1 absG))
def execGclamp (x : TArgs) (s : State) : Host.Outcome State Fault Refusal :=
  s.on (fun c => c.tensorIns x .GCLAMP (fun c l p => c.opGrad x l p 2 clampG))
def execGrelux (x : TArgs) (s : State) : Host.Outcome State Fault Refusal :=
  s.on (fun c => c.tensorIns x .GRELUX (fun c l p => c.opGradX x l p true false reluG (fun _ => reluS)))
def execGdropx (x : TArgs) (s : State) : Host.Outcome State Fault Refusal :=
  s.on (fun c => c.tensorIns x .GDROPX (fun c l p => c.opGradX x l p false false (dropG (TArgs.dropT x))
    (fun _ => dropS (TArgs.dropT x) (TArgs.dropSeed x) (c.stepOf p))))
def execGabsx (x : TArgs) (s : State) : Host.Outcome State Fault Refusal :=
  s.on (fun c => c.tensorIns x .GABSX (fun c l p => c.opGradX x l p true false absG absS))
def execGclampx (x : TArgs) (s : State) : Host.Outcome State Fault Refusal :=
  s.on (fun c => c.tensorIns x .GCLAMPX (fun c l p => c.opGradX x l p true (TArgs.badBounds x) clampG
    (fun _ => clampS (TArgs.lo x) (TArgs.hi x))))

/-- STASH_SPILL_DONE: the spill copy of a tile ends and its sequencer goes on (R278). DESIGN CHOICE (assumption 19). -/
def execStashSpillDone (t : PTile) (s : State) : Host.Outcome State Fault Refusal :=
  s.on (fun c =>
    if !c.flag Regs.TILE_STASH_STATUS_SPILLING t.val then c
    else
      let c := c.wf Regs.TILE_STASH_STATUS_SPILLING t.val 0
      let (cycles, c) := c.fresh
      let c := c.count Regs.TILE_STASH_STALL_COUNT t.val cycles.toNat
      if (c.tile t.val).stall = some .spill then c.setTile t.val { c.tile t.val with stall := none } else c)

end Sys2Proof.Machine
end

