-- ==== Sys2Proof/Machine/Rma.lean ====
section
/-! DEFINITION. Rma.lean: queue pairs and the Apong transport (R430-R465): sending, reassembly, credits, the context cache, and the
remote-memory operations (R223, R444-R449). -/

namespace Sys2Proof.Machine

/-! ### Bytes of a tensor, in element order (R444) -/

/-- Bytes of a tensor. -/
def Desc.bytes (d : Desc) : Nat := if d.isBlock then (if d.empty then 0 else d.blockBytes) else d.count * d.esize

/-- The index of element k in element order. DEDUCED (assumption 26). -/
def Desc.nth (d : Desc) (k : Nat) : Nat × Nat × Nat × Nat :=
  let a := max d.e0 1
  let b := max d.e1 1
  let e := max d.e2 1
  (k % a, k / a % b, k / a / b % e, k / a / b / e)

/-- The displacement of byte k of a tensor. -/
def Desc.byteOff (d : Desc) (k : Nat) : Nat :=
  if d.isBlock then k else let i := d.nth (k / d.esize); d.elemOff i.1 i.2.1 i.2.2.1 i.2.2.2 + k % d.esize

/-- The bytes of a tensor from byte o on. DEDUCED (assumption 26). -/
def Core.tensorBytes (c : Core) (p l : Nat) (d : Desc) (o n : Nat) : List Byte :=
  (upFrom o n).map (fun k => c.readPlace (c.place p l d.addr (d.byteOff k)))

/-- Write bytes of a tensor from byte o on. DEDUCED (assumption 26). -/
def Core.putBytes (c : Core) (p l : Nat) (d : Desc) (o : Nat) (bs : List Byte) : Core :=
  threadAll (fun c (e : Nat × Byte) => c.writePlace e.2 (c.place p l d.addr (d.byteOff e.1))) c ((upFrom o bs.length).zip bs)

/-! ### Queue pairs -/

def qRESET : Nat := 0
def qREADY : Nat := 1
def qERROR : Nat := 2

def Core.qp? (c : Core) (n : Nat) : Option QP := c.qps.find? (fun q => q.num == n)
def Core.setQp (c : Core) (q : QP) : Core :=
  if c.qps.any (fun x => x.num == q.num) then { c with qps := c.qps.map (fun x => if x.num = q.num then q else x) }
  else { c with qps := c.qps ++ [q] }
def Core.updQp (c : Core) (n : Nat) (f : QP → QP) : Core := { c with qps := c.qps.map (fun x => if x.num = n then f x else x) }

/-- The partition whose QP_RANGE holds a queue pair (R435). -/
def Core.qpOwner (c : Core) (n : Nat) : Option Nat :=
  (List.range 16).find? (fun p => decide (c.rf Regs.RMA_QP_RANGE_FIRST p ≤ n) &&
    decide (n < c.rf Regs.RMA_QP_RANGE_FIRST p + c.rf Regs.RMA_QP_RANGE_COUNT p))

/-- The interface number of a port and interface, as the FAB registers count them. -/
def unitOfPort (port iface : Nat) : Nat := iface + 2 * port

/-- Whether an interface is up (R409): LINK_UP, and the transmitters are lit (R400). -/
def Core.linkUp (c : Core) (u : Nat) : Bool := c.flag Regs.FAB_PORT_STATUS_LINK_UP u && !c.lost

/-- Paths of a queue pair that are up. -/
def Core.pathsUp (c : Core) (q : QP) : Bool := q.paths.any (fun a => c.linkUp (unitOfPort a.1 a.2))

/-- Bytes of the frame of a packet (R433, R412). -/
def frameBytes (form plen : Nat) : Nat := max 64 (plen + 82 + (if form = 0 then 28 else if form = 1 then 48 else 0))
/-- Cells of a frame (R417). -/
def frameCells (form plen : Nat) : Nat := ceilDiv (frameBytes form plen) 256

/-! ### Sending -/

/-- The credit of a VC toward a device on an interface. DEDUCED (assumption 24). -/
def creditKey (u vc dev : Nat) : Nat := (u * 16 + vc) * 16384 + dev
/-- DEDUCED (assumption 24). -/
def Core.credit (c : Core) (u vc dev : Nat) : TxCredit := c.txCredit.get (fun _ => {}) (creditKey u vc dev)
def Core.setCredit (c : Core) (u vc dev : Nat) (x : TxCredit) : Core :=
  { c with txCredit := c.txCredit.put (fun _ => {}) (creditKey u vc dev) x }
/-- Cells the credit still covers, modulo 2^24 (R457). -/
def TxCredit.left (x : TxCredit) : Nat := if x.granted then (x.limit + 2 ^ 24 - x.consumed % 2 ^ 24) % 2 ^ 24 else 0

/-- The packet counter of a key ID is used up (R521). -/
def Core.keyExhausted (c : Core) (k : Nat) : Bool := k != 0 && c.rf Regs.SEC_KEYID_MAP_SENT (k - 1) == 2 ^ 48 - 1

/-- Whether a packet can leave under a key ID: the ID is not revoked, its epoch's key is present and its counter is not used
up (R432, R521, R542). -/
def Core.keyUsable (c : Core) (k : Nat) : Bool :=
  k == 0 || (!c.flag Regs.SEC_KEYID_MAP_REVOKED (k - 1) && c.epochCur.isSome && !c.keyExhausted k)

/-- Put a packet on the wire of interface u: its counters, its nonce (R432, R521) and the message to the link. -/
def Core.putPacket (c : Core) (u form opcode vc key dev dstQp srcQp msn psn retx offset total roff rkey : Nat)
    (payload : List Byte) : Core :=
  let nonce := if key = 0 then 0 else (match c.epochCur with | some e => e.2 | none => 0) * 2 ^ 48 + c.rf Regs.SEC_KEYID_MAP_SENT (key - 1)
  let c := if key = 0 then c else c.wf Regs.SEC_KEYID_MAP_SENT (key - 1) (c.rf Regs.SEC_KEYID_MAP_SENT (key - 1) + 1)
  let c := if key ≠ 0 ∧ c.keyExhausted key then c.evt Cls.info Src.security (c.rf Regs.SEC_KEYID_MAP_PART (key - 1)) 0x0C0B key else c
  let c := c.count Regs.FAB_TX_FRAMES_COUNT u
  let c := c.count Regs.FAB_TX_BYTES_COUNT u (frameBytes form payload.length)
  let c := c.count Regs.FAB_VC_TX_CELLS_COUNT (vc + 16 * u) (frameCells form payload.length)
  c.send 3 ([opcode, u, form, vc, key, dev, c.rf Regs.COL_HERD_CFG_DEV_ID, dstQp, srcQp, msn, psn, retx, offset, total, roff, rkey, nonce] ++
    payload.map (·.toNat))

/-- A control packet of a queue pair on VC0 (R434): the first path that is up takes it; with none it is lost. -/
def Core.control (c : Core) (q : QP) (opcode msn : Nat) (payload : List Byte) : Core :=
  match q.paths.find? (fun a => c.linkUp (unitOfPort a.1 a.2)) with
  | none => c
  | some a =>
    if !c.keyUsable q.key then c
    else c.putPacket (unitOfPort a.1 a.2) q.form opcode 0 q.key q.remoteDev q.remoteQp q.num msn 0 0 0 0 0 0 payload

/-- A credit packet to a device on an interface (R434). -/
def Core.creditPacket (c : Core) (u dev opcode vc n : Nat) : Core :=
  c.putPacket u 2 opcode 0 0 dev 0 0 0 0 0 0 0 0 0 (leBytes 4 (vc + n % 2 ^ 24 * 2 ^ 8))

/-- The path the next packet takes (R450): the next, round-robin, that is up and holds credit for it. -/
def Core.pickPath (c : Core) (q : QP) (vc plen : Nat) : Option Nat :=
  let n := q.paths.length
  ((List.range n).map (fun i => (q.nextPath + i) % max n 1)).find? (fun i => match q.paths[i]? with
    | some a => c.linkUp (unitOfPort a.1 a.2) && !c.flag Regs.FAB_PORT_STATUS_PAUSED (unitOfPort a.1 a.2) &&
        decide (frameCells q.form plen ≤ (c.credit (unitOfPort a.1 a.2) vc q.remoteDev).left)
    | none => false)

/-- Ask for credit on every path that is up and holds no grant (R458). -/
def Core.askCredit (c : Core) (q : QP) (vc : Nat) : Core :=
  let ask := fun (c : Core) (a : Nat × Nat) =>
    let u := unitOfPort a.1 a.2
    let x := c.credit u vc q.remoteDev
    if c.linkUp u && !x.granted && !x.requested then
      (c.setCredit u vc q.remoteDev { x with requested := true }).creditPacket u q.remoteDev 0x0D vc (c.grantCells.get (fun _ => 0x800) vc)
    else c
  threadAll ask c q.paths

/-- Packets of a message (R450). -/
def QP.packets (q : QP) (total : Nat) : Nat := max 1 (ceilDiv total q.pmtu)

/-- The payload of packet i of a message: requests carry their own, a READ_REQ none. -/
def QP.chunk (q : QP) (m : TxMsg) (i : Nat) : List Byte :=
  if m.kind = 3 then [] else if m.kind = 5 then m.data else (m.data.drop (i * q.pmtu)).take q.pmtu

/-- Send packet i of message m of queue pair n, or report that it must wait. -/
def Core.sendOne (c : Core) (n : Nat) (m : TxMsg) (i : Nat) (again : Bool) : Core × Bool :=
  match c.qp? n with
  | none => (c, false)
  | some q =>
    let pl := q.chunk m i
    match c.pickPath q m.vc pl.length with
    | none => (c.askCredit q m.vc, false)
    | some k =>
      match q.paths[k]? with
      | none => (c, false)
      | some a =>
        if !c.keyUsable q.key then (c, false)
        else
          let u := unitOfPort a.1 a.2
          let x := c.credit u m.vc q.remoteDev
          let c := c.setCredit u m.vc q.remoteDev { x with consumed := (x.consumed + frameCells q.form pl.length) % 2 ^ 24, lastSend := c.tick }
          let psn := (q.psn[k]?).getD 0
          let c := c.setQp { q with nextPath := (k + 1) % max q.paths.length 1, psn := q.psn.set k ((psn + 1) % 2 ^ 24) }
          let c := if again then c.count Regs.RMA_RETX_PKTS_COUNT q.part else c
          (c.putPacket u q.form m.kind m.vc q.key q.remoteDev q.remoteQp q.num m.msn psn (b2n again + 2 * b2n m.cas)
            (if m.kind = 3 then 0 else i * q.pmtu) m.total m.roff m.rkey pl, true)

/-- Change a message of a queue pair. DEDUCED (assumption 22). -/
def Core.updMsg (c : Core) (n msn kind : Nat) (f : TxMsg → TxMsg) : Core :=
  c.updQp n (fun q => { q with tx := q.tx.map (fun m => if m.msn = msn ∧ m.kind = kind then f m else m) })

/-- Send what a message may send now: the packets to repeat, then the new ones below BASE + 512 (R451, R453). -/
def Core.pumpMsg (c : Core) (n : Nat) (m : TxMsg) : Core :=
  match c.qp? n with
  | none => c
  | some q =>
    if m.waiting || q.state != qREADY || c.fwHold then c
    else
      let np := if m.kind = 3 ∨ m.kind = 5 then 1 else q.packets m.total
      let top := min np (m.base + 512)
      let todo := m.again.map (fun i => (i, true)) ++ (upFrom m.next (top - m.next)).map (fun i => (i, false))
      let step := fun (acc : Core × Bool) (e : Nat × Bool) =>
        if !acc.2 then acc
        else
          let (c, ok) := acc.1.sendOne n m e.1 e.2
          if ok then
            (c.updMsg n m.msn m.kind (fun x => if e.2 then { x with again := x.again.filter (· != e.1) } else { x with next := e.1 + 1 }), true)
          else (c, false)
      (todo.foldl step (c, true)).1

/-- Send what a queue pair may send: its first four outstanding messages, and its read responses (R446, R449). -/
def Core.pump (c : Core) (n : Nat) : Core :=
  match c.qp? n with
  | none => c
  | some q =>
    let own := (q.tx.filter (fun m => m.kind != 4)).take 4
    let resp := q.tx.filter (fun m => m.kind == 4)
    if q.cached then threadAll (fun c m => c.pumpMsg n m) c (own ++ resp) else c

/-- Let every queue pair send. -/
def Core.pumpAll (c : Core) : Core := threadAll (fun c (q : QP) => c.pump q.num) c c.qps

/-! ### The context cache (R462) -/

/-- Whether a context is pinned. -/
def QP.pinned (q : QP) : Bool := !q.tx.isEmpty || !(q.rx.filter (fun r => r.done.isNone)).isEmpty || !q.waiting.isEmpty

/-- The least recently used cached context that is not pinned. -/
def Core.evictable (c : Core) : Option QP :=
  (c.qps.filter (fun q => q.cached && !q.pinned)).foldl (fun (b : Option QP) q => match b with
    | none => some q
    | some x => if q.lastUse < x.lastUse then some q else some x) none

/-- Bring a context into the cache when a slot is free or can be freed. -/
def Core.cacheQp (c : Core) (n : Nat) : Core × Bool :=
  if (c.qps.filter (·.cached)).length < 4096 then (c.updQp n (fun q => { q with cached := true, fetching := false, lastUse := c.tick }), true)
  else match c.evictable with
    | some v => ((c.updQp v.num (fun q => { q with cached := false })).updQp n (fun q => { q with cached := true, fetching := false, lastUse := c.tick }), true)
    | none => (c, false)

/-- Look a context up; a miss starts its fetch, which waits while no slot can be freed (R462). -/
def Core.touchQp (c : Core) (n : Nat) : Core :=
  match c.qp? n with
  | none => c
  | some q =>
    if q.cached then (c.count Regs.RMA_CTX_HITS_COUNT 0).updQp n (fun q => { q with lastUse := c.tick })
    else if q.fetching then c
    else
      let c := if (c.qps.filter (·.cached)).length < 4096 || c.evictable.isSome then c else c.count Regs.RMA_CTX_WAITS_COUNT 0
      (c.count Regs.RMA_CTX_MISSES_COUNT 0).updQp n (fun q => { q with fetching := true })

/-! ### Ending operations -/

/-- An operation's protocol ends with a status: OPERATION_COMPLETE may now complete it (R157, R444). -/
def Core.finishOp (c : Core) (id st : Nat) (info : Nat := 0) : Core :=
  c.updOp id (fun o => { o with wait := false, status := if o.status = 0 then st else o.status, info := if o.wait then info else o.info })

/-- Whether a message or an NVMe command of the slow tier still serves an operation or a host item. -/
def Core.slowBusy (c : Core) (id : Nat) (item : Bool) : Bool :=
  c.qps.any (fun q => q.tx.any (fun m => m.owner == .slow id item)) || c.slowReqs.any (fun r => r.owner == .slow id item) ||
    c.nvcmds.any (fun n => n.owner == (if item then NvOwner.item id else NvOwner.op id))

/-- A message or a command of the slow tier for an operation or a host item has ended (R377, R382). A host item ends with its
last one, with its first failure. -/
def Core.slowDone (c : Core) (id : Nat) (item : Bool) (st : Nat) : Core :=
  if item then
    let c := if st = 0 then c else c.updItem id (fun i => if i.status = 0 then { i with status := st } else i)
    if c.slowBusy id true then c else c.endItem id (((c.item? id).map (·.status)).getD 0) true
  else
    let c := c.updOp id (fun o => { o with status := if o.status = 0 then st else o.status })
    if c.slowBusy id false then c else c.finishOp id st

/-- A fetch of a remote row has ended (R389): its state is present, or the row fails. -/
def Core.rowArrived (c : Core) (p table row st : Nat) : Core :=
  let x := c.part p
  let f := fun (r : PendRow) =>
    if r.table = table ∧ r.row = row then (if st = 0 then r else { r with failed := some st }) else r
  c.setPart p { x with pend := x.pend.map f }

/-- The owner of a message learns its end; a collective is told by its own unit. -/
def Core.endOwner (c : Core) (w : MsgOwner) (st : Nat) : Core :=
  match w with
  | .op id => c.finishOp id st
  | .coll id pos => { c with collEnds := c.collEnds ++ [(id, pos, st)] }
  | .slow id item => c.slowDone id item st
  | .row p table row => c.rowArrived p table row st
  | .none => c

/-- End message `msn` of kind `kind` of a queue pair with a status. -/
def Core.endMsg (c : Core) (n msn kind st : Nat) : Core :=
  match c.qp? n with
  | none => c
  | some q =>
    match q.tx.find? (fun m => m.msn == msn && m.kind == kind) with
    | none => c
    | some m =>
      let c := c.setQp { q with tx := q.tx.filter (fun m => !(m.msn == msn && m.kind == kind)) }
      let c := if st = 0 ∧ kind ≠ 4 then c.count Regs.RMA_TX_MSGS_COUNT q.part else c
      (c.endOwner m.owner st).pump n

/-- End every message and every posted buffer of a queue pair with a status. -/
def Core.endQpOps (c : Core) (n st : Nat) : Core :=
  match c.qp? n with
  | none => c
  | some q =>
    let owners := (q.tx.map (·.owner)) ++ q.bufs.map (fun b => MsgOwner.op b.op) ++
      q.rx.filterMap (fun r => if r.done.isNone then r.buf.map (fun b => MsgOwner.op b.op) else none)
    let c := threadAll (fun c w => c.endOwner w st) c owners
    c.updQp n (fun q => { q with tx := [], bufs := [], rx := q.rx.filter (fun r => r.done.isSome) })

/-- The port that events of a queue pair name: its first path. -/
def QP.port (q : QP) : Nat := ((q.paths.head?).getD (0, 0)).1

/-- Write STATE of a context (R435). -/
def Core.writeState (c : Core) (p n st : Nat) : Core :=
  c.writeAt p 0 (c.rf Regs.RMA_CTX_BASE_ADDR p) (256 * (n - c.rf Regs.RMA_QP_RANGE_FIRST p) + 176) [BitVec.ofNat 8 st]

/-- A queue pair enters ERROR with a status (R439). -/
def Core.qpError (c : Core) (n st : Nat) : Core :=
  match c.qp? n with
  | none => c
  | some q =>
    let c := c.updQp n (fun q => { q with state := qERROR, err := st })
    let c := c.writeState q.part n qERROR
    (c.evt Cls.item (Src.port q.port) q.part 0x0A00 (n + st * 2 ^ 16)).endQpOps n st

/-! ### Regions (R440-R443) -/

/-- A region entry (R441). -/
structure Region where
  r : Bool
  w : Bool
  a : Bool
  pd : Nat
  base : Nat
  len : Nat
  deriving DecidableEq, Repr

/-- The 32 bytes of the entry of key k as they stand in REGION_BASE. -/
def Core.regionBytes (c : Core) (p k : Nat) : Nat :=
  leNat (c.readAt p 0 (c.rf Regs.RMA_REGION_BASE_ADDR p) (32 * (k - c.rf Regs.RMA_KEY_RANGE_FIRST p)) 32)

/-- The entry a message sees: a cached copy that differs from memory may be seen in either form until REGION_INVAL (R443). -/
def Core.regionEntry (c : Core) (p k : Nat) : Nat × Core :=
  let now := c.regionBytes p k
  let key := 262144 * p + k
  match c.regionCache.get (fun _ => none) key with
  | none => (now, { c with regionCache := c.regionCache.put (fun _ => none) key (some now) })
  | some old =>
    if old = now then (now, c)
    else
      let (f, c) := c.fresh
      let w := if f.toNat % 2 = 0 then old else now
      (w, { c with regionCache := c.regionCache.put (fun _ => none) key (some w) })

/-- The region check of R442 for a message of a kind: the region, or none when it fails. DESIGN CHOICE (assumption 25). -/
def Core.region (c : Core) (q : QP) (kind k : Nat) : Option Region × Core :=
  let p := q.part
  if k < c.rf Regs.RMA_KEY_RANGE_FIRST p ∨ c.rf Regs.RMA_KEY_RANGE_FIRST p + c.rf Regs.RMA_KEY_RANGE_COUNT p ≤ k then (none, c)
  else
    let (e, c) := c.regionEntry p k
    let g : Region := { r := bitOf e 1, w := bitOf e 2, a := bitOf e 3, pd := bits e 27 16, base := bits e 127 64, len := bits e 174 128 }
    let reservedOk := bits e 7 4 == 0 && bits e 15 8 == 0 && bits e 31 28 == 0 && bits e 63 32 == 0 && bits e 191 175 == 0 && bits e 255 192 == 0
    let right := if kind = 1 then g.w else if kind = 3 then g.r else g.a
    let spaceOk := (let s := bits g.base 63 60; s == 1 || s == 2 || s == 3 || s == 6) && decide (g.len ≤ 2 ^ 46)
    if !reservedOk || !bitOf e 0 || g.pd != q.pd || !right then (none, c)
    else if !spaceOk || !c.boundsOk p g.base 0 g.len then (none, c.wf Regs.RMA_RMA_PSTATUS_REGION_ERR p 1)
    else if !c.protOk p 0 g.base 0 g.len then (none, c)
    else (some g, c)

/-! ### Receiving -/

/-- Send a NAK (R455, R456). -/
def Core.nak (c : Core) (q : QP) (msn st : Nat) : Core := (c.control q 0x09 msn (leBytes 2 st)).count Regs.RMA_NAKS_SENT_COUNT q.part

/-- Report a message refused at checks 7 to 9, at most once per queue pair per millisecond (R466). -/
def Core.refusedEvent (c : Core) (n port p st rkey roff : Nat) : Core :=
  let c := c.count Regs.RMA_REFUSED_COUNT p
  let ms := c.tick / Config.ticksPerMs
  match c.qp? n with
  | some q => if q.refusedMs = some ms then c
    else (c.updQp n (fun q => { q with refusedMs := some ms })).evt Cls.info (Src.port port) p 0x0A05 (n + st * 2 ^ 16 + rkey * 2 ^ 32) roff
  | none => c.evt Cls.info (Src.port port) p 0x0A05 (n + st * 2 ^ 16 + rkey * 2 ^ 32) roff

/-- A STATUS for a message (R434): BASE and the bitmap of 512 packets. -/
def statusBytes (base : Nat) (got : List Nat) : List Byte :=
  leBytes 4 base ++ leBytes 64 ((got.filter (fun i => decide (base ≤ i) && decide (i < base + 512))).foldl (fun a i => a + 2 ^ (i - base)) 0)

/-- BASE moves past the leading received packets (R451). -/
def advanceBase (got : List Nat) : Nat → Nat → Nat
  | 0, b => b
  | n + 1, b => if got.contains b then advanceBase got n (b + 1) else b

/-- A record of a queue pair is replaced. -/
def Core.setRec (c : Core) (n : Nat) (r : RxRec) : Core :=
  c.updQp n (fun q =>
    if q.rx.any (fun x => x.msn == r.msn) then { q with rx := q.rx.map (fun x => if x.msn = r.msn then r else x) }
    else { q with rx := q.rx ++ [r] })

/-- The lowest incomplete MSN moves past the records that are done, whose records are freed (R451, R452). -/
def QP.slide (q : QP) : Nat → QP
  | 0 => q
  | n + 1 =>
    if q.rx.any (fun r => r.msn == q.rxLow && r.done.isSome) || q.refused.any (fun e => e.1 == q.rxLow) then
      QP.slide { q with rxLow := (q.rxLow + 1) % 2 ^ 32, rx := q.rx.filter (fun r => r.msn != q.rxLow) } n
    else q

/-- A message is complete or refused: its record ends and the window slides. -/
def Core.closeRec (c : Core) (n : Nat) : Core := c.updQp n (fun q => q.slide 5)

/-- Refuse a whole message (checks 7 to 9 of R455, R456). -/
def Core.refuseMsg (c : Core) (n : Nat) (k : Pkt) (st : Nat) : Core :=
  match c.qp? n with
  | none => c
  | some q =>
    let c := c.updQp n (fun q => { q with refused := q.refused ++ [(k.msn.toNat, st)], rx := q.rx.filter (fun r => r.msn != k.msn.toNat) })
    ((c.nak q k.msn.toNat st).refusedEvent n k.port.val q.part st k.rkey.toNat k.roff.toNat).closeRec n

/-- Execute an atomic on 8 bytes of a region (R448). DESIGN CHOICE (assumption 16). -/
def Core.atomic (c : Core) (p base off : Nat) (payload : List Byte) (cas : Bool) : Nat × Core :=
  let old := leNat (c.readAt p 0 base off 8)
  let a := leNat (payload.take 8)
  let b := leNat ((payload.drop 8).take 8)
  let new := if cas then (if old = b then a else old) else (old + a) % 2 ^ 64
  (old, c.writeAt p 0 base off (leBytes 8 new))

/-- What a whole collective message gives to its unit: queue pair, OPCODE, bytes; the status answers a refused message (R503). -/
abbrev CollSink := Core → Nat → Nat → List Byte → Core × Nat

/-- The packet types of collectives that travel as messages (R474, R480). -/
def isCollMsg (opcode : Nat) : Bool := decide (0x10 ≤ opcode) && decide (opcode ≤ 0x13)

/-- Checks 10 and 11 and the payload. -/
def Core.dataBody (c : Core) (sink : CollSink) (n : Nat) (q : QP) (opcode : Nat) (k : Pkt) (msn i : Nat) (r : RxRec) : Core :=
  let np := q.packets r.total
  let good := r.kind == opcode && r.vc == k.vc.val && r.total == k.total.toNat && r.roff == k.roff.toNat && r.rkey == k.rkey.toNat &&
    k.offset.toNat % q.pmtu == 0 && decide (i < np) && k.payload.length == min q.pmtu (r.total - i * q.pmtu)
  if !good then
    let c := c.nak q msn St.LENGTH
    let c := c.updQp n (fun q => { q with
      refused := q.refused ++ [(msn, St.LENGTH)]
      rx := q.rx.filter (fun r => r.msn != msn)
      bufs := (match r.buf with | some b => [b] | none => []) ++ q.bufs })
    c.closeRec n
  else if r.base + 512 ≤ i then c.count Regs.RMA_WINDOW_DROPS_COUNT 0
  else if r.got.contains i ∨ i < r.base then c
  else
    let p := q.part
    let c := if opcode = 1 then c.writeAt p 0 r.region (r.roff + k.offset.toNat) k.payload
      else match r.buf with
        | some b => c.putBytes p b.ltile (Desc.ofBits (BitVec.ofNat 256 b.desc)) k.offset.toNat k.payload
        | none => c
    let data := if r.buf.isNone ∧ opcode ≠ 1 then
        threadAll (fun (m : SMap Byte) (e : Nat × Byte) => m.put zeroByte e.1 e.2) r.data ((upFrom k.offset.toNat k.payload.length).zip k.payload)
      else r.data
    let got := i :: r.got
    let base := advanceBase got np r.base
    let r := { r with got := got, base := base, data := data }
    if got.length = np then
      let (c, st) := if isCollMsg opcode then sink c n opcode ((List.range r.total).map (fun j => data.get zeroByte j)) else (c, 0)
      if st ≠ 0 then
        let c := c.nak q msn st
        (c.updQp n (fun q => { q with refused := q.refused ++ [(msn, st)], rx := q.rx.filter (fun r => r.msn != msn) })).closeRec n
      else
        let c := (c.setRec n { r with done := some 0, data := [] }).control q 0x08 msn (leBytes 2 0)
        let c := c.count Regs.RMA_RX_MSGS_COUNT p
        let c := match r.buf with | some b => c.finishOp b.op 0 r.total | none => c
        c.closeRec n
    else
      let c := c.setRec n r
      if got.length % 128 = 0 then c.control q 0x0A msn (statusBytes base got) else c

/-- Handle a data packet of a message: WRITE, SEND and collective data (R450-R452). -/
def Core.dataPacket (sink : CollSink) (c : Core) (n opcode : Nat) (k : Pkt) : Core :=
  match c.qp? n with
  | none => c
  | some q =>
    let msn := k.msn.toNat
    let i := k.offset.toNat / q.pmtu
    match q.refused.find? (fun e => e.1 == msn) with
    | some e => c.nak q msn e.2
    | none =>
      if (msn + 2 ^ 32 - q.rxLow) % 2 ^ 32 ≥ 2 ^ 31 then c.control q 0x08 msn (leBytes 2 0)
      else if 4 ≤ (msn + 2 ^ 32 - q.rxLow) % 2 ^ 32 then c.count Regs.RMA_WINDOW_DROPS_COUNT 0
      else
        let old := q.rx.find? (fun r => r.msn == msn)
        match old with
        | some r => if r.done.isSome then c.control q 0x08 msn (leBytes 2 0) else c.dataBody sink n q opcode k msn i r
        | none =>
          let new : RxRec := { msn := msn, kind := opcode, vc := k.vc.val, total := k.total.toNat, roff := k.roff.toNat, rkey := k.rkey.toNat }
          -- checks 8 and 9, on the first packet seen
          if opcode = 1 then
            match c.region q 1 k.rkey.toNat with
            | (none, c) => c.refuseMsg n k St.PROTECTION
            | (some g, c) =>
              if (if k.total.toNat = 0 then decide (g.len ≤ k.roff.toNat) else decide (g.len < k.roff.toNat + k.total.toNat)) then
                c.refuseMsg n k St.LENGTH
              else
                let new := { new with region := g.base }
                (c.setRec n new).dataBody sink n q opcode k msn i new
          else if opcode = 2 then
            match q.bufs with
            | [] => if k.rkey ≠ 0 then c.refuseMsg n k St.PROTECTION else c.nak q msn St.TIMEOUT
            | b :: rest =>
              if k.rkey ≠ 0 then c.refuseMsg n k St.PROTECTION
              -- buffers go to messages in MSN order: an earlier message that has none yet takes the oldest (R447)
              else
                let earlier := ((List.range ((msn + 2 ^ 32 - q.rxLow) % 2 ^ 32)).filter (fun j =>
                  !(q.rx.any (fun r => r.msn == (q.rxLow + j) % 2 ^ 32)) && !(q.refused.any (fun e => e.1 == (q.rxLow + j) % 2 ^ 32)))).length
                match (b :: rest)[earlier]? with
                | none => c.nak q msn St.TIMEOUT
                | some b =>
                  if b.len < k.total.toNat then c.refuseMsg n k St.LENGTH
                  else
                    let new := { new with buf := some b }
                    ((c.updQp n (fun q => { q with bufs := q.bufs.filter (fun x => x.op != b.op) })).setRec n new).dataBody sink n q opcode k msn i new
          else (c.setRec n new).dataBody sink n q opcode k msn i new

/-- A PSN jump on a path makes the receiver send STATUS for every message with packets outstanding (R453). -/
def Core.psnCheck (c : Core) (n : Nat) (k : Pkt) : Core :=
  match c.qp? n with
  | none => c
  | some q =>
    let want := (q.rxPsn[k.path.val]?).getD 0
    let c := c.updQp n (fun q => { q with rxPsn := q.rxPsn.set k.path.val ((k.psn.toNat + 1) % 2 ^ 24) })
    if want = k.psn.toNat then c
    else threadAll (fun c (r : RxRec) => if r.done.isNone then c.control q 0x0A r.msn (statusBytes r.base r.got) else c) c q.rx

/-- Free the messages' place in the send window and start what waits (R446). -/
def Core.startMsg (c : Core) (n : Nat) (m : TxMsg) : Core :=
  (c.updQp n (fun q => { q with tx := q.tx ++ [{ m with msn := q.txMsn }], txMsn := (q.txMsn + 1) % 2 ^ 32 })).pump n

/-- A NAK received (R456). -/
def Core.gotNak (c : Core) (n msn st : Nat) : Core :=
  match c.qp? n with
  | none => c
  | some q =>
    match q.tx.find? (fun m => m.msn == msn && m.kind != 4) with
    | none => c
    | some m =>
      let c := c.count Regs.RMA_NAKS_RECEIVED_COUNT q.part
      if st = St.TIMEOUT ∨ st = St.CONTEXT then c.updMsg n msn m.kind (fun m => { m with waiting := true, tries := m.tries + 1 })
      else c.endMsg n msn m.kind st

/-- RETRY_LIMIT in force (R467). DEDUCED (assumption 34). -/
def Core.retryLimit (c : Core) (p : Nat) : Nat := max 1 (c.rf Regs.RMA_RETRY_CFG_RETRY_LIMIT p)

/-- A STATUS received: packets reported missing below the last one sent are sent again (R451, R453). -/
def Core.gotStatus (c : Core) (n msn : Nat) (payload : List Byte) : Core :=
  let base := leNat (payload.take 4)
  let map := leNat ((payload.drop 4).take 64)
  match c.qp? n with
  | none => c
  | some q =>
    match q.tx.find? (fun m => m.msn == msn) with
    | none => c
    | some m =>
      let missing := (upFrom base (min 512 (m.next - base))).filter (fun i => !bitOf map (i - base))
      (c.updMsg n msn m.kind (fun m => { m with base := max m.base base, again := missing, rounds := if m.base < base then 0 else m.rounds })).pump n

/-- A read response packet (R449): its bytes go into td; when all have come the requester sends DONE and the RGET ends.
DEDUCED (assumption 22). -/
def Core.readResp (c : Core) (n : Nat) (k : Pkt) : Core :=
  match c.qp? n with
  | none => c
  | some q =>
    match q.tx.find? (fun m => m.msn == k.msn.toNat && m.kind == 3) with
    | none => c.control q 0x08 k.msn.toNat (leBytes 2 0)
    | some m =>
      let i := k.offset.toNat / q.pmtu
      let np := q.packets m.total
      let good := k.total.toNat == m.total && k.offset.toNat % q.pmtu == 0 && decide (i < np) && k.rkey == 0 &&
        k.payload.length == min q.pmtu (m.total - i * q.pmtu)
      if !good then (c.nak q m.msn St.LENGTH).endMsg n m.msn 3 St.LENGTH
      else if m.got.contains i then c
      else
        let c := match m.owner with
          | .op id => match c.op? id with
            | some o => c.putBytes o.part o.ltile (Desc.ofBits (BitVec.ofNat 256 m.desc)) k.offset.toNat k.payload
            | none => c
          | .row p table row =>
            let x := c.part p
            let put := fun (r : PendRow) =>
              if r.table = table ∧ r.row = row then
                let old := r.remote.getD (List.replicate m.total 0)
                { r with remote := some (old.take k.offset.toNat ++ k.payload ++ old.drop (k.offset.toNat + k.payload.length)) }
              else r
            c.setPart p { x with pend := x.pend.map put }
          | _ => c
        let got := i :: m.got
        if got.length = np then (c.control q 0x08 m.msn (leBytes 2 0)).endMsg n m.msn 3 0
        else
          let c := c.updMsg n m.msn 3 (fun m => { m with got := got })
          if got.length % 128 = 0 then c.control q 0x0A m.msn (statusBytes (advanceBase got np 0) got) else c

/-- A request that has passed checks 1 to 7 is admitted: READ_REQ and ATOMIC_REQ (R448, R449). -/
def Core.request (c : Core) (n opcode : Nat) (k : Pkt) : Core :=
  match c.qp? n with
  | none => c
  | some q =>
    let msn := k.msn.toNat
    match q.refused.find? (fun e => e.1 == msn), q.atomics.find? (fun e => e.1 == msn) with
    | some e, _ => c.nak q msn e.2
    | none, some e => if opcode = 5 then c.control q 0x06 msn (leBytes 8 e.2) else c
    | none, none =>
      if (msn + 2 ^ 32 - q.rxLow) % 2 ^ 32 ≥ 2 ^ 31 then
        (if q.tx.any (fun m => m.msn == msn && m.kind == 4) then c.pump n else c.control q 0x08 msn (leBytes 2 0))
      else if 4 ≤ (msn + 2 ^ 32 - q.rxLow) % 2 ^ 32 then c.count Regs.RMA_WINDOW_DROPS_COUNT 0
      else match c.region q opcode k.rkey.toNat with
        | (none, c) => c.refuseMsg n k St.PROTECTION
        | (some g, c) =>
          let len := k.total.toNat
          if (if len = 0 then decide (g.len ≤ k.roff.toNat) else decide (g.len < k.roff.toNat + len)) then c.refuseMsg n k St.LENGTH
          else if opcode = 5 ∧ (g.base + k.roff.toNat) % 8 ≠ 0 then c.refuseMsg n k St.BOUNDS
          else if opcode = 5 ∧ (k.payload.length ≠ 16 ∨ len ≠ 8) then c.refuseMsg n k St.LENGTH
          else
            let done : RxRec := { msn := msn, kind := opcode, vc := k.vc.val, total := len, roff := k.roff.toNat, rkey := k.rkey.toNat, done := some 0 }
            let c := (c.setRec n done).closeRec n
            if opcode = 5 then
              let (old, c) := c.atomic q.part g.base k.roff.toNat k.payload k.cas
              let c := c.updQp n (fun q => { q with atomics := (q.atomics ++ [(msn, old)]).drop (q.atomics.length + 1 - 16) })
              (c.control q 0x06 msn (leBytes 8 old)).count Regs.RMA_RX_MSGS_COUNT q.part
            else
              let data := c.readAt q.part 0 g.base k.roff.toNat len
              let m : TxMsg := { msn := msn, kind := 4, vc := q.vc, total := len, data := data }
              ((c.updQp n (fun q => { q with tx := q.tx ++ [m] })).count Regs.RMA_RX_MSGS_COUNT q.part).pump n

/-- Bytes of a packet in the miss buffer of its port. -/
def missBytes (k : Pkt) : Nat := k.payload.length + 64

/-- Hold a packet whose context is not cached (R463). -/
def Core.holdPacket (c : Core) (n opcode : Nat) (k : Pkt) : Core :=
  let use := c.rf Regs.RMA_MISS_USE_BYTES k.port.val
  let fits := decide (use + missBytes k ≤ 262144)
  let c := if fits then
      let c := c.wf Regs.RMA_MISS_USE_BYTES k.port.val (use + missBytes k)
      c.peak Regs.RMA_MISS_USE_PEAK k.port.val (use + missBytes k)
    else c
  (c.updQp n (fun q => { q with waiting := q.waiting ++ [(opcode, k, fits)] })).touchQp n

/-- What checks 1 to 5 of R455 decide: drop with a counter, or go on. DEDUCED (assumption 23). -/
def Core.frontChecks (c : Core) (opcode : Nat) (k : Pkt) : Core × Bool :=
  let u := unitOfPort k.port.val k.iface.val
  let known := decide (1 ≤ opcode) && decide (opcode ≤ 0x15) && opcode != 7
  let isCredit := opcode == 0x0C || opcode == 0x0D || opcode == 0x0E
  let key := k.key.toNat
  let owner := c.rf Regs.FAB_VC_CFG_OWNER (k.vc.val + 16 * u)
  if k.malformed || !known || decide (8192 < k.payload.length) then (c.count Regs.RMA_MALFORMED_COUNT 0, false)
  else if k.dstDev.toNat ≠ c.rf Regs.COL_HERD_CFG_DEV_ID then (c.count Regs.RMA_MISROUTED_COUNT 0, false)
  else if key ≠ 0 ∧ c.flag Regs.SEC_KEYID_MAP_REVOKED (key - 1) then (c.count Regs.FAB_RX_REVOKED_DROPS_COUNT u, false)
  else if (key = 0 ∧ !isCredit) ∨ (key ≠ 0 ∧ (c.epochCur.isNone ∨ c.rf Regs.SEC_KEYID_MAP_PART (key - 1) = 0x1F)) ∨
      (k.vc.val ≠ 0 ∧ owner ≠ 0x1F ∧ (key = 0 ∨ c.rf Regs.SEC_KEYID_MAP_PART (key - 1) ≠ owner)) then
    (c.count Regs.FAB_RX_PROT_DROPS_COUNT u, false)
  else if k.auth = 0 ∨ (k.auth = 2 ∧ c.epochPrev.isNone) then (c.count Regs.RMA_AUTH_FAIL_COUNT 0, false)
  else (c, true)

/-- Check 7 of R455: the queue pair is READY and the packet comes from its peer. -/
def QP.peerOk (q : QP) (k : Pkt) : Bool := q.state == qREADY && q.remoteDev == k.srcDev.toNat && q.remoteQp == k.srcQp.toNat

/-- Grant cells to a sender from the unallotted cells of a VC (R458). -/
def Core.unallotted (c : Core) (u vc : Nat) : Nat :=
  c.rf Regs.FAB_VC_CFG_CELLS (vc + 16 * u) -
    ((c.rxGrants.filter (fun g => g.unit == u && g.vc == vc)).map (fun g => (g.limit - g.consumed) + g.freed + g.kept)).foldl (· + ·) 0

/-- DEDUCED (assumption 24). -/
def Core.updGrant (c : Core) (u vc dev : Nat) (f : RxGrant → RxGrant) : Core :=
  if c.rxGrants.any (fun g => g.unit == u && g.vc == vc && g.dev == dev) then
    { c with rxGrants := c.rxGrants.map (fun g => if g.unit = u ∧ g.vc = vc ∧ g.dev = dev then f g else g) }
  else { c with rxGrants := c.rxGrants ++ [f { unit := u, vc := vc, dev := dev }] }

/-- Send the latest CREDIT to a sender (R457, R461). -/
def Core.sendCredit (c : Core) (u vc dev : Nat) : Core :=
  match c.rxGrants.find? (fun g => g.unit == u && g.vc == vc && g.dev == dev) with
  | some g => (c.updGrant u vc dev (fun g => { g with changed := true })).creditPacket u dev 0x0C vc g.limit
  | none => c

/-- Answer a credit request, or queue it (R458). -/
def Core.grantRequest (c : Core) (r : CreditReq) : Core :=
  let free := c.unallotted r.unit r.vc
  if free = 0 then
    if (c.creditReqs.filter (fun x => x.unit == r.unit)).length < 64 then { c with creditReqs := c.creditReqs ++ [r] } else c
  else
    (c.updGrant r.unit r.vc r.dev (fun g => { g with limit := g.limit + min free r.cells })).sendCredit r.unit r.vc r.dev

/-- Serve the requests that wait, first in, first out. -/
def Core.serveRequests (c : Core) : Core :=
  let rs := c.creditReqs
  let one := fun (c : Core) (r : CreditReq) =>
    if c.unallotted r.unit r.vc = 0 then { c with creditReqs := c.creditReqs ++ [r] } else c.grantRequest r
  threadAll one { c with creditReqs := [] } rs

/-- The entries of a credit packet's payload: VC and count. -/
def creditEntries : Nat → List Byte → List (Nat × Nat)
  | 0, _ => []
  | n + 1, bs => if bs.length < 4 then [] else
    let w := leNat (bs.take 4)
    (bits w 3 0, bits w 31 8) :: creditEntries n (bs.drop 4)

/-- Credit packets (R457, R458, R460). -/
def Core.creditIn (c : Core) (opcode : Nat) (k : Pkt) : Core :=
  let u := unitOfPort k.port.val k.iface.val
  let dev := k.srcDev.toNat
  let one := fun (c : Core) (e : Nat × Nat) =>
    if e.1 = 0 ∨ e.1 = 15 then c
    else match opcode with
    | 0x0C => c.setCredit u e.1 dev { c.credit u e.1 dev with limit := e.2, granted := true, requested := false }
    | 0x0D => c.grantRequest { unit := u, vc := e.1, dev := dev, cells := e.2 }
    | _ =>
      -- the grant is unallotted once the cells that the sender consumed have freed: none is held when none waits (R460)
      let mine := fun (g : RxGrant) => g.unit == u && g.vc == e.1 && g.dev == dev
      let c := { c with rxGrants := (c.rxGrants.filter (fun g => !(mine g && g.kept == 0))).map (fun g => if mine g then { g with returned := some e.2 } else g) }
      c.serveRequests
  let c := threadAll one c (creditEntries 2048 k.payload)
  if opcode = 0x0C then c.pumpAll else c

/-- DONE (R444): it ends the own message of its MSN that has been sent whole, else the read response of that MSN.
DEDUCED (assumption 22). -/
def Core.gotDone (c : Core) (n msn st : Nat) : Core :=
  match c.qp? n with
  | none => c
  | some q =>
    match q.tx.find? (fun m => m.msn == msn && m.kind != 4 && m.kind != 3 && m.kind != 5 &&
      m.next == q.packets m.total) with
    | some m => c.endMsg n msn m.kind st
    | none => c.endMsg n msn 4 st

/-- An ABORT received (R465). -/
def Core.gotAbort (c : Core) (n port reason : Nat) : Core :=
  match c.qp? n with
  | none => c
  | some q =>
    let c := c.count Regs.RMA_ABORTS_COUNT q.part
    let c := (c.qpError n St.LINK_DOWN).updQp n (fun q => { q with rx := [] })
    c.evt Cls.item (Src.port port) q.part 0x0A04 (n + reason * 2 ^ 16 + q.remoteDev * 2 ^ 32)

/-- What the collective units do with PROBE and PROBE_RESP: the core, queue pair, OPCODE and payload. -/
abbrev CollCtl := Core → Nat → Nat → List Byte → Core

/-- A packet whose context is at hand: checks 7 to 11 and its effect. DEDUCED (assumption 23). -/
def Core.deliver (sink : CollSink) (ctl : CollCtl) (c : Core) (n opcode : Nat) (k : Pkt) : Core :=
  match c.qp? n with
  | none => c
  | some q =>
    if !q.peerOk k then
      if opcode = 0x09 ∨ opcode = 0x08 ∨ opcode = 0x0F then c
      else ((c.nak q k.msn.toNat St.PROTECTION).refusedEvent n k.port.val q.part St.PROTECTION k.rkey.toNat k.roff.toNat)
    else
      let st := leNat (k.payload.take 2)
      let msn := k.msn.toNat
      if isCollMsg opcode then (c.psnCheck n k).dataPacket sink n opcode k
      else match opcode with
      | 0x01 => (c.psnCheck n k).dataPacket sink n 1 k
      | 0x02 => (c.psnCheck n k).dataPacket sink n 2 k
      | 0x03 => (c.psnCheck n k).request n 3 k
      | 0x04 => (c.psnCheck n k).readResp n k
      | 0x05 => (c.psnCheck n k).request n 5 k
      | 0x06 =>
        (match q.tx.find? (fun m => m.msn == msn && m.kind == 5) with
        | some m =>
          let c := match m.owner with
            | .op id => match c.op? id with
              | some o => c.putBytes o.part o.ltile (Desc.ofBits (BitVec.ofNat 256 m.desc)) 0 (k.payload.take 8)
              | none => c
            | _ => c
          c.endMsg n msn 5 0
        | none => c)
      | 0x08 => c.gotDone n msn st
      | 0x09 => c.gotNak n msn st
      | 0x0A => c.gotStatus n msn k.payload
      | 0x0B =>
        (match q.rx.find? (fun r => r.msn == msn), q.tx.find? (fun m => m.msn == msn && m.kind == 3) with
        | some r, _ => if r.done.isSome then c.control q 0x08 msn (leBytes 2 0) else c.control q 0x0A msn (statusBytes r.base r.got)
        | none, some m => c.control q 0x0A msn (statusBytes (advanceBase m.got m.got.length 0) m.got)
        | none, none =>
          match q.refused.find? (fun e => e.1 == msn) with
          | some e => c.nak q msn e.2
          | none => if (msn + 2 ^ 32 - q.rxLow) % 2 ^ 32 ≥ 2 ^ 31 then c.control q 0x08 msn (leBytes 2 0)
            else c.control q 0x0A msn (statusBytes 0 []))
      | 0x0F => c.gotAbort n k.port.val st
      | o => ctl c n o k.payload

/-- A packet from a port (R455). -/
def Core.recvApong (sink : CollSink) (ctl : CollCtl) (c : Core) (opcode : Nat) (k : Pkt) : Core :=
  match c.frontChecks opcode k with
  | (c, false) => c
  | (c, true) =>
    if opcode = 0x0C ∨ opcode = 0x0D ∨ opcode = 0x0E then c.creditIn opcode k
    else
      let n := k.dstQp.toNat
      match c.qp? n, c.qpOwner n with
      | some q, some _ => if !q.cached && q.state == qREADY then c.holdPacket n opcode k else (c.touchQp n).deliver sink ctl n opcode k
      | _, _ =>
        -- a queue pair outside every range or in RESET: NAK PROTECTION by the way the packet came
        if opcode = 0x08 ∨ opcode = 0x09 ∨ opcode = 0x0F then c
        else if !c.keyUsable k.key.toNat then c
        else c.putPacket (unitOfPort k.port.val k.iface.val) 0 0x09 0 k.key.toNat k.srcDev.toNat k.srcQp.toNat n k.msn.toNat 0 0 0 0 0 0
          (leBytes 2 St.PROTECTION)

/-- Cells that a sender's packets kept on an interface and VC are freed; a grant that was returned ends with its last one (R460, R463). -/
def Core.freeCells (c : Core) (u vc dev cells : Nat) : Core :=
  let mine := fun (g : RxGrant) => g.unit == u && g.vc == vc && g.dev == dev
  let free := fun (g : RxGrant) => if mine g then { g with kept := g.kept - cells, freed := g.freed + min g.kept cells } else g
  { c with rxGrants := (c.rxGrants.map free).filter (fun g => !(mine g && g.returned.isSome && g.kept == 0)) }

/-- Take the packets that wait for a context out of the miss buffer and out of the cells. -/
def Core.takeWaiting (c : Core) (n : Nat) : Core × List (Nat × Pkt) :=
  match c.qp? n with
  | none => (c, [])
  | some q =>
    let one := fun (c : Core) (w : Nat × Pkt × Bool) =>
      if w.2.2 then c.wf Regs.RMA_MISS_USE_BYTES w.2.1.port.val (c.rf Regs.RMA_MISS_USE_BYTES w.2.1.port.val - missBytes w.2.1)
      else if w.2.1.vc.val = 0 then c
      else c.freeCells (unitOfPort w.2.1.port.val w.2.1.iface.val) w.2.1.vc.val w.2.1.srcDev.toNat (frameCells q.form w.2.1.payload.length)
    ((threadAll one c q.waiting).updQp n (fun q => { q with waiting := [] }), q.waiting.map (fun w => (w.1, w.2.1)))

/-! ### QP_CMD and REGION_INVAL (R437, R438, R443) -/

/-- Byte range [lo, lo + n) of a context, little-endian. -/
def ctxField (bs : List Byte) (lo n : Nat) : Nat := leNat ((bs.drop lo).take n)

/-- The queue pair a context describes, and whether its fields are in range (first check of R437). -/
def Core.parseContext (c : Core) (p n : Nat) (bs : List Byte) : QP × Bool :=
  let f := ctxField bs
  let np := bits (f 8 1) 3 0
  let path := fun (i : Nat) => (f (48 + 16 * i + 8) 1 % 8, f (48 + 16 * i + 8) 1 / 8 % 2)
  let form := bits (f 9 1) 1 0
  let ipOk := fun (lo : Nat) => if form = 2 then f lo 16 == 0 else form == 1 || f lo 12 == 0
  let pathOk := fun (i : Nat) =>
    if i < np then f (48 + 16 * i + 8) 1 / 16 == 0 && f (48 + 16 * i + 9) 7 == 0 &&
      ((path i).2 == 0 || c.flag Regs.FAB_PORT_CTRL_SPLIT (2 * (path i).1))
    else f (48 + 16 * i) 16 == 0
  let ok := f 2 2 / 2 ^ 14 == 0 && f 4 2 / 2 ^ 12 == 0 && f 6 1 / 64 == 0 && decide (1 ≤ f 6 1 % 16) && decide (f 6 1 % 16 ≤ 14) &&
    decide (1 ≤ f 7 1) && f 8 1 / 16 == 0 && decide (1 ≤ np) && decide (np ≤ 8) && f 9 1 / 4 == 0 && decide (form ≤ 2) && f 10 6 == 0 &&
    ipOk 16 && ipOk 32 && (List.range 8).all pathOk
  ({ num := n, part := p, remoteQp := f 0 2, remoteDev := f 2 2 % 2 ^ 14, pd := f 4 2 % 2 ^ 12, vc := f 6 1 % 16
     pmtu := 1024 * 2 ^ (f 6 1 / 16 % 4), key := f 7 1, form := form, paths := (List.range np).map path
     psn := List.replicate np 0, rxPsn := List.replicate 8 0 }, ok)

/-- A VC that another partition owns on an interface (R422). -/
def Core.vcForeign (c : Core) (p u vc : Nat) : Bool :=
  let o := c.rf Regs.FAB_VC_CFG_OWNER (vc + 16 * u)
  o != 0x1F && o != p

/-- CREATE (R437): its RESULT. A queue pair outside QP_RANGE has no context to read, so that check comes first. -/
def Core.qpCreate (c : Core) (p n : Nat) : Core :=
  let res := fun (c : Core) (st : Nat) => c.wf Regs.RMA_QP_CMD_STATUS_RESULT p st
  if c.flag Regs.RMA_QP_CMD_STATUS_BUSY p then c
  else if c.qpOwner n ≠ some p then res c St.BOUNDS
  else
    let bs := c.readAt p 0 (c.rf Regs.RMA_CTX_BASE_ADDR p) (256 * (n - c.rf Regs.RMA_QP_RANGE_FIRST p)) 176
    let (q, ok) := c.parseContext p n bs
    if !ok then res c St.LENGTH
    else if q.pd < c.rf Regs.RMA_PD_RANGE_FIRST p ∨ c.rf Regs.RMA_PD_RANGE_FIRST p + c.rf Regs.RMA_PD_RANGE_COUNT p ≤ q.pd then res c St.PROTECTION
    else if c.rf Regs.SEC_KEYID_MAP_PART (q.key - 1) ≠ p then res c St.PROTECTION
    else if q.paths.any (fun a => c.vcForeign p (unitOfPort a.1 a.2) q.vc) then res c St.PROTECTION
    else if q.remoteDev = c.rf Regs.COL_HERD_CFG_DEV_ID ∨ c.rf Regs.COL_HERD_CFG_SIZE ≤ q.remoteDev then res c St.BOUNDS
    else if (c.qp? n).any (fun q => q.state != qRESET) then res c St.BOUNDS
    else
      let c := c.setQp { q with state := qREADY }
      let c := (c.cacheQp n).1
      (res c St.SUCCESS).writeState p n qREADY

/-- DESTROY acts (R438): operations end, the peer is told, packets that wait receive NAK PROTECTION (R465). -/
def Core.destroyNow (c : Core) (p n : Nat) : Core :=
  let c := (c.wf Regs.RMA_QP_CMD_STATUS_RESULT p St.SUCCESS).wf Regs.RMA_QP_CMD_STATUS_BUSY p 0
  match c.qp? n with
  | none => c
  | some q =>
    let c := c.endQpOps n St.ABORTED
    let c := if q.state = qREADY then c.control q 0x0F 0 (leBytes 2 St.ABORTED) else c
    let (c, ws) := c.takeWaiting n
    let c := threadAll (fun c (w : Nat × Pkt) => c.nak q w.2.msn.toNat St.PROTECTION) c ws
    let c := { c with qps := c.qps.filter (fun x => x.num != n) }
    c.writeState p n qRESET

/-- DESTROY (R438): while the context is being fetched it waits, and the command stays busy (R465). -/
def Core.qpDestroy (c : Core) (p n : Nat) : Core :=
  if c.flag Regs.RMA_QP_CMD_STATUS_BUSY p then c
  else if c.qpOwner n ≠ some p then c.wf Regs.RMA_QP_CMD_STATUS_RESULT p St.BOUNDS
  else if (c.qp? n).any (·.fetching) then (c.updQp n (fun q => { q with destroying := true })).wf Regs.RMA_QP_CMD_STATUS_BUSY p 1
  else c.destroyNow p n

/-- Messages admitted under a key that are not complete (R443). -/
def Core.keyBusy (c : Core) (p k : Nat) : Bool :=
  c.qps.any (fun q => q.part == p && q.rx.any (fun r => r.done.isNone && r.kind == 1 && r.rkey == k))

/-- REGION_INVAL (R443). -/
def Core.regionInval (c : Core) (p k : Nat) : Core :=
  let c := { c with regionCache := c.regionCache.put (fun _ => none) (262144 * p + k) none, invals := c.invals ++ [(p, k)] }
  c.wf Regs.RMA_REGION_INVAL_BUSY p 1

/-! ### The instructions (R223, R444) -/

/-- QP and RKEY of the immediate. -/
def TArgs.qpNum (x : TArgs) : Nat := bits (x.wide.getD 0).toNat 15 0
def TArgs.rkey (x : TArgs) : Nat := bits (x.wide.getD 0).toNat 33 16

/-- Spaces of the local operands of remote memory (R145). -/
def spLocal : Nat := 0b1000111

/-- The status with which an operation on a queue pair ends at issue (R27, R439, R444), if it does; `dev` is the remote device.
DEDUCED (assumption 23). -/
def Core.qpIssue (c : Core) (p n : Nat) (dev : Option Nat) : Nat :=
  if c.qpOwner n ≠ some p then St.PROTECTION
  else match c.qp? n with
    | none => St.PROTECTION
    | some q =>
      if q.state = qERROR then q.err
      else if q.state ≠ qREADY then St.PROTECTION
      else if dev.any (fun d => d != q.remoteDev) then St.PROTECTION
      else if q.paths.any (fun a => c.vcForeign p (unitOfPort a.1 a.2) q.vc) then St.PROTECTION
      else if c.flag Regs.SEC_KEYID_MAP_REVOKED (q.key - 1) ∨ c.keyExhausted q.key then St.KEY_REVOKED
      else if !c.pathsUp q then St.LINK_DOWN
      else 0

/-- Issue a message for the operation that is being issued, whose number is `nextOp`. -/
def Core.issueMsg (c : Core) (n : Nat) (m : TxMsg) : OpRes :=
  let c := c.touchQp n
  { c := c.startMsg n { m with owner := .op c.nextOp }, wait := true }

/-- Send the messages that accesses to remote groups wait for (R382): the partition's queue pair REMOTE_QP carries them. -/
def Core.flushSlow (c : Core) : Core :=
  let rs := c.slowReqs
  let one := fun (c : Core) (r : SlowReq) =>
    let n := c.rf Regs.SLOW_REMOTE_QP_QP r.part
    let st := c.qpIssue r.part n (some r.dev)
    if st ≠ 0 then c.endOwner r.owner st
    else
      let vc := ((c.qp? n).map (·.vc)).getD 1
      let bytes := (upFrom r.off r.len).map (fun o => (c.remoteOut.get (fun _ => none) (remoteKey r.dev r.key o)).getD 0)
      let m : TxMsg := { msn := 0, kind := if r.write then 1 else 3, vc := vc, total := r.len, roff := r.off, rkey := r.key
                         data := if r.write then bytes else [], owner := r.owner }
      (c.touchQp n).startMsg n m
  let c := threadAll one { c with slowReqs := [] } rs
  { c with remoteOut := [] }

/-- The operation of RPUT, RGET, RATOM, RSEND and RRECV. -/
def Core.opRemote (c : Core) (x : TArgs) (kind l p : Nat) : OpRes :=
  let tl := c.tile x.tile.val
  let td := tl.desc x.td.val
  let ta := tl.desc x.ta.val
  let tb := tl.desc x.tb.val
  let n := TArgs.qpNum x
  let remote : Nat := 0b10000
  let ops : List Operand := match kind with
    | 1 => [{ d := td, dest := true, spaces := remote }, { d := ta, spaces := spLocal }]
    | 3 => [{ d := td, dest := true, spaces := spLocal }, { d := ta, spaces := remote }]
    | 5 => [{ d := td, dest := true, spaces := spLocal }, { d := ta, spaces := remote }, { d := tb, spaces := spLocal }]
    | 2 => [{ d := ta, spaces := spLocal }]
    | _ => [{ d := td, dest := true, spaces := spLocal }]
  let shape := match kind with
    | 1 => decide (ta.bytes < 2 ^ 32)
    | 3 => decide (td.bytes < 2 ^ 32)
    | 2 => decide (ta.bytes < 2 ^ 32)
    | 5 => td.bytes == 8 && ta.bytes == 8 && tb.bytes == (if bitOf x.mods.toNat 0 then 16 else 8)
    | _ => decide (td.bytes < 2 ^ 32)
  let st := c.issueChecks p l ops shape false
  if st ≠ 0 then .fail (c.licensedEvent p ops st) st
  else
    let dev := match kind with
      | 1 => some (bits td.addr 59 46)
      | 3 => some (bits ta.addr 59 46)
      | 5 => some (bits ta.addr 59 46)
      | _ => none
    let qs := c.qpIssue p n dev
    if qs ≠ 0 then .fail c qs
    else
      let vc := ((c.qp? n).map (·.vc)).getD 1
      let (fs, c) := c.memFaults p l (ops.filter (fun o => bits o.d.addr 63 60 != 4)) x.env
      if fs ≠ 0 then .fail c fs
      else match kind with
      | 1 => c.issueMsg n { msn := 0, kind := 1, vc := vc, total := ta.bytes, roff := bits td.addr 45 0, rkey := TArgs.rkey x, data := c.tensorBytes p l ta 0 ta.bytes }
      | 3 => c.issueMsg n { msn := 0, kind := 3, vc := vc, total := td.bytes, roff := bits ta.addr 45 0, rkey := TArgs.rkey x
                            desc := (tl.t.get (fun _ => 0) x.td.val).toNat }
      | 5 =>
        let b := c.tensorBytes p l tb 0 tb.bytes
        let payload := if bitOf x.mods.toNat 0 then b.drop 8 ++ b.take 8 else b ++ List.replicate 8 0
        c.issueMsg n { msn := 0, kind := 5, vc := vc, total := 8, roff := bits ta.addr 45 0, rkey := TArgs.rkey x, data := payload
                       desc := (tl.t.get (fun _ => 0) x.td.val).toNat, cas := bitOf x.mods.toNat 0 }
      | 2 => c.issueMsg n { msn := 0, kind := 2, vc := vc, total := ta.bytes, data := c.tensorBytes p l ta 0 ta.bytes }
      | _ =>
        if 256 ≤ (((c.qp? n).map (·.bufs.length)).getD 0) then .fail c St.LENGTH
        else
          let b : RecvBuf := { op := c.nextOp, ltile := l, desc := (tl.t.get (fun _ => 0) x.td.val).toNat, len := td.bytes, waits := ((c.qp? n).map (fun q => !q.cached)).getD false }
          { c := (c.touchQp n).updQp n (fun q => { q with bufs := q.bufs ++ [b] }), wait := true }

/-- RPUT, RGET, RATOM, RSEND and RRECV (R223, R444). -/
def execRput (x : TArgs) (s : State) : Host.Outcome State Fault Refusal :=
  s.on (fun c => c.tensorIns x .RPUT (fun c l p => c.opRemote x 1 l p))
def execRget (x : TArgs) (s : State) : Host.Outcome State Fault Refusal :=
  s.on (fun c => c.tensorIns x .RGET (fun c l p => c.opRemote x 3 l p))
def execRatom (x : TArgs) (s : State) : Host.Outcome State Fault Refusal :=
  s.on (fun c => c.tensorIns x .RATOM (fun c l p => c.opRemote x 5 l p))
def execRsend (x : TArgs) (s : State) : Host.Outcome State Fault Refusal :=
  s.on (fun c => c.tensorIns x .RSEND (fun c l p => c.opRemote x 2 l p))
def execRrecv (x : TArgs) (s : State) : Host.Outcome State Fault Refusal :=
  s.on (fun c => c.tensorIns x .RRECV (fun c l p => c.opRemote x 0 l p))

/-- COPY, FILL, GATHER and SCATTER (R202-R204); accesses to remote groups send their messages (R382). -/
def execCopy (x : TArgs) (s : State) : Host.Outcome State Fault Refusal :=
  s.on (fun c => (c.tensorIns x .COPY (fun c l p => c.opCopy x l p)).flushSlow)
def execFill (x : TArgs) (s : State) : Host.Outcome State Fault Refusal :=
  s.on (fun c => (c.tensorIns x .FILL (fun c l p => c.opFill x l p)).flushSlow)
def execGather (x : TArgs) (s : State) : Host.Outcome State Fault Refusal :=
  s.on (fun c => (c.tensorIns x .GATHER (fun c l p => c.opRows x l p true)).flushSlow)
def execScatter (x : TArgs) (s : State) : Host.Outcome State Fault Refusal :=
  s.on (fun c => (c.tensorIns x .SCATTER (fun c l p => c.opRows x l p false)).flushSlow)

end Sys2Proof.Machine
end

