-- ==== Sys2Proof/Machine/Complete.lean ====
section
/-! DEFINITION. Complete.lean: the completion of an asynchronous operation (R157, R160), when a program has stopped (R183, R185) and
what a Partition fatal event does (R516, R637). -/

namespace Sys2Proof.Machine

/-- A Partition fatal event: it is posted, PART.STATUS.FATAL is set and the partition's program stops with a status (R516, R637). -/
def Core.partFatal (c : Core) (p source code info0 info1 status : Nat) : Core :=
  ((c.evt Cls.partition source p code info0 info1).wf Regs.PART_STATUS_FATAL p 1).stopProgram p status none

/-- The counters of tile `t` that an operation moves at its completion (R263). -/
def Core.opCounters (c : Core) (t : Nat) (o : AOp) : Core :=
  let c := if o.note ≠ 0 then c.count Regs.TILE_MM_OPERATIONS_COUNT t else c
  let c := if 0x40 ≤ o.major ∧ o.major ≤ 0x43 ∧ o.status = 0 then c.count Regs.TILE_MM_OPS_COUNT t o.work else c
  if o.major = 0xB8 ∧ o.status = 0 then c.wr Regs.TILE_RU_LAST t o.work else c

/-- An S-form that met exhaustion stops the program of its partition (R282). -/
def Core.stashFull (c : Core) (t : Nat) (o : AOp) : Core :=
  if o.status = St.STASH_FULL ∧ 0x90 ≤ o.major ∧ o.major ≤ 0x93 then
    let c := c.wf Regs.TILE_STASH_STATUS_EXHAUSTED t 1
    let c := c.evt Cls.item (Src.tile t) o.part 0x0502 o.work o.ltile
    c.stopProgram o.part St.STASH_FULL none
  else c

/-- An operation completes: its token's count falls and takes a first failure, its record goes to its slot, and the tile's
sequencer goes on if it waited for this (R157, R158, R160). -/
def Core.complete (c : Core) (id : Nat) : Core :=
  match c.op? id with
  | none => c
  | some o =>
    let c : Core := { c with ops := c.ops.filter (fun x => x.id != id) }
    let c := match o.item with
      | some i => (c.updItem i (fun x => { x with info := o.info })).endItem i o.status true
      | none => c
    match c.phys o.ltile with
    | none => c
    | some t =>
      let c := c.setTile t ((c.tile t).signalToken o.tok o.status)
      ((c.opCounters t o).stashFull t o).wake t

/-- Whether every tile of a program has halted or stopped, and no operation of the partition is in flight (R183, R185). -/
def Core.programDone (c : Core) (p : Nat) (pr : Prog) : Bool :=
  pr.tiles.all (fun l => match c.phys l with | some t => (c.tile t).run != 1 | none => true) &&
  !c.ops.any (fun o => o.part == p)

/-- OPERATION_COMPLETE: operation `id`, which waits for no other command, completes (R157). DESIGN CHOICE (assumption 86). -/
def execOperationComplete (id : Nat) (s : State) : Host.Outcome State Fault Refusal :=
  s.on (fun c => match c.op? id with
    | some o => if o.wait then c else c.complete id
    | none => c)

end Sys2Proof.Machine
end

