-- ==== Sys2Proof/Machine/UpdateOps.lean ====
section
/-! DEFINITION. UpdateOps.lean: the arithmetic of a training step: layer records (R291), the schedule (R313), the optimisers
(R311, R312, R315), the statistics and the state of a shard (R288-R290, R297, R316). -/

namespace Sys2Proof.Machine

/-! ### FP32 helpers -/

/-- The FP32 bits of 1.0. -/
def one32 : Nat := 0x3F800000
/-- The FP32 value of an FP16 or FP32 element (R297, R311). -/
def widen (f : FFmt) (w : Nat) : Nat := roundNum .fp32 .nearest (decodeF f w)
/-- The FP32 value rounded to FP16, to nearest (R288). -/
def to16 (w : Nat) : Nat := roundNum .fp16 .nearest (decodeF .fp32 w)
/-- The correctly rounded square root (R216). -/
def sqrt32 (w : Nat) : Nat := roundNum .fp32 .nearest (sqrtNum (decodeF .fp32 w))
/-- An integer rounded to FP32. -/
def nat32 (n : Nat) : Nat := roundNum .fp32 .nearest (.ofQ (Q.ofNat n))
/-- 2^e in FP32, rounded. -/
def pow32 (e : Int) : Nat := roundNum .fp32 .nearest (.ofQ (Q.pow2 e))
/-- Whether a value is above another. -/
def gt32 (a b : Nat) : Bool := ltNum (decodeF .fp32 b) (decodeF .fp32 a)
/-- Whether a value is ±0 after the flush of R80. -/
def zero32 (w : Nat) : Bool := (decodeF .fp32 w).isZero
/-- Whether a value is NaN or ±∞. -/
def nonFin32 (w : Nat) : Bool := (decodeF .fp32 w).nonFinite
/-- Fold a list of FP32 sums, starting from the first. -/
def fold32 : List Nat → Nat
  | [] => 0
  | x :: r => r.foldl add32 x

/-! ### The training state of a partition (R307, R308) -/

/-- The loss-scale exponent E. -/
def Core.lossE (c : Core) (p : Nat) : Int := signed 8 (c.rf Regs.UPD_LS_STATE_E (c.lead p))

/-- Change the current step of a partition. -/
def Core.updStep (c : Core) (p : Nat) (f : StepSt → StepSt) : Core :=
  c.setPart p { c.part p with step := f (c.part p).step }

/-- Change an item of the current step. -/
def Core.updStepItem (c : Core) (p op : Nat) (f : StepItem → StepItem) : Core :=
  c.updStep p (fun s => { s with items := s.items.map (fun i => if i.op = op then f i else i) })

/-! ### Layer records (R291) -/

/-- The fields of a layer record that the engines use. -/
structure Layer where
  opt : Nat
  auto : Bool
  gmul : Nat
  cap : Nat
  lrMult : Nat
  decay : Nat
  b1 : Nat
  b2 : Nat
  eps : Nat
  trMax : Nat
  rhoLo : Nat
  rhoHi : Nat
  p1 : Nat
  p2 : Nat
  zeroRun : Nat
  zeroElems : Nat
  steps : Nat
  reserved : Bool
  deriving DecidableEq, Repr

/-- The view offset of a layer slot's record. -/
def Core.layerAt (c : Core) (p l : Nat) : Nat := c.layerBase p + 64 * l

/-- The record of a layer slot. -/
def Core.layer (c : Core) (p l : Nat) : Layer :=
  let bs := c.readView p (c.layerAt p l) 64
  let f := fun (at' n : Nat) => leNat ((bs.drop at').take n)
  { opt := f 0 1 % 4, auto := bitOf (f 0 1) 2, gmul := f 1 1 % 32, cap := f 2 1 % 32
    lrMult := f 4 4, decay := f 8 4, b1 := f 12 4, b2 := f 16 4, eps := f 20 4, trMax := f 24 4
    rhoLo := f 28 4, rhoHi := f 32 4, p1 := f 36 4, p2 := f 40 4, zeroRun := f 44 4, zeroElems := f 48 8, steps := f 56 4
    reserved := f 0 1 / 8 != 0 || f 1 1 / 32 != 0 || f 2 1 / 32 != 0 || f 3 1 != 0 || f 62 2 != 0 }

/-- GMUL of a layer slot in force for the step, and the slot's record with it (R293, R296). DEDUCED (assumption 41). -/
def Core.gmulNow (c : Core) (p l : Nat) : Nat := (c.part p).cfg.gmul.get (fun _ => 0) l
/-- DEDUCED (assumption 41). -/
def Core.layerNow (c : Core) (p l : Nat) : Layer := { c.layer p l with gmul := c.gmulNow p l }

/-- Write bytes of a layer record. -/
def Core.putLayer (c : Core) (p l o n v : Nat) : Core := c.writeView p (c.layerAt p l + o) (leBytes n v)

/-! ### The schedule (R313) -/

/-- The product of LR0 and n factors GAMMA, from left to right; a factor that no longer changes the product ends it. -/
def powerChain : Nat → Nat → Nat → Nat
  | 0, a, _ => a
  | n + 1, a, g => let b := mul32 a g; if b = a then a else powerChain n b g

/-- η of a step with n committed steps before it, from the settings in force (R296). DEDUCED (assumption 41). -/
def Core.eta (c : Core) (p : Nat) : Nat :=
  let k := (c.part p).cfg
  let n := c.rf Regs.UPD_SCHED_N_N (c.lead p)
  let min1 := fun (a : Nat) => if gt32 a one32 then one32 else a
  let warmUp := if k.warm = 0 then k.lr0 else mul32 k.lr0 (min1 (div32 (nat32 (n + 1)) (nat32 k.warm)))
  match k.kind with
  | 0 => k.lr0
  | 1 => warmUp
  | 2 =>
    if n < k.warm then warmUp
    else if k.total ≤ k.warm then k.lrMin
    else
      let q := min1 (div32 (nat32 (n - k.warm)) (nat32 (k.total - k.warm)))
      let cs := roundNum .fp32 .nearest (.ofQ (cosPi (decodeF .fp32 q).toQ))
      add32 k.lrMin (div32 (mul32 (sub32 k.lr0 k.lrMin) (add32 one32 cs)) (nat32 2))
  | 3 => if k.interval = 0 then k.lr0 else powerChain (n / k.interval) k.lr0 k.gamma
  | _ =>
    let i := if k.stride = 0 then 0 else min (n / k.stride) 1023
    leNat (c.readView p (k.table * 4096 + 4 * i) 4)

/-! ### The state block (R290) -/

/-- A state block. -/
structure StateBlock where
  rem : Nat
  m : Nat
  v : Nat
  pos : Nat
  sparse : Bool
  ksel : Bool
  user : List Nat
  reserved : Bool
  deriving DecidableEq, Repr

/-- The state block in 128 bytes. -/
def parseBlock (bs : List Byte) : StateBlock :=
  let f := fun (at' n : Nat) => leNat ((bs.drop at').take n)
  { rem := f 0 8, m := f 8 8, v := f 16 8, pos := f 24 8, sparse := bitOf (f 32 1) 0, ksel := bitOf (f 32 1) 1
    user := (List.range 4).map (fun i => f (40 + 8 * i) 8)
    reserved := f 32 1 / 4 != 0 || f 33 7 != 0 || (bs.drop 72).any (· != 0) }

/-- k of a k-of-16 shard. -/
def StateBlock.k (b : StateBlock) : Nat := if b.ksel then 4 else 8

/-- The gradient elements of a shard in the order of its weights: for a k-of-16 shard those at the kept positions (R316). -/
def Core.gradients (c : Core) (p l : Nat) (ta : Desc) (b : StateBlock) (n : Nat) : List Nat :=
  let es := c.elems p l ta
  if b.sparse then
    (List.range n).map (fun j =>
      let w := leNat (c.readAt p l b.pos (2 * (j / 4)) 2)
      (es[16 * (j / b.k) + bits w (4 * (j % 4) + 3) (4 * (j % 4))]?).getD 0)
  else es

/-! ### Statistics (R297) -/

/-- Z, NZ, S and the non-finite bit of a list of gradient elements. -/
def gradStats (f : FFmt) (es : List Nat) : Nat × Nat × Nat × Bool :=
  let xs := es.map (widen f)
  let z := (xs.filter zero32).length
  (z, xs.length - z, reduce64 add32 (xs.map (fun x => mul32 x x)), xs.any nonFin32)

/-! ### The optimisers (R311, R312, R315) -/

/-- The factors that the engine computes once per slot (R311). -/
structure Coef where
  opt : Nat
  etaL : Nat
  sc : Nat
  cf : Nat
  decay : Nat
  b1 : Nat
  b2 : Nat
  a1 : Nat
  a2 : Nat
  q1 : Nat
  q2 : Nat
  eps : Nat
  deriving DecidableEq, Repr

/-- The factors of a slot under η, c and E. -/
def Layer.coef (r : Layer) (eta cf : Nat) (e : Int) : Coef :=
  { opt := r.opt, etaL := mul32 eta r.lrMult, sc := pow32 (-(e + r.gmul)), cf := cf, decay := r.decay, b1 := r.b1, b2 := r.b2
    a1 := sub32 one32 r.b1, a2 := sub32 one32 r.b2, q1 := sub32 one32 (mul32 r.p1 r.b1), q2 := sub32 one32 (mul32 r.p2 r.b2)
    eps := r.eps }

/-- ĝ: the gradient after scaling and clipping (R311). -/
def Coef.ghat (k : Coef) (g : Nat) : Nat := let a := mul32 g k.sc; if k.cf = one32 then a else mul32 a k.cf

/-- An element on its way through the optimiser: x, the new moments, and d. -/
structure Moved where
  x : Nat
  m : Nat
  v : Nat
  d : Nat
  deriving DecidableEq, Repr

/-- x, m′, v′ and d of an element (R311). -/
def Coef.move (k : Coef) (g w r m v : Nat) : Moved :=
  let gh := k.ghat g
  let x := add32 (widen .fp16 w) (widen .fp16 r)
  if k.opt = 0 then
    let m := add32 (mul32 k.b1 m) gh
    { x := x, m := m, v := v, d := add32 m (mul32 k.decay x) }
  else
    let m := add32 (mul32 k.b1 m) (mul32 k.a1 gh)
    let v := add32 (mul32 k.b2 v) (mul32 k.a2 (mul32 gh gh))
    let u := div32 (div32 m k.q1) (add32 (sqrt32 (div32 v k.q2)) k.eps)
    { x := x, m := m, v := v, d := add32 u (mul32 k.decay x) }

/-- The trust ratio φ of the elements of one item (R312). -/
def trustRatio (trMax : Nat) (es : List Moved) : Nat :=
  let nx := reduce64 add32 (es.map (fun e => mul32 e.x e.x))
  let nd := reduce64 add32 (es.map (fun e => mul32 e.d e.d))
  if zero32 nx || zero32 nd then one32
  else
    let f := div32 (sqrt32 nx) (sqrt32 nd)
    if nonFin32 f then one32 else if gt32 trMax 0 && gt32 f trMax then trMax else f

/-- x′ of an element (R311, R312). -/
def Coef.newX (k : Coef) (phi : Nat) (e : Moved) : Nat :=
  sub32 e.x (mul32 (if k.opt = 2 then mul32 k.etaL phi else k.etaL) e.d)

/-- What an element's update writes: w′, r′, m, v, or nothing when one of them is not finite (R288, R315). -/
def splitElem (x' m v : Nat) : Option (Nat × Nat × Nat × Nat) :=
  let w := to16 x'
  let r := to16 (sub32 x' (widen .fp16 w))
  if (decodeF .fp16 w).nonFinite || (decodeF .fp16 r).nonFinite || nonFin32 m || nonFin32 v then none else some (w, r, m, v)

/-- What an apply pass gives for a list of elements: the values to write, and the sums of R322 over the elements. -/
structure Applied where
  out : List (Option (Nat × Nat × Nat × Nat))
  sx : Nat
  sd : Nat
  kept : Nat
  deriving DecidableEq, Repr

/-- The outcome for elements with x and x′, m and v. -/
def applied (es : List (Nat × Nat × Nat × Nat)) : Applied :=
  let out := es.map (fun e => splitElem e.2.1 e.2.2.1 e.2.2.2)
  let diff := (es.zip out).map (fun e => if e.2.isNone then 0 else sub32 e.1.2.1 e.1.1)
  { out := out, sx := reduce64 add32 (es.map (fun e => mul32 e.1 e.1)), sd := reduce64 add32 (diff.map (fun d => mul32 d d))
    kept := (out.filter (·.isNone)).length }

/-- The apply pass of a list of elements g, w, r, m, v (R311, R312, R315). -/
def Coef.apply (k : Coef) (trMax : Nat) (es : List (Nat × Nat × Nat × Nat × Nat)) : Applied :=
  let ms := es.map (fun e => k.move e.1 e.2.1 e.2.2.1 e.2.2.2.1 e.2.2.2.2)
  let phi := if k.opt = 2 then trustRatio trMax ms else one32
  applied (ms.map (fun e => (e.x, k.newX phi e, e.m, e.v)))

end Sys2Proof.Machine
end

