-- ==== Sys2Proof/Machine/Rows.lean ====
section
/-! DEFINITION. Rows.lean: the pending-gradient buffer and the row path of a training step (R383-R393). -/

namespace Sys2Proof.Machine

/-! ### Directory and staging -/

/-- The directory key of a table's group. -/
def Core.dirKey (c : Core) (p table g : Nat) : Nat := c.rf Regs.SLOW_DIR_RANGE_FIRST p + (c.rowTable p table).first + g

/-- Change a directory entry. -/
def Core.updDir (c : Core) (p table g : Nat) (f : Nat → Nat) : Core :=
  let k := c.dirKey p table g
  { c with dir := c.dir.put dirDefault k (BitVec.ofNat 64 (f (c.dir.get dirDefault k).toNat)) }

/-- The group of a row. -/
def Core.groupOf (c : Core) (p table row : Nat) : Nat := row / 2 ^ (c.rowTable p table).groupLog

/-- PEND of a group names the entry of its first pending row (R380). -/
def Core.refreshPend (c : Core) (p table g : Nat) : Core :=
  let mine := (c.part p).pend.filter (fun r => r.table == table && c.groupOf p table r.row == g)
  c.updDir p table g (fun e => setBits e 63 47 (match mine.head? with | some r => r.slot | none => 0x1FFFF))

/-- PEND_USE of a partition (R397). -/
def Core.refreshUse (c : Core) (p : Nat) : Core :=
  let n := (c.part p).pend.length
  (c.wf Regs.SLOW_PEND_USE_USED p n).wf Regs.SLOW_PEND_USE_PEAK p (max (c.rf Regs.SLOW_PEND_USE_PEAK p) n)

/-- The lowest free slot of the pending buffer. -/
def freeSlot (rs : List PendRow) : Nat := ((List.range (rs.length + 1)).find? (fun i => !rs.any (fun r => r.slot == i))).getD 0

/-- The place of a row's first byte. -/
def Core.rowAddr (c : Core) (p table row : Nat) : Place := c.rowPlace p table (row * (c.rowTable p table).stride)

/-- The staging block of an address on flash. -/
def Core.stageOf (c : Core) (a : Nat) : Option StageBlk :=
  c.stageBlks.find? (fun b => b.slot == a / 2 ^ 45 && b.block == a % 2 ^ 45 / 4096)

/-- Change a staging block. -/
def Core.updStage (c : Core) (slot block : Nat) (f : StageBlk → StageBlk) : Core :=
  { c with stageBlks := c.stageBlks.map (fun b => if b.slot = slot ∧ b.block = block then f b else b) }

/-- Whether an SSD slot serves: enabled and not failed (R377). -/
def Core.ssdOk (c : Core) (s : Nat) : Bool := c.flag Regs.SLOW_SSD_STATUS_ACTIVE s && !c.flag Regs.SLOW_SSD_STATUS_FAILED s

/-- BUSY of a group follows the fetches and write-backs in flight (R380). -/
def Core.refreshBusy (c : Core) (p table g : Nat) : Core :=
  let r := c.rowTable p table
  let busy := c.stageBlks.any (fun b => b.part == p && b.table == table && (b.fetching || b.writing) &&
    (match c.rowPlace p table (g * r.groupBytes) with
    | .flash a => a / 2 ^ 45 == b.slot && decide (a % 2 ^ 45 / 4096 ≤ b.block) && decide (b.block < a % 2 ^ 45 / 4096 + r.groupBytes / 4096)
    | _ => false))
  c.updDir p table g (fun e => setBits e 2 2 (b2n busy))

/-- Start the fetch of a row's state if it needs one (R384): a row of the scratchpad or of device memory is present at once; a row
on flash needs its block staged, and waits when no staging block is free; a row of a remote group is read by a message. -/
def Core.fetchRow (c : Core) (p : Nat) (r : PendRow) : PendRow × Core :=
  let t := c.rowTable p r.table
  match c.rowAddr p r.table r.row with
  | .flash a =>
    let s := a / 2 ^ 45
    if !c.ssdOk s then ({ r with failed := some St.LINK_DOWN }, c)
    else match c.stageOf a with
      | some b => ({ r with present := !b.fetching, waits := false }, c)
      | none =>
        if c.rf Regs.SLOW_STAGE_BLOCKS_BLOCKS p ≤ (c.stageBlks.filter (fun b => b.part == p)).length then ({ r with waits := true }, c)
        else
          let b : StageBlk := { part := p, slot := s, block := a % 2 ^ 45 / 4096, table := r.table }
          let c := ({ c with stageBlks := c.stageBlks ++ [b] } : Core).nvme s 0 b.block (.fetch p)
          let c := c.count Regs.SLOW_FETCHES_COUNT p
          ({ r with waits := false }, c.refreshBusy p r.table (c.groupOf p r.table r.row))
  | .remote dev key o =>
    let q : SlowReq := { part := p, dev := dev, key := key, off := o, len := t.stride, owner := .row p r.table r.row }
    (r, ({ c with slowReqs := c.slowReqs ++ [q] } : Core).count Regs.SLOW_FETCHES_COUNT p)
  | _ => ({ r with present := true }, c)

/-! ### Acceptance (R384, R386, R387) -/

/-- An FP16 element as a fixed-point number with 24 fraction bits; NaN and ±∞ add nothing (R386). -/
def fixed24 (w : Nat) : Int :=
  match decodeF .fp16 w with
  | .fin neg q => let n : Int := (q.num * (2 ^ 24 : Nat)) / (q.den : Int); if neg then -n else n
  | _ => 0

/-- Add a gradient row to an accumulator. -/
def PendRow.add (r : PendRow) (g : List Nat) : PendRow :=
  { r with acc := (r.acc.zip g).map (fun e => e.1 + fixed24 e.2), count := r.count + 1 }

/-- The gradient row at a position of a ROWUPD item's ta. -/
def Core.gradRow (c : Core) (p : Nat) (i : StepItem) (k : Nat) : List Nat :=
  let ta := Desc.ofBits (BitVec.ofNat 256 i.ta)
  (List.range ta.e0).map (fun j => let x := ta.rowIndex k j; c.elem p i.ltile ta x.1 x.2.1 x.2.2.1 x.2.2.2)

/-- Try to accept one position of an item; false when its row needs an entry and none is free. -/
def Core.acceptRow (c : Core) (p : Nat) (i : StepItem) (k : Nat) : Bool × Core :=
  let tb := i.table.getD 0
  let row := (i.rows[k]?).getD 0
  let x := c.part p
  let g := c.gradRow p i k
  let seen := fun (c : Core) => c.updDir p tb (c.groupOf p tb row) (fun e => setBits e 46 36 (min (bits e 46 36 + 1) 2047))
  match x.pend.find? (fun r => r.table == tb && r.row == row) with
  | some r =>
    let r' := r.add g
    let c := c.setPart p { x with pend := x.pend.map (fun y => if y.slot = r.slot then r' else y) }
    (true, seen (if 4194303 < r'.count then c.updStep p (fun s => { s with nf := true }) else c))
  | none =>
    if c.rf Regs.SLOW_PEND_ROWS_ROWS p ≤ x.pend.length then (false, c)
    else
      let zero : List Int := List.replicate (c.rowTable p tb).elems 0
      let r := ({ slot := freeSlot x.pend, table := tb, row := row, acc := zero, count := 0, present := false } : PendRow).add g
      let (r, c) := c.fetchRow p r
      let c := c.setPart p { c.part p with pend := (c.part p).pend ++ [r] }
      (true, ((seen c).refreshPend p tb (c.groupOf p tb row)).refreshUse p)

/-- Accept the positions of an item in increasing order; those that find no entry stay (R387); `first` tells
that the item has just been accepted. -/
def Core.acceptItem (c : Core) (p : Nat) (i : StepItem) (first : Bool) : Core :=
  let step := fun (acc : List Nat × Core) (k : Nat) =>
    let (ok, c) := acc.2.acceptRow p i k
    if ok then (acc.1, c) else (acc.1 ++ [k], c)
  let (left, c) := i.todo.foldl step ([], c)
  let c := c.updStepItem p i.op (fun i => { i with todo := left })
  if left.isEmpty then c
  else
    let c := if (c.part p).step.pendFull then c
      else (c.updStep p (fun s => { s with pendFull := true })).evt Cls.info (Src.updEngine (c.lead p)) p 0x0810 (c.stepOf p)
    if first then c.count Regs.SLOW_WAITED_ROWS_COUNT p left.length else c

/-! ### Applying and failing rows (R389-R393) -/

/-- Log a failed row (R391, R393). -/
def Core.logRow (c : Core) (p table row st : Nat) : Core :=
  let c := c.count Regs.SLOW_ROWS_FAILED_COUNT p
  let c := c.updStep p (fun s => { s with rowsFailed := s.rowsFailed + 1, failed := s.failed ++ [(table, row, st)] })
  let size := c.rf Regs.SLOW_FAIL_SIZE_SIZE p
  let tail := c.rf Regs.SLOW_FAIL_TAIL_TAIL p
  if size < 64 ∨ 65536 < size ∨ !isPow2 size then c
  else if (tail + 1) % size = c.rf Regs.SLOW_FAIL_HEAD_HEAD p % size then c.wf Regs.SLOW_SLOW_PSTATUS_FAIL_OVF p 1
  else
    let rec_ := leBytes 8 (row + table * 2 ^ 32 + st * 2 ^ 48) ++ leBytes 8 (c.stepOf p)
    (c.writeView p (c.rf Regs.SLOW_FAIL_BASE_BASE p * 4096 + 16 * (tail % size)) rec_).wf Regs.SLOW_FAIL_TAIL_TAIL p ((tail + 1) % size)

/-- Free the entry of a row. -/
def Core.freeRow (c : Core) (p : Nat) (r : PendRow) : Core :=
  let c := c.setPart p { c.part p with pend := (c.part p).pend.filter (fun y => y.slot != r.slot) }
  (c.refreshPend p r.table (c.groupOf p r.table r.row)).refreshUse p

/-- Write bytes of a row's state: to staging for a row on flash, by a message for a remote row (R389, R390). -/
def Core.putRow (c : Core) (p : Nat) (r : PendRow) (o : Nat) (bs : List Byte) : Core :=
  match c.rowAddr p r.table r.row with
  | .flash a =>
    let put := fun (m : SMap (Option Byte)) (e : Nat × Byte) => m.put (fun _ => none) e.1 (some e.2)
    ({ c with staged := threadAll put c.staged ((upFrom (a + o) bs.length).zip bs) } : Core).updStage (a / 2 ^ 45) (a % 2 ^ 45 / 4096)
      (fun b => { b with dirty := true })
  | .remote dev key a =>
    let q : SlowReq := { part := p, dev := dev, key := key, off := a + o, len := bs.length, write := true, owner := .none }
    let put := fun (m : SMap (Option Byte)) (e : Nat × Byte) => m.put (fun _ => none) (remoteKey dev key e.1) (some e.2)
    { c with slowReqs := c.slowReqs ++ [q], remoteOut := threadAll put c.remoteOut ((upFrom (a + o) bs.length).zip bs) }
  | _ => threadAll (fun c (e : Nat × Byte) => c.writePlace e.2 (c.rowPlace p r.table (r.row * (c.rowTable p r.table).stride + e.1))) c
      ((upFrom o bs.length).zip bs)

/-- Read bytes of a row's state. -/
def Core.getRow (c : Core) (p : Nat) (r : PendRow) (o n : Nat) : List Byte :=
  match r.remote with
  | some bs => (bs.drop o).take n
  | none => (upFrom o n).map (fun k => c.readPlace (c.rowPlace p r.table (r.row * (c.rowTable p r.table).stride + k)))

/-- Apply a row (R389): the accumulator rounded once to FP32 is g of R311. Elements whose result is not finite stay (R315). -/
def Core.applyRow (c : Core) (p : Nat) (r : PendRow) : Core :=
  let t := c.rowTable p r.table
  let n := t.elems
  let s := (c.part p).step
  let lay := c.layerNow p t.layer
  let k := lay.coef s.eta s.cf (c.lossE p)
  let hasV := lay.opt != 0
  let at' := fun (o w i : Nat) => leNat (c.getRow p r (o + w * i) w)
  let g := r.acc.map (fun a => roundNum .fp32 .nearest (.ofQ (Q.mk' a (2 ^ 24))))
  let es := (List.range n).map (fun i => ((g[i]?).getD 0, at' 0 2 i, at' (2 * n) 2 i, at' (4 * n) 4 i, if hasV then at' (8 * n) 4 i else 0))
  let a := k.apply lay.trMax es
  let put := fun (c : Core) (e : Nat × Option (Nat × Nat × Nat × Nat)) => match e.2 with
    | none => c
    | some (w, rm, m, v) =>
      let c := c.putRow p r (2 * e.1) (leBytes 2 w)
      let c := c.putRow p r (2 * n + 2 * e.1) (leBytes 2 rm)
      let c := c.putRow p r (4 * n + 4 * e.1) (leBytes 4 m)
      if hasV then c.putRow p r (8 * n + 4 * e.1) (leBytes 4 v) else c
  let c := threadAll put c ((List.range n).zip a.out)
  let c := c.count Regs.SLOW_ROWS_APPLIED_COUNT p
  let owner := (s.items.find? (fun i => i.table == some r.table && i.rows.contains r.row)).map (fun i => (i.op, i.eng))
  let c := match owner with
    | some (op, e) => ((c.updStepItem p op (fun i =>
        { i with sx := add32 i.sx a.sx, sd := add32 i.sd a.sd, kept := i.kept + a.kept })).count Regs.UPD_ENG_ELEMS_COUNT e n).count
          Regs.UPD_ENG_NF_ELEMS_COUNT e a.kept
    | none => c
  c.freeRow p r

/-- After the commit, apply every row whose state is present, in the order of first acceptance, and settle those whose fetch
failed (R389, R391). -/
def Core.applyReady (c : Core) (p : Nat) : Core :=
  if !(c.part p).step.committed then c
  else
    let one := fun (c : Core) (r : PendRow) => match r.failed with
      | some st => (c.logRow p r.table r.row st).freeRow p r
      | none => if r.present then c.applyRow p r else c
    threadAll one c (c.part p).pend

/-- Accept waiting positions and apply what is ready, until nothing more moves; the fuel is the number of rows that wait. -/
def Core.drainRows (c : Core) (p : Nat) : Nat → Core
  | 0 => c.applyReady p
  | n + 1 =>
    let c := c.applyReady p
    let waiting := (c.part p).step.items.filter (fun i => i.open_ && !i.todo.isEmpty)
    if waiting.isEmpty then c else (threadAll (fun c i => c.acceptItem p i false) c waiting).drainRows p n

/-- The status with which a ROWUPD item ends (R392). -/
def rowStatus (s : StepSt) (i : StepItem) : Nat :=
  let bad := (i.rows.map (fun r => (s.failed.find? (fun f => some f.1 == i.table && f.2.1 == r)).map (fun f => f.2.2))).filterMap id
  if bad.contains St.ROW_DEADLINE then St.ROW_DEADLINE else (bad.head?).getD 0

/-- An update item ends in its step with a status: its operation completes, and its engine counts it (R303, R326). -/
def Core.endStepItem (c : Core) (p : Nat) (i : StepItem) (st : Nat) : Core :=
  let c := c.updStepItem p i.op (fun i => { i with open_ := false })
  let c := if st = 0 then c.count Regs.UPD_ENG_ITEMS_COUNT i.eng else if st = St.STEP_SKIPPED then c.count Regs.UPD_ENG_SKIPPED_COUNT i.eng else c
  let c := if st = 0 ∧ 0 < i.kept then c.evt Cls.item (Src.updEngine i.eng) p 0x0608 (i.layer + i.kept % 2 ^ 32 * 2 ^ 32) else c
  (c.updOp i.op (fun o => { o with status := if o.status = 0 then st else o.status, wait := false })).complete i.op

/-- End every ROWUPD item of a committed step whose rows have all been applied or have failed (R392). -/
def Core.settleItems (c : Core) (p : Nat) : Core :=
  let s := (c.part p).step
  if !s.committed then c
  else
    let done := fun (i : StepItem) => i.open_ && i.table.isSome && i.todo.isEmpty &&
      !(c.part p).pend.any (fun r => some r.table == i.table && i.rows.contains r.row)
    threadAll (fun c i => match (c.part p).step.items.find? (fun x => x.op == i.op) with
      | some i => c.endStepItem p i (rowStatus (c.part p).step i)
      | none => c) c (s.items.filter done)

/-- Everything the row path can do now (R384, R389, R392); messages to remote groups leave. -/
def Core.runRows (c : Core) (p : Nat) : Core :=
  ((c.drainRows p (((c.part p).step.items.map (·.todo.length)).foldl (· + ·) 0)).flushSlow).settleItems p

/-- Free every pending entry and drop the staged blocks that were not written (R388, R394). A staged block that its failed
write-back left as the state of record stays on a skip (R390). -/
def Core.dropRows (c : Core) (p : Nat) (all : Bool) : Core :=
  let groups := (c.part p).pend.map (fun r => (r.table, c.groupOf p r.table r.row))
  let c := c.setPart p { c.part p with pend := [] }
  let drop := fun (b : StageBlk) => b.part == p && (all || !(b.dirty || b.stuck || b.writing))
  let gone := c.stageBlks.filter drop
  let c : Core :=
    { c with
      stageBlks := c.stageBlks.filter (fun b => !drop b)
      staged := c.staged.keepIf (fun a => !gone.any (fun b => b.slot == a / 2 ^ 45 && b.block == a % 2 ^ 45 / 4096)) }
  let c := threadAll (fun c (g : Nat × Nat) => (c.refreshPend p g.1 g.2).refreshBusy p g.1 g.2) c groups
  c.refreshUse p

end Sys2Proof.Machine
end

