-- ==== Sys2Proof/Machine/Scalar.lean ====
section
/-! DEFINITION. Scalar.lean: the scalar and control instructions (R195-R200, R131, R158, R161) and the synchronisation
instructions (R162-R165, R170, R171, R228-R230). -/

namespace Sys2Proof.Machine

/-! ### Scalar arithmetic -/

/-- g[d] receives a function of g[a] and B, and the pc moves on (R195, R196). -/
def Core.alu (c : Core) (x : SArgs) (op : SOp) (f : Word → Word → Word) : Core :=
  c.scalarIns x op (fun c =>
    let t := c.tile x.tile.val
    (c.setTile x.tile.val (t.setGr x.d.val (f (t.gr x.a.val) (x.bOp t)))).advance x.tile.val (wideLen x.wide))

/-- p[d] receives a relation between g[a] and B (R195). -/
def Core.compare (c : Core) (x : SArgs) (op : SOp) (f : Word → Word → Bool) : Core :=
  c.scalarIns x op (fun c =>
    let t := c.tile x.tile.val
    (c.setTile x.tile.val (t.setPr x.d.val (f (t.gr x.a.val) (x.bOp t)))).advance x.tile.val (wideLen x.wide))

/-- p[d] receives a function of p[a] and p[b] (R195). -/
def Core.predicate (c : Core) (x : SArgs) (op : SOp) (f : Bool → Bool → Bool) : Core :=
  c.scalarIns x op (fun c =>
    let t := c.tile x.tile.val
    (c.setTile x.tile.val (t.setPr x.d.val (f (t.pr x.a.val) (t.pr x.b.val)))).advance x.tile.val 8)

/-- The quotient of DIVU: all ones for a zero divisor (R198). -/
def divu (a b : Word) : Word := if b = 0 then BitVec.allOnes 64 else a / b
/-- The remainder of REMU: the dividend for a zero divisor (R198). -/
def remu (a b : Word) : Word := if b = 0 then a else a % b

def execNop (x : SArgs) (s : State) : Host.Outcome State Fault Refusal :=
  s.on (fun c => c.scalarIns x .NOP (fun c => c.advance x.tile.val 8))
def execAdd (x : SArgs) (s : State) : Host.Outcome State Fault Refusal := s.on (fun c => c.alu x .ADD (fun a b => a + b))
def execSub (x : SArgs) (s : State) : Host.Outcome State Fault Refusal := s.on (fun c => c.alu x .SUB (fun a b => a - b))
def execMul (x : SArgs) (s : State) : Host.Outcome State Fault Refusal := s.on (fun c => c.alu x .MUL (fun a b => a * b))
def execDivu (x : SArgs) (s : State) : Host.Outcome State Fault Refusal := s.on (fun c => c.alu x .DIVU divu)
def execRemu (x : SArgs) (s : State) : Host.Outcome State Fault Refusal := s.on (fun c => c.alu x .REMU remu)
def execAnd (x : SArgs) (s : State) : Host.Outcome State Fault Refusal := s.on (fun c => c.alu x .AND (fun a b => a &&& b))
def execOr (x : SArgs) (s : State) : Host.Outcome State Fault Refusal := s.on (fun c => c.alu x .OR (fun a b => a ||| b))
def execXor (x : SArgs) (s : State) : Host.Outcome State Fault Refusal := s.on (fun c => c.alu x .XOR (fun a b => a ^^^ b))
def execShl (x : SArgs) (s : State) : Host.Outcome State Fault Refusal :=
  s.on (fun c => c.alu x .SHL (fun a b => a <<< (b.toNat % 64)))
def execShr (x : SArgs) (s : State) : Host.Outcome State Fault Refusal :=
  s.on (fun c => c.alu x .SHR (fun a b => a >>> (b.toNat % 64)))
def execSar (x : SArgs) (s : State) : Host.Outcome State Fault Refusal :=
  s.on (fun c => c.alu x .SAR (fun a b => a.sshiftRight (b.toNat % 64)))
def execMins (x : SArgs) (s : State) : Host.Outcome State Fault Refusal :=
  s.on (fun c => c.alu x .MINS (fun a b => if a.slt b then a else b))
def execMaxs (x : SArgs) (s : State) : Host.Outcome State Fault Refusal :=
  s.on (fun c => c.alu x .MAXS (fun a b => if a.slt b then b else a))

/-- TADDR writes only ADDR of t[d] (R200). -/
def execTaddr (x : SArgs) (s : State) : Host.Outcome State Fault Refusal :=
  s.on (fun c => c.scalarIns x .TADDR (fun c =>
    let t := c.tile x.tile.val
    let v := t.gr x.a.val + x.bOp t
    let old := t.t.get (fun _ => 0) x.d.val
    let new : BitVec 256 := old.extractLsb' 64 192 ++ v
    (c.setTile x.tile.val { t with t := t.t.put (fun _ => 0) x.d.val new }).advance x.tile.val (wideLen x.wide)))

/-- The system values of R131; a reserved number has none. -/
def Core.systemValue (c : Core) (t n : Nat) : Option Nat :=
  let (l, p) := c.who t
  match n with
  | 0 => some l
  | 1 => some (c.tile t).imageTile
  | 2 => some p
  | 3 => some (match (c.part p).prog with | some pr => pr.tiles.length | none => 0)
  | 4 => some (if c.flag Regs.COL_HERD_CFG_VALID then c.rf Regs.COL_HERD_CFG_DEV_ID else 0x3FFF)
  | 5 => some (if c.flag Regs.COL_HERD_CFG_VALID then c.rf Regs.COL_HERD_CFG_ORDINAL else 0x3FFF)
  | 6 => some (c.stepOf p)
  | 7 => some c.ts
  | 8 => some (c.part p).phase
  | _ => none

/-- SYSV: the system value imm37, or the fault of R200. -/
def execSysv (x : SArgs) (s : State) : Host.Outcome State Fault Refusal :=
  s.on (fun c => c.scalarIns x .SYSV (fun c =>
    let t := c.tile x.tile.val
    match c.systemValue x.tile.val x.imm.toNat with
    | some v => (c.setTile x.tile.val (t.setGr x.d.val (BitVec.ofNat 64 v))).advance x.tile.val 8
    | none => c.programFault x.tile.val 5 St.ILLEGAL SOp.SYSV.major))

def execCmpeq (x : SArgs) (s : State) : Host.Outcome State Fault Refusal :=
  s.on (fun c => c.compare x .CMPEQ (fun a b => a == b))
def execCmpne (x : SArgs) (s : State) : Host.Outcome State Fault Refusal :=
  s.on (fun c => c.compare x .CMPNE (fun a b => a != b))
def execCmplt (x : SArgs) (s : State) : Host.Outcome State Fault Refusal :=
  s.on (fun c => c.compare x .CMPLT (fun a b => a.slt b))
def execCmpltu (x : SArgs) (s : State) : Host.Outcome State Fault Refusal :=
  s.on (fun c => c.compare x .CMPLTU (fun a b => a.ult b))
def execCmpge (x : SArgs) (s : State) : Host.Outcome State Fault Refusal :=
  s.on (fun c => c.compare x .CMPGE (fun a b => !a.slt b))
def execCmpgeu (x : SArgs) (s : State) : Host.Outcome State Fault Refusal :=
  s.on (fun c => c.compare x .CMPGEU (fun a b => !a.ult b))
def execPand (x : SArgs) (s : State) : Host.Outcome State Fault Refusal :=
  s.on (fun c => c.predicate x .PAND (fun a b => a && b))
def execPor (x : SArgs) (s : State) : Host.Outcome State Fault Refusal :=
  s.on (fun c => c.predicate x .POR (fun a b => a || b))
def execPxor (x : SArgs) (s : State) : Host.Outcome State Fault Refusal :=
  s.on (fun c => c.predicate x .PXOR (fun a b => a != b))

/-! ### Branches -/

/-- Branch to a 64-bit target: a multiple of 8, else the fault of R199; a target at or above 0x30_0000 faults at its fetch, and
the pc register keeps 22 bits, so such a target faults here, at the address it names (assumption 12). DEDUCED (assumption 12). -/
def Core.branch (c : Core) (t major : Nat) (target : Word) : Core :=
  if target.toNat % 8 ≠ 0 then c.programFault t 5 St.BOUNDS major
  else if 2 ^ 22 ≤ target.toNat then
    (c.setTile t { c.tile t with pc := target.toNat % 2 ^ 22 }).programFault t 5 St.BOUNDS major
  else c.setTile t { c.tile t with pc := target.toNat }

/-- The instruction's own address plus 8 × imm37 (R195). DEDUCED (assumption 12). -/
def SArgs.relTarget (x : SArgs) (t : Tile) : Word := BitVec.ofNat 64 t.pc + 8 * x.imm.signExtend 64

def execBr (x : SArgs) (s : State) : Host.Outcome State Fault Refusal :=
  s.on (fun c => c.scalarIns x .BR (fun c =>
    c.branch x.tile.val SOp.BR.major (SArgs.relTarget x (c.tile x.tile.val))))
def execBri (x : SArgs) (s : State) : Host.Outcome State Fault Refusal :=
  s.on (fun c => c.scalarIns x .BRI (fun c =>
    c.branch x.tile.val SOp.BRI.major ((c.tile x.tile.val).gr x.a.val + x.immWord)))
/-- CALL writes g[d] before the branch takes effect (R199). -/
def execCall (x : SArgs) (s : State) : Host.Outcome State Fault Refusal :=
  s.on (fun c => c.scalarIns x .CALL (fun c =>
    let t := c.tile x.tile.val
    let target := SArgs.relTarget x t
    let c := c.setTile x.tile.val (t.setGr x.d.val (BitVec.ofNat 64 (t.pc + 8)))
    c.branch x.tile.val SOp.CALL.major target))

/-- HALT waits for all 16 tokens, then ends the stream or faults (R161). -/
def execHalt (x : SArgs) (s : State) : Host.Outcome State Fault Refusal :=
  s.on (fun c => c.scalarIns x .HALT (fun c => c.stallOn x.tile.val .halt))

/-- An instruction word that fails R136: the program faults before the guard is evaluated. A word that decodes is not this
command, and changes nothing. -/
def execIllegalInstruction (tile : PTile) (word next : Word) (s : State) : Host.Outcome State Fault Refusal :=
  s.on (fun c => match decodeDioth word next with
    | .illegal reason len =>
      c.sequence tile.val (word.extractLsb' 56 8).toNat (8 * len) (some reason) 7 false id
    | .ins _ _ => c)

/-! ### Synchronisation -/

def execWait (x : SArgs) (s : State) : Host.Outcome State Fault Refusal :=
  s.on (fun c => c.scalarIns x .WAIT (fun c => c.stallOn x.tile.val (.tokens (x.imm.toNat % 65536) none 8)))
def execWaitt (x : SArgs) (s : State) : Host.Outcome State Fault Refusal :=
  s.on (fun c => c.scalarIns x .WAITT (fun c =>
    c.stallOn x.tile.val (.tokens (x.imm.toNat % 65536) (some x.d.val) 8)))

/-- SIGNAL adds to a flag of a tile of the partition, which saturates (R170, R229); a tile that waits on it goes on. -/
def execSignal (x : SArgs) (s : State) : Host.Outcome State Fault Refusal :=
  s.on (fun c => c.scalarIns x .SIGNAL (fun c =>
    let t := x.tile.val
    let (_, p) := c.who t
    let l := ((c.tile t).gr x.a.val).toNat
    let fault := fun st => c.programFault t 5 st SOp.SIGNAL.major
    if 255 < l then fault St.BOUNDS
    else match c.phys l with
      | none => fault St.BOUNDS
      | some t' =>
        if !c.ownsGroup p (groupOfLogical l) then fault St.PROTECTION
        else
          let n := bits x.imm.toNat 4 0
          let v := bits x.imm.toNat 20 5 + 1
          let y := c.tile t'
          let c := c.setTile t' (y.setFl n (min (y.fl n + v) (2 ^ 32 - 1)))
          (c.advance t 8).wake t'))

def execWaitf (x : SArgs) (s : State) : Host.Outcome State Fault Refusal :=
  s.on (fun c => c.scalarIns x .WAITF (fun c =>
    c.stallOn x.tile.val (.flag (bits x.imm.toNat 4 0) (bits x.imm.toNat 36 5) false)))
def execWaitfc (x : SArgs) (s : State) : Host.Outcome State Fault Refusal :=
  s.on (fun c => c.scalarIns x .WAITFC (fun c =>
    c.stallOn x.tile.val (.flag (bits x.imm.toNat 4 0) (bits x.imm.toNat 36 5) true)))

/-- PHASE drains the tile's compute units and arrives at the barrier (R162-R165). DEDUCED (assumption 15). -/
def execPhase (x : SArgs) (s : State) : Host.Outcome State Fault Refusal :=
  s.on (fun c => c.scalarIns x .PHASE (fun c =>
    let bwd := x.imm.toNat % 2 == 1
    let (_, p) := c.who x.tile.val
    if bwd && (c.part p).phase == 0 then c.programFault x.tile.val 4 St.ILLEGAL SOp.PHASE.major
    else c.stallOn x.tile.val (.drain bwd)))

/-- EVENT posts an Informational event of the partition (R228, R229). -/
def execEvent (x : SArgs) (s : State) : Host.Outcome State Fault Refusal :=
  s.on (fun c => c.scalarIns x .EVENT (fun c =>
    let t := c.tile x.tile.val
    let (_, p) := c.who x.tile.val
    let code := (t.gr x.a.val).toNat % 65536
    if code < 0x8000 then c.programFault x.tile.val 5 St.LENGTH SOp.EVENT.major
    else (c.evt Cls.info (Src.part p) p code (t.gr x.b.val).toNat (t.gr x.d.val).toNat).advance x.tile.val 8))

/-- CQPOST posts a completion record to an enabled queue (R228, R229, R568). -/
def execCqpost (x : SArgs) (s : State) : Host.Outcome State Fault Refusal :=
  s.on (fun c => c.scalarIns x .CQPOST (fun c =>
    let t := c.tile x.tile.val
    let (l, p) := c.who x.tile.val
    let q := bits x.imm.toNat 5 0
    let st := (t.gr x.a.val).toNat % 65536
    if st < 0x8000 then c.programFault x.tile.val 5 St.LENGTH SOp.CQPOST.major
    else if !c.flag Regs.HIF_CQ_CFG_ENABLE (qi p q) then c.programFault x.tile.val 5 St.BOUNDS SOp.CQPOST.major
    else if c.slotsUsed p = 4096 then c
    else
      let r : Rec :=
        { part := p, cq := q, tag := (t.gr x.b.val).toNat, status := st, sq := 0, origin := 2, ltile := l, entry := 0
          info := 0, ts := c.ts }
      let c : Core := { c with recs := c.recs ++ [r] }
      (c.peak Regs.HIF_RECORDS_PEAK p (c.slotsUsed p)).advance x.tile.val 8))

/-- STEST waits for the tile's earlier stash operations, then tells whether an entry is readable (R230). -/
def execStest (x : SArgs) (s : State) : Host.Outcome State Fault Refusal :=
  s.on (fun c => c.scalarIns x .STEST (fun c =>
    c.stallOn x.tile.val (.stest x.d.val (x.imm.toNat % 2 ^ 17))))

end Sys2Proof.Machine
end

