-- ==== Sys2Proof/Machine/Update.lean ====
section
/-! DEFINITION. Update.lean: update items (R289-R295, R318-R320, R383), LSCALE and EXPORT (R307, R323), the close, the decision and
the boundary of a training step (R296-R306, R321-R324). -/

namespace Sys2Proof.Machine

/-! ### Events of a step (R325) -/

/-- Post an event of the partition's lead engine. -/
def Core.stepEvt (c : Core) (p cls code info0 info1 : Nat) : Core := c.evt cls (Src.updEngine (c.lead p)) p code info0 info1

/-- UPDATE_INCOMPLETE: an item ended in the apply passes with a status other than SUCCESS (R324, R637). -/
def Core.updateIncomplete (c : Core) (p st : Nat) : Core :=
  let c := c.updStep p (fun s => { s with broken := s.broken + 1 })
  let c := c.wf Regs.UPD_STEP_STATUS_INCOMPLETE (c.lead p) 1
  c.partFatal p (Src.updEngine (c.lead p)) 0x060A (c.stepOf p) (c.part p).step.broken st

/-- The item of an operation ends because of another action (R59, R569). -/
def Core.endOpItem (c : Core) (op st : Nat) : Core :=
  match (c.op? op).bind (·.item) with
  | some i => (c.endItem i st false).updOp op (fun o => { o with item := none })
  | none => c

/-- Elements of the working-weight shard. -/
def shardN (td : Desc) : Nat := td.count

/-- What the apply pass of a held item writes: weights, remainders and moments (R303, R311). -/
def Core.shardSpans (c : Core) (p : Nat) (i : StepItem) : List Span :=
  let td := Desc.ofBits (BitVec.ofNat 256 i.td)
  let b := parseBlock (c.readAt p i.ltile (Desc.ofBits (BitVec.ofNat 256 i.tb)).addr 0 128)
  let out := fun (d : Desc) => ({ d := d, dest := true, spaces := 0 } : Operand).dests p i.ltile
  let moment := fun (a : Nat) => (⟨p, i.ltile, a, 0, 4 * shardN td⟩ : Span)
  out td ++ out { td with addr := b.rem } ++ [moment b.m] ++ (if b.v = 0 then [] else [moment b.v])

/-- An apply pass that ends early may have written any part of its shard and counted as many elements (R60, R324).
DEDUCED (assumption 52). -/
def Core.cutPass (c : Core) (p : Nat) (i : StepItem) : Core :=
  let n := shardN (Desc.ofBits (BitVec.ofNat 256 i.td))
  let c := threadAll (fun c x => c.spoil x) c (c.shardSpans p i)
  let (w, c) := c.fresh
  let (v, c) := c.fresh
  let k := w.toNat % (n + 1)
  (c.count Regs.UPD_ENG_ELEMS_COUNT i.eng k).count Regs.UPD_ENG_NF_ELEMS_COUNT i.eng (v.toNat % (k + 1))

/-- The items that the engines apply in a committed step: the oldest open one of each (R303). -/
def StepSt.passing (s : StepSt) : List StepItem :=
  if !s.committed then []
  else s.items.filter (fun i => i.open_ && i.table.isNone &&
    (s.items.find? (fun j => j.eng == i.eng && j.open_ && j.table.isNone)).any (fun j => j.op == i.op))

/-- Another action ends every held item of a partition with its status (R324, R394): before the decision no state changes; in
the apply passes shards may be partly updated. The current step is given up. -/
def Core.endHeld (c : Core) (p st : Nat) : Core :=
  let s := (c.part p).step
  let held := s.items.filter (·.open_)
  let c := threadAll (fun c i => c.cutPass p i) c s.passing
  let c := threadAll (fun c i => (c.endOpItem i.op st).endStepItem p i st) c held
  let c := c.dropRows p true
  let c := if s.committed ∧ !held.isEmpty then
      (let c := c.updStep p (fun s => { s with broken := s.broken + held.length - 1 }); c.updateIncomplete p st) else c
  (((c.updStep p (fun _ => {})).wf Regs.UPD_STEP_STATUS_CLOSED (c.lead p) 0).wf Regs.UPD_STEP_STATUS_DECIDED (c.lead p) 0)

/-! ### Issue of update items (R289-R295, R318) -/

/-- Spaces of the operands of an update item (R289) and of a ROWUPD (R145). -/
def spShard : Nat := 0b1000100
def spRow : Nat := 0b1100100

/-- LAYER of an update item. -/
def TArgs.layer (x : TArgs) : Nat := bits x.mods.toNat 9 0

/-- Whether an address of the state block and n bytes from it lie in space 0x2 or 0x6 (check 3 of R294). -/
def Core.shardAddr (c : Core) (p a n : Nat) : Bool := bitOf spShard (bits a 63 60) && c.boundsOk p a 0 n

/-- Checks 1 to 4 of R294: the status of the first that fails, or 0. -/
def Core.shardChecks (c : Core) (p layer : Nat) (user : Bool) (td ta tb : Desc) : Nat :=
  if tb.addr % 128 ≠ 0 ∨ !c.viewOk p (c.layerAt p 0) 65536 then St.BOUNDS
  else
    let b := parseBlock (c.readAt p 0 tb.addr 0 128)
    let r := c.layer p layer
    let n := shardN td
    let vBad := if r.opt = 0 then b.v != 0 else if r.opt = 3 then false else b.v == 0
    let posBad := if b.sparse then b.pos == 0 else b.pos != 0
    if b.reserved || r.reserved || (if user then r.opt == 0 else r.opt == 3) || vBad || posBad then St.LENGTH
    else if !c.shardAddr p b.rem td.span || !c.shardAddr p b.m (4 * n) || (b.v != 0 && !c.shardAddr p b.v (4 * n)) ||
        (b.sparse && !c.shardAddr p b.pos (ceilDiv n 4 * 2)) then St.BOUNDS
    else
      let ok := if b.sparse then !td.blocked && n % b.k == 0 && ta.count == 16 * n / b.k
        else td.sameExt ta && td.layout == ta.layout
      if ok then 0 else St.LENGTH

/-- Opcodes that an update program may use (R318). -/
def updAllowed : Ins → Bool
  | .s i => decide (i.op.major ≤ 0x29)
  | .t i => decide (0x60 ≤ i.op.uses.major) && decide (i.op.uses.major ≤ 0x6E)

/-- Whether the words of an update program pass R318. -/
def updCodeOk : List Word → Bool → Bool
  | [], skip => !skip
  | w :: r, skip =>
    if skip then updCodeOk r false
    else match decodeDioth w (r.headD 0) with
      | .illegal _ _ => false
      | .ins i len => updAllowed i && (len == 1 || !r.isEmpty) && updCodeOk r (len == 2)

/-- The words of an update program. -/
def Core.updWords (c : Core) (p : Nat) (tc : Desc) : List Word :=
  wordsOf (tc.e0 / 4) ((c.elems p 0 tc).flatMap (leBytes 2))

/-- An item whose step has closed (check 5 of R294). -/
def Core.updateLate (c : Core) (p l layer : Nat) : OpRes :=
  let c := c.count Regs.UPD_LATE_ITEMS_COUNT (c.lead p)
  .fail (c.evt Cls.item (Src.updEngine (groupOfLogical l)) p 0x0607 (layer + l * 2 ^ 16)) St.PROTECTION

/-- Hold an item in the current step; its operation waits for the step (R297). -/
def Core.holdItem (c : Core) (p : Nat) (i : StepItem) : OpRes :=
  let c := c.updStep p (fun s => { s with items := s.items ++ [i] })
  { c := c, wait := true }

/-- The operation of UPDATE and UPDPROG: checks, statistics pass, hold (R294, R297, R318). -/
def Core.opUpdate (c : Core) (x : TArgs) (user : Bool) (l p : Nat) : OpRes :=
  let t := c.tile x.tile.val
  let raw := fun (n : Nat) => (t.t.get (fun _ => 0) n).toNat
  let td := t.desc x.td.val
  let ta := t.desc x.ta.val
  let tb := t.desc x.tb.val
  let tc := t.desc x.tc.val
  let layer := TArgs.layer x
  let ops : List Operand :=
    [{ d := td, dest := true, spaces := spShard }, { d := ta, spaces := spShard, licensed := true },
     { d := tb, spaces := spShard, licensed := true }] ++ (if user then [{ d := tc, spaces := 0b100 }] else [])
  let shape := td.isFP16 && ta.isFP && tb.raw16 && tb.e0 == 64 && tb.e1 == 1 && tb.e2 == 1 && tb.e3 == 1 &&
    (!user || (tc.raw16 && decide (tc.e0 ≤ 1024) && tc.e1 == 1 && tc.e2 == 1 && tc.e3 == 1))
  let st := c.issueChecks p l ops shape false
  if st ≠ 0 then .fail (c.licensedEvent p ops st) st
  else
    let st := c.shardChecks p layer user td ta tb
    if st ≠ 0 then .fail c st
    else if user && !(tc.e0 % 4 == 0 && updCodeOk (c.updWords p tc) false) then .fail c St.ILLEGAL
    else if (c.part p).step.closed then c.updateLate p l layer
    else
      let (fs, c) := c.memFaults p l (ops.drop 1) x.env
      if fs ≠ 0 then .fail (c.updStep p (fun s => { s with nf := true })) fs
      else
        let es := if td.empty then [] else c.elems p l ta
        let (z, nz, s, nf) := gradStats ta.ffmt es
        let i : StepItem :=
          { op := c.nextOp, layer := layer, eng := groupOfLogical l, ltile := l, user := user, td := raw x.td.val, ta := raw x.ta.val
            tb := raw x.tb.val, tc := raw x.tc.val, z := z, nz := nz, s := s, nf := nf }
        let c := c.count Regs.UPD_ENG_NF_ELEMS_COUNT i.eng (nonFinites ta.ffmt es)
        c.holdItem p i

/-- The operation of ROWUPD (R226, R383, R384): checks, statistics pass, acceptance of its rows. -/
def Core.opRowupd (c : Core) (x : TArgs) (l p : Nat) : OpRes :=
  let t := c.tile x.tile.val
  let ta := t.desc x.ta.val
  let tb := t.desc x.tb.val
  let table := bits x.mods.toNat 7 0
  let tbl := c.rowTable p table
  let ops : List Operand := [{ d := ta, spaces := spRow }, { d := tb, spaces := spRow }]
  let shape := ta.isFP16 && tb.raw32 && tb.count == ta.rows && tb.e1 ≤ 1 && tb.e2 ≤ 1 && tb.e3 ≤ 1 &&
    (c.rowTableCheck p table != 0 || ta.e0 == tbl.elems)
  let st := c.issueChecks p l ops shape false
  if st ≠ 0 then .fail (c.licensedEvent p ops st) st
  else if c.rowTableCheck p table ≠ 0 then .fail c (c.rowTableCheck p table)
  else if c.rf Regs.SLOW_PEND_ROWS_ROWS p = 0 then .fail c St.LENGTH
  else
    let (fs, c) := c.memFaults p l ops x.env
    if fs ≠ 0 then .fail (c.updStep p (fun s => { s with nf := true })) fs
    else
      let idx := c.elems p l tb
      if idx.any (fun i => decide (tbl.rows ≤ i)) then .fail c St.BOUNDS
      else if (c.part p).step.closed then c.updateLate p l tbl.layer
      else
        let es := c.elems p l ta
        let (z, nz, s, nf) := gradStats .fp16 es
        let raw := fun (n : Nat) => (t.t.get (fun _ => 0) n).toNat
        let i : StepItem :=
          { op := c.nextOp, layer := tbl.layer, eng := groupOfLogical l, ltile := l, table := some table, ta := raw x.ta.val
            tb := raw x.tb.val, z := z, nz := nz, s := s, nf := nf, rows := idx, todo := List.range idx.length }
        let c := c.count Regs.UPD_ENG_NF_ELEMS_COUNT i.eng (nonFinites .fp16 es)
        let r := c.holdItem p i
        { r with c := (r.c.acceptItem p i true).flushSlow }

/-! ### The apply pass (R303, R311, R312, R315, R319, R320) -/

/-- The operands of a held item's shard, as the apply pass reads them: gradients, weights, remainders and moments. -/
structure Shard where
  td : Desc
  b : StateBlock
  n : Nat
  g : List Nat
  w : List Nat
  r : List Nat
  m : List Nat
  v : List Nat

/-- Read the shard of an item. -/
def Core.shard (c : Core) (p : Nat) (i : StepItem) : Shard :=
  let d := fun (n : Nat) => Desc.ofBits (BitVec.ofNat 256 n)
  let td := d i.td
  let b := parseBlock (c.readAt p i.ltile (d i.tb).addr 0 128)
  let n := shardN td
  let f32 := fun (a : Nat) => (List.range n).map (fun k => leNat (c.readAt p i.ltile a (4 * k) 4))
  { td := td, b := b, n := n, g := (c.gradients p i.ltile (d i.ta) b n).map (widen (d i.ta).ffmt), w := c.elems p i.ltile td
    r := c.elems p i.ltile { td with addr := b.rem }, m := f32 b.m, v := if b.v = 0 then List.replicate n 0 else f32 b.v }

/-- Write the results of elements from number `o` on. -/
def Core.putShard (c : Core) (p l : Nat) (s : Shard) (o : Nat) (out : List (Option (Nat × Nat × Nat × Nat))) : Core :=
  let ix := s.td.indices
  let put := fun (c : Core) (e : Nat × Option (Nat × Nat × Nat × Nat)) => match e.2 with
    | none => c
    | some (w, r, m, v) =>
      let i := (ix[e.1]?).getD (0, 0, 0, 0)
      let c := c.putElems p l s.td [(i, w)]
      let c := c.putElems p l { s.td with addr := s.b.rem } [(i, r)]
      let c := c.writeAt p l s.b.m (4 * e.1) (leBytes 4 m)
      if s.b.v = 0 then c else c.writeAt p l s.b.v (4 * e.1) (leBytes 4 v)
  threadAll put c ((upFrom o out.length).zip out)

/-! ### Update programs (R318-R320) -/

/-- A scalar-format instruction of an update program as a command of tile t. -/
def SIns.args (i : SIns) (t : PTile) : SArgs :=
  { tile := t, guard := Fin.ofNat 8 i.guard.toNat, neg := i.neg, d := Fin.ofNat 32 i.d.toNat, a := Fin.ofNat 32 i.a.toNat
    b := Fin.ofNat 32 i.b.toNat, imm := i.imm, wide := i.wide }

/-- A tensor-format instruction of an update program as a command of tile t. -/
def TIns.args (i : TIns) (t : PTile) : TArgs :=
  { tile := t, guard := Fin.ofNat 8 i.guard.toNat, neg := i.neg, td := Fin.ofNat 16 i.td.toNat, ta := Fin.ofNat 16 i.ta.toNat
    tb := Fin.ofNat 16 i.tb.toNat, tc := Fin.ofNat 16 i.tc.toNat, k := Fin.ofNat 16 i.k.toNat, mods := i.mods, wide := i.wide }

/-- The meaning of a scalar-format opcode that an update program may use. -/
def engineS (op : SOp) : SArgs → State → Host.Outcome State Fault Refusal :=
  match op with
  | .NOP => execNop | .ADD => execAdd | .SUB => execSub | .MUL => execMul | .DIVU => execDivu | .REMU => execRemu
  | .AND => execAnd | .OR => execOr | .XOR => execXor | .SHL => execShl | .SHR => execShr | .SAR => execSar
  | .MINS => execMins | .MAXS => execMaxs | .TADDR => execTaddr | .SYSV => execSysv | .CMPEQ => execCmpeq
  | .CMPNE => execCmpne | .CMPLT => execCmplt | .CMPLTU => execCmpltu | .CMPGE => execCmpge | .CMPGEU => execCmpgeu
  | .PAND => execPand | .POR => execPor | .PXOR => execPxor | .BR => execBr | .BRI => execBri | .CALL => execCall
  | .HALT => execHalt | .LD1 => execLd1 | .LD2 => execLd2 | .LD4 => execLd4 | .LD8 => execLd8 | .ST1 => execSt1
  | .ST2 => execSt2 | .ST4 => execSt4 | .ST8 => execSt8 | .LDT => execLdt | .STT => execStt
  | _ => fun _ s => .next s

/-- The meaning of a vector opcode (R318). -/
def engineT (op : TOp) : TArgs → State → Host.Outcome State Fault Refusal :=
  match op with
  | .VADD => execVadd | .VSUB => execVsub | .VMUL => execVmul | .VFMA => execVfma | .VMAX => execVmax | .VMIN => execVmin
  | .VCVT => execVcvt | .VSCALE => execVscale | .VRSUM => execVrsum | .VRMAX => execVrmax | .VNORMSQ => execVnormsq
  | .VEXP => execVexp | .VRECIP => execVrecip | .VRSQRT => execVrsqrt | .VSOFTMAX => execVsoftmax
  | _ => fun _ s => .next s

/-- Bytes of the engine's buffer (R319). -/
def engineBytes : Nat := 65536

/-- Bytes that a load or store of an update program moves (0: none). -/
def SOp.accessBytes : SOp → Nat
  | .LD1 | .ST1 => 1
  | .LD2 | .ST2 => 2
  | .LD4 | .ST4 => 4
  | .LD8 | .ST8 => 8
  | .LDT | .STT => 32
  | _ => 0

/-- Whether an instruction stays in the buffer: its addresses lie in space 0x0 below 64 KiB (R318, R319). -/
def engineInside (t : Tile) : Ins → Bool
  | .s i =>
    let n := i.op.accessBytes
    let a := (t.gr i.a.toNat + (match i.wide with | some w => w | none => i.imm.signExtend 64)).toNat
    n == 0 || decide (a + n ≤ engineBytes)
  | .t i =>
    let u := i.op.uses
    let inside := fun (used : Bool) (n : Nat) => let d := t.desc n
      !used || bits d.addr 63 60 != 0 || decide (bits d.addr 59 0 + max d.span 1 ≤ engineBytes)
    inside u.td i.td.toNat && inside u.ta i.ta.toNat && inside u.tb i.tb.toNat && inside u.tc i.tc.toNat

/-- The device as the engine's program sees it: the issuing tile's sequencer at the program's start, with the buffer in the first
64 KiB of space 0x0, and nothing that holds issue. DEDUCED (assumption 44). -/
def Core.engineView (c : Core) (t l p : Nat) (g : SMap Word) : Core :=
  let c := c.setPart p { c.part p with prog := some { item := 0, tiles := [l], started := true } }
  let c := c.setTile t { run := 1, g := g }
  let c := (c.wf Regs.PART_STATE_STATE p pACTIVE).setBankState t 0 bkON
  let c := c.wr Regs.EVT_SKEW_STATUS 0 0
  { c with fwHold := false, lost := false, gated := 0, bankSwaps := [], tileSwaps := [], wipes := [], ops := [] }

/-- One instruction of an update program, in the engine's view of the device. -/
def Core.engineStep (c : Core) (t : PTile) (ws : List Word) : Core :=
  let x := c.tile t.val
  match ws[x.pc / 8]? with
  | none => c.programFault t.val 5 St.BOUNDS 0
  | some w => match decodeDioth w ((ws[x.pc / 8 + 1]?).getD 0) with
    | .illegal r _ => c.programFault t.val r St.ILLEGAL 0
    | .ins i _ =>
      let guard := match i with
        | .s j => x.guardTrue j.guard.toNat j.neg
        | .t j => x.guardTrue j.guard.toNat j.neg
      if guard && !engineInside x i then c.programFault t.val 5 St.BOUNDS 0
      else
        let s : State := { core := c, perm := {}, pending := [] }
        let out := match i with
          | .s j => engineS j.op (SIns.args j t) s
          | .t j => engineT j.op (TIns.args j t) s
        match out with
        | .next s' => threadAll (fun c (o : AOp) => c.complete o.id) s'.core s'.core.ops
        | _ => c

/-- Run an update program; the fuel is R320's 65,536 instructions. The status: 0 at HALT, TIMEOUT when the fuel ends, else the
fault's. DEDUCED (assumption 44). -/
def Core.engineRun (t : PTile) (ws : List Word) : Nat → Core → Nat × Core
  | 0, c => (if (c.tile t.val).run = 3 then 0 else St.TIMEOUT, c)
  | n + 1, c =>
    let run := (c.tile t.val).run
    if run = 3 then (0, c)
    else if run = 2 then (c.rf Regs.TILE_FAULT_INFO_STATUS t.val, c)
    else Core.engineRun t ws n (c.engineStep t ws)

/-- Run one chunk of an item: its elements in the buffer, the program, and what the buffer then holds: x′, m and v (R319). -/
def Core.engineChunk (c : Core) (t : PTile) (l p : Nat) (ws : List Word) (g : SMap Word) (gh xs ms vs : List Nat) :
    Nat × List (Nat × Nat × Nat) × Core :=
  let key := fun (o : Nat) => bankKey t.val (c.physBank t.val 0) o
  let fill := fun (m : SMap Byte) (e : Nat × List Nat) =>
    threadAll (fun (m : SMap Byte) (b : Nat × Byte) => m.put zeroByte (key b.1) b.2) m
      ((upFrom e.1 (4 * e.2.length)).zip (e.2.flatMap (leBytes 4)))
  let mine := fun (k : Nat) => decide (key 0 ≤ k) && decide (k < key 0 + engineBytes)
  let buf := threadAll fill (c.scratch.keepIf (fun k => !mine k)) [(0, gh), (0x4000, xs), (0x8000, ms), (0xC000, vs)]
  let view := { c with scratch := buf }.engineView t.val l p g
  let (st, e) := Core.engineRun t ws 65536 view
  let rd := fun (o k : Nat) => leNat ((List.range 4).map (fun j => e.scratch.get zeroByte (key (o + 4 * k + j))))
  let out := (List.range gh.length).map (fun k => (rd 0x4000 k, rd 0x8000 k, rd 0xC000 k))
  let kept := c.scratch.filter (fun b => mine b.1)
  let back := threadAll (fun (m : SMap Byte) (b : Nat × Byte) => m.put zeroByte b.1 b.2) (e.scratch.keepIf (fun k => !mine k)) kept
  (st, out, { c with scratch := back, free := e.free })

/-- What an apply pass has done to an item: the device, the status, and the sums of the ratio watch. -/
structure PassRes where
  c : Core
  st : Nat := 0
  sx : Nat := 0
  sd : Nat := 0
  kept : Nat := 0
  /-- elements applied -/
  done : Nat := 0

/-- The chunks of an update program's item, in increasing element order, until one fails (R319, R320). -/
def Core.userPass (c : Core) (p : Nat) (i : StepItem) (s : Shard) (k : Coef) (steps : Nat) : PassRes :=
  match c.phys i.ltile with
  | none => { c := c, st := St.PARITY }
  | some t =>
    let ws := c.updWords p (Desc.ofBits (BitVec.ofNat 256 i.tc))
    let tt : PTile := Fin.ofNat 272 t
    let xs := (s.w.zip s.r).map (fun e => add32 (widen .fp16 e.1) (widen .fp16 e.2))
    let regs := fun (n : Nat) =>
      let vals := [n, k.etaL, steps, c.stepOf p] ++ s.b.user
      threadAll (fun (m : SMap Word) (e : Nat × Nat) => m.put (fun _ => 0) e.1 (BitVec.ofNat 64 e.2)) [] ((upFrom 1 8).zip vals)
    let chunk := fun (a : PassRes) (j : Nat) =>
      if a.st ≠ 0 then a
      else
        let part := fun (v : List Nat) => (v.drop (4096 * j)).take 4096
        let x0 := part xs
        let (st, out, c') := a.c.engineChunk tt i.ltile p ws (regs x0.length) ((part s.g).map k.ghat) x0 (part s.m) (part s.v)
        if st ≠ 0 then { a with c := c', st := st }
        else
          let r := applied ((x0.zip out).map (fun e => (e.1, e.2.1, e.2.2.1, if s.b.v = 0 then 0 else e.2.2.2)))
          { c := c'.putShard p i.ltile s (4096 * j) r.out, sx := add32 a.sx r.sx, sd := add32 a.sd r.sd, kept := a.kept + r.kept
            done := a.done + x0.length }
    (List.range (ceilDiv s.n 4096)).foldl chunk { c := c }

/-- The apply pass of a held item (R303). -/
def Core.applyPass (c : Core) (p : Nat) (i : StepItem) : PassRes :=
  let s := c.shard p i
  let q := (c.part p).step
  let lay := c.layerNow p i.layer
  let k := lay.coef q.eta q.cf (c.lossE p)
  if i.user then c.userPass p i s k lay.steps
  else
    let es := (s.g.zip (s.w.zip (s.r.zip (s.m.zip s.v)))).map (fun e => (e.1, e.2.1, e.2.2.1, e.2.2.2.1, e.2.2.2.2))
    let a := k.apply lay.trMax es
    { c := c.putShard p i.ltile s 0 a.out, sx := a.sx, sd := a.sd, kept := a.kept, done := s.n }

/-- The item an engine applies next: its oldest open one in a committed step (R303). -/
def Core.nextApply (c : Core) (p op : Nat) : Option StepItem :=
  let s := (c.part p).step
  match s.items.find? (fun i => i.op == op) with
  | some i =>
    if s.committed && i.open_ && i.table.isNone &&
      (s.items.find? (fun j => j.eng == i.eng && j.open_ && j.table.isNone)).any (fun j => j.op == op) then some i else none
  | none => none

/-- The apply pass of item `op` has ended with a status: its values stand and it ends (R303, R315, R320). -/
def endPass (p : Nat) (i : StepItem) (r : PassRes) : Core :=
  let c' := r.c.updStepItem p i.op (fun i => { i with sx := r.sx, sd := r.sd, kept := r.kept })
  let c' := c'.count Regs.UPD_ENG_ELEMS_COUNT i.eng r.done
  let c' := c'.count Regs.UPD_ENG_NF_ELEMS_COUNT i.eng r.kept
  let c' := c'.endStepItem p { i with kept := r.kept } r.st
  if r.st ≠ 0 then c'.updateIncomplete p r.st else c'

/-! ### Close and decision (R298-R302) -/

/-- Whether a tile of a program is closed (R298). A tile that has halted stays closed. DEDUCED (assumption 43). -/
def Core.tileClosed (c : Core) (p l : Nat) : Bool :=
  match c.phys l with
  | none => true
  | some t =>
    let x := c.tile t
    let upd := (c.part p).step.items.filter (·.open_)
    x.run == 3 ||
    match x.stall with
    | some .halt => true
    | some (.barrier false) => (c.part p).phase == 2
    | some (.tokens mask _ _) => upd.any (fun i => match c.op? i.op with
        | some o => o.ltile == l && bitOf mask o.tok
        | none => false)
    | _ => false

/-- Whether the step of a partition can close: it holds an update item or its tiles wait at the step-boundary barrier, and every
tile is closed. DEDUCED (assumption 43). -/
def Core.canClose (c : Core) (p : Nat) : Bool :=
  match (c.part p).prog with
  | none => false
  | some pr =>
    pr.started && !pr.stopping && !(c.part p).step.closed && (!(c.part p).step.items.isEmpty || (c.part p).boundaryWait) &&
    pr.tiles.all (c.tileClosed p)

/-- L² and NZ of every used slot, in increasing slots; the items of a slot in the order of their ta address, issuing tile and
issue (R299). -/
def slotSums (items : List StepItem) : List SlotSum :=
  let addr := fun (i : StepItem) => (Desc.ofBits (BitVec.ofNat 256 i.ta)).addr
  let le := fun (a b : StepItem) => decide (addr a < addr b) || (addr a == addr b && decide (a.ltile ≤ b.ltile))
  let sorted := items.mergeSort le
  let slots := (List.range 1024).filter (fun l => items.any (fun i => i.layer == l))
  slots.map (fun l =>
    let mine := sorted.filter (fun i => i.layer == l)
    { slot := l, l2 := fold32 (mine.map (·.s)), nz := (mine.map (·.nz)).foldl (· + ·) 0 })

/-- The decision from the agreed values (R300-R303): the step is committed or skipped. On a commit rows start to be applied (R389);
on a skip every held item ends (R302) and pending rows are freed (R388). -/
def Core.stepDecide (c : Core) (p : Nat) (flag : Bool) (sums : List SlotSum) : Core :=
  let e := c.lead p
  let lossE := c.lossE p
  let u := sums.map (fun s => mul32 s.l2 (pow32 (-(2 * (lossE + (c.gmulNow p s.slot : Int))))))
  let g := sqrt32 (fold32 u)
  let clip := (c.part p).step.clip
  let cf := if gt32 clip 0 && gt32 g clip then div32 clip g else one32
  let overflow := sums.any (fun s => decodeF .fp32 s.l2 == .inf false)
  let skip := flag || overflow
  let c := c.updStep p (fun s =>
    { s with decided := true, decideTick := c.tick, committed := !skip, agreed := sums, g := g, cf := cf, aflag := flag })
  let c := c.wf Regs.UPD_STEP_STATUS_DECIDED e 1
  let c := c.wr Regs.UPD_GNORM e (g + cf * 2 ^ 32)
  if skip then
    let held := (c.part p).step.items.filter (·.open_)
    (threadAll (fun c i => c.endStepItem p i St.STEP_SKIPPED) c held).dropRows p false
  else
    let c := if cf ≠ one32 then c.count Regs.UPD_CLIPPED_STEPS_COUNT e else c
    c.runRows p

/-- The close of a step (R298): the local flag, NUM_STATUS.NF cleared, the slot sums and η. A device that has no agreement group
decides at once (R299). -/
def Core.stepClose (c : Core) (p : Nat) : Core :=
  let e := c.lead p
  let s := (c.part p).step
  let mapped := (c.ltiles p).filterMap c.phys
  let flag := s.nf || s.items.any (·.nf) || mapped.any (fun t => c.flag Regs.TILE_NUM_STATUS_NF t)
  let c := threadAll (fun c t => c.wf Regs.TILE_NUM_STATUS_NF t 0) c mapped
  let eta := c.eta p
  let sums := slotSums s.items
  let k := (c.part p).cfg
  let c := c.updStep p (fun s =>
    { s with
      closed := true, closeTick := c.tick, flag := flag, slots := sums, eta := eta, clip := k.clip, grow := k.grow, under := k.under, agree := k.agree })
  let c := (c.wf Regs.UPD_STEP_STATUS_CLOSED e 1).wr Regs.UPD_SCHED_RATE e eta
  match k.agree with
  | none => c.stepDecide p flag sums
  | some _ => c

/-! ### The boundary (R305, R321, R322) -/

/-- Set E of the loss-scale state. DEDUCED (assumption 83). -/
def Core.setE (c : Core) (p : Nat) (e : Int) : Core := c.wf Regs.UPD_LS_STATE_E (c.lead p) (toTwos 8 e)

/-- The watches and the record of a used slot at a committed boundary (R305, R321, R322). DEDUCED (assumption 83). -/
def Core.slotBoundary (c : Core) (p : Nat) (q : StepSt) (s : SlotSum) : Core :=
  let r := c.layer p s.slot
  let items := q.items.filter (fun i => i.layer == s.slot)
  let c := c.putLayer p s.slot 56 4 ((r.steps + 1) % 2 ^ 32)
  let c := c.putLayer p s.slot 36 4 (mul32 r.p1 r.b1)
  let c := c.putLayer p s.slot 40 4 (mul32 r.p2 r.b2)
  let ze := satAt 64 (r.zeroElems + (items.map (·.z)).foldl (· + ·) 0)
  let c := c.putLayer p s.slot 48 8 ze
  let run := if s.nz = 0 then min (r.zeroRun + 1) (2 ^ 32 - 1) else 0
  let hit := q.under != 0 && decide (q.under ≤ run)
  let c := c.putLayer p s.slot 44 4 (if hit then 0 else run)
  let gm := if hit && r.auto then min (r.gmul + 4) r.cap else r.gmul
  let c := if hit then
      let c := if r.auto then (c.putLayer p s.slot 1 1 gm).putLayer p s.slot 60 2 (roundNum .fp16 .nearest (.ofQ (Q.pow2 gm))) else c
      let c := c.count Regs.UPD_UNDERFLOWS_COUNT (c.lead p)
      c.stepEvt p Cls.info 0x0605 (s.slot + gm * 2 ^ 10 + b2n (r.auto && decide (r.gmul < gm)) * 2 ^ 15 + b2n (decide (r.cap ≤ r.gmul)) * 2 ^ 16) ze
    else c
  let addr := fun (i : StepItem) => (Desc.ofBits (BitVec.ofNat 256 i.ta)).addr
  let le := fun (a b : StepItem) => decide (addr a < addr b) || (addr a == addr b && decide (a.ltile ≤ b.ltile))
  let sorted := items.mergeSort le
  let sx := fold32 (sorted.map (·.sx))
  let sd := fold32 (sorted.map (·.sd))
  if zero32 sx then c
  else
    let rho := div32 (sqrt32 sd) (sqrt32 sx)
    let low := !zero32 r.rhoLo && gt32 r.rhoLo rho
    let high := !zero32 r.rhoHi && gt32 rho r.rhoHi
    if low || high then
      (c.count Regs.UPD_RATIO_EVENTS_COUNT (c.lead p)).stepEvt p Cls.info 0x0606 (s.slot + b2n high * 2 ^ 10 + rho * 2 ^ 32) (c.stepOf p - 1)
    else c

/-- Whether the boundary of a decided step is due: every held item has ended and the rows have drained (R303). DEDUCED (assumption 43). -/
def Core.canBoundary (c : Core) (p : Nat) : Bool :=
  let s := (c.part p).step
  s.decided && !s.items.any (·.open_) && (c.part p).pend.isEmpty

/-- The step boundary: the partition state moves in one action (R305), the barrier of R164 completes, a new step begins.
DEDUCED (assumption 83). -/
def Core.boundary (c : Core) (p : Nat) : Core :=
  let e := c.lead p
  let q := (c.part p).step
  let skipped := !q.committed
  let n := c.stepOf p
  let c := c.wr Regs.UPD_STEP e (n + 1)
  let c := c.wr Regs.UPD_LS_HIST e (c.rd Regs.UPD_LS_HIST e * 2 % 2 ^ 64 + b2n skipped)
  let lossE := c.lossE p
  let lim := fun (c : Core) (up : Bool) => c.stepEvt p Cls.info 0x0602 (toTwos 8 lossE + b2n up * 2 ^ 8) 0
  let c := if skipped then
      let c := c.wf Regs.UPD_LS_STATE_CLEAN e 0
      if -8 < lossE then c.setE p (lossE - 1) else lim c false
    else
      let clean := min (c.rf Regs.UPD_LS_STATE_CLEAN e + 1) (2 ^ 32 - 1)
      let grow := decide (0 < q.grow) && decide (q.grow ≤ clean)
      let c := c.wf Regs.UPD_LS_STATE_CLEAN e (if grow then 0 else clean)
      let c := if grow then (if lossE < 24 then c.setE p (lossE + 1) else lim c true) else c
      let c := c.wr Regs.UPD_SCHED_N e (c.rd Regs.UPD_SCHED_N e + 1)
      threadAll (fun c s => c.slotBoundary p q s) c q.agreed
  let left := c.rf Regs.UPD_LS_STATE_RECOVERY_LEFT e
  let c := if 0 < left then
      let c := c.wf Regs.UPD_LS_STATE_RECOVERY_LEFT e (left - 1)
      if left = 1 then c.stepEvt p Cls.info 0x0604 n 0 else c
    else c
  let infs := q.agreed.filter (fun s => decodeF .fp32 s.l2 == .inf false)
  let c := if skipped then
      (c.count Regs.UPD_STEPS_SKIPPED_COUNT e).stepEvt p Cls.info 0x0601 n
        (b2n q.aflag + b2n (!infs.isEmpty) * 2 + ((infs.head?).map (·.slot)).getD 0 * 4)
    else (c.count Regs.UPD_STEPS_COMMITTED_COUNT e).stepEvt p Cls.info 0x0600 n (q.g + q.cf * 2 ^ 32)
  let c := if 0 < q.rowsFailed ∧ !q.rowsPosted then c.stepEvt p Cls.item 0x0811 q.rowsFailed n else c
  let c := if q.noiseG = 0 then c
    else ((c.wr Regs.COL_NOISE p (q.noise.1 + q.noise.2 * 2 ^ 32)).wr Regs.COL_NOISE_STEP p n).wr Regs.COL_NOISE_INFO p
      (q.noiseG + (c.part p).accum * 2 ^ 16)
  let c := c.setPart p { c.part p with step := {}, accum := c.rf Regs.COL_ACCUM_COUNT p, cfg := c.takeCfg p, stepTaken := true }
  let c := ((c.wf Regs.UPD_STEP_STATUS_CLOSED e 0).wf Regs.UPD_STEP_STATUS_DECIDED e 0).wf Regs.UPD_STEP_STATUS_LAST_SKIPPED e (b2n skipped)
  if (c.part p).boundaryWait then c.tryBarrier p true else c

/-! ### LSCALE and EXPORT (R307, R323) -/

/-- The operation of LSCALE: each element times 2^E (R226, R307). -/
def Core.opLscale (c : Core) (x : TArgs) (l p : Nat) : OpRes :=
  let t := x.tile.val
  let td := (c.tile t).desc x.td.val
  let ta := (c.tile t).desc x.ta.val
  let ops : List Operand := [{ d := td, dest := true, spaces := spOwn }, { d := ta, spaces := spOwn }]
  let st := c.issueChecks p l ops (td.isFP32 && ta.isFP32 && td.sameExt ta) false
  if st ≠ 0 then .fail c st
  else if td.empty then { c := c }
  else
    let (fs, c) := c.memFaults p l ops x.env
    if fs ≠ 0 then .fail c fs
    else
      let es := c.elems p l ta
      let out := es.map (fun e => roundNum .fp32 .nearest (mulNum (decodeF .fp32 e) (.ofQ (Q.pow2 (c.lossE p)))))
      { c := (c.putTensor p l td out).noteNF t (nonFinites .fp32 es) (nonFinites .fp32 out) }

/-- Pad a byte string to a multiple of 64 (R323). -/
def pad64 (bs : List Byte) : List Byte := bs ++ List.replicate (alignUp bs.length 64 - bs.length) 0

/-- The record of EXPORT (R323). DEDUCED (assumption 46). -/
def Core.exportRecord (c : Core) (p l slot : Nat) (ta : Desc) (b : StateBlock) : List Byte :=
  let e := c.lead p
  let r := c.layer p slot
  let n := shardN ta
  let w := c.elems p l ta
  let rm := c.elems p l { ta with addr := b.rem }
  let head := leBytes 2 1 ++ leBytes 1 r.opt ++
    leBytes 1 (b2n b.sparse + b2n b.ksel * 2 + c.rf Regs.UPD_LS_STATE_VALID e * 4) ++ leBytes 4 n ++ leBytes 8 (c.stepOf p) ++
    leBytes 1 (c.rf Regs.UPD_LS_STATE_E e) ++ leBytes 1 r.gmul ++ leBytes 2 (c.rf Regs.UPD_LS_STATE_RECOVERY_LEFT e) ++
    leBytes 4 (c.rf Regs.UPD_LS_STATE_CLEAN e) ++ leBytes 8 (c.rd Regs.UPD_LS_HIST e) ++ leBytes 4 r.steps ++ leBytes 4 r.p1 ++
    leBytes 4 r.p2 ++ leBytes 4 r.zeroRun ++ leBytes 4 slot ++ leBytes 8 (c.rd Regs.UPD_SCHED_N e) ++ leBytes 4 0
  head ++ pad64 (w.flatMap (leBytes 2)) ++ pad64 (rm.flatMap (leBytes 2)) ++ pad64 (c.readAt p l b.m 0 (4 * n)) ++
    (if r.opt = 0 ∨ b.v = 0 then [] else pad64 (c.readAt p l b.v 0 (4 * n))) ++
    (if b.sparse then c.readAt p l b.pos 0 (n / 4 * 2) else [])

/-- The operation of EXPORT. -/
def Core.opExport (c : Core) (x : TArgs) (l p : Nat) : OpRes :=
  let t := c.tile x.tile.val
  let td := t.desc x.td.val
  let ta := t.desc x.ta.val
  let tb := t.desc x.tb.val
  let slot := TArgs.layer x
  let ops : List Operand :=
    [{ d := td, dest := true, spaces := 0b100 }, { d := ta, spaces := spShard }, { d := tb, spaces := spShard }]
  let shape := td.raw16 && td.e1 == 1 && td.e2 == 1 && td.e3 == 1 && ta.isFP16 && tb.raw16 && tb.e0 == 64 && tb.e1 == 1 && tb.e2 == 1 && tb.e3 == 1
  let b := parseBlock (c.readAt p l tb.addr 0 128)
  let inUmbra := fun (a : Nat) => bits a 63 60 == 6
  let st := c.issueChecks p l ops shape false
  if st ≠ 0 then .fail (c.licensedEvent p ops st) st
  else if inUmbra ta.addr || inUmbra tb.addr || inUmbra b.rem || inUmbra b.m || inUmbra b.v || inUmbra b.pos then .fail c St.PROTECTION
  else
    let n := shardN ta
    let r := c.layer p slot
    if tb.addr % 128 ≠ 0 ∨ !c.viewOk p (c.layerAt p 0) 65536 then .fail c St.BOUNDS
    else if b.reserved || r.reserved || (if b.sparse then b.pos == 0 else b.pos != 0) then .fail c St.LENGTH
    else if !c.shardAddr p b.rem ta.span || !c.shardAddr p b.m (4 * n) || (b.v != 0 && !c.shardAddr p b.v (4 * n)) ||
        (b.sparse && !c.shardAddr p b.pos (ceilDiv n 4 * 2)) then .fail c St.BOUNDS
    else
      let rec_ := c.exportRecord p l slot ta b
      if 2 * td.e0 < rec_.length then .fail c St.LENGTH
      else
        let (fs, c) := c.memFaults p l ops x.env
        if fs ≠ 0 then .fail c fs
        else { c := c.writeAt p l td.addr 0 rec_ }

/-! ### Commands -/

def execUpdate (x : TArgs) (s : State) : Host.Outcome State Fault Refusal :=
  s.on (fun c => c.tensorIns x .UPDATE (fun c l p => c.opUpdate x false l p))
def execUpdprog (x : TArgs) (s : State) : Host.Outcome State Fault Refusal :=
  s.on (fun c => c.tensorIns x .UPDPROG (fun c l p => c.opUpdate x true l p))
def execLscale (x : TArgs) (s : State) : Host.Outcome State Fault Refusal :=
  s.on (fun c => c.tensorIns x .LSCALE (fun c l p => c.opLscale x l p))
def execExportOp (x : TArgs) (s : State) : Host.Outcome State Fault Refusal :=
  s.on (fun c => c.tensorIns x .EXPORT (fun c l p => c.opExport x l p))
def execRowupd (x : TArgs) (s : State) : Host.Outcome State Fault Refusal :=
  s.on (fun c => c.tensorIns x .ROWUPD (fun c l p => c.opRowupd x l p))

/-- UPDPROG_CHUNK_TIMEOUT: a chunk of update item `op` has run more than 65,536 instructions, so the item ends with TIMEOUT; the
chunks completed earlier keep their writes (R320). -/
def execUpdprogChunkTimeout (p : PartId) (op : Nat) (s : State) : Host.Outcome State Fault Refusal :=
  s.on (fun c => match c.nextApply p.val op with
    | some i => let r := c.applyPass p.val i; if r.st = St.TIMEOUT then endPass p.val i r else c
    | none => c)

/-- UPDATE_APPLY_DONE: the apply pass of update item `op`, the oldest of its engine, has finished writing (R303); a pass whose
program faulted ends the item with the fault's status (R320). `lost` tells that a read of the pass was exhausted: any part of the shard
may have been written, and the sums of the ratio watch are open (R60, R324). -/
def execUpdateApplyDone (p : PartId) (op : Nat) (lost : Bool) (s : State) : Host.Outcome State Fault Refusal :=
  s.on (fun c => match c.nextApply p.val op with
    | some i =>
      if lost then
        let (sx, c') := (c.cutPass p.val i).fresh
        let (sd, c') := c'.fresh
        endPass p.val i { c := c', st := St.PARITY, sx := sx.toNat % 2 ^ 32, sd := sd.toNat % 2 ^ 32 }
      else let r := c.applyPass p.val i; if r.st = St.TIMEOUT then c else endPass p.val i r
    | none => c)

/-- STEP_BOUNDARY: every held item has ended and the rows have drained (R305). -/
def execStepBoundary (p : PartId) (s : State) : Host.Outcome State Fault Refusal :=
  s.on (fun c => if c.canBoundary p.val then c.boundary p.val else c)

/-- STEP_AGREEMENT_TIMEOUT: the agreement group has given no values within AGREE_TIMEOUT of the close (R304). -/
def execStepAgreementTimeout (p : PartId) (s : State) : Host.Outcome State Fault Refusal :=
  s.on (fun c =>
    let q := (c.part p.val).step
    if q.closed && q.agree.isSome && !q.decided && decide (q.closeTick + max 1 (c.part p.val).cfg.timeout * Config.ticksPerMs ≤ c.tick) then
      let c := c.endHeld p.val St.TIMEOUT
      let c := c.wf Regs.UPD_STEP_STATUS_INCOMPLETE (c.lead p.val) 1
      c.partFatal p.val (Src.updEngine (c.lead p.val)) 0x0609 (c.stepOf p.val) 0 St.TIMEOUT
    else c)

end Sys2Proof.Machine
end

