-- ==== Sys2Proof/Machine/CollBase.lean ====
section
/-! DEFINITION. CollBase.lean: groups, the collective header, sending along the ring (R468-R480, R507), the shards and the
arithmetic of the reduction (R224, R481-R484). -/

namespace Sys2Proof.Machine

/-! ### Kinds (R479) -/

def kRSCAT : Nat := 0
def kAGATH : Nat := 1
def kA2A : Nat := 2
def kRING : Nat := 3
def kAUDIT : Nat := 4
def kAGREE : Nat := 5
def kCKPT : Nat := 6
def kPROBE : Nat := 7

/-! ### Groups (R470-R473) -/

/-- A formed group as its registers and its member array show it. -/
structure Ring where
  part : Nat
  num : Nat
  tag : Nat
  pos : Nat
  n : Nat
  rvc : Nat
  gvc : Nat
  chunk : Nat
  digest : Nat
  members : List (Nat × Nat × Nat)
  deriving DecidableEq, Repr

/-- Group g of partition p, when it is formed. -/
def Core.ring (c : Core) (p g : Nat) : Option Ring :=
  let i := g + 16 * p
  if c.flag Regs.COL_GRP_INFO_FORMED i then
    some { part := p, num := g, tag := c.rf Regs.COL_GRP_TAG_TAG i, pos := c.rf Regs.COL_GRP_INFO_POSITION i
           n := c.rf Regs.COL_GRP_INFO_COUNT i, rvc := c.rf Regs.COL_GRP_INFO_RVC i, gvc := c.rf Regs.COL_GRP_INFO_GVC i
           chunk := c.rf Regs.COL_GRP_TAG_CHUNK_ELEMS i, digest := c.rf Regs.COL_GRP_DIGEST_DIGEST i
           members := c.colMembers.get (fun _ => []) i }
  else none

/-- The formed group of a partition that has a tag. -/
def Core.ringOfTag (c : Core) (p tag : Nat) : Option Ring :=
  ((List.range 16).filterMap (c.ring p)).find? (fun r => r.tag == tag)

/-- The queue pair to a position. -/
def Ring.qp (r : Ring) (pos : Nat) : Nat := ((r.members[pos]?).getD (0, 0, 0xFFFF)).2.2
def Ring.next (r : Ring) : Nat := (r.pos + 1) % max r.n 1
def Ring.prev (r : Ring) : Nat := (r.pos + r.n - 1) % max r.n 1
/-- The VC of a kind (R474). -/
def Ring.vc (r : Ring) (kind : Nat) (dir : Bool) : Nat :=
  if kind = kAGATH then r.gvc else if kind = kA2A then (if dir then 8 else 7) else if kind = kCKPT then 10 else r.rvc

/-! ### The header (R479) -/

/-- The fields of a collective header. DESIGN CHOICE (assumption 29). -/
structure CollHdr where
  tag : Nat := 0
  kind : Nat
  compact : Bool := false
  nf : Bool := false
  attempt : Nat := 0
  tile : Nat := 0
  seq : Nat := 0
  e : Nat := 0
  shard : Nat := 0
  hops : Nat := 0
  chunk : Nat := 0
  csum : Int := 0
  err : Int := 0
  ssq : Nat := 0
  status : Nat := 0
  digest : Nat := 0
  deriving DecidableEq, Repr

/-- The 64 bytes of a header. DESIGN CHOICE (assumption 29). DEDUCED (assumption 30). -/
def CollHdr.bytes (h : CollHdr) : List Byte :=
  leBytes 2 h.tag ++ leBytes 1 (h.kind % 16 + 16 * b2n h.compact + 32 * b2n h.nf + 64 * h.attempt) ++ leBytes 1 h.tile ++
  leBytes 4 h.seq ++ leBytes 8 h.e ++ leBytes 2 h.shard ++ leBytes 2 h.hops ++ leBytes 4 h.chunk ++
  leBytes 12 (toTwos 96 h.csum) ++ leBytes 12 (toTwos 96 h.err) ++ leBytes 4 h.ssq ++ leBytes 2 h.status ++ leBytes 2 0 ++ leBytes 8 h.digest

/-- A header from its bytes. DEDUCED (assumption 30). -/
def CollHdr.parse (bs : List Byte) : CollHdr :=
  let f := fun (lo n : Nat) => leNat ((bs.drop lo).take n)
  { tag := f 0 2, kind := f 2 1 % 16, compact := bitOf (f 2 1) 4, nf := bitOf (f 2 1) 5, attempt := f 2 1 / 64, tile := f 3 1
    seq := f 4 4, e := f 8 8, shard := f 16 2 % 2 ^ 14, hops := f 18 2, chunk := f 20 4, csum := signed 96 (f 24 12)
    err := signed 96 (f 36 12), ssq := f 48 4, status := f 52 2, digest := f 56 8 }

/-! ### Collectives of this device -/

def Core.coll? (c : Core) (op : Nat) : Option Coll := c.colls.find? (fun k => k.op == op)
def Core.updColl (c : Core) (op : Nat) (f : Coll → Coll) : Core :=
  { c with colls := c.colls.map (fun k => if k.op = op then f k else k) }

/-- The header of a message of a collective. -/
def Coll.hdr (k : Coll) (r : Ring) : CollHdr :=
  { tag := r.tag, kind := k.kind, compact := k.compact, tile := k.ltile, seq := k.seq, e := k.e, digest := r.digest }

/-- INFO0 and INFO1 of CHECKSUM_MISMATCH (R509). -/
def Coll.info (k : Coll) (r : Ring) (attempt : Nat) : Nat := r.tag + k.ltile * 2 ^ 16 + attempt * 2 ^ 24 + k.seq * 2 ^ 32

/-- Send a message of a collective to a ring position (R474). A queue pair that cannot send ends the collective (R507). -/
def Core.sendColl (c : Core) (k : Coll) (qp vc pos opcode : Nat) (bytes : List Byte) : Core :=
  let c := c.updColl k.op (fun k => { k with lastTick := c.tick, sent := k.sent + b2n (opcode == 0x10) })
  let st := c.qpIssue k.part qp none
  if st ≠ 0 then { c with collEnds := c.collEnds ++ [(k.op, pos, st)] }
  else
    let c := if opcode = 0x10 then c.count Regs.COL_CHUNKS_SENT_COUNT k.part else c
    (c.touchQp qp).startMsg qp { msn := 0, kind := opcode, vc := vc, total := bytes.length, data := bytes, owner := .coll k.op pos }

/-- Send a message of a collective to a position of its ring. -/
def Core.sendRing (c : Core) (k : Coll) (r : Ring) (pos opcode : Nat) (bytes : List Byte) : Core :=
  c.sendColl k (r.qp pos) (r.vc k.kind k.compact) pos opcode bytes

/-- Send COLL_ABORT with a status to the neighbours other than `skip` (R476, R507). -/
def Core.sendAborts (c : Core) (k : Coll) (r : Ring) (st : Nat) (skip : Option Nat) : Core :=
  let tos := (if r.next = r.prev then [r.next] else [r.next, r.prev]).filter (fun x => x != r.pos && some x != skip)
  let h := { k.hdr r with shard := r.pos, status := st }
  threadAll (fun c x => c.sendRing k r x 0x13 h.bytes) c tos

/-- A collective ends: its operation may complete. -/
def Core.endColl (c : Core) (k : Coll) (st : Nat) : Core :=
  (c.updColl k.op (fun k => { k with ended := true, status := st })).finishOp k.op st

/-- A collective ends with a status and its neighbours learn it. -/
def Core.abortColl (c : Core) (k : Coll) (r : Ring) (st : Nat) (skip : Option Nat) : Core :=
  (c.endColl k st).sendAborts k r st skip

/-- Parked messages leave; the cells that they hold are freed (R477). -/
def Core.takeParked (c : Core) (hit : Parked → Bool) : Core × List Parked :=
  let mine := c.parked.filter hit
  let free := fun (c : Core) (m : Parked) => match m.hold with
    | some (u, vc, dev, n) => c.freeCells u vc dev n
    | none => c
  (threadAll free { c with parked := c.parked.filter (fun m => !hit m) } mine, mine)

/-- The collectives of a partition end with another action's status (R508). -/
def Core.dropColls (c : Core) (p : Nat) : Core :=
  let c := (c.takeParked (fun m => m.part == p)).1
  { c with
    colls := c.colls.filter (fun k => k.part != p)
    collSeq := c.collSeq.keepIf (fun k => k / 4096 != p)
    colMembers := c.colMembers.keepIf (fun k => k / 16 != p) }

/-! ### Shards (R224) and elements -/

/-- Elements per shard, first element and count of shard i. -/
def shardStart (e n i : Nat) : Nat := i * ceilDiv e n
def shardCount (e n i : Nat) : Nat := min (ceilDiv e n) (e - i * ceilDiv e n)

/-- First element within the shard and length of chunk j. -/
def chunkLen (count chunk j : Nat) : Nat := min chunk (count - j * chunk)
def chunkCount (count chunk : Nat) : Nat := ceilDiv count chunk

/-- Bits of elements [k, k + n) of a tensor in element order. -/
def Core.elemRange (c : Core) (p l : Nat) (d : Desc) (k n : Nat) : List Nat :=
  (upFrom k n).map (fun j => let i := d.nth j; c.elem p l d i.1 i.2.1 i.2.2.1 i.2.2.2)

/-- Write elements from the k-th on. -/
def Core.putRange (c : Core) (p l : Nat) (d : Desc) (k : Nat) (es : List Nat) : Core :=
  c.putElems p l d (((upFrom k es.length).map d.nth).zip es)

/-- The bytes of elements of a format. -/
def elemBytes (d : Desc) (es : List Nat) : List Byte := es.flatMap (leBytes d.esize)

/-- The elements of a payload with elements of n bytes. -/
def splitElems (n : Nat) (bs : List Byte) : List Nat := (List.range (bs.length / n)).map (fun i => leNat ((bs.drop (n * i)).take n))

def descOf (w : Nat) : Desc := Desc.ofBits (BitVec.ofNat 256 w)

/-! ### The arithmetic of the reduction (R482, R483) -/

/-- The value of finite bits in units of 2^-24; a non-finite element takes no part. -/
def fix24 (f : FFmt) (w : Nat) : Int :=
  match decodeF f w with
  | .fin neg q => let n : Int := (q.num * (2 ^ 24 : Nat)) / (q.den : Int); if neg then -n else n
  | _ => 0

/-- The format of a partial. -/
def partFmt (compact : Bool) : FFmt := if compact then .fp16 else .fp32

/-- The squared norm of a contribution as VNORMSQ forms it, over its finite elements. -/
def normSq (f : FFmt) (xs : List Nat) : Nat :=
  reduce64 add32 ((xs.map (fun w => if (decodeF f w).nonFinite then 0 else widen f w)).map (fun w => mul32 w w))

/-- A position adds its contribution to a chunk: the new partials and the header with CSUM, ERR, SSQ and NF (R482, R483). The
originator, who has no arriving partial, widens. -/
def addChunk (h : CollHdr) (old : Option (List Nat)) (xs : List Nat) : CollHdr × List Nat :=
  let f := partFmt h.compact
  let out := match old with
    | none => xs.map (fun x => roundNum f .nearest (decodeF .fp16 x))
    | some ps => (ps.zip xs).map (fun (e : Nat × Nat) => roundNum f .nearest (addNum .nearest (decodeF f e.1) (decodeF .fp16 e.2)))
  let errs : List Int := match old with
    | none => []
    | some ps => ((ps.zip xs).zip out).map (fun (e : (Nat × Nat) × Nat) =>
        if (decodeF f e.1.1).nonFinite || (decodeF .fp16 e.1.2).nonFinite || (decodeF f e.2).nonFinite then 0
        else fix24 f e.1.1 + fix24 .fp16 e.1.2 - fix24 f e.2)
  let sq := normSq .fp16 xs
  let nf := h.nf || xs.any (fun x => (decodeF .fp16 x).nonFinite) || out.any (fun x => (decodeF f x).nonFinite)
  ({ h with
     csum := h.csum + (xs.map (fix24 .fp16)).foldl (· + ·) 0
     err := h.err + errs.foldl (· + ·) 0
     ssq := if old.isNone then sq else add32 h.ssq sq
     nf := nf
     hops := h.hops + 1 }, out)

/-- The owner's check of a completed chunk (R484). -/
def chunkOk (h : CollHdr) (res : List Nat) : Bool :=
  h.nf || decide ((res.map (fix24 (partFmt h.compact))).foldl (· + ·) 0 + h.err = h.csum)

/-! ### GROUP_CMD (R470-R473) -/

/-- The checks of FORM, its status and the group it forms (R472). DEDUCED (assumption 28). -/
def Core.formGroup (c : Core) (p g : Nat) : Core :=
  let res := fun (c : Core) (st : Nat) => c.wf Regs.COL_GROUP_CMD_STATUS_RESULT p st
  let i := g + 16 * p
  let a := c.rf Regs.COL_GROUP_DESC_ADDR p
  let size := c.rf Regs.COL_HERD_CFG_SIZE
  if c.flag Regs.COL_GRP_INFO_FORMED i ∨ !c.flag Regs.COL_HERD_CFG_VALID ∨ bits a 63 60 ≠ 2 ∨ !c.boundsOk p a 0 64 then res c St.BOUNDS
  else
    let d := c.readAt p 0 a 0 64
    let f := fun (lo n : Nat) => leNat ((d.drop lo).take n)
    let n := f 2 2 % 2 ^ 15
    let ma := f 16 8
    let rvc := f 4 1 % 16
    let gvc := f 4 1 / 16
    let chunk := f 8 4
    let vcOk := fun (v : Nat) => decide (1 ≤ v) && decide (v ≤ 14)
    let fieldsOk := f 2 2 / 2 ^ 15 == 0 && f 5 3 == 0 && f 12 4 == 0 && f 24 40 == 0 && decide (1 ≤ n) && decide (n ≤ size) &&
      vcOk rvc && vcOk gvc && isPow2 chunk && decide (1024 ≤ chunk) && decide (chunk ≤ 262144)
    if !fieldsOk then res c St.LENGTH
    else if bits ma 63 60 ≠ 2 ∨ !c.boundsOk p ma 0 (8 * n) then res c St.BOUNDS
    else
      let mb := c.readAt p 0 ma 0 (8 * n)
      let es := (List.range n).map (fun j => leNat ((mb.drop (8 * j)).take 8))
      let mem := es.map (fun e => (bits e 13 0, bits e 29 16, bits e 47 32))
      let resOk := es.all (fun e => bits e 15 14 == 0 && bits e 31 30 == 0 && bits e 63 48 == 0)
      let rising := (mem.zip (mem.drop 1)).all (fun e => decide (e.1.2.1 < e.2.2.1))
      let inHerd := mem.all (fun e => decide (e.1 < size) && decide (e.2.1 < size))
      let tagFree := !(List.range 16).any (fun k => k != g && c.flag Regs.COL_GRP_INFO_FORMED (k + 16 * p) && c.rf Regs.COL_GRP_TAG_TAG (k + 16 * p) == f 0 2)
      match mem.findIdx? (fun e => e.2.1 == c.rf Regs.COL_HERD_CFG_ORDINAL) with
      | none => res c St.LENGTH
      | some pos =>
        let own := (mem[pos]?).getD (0, 0, 0)
        if !resOk || !rising || !inHerd || !tagFree || own.1 != c.rf Regs.COL_HERD_CFG_DEV_ID || own.2.2 != 0xFFFF then res c St.LENGTH
        else
          let near := fun (j : Nat) =>
            let m := (mem[j]?).getD (0, 0, 0xFFFF)
            n == 1 || (match c.qp? m.2.2 with
              | some q => q.part == p && q.state == qREADY && q.remoteDev == m.1
              | none => false)
          let units := [(pos + 1) % n, (pos + n - 1) % n].flatMap (fun j =>
            (((c.qp? ((mem[j]?).getD (0, 0, 0xFFFF)).2.2).map (·.paths)).getD []).map (fun a => unitOfPort a.1 a.2))
          if units.any (fun u => c.vcForeign p u rvc || c.vcForeign p u gvc) || !near ((pos + 1) % n) || !near ((pos + n - 1) % n) then
            res c St.PROTECTION
          else
            let c := c.wr Regs.COL_GRP_INFO i (pos + n * 2 ^ 16 + rvc * 2 ^ 32 + gvc * 2 ^ 36 + 2 ^ 63)
            let c := (c.wr Regs.COL_GRP_DIGEST i (crc64 (d.take 16 ++ mb))).wr Regs.COL_GRP_TAG i (f 0 2 + chunk * 2 ^ 32)
            res { c with colMembers := c.colMembers.put (fun _ => []) i mem } St.SUCCESS

/-- DISSOLVE (R473). -/
def Core.dissolveGroup (c : Core) (p g : Nat) : Core :=
  let i := g + 16 * p
  match c.ring p g with
  | none => c.wf Regs.COL_GROUP_CMD_STATUS_RESULT p St.BOUNDS
  | some r =>
    let mine := c.colls.filter (fun k => k.part == p && k.group == g && !k.ended && k.kind != kCKPT)
    let c := threadAll (fun c k => c.abortColl k r St.ABORTED none) c mine
    let c := (c.takeParked (fun m => m.part == p && (CollHdr.parse m.bytes).tag == r.tag)).1
    let c := { c with
      colls := c.colls.filter (fun k => !(k.part == p && k.group == g && k.kind != kCKPT))
      collSeq := c.collSeq.keepIf (fun k => k / 256 != 16 * p + g)
      colMembers := c.colMembers.put (fun _ => []) i [] }
    (((c.wr Regs.COL_GRP_INFO i 0).wr Regs.COL_GRP_DIGEST i 0).wr Regs.COL_GRP_TAG i 0).wf Regs.COL_GROUP_CMD_STATUS_RESULT p St.SUCCESS

end Sys2Proof.Machine
end

