-- ==== Sys2Proof/Machine/Coll.lean ====
section
/-! DEFINITION. Coll.lean: the collectives (R475-R508): reduce-scatter, all-gather, audit, expert all-to-all, sequence ring,
buddy checkpoint, step agreement, probes. -/

namespace Sys2Proof.Machine

/-- Attempts made at a shard and chunk. -/
def Coll.attempt (k : Coll) (shard chunk : Nat) : Nat :=
  match k.tries.find? (fun e => e.1 == shard && e.2.1 == chunk) with | some e => e.2.2 | none => 0
def Coll.setAttempt (k : Coll) (shard chunk n : Nat) : Coll :=
  { k with tries := (shard, chunk, n) :: k.tries.filter (fun e => !(e.1 == shard && e.2.1 == chunk)) }

/-- CHECKSUM_MISMATCH is posted and counted (R485, R493). -/
def Core.mismatch (c : Core) (k : Coll) (r : Ring) (attempt shard chunk : Nat) : Core :=
  (c.count Regs.COL_MISMATCHES_COUNT k.part).evt Cls.item (Src.dme (dmeOf k.ltile)) k.part 0x0B00 (k.info r attempt) (shard + chunk * 2 ^ 32)

/-! ### Reduce-scatter (R481-R486) -/

/-- The elements of ta in chunk j of shard i. -/
def Core.rsPart (c : Core) (k : Coll) (r : Ring) (i j : Nat) : List Nat :=
  let n := shardCount k.e r.n i
  c.elemRange k.part k.ltile (descOf k.ta) (shardStart k.e r.n i + j * r.chunk) (chunkLen n r.chunk j)

/-- An RSCAT ends when every shard has its outcome; its squared norms go to the step's statistics (R486, R489). -/
def Core.rsEnd (c : Core) (op : Nat) : Core :=
  match c.coll? op with
  | none => c
  | some k => match c.ring k.part k.group with
    | none => c
    | some r =>
      if k.ended || k.outcomes.length < r.n then c
      else
        let by_ := (List.range (chunkCount (shardCount k.e r.n r.pos) r.chunk)).filterMap (fun j => k.squares.find? (fun s => s.1 == j))
        let x := c.part k.part
        let tot := (k.group, k.ltile, k.seq, fold32 (by_.map (·.2.1)), fold32 (by_.map (·.2.2)))
        let c := if by_.isEmpty then c else c.setPart k.part { x with noise := x.noise ++ [tot] }
        c.endColl k (if k.outcomes.any (fun o => o.2 != 0) then St.CHECKSUM else 0)

/-- The own shard has its outcome: every chunk passed or failed (R486). -/
def Core.rsOwned (c : Core) (op : Nat) : Core :=
  match c.coll? op with
  | none => c
  | some k => match c.ring k.part k.group with
    | none => c
    | some r =>
      if k.outcomes.any (fun o => o.1 == r.pos) || k.owned.length < chunkCount (shardCount k.e r.n r.pos) r.chunk then c
      else
        let st := if k.owned.any (fun o => o.2 != 0) then St.CHECKSUM else 0
        let c := c.updColl op (fun k => { k with outcomes := (r.pos, st) :: k.outcomes })
        let h := { k.hdr r with shard := r.pos, status := st }
        (if r.n = 1 then c else c.sendRing k r r.next 0x11 h.bytes).rsEnd op

/-- The owner has a completed chunk: it writes td and checks (R484, R485). -/
def Core.rsOwner (c : Core) (k : Coll) (r : Ring) (h : CollHdr) (j : Nat) (out : List Nat) : Core :=
  let c := c.putRange k.part k.ltile (descOf k.td) (j * r.chunk) out
  let f := partFmt k.compact
  let sq := (j, h.ssq, reduce64 add32 ((out.map (widen f)).map (fun w => mul32 w w)))
  let c := c.updColl k.op (fun k => { k with squares := sq :: k.squares.filter (fun s => s.1 != j) })
  let settle := fun (c : Core) (st : Nat) =>
    (c.updColl k.op (fun k => { k with owned := (j, st) :: k.owned.filter (fun o => o.1 != j) })).rsOwned k.op
  if chunkOk h out then
    settle (if h.nf then c.count Regs.COL_NF_CHUNKS_COUNT k.part else c) 0
  else
    let c := c.mismatch k r h.attempt r.pos j
    if h.attempt < 2 && r.n != 1 then
      let q := { k.hdr r with shard := r.pos, chunk := j, attempt := h.attempt + 1 }
      (c.count Regs.COL_CHUNK_REPLAYS_COUNT k.part).sendRing k r r.next 0x12 q.bytes
    else
      let c := (c.count Regs.COL_CHUNKS_FAILED_COUNT k.part).wf Regs.COL_COLL_STATUS_CHUNK_FAILED k.part 1
      let c := c.evt Cls.item (Src.dme (dmeOf k.ltile)) k.part 0x0B01 (k.info r h.attempt) (r.pos + j * 2 ^ 32)
      settle (c.updStep k.part (fun s => { s with nf := true })) St.CHECKSUM

/-- Add this member's contribution to chunk j of shard i and send it on, or check it (R482). -/
def Core.rsAdd (c : Core) (k : Coll) (r : Ring) (h : CollHdr) (old : Option (List Nat)) : Core :=
  let xs := c.rsPart k r h.shard h.chunk
  let (h, out) := addChunk h old xs
  if h.shard = r.pos then c.rsOwner k r h h.chunk out
  else
    let bytes := out.flatMap (leBytes (if k.compact then 2 else 4))
    c.sendRing k r r.next 0x10 ({ h with digest := r.digest }.bytes ++ bytes)

/-- Originate chunk j of the shard whose ring starts here (R482). -/
def Core.rsOriginate (c : Core) (k : Coll) (r : Ring) (j attempt : Nat) : Core :=
  c.rsAdd k r { k.hdr r with shard := if r.n = 1 then r.pos else r.prev, chunk := j, attempt := attempt } none

def Core.rsStart (c : Core) (k : Coll) (r : Ring) : Core :=
  let i := if r.n = 1 then r.pos else r.prev
  let c := threadAll (fun c j => c.rsOriginate k r j 0) c (List.range (chunkCount (shardCount k.e r.n i) r.chunk))
  c.rsOwned k.op

/-- A chunk arrives. -/
def Core.rsData (c : Core) (k : Coll) (r : Ring) (h : CollHdr) (body : List Byte) : Core :=
  if r.n ≤ h.shard ∨ chunkCount (shardCount k.e r.n h.shard) r.chunk ≤ h.chunk ∨
      body.length ≠ chunkLen (shardCount k.e r.n h.shard) r.chunk h.chunk * (if k.compact then 2 else 4) then c.abortColl k r St.LENGTH none
  else c.rsAdd k r h (some (splitElems (if k.compact then 2 else 4) body))

/-- A COMMIT arrives (R486). -/
def Core.rsCommit (c : Core) (k : Coll) (r : Ring) (h : CollHdr) : Core :=
  if k.outcomes.any (fun o => o.1 == h.shard) then c
  else
    let c := c.updColl k.op (fun k => { k with outcomes := (h.shard, h.status) :: k.outcomes })
    let c := if r.next = h.shard then c else c.sendRing k r r.next 0x11 h.bytes
    c.rsEnd k.op

/-! ### All-gather (R491-R493) -/

/-- Send a shard of td (or of ta, for its owner and for an AUDIT) in chunks to a position. -/
def Core.sendShard (c : Core) (k : Coll) (r : Ring) (d : Desc) (first i pos digest attempt hops : Nat) : Core :=
  let n := shardCount k.e r.n i
  let one := fun (c : Core) (j : Nat) =>
    let es := c.elemRange k.part k.ltile d (first + j * r.chunk) (chunkLen n r.chunk j)
    let h := { k.hdr r with shard := i, chunk := j, attempt := attempt, hops := hops, csum := signed 96 digest }
    c.sendRing k r pos 0x10 (h.bytes ++ elemBytes d es)
  threadAll one c (List.range (chunkCount n r.chunk))

/-- The digest of shard i as it stands in a tensor. -/
def Core.shardDigest (c : Core) (k : Coll) (r : Ring) (d : Desc) (first i : Nat) : Nat :=
  crc64 (elemBytes d (c.elemRange k.part k.ltile d first (shardCount k.e r.n i)))

def Core.agEnd (c : Core) (op : Nat) : Core :=
  match c.coll? op with
  | none => c
  | some k => match c.ring k.part k.group with
    | none => c
    | some r => if k.ended || !(List.range r.n).all (fun i => shardCount k.e r.n i == 0 || k.outcomes.any (fun o => o.1 == i)) then c else c.endColl k 0

/-- Serve the requests for shard i that wait for this member's own check (R493). -/
def Core.agServe (c : Core) (op i : Nat) : Core :=
  match c.coll? op with
  | none => c
  | some k => match c.ring k.part k.group with
    | none => c
    | some r =>
      let d := descOf k.td
      let digest := ((k.digests.find? (fun e => e.1 == i)).getD (i, 0)).2
      let (mine, rest) := k.asked.partition (fun a => a.1 == i)
      let c := c.updColl op (fun k => { k with asked := rest })
      threadAll (fun c (a : Nat × Nat × Nat) => c.sendShard k r d (shardStart k.e r.n i) i a.2.1 digest a.2.2 0) c mine

def Core.agStart (c : Core) (k : Coll) (r : Ring) : Core :=
  let n := shardCount k.e r.n r.pos
  let ta := descOf k.ta
  let c := c.putRange k.part k.ltile (descOf k.td) (shardStart k.e r.n r.pos) (c.elemRange k.part k.ltile ta 0 n)
  let dg := c.shardDigest k r ta 0 r.pos
  let c := c.updColl k.op (fun k => { k with outcomes := (r.pos, 0) :: k.outcomes, digests := (r.pos, dg) :: k.digests })
  (if r.n = 1 then c else c.sendShard k r ta 0 r.pos r.next dg 0 1).agEnd k.op

/-- A chunk of shard i arrives: it is written to `d` from element `first` on; when the shard is whole it is checked. -/
def Core.shardIn (c : Core) (k : Coll) (r : Ring) (h : CollHdr) (d : Desc) (body : List Byte) (src : Nat) : Core × Bool :=
  let i := h.shard
  let n := shardCount k.e r.n i
  let first := shardStart k.e r.n i
  let dg := toTwos 96 h.csum % 2 ^ 64
  let c := c.putRange k.part k.ltile d (first + h.chunk * r.chunk) (splitElems d.esize body)
  let seen := (i, h.chunk) :: k.seen.filter (fun e => e != (i, h.chunk))
  let whole := (seen.filter (fun e => e.1 == i)).length == chunkCount n r.chunk
  let c := c.updColl k.op (fun k =>
    { k with seen := if whole then seen.filter (fun e => e.1 != i) else seen, digests := (i, dg) :: k.digests.filter (fun e => e.1 != i) })
  if !whole then (c, false)
  else if c.shardDigest k r d first i = dg then
    (c.updColl k.op (fun k => { k with outcomes := (i, 0) :: k.outcomes.filter (fun o => o.1 != i) }), true)
  else
    let c := c.mismatch k r h.attempt i h.chunk
    if h.attempt < 2 then
      let q := { k.hdr r with shard := i, attempt := h.attempt + 1, hops := r.pos }
      ((c.count Regs.COL_CHUNK_REPLAYS_COUNT k.part).sendRing k r src 0x12 q.bytes, false)
    else (c.endColl k St.CHECKSUM, false)

/-- Whether a chunk message has the place and the length that its shard gives it. -/
def chunkShape (k : Coll) (r : Ring) (h : CollHdr) (d : Desc) (body : List Byte) : Bool :=
  decide (h.shard < r.n) && decide (h.chunk < chunkCount (shardCount k.e r.n h.shard) r.chunk) &&
    body.length == chunkLen (shardCount k.e r.n h.shard) r.chunk h.chunk * d.esize

/-- DEDUCED (assumption 32). -/
def Core.agData (c : Core) (k : Coll) (r : Ring) (h : CollHdr) (body : List Byte) : Core :=
  let d := descOf k.td
  if !chunkShape k r h d body then c.abortColl k r St.LENGTH none
  else
    let c := if h.attempt = 0 ∧ r.next ≠ h.shard then c.sendRing k r r.next 0x10 ({ h with hops := h.hops + 1 }.bytes ++ body) else c
    let (c, ok) := c.shardIn k r h d body r.prev
    if ok then (c.agServe k.op h.shard).agEnd k.op else c

/-! ### Audit (R494-R496) -/

/-- The table of the owners' digests and the lost marks, as a message carries them. DESIGN CHOICE (assumption 29). -/
def auditBytes (n : Nat) (t : List (Nat × Nat)) (lost : List Nat) : List Byte :=
  (List.range n).flatMap (fun i => leBytes 8 ((t.find? (fun e => e.1 == i)).getD (i, 0)).2) ++
  (List.range n).map (fun i => if lost.contains i then 1 else 0)

/-- The full table is at hand: the shards that differ are asked for (R495), a lost one ends the AUDIT (R496). -/
def Core.auditCompare (c : Core) (k : Coll) (r : Ring) (table : List (Nat × Nat)) (lost : List Nat) : Core :=
  if !lost.isEmpty then
    let c := if lost.contains r.pos then
        c.partFatal k.part (Src.dme (dmeOf k.ltile)) 0x0B03 (r.tag + r.pos * 2 ^ 16) 0 St.PARITY
      else c
    c.endColl k St.PARITY
  else
    let own := fun (i : Nat) => ((k.digests.find? (fun e => e.1 == i)).getD (i, 0)).2
    let bad := (List.range r.n).filter (fun i => i != r.pos && shardCount k.e r.n i != 0 &&
      (k.lost.contains i || own i != ((table.find? (fun e => e.1 == i)).getD (i, 0)).2))
    let c := c.updColl k.op (fun k => { k with outcomes := ((List.range r.n).filter (fun i => !bad.contains i)).map (fun i => (i, 0)) })
    let ask := fun (c : Core) (i : Nat) => c.sendRing k r i 0x12 { k.hdr r with shard := i, hops := r.pos }.bytes
    (threadAll ask c bad).agEnd k.op

/-- This member sets its own entry of the table and sends it on, or completes it (R487, R494). -/
def Core.auditPass (c : Core) (k : Coll) (r : Ring) (hops : Nat) (table : List (Nat × Nat)) (lost : List Nat) : Core :=
  let mine := (r.pos, ((k.digests.find? (fun e => e.1 == r.pos)).getD (r.pos, 0)).2)
  let full := decide (r.n ≤ hops)
  let table := if full then table else mine :: table.filter (fun e => e.1 != r.pos)
  let lost := if !full && k.lost.contains r.pos then r.pos :: lost else lost
  let hops' := hops + 1
  let c := if hops' = 2 * r.n - 1 then c
    else c.sendRing k r r.next 0x10 ({ k.hdr r with shard := r.pos, hops := hops' }.bytes ++ auditBytes r.n table lost)
  if r.n ≤ hops' then c.auditCompare k r table lost else c

def Core.auditStart (c : Core) (k : Coll) (r : Ring) : Core :=
  let d := descOf k.ta
  let ds := (List.range r.n).map (fun i => (i, c.shardDigest k r d (shardStart k.e r.n i) i))
  let c := c.updColl k.op (fun k => { k with digests := ds })
  let k := { k with digests := ds }
  if r.n = 1 then c.auditCompare k r ds k.lost
  else if r.pos = 0 then c.auditPass k r 0 [] [] else c

def Core.auditData (c : Core) (k : Coll) (r : Ring) (h : CollHdr) (body : List Byte) : Core :=
  let d := descOf k.ta
  if 0 < h.hops then
    if body.length ≠ 9 * r.n then c.abortColl k r St.LENGTH none
    else
      let table := (List.range r.n).map (fun i => (i, leNat ((body.drop (8 * i)).take 8)))
      let lost := (List.range r.n).filter (fun i => body[8 * r.n + i]? == some 1)
      c.auditPass k r h.hops table lost
  else if !chunkShape k r h d body then c.abortColl k r St.LENGTH none
  else
    let (c, ok) := c.shardIn k r h d body h.shard
    if ok then
      let c := (c.count Regs.COL_DIVERGENCES_COUNT k.part).wf Regs.COL_COLL_STATUS_DIVERGED k.part 1
      let c := c.evt Cls.info (Src.dme (dmeOf k.ltile)) k.part 0x0B02 (r.tag + h.shard * 2 ^ 16) (c.stepOf k.part)
      c.agEnd k.op
    else c

/-! ### Expert all-to-all (R497-R499) -/

/-- The header words and the tables of a dispatch list (R256). -/
structure DispList where
  x : Nat
  t : Nat
  k : Nat
  cap : Nat
  slots : Nat
  counts : List Nat
  starts : List Nat
  tokens : List Nat
  deriving DecidableEq, Repr

/-- DEDUCED (assumption 31). -/
def Core.dispList (c : Core) (p l : Nat) (d : Desc) : DispList :=
  let w := fun (o : Nat) => leNat (c.tensorBytes p l d o 4)
  let x := w 0
  let s := w 16
  { x := x, t := w 4, k := w 8, cap := w 12, slots := s
    counts := (List.range x).map (fun e => w (64 + 8 * e)), starts := (List.range x).map (fun e => w (68 + 8 * e))
    tokens := (List.range s).map (fun i => w (64 + 8 * x + 8 * i)) }

/-- The experts that position d holds, with X experts over n members (R497). DEDUCED (assumption 31). -/
def heldExperts (x n d : Nat) : List Nat := (upFrom (d * ceilDiv x n) (ceilDiv x n)).filter (fun e => decide (e < x))

/-- Rows that the counts of an A2A buffer take (R498). DEDUCED (assumption 31). -/
def countRows (xg n : Nat) (d : Desc) : Nat := ceilDiv (4 * xg * n) (d.e0 * d.esize)

/-- Row r of a tensor of rows, as bytes. -/
def Core.rowBytes (c : Core) (k : Coll) (d : Desc) (r : Nat) : List Byte := c.tensorBytes k.part k.ltile d (r * d.e0 * d.esize) (d.e0 * d.esize)
def Core.putRows (c : Core) (k : Coll) (d : Desc) (r : Nat) (bs : List Byte) : Core := c.putBytes k.part k.ltile d (r * d.e0 * d.esize) bs

/-- The message to position d (R498, R499): the counts of its experts, then the rows. -/
def Core.a2aMsg (c : Core) (k : Coll) (r : Ring) (d : Nat) : List Byte :=
  let ta := descOf k.ta
  let ls := c.dispList k.part k.ltile (descOf k.tc)
  let xg := ceilDiv ls.x r.n
  if !k.compact then
    let es := heldExperts ls.x r.n d
    let n := fun (e : Nat) => (ls.counts[e]?).getD 0
    es.flatMap (fun e => leBytes 4 (n e)) ++
    es.flatMap (fun e => (upFrom ((ls.starts[e]?).getD 0) (n e)).flatMap (fun i => c.rowBytes k ta ((ls.tokens[i]?).getD 0)))
  else
    let base := xg * r.n * ls.cap * ta.e0 * ta.esize
    let es := heldExperts ls.x r.n r.pos
    let cnt := fun (j : Nat) => leNat (c.tensorBytes k.part k.ltile ta (base + 4 * (j * r.n + d)) 4)
    (List.range es.length).flatMap (fun j => leBytes 4 (cnt j)) ++
    (List.range es.length).flatMap (fun j => (List.range (min (cnt j) ls.cap)).flatMap (fun i => c.rowBytes k ta ((j * r.n + d) * ls.cap + i)))

/-- What arrives from position s (R498, R499); none when the message does not fit. -/
def Core.a2aTake (c : Core) (k : Coll) (r : Ring) (s : Nat) (body : List Byte) : Option Core :=
  let td := descOf k.td
  let ls := c.dispList k.part k.ltile (descOf k.tc)
  let xg := ceilDiv ls.x r.n
  let rb := td.e0 * td.esize
  let es := heldExperts ls.x r.n (if k.compact then s else r.pos)
  let cnts := (List.range es.length).map (fun j => leNat ((body.drop (4 * j)).take 4))
  let rows := body.drop (4 * es.length)
  let offs := (List.range es.length).map (fun j => ((cnts.take j).foldl (· + ·) 0))
  if body.length ≠ 4 * es.length + (cnts.foldl (· + ·) 0) * rb ∨ cnts.any (fun n => decide (ls.cap < n)) then none
  else if !k.compact then
    let one := fun (c : Core) (j : Nat) =>
      let n := (cnts[j]?).getD 0
      let bytes := (rows.drop (((offs[j]?).getD 0) * rb)).take (n * rb)
      let c := c.putRows k td ((j * r.n + s) * ls.cap) (bytes ++ List.replicate ((ls.cap - n) * rb) 0)
      c.putBytes k.part k.ltile td (xg * r.n * ls.cap * rb + 4 * (j * r.n + s)) (leBytes 4 n)
    some (threadAll one c (List.range xg))
  else
    let one := fun (c : Core) (j : Nat) =>
      let n := (cnts[j]?).getD 0
      let e := (es[j]?).getD 0
      let n' := min n ((ls.counts[e]?).getD 0)
      c.putRows k td ((ls.starts[e]?).getD 0) ((rows.drop (((offs[j]?).getD 0) * rb)).take (n' * rb))
    some (threadAll one c (List.range es.length))

/-- A RING or an A2A ends when all its messages are received whole and all it awaits has come (R500). -/
def Core.exchangeEnd (c : Core) (op : Nat) : Core :=
  match c.coll? op with
  | none => c
  | some k => match c.ring k.part k.group with
    | none => c
    | some r =>
      let want := if k.kind = kRING then 1 else r.n
      if k.ended || k.outcomes.length < want || k.confirmed < k.sent then c else c.endColl k 0

/-- DEDUCED (assumption 31). -/
def Core.a2aStart (c : Core) (k : Coll) (r : Ring) : Core :=
  let c := (c.a2aTake k r r.pos (c.a2aMsg k r r.pos)).getD c
  let c := c.updColl k.op (fun k => { k with outcomes := [(r.pos, 0)] })
  let send := fun (c : Core) (d : Nat) =>
    c.sendRing k r d 0x10 ({ k.hdr r with shard := r.pos }.bytes ++ c.a2aMsg k r d)
  (threadAll send c ((List.range r.n).filter (· != r.pos))).exchangeEnd k.op

def Core.a2aData (c : Core) (k : Coll) (r : Ring) (h : CollHdr) (body : List Byte) : Core :=
  match c.a2aTake k r h.shard body with
  | none => c.abortColl k r St.LENGTH none
  | some c => (c.updColl k.op (fun k => { k with outcomes := (h.shard, 0) :: k.outcomes.filter (fun o => o.1 != h.shard) })).exchangeEnd k.op

/-! ### Sequence ring (R500) -/

def Core.ringStart (c : Core) (k : Coll) (r : Ring) : Core :=
  let ta := descOf k.ta
  let bs := c.tensorBytes k.part k.ltile ta 0 ta.bytes
  if r.n = 1 then (c.putBytes k.part k.ltile (descOf k.td) 0 bs).endColl k 0
  else c.sendRing k r r.next 0x10 ({ k.hdr r with shard := r.pos }.bytes ++ bs)

def Core.ringData (c : Core) (k : Coll) (r : Ring) (body : List Byte) : Core :=
  let td := descOf k.td
  if body.length ≠ td.bytes then c.abortColl k r St.LENGTH none
  else ((c.putBytes k.part k.ltile td 0 body).updColl k.op (fun k => { k with outcomes := [(0, 0)] })).exchangeEnd k.op

/-! ### Step agreement (R487, R488) -/

/-- The values of an agreement message: flag, slots, NOISE_C, NOISE_R. -/
structure Agree where
  flag : Bool
  slots : List SlotSum
  c : Nat
  r : Nat
  deriving DecidableEq, Repr

/-- The payload of an AGREE message: a flag byte, the 128-byte map, 14 bytes for each used slot, the two statistics.
DESIGN CHOICE (assumption 29). -/
def Agree.bytes (a : Agree) : List Byte :=
  let map := (a.slots.map (fun s => 2 ^ s.slot)).foldl (· + ·) 0
  leBytes 1 (b2n a.flag) ++ leBytes 128 map ++ a.slots.flatMap (fun s => leBytes 2 s.slot ++ leBytes 4 s.l2 ++ leBytes 8 s.nz) ++
    leBytes 4 a.c ++ leBytes 4 a.r

def Agree.parse (bs : List Byte) : Agree :=
  let f := fun (lo n : Nat) => leNat ((bs.drop lo).take n)
  let map := f 1 128
  let n := ((List.range 1024).filter (fun i => bitOf map i)).length
  { flag := f 0 1 == 1
    slots := (List.range n).map (fun i => { slot := f (129 + 14 * i) 2, l2 := f (131 + 14 * i) 4, nz := f (135 + 14 * i) 8 })
    c := f (129 + 14 * n) 4, r := f (133 + 14 * n) 4 }

/-- A position adds its own values to the arriving ones (R487). -/
def Agree.plus (a b : Agree) : Agree :=
  let slots := (List.range 1024).filterMap (fun i =>
    match a.slots.find? (fun s => s.slot == i), b.slots.find? (fun s => s.slot == i) with
    | some x, some y => some { slot := i, l2 := add32 x.l2 y.l2, nz := x.nz + y.nz }
    | some x, none => some { x with l2 := add32 x.l2 0 }
    | none, some y => some { y with l2 := add32 0 y.l2 }
    | none, none => none)
  { flag := a.flag || b.flag, slots := slots, c := add32 a.c b.c, r := add32 a.r b.r }

/-- The device's own values at the close. -/
def StepSt.own (s : StepSt) : Agree := { flag := s.flag, slots := s.slots, c := s.ownNoise.1, r := s.ownNoise.2 }

/-- The totals are at hand: the step is decided. -/
def Core.agreed (c : Core) (p n : Nat) (a : Agree) : Core :=
  (c.updStep p (fun s => { s with noise := (a.c, a.r), noiseG := n })).stepDecide p a.flag a.slots

/-- Send an agreement message to the next position. -/
def Core.sendAgree (c : Core) (p : Nat) (r : Ring) (hops : Nat) (a : Agree) : Core :=
  let h : CollHdr := { tag := r.tag, kind := kAGREE, e := c.stepOf p, hops := hops, shard := r.pos, digest := r.digest }
  let q := r.qp r.next
  if c.qpIssue p q none ≠ 0 then c
  else
    let bs := h.bytes ++ a.bytes
    let c := c.count Regs.COL_CHUNKS_SENT_COUNT p
    (c.touchQp q).startMsg q { msn := 0, kind := 0x10, vc := r.rvc, total := bs.length, data := bs }

/-- An agreement message of this step arrives after the close (R487). -/
def Core.agreePass (c : Core) (p : Nat) (r : Ring) (hops : Nat) (a : Agree) : Core :=
  if r.n ≤ hops then
    let c := if hops + 1 = 2 * r.n - 1 then c else c.sendAgree p r (hops + 1) a
    c.agreed p r.n a
  else
    let a := a.plus (c.part p).step.own
    let c := c.sendAgree p r (hops + 1) a
    if hops + 1 = r.n then c.agreed p r.n a else c

/-- An agreement message arrives (R488). -/
def Core.agreeData (c : Core) (p : Nat) (r : Ring) (h : CollHdr) (bs : List Byte) : Core :=
  let s := (c.part p).step
  if h.e ≠ c.stepOf p then
    (c.count Regs.COL_AGREE_MISMATCH_COUNT p).evt Cls.info (Src.dme (4 * c.lead p)) p 0x0B05 h.e (c.stepOf p)
  else if s.decided then c
  else if s.closed then
    (if s.agree = some r.num then c.agreePass p r h.hops (Agree.parse (bs.drop 64)) else c)
  else c.updStep p (fun s => { s with agreeIn := some bs })

/-- After the close the exchange starts, or the device decides alone (R299, R487, R488). -/
def Core.agreeStart (c : Core) (p : Nat) : Core :=
  let s := (c.part p).step
  match s.agree with
  | none => c
  | some g =>
    if s.decided || !s.closed then c
    else
      let x := c.part p
      let mine := (x.noise.filter (fun e => e.1 == g)).mergeSort (fun a b => decide (a.2.1 < b.2.1) || (a.2.1 == b.2.1 && decide (a.2.2.1 ≤ b.2.2.1)))
      let own := (fold32 (mine.map (·.2.2.2.1)), fold32 (mine.map (·.2.2.2.2)))
      let c := c.setPart p { x with noise := [], step := { x.step with ownNoise := own } }
      match c.ring p g with
      | none => c
      | some r =>
        let s := (c.part p).step
        if r.n = 1 then c.agreed p 1 s.own
        else if r.pos = 0 then c.sendAgree p r 1 s.own
        else match s.agreeIn with
          | none => c
          | some bs => c.agreePass p r (CollHdr.parse bs).hops (Agree.parse (bs.drop 64))

/-! ### Buddy slots (R503-R506) -/

/-- A piece arrives for a buddy slot: the status with which it is refused, or 0. DEDUCED (assumption 30). -/
def Core.buddyIn (c : Core) (n : Nat) (bs : List Byte) : Core × Nat :=
  match c.qp? n with
  | none => (c, St.PROTECTION)
  | some q =>
    let p := q.part
    let body := bs.drop 64
    let off := leNat ((bs.drop 24).take 8)
    let fl := leNat ((bs.drop 36).take 1)
    let slot := fl % 2
    let footer := bitOf fl 1
    let sb := c.rf Regs.COL_BUDDY_SLOT_SLOT_BYTES p * 4096
    let base := c.rf Regs.COL_BUDDY_BASE_BASE p * 4096 + slot * sb
    let lock := c.flag (if slot = 0 then Regs.COL_BUDDY_STATE_A_LOCK else Regs.COL_BUDDY_STATE_B_LOCK) p
    let stF := if slot = 0 then Regs.COL_BUDDY_STATE_A_STATE else Regs.COL_BUDDY_STATE_B_STATE
    let info := slot + q.remoteDev * 2
    let refuse := fun (c : Core) (st : Nat) => (c.evt Cls.item (Src.port q.port) p 0x0B07 (info + st * 2 ^ 16), st)
    let writing := fun (c : Core) =>
      if c.rf stF p = 1 then c else (c.wf stF p 1).writeView p (base + sb - 64 + 32) [0]
    if !c.flag Regs.COL_BUDDY_SRC_EN p ∨ q.remoteDev ≠ c.rf Regs.COL_BUDDY_SRC_DEV p ∨ q.vc ≠ 10 ∨ sb = 0 ∨ lock then refuse c St.PROTECTION
    else if !footer then
      if sb - 64 < off + body.length then refuse c St.LENGTH
      else ((writing c).writeView p (base + off) body, 0)
    else if body.length ≠ 64 ∨ off ≠ sb - 64 then refuse c St.LENGTH
    else
      let magic := leNat (body.take 4)
      let nb := leNat ((body.drop 16).take 8)
      let c := writing c
      if magic ≠ 0x54504B43 ∨ sb - 64 < nb then refuse c St.LENGTH
      else
        let crc := crc64 (c.readView p base nb)
        let c := c.writeView p (base + sb - 64) (body.take 24 ++ leBytes 8 crc ++ [1] ++ body.drop 33)
        let step := leNat ((body.drop 8).take 8)
        let c := (c.wf stF p 2).wr (if slot = 0 then Regs.COL_BUDDY_A_STEP else Regs.COL_BUDDY_B_STEP) p step
        (c.evt Cls.info (Src.port q.port) p 0x0B06 info step, 0)

/-! ### Dispatch of messages (R475-R477) -/

/-- Start a collective that has just been issued. -/
def Core.startColl (c : Core) (k : Coll) (r : Ring) : Core :=
  if k.kind = kRSCAT then c.rsStart k r
  else if k.kind = kAGATH then c.agStart k r
  else if k.kind = kA2A then c.a2aStart k r
  else if k.kind = kRING then c.ringStart k r
  else c.auditStart k r

/-- A message for a collective that has been issued here. -/
def Core.collMsg (c : Core) (k : Coll) (r : Ring) (opcode : Nat) (bs : List Byte) : Core :=
  let h := CollHdr.parse bs
  let body := bs.drop 64
  let c := c.updColl k.op (fun k => { k with lastTick := c.tick })
  if opcode = 0x12 ∧ k.kind = kAGATH then
    -- the shard is resent once the own check has passed, also after this member's AGATH has ended
    let c := c.updColl k.op (fun k => { k with asked := k.asked ++ [(h.shard, r.next, h.attempt)] })
    if k.outcomes.any (fun o => o.1 == h.shard) then c.agServe k.op h.shard else c
  else if opcode = 0x12 ∧ k.kind = kAUDIT then
    let d := descOf k.ta
    let first := shardStart k.e r.n r.pos
    -- REPLAY of an AUDIT comes from the member whose copy differs; its header's SHARD names the owner's shard, HOPS its position
    c.sendShard k r d first r.pos h.hops (c.shardDigest k r d first r.pos) h.attempt 0
  else if k.ended then c
  else if opcode = 0x13 then
    let from_ := h.shard
    let other := if r.next = from_ then r.prev else r.next
    let c := c.endColl k h.status
    let c := c.evt Cls.item (Src.dme (dmeOf k.ltile)) k.part 0x0B04 (r.tag + h.status * 2 ^ 16 + from_ * 2 ^ 32)
    if other = from_ ∨ other = r.pos then c
    else c.sendRing k r other 0x13 { k.hdr r with shard := r.pos, status := h.status }.bytes
  else if h.kind ≠ k.kind ∨ h.e ≠ k.e ∨ h.compact ≠ k.compact ∨ h.digest ≠ r.digest then c.abortColl k r St.LENGTH none
  else if opcode = 0x11 then (if k.kind = kRSCAT then c.rsCommit k r h else c)
  else if opcode = 0x12 then (if k.kind = kRSCAT then c.rsOriginate k r h.chunk h.attempt else c)
  else if k.kind = kRSCAT then c.rsData k r h body
  else if k.kind = kAGATH then c.agData k r h body
  else if k.kind = kA2A then c.a2aData k r h body
  else if k.kind = kRING then c.ringData k r body
  else c.auditData k r h body

/-- Bytes parked in a partition's staging area. DEDUCED (assumption 32). -/
def Core.parkedBytes (c : Core) (p : Nat) : Nat :=
  ((c.parked.filter (fun m => !m.inCells && m.part == p)).map (fun m => m.bytes.length)).foldl (· + ·) 0

/-- Whether the staging area has no room for n more bytes. -/
def Core.stageFull (c : Core) (p n : Nat) : Bool := decide (c.rf Regs.COL_COLL_STAGE_BYTES_SIZE p * 4096 < c.parkedBytes p + n)

/-- A message is parked until its collective is issued (R477). DEDUCED (assumption 32). -/
def Core.park (c : Core) (p n opcode : Nat) (bs : List Byte) : Core :=
  { c with parked := c.parked ++ [{ part := p, qp := n, opcode := opcode, bytes := bs, inCells := c.stageFull p bs.length }] }

/-- Messages that stayed in their cells move to the staging area as far as there is room (R477). -/
def Core.restage (c : Core) (p : Nat) : Core :=
  let one := fun (c : Core) (m : Parked) =>
    if m.part == p && !c.stageFull p m.bytes.length then
      let c := match m.hold with
        | some (u, vc, dev, n) => c.freeCells u vc dev n
        | none => c
      { c with parked := c.parked ++ [{ m with inCells := false, hold := none }] }
    else { c with parked := c.parked ++ [m] }
  let ms := c.parked
  threadAll one { c with parked := ms.filter (fun m => !m.inCells) } (ms.filter (·.inCells))

/-- A whole collective message (R476, R477): the status refuses it. One whose collective has not been issued, the group being formed or
not, is parked. DEDUCED (assumption 32). -/
def Core.collSink (c : Core) (n opcode : Nat) (bs : List Byte) : Core × Nat :=
  match c.qp? n with
  | none => (c, 0)
  | some q =>
    let p := q.part
    let h := CollHdr.parse bs
    if bs.length < 64 then (c, St.LENGTH)
    else if opcode = 0x10 ∧ h.kind = kCKPT then c.buddyIn n bs
    else match c.ringOfTag p h.tag with
    | none => if opcode = 0x10 ∧ h.kind = kAGREE then (c, 0) else (c.park p n opcode bs, 0)
    | some r =>
      if opcode = 0x10 ∧ h.kind = kAGREE then (c.agreeData p r h bs, 0)
      else match c.colls.find? (fun k => k.part == p && k.group == r.num && k.ltile == h.tile && k.seq == h.seq && k.kind != kCKPT) with
        | some k => (c.collMsg k r opcode bs, 0)
        | none =>
          if h.seq < c.collSeq.get (fun _ => 0) ((16 * p + r.num) * 256 + h.tile) then (c, 0) else (c.park p n opcode bs, 0)

/-- Deliver the parked messages of a collective that has just been issued (R477). DEDUCED (assumption 32). -/
def Core.unpark (c : Core) (k : Coll) (r : Ring) : Core :=
  let (c, mine) := c.takeParked (fun m => (let h := CollHdr.parse m.bytes
    m.part == k.part && h.tag == r.tag && h.tile == k.ltile && h.seq == k.seq))
  let c := c.restage k.part
  let one := fun (c : Core) (m : Parked) => match c.coll? k.op with
    | some k => c.collMsg k r m.opcode m.bytes
    | none => c
  threadAll one c mine

/-- The ends of collective messages act: a failure ends the collective and is passed to the other side (R507), a success counts
(R500, R504). -/
def Core.flushColl : Nat → Core → Core
  | 0, c => c
  | n + 1, c =>
    let es := c.collEnds
    let one := fun (c : Core) (e : Nat × Nat × Nat) =>
      match c.coll? e.1 with
      | none => c
      | some k =>
        if k.ended then c
        else if k.kind = kCKPT then (c.endColl k e.2.2)
        else if e.2.2 = 0 then
          let c := c.updColl k.op (fun k => { k with confirmed := k.confirmed + 1 })
          if k.kind = kRING ∨ k.kind = kA2A then c.exchangeEnd k.op else c
        else match c.ring k.part k.group with
          | some r => c.abortColl k r e.2.2 (some e.2.1)
          | none => c.endColl k e.2.2
    let c := threadAll one { c with collEnds := [] } es
    if c.collEnds.isEmpty then c else flushColl n c

/-- Enough rounds for the failures that failures cause. DEDUCED (assumption 32). -/
def Core.settleColl (c : Core) : Core := Core.flushColl 8 c

/-! ### The instructions (R223-R225, R478) -/

/-- GROUP of the modifiers, and bit 4: COMPACT or DIR. -/
def TArgs.group (x : TArgs) : Nat := bits x.mods.toNat 3 0
def TArgs.compact (x : TArgs) : Bool := bitOf x.mods.toNat 4

/-- What the issue of a collective gives its operation: it waits, or it has ended already with a status. -/
def Core.collRes (c : Core) (op : Nat) : OpRes :=
  match c.coll? op with
  | some k => if k.ended then { c := c, st := k.status } else { c := c, wait := true }
  | none => { c := c }

/-- Begin a collective: take its SEQ, record it, start it, deliver what came early. Its operation is the one being issued.
DEDUCED (assumption 32). -/
def Core.beginColl (c : Core) (k : Coll) (r : Ring) : OpRes :=
  let key := (16 * k.part + k.group) * 256 + k.ltile
  let seq := c.collSeq.get (fun _ => 0) key
  let k := { k with op := c.nextOp, seq := seq, lastTick := c.tick }
  let c := { c with
    collSeq := c.collSeq.put (fun _ => 0) key ((seq + 1) % 2 ^ 32)
    colls := c.colls.filter (fun (j : Coll) => !(j.ended && j.kind != kAGATH && j.kind != kAUDIT && j.part == k.part && j.group == k.group && j.ltile == k.ltile)) ++ [k] }
  ((c.startColl k r).unpark k r).settleColl.collRes k.op

/-- The operation of RSCAT, AGATH, A2A, RING and AUDIT. -/
def Core.opColl (c : Core) (x : TArgs) (kind l p : Nat) : OpRes :=
  let tl := c.tile x.tile.val
  let td := tl.desc x.td.val
  let ta := tl.desc x.ta.val
  let tc := tl.desc x.tc.val
  let ring := c.ring p (TArgs.group x)
  let n := match ring with | some r => r.n | none => 1
  let pos := match ring with | some r => r.pos | none => 0
  let dst : Operand := { d := td, dest := true, spaces := spColl }
  let src : Operand := { d := ta, spaces := spColl }
  let ops : List Operand := if kind = kAUDIT then [src] else if kind = kA2A then [dst, src, { d := tc, spaces := spColl }] else [dst, src]
  let cmp := TArgs.compact x && (kind == kRSCAT || kind == kA2A)
  let ls := c.dispList p l tc
  let xg := ceilDiv ls.x n
  let shape :=
    if kind = kRSCAT then
      ta.isFP16 && (if cmp then td.isFP16 else td.isFP32) && (ring.isNone || ta.empty || td.count == shardCount ta.count n pos)
    else if kind = kAGATH then
      td.isFP && ta.fmt == td.fmt && (ring.isNone || td.empty || ta.count == shardCount td.count n pos)
    else if kind = kRING then td.bytes == ta.bytes
    else if kind = kAUDIT then ta.isFP
    else
      td.isFP && ta.fmt == td.fmt && ta.e0 == td.e0 && tc.raw32 && ta.e2 ≤ 1 && ta.e3 ≤ 1 && td.e2 ≤ 1 && td.e3 ≤ 1 &&
      (ta.empty || (decide (16 ≤ tc.e0) && decide (16 + 2 * ls.x + 2 * ls.slots ≤ tc.e0) && decide (1 ≤ ls.k) && decide (ls.k ≤ ls.x) &&
        (let full := xg * n * ls.cap + countRows xg n td
         if cmp then ta.e1 == full && decide (ls.slots ≤ td.e1) else ta.e1 == ls.t && td.e1 == full)))
  let st := c.issueChecks p l ops shape false
  let e := if kind = kAGATH then td.count else ta.count
  if st ≠ 0 then .fail (c.licensedEvent p ops st) st
  else match ring with
    | none => .fail c St.BOUNDS
    | some r =>
      if e = 0 then { c := c }
      else if (kind = kAUDIT ∨ kind = kA2A) ∧ (List.range r.n).any (fun j => j != r.pos && r.qp j == 0xFFFF) then .fail c St.BOUNDS
      else
        let w := fun (k : Nat) => (tl.t.get (fun _ => 0) k).toNat
        let k : Coll := { op := 0, part := p, group := r.num, ltile := l, seq := 0, kind := kind, compact := cmp, e := e
                          td := w x.td.val, ta := w x.ta.val, tc := w x.tc.val }
        if kind = kAUDIT then
          -- a shard that device memory cannot give counts as divergent, or as lost when it is the own one (R495, R496)
          let loss := fun (c : Core) (i : Nat) => (upFrom (shardStart e r.n i) (shardCount e r.n i)).findSome? (fun j =>
            match c.place p l ta.addr (ta.byteOff (j * ta.esize)) with
            | .view q v => (match c.viewToDpa q v with
              | some d => if c.lostLine d x.env then some (c.accessLost q v d false) else none
              | none => none)
            | _ => none)
          let lost := if x.env.dramLost.isEmpty && c.failedCh.isEmpty then [] else (List.range r.n).filter (fun i => (loss c i).isSome)
          let (fs, c') := ({ c with failedCh := [] } : Core).memFaults p l ops { x.env with dramLost := [] }
          let c : Core := { c' with failedCh := c.failedCh }
          if fs ≠ 0 then .fail c fs
          else (threadAll (fun c i => (loss c i).getD c) c lost).beginColl { k with lost := lost } r
        else
          let (fs, c) := c.memFaults p l ops x.env
          if fs ≠ 0 then .fail c fs else c.beginColl k r

/-- The operation of CKPT (R503-R505): a message to the buddy. -/
def Core.opCkpt (c : Core) (x : TArgs) (l p : Nat) : OpRes :=
  let tl := c.tile x.tile.val
  let td := tl.desc x.td.val
  let ta := tl.desc x.ta.val
  let ops : List Operand := [{ d := td, dest := true, spaces := 0b10000 }, { d := ta, spaces := spColl }]
  let st := c.issueChecks p l ops (td.bytes == ta.bytes) false
  if st ≠ 0 then .fail (c.licensedEvent p ops st) st
  else
    let n := c.rf Regs.COL_CKPT_QP_QP p
    let qs := c.qpIssue p n (some (bits td.addr 59 46))
    if qs ≠ 0 then .fail c qs
    else if ta.bytes = 0 then { c := c }
    else
      let (fs, c) := c.memFaults p l [{ d := ta, spaces := spColl }] x.env
      if fs ≠ 0 then .fail c fs
      else
        let h : CollHdr := { kind := kCKPT, tile := l, e := c.stepOf p, csum := (bits td.addr 45 0 : Nat), err := (bits x.mods.toNat 1 0 : Nat) }
        let k : Coll := { op := c.nextOp, part := p, group := 0, ltile := l, seq := 0, kind := kCKPT, lastTick := c.tick }
        let c := { c with colls := c.colls.filter (fun (j : Coll) => !(j.ended && j.kind == kCKPT && j.ltile == l)) ++ [k] }
        (c.sendColl k n 10 0 0x10 (h.bytes ++ c.tensorBytes p l ta 0 ta.bytes)).settleColl.collRes k.op

def execRscat (x : TArgs) (s : State) : Host.Outcome State Fault Refusal :=
  s.on (fun c => (c.tensorIns x .RSCAT (fun c l p => c.opColl x kRSCAT l p)).settleColl)
def execAgath (x : TArgs) (s : State) : Host.Outcome State Fault Refusal :=
  s.on (fun c => (c.tensorIns x .AGATH (fun c l p => c.opColl x kAGATH l p)).settleColl)
def execA2a (x : TArgs) (s : State) : Host.Outcome State Fault Refusal :=
  s.on (fun c => (c.tensorIns x .A2A (fun c l p => c.opColl x kA2A l p)).settleColl)
def execRing (x : TArgs) (s : State) : Host.Outcome State Fault Refusal :=
  s.on (fun c => (c.tensorIns x .RING (fun c l p => c.opColl x kRING l p)).settleColl)
def execAudit (x : TArgs) (s : State) : Host.Outcome State Fault Refusal :=
  s.on (fun c => (c.tensorIns x .AUDIT (fun c l p => c.opColl x kAUDIT l p)).settleColl)
def execCkpt (x : TArgs) (s : State) : Host.Outcome State Fault Refusal :=
  s.on (fun c => (c.tensorIns x .CKPT (fun c l p => c.opCkpt x l p)).settleColl)

end Sys2Proof.Machine
end

