-- ==== Sys2Proof/Machine/CollRows.lean ====
section
/-! DEFINITION. CollRows.lean: the commands of the collectives (R298, R470-R507): the close of a step, groups, received packets,
time limits and probes. -/

namespace Sys2Proof.Machine

/-! ### Probes (R501) -/

/-- The header of a probe packet; E is the probe's bytes. -/
def probeHdr (e : Nat) : List Byte := CollHdr.bytes { kind := kPROBE, e := e }

/-- End the probe with a status. DEDUCED (assumption 33). DEDUCED (assumption 84). -/
def Core.probeEnd (c : Core) (st : Nat) : Core :=
  let c : Core := { c with probe := none }
  (c.wf Regs.COL_PROBE_STATUS_BUSY 0 0).wf Regs.COL_PROBE_STATUS_RESULT 0 st

/-- Send one PROBE packet on the probed path, when it is up and holds credit. DEDUCED (assumption 33). -/
def Core.probeSend (c : Core) (q : QP) (path n e : Nat) : Core × Bool :=
  match q.paths[path]? with
  | none => (c, false)
  | some a =>
    let u := unitOfPort a.1 a.2
    let x := c.credit u q.vc q.remoteDev
    if x.left < frameCells q.form (64 + n) then (c.askCredit q q.vc, false)
    else
      let c := c.setCredit u q.vc q.remoteDev { x with consumed := (x.consumed + frameCells q.form (64 + n)) % 2 ^ 24, lastSend := c.tick }
      (c.putPacket u q.form 0x14 q.vc q.key q.remoteDev q.remoteQp q.num 0 0 0 0 (64 + n) 0 0 (probeHdr e ++ List.replicate n 0), true)

/-- Send what the probe may send: the one-packet probe, then packets of the PMTU until the bytes are sent.
DEDUCED (assumption 33). DEDUCED (assumption 84). -/
def Core.probePump : Nat → Core → Core
  | 0, c => c
  | n + 1, c =>
    match c.probe with
    | none => c
    | some b => match c.qp? b.qp with
      | none => c.probeEnd St.PROTECTION
      | some q =>
        let up := match q.paths[b.path]? with | some a => c.linkUp (unitOfPort a.1 a.2) | none => false
        if !up then c.probeEnd St.LINK_DOWN
        else if b.left = 0 then c
        else
          let m := if b.rate then min b.left (q.pmtu - 64) else 0
          let e := if b.rate then b.kib * 1024 else 0
          let (c, ok) := c.probeSend q b.path m e
          if !ok then c
          else
            let start := if b.started = 0 then c.tick + 1 else b.started
            probePump n { c with probe := some { b with left := if b.rate then b.left - m else 0, started := start } }

/-- A PROBE or a PROBE_RESP arrives (R480, R501). -/
def Core.collCtl (c : Core) (n opcode : Nat) (payload : List Byte) : Core :=
  match c.qp? n with
  | none => c
  | some q =>
    if opcode = 0x14 then
      let e := (CollHdr.parse payload).e
      let got := c.probeGot.get (fun _ => 0) n + (payload.length - 64)
      if e ≤ got then
        let c : Core := { c with probeGot := c.probeGot.put (fun _ => 0) n 0 }
        match q.paths.find? (fun a => c.linkUp (unitOfPort a.1 a.2)) with
        | none => c
        | some a => c.putPacket (unitOfPort a.1 a.2) q.form 0x15 q.vc q.key q.remoteDev q.remoteQp q.num 0 0 0 0 72 0 0 (probeHdr e ++ leBytes 8 got)
      else { c with probeGot := c.probeGot.put (fun _ => 0) n got }
    else if opcode = 0x15 then
      match c.probe with
      | none => c
      | some b =>
        if b.qp ≠ n then c
        else
          let ns := (c.tick + 1 - b.started) * Config.tickNs
          if !b.rate then
            let c := c.wf Regs.COL_PROBE_LAT_NS 0 ns
            if b.kib = 0 then c.probeEnd St.SUCCESS
            else Core.probePump 16384 { c with probe := some { b with rate := true, started := 0, left := b.kib * 1024 } }
          else
            let bytes := leNat ((payload.drop 64).take 8)
            (c.wf Regs.COL_PROBE_BW_MBPS 0 (bytes * 1000 / max ns 1)).probeEnd St.SUCCESS
    else c

/-- The receive cells of a packet on VC1 to VC14: they count against the sender's grant and are freed when the packet leaves them
(R417, R457, R463). -/
def Core.useCells (c : Core) (k : Pkt) (held : Bool) : Core :=
  let u := unitOfPort k.port.val k.iface.val
  let form := ((c.qp? k.dstQp.toNat).map (·.form)).getD 0
  let n := frameCells form k.payload.length
  if k.vc.val = 0 ∨ !c.rxGrants.any (fun g => g.unit == u && g.vc == k.vc.val && g.dev == k.srcDev.toNat) then c
  else c.updGrant u k.vc.val k.srcDev.toNat (fun g =>
    { g with consumed := g.consumed + n, freed := if held then g.freed else g.freed + n, kept := if held then g.kept + n else g.kept })

/-- Packets that wait in their receive cells. -/
def Core.inCells (c : Core) (n : Nat) : Nat := (((c.qp? n).map (·.waiting)).getD []).countP (fun w => !w.2.2)

/-- A message that has just been parked with no room in the staging area holds cells (R477): the cells of its last packet.
DEDUCED (assumption 32). -/
def Core.holdParked (c : Core) (w : Nat × Nat × Nat × Nat) : Core :=
  { c with parked := c.parked.map (fun m => if m.inCells && m.hold.isNone then { m with hold := some w } else m) }

/-- A packet of the transport with the collective units behind it, and what its ends cause. -/
def Core.packet (c : Core) (opcode : Nat) (k : Pkt) : Core :=
  let before := c.inCells k.dstQp.toNat
  let c := ((c.recvApong Core.collSink Core.collCtl opcode k).settleColl).flushSlow
  let form := ((c.qp? k.dstQp.toNat).map (·.form)).getD 0
  let fresh := c.parked.any (fun m => m.inCells && m.hold.isNone)
  let c := c.holdParked (unitOfPort k.port.val k.iface.val, k.vc.val, k.srcDev.toNat, frameCells form k.payload.length)
  c.useCells k (decide (before < c.inCells k.dstQp.toNat) || fresh)

/-! ### Commands -/

/-- STEP_CLOSE: every tile of the partition is closed and every statistics pass has finished (R298). -/
def execStepClose (p : PartId) (s : State) : Host.Outcome State Fault Refusal :=
  s.on (fun c => if c.canClose p.val then (c.stepClose p.val).agreeStart p.val else c)

/-- Whether GROUP_CMD runs a command (R470, R510). DEDUCED (assumption 28). -/
def Core.groupCmd (c : Core) (p g cmd : Nat) : Core :=
  if cmd = 1 then
    (if (c.part p).prog.isSome then c.wf Regs.COL_COLL_STATUS_CFG_ERR p 1 else c.formGroup p g)
  else if cmd = 2 then (c.dissolveGroup p g).settleColl
  else c.wf Regs.COL_COLL_STATUS_CFG_ERR p 1

/-- GROUP_FORM: GROUP_CMD with CMD 1 (R470, R472). -/
def execGroupForm (p : PartId) (g : Fin 16) (s : State) : Host.Outcome State Fault Refusal :=
  s.on (fun c => c.groupCmd p.val g.val 1)

/-- GROUP_DISSOLVE: GROUP_CMD with CMD 2 (R473). -/
def execGroupDissolve (p : PartId) (g : Fin 16) (s : State) : Host.Outcome State Fault Refusal :=
  s.on (fun c => c.groupCmd p.val g.val 2)

/-- COLL_DATA, COMMIT, REPLAY, COLL_ABORT, PROBE and PROBE_RESP packets (R480). -/
def execCollData (k : Pkt) (s : State) : Host.Outcome State Fault Refusal := s.on (fun c => c.packet 0x10 k)
def execCommit (k : Pkt) (s : State) : Host.Outcome State Fault Refusal := s.on (fun c => c.packet 0x11 k)
def execReplay (k : Pkt) (s : State) : Host.Outcome State Fault Refusal := s.on (fun c => c.packet 0x12 k)
def execCollAbort (k : Pkt) (s : State) : Host.Outcome State Fault Refusal := s.on (fun c => c.packet 0x13 k)
def execProbe (k : Pkt) (s : State) : Host.Outcome State Fault Refusal := s.on (fun c => c.packet 0x14 k)
def execProbeResp (k : Pkt) (s : State) : Host.Outcome State Fault Refusal := s.on (fun c => c.packet 0x15 k)

/-- COLL_TIMEOUT: the collective of operation `op` has sent and received nothing for COLL_TIMEOUT_MS (R507). -/
def execCollTimeout (op : Nat) (s : State) : Host.Outcome State Fault Refusal :=
  s.on (fun c => match c.coll? op with
    | none => c
    | some k =>
      if k.ended then c
      else match c.ring k.part k.group with
        | some r => if k.kind = kCKPT then c.endColl k St.TIMEOUT else (c.abortColl k r St.TIMEOUT none).settleColl
        | none => c.endColl k St.TIMEOUT)

/-- A write of PROBE_CMD (R501): ignored while BUSY, or without GO. -/
def Core.probeCmd (c : Core) (w : Nat) : Core :=
  if !bitOf w 23 || c.flag Regs.COL_PROBE_STATUS_BUSY then c
  else
    let p := bits w 3 0
    let n := bits w 19 4
    let c := c.wf Regs.COL_PROBE_STATUS_BUSY 0 1
    let st := c.qpIssue p n none
    if st ≠ 0 then c.probeEnd st
    else Core.probePump 2 { c with probe := some { part := p, qp := n, path := bits w 22 20, kib := bits w 55 32, left := 1 } }

/-- PROBE_CMD: PF0 starts a probe by writing PROBE_CMD (R501). -/
def execProbeCmd (w : Word) (s : State) : Host.Outcome State Fault Refusal := s.on (fun c => c.probeCmd w.toNat)

end Sys2Proof.Machine
end

