-- ==== Sys2Proof/Machine/RmaRows.lean ====
section
/-! DEFINITION. RmaRows.lean: the commands of the Apong transport (R437-R465): received packets, time limits, credits, queue pairs,
regions and context fetches. -/

namespace Sys2Proof.Machine

/-! ### Received packets (R434, R455) -/

def execWrite (k : Pkt) (s : State) : Host.Outcome State Fault Refusal := s.on (fun c => c.packet 0x01 k)
def execSend (k : Pkt) (s : State) : Host.Outcome State Fault Refusal := s.on (fun c => c.packet 0x02 k)
def execReadReq (k : Pkt) (s : State) : Host.Outcome State Fault Refusal := s.on (fun c => c.packet 0x03 k)
def execReadResp (k : Pkt) (s : State) : Host.Outcome State Fault Refusal := s.on (fun c => c.packet 0x04 k)
def execAtomicReq (k : Pkt) (s : State) : Host.Outcome State Fault Refusal := s.on (fun c => c.packet 0x05 k)
def execAtomicResp (k : Pkt) (s : State) : Host.Outcome State Fault Refusal := s.on (fun c => c.packet 0x06 k)
def execDone (k : Pkt) (s : State) : Host.Outcome State Fault Refusal := s.on (fun c => c.packet 0x08 k)
def execNak (k : Pkt) (s : State) : Host.Outcome State Fault Refusal := s.on (fun c => c.packet 0x09 k)
def execStatus (k : Pkt) (s : State) : Host.Outcome State Fault Refusal := s.on (fun c => c.packet 0x0A k)
def execStatusReq (k : Pkt) (s : State) : Host.Outcome State Fault Refusal := s.on (fun c => c.packet 0x0B k)
def execCredit (k : Pkt) (s : State) : Host.Outcome State Fault Refusal := s.on (fun c => Core.probePump 16384 (c.packet 0x0C k))
def execCreditReq (k : Pkt) (s : State) : Host.Outcome State Fault Refusal := s.on (fun c => c.packet 0x0D k)
def execCreditReturn (k : Pkt) (s : State) : Host.Outcome State Fault Refusal := s.on (fun c => c.packet 0x0E k)
def execAbort (k : Pkt) (s : State) : Host.Outcome State Fault Refusal := s.on (fun c => c.packet 0x0F k)

/-! ### Time limits of the sender and the receiver (R453, R454, R456) -/

/-- The message of an MSN: the own one, or the read response this device sends under it. -/
def QP.msg? (q : QP) (msn : Nat) (resp : Bool) : Option TxMsg := q.tx.find? (fun m => m.msn == msn && (m.kind == 4) == resp)

/-- Retries are spent: the operation ends with a status, and in the TIMEOUT case the queue pair enters ERROR (R456).
DEDUCED (assumption 34). -/
def Core.retriesSpent (c : Core) (n : Nat) (m : TxMsg) (st : Nat) : Core :=
  let c := c.endMsg n m.msn m.kind st
  if st = St.TIMEOUT ∧ m.kind ≠ 4 then c.qpError n st else c

/-- RTO_EXPIRY: no DONE for RTO after the last transmission of a message: STATUS_REQ, or the end after RETRY_LIMIT rounds. -/
def execRtoExpiry (qp : BitVec 16) (msn : BitVec 32) (resp : Bool) (s : State) : Host.Outcome State Fault Refusal :=
  s.on (fun c => match c.qp? qp.toNat with
    | none => c
    | some q => match q.msg? msn.toNat resp with
      | none => c
      | some m =>
        if m.waiting || m.next == 0 || q.state != qREADY then c
        else if c.retryLimit q.part ≤ m.rounds then ((c.retriesSpent qp.toNat m St.TIMEOUT).settleColl).flushSlow
        else (c.updMsg qp.toNat m.msn m.kind (fun m => { m with rounds := m.rounds + 1 })).control q 0x0B m.msn [])

/-- BACKOFF_EXPIRY: after the back-off of a NAK TIMEOUT or CONTEXT_UNAVAILABLE the whole message is sent again (R456); `st` is the
status that the NAK carried. -/
def execBackoffExpiry (qp : BitVec 16) (msn : BitVec 32) (context : Bool) (s : State) : Host.Outcome State Fault Refusal :=
  s.on (fun c => match c.qp? qp.toNat with
    | none => c
    | some q => match q.msg? msn.toNat false with
      | none => c
      | some m =>
        if !m.waiting then c
        else if c.retryLimit q.part ≤ m.tries then
          ((c.retriesSpent qp.toNat m (if context then St.CONTEXT else St.TIMEOUT)).settleColl).flushSlow
        else (c.updMsg qp.toNat m.msn m.kind (fun m => { m with waiting := false, next := 0, base := 0, again := [], got := [] })).pump qp.toNat)

/-- REASSEMBLY_TIMEOUT: a record that has had no packet for REASM_TIMEOUT is freed; a SEND buffer stays posted (R454). -/
def execReassemblyTimeout (qp : BitVec 16) (msn : BitVec 32) (s : State) : Host.Outcome State Fault Refusal :=
  s.on (fun c => c.updQp qp.toNat (fun q => match q.rx.find? (fun r => r.msn == msn.toNat && r.done.isNone) with
    | none => q
    | some r => { q with rx := q.rx.filter (fun x => x.msn != msn.toNat), bufs := r.buf.toList ++ q.bufs }))

/-! ### Credits (R420, R458-R461) -/

/-- CREDIT_UPDATE: the cells freed for a sender go back to it; while requests wait, those above its share go to them (R420,
R459). -/
def execCreditUpdate (port : Fin 8) (iface : Fin 2) (vc : Fin 16) (dev : BitVec 14) (s : State) : Host.Outcome State Fault Refusal :=
  s.on (fun c =>
    let u := unitOfPort port.val iface.val
    let senders := (c.rxGrants.filter (fun g => g.unit == u && g.vc == vc.val)).length
    match c.rxGrants.find? (fun g => g.unit == u && g.vc == vc.val && g.dev == dev.toNat) with
    | none => c
    | some g =>
      if g.freed = 0 then c
      else
        let waiting := c.creditReqs.any (fun r => r.unit == u && r.vc == vc.val)
        let share := c.rf Regs.FAB_VC_CFG_CELLS (vc.val + 16 * u) / max senders 1
        let grant := (g.limit - g.consumed) + g.freed + g.kept
        let keep := if waiting then min g.freed (grant - share) else 0
        let c := c.updGrant u vc.val dev.toNat (fun g => { g with limit := g.limit + (g.freed - keep), freed := 0 })
        let c := if g.freed - keep = 0 then c else c.sendCredit u vc.val dev.toNat
        c.serveRequests)

/-- CREDIT_IDLE_RETURN: nothing sent on an interface and VC to a device for 100 µs (R460). -/
def execCreditIdleReturn (port : Fin 8) (iface : Fin 2) (vc : Fin 16) (dev : BitVec 14) (s : State) : Host.Outcome State Fault Refusal :=
  s.on (fun c =>
    let u := unitOfPort port.val iface.val
    let x := c.credit u vc.val dev.toNat
    if x.granted then (c.setCredit u vc.val dev.toNat {}).creditPacket u dev.toNat 0x0E vc.val x.consumed else c)

/-- CREDIT_REPEAT: a receiver repeats its latest CREDIT to a sender whose limit has changed (R461). -/
def execCreditRepeat (port : Fin 8) (iface : Fin 2) (vc : Fin 16) (dev : BitVec 14) (s : State) : Host.Outcome State Fault Refusal :=
  s.on (fun c =>
    let u := unitOfPort port.val iface.val
    match c.rxGrants.find? (fun g => g.unit == u && g.vc == vc.val && g.dev == dev.toNat) with
    | some g => if g.changed then
        (c.updGrant u vc.val dev.toNat (fun g => { g with changed := false })).creditPacket u dev.toNat 0x0C vc.val g.limit
      else c
    | none => c)

/-- CREDIT_REQ_RETRY: a request that has had no answer is repeated after 10 µs (R458). -/
def execCreditReqRetry (port : Fin 8) (iface : Fin 2) (vc : Fin 16) (dev : BitVec 14) (s : State) : Host.Outcome State Fault Refusal :=
  s.on (fun c =>
    let u := unitOfPort port.val iface.val
    let x := c.credit u vc.val dev.toNat
    if x.requested && !x.granted && c.linkUp u then
      c.creditPacket u dev.toNat 0x0D vc.val (c.grantCells.get (fun _ => 0x800) vc.val)
    else c)

/-! ### Queue pairs and regions (R437, R438, R443) -/

/-- QP_CREATE: QP_CMD with CREATE (R437). -/
def execQpCreate (p : PartId) (qp : BitVec 16) (s : State) : Host.Outcome State Fault Refusal := s.on (fun c => c.qpCreate p.val qp.toNat)

/-- QP_DESTROY: QP_CMD with DESTROY (R438). -/
def execQpDestroy (p : PartId) (qp : BitVec 16) (s : State) : Host.Outcome State Fault Refusal :=
  s.on (fun c => (c.qpDestroy p.val qp.toNat).settleColl)

/-- REGION_INVAL: a key leaves the cache (R443). -/
def execRegionInval (p : PartId) (key : BitVec 18) (s : State) : Host.Outcome State Fault Refusal := s.on (fun c => c.regionInval p.val key.toNat)

/-- REGION_INVAL_DRAINED: no message admitted under an invalidated entry remains, so BUSY clears (R443). -/
def execRegionInvalDrained (p : PartId) (s : State) : Host.Outcome State Fault Refusal :=
  s.on (fun c =>
    if c.invals.any (fun e => e.1 == p.val && c.keyBusy e.1 e.2) then c
    else ({ c with invals := c.invals.filter (fun e => e.1 != p.val) } : Core).wf Regs.RMA_REGION_INVAL_BUSY p.val 0)

/-! ### The context cache (R462-R464) -/

/-- CONTEXT_FETCH_DONE: a context fetch completes, or fails with a status (R462-R464). -/
def execContextFetchDone (qp : BitVec 16) (status : BitVec 16) (s : State) : Host.Outcome State Fault Refusal :=
  s.on (fun c =>
    let n := qp.toNat
    match c.qp? n with
    | none => c
    | some q =>
      if !q.fetching then c
      else if status = 0 && q.destroying then ((c.destroyNow q.part n).settleColl).flushSlow
      else if status = 0 then
        let (c, ok) := c.cacheQp n
        if !ok then c
        else
          let (c, ws) := c.takeWaiting n
          let c := c.updQp n (fun q => { q with bufs := q.bufs.map (fun b => { b with waits := false }) })
          let c := (threadAll (fun c (w : Nat × Pkt) => c.deliver Core.collSink Core.collCtl n w.1 w.2) c ws).holdParked (0, 0, 0, 0)
          (c.pump n).settleColl.flushSlow
      else
        let (c, ws) := c.takeWaiting n
        let c := c.updQp n (fun q => { q with fetching := false })
        let msgs := ws.map (fun w => w.2.msn.toNat)
        let c := threadAll (fun c m => c.nak q m St.CONTEXT) c msgs.eraseDups
        let c := c.evt Cls.item (Src.port q.port) q.part 0x0A03 (n + status.toNat * 2 ^ 16)
        let c := c.wf Regs.RMA_RMA_PSTATUS_FETCH_ERR q.part 1
        let c := threadAll (fun c (m : TxMsg) => c.endMsg n m.msn m.kind St.CONTEXT) c (q.tx.filter (fun m => m.kind != 4))
        let c := threadAll (fun c (b : RecvBuf) => c.finishOp b.op St.CONTEXT) c (q.bufs.filter (·.waits))
        let c := c.updQp n (fun q => { q with bufs := q.bufs.filter (fun b => !b.waits) })
        ((if q.destroying then c.destroyNow q.part n else c).settleColl).flushSlow)

end Sys2Proof.Machine
end

