-- ==== Sys2Proof/Machine/Fabric.lean ====
section
/-! DEFINITION. Fabric.lean: the fabric ports (R398-R429): spare lanes, links, frame acceptance, raw rings, timestamps. -/

namespace Sys2Proof.Machine

/-! ### Spare lanes (R401-R407) -/

/-- The interface that a lane of an engine carries (R399). -/
def Core.laneUnit (c : Core) (e lane : Nat) : Nat :=
  let port := 2 * e + lane / 4
  unitOfPort port (if c.flag Regs.FAB_PORT_CTRL_SPLIT (2 * port) then lane % 4 / 2 else 0)

def LaneSwap.info (w : LaneSwap) : Nat := w.lane + b2n w.rx * 2 ^ 3 + w.trigger * 2 ^ 4

/-- The spare of a direction is in use. -/
def Core.spareUsed (c : Core) (e : Nat) (rx : Bool) : Bool :=
  if rx then c.flag Regs.FAB_OE_SPARE_RX_USED e else c.flag Regs.FAB_OE_SPARE_TX_USED e

/-- A replacement fails (R406). -/
def Core.laneFailed (c : Core) (w : LaneSwap) (cause : Nat) : Core :=
  c.evt Cls.link (Src.optical w.engine) devPart 0x0904 (w.info + cause * 2 ^ 6)

/-- Start the oldest waiting replacement of an engine that runs none (R402, R403 step 1), unless an activation holds (R633). -/
def Core.nextLane (c : Core) (e : Nat) : Nat → Core
  | 0 => c
  | n + 1 =>
    if c.fwHold || c.laneSwaps.any (fun w => w.engine == e && w.running) then c
    else match c.laneSwaps.find? (fun w => w.engine == e) with
      | none => c.wf Regs.FAB_OE_STATUS_SWITCHING e 0
      | some w =>
        if c.spareUsed e w.rx then
          let c : Core := { c with laneSwaps := c.laneSwaps.erase w }
          (c.laneFailed w 0).nextLane e n
        else
          let c : Core := { c with laneSwaps := c.laneSwaps.replace w { w with running := true } }
          (c.wf Regs.FAB_OE_STATUS_SWITCHING e 1).evt Cls.info (Src.optical e) devPart 0x0902 w.info

/-- The replacements that an activation has held start (R633). -/
def Core.releaseLanes (c : Core) : Core :=
  threadAll (fun c e => if c.laneSwaps.any (fun w => w.engine == e) then c.nextLane e (c.laneSwaps.length + 1) else c) c (List.range 4)

/-- A lane path needs the spare (R401). A sampled fault of a path that waits for it or gets it is the same trigger; a request of PF0 is
one of its own. -/
def Core.spareLane (c : Core) (e lane : Nat) (rx : Bool) (trigger : Nat) : Core :=
  let w : LaneSwap := { engine := e, lane := lane, rx := rx, trigger := trigger }
  let c := if trigger = 2 then c
    else if rx then c.wf Regs.FAB_OE_STATUS_RX_OK e (c.rf Regs.FAB_OE_STATUS_RX_OK e &&& (0x1FF - 2 ^ lane))
    else c.wf Regs.FAB_OE_STATUS_TX_OK e (c.rf Regs.FAB_OE_STATUS_TX_OK e &&& (0x1FF - 2 ^ lane))
  if trigger ≠ 2 ∧ c.laneSwaps.any (fun x => x.engine == e && x.lane == lane && x.rx == rx) then c
  else ({ c with laneSwaps := c.laneSwaps ++ [w] } : Core).nextLane e (c.laneSwaps.length + 2)

/-- LANE_SPARE_TRIGGER: a sampled fault of a lane: launch power or bias (transmit), symbol errors (receive) (R401). -/
def execLaneSpareTrigger (e : Fin 4) (lane : Fin 8) (rx : Bool) (s : State) : Host.Outcome State Fault Refusal :=
  s.on (fun c => c.spareLane e.val lane.val rx (if rx then 1 else 0))

/-- A write of OE_SPARE_REQ (R401). -/
def Core.oeSpareReq (c : Core) (e w : Nat) : Core := if bitOf w 4 then c.spareLane e (bits w 2 0) (bitOf w 3) 2 else c

/-- OE_SPARE_REQ: PF0 asks for the spare (R401, R406). -/
def execOeSpareReq (e : Fin 4) (w : Word) (s : State) : Host.Outcome State Fault Refusal := s.on (fun c => c.oeSpareReq e.val w.toNat)

/-- TX_SPARE_PAUSE: calibration has ended, so the transmit pause starts and the selector moves the fibre (R403 steps 2 to 4). -/
def execTxSparePause (e : Fin 4) (s : State) : Host.Outcome State Fault Refusal :=
  s.on (fun c => match c.laneSwaps.find? (fun w => w.engine == e.val && w.running && !w.rx && !w.paused) with
    | none => c
    | some w =>
      let c : Core := { c with laneSwaps := c.laneSwaps.map (fun x => if x = w then { x with paused := true } else x) }
      c.wf Regs.FAB_PORT_STATUS_PAUSED (c.laneUnit e.val w.lane) 1)

/-! ### Raw transmit ring (R423, R425) -/

/-- A stamp: the timestamp of the last tick and the nanoseconds since, corrected and clamped below the next tick (R424).
DESIGN CHOICE (assumption 36). -/
def Core.stamp (c : Core) (ns : Nat) (corr : Int) : Nat :=
  min ((((c.ts + ns : Nat) : Int) + corr).toNat) (c.ts + Config.tickNs - 1)

/-- Put a transmit stamp into the queue of 16 (R425). -/
def Core.queueStamp (c : Core) (u tag : Nat) : Core :=
  let (w, c) := c.fresh
  let t := c.stamp (w.toNat % 40) (c.rf Regs.FAB_PTP_LAT_TX_LAT u : Nat)
  let q := c.txStamps.get (fun _ => []) u
  if 16 ≤ q.length then c.wf Regs.FAB_TX_TS_TAG_LOST u 1
  else { c with txStamps := c.txStamps.put (fun _ => []) u (q ++ [(tag, t)]) }

/-- Slots of a ring whose size is valid. -/
def rawSlots (n : Nat) : Bool := isPow2 n && decide (16 ≤ n) && decide (n ≤ 4096)

/-- Send the filled slots of a raw transmit ring; `fail` tells that the host-memory read fails (R423). -/
def Core.rawSend (c : Core) (u : Nat) (fail : Bool) : Nat → Core
  | 0 => c
  | n + 1 =>
    let size := c.rf Regs.FAB_RAW_TX_SIZE_SLOTS u
    let head := c.rf Regs.FAB_RAW_TX_HEAD_HEAD u
    if !c.flag Regs.FAB_RAW_TX_SIZE_ENABLE u || !rawSlots size || head == c.rf Regs.FAB_RAW_TX_TAIL_TAIL u || !c.linkUp u ||
        c.flag Regs.FAB_PORT_STATUS_PAUSED u then c
    else if fail then (c.wf Regs.FAB_RAW_STATUS_TX_READ_ERR u 1).wf Regs.FAB_RAW_TX_SIZE_ENABLE u 0
    else
      let a := c.rf Regs.FAB_RAW_TX_BASE_BASE u * 4096 + 10240 * head
      let h := c.readHost a 32
      let f := fun (lo k : Nat) => leNat ((h.drop lo).take k)
      let len := f 0 2
      let ok := decide (60 ≤ len) && decide (len ≤ 9212) && f 2 1 / 2 == 0 && f 3 1 == 0 && f 6 2 == 0 && f 8 8 == 0 && f 16 16 == 0
      let c := c.wf Regs.FAB_RAW_TX_HEAD_HEAD u ((head + 1) % size)
      let c := if !ok then c.count Regs.FAB_TX_RAW_REFUSED_COUNT u
        else
          let c := (c.count Regs.FAB_TX_FRAMES_COUNT u).count Regs.FAB_TX_BYTES_COUNT u (len + 4)
          let c := c.count Regs.FAB_VC_TX_CELLS_COUNT (11 + 16 * u) (ceilDiv (len + 4) 256)
          let c := c.send 4 (u :: (c.readHost (a + 32) len).map (·.toNat))
          if bitOf (f 2 1) 0 then c.queueStamp u (f 4 2) else c
      (c.msix 0 (c.rf Regs.FAB_RAW_VECTOR_TX_VEC u)).rawSend u fail n

/-- A write of RAW_TX_TAIL: transmission starts. DEDUCED (assumption 37). -/
def Core.rawTxTail (c : Core) (u v : Nat) (fail : Bool) : Core :=
  let size := c.rf Regs.FAB_RAW_TX_SIZE_SLOTS u
  if rawSlots size && decide (size ≤ v) then c.wf Regs.FAB_RAW_STATUS_CFG_ERR u 1
  else (c.wf Regs.FAB_RAW_TX_TAIL_TAIL u v).rawSend u fail 4096

/-- RAW_TX_TAIL: the host has filled transmit slots (R423). -/
def execRawTxTail (port : Fin 8) (iface : Fin 2) (v : BitVec 12) (hostFail : Bool) (s : State) : Host.Outcome State Fault Refusal :=
  s.on (fun c => c.rawTxTail (unitOfPort port.val iface.val) v.toNat hostFail)

/-- TX_TS_TAG: a read takes the oldest stamp out of the queue (R425). DESIGN CHOICE (assumption 36). -/
def execTxTsTag (port : Fin 8) (iface : Fin 2) (s : State) : Host.Outcome State Fault Refusal :=
  s.on (fun c =>
    let u := unitOfPort port.val iface.val
    let q := c.txStamps.get (fun _ => []) u
    let lost := c.rf Regs.FAB_TX_TS_TAG_LOST u
    let e := (q.head?).getD (0, 0)
    let v := e.1 + b2n (!q.isEmpty) * 2 ^ 16 + lost * 2 ^ 17
    let c := if q.isEmpty then c else c.wr Regs.FAB_TX_TS_TIME u e.2
    let c := c.wr Regs.FAB_TX_TS_TAG u (e.1 + b2n (!q.isEmpty) * 2 ^ 16)
    { c with txStamps := c.txStamps.put (fun _ => []) u (q.drop 1), resp := .data (BitVec.ofNat 64 v) })

/-- SNAP: PF0 asks for snapshots, which the next tick takes (R427). -/
def Core.snap (c : Core) (u groups : Nat) : Core :=
  { c with snapReq := c.snapReq.upd (fun _ => 0) u (fun g => g ||| groups % 16) }

def execSnap (port : Fin 8) (iface : Fin 2) (groups : BitVec 4) (s : State) : Host.Outcome State Fault Refusal :=
  s.on (fun c => c.snap (unitOfPort port.val iface.val) groups.toNat)

/-- Byte offsets within a port block of the counters of a group. -/
def snapRange : Nat → Nat × Nat
  | 0 => (0x200, 0x280)
  | 1 => (0x280, 0x300)
  | 2 => (0x300, 0x400)
  | _ => (0x400, 0x580)

/-- Take the snapshots asked for: each counter is copied and cleared, and SNAP_TICK takes the tick (R427). -/
def Core.takeSnaps (c : Core) : Core :=
  let one := fun (c : Core) (e : Nat × Nat) =>
    let u := e.1
    let base := 0x600000 + 0x8000 * (u % 2) + 0x10000 * (u / 2)
    let grp := fun (c : Core) (g : Nat) =>
      if !bitOf e.2 g then c
      else
        let (lo, hi) := snapRange g
        let cnt := fun (c : Core) (k : Nat) =>
          let o := base + lo + 8 * k
          let v := c.regs.get (fun _ => 0) o
          { c with regs := (c.regs.put (fun _ => 0) (o + 0x1000) v).del o }
        threadAll cnt c (List.range ((hi - lo) / 8))
    (threadAll grp c [0, 1, 2, 3]).wr Regs.FAB_SNAP_TICK u c.tick
  threadAll one { c with snapReq := [] } c.snapReq

/-! ### Links (R408-R411, R465) -/

/-- INFO0 of LINK_UP. -/
def Core.linkInfo (c : Core) (u : Nat) : Nat := u / 2 + u % 2 * 8 + b2n (c.flag Regs.FAB_PORT_CTRL_SPLIT (2 * (u / 2))) * 16

/-- Queue pairs of a partition that use an interface and no other interface that is up. -/
def Core.onlyPath (c : Core) (p u : Nat) : List QP :=
  c.qps.filter (fun q => q.part == p && q.paths.any (fun a => unitOfPort a.1 a.2 == u) &&
    !q.paths.any (fun a => unitOfPort a.1 a.2 != u && c.linkUp (unitOfPort a.1 a.2)))

/-- The link of an interface goes down (R410, R411, R465): queue pairs left with no path end their operations with LINK_DOWN, the
others go on over their remaining paths. -/
def Core.linkLost (c : Core) (u cause : Nat) : Core :=
  let was := c.flag Regs.FAB_PORT_STATUS_LINK_UP u
  let c := ((c.wf Regs.FAB_PORT_STATUS_LINK_UP u 0).wf Regs.FAB_PORT_STATUS_PCS_LOCK u 0).wf Regs.FAB_PORT_STATUS_FEC_LOCK u 0
  let c := c.wf Regs.FAB_PORT_STATUS_PAUSED u 0
  if !was then c
  else
    let c := c.count Regs.FAB_LINK_DOWNS_COUNT u
    let c := c.evt Cls.link (Src.port (u / 2)) devPart 0x0901 (u / 2 + u % 2 * 8 + cause * 2 ^ 4)
    let one := fun (c : Core) (p : Nat) =>
      let qs := (c.onlyPath p u).filter (fun q => q.state == qREADY)
      if qs.isEmpty then c
      else
        let c := c.evt Cls.link (Src.port (u / 2)) p 0x0A01 (u / 2 + u % 2 * 8 + qs.length * 2 ^ 16)
        threadAll (fun c (q : QP) => c.endQpOps q.num St.LINK_DOWN) c qs
    ((threadAll one c (List.range 16)).settleColl).flushSlow.pumpAll

/-- The link of an interface comes up (R409, R461, R465). -/
def Core.linkRaised (c : Core) (u : Nat) : Core :=
  let gained := (List.range 16).map (fun p => (p, ((c.onlyPath p u).filter (fun q => q.state == qREADY)).length))
  let c := ((c.wf Regs.FAB_PORT_STATUS_LINK_UP u 1).wf Regs.FAB_PORT_STATUS_LOCAL_FAULT u 0).wf Regs.FAB_PORT_STATUS_REMOTE_FAULT u 0
  let c := c.evt Cls.link (Src.port (u / 2)) devPart 0x0900 (c.linkInfo u)
  let c : Core := { c with
    txCredit := c.txCredit.keepIf (fun k => k / 16384 / 16 != u)
    rxGrants := c.rxGrants.filter (fun g => g.unit != u)
    creditReqs := c.creditReqs.filter (fun r => r.unit != u) }
  let up := fun (c : Core) (e : Nat × Nat) =>
    if e.2 = 0 then c else c.evt Cls.link (Src.port (u / 2)) e.1 0x0A02 (u / 2 + u % 2 * 8 + e.2 * 2 ^ 16)
  ((threadAll up c gained).pumpAll).rawSend u false 4096

/-- Whether an interface exists: interface 1 only in split mode. -/
def Core.unitExists (c : Core) (u : Nat) : Bool := u % 2 == 0 || c.flag Regs.FAB_PORT_CTRL_SPLIT (2 * (u / 2))

/-- Lanes of an interface within its engine (R399), as a mask. -/
def Core.laneMask (c : Core) (u : Nat) : Nat :=
  let lo := 4 * (u / 2 % 2)
  if c.flag Regs.FAB_PORT_CTRL_SPLIT (2 * (u / 2)) then 3 * 2 ^ (lo + 2 * (u % 2)) else 15 * 2 ^ lo

/-- A write of PORT_CTRL (R408, R409): SPLIT changes only while both interfaces are disabled. DEDUCED (assumption 38). -/
def Core.portCtrl (c : Core) (u w : Nat) : Core :=
  let port := u / 2
  let split := if u % 2 = 0 then bits w 1 1 else c.rf Regs.FAB_PORT_CTRL_SPLIT u
  let off := !c.flag Regs.FAB_PORT_CTRL_ENABLE (2 * port) && !c.flag Regs.FAB_PORT_CTRL_ENABLE (2 * port + 1)
  if !c.unitExists u then c
  else if split ≠ c.rf Regs.FAB_PORT_CTRL_SPLIT u ∧ !off then c.wf Regs.FAB_PORT_STATUS_CFG_ERR u 1
  else
    let was := c.flag Regs.FAB_PORT_CTRL_ENABLE u
    let c := c.wr Regs.FAB_PORT_CTRL u (bits w 0 0 + split * 2 + bits w 3 2 * 4)
    let m := c.laneMask u
    let e := port / 2
    if bitOf w 0 && !was then
      (c.wf Regs.FAB_PORT_STATUS_LOCAL_FAULT u 1).wf Regs.FAB_OE_STATUS_TX_OK e (c.rf Regs.FAB_OE_STATUS_TX_OK e ||| m)
    else if !bitOf w 0 && was then
      let c := (c.wf Regs.FAB_OE_STATUS_TX_OK e (c.rf Regs.FAB_OE_STATUS_TX_OK e &&& (0x1FF - m))).wf Regs.FAB_OE_STATUS_RX_OK e
        (c.rf Regs.FAB_OE_STATUS_RX_OK e &&& (0x1FF - m))
      ((c.linkLost u 4).wf Regs.FAB_PORT_STATUS_LOCAL_FAULT u 0).wf Regs.FAB_PORT_STATUS_REMOTE_FAULT u 0
    else c

/-- PORT_ENABLE: PF0 writes PORT_CTRL (R409). -/
def execPortEnable (port : Fin 8) (iface : Fin 2) (w : Word) (s : State) : Host.Outcome State Fault Refusal :=
  s.on (fun c => c.portCtrl (unitOfPort port.val iface.val) w.toNat)

/-- PCS_LOCK: light has come and the lanes and the PCS have locked (R409 steps 2 to 4); the wait without a fault starts, so neither fault
is seen now. DEDUCED (assumption 38). -/
def execPcsLock (port : Fin 8) (iface : Fin 2) (s : State) : Host.Outcome State Fault Refusal :=
  s.on (fun c =>
    let u := unitOfPort port.val iface.val
    if !c.flag Regs.FAB_PORT_CTRL_ENABLE u || !c.unitExists u || c.lost then c
    else
      let e := port.val / 2
      let c := c.wf Regs.FAB_OE_STATUS_RX_OK e (c.rf Regs.FAB_OE_STATUS_RX_OK e ||| c.laneMask u)
      let c := (c.wf Regs.FAB_PORT_STATUS_PCS_LOCK u 1).wf Regs.FAB_PORT_STATUS_FEC_LOCK u 1
      (c.wf Regs.FAB_PORT_STATUS_LOCAL_FAULT u 0).wf Regs.FAB_PORT_STATUS_REMOTE_FAULT u 0)

/-- LINK_UP: 10 ms without a fault have passed (R409 step 5). -/
def execLinkUp (port : Fin 8) (iface : Fin 2) (s : State) : Host.Outcome State Fault Refusal :=
  s.on (fun c =>
    let u := unitOfPort port.val iface.val
    if c.flag Regs.FAB_PORT_CTRL_ENABLE u && c.flag Regs.FAB_PORT_STATUS_PCS_LOCK u && !c.flag Regs.FAB_PORT_STATUS_LINK_UP u && !c.lost &&
        !c.flag Regs.FAB_PORT_STATUS_LOCAL_FAULT u && !c.flag Regs.FAB_PORT_STATUS_REMOTE_FAULT u then c.linkRaised u else c)

/-- LINK_FAULT: a fault of an interface is counted (R410); cause as in LINK_DOWN, with the uncorrectable codewords of the
millisecond for cause 3. -/
def execLinkFault (port : Fin 8) (iface : Fin 2) (cause : Fin 4) (codewords : BitVec 16) (s : State) : Host.Outcome State Fault Refusal :=
  s.on (fun c =>
    let u := unitOfPort port.val iface.val
    if !c.flag Regs.FAB_PORT_CTRL_ENABLE u then c
    else
      let c := c.count Regs.FAB_FEC_UNCORR_CW_COUNT u codewords.toNat
      match cause.val with
      | 0 | 1 => ((c.wf Regs.FAB_PORT_STATUS_PCS_LOCK u 0).wf Regs.FAB_PORT_STATUS_FEC_LOCK u 0).wf Regs.FAB_PORT_STATUS_LOCAL_FAULT u 1
      | 2 => c.wf Regs.FAB_PORT_STATUS_REMOTE_FAULT u 1
      | _ => if c.rf Regs.FAB_LINK_CFG_UNCORR_LIMIT u < codewords.toNat then c.wf Regs.FAB_PORT_STATUS_LOCAL_FAULT u 1 else c)

/-- LINK_DOWN: a fault has lasted longer than HOLD_US (R410). -/
def execLinkDown (port : Fin 8) (iface : Fin 2) (cause : Fin 4) (s : State) : Host.Outcome State Fault Refusal :=
  s.on (fun c =>
    let u := unitOfPort port.val iface.val
    if c.flag Regs.FAB_PORT_STATUS_LINK_UP u && (c.flag Regs.FAB_PORT_STATUS_LOCAL_FAULT u || c.flag Regs.FAB_PORT_STATUS_REMOTE_FAULT u) then
      c.linkLost u cause.val
    else c)

/-- LANE_SPARED: the re-lock allowance of a transmit replacement or the take-over of a receive replacement ends, after a pause of
`ns`; or (`ok` false) the spare did not calibrate or lock (R403, R405, R406). DEDUCED (assumption 38). -/
def execLaneSpared (e : Fin 4) (ok : Bool) (ns : BitVec 16) (s : State) : Host.Outcome State Fault Refusal :=
  s.on (fun c => match c.laneSwaps.find? (fun w => w.engine == e.val && w.running && (w.rx || w.paused || !ok)) with
    | none => c
    | some w =>
      let u := c.laneUnit e.val w.lane
      let c : Core := { c with laneSwaps := c.laneSwaps.erase w }
      if !ok && !w.paused then (c.laneFailed w 1).nextLane e.val (c.laneSwaps.length + 1)
      else
        let r : SpareRec := { kind := if w.rx then 3 else 2, unit := e.val, sub := w.lane }
        let c : Core := { c with spareQ := c.spareQ ++ [r] }
        let pause := if w.rx then 0 else ns.toNat
        let c := if w.rx then
            ((c.wf Regs.FAB_OE_SPARE_RX_FOR e.val w.lane).wf Regs.FAB_OE_SPARE_RX_USED e.val 1).wf Regs.FAB_OE_STATUS_RX_OK e.val
              (c.rf Regs.FAB_OE_STATUS_RX_OK e.val ||| 2 ^ w.lane)
          else
            let c := (c.wf Regs.FAB_OE_SPARE_TX_FOR e.val w.lane).wf Regs.FAB_OE_SPARE_TX_USED e.val 1
            let c := c.wf Regs.FAB_OE_STATUS_TX_OK e.val (c.rf Regs.FAB_OE_STATUS_TX_OK e.val ||| 2 ^ w.lane)
            (c.count Regs.FAB_TX_PAUSE_NS_COUNT u pause).wf Regs.FAB_PORT_STATUS_PAUSED u 0
        let c := c.evt Cls.info (Src.optical e.val) devPart 0x0903 w.info pause
        ((c.nextLane e.val (c.laneSwaps.length + 1)).pumpAll).rawSend u false 4096)

/-! ### Frames (R412-R419, R423) -/

/-- Bit b of the hash filter (R414). -/
def Core.hashBit (c : Core) (u dst : Nat) : Bool :=
  let b := crc32 (leBytes 6 dst) / 2 ^ 23
  bitOf (c.rf Regs.FAB_HASH_BINS (b / 64 + 8 * u)) (b % 64)

/-- The address filter (R413). -/
def Core.accepts (c : Core) (u dst : Nat) : Bool :=
  if c.flag Regs.FAB_PORT_CTRL_PROMISC u then true
  else if dst = 2 ^ 48 - 1 then c.flag Regs.FAB_PORT_CTRL_BCAST_EN u
  else if bitOf dst 0 then c.hashBit u dst
  else (List.range 4).any (fun i => c.flag Regs.FAB_UCAST_EN (i + 4 * u) && c.rf Regs.FAB_UCAST_ADDR (i + 4 * u) == dst)

/-- Cells of a VC that packets hold. -/
def Core.heldCells (c : Core) (u vc : Nat) : Nat := ((c.rxGrants.filter (fun g => g.unit == u && g.vc == vc)).map (·.kept)).foldl (· + ·) 0

/-- A frame goes to the raw receive ring (R423). DEDUCED (assumption 35). -/
def Core.rawReceive (c : Core) (u : Nat) (f : Frame) (ptp fail : Bool) : Core :=
  let size := c.rf Regs.FAB_RAW_RX_SIZE_SLOTS u
  let tail := c.rf Regs.FAB_RAW_RX_TAIL_TAIL u
  if !c.flag Regs.FAB_RAW_RX_SIZE_ENABLE u || !rawSlots size then c
  else if (tail + 1) % size = c.rf Regs.FAB_RAW_RX_HEAD_HEAD u then c.count Regs.FAB_RX_RAW_FULL_COUNT u
  else if fail then (c.wf Regs.FAB_RAW_STATUS_RX_WRITE_ERR u 1).wf Regs.FAB_RAW_RX_SIZE_ENABLE u 0
  else
    let stamp := c.stamp f.ns.val (-(c.rf Regs.FAB_PTP_LAT_RX_LAT u : Int))
    let h := leBytes 2 f.len.toNat ++ leBytes 1 (b2n ptp + 2 * b2n (f.vlans != 0)) ++ leBytes 1 f.iface.val ++ leBytes 4 0 ++
      leBytes 8 stamp ++ leBytes 16 0
    let c := c.writeHost (c.rf Regs.FAB_RAW_RX_BASE_BASE u * 4096 + 10240 * tail) (h ++ f.bytes)
    (c.wf Regs.FAB_RAW_RX_TAIL_TAIL u ((tail + 1) % size)).msix 0 (c.rf Regs.FAB_RAW_VECTOR_RX_VEC u)

/-- What a frame is (R415): Apong (0), an IEEE 1588 message for Beacon (1) or a raw frame (2). DEDUCED (assumption 35). -/
def Core.frameRule (c : Core) (u : Nat) (f : Frame) : Nat :=
  let ip := f.etherType == 0x0800 || f.etherType == 0x86DD
  let udp := fun (n : Nat) => ip && (f.udpPort.map (·.toNat)) == some n
  if 2 ≤ f.vlans.val then 2
  else if (f.etherType.toNat == c.rf Regs.FAB_APONG_CFG_ETHERTYPE u && c.flag Regs.FAB_APONG_CFG_RAW_EN u) || udp (c.rf Regs.FAB_APONG_CFG_UDP_PORT u) then 0
  else if (f.etherType == 0x88F7 || udp 319 || udp 320) && c.rf Regs.EVT_TS_CTRL_SRC == 2 && c.rf Regs.EVT_TS_CTRL_PTP_PORT == f.port.val then 1
  else 2

/-- A received frame (R412-R419). DEDUCED (assumption 35). -/
def Core.frame (c : Core) (f : Frame) (fail : Bool) : Core :=
  let u := unitOfPort f.port.val f.iface.val
  let len := f.len.toNat
  let cells := ceilDiv len 256
  if !c.linkUp u then c
  else if len < 64 ∨ 9216 < len then c.count Regs.FAB_RX_LEN_ERR_COUNT u
  else if !f.fcsOk then c.count Regs.FAB_RX_FCS_ERR_COUNT u
  else if !c.accepts u f.dst.toNat then c.count Regs.FAB_RX_FILTERED_COUNT u
  else
    let rule := c.frameRule u f
    let vc := if rule = 0 then (f.apong.map (·.2.vc.val)).getD 0 else 0
    let room := c.rf Regs.FAB_VC_CFG_CELLS (vc + 16 * u) - c.heldCells u vc
    let cover := match f.apong with
      | some (_, k) => vc == 0 || vc == 15 || (match c.rxGrants.find? (fun g => g.unit == u && g.vc == vc && g.dev == k.srcDev.toNat) with
          | some g => decide (cells ≤ g.limit - g.consumed)
          | none => false)
      | none => true
    if rule = 0 ∧ vc = 15 then c.count Regs.FAB_RX_PROT_DROPS_COUNT u
    else if rule = 0 ∧ !cover then (c.count Regs.FAB_RX_OVF_FRAMES_COUNT u).count Regs.FAB_RX_CREDIT_VIOL_COUNT u
    else if room < cells then c.count Regs.FAB_RX_OVF_FRAMES_COUNT u
    else
      let c := (c.count Regs.FAB_RX_FRAMES_COUNT u).count Regs.FAB_RX_BYTES_COUNT u len
      let c := c.count Regs.FAB_VC_RX_CELLS_COUNT (vc + 16 * u) cells
      if rule = 0 then
        match f.apong with
        | some (o, k) => c.packet o.toNat { k with port := f.port, iface := f.iface }
        | none => c.count Regs.RMA_MALFORMED_COUNT 0
      else if rule = 1 then (if c.flag Regs.FAB_PTP_CFG_COPY u then c.rawReceive u f true fail else c)
      else c.rawReceive u f false fail

/-- FRAME_RECEIVE: a frame has arrived; `hostFail` tells that a write of the raw ring would fail (R412-R423). -/
def execFrameReceive (f : Frame) (hostFail : Bool) (s : State) : Host.Outcome State Fault Refusal := s.on (fun c => c.frame f hostFail)

end Sys2Proof.Machine
end

