-- ==== Sys2Proof/Machine/Banks.lean ====
section
/-! DEFINITION. Banks.lean: bank power (R336-R344), bank swaps (R345-R348) and the wipe of Umbra (R352, R353). -/

namespace Sys2Proof.Machine

/-- The bits set in the low `n` bits of a word. -/
def bitsIn (n w : Nat) : List Nat := (List.range n).filter (bitOf w)

/-- A power request was refused (R340-R343). -/
def Core.pwrRefused (c : Core) (t : Nat) : Core := c.wf Regs.TILE_BANK_STATUS_PWR_REFUSED t 1

/-! ### Requests -/

/-- A write of BANK_OFF of physical tile `t`: every named bank that is not off is requested off (R337, R343). -/
def Core.bankOffWrite (c : Core) (t w : Nat) : Core :=
  if (c.logical t).isNone then c.pwrRefused t
  else
    let ask := (bitsIn 24 w).filter (fun b => c.bankState t b != bkOFF)
    { c with bankReqs := c.bankReqs ++ ask.map (fun b => (⟨t, b, false⟩ : BankReq)) }

/-- A write of BANK_RETAIN: refused in native mode and for Umbra banks (R341, R343). -/
def Core.bankRetainWrite (c : Core) (t w : Nat) : Core :=
  match c.logical t with
  | none => c.pwrRefused t
  | some l =>
    if !c.flag Regs.TILE_BANK_CFG_TX1_COMPAT t then c.pwrRefused t
    else
      let named := bitsIn 24 w
      let c := if named.any (isUmbra l) then c.pwrRefused t else c
      let ask := named.filter (fun b => !isUmbra l b && c.bankState t b != bkRETAIN)
      { c with bankReqs := c.bankReqs ++ ask.map (fun b => (⟨t, b, true⟩ : BankReq)) }

/-- A write of BANK_ON wakes the named banks that are off (R337, R343). -/
def Core.bankOnWrite (c : Core) (t w : Nat) : Core :=
  if (c.logical t).isNone then c.pwrRefused t
  else threadAll (fun c b => if c.bankState t b = bkOFF then c.wakeBank t b else c) c (bitsIn 24 w)

/-- Whether a bank holds part of the running program's stash reservation or of a CODE section (R340). -/
def Core.bankHeld (c : Core) (t b : Nat) : Bool :=
  match c.logical t, c.partOfGroup (groupOfPhys t) with
  | some l, some p => match (c.part p).prog with
    | some pr =>
      let top := if l % 16 < 8 then 0x2C0000 else 0x300000
      let pages := c.rf Regs.TILE_STASH_RES_PAGES t
      overlaps (b * bankBytes) bankBytes (top - 4096 * pages) (4096 * pages) ||
        pr.code.any (fun s => s.1 == l && overlaps (b * bankBytes) bankBytes s.2.1 s.2.2)
    | none => false
  | _, _ => false

/-- Whether a bank may enter RETAIN: its group is in TX1 compatibility mode and it is no Umbra bank (R341). -/
def Core.retains (c : Core) (t b : Nat) : Bool := c.flag Regs.TILE_BANK_CFG_TX1_COMPAT t && !isUmbra ((c.logical t).getD 0) b

/-- BANK_OFF (R337). -/
def execBankOff (t : PTile) (banks : BitVec 24) (s : State) : Host.Outcome State Fault Refusal :=
  s.on (fun c => c.bankOffWrite t.val banks.toNat)

/-- BANK_RETAIN (R341). -/
def execBankRetain (t : PTile) (banks : BitVec 24) (s : State) : Host.Outcome State Fault Refusal :=
  s.on (fun c => c.bankRetainWrite t.val banks.toNat)

/-- BANK_ON (R337). -/
def execBankOn (t : PTile) (banks : BitVec 24) (s : State) : Host.Outcome State Fault Refusal :=
  s.on (fun c => c.bankOnWrite t.val banks.toNat)

/-- BANK_POWER_DOWN: a requested bank goes off, or is retained, once no operation that touches it runs; a bank that is being
swapped waits (R348); a bank of R340, and one that may not be retained by then (R341), is refused. -/
def execBankPowerDown (t : PTile) (b : Fin 24) (s : State) : Host.Outcome State Fault Refusal :=
  s.on (fun c => match c.bankReqs.find? (fun r => r.tile == t.val && r.bank == b.val) with
    | none => c
    | some r =>
      if c.bankSwaps.any (fun w => w.tile == t.val && w.bank == b.val) || c.ops.any (fun o => o.banks.contains (t.val, b.val)) ||
          c.items.any (fun i => i.started && i.banks.contains (t.val, b.val)) then c
      else
        let c : Core := { c with bankReqs := c.bankReqs.erase r }
        if c.bankHeld t.val b.val || r.retain && !c.retains t.val b.val then c.pwrRefused t.val
        else if r.retain then c.setBankState t.val b.val bkRETAIN
        else c.bankOff t.val b.val)

/-- BANK_WAKE: an access to an off or retained bank starts its power-up (R338, R341). -/
def execBankWake (t : PTile) (b : Fin 24) (s : State) : Host.Outcome State Fault Refusal :=
  s.on (fun c => c.wakeBank t.val b.val)

/-- Whether a wipe in progress covers a bank of physical tile `t`. -/
def Core.wiping (c : Core) (t b : Nat) : Bool :=
  c.flag Regs.TILE_BANK_STATUS_WIPING t && isUmbra ((c.logical t).getD 0) b

/-- BANK_WAKE_DONE: the clear of a bank ends (R338); a bank of a wipe comes back with the wipe (R353). -/
def execBankWakeDone (t : PTile) (b : Fin 24) (s : State) : Host.Outcome State Fault Refusal :=
  s.on (fun c => if c.bankState t.val b.val = bkCLEARING && !c.wiping t.val b.val then c.setBankState t.val b.val bkON else c)

/-- A write of BANK_CFG: SWAP_THRESH of the tile, and TX1_COMPAT of the whole group, ignored while a program runs in the group's
partition; leaving the compatibility mode turns every retained bank off (R342). DEDUCED (assumption 51). -/
def Core.bankCfgWrite (c : Core) (t w : Nat) : Core :=
  let g := groupOfPhys t
  let c := c.wf Regs.TILE_BANK_CFG_SWAP_THRESH t (bits w 7 0)
  let runs := match c.partOfGroup g with | some p => (c.part p).prog.isSome | none => false
  if runs then c.pwrRefused t
  else
    let v := bits w 8 8
    let one := fun (c : Core) (u : Nat) =>
      let c := if v = 0 && c.flag Regs.TILE_BANK_CFG_TX1_COMPAT u then
          threadAll (fun c b => if c.bankState u b = bkRETAIN then c.bankOff u b else c) c (List.range 24) else c
      c.wf Regs.TILE_BANK_CFG_TX1_COMPAT u v
    threadAll one c (upFrom (17 * g) 17)

/-- BANK_CFG_WRITE (R342). -/
def execBankCfgWrite (t : PTile) (w : Word) (s : State) : Host.Outcome State Fault Refusal :=
  s.on (fun c => c.bankCfgWrite t.val w.toNat)

/-! ### Swaps -/

/-- A write of BANK_SWAP_REQ by PF0 (R345, R355). -/
def Core.bankSwapWrite (c : Core) (t w : Nat) : Core :=
  let b := bits w 4 0
  if !bitOf w 5 then c
  else if 23 < b || c.flag Regs.TILE_BANK_MAP_SPARE_USED t || c.bankSwaps.any (fun s => s.tile == t) then
    c.wf Regs.TILE_BANK_STATUS_SWAP_REFUSED t 1
  else c.startBankSwap t b 2 []

/-- BANK_SWAP_REQ (R345). -/
def execBankSwapReq (t : PTile) (w : Word) (s : State) : Host.Outcome State Fault Refusal :=
  s.on (fun c => c.bankSwapWrite t.val w.toNat)

/-- Move the bytes of physical bank `a` of a tile to bank `b`, with each lost word as zero (R334, R346). -/
def Core.copyBank (c : Core) (t a b : Nat) (offs : List Nat) : Core :=
  let kept := c.scratch.filter (fun e => e.1 / bankBytes == t * 25 + a && !offs.contains (e.1 % bankBytes / 4 * 4))
  let put := fun (m : SMap Byte) (e : Nat × Byte) => m.put zeroByte (bankKey t b (e.1 % bankBytes)) e.2
  { c with scratch := threadAll put (c.scratch.keepIf (fun k => decide (k / bankBytes ≠ t * 25 + a) && decide (k / bankBytes ≠ t * 25 + b))) kept }

/-- BANK_SPARED: the copy has ended; the map changes, the old physical bank is off and recorded (R346, R347). `lost` names words of the
bank that the copy could not read after their replays: they too are zero, and the tile's items end (R333, R334).
DESIGN CHOICE (assumption 19). -/
def execBankSpared (t : PTile) (lost : List Nat) (s : State) : Host.Outcome State Fault Refusal :=
  s.on (fun c => match c.bankSwaps.find? (fun w => w.tile == t.val) with
    | none => c
    | some w =>
      let p := (c.partOfGroup (groupOfPhys t.val)).getD devPart
      let old := c.physBank t.val w.bank
      let c := threadAll (fun c o => c.wordEvent t.val (w.bank * bankBytes + o % bankBytes)) c lost
      let c := if lost.isEmpty then c else c.endTileItems p ((c.logical t.val).getD 0) St.PARITY
      let c := c.copyBank t.val old 24 ((w.words ++ lost).map (fun o => o % bankBytes / 4 * 4))
      let c := ((c.wf Regs.TILE_BANK_MAP_SPARE_USED t.val 1).wf Regs.TILE_BANK_MAP_SPARE_FOR t.val w.bank).wf
        Regs.TILE_BANK_MAP_RETIRED t.val old
      let i := 3 * t.val + w.bank / 8
      let c := c.wr Regs.TILE_BANK_ERRS i (setBits (c.rd Regs.TILE_BANK_ERRS i) (8 * (w.bank % 8) + 7) (8 * (w.bank % 8)) 0)
      let c := c.wf Regs.TILE_BANK_STATUS_SWAPPING t.val 0
      let r : SpareRec := { kind := 1, unit := t.val, sub := old }
      let c : Core := { c with bankSwaps := c.bankSwaps.erase w, spareQ := c.spareQ ++ [r] }
      let (cycles, c) := c.fresh
      let c := c.evt Cls.info (Src.tile t.val) p 0x0701 (bankSwapInfo w.bank old w.trigger) cycles.toNat
      if w.thenTile then match c.logical t.val with | some l => c.startTileSwap l 0 | none => c else c)

/-! ### The wipe of Umbra -/

/-- The Umbra banks that a wipe covers: physical tile and logical bank (R349). -/
def Core.umbraOf (c : Core) (w : Wipe) : List (Nat × Nat) :=
  ((bitsIn 16 w.groups).flatMap (fun g => (upFrom (16 * g) 8).flatMap (fun l => match c.phys l with
    | some t => [(t, 22), (t, 23)]
    | none => []))).filter (fun e => w.tile == none || w.tile == some e.1)

/-- UMBRA_WIPED is posted from the lowest physical tile that the wipe covers (R354). -/
def Core.wipedEvent (c : Core) (w : Wipe) : Core :=
  let src := (lowest ((c.umbraOf w).map (·.1))).getD 0
  c.evt Cls.info (Src.tile src) w.part 0x0703 (w.groups + w.trigger * 2 ^ 16)

/-- The affected banks of a wipe that are on or clearing: they go through CLEARING and refuse accesses (R352). -/
def Core.wipeHit (c : Core) (w : Wipe) : List (Nat × Nat) :=
  (c.umbraOf w).filter (fun e => c.bankState e.1 e.2 == bkON || c.bankState e.1 e.2 == bkCLEARING)

/-- Sample a wipe (R352, R353). When no affected bank is on or clearing, the wipe ends at once. -/
def Core.wipe (c : Core) (w : Wipe) : Core :=
  let hit := c.wipeHit w
  let one := fun (c : Core) (e : Nat × Nat) =>
    ((c.clearBank e.1 (c.physBank e.1 e.2)).setBankState e.1 e.2 bkCLEARING).wf Regs.TILE_BANK_STATUS_WIPING e.1 1
  let covered := fun (k : Nat) => bitOf w.groups (k / 1024 / 16) && (w.tile == none || w.tile == c.phys (k / 1024))
  let c : Core := { c with marks := c.marks.filter (fun k => !covered k) }
  let clean := fun (b : BankSwap) => if hit.contains (b.tile, b.bank) then { b with words := [] } else b
  if hit.isEmpty then c.wipedEvent w
  else { threadAll one c hit with wipes := c.wipes ++ [w], bankSwaps := c.bankSwaps.map clean }

/-- A wipe ends: its banks are on again, or off after a reset, a removal or a reassignment (R344, R353), unless another wipe still
covers them. -/
def Core.wipeDone (c : Core) (w : Wipe) : Core :=
  let c : Core := { c with wipes := c.wipes.erase w }
  let others := c.wipes.flatMap c.umbraOf
  let off := fun (t : Nat) => decide (2 ≤ w.trigger) || (match c.partOfGroup (groupOfPhys t) with | some p => c.pstate p != pACTIVE | none => true)
  let one := fun (c : Core) (e : Nat × Nat) =>
    let c := if c.bankState e.1 e.2 = bkCLEARING then c.setBankState e.1 e.2 (if off e.1 then bkOFF else bkON) else c
    c.wf Regs.TILE_BANK_STATUS_WIPING e.1 0
  (threadAll one c ((c.umbraOf w).filter (fun e => !others.contains e))).wipedEvent w

/-- Every bank of a physical tile goes off, whatever its state, and its requests are dropped (R344). -/
def Core.banksOff (c : Core) (t : Nat) : Core :=
  let c : Core := { c with bankReqs := c.bankReqs.filter (fun r => r.tile != t) }
  threadAll (fun c b => if c.wiping t b && c.bankState t b == bkCLEARING then c else c.bankOff t b) c (List.range 24)

end Sys2Proof.Machine
end

