-- ==== Sys2Proof/Machine/Channels.lean ====
section
/-! DEFINITION. Channels.lean: training and retirement of device-memory channels (R364, R368-R373). -/

namespace Sys2Proof.Machine

/-- Bit of channel h in a field of its controller's CTRL_STATUS. -/
def Core.setCtrlBit (c : Core) (f : Fld) (h v : Nat) : Core := c.wf f (h / 4) (setBits (c.rf f (h / 4)) (h % 4) (h % 4) v)

/-- CHANNEL_RETRAIN: channel h is trained again; three failures in a row mark it FAILED and ask for its retirement (R364, R368). -/
def execChannelRetrain (h : Fin 48) (ok : Bool) (s : State) : Host.Outcome State Fault Refusal :=
  s.on (fun c =>
    if !c.activeChannels.contains h.val then c
    else
      let c := c.count Regs.MEM_RETRAINS_COUNT h.val
      let n := if ok then 0 else c.trainFails.get (fun _ => 0) h.val + 1
      let c : Core := { c with trainFails := c.trainFails.put (fun _ => 0) h.val n }
      if n = 3 ∧ !c.failedCh.contains h.val then
        let c : Core := { c with failedCh := c.failedCh ++ [h.val] }
        let c := (c.setCtrlBit Regs.MEM_CTRL_STATUS_FAILED h.val 1).setCtrlBit Regs.MEM_CTRL_STATUS_TRAINED h.val 0
        c.askRetire h.val 1
      else c)

/-- A write of RETIRE_REQ by PF0 (R368, R396). -/
def Core.retireWrite (c : Core) (w : Nat) : Core :=
  if bitOf w 6 && c.activeChannels.contains (bits w 5 0) then c.askRetire (bits w 5 0) 0 else c

/-- RETIRE_REQ (R368). -/
def execRetireReq (w : Word) (s : State) : Host.Outcome State Fault Refusal := s.on (fun c => c.retireWrite w.toNat)

/-- Device granules that fit n channels (R358). -/
def usableOf (n : Nat) : Nat := n * 31 / 4

/-- The granules that partitions own, in increasing number. -/
def Core.ownedGranules (c : Core) : List Nat := (List.range 372).filter (fun g => c.rf Regs.MEM_GRANULE_OWNER_PART g != 0x1F)

/-- The granule that step 2 copies next: the lowest owned one at or above the limit whose owner is not being removed (R370, R373).
DEDUCED (assumption 53). -/
def Core.nextGranule (c : Core) : Option Nat :=
  let limit := usableOf (c.activeChannels.length - 1)
  c.ownedGranules.find? (fun g => decide (limit ≤ g) && decide (c.rf Regs.MEM_GRANULE_OWNER_PART g < 16) &&
    c.pstate (c.rf Regs.MEM_GRANULE_OWNER_PART g) == pACTIVE)

/-- Enter step 3 when no owned granule stands above the limit, else name the granule being copied (R370). -/
def Core.migAdvance (c : Core) : Core :=
  let limit := usableOf (c.activeChannels.length - 1)
  if c.ownedGranules.any (fun g => decide (limit ≤ g)) then c.wf Regs.MEM_MIG_STATUS_GRANULE 0 ((c.nextGranule).getD 0)
  else ((c.wf Regs.MEM_MIG_STATUS_STEP 0 2).wf Regs.MEM_MIG_STATUS_GRANULE 0 0).wr Regs.MEM_MIG_FRONTIER 0 (limit * granuleBytes)

/-- Whether a firmware activation is staged or under way (R369). -/
def Core.fwStaged (c : Core) : Bool := decide (2 ≤ c.rf Regs.FW_FW_STATUS_STATE) && decide (c.rf Regs.FW_FW_STATUS_STATE ≤ 4)

/-- CHANNEL_RETIRE_START: the oldest request starts its migration, or is refused (R369, R370). -/
def execChannelRetireStart (s : State) : Host.Outcome State Fault Refusal :=
  s.on (fun c => match c.retireQ with
    | [] => c
    | (h, trigger) :: rest =>
      if c.rf Regs.MEM_MIG_STATUS_STEP ≠ 0 then c
      else
        let c : Core := { c with retireQ := rest }
        let n := c.activeChannels.length
        if !c.activeChannels.contains h then c
        else
          let refuse := fun (c : Core) (cause : Nat) (f : Fld) =>
            (c.wf f 0 1).evt Cls.device (Src.channel h) devPart 0x0803 (h + cause * 2 ^ 6)
          if 8 ≤ c.rf Regs.MEM_MEM_STATUS_RETIRED_COUNT then refuse c 0 Regs.MEM_RETIRE_ERR_LIMIT
          else if usableOf (n - 1) < c.ownedGranules.length then refuse c 1 Regs.MEM_RETIRE_ERR_SPACE
          else if c.fwStaged then refuse c 2 Regs.MEM_RETIRE_ERR_FW
          else
            let c := c.evt Cls.info (Src.channel h) devPart 0x0801 (h + trigger * 2 ^ 6)
            let c := (c.wr Regs.MEM_MIG_STATUS 0 (h + 2 ^ 6)).wf Regs.MEM_MEM_STATUS_MIGRATING 0 1
            ({ c with migLost := [] } : Core).migAdvance)

/-- The partition whose granule holds a DPA. -/
def Core.ownerOf (c : Core) (d : Nat) : Nat := c.rf Regs.MEM_GRANULE_OWNER_PART (d / granuleBytes)

/-- Lines that cannot be read during a migration become zero lines, and count for their owner (R372). -/
def Core.migLose (c : Core) (lines : List Nat) : Core :=
  let one := fun (c : Core) (d : Nat) =>
    let p := c.ownerOf d
    let keep := fun (k : Nat) => k / 64 != d / 64
    let c : Core := { c with dram := c.dram.keepIf keep, dramKey := c.dramKey.keepIf keep }
    if p < 16 then { c with migLost := c.migLost.put (fun _ => 0) p (c.migLost.get (fun _ => 0) p + 1) } else c
  threadAll one c lines

/-- Move the stored lines of granule a to granule b. -/
def Core.moveGranule (c : Core) (a b : Nat) : Core :=
  let there := fun (k : Nat) => k / granuleBytes == a
  let go := fun {α : Type} (m : SMap α) =>
    threadAll (fun (m : SMap α) (e : Nat × α) => m.ins (e.1 % granuleBytes + b * granuleBytes) e.2)
      (m.keepIf (fun k => k / granuleBytes != a && k / granuleBytes != b)) (m.filter (fun e => there e.1))
  { c with dram := go c.dram, dramKey := go c.dramKey }

/-- GRANULE_MIGRATED: the copy of the granule of step 2 ends; its entries change at one tick (R370, R371). `lost` are the DPAs of the
lines that could not be read. DEDUCED (assumption 53). -/
def execGranuleMigrated (lost : List Nat) (s : State) : Host.Outcome State Fault Refusal :=
  s.on (fun c =>
    let limit := usableOf (c.activeChannels.length - 1)
    if c.rf Regs.MEM_MIG_STATUS_STEP ≠ 1 then c
    else match c.nextGranule, (List.range limit).find? (fun g => c.rf Regs.MEM_GRANULE_OWNER_PART g == 0x1F) with
      | some a, some b =>
        let c := c.migLose (lost.filter (fun d => d / granuleBytes == a))
        let own := c.rd Regs.MEM_GRANULE_OWNER a
        let c := ((c.moveGranule a b).wr Regs.MEM_GRANULE_OWNER b own).wr Regs.MEM_GRANULE_OWNER a 0x1F
        c.migAdvance
      | _, _ => c.migAdvance)

/-- CHANNEL_RETIRED: the re-interleave ends; the channel leaves ACTIVE for the life of the part, and every partition that lost lines
learns it (R370, R372). `lost` are the DPAs of the lines lost in step 3. -/
def Core.channelRetired (c : Core) (lost : List Nat) : Core :=
  let h := c.rf Regs.MEM_MIG_STATUS_CHANNEL
  let c := c.migLose lost
  let c := c.wf Regs.MEM_MEM_STATUS_ACTIVE 0 (setBits (c.rf Regs.MEM_MEM_STATUS_ACTIVE) h h 0)
  let c := c.wf Regs.MEM_MEM_STATUS_RETIRED_COUNT 0 (c.rf Regs.MEM_MEM_STATUS_RETIRED_COUNT + 1)
  let c := (c.wf Regs.MEM_MEM_STATUS_MIGRATING 0 0).wr Regs.MEM_USABLE 0 (usableOf c.activeChannels.length)
  let c := (c.setCtrlBit Regs.MEM_CTRL_STATUS_RETIRED h 1).setCtrlBit Regs.MEM_CTRL_STATUS_TRAINED h 0
  let c := (c.setCtrlBit Regs.MEM_CTRL_STATUS_FAILED h 0).wr Regs.MEM_MIG_STATUS 0 0
  let c : Core := { c with failedCh := c.failedCh.filter (· != h) }
  let c := c.evt Cls.info (Src.channel h) devPart 0x0802 (h + c.rf Regs.MEM_USABLE_GRANULES * 2 ^ 6)
  let tell := fun (c : Core) (e : Nat × Nat) =>
    ((c.evt Cls.partition (Src.channel h) e.1 0x0804 e.2).wf Regs.PART_STATUS_FATAL e.1 1).stopProgram e.1 St.PARITY none
  { threadAll tell c c.migLost with migLost := [] }

/-- CHANNEL_RETIRED (R370). -/
def execChannelRetired (lost : List Nat) (s : State) : Host.Outcome State Fault Refusal :=
  if s.core.rf Regs.MEM_MIG_STATUS_STEP ≠ 2 then .next s
  else .next { s with
    core := s.core.channelRetired lost
    perm := { s.perm with retired := s.perm.retired ++ [s.core.rf Regs.MEM_MIG_STATUS_CHANNEL] } }

end Sys2Proof.Machine
end

