-- ==== Sys2Proof/Machine/Program.lean ====
section
/-! DEFINITION. Program.lean: program images (R175-R182), the start and the end of a program (R182-R185, R309). -/

namespace Sys2Proof.Machine

/-! ### The image format -/

/-- The little-endian number of n bytes at offset o. -/
def field (bs : List Byte) (o n : Nat) : Nat := leNat ((bs.drop o).take n)

/-- A section descriptor (R177) and its offset in the image. -/
structure Sect where
  desc : Nat
  type : Nat
  first : Nat
  count : Nat
  fileOff : Nat
  fileSize : Nat
  memSize : Nat
  entry : Nat
  dest : Nat
  deriving DecidableEq, Repr

/-- The section descriptor at offset o. -/
def Sect.read (bs : List Byte) (o : Nat) : Sect :=
  { desc := o, type := field bs o 1, first := field bs (o + 2) 2, count := field bs (o + 4) 2, fileOff := field bs (o + 8) 4
    fileSize := field bs (o + 12) 4, memSize := field bs (o + 16) 4, entry := field bs (o + 20) 4, dest := field bs (o + 24) 8 }

def imgTiles (bs : List Byte) : Nat := field bs 12 2
def imgNSect (bs : List Byte) : Nat := field bs 14 2
def imgSectOff (bs : List Byte) : Nat := field bs 16 4
def imgNSeg (bs : List Byte) : Nat := field bs 20 2
def imgSegOff (bs : List Byte) : Nat := field bs 24 4
def imgPages (bs : List Byte) : Nat := field bs 28 2

/-- The section descriptors, and the offsets of the segment descriptors. -/
def imgSects (bs : List Byte) : List Sect := (List.range (imgNSect bs)).map (fun i => Sect.read bs (imgSectOff bs + 32 * i))
def imgSegs (bs : List Byte) : List Nat := (List.range (imgNSeg bs)).map (fun i => imgSegOff bs + 16 * i)

/-- The contents of a section: its bytes of the image, then zeros (R177). -/
def Sect.body (s : Sect) (bs : List Byte) : List Byte :=
  (bs.drop s.fileOff).take s.fileSize ++ List.replicate (s.memSize - s.fileSize) 0

/-- Types of R177. -/
def sCODE : Nat := 1
def sZERO : Nat := 3
def sDEVMEM : Nat := 4
def sCODEBOOK : Nat := 5

/-- Whether a section serves an image tile; CODE, DATA and ZERO sections are written to its space 0x0. -/
def Sect.serves (s : Sect) (n : Nat) : Bool := s.type != sDEVMEM && decide (s.first ≤ n) && decide (n < s.first + s.count)
def Sect.onTile (s : Sect) : Bool := decide (1 ≤ s.type) && decide (s.type ≤ 3)

/-! ### The checks of R181 -/

/-- A refusal: status, check, offset of the failing field, INFO1 (R186). -/
structure Refusal181 where
  status : Nat
  check : Nat
  off : Nat
  info1 : Nat := 0
  deriving DecidableEq, Repr

/-- Refuse with a status at an offset when a condition holds. -/
def refuseIf (b : Bool) (status check off : Nat) (info1 : Nat := 0) : Option Refusal181 :=
  if b then some ⟨status, check, off, info1⟩ else none

/-- Checks 2 to 5: the header, and the reserved fields of the descriptors that lie within the image. `tiles` are the partition's
mapped logical tiles in order. -/
def headerChecks (bs : List Byte) (tiles : List Nat) : List (Option Refusal181) :=
  let L := St.LENGTH
  let minRev := field bs 6 1
  let maxRev := field bs 7 1
  let byte := fun (o : Nat) => field bs o 1
  let policy := byte 22
  let within := fun (o n : Nat) => decide (o + n ≤ bs.length)
  let sect := fun (s : Sect) =>
    if !within s.desc 32 then []
    else
      [refuseIf (byte (s.desc + 1) != 0) L 4 (s.desc + 1), refuseIf (field bs (s.desc + 6) 2 != 0) L 4 (s.desc + 6),
       refuseIf (s.type != sCODE && s.entry != 0) L 4 (s.desc + 20), refuseIf (s.type == sZERO && s.fileSize != 0) L 4 (s.desc + 12),
       refuseIf (s.type == sDEVMEM && s.first != 0) L 4 (s.desc + 2), refuseIf (s.type == sDEVMEM && s.count != 0) L 4 (s.desc + 4)]
  let seg := fun (o : Nat) => refuseIf (within o 16 && field bs (o + 6) 2 != 0) L 4 (o + 6)
  [refuseIf (field bs 0 4 != 0x544F4944) L 2 0, refuseIf (field bs 4 2 != 64) L 2 4, refuseIf (decide (maxRev < minRev)) L 2 6,
   refuseIf (decide (2 < minRev)) St.ILLEGAL 3 6, refuseIf (decide (maxRev < 2)) St.ILLEGAL 3 7] ++
  (23 :: upFrom 30 34).map (fun o => refuseIf (byte o != 0) L 4 o) ++
  [refuseIf (decide (3 ≤ policy)) L 4 22, refuseIf (imgNSeg bs == 0 && imgSegOff bs != 0) L 4 24] ++
  (imgSects bs).flatMap sect ++ (imgSegs bs).map seg ++
  [refuseIf (imgTiles bs == 0 || decide (256 < imgTiles bs) || decide (tiles.length < imgTiles bs)) L 5 12,
   refuseIf (imgNSect bs == 0 || decide (4096 < imgNSect bs)) L 5 14, refuseIf (decide (256 < imgNSeg bs)) L 5 20,
   refuseIf (decide (768 < imgPages bs) || (decide (704 < imgPages bs) && (tiles.take (imgTiles bs)).any (fun l => decide (l % 16 < 8)))) L 5 28]

/-- Check 6: tables, contents, types, tile ranges and alignments. -/
def tableChecks (bs : List Byte) : List (Option Refusal181) :=
  let L := St.LENGTH
  let sect := fun (s : Sect) =>
    let code := s.type == sCODE
    [refuseIf (decide (bs.length < s.fileOff + s.fileSize)) L 6 (s.desc + 8), refuseIf (decide (s.memSize < s.fileSize)) L 6 (s.desc + 12),
     refuseIf (s.type == 0 || decide (5 < s.type)) L 6 s.desc, refuseIf (s.type != sDEVMEM && s.count == 0) L 6 (s.desc + 4),
     refuseIf (s.type != sDEVMEM && decide (imgTiles bs < s.first + s.count)) L 6 (s.desc + 2),
     refuseIf (s.type == sCODEBOOK && decide (15 < s.dest)) L 6 (s.desc + 24), refuseIf (code && s.dest % 8 != 0) L 6 (s.desc + 24),
     refuseIf (code && s.memSize % 8 != 0) L 6 (s.desc + 16), refuseIf (code && s.entry % 8 != 0) L 6 (s.desc + 20)]
  [refuseIf (imgSectOff bs % 8 != 0 || decide (bs.length < imgSectOff bs + 32 * imgNSect bs)) L 6 16,
   refuseIf (imgSegOff bs % 8 != 0 || decide (bs.length < imgSegOff bs + 16 * imgNSeg bs)) L 6 24] ++ (imgSects bs).flatMap sect

/-- Whether two sections meet on one tile or in device memory (check 7). -/
def Sect.meets (a b : Sect) : Bool :=
  let tiles := overlaps a.first a.count b.first b.count
  if a.type == sCODEBOOK && b.type == sCODEBOOK then tiles && a.dest == b.dest
  else if a.type == sDEVMEM && b.type == sDEVMEM then overlaps a.dest a.memSize b.dest b.memSize
  else if a.onTile && b.onTile then tiles && overlaps a.dest a.memSize b.dest b.memSize
  else false

/-- Every element of a list with those before it. -/
def withEarlier {α : Type} : List α → List α → List (List α × α)
  | _, [] => []
  | seen, x :: r => (seen, x) :: withEarlier (seen ++ [x]) r

/-- Check 7: one CODE section for each tile, entries, overlaps, segments (R178). -/
def placeChecks (bs : List Byte) : List (Option Refusal181) :=
  let L := St.LENGTH
  let sects := imgSects bs
  let codes := sects.filter (fun s => s.type == sCODE)
  let twice := (withEarlier [] codes).map (fun e => refuseIf (e.1.any (fun s => overlaps s.first s.count e.2.first e.2.count)) L 7 e.2.desc)
  let none_ := (List.range (imgTiles bs)).map (fun n => refuseIf (!codes.any (fun s => s.serves n)) L 7 (imgSectOff bs) n)
  let entries := codes.map (fun s => refuseIf (decide (s.memSize ≤ s.entry)) L 7 (s.desc + 20))
  let meets := (withEarlier [] sects).map (fun e => refuseIf (e.1.any (fun s => s.meets e.2)) L 7 e.2.desc)
  let seg := fun (e : List Nat × Nat) =>
    let id := field bs e.2 2
    let first := field bs (e.2 + 2) 2
    let last := field bs (e.2 + 4) 2
    let space := field bs (e.2 + 8) 8 / 2 ^ 60
    [refuseIf (e.1.any (fun o => field bs o 2 == id)) L 7 e.2, refuseIf (decide (1023 < first)) L 7 (e.2 + 2),
     refuseIf (decide (last < first) || decide (1023 < last)) L 7 (e.2 + 4), refuseIf (space != 0 && space != 2) L 7 (e.2 + 8),
     refuseIf (e.1.any (fun o => decide (first ≤ field bs (o + 4) 2) && decide (field bs (o + 2) 2 ≤ last))) L 7 (e.2 + 2)]
  twice ++ none_ ++ entries ++ meets ++ (withEarlier [] (imgSegs bs)).flatMap seg

/-- The end of a logical tile's space 0x0 for sections, under a reservation of `pages` (R180, R349). -/
def sectionEnd (l pages : Nat) : Nat := (if l % 16 < 8 then 0x2C0000 else 0x300000) - 4096 * pages

/-- Checks 8 to 10: spaces, codebooks, code. -/
def Core.bodyChecks (c : Core) (p : Nat) (bs : List Byte) (tiles : List Nat) : List (Option Refusal181) :=
  let space := fun (s : Sect) =>
    let n := max s.memSize 1
    if s.type = sDEVMEM then
      [refuseIf (!c.viewOk p s.dest n) St.BOUNDS 8 (s.desc + 24),
       refuseIf ((c.backing p).any (fun b => overlaps s.dest n b.1 b.2)) St.PROTECTION 8 (s.desc + 24)]
    else if s.onTile then
      [refuseIf ((upFrom s.first s.count).any (fun k => decide (sectionEnd ((tiles[k]?).getD 0) (imgPages bs) < s.dest + n))) St.BOUNDS 8 (s.desc + 24)]
    else []
  let book := fun (s : Sect) =>
    refuseIf (s.type == sCODEBOOK && (parseCodebook ((s.body bs).take (if bitOf (field (s.body bs) 0 1) 0 then 576 else 96))).isNone)
      St.LENGTH 9 (s.fileOff)
  let code := fun (s : Sect) =>
    if s.type = sCODE then
      (scanCode (wordsOf (s.memSize / 8) (s.body bs)) 0 false).map (fun k => (⟨St.ILLEGAL, 10, s.fileOff + 8 * k, 0⟩ : Refusal181))
    else none
  (imgSects bs).flatMap space ++ (imgSects bs).map book ++ (imgSects bs).map code

/-- The first failing check of an image that has passed check 1. -/
def Core.imageRefusal (c : Core) (p : Nat) (bs : List Byte) : Option Refusal181 :=
  let tiles := c.ltiles p
  let first := fun (l : List (Option Refusal181)) => l.findSome? id
  match first (headerChecks bs tiles) with
  | some r => some r
  | none => match first (tableChecks bs) with
    | some r => some r
    | none => match first (placeChecks bs) with
      | some r => some r
      | none => first (c.bodyChecks p bs tiles)

/-! ### Loading (R182) -/

/-- Write a section to every tile it serves, or to device memory. -/
def Core.loadSection (c : Core) (p : Nat) (bs : List Byte) (tiles : List Nat) (s : Sect) : Core :=
  let body := s.body bs
  let onTile := fun (c : Core) (n : Nat) => match c.phys ((tiles[n]?).getD 0) with
    | some t =>
      if s.type = sCODEBOOK then
        let b := parseCodebook (body.take (if bitOf (field body 0 1) 0 then 576 else 96))
        c.setTile t { c.tile t with cb := (c.tile t).cb.put (fun _ => none) s.dest b }
      else c.writeScratch t s.dest body
    | none => c
  if s.type = sDEVMEM then c.writeView p s.dest body else threadAll onTile c (upFrom s.first s.count)

/-- Reset the sequencer of the tile that runs image tile n (R129), its stash registers and directory (R275, R286) and FAULT_INFO (R189). -/
def Core.loadTile (c : Core) (p : Nat) (bs : List Byte) (n l : Nat) : Core :=
  match c.phys l with
  | none => c
  | some t =>
    let entry := match (imgSects bs).find? (fun s => s.type == sCODE && s.serves n) with | some s => s.dest + s.entry | none => 0
    let g : SMap Word := threadAll (fun (m : SMap Word) (e : Nat × Nat) => m.put (fun _ => 0) e.1 (BitVec.ofNat 64 e.2)) [] [(1, l), (2, n), (3, p)]
    let c := c.setTile t { c.tile t with run := 0, g := g, p := 0x80, t := [], tok := [], pc := entry, flags := [], imageTile := n, stall := none, lastIssue := 0 }
    let c := (c.wr Regs.TILE_FAULT_INFO t 0).wr Regs.TILE_STASH_PEAK t 0
    let c := c.emptyStash t
    let c := c.wf Regs.TILE_STASH_STATUS_POLICY t (field bs 22 1)
    let c := c.wf Regs.TILE_STASH_STATUS_EXHAUSTED t 0
    let c := c.wf Regs.TILE_STASH_RES_PAGES t (imgPages bs)
    c.wf Regs.TILE_STASH_RES_BASE t (if imgPages bs = 0 then 0 else sectionEnd l (imgPages bs))

/-- Load an image for an item: every section, every tile, the digest of the image (R549). -/
def Core.loadImage (c : Core) (p item : Nat) (bs : List Byte) : Core :=
  let tiles := (c.ltiles p).take (imgTiles bs)
  let c := threadAll (fun c s => c.loadSection p bs tiles s) c (imgSects bs)
  let c := threadAll (fun c e => c.loadTile p bs e.2 e.1) c tiles.zipIdx
  let digest := Config.shake256 bs
  let c := threadAll (fun c i => c.wr Regs.PART_IMAGE_DIGEST (i + 8 * p) (field digest (8 * i) 8)) c (List.range 8)
  let code := ((imgSects bs).filter (fun s => s.type == sCODE)).flatMap (fun s =>
    (upFrom s.first s.count).map (fun n => ((tiles[n]?).getD 0, s.dest, s.memSize)))
  let segs := (imgSegs bs).map (fun o =>
    ({ id := field bs o 2, first := field bs (o + 2) 2, last := field bs (o + 4) 2, ckpt := field bs (o + 8) 8 } : Segment))
  let entry := fun (n : Nat) => match (imgSects bs).find? (fun s => s.type == sCODE && s.serves n) with | some s => s.dest + s.entry | none => 0
  let pr : Prog :=
    { item := item, tiles := tiles, entries := (List.range tiles.length).map entry, policy := field bs 22 1
      shadowPages := imgPages bs, segments := segs, code := code }
  c.setPart p { c.part p with prog := some pr, phase := 0, boundaryWait := false, stepTaken := false }

/-! ### Items -/

/-- The checks and the memory faults of a host item's byte ranges (R143, R192, R532): a status and the device after them. -/
def Core.itemAccess (c : Core) (p : Nat) (ops : List Operand) (env : MemEnv) : Nat × Core :=
  let st := c.issueChecks p 0 ops true false
  if st ≠ 0 then (st, c.licensedEvent p ops st)
  else ({ c with touched := [], dests := [], rowAccess := false } : Core).memFaults p 0 ops env

/-- Whether an item may start (R564, R565): it is open and has not started, no action of ORDER holds it, and every item fetched
earlier from its queue has started. -/
def Core.mayStart (c : Core) (i : Item) : Bool :=
  !i.started && !i.order && !(c.part i.part).resetting && !c.lost && c.pstate i.part == pACTIVE &&
  (c.items.filter (fun j => j.part == i.part && j.sq == i.sq && j.kind != .op && decide (j.id < i.id))).all (·.started)

/-- The reading of an image through its item: a status, or the bytes. -/
def Core.fetchImage (c : Core) (p : Nat) (i : Item) (n : Nat) (env : MemEnv) : Nat × Core :=
  c.itemAccess p [{ d := Desc.range i.addr0 n, spaces := 0b1100 }] env

/-- An image that is refused ends its item and posts IMAGE_REFUSED (R181, R186). -/
def Core.refuseImage (c : Core) (i : Item) (r : Refusal181) : Core :=
  (c.evt Cls.item Src.pcie i.part 0x0301 (r.status + r.check * 2 ^ 16 + r.off * 2 ^ 32) r.info1).endItem i.id r.status false

/-- PROGRAM: a program item starts when no program of its partition is open: its image is read, checked and loaded (R181, R182). An
image that cannot be read ends the item with the status of the access. -/
def execProgram (id : Nat) (env : MemEnv) (s : State) : Host.Outcome State Fault Refusal :=
  s.on (fun c => match c.item? id with
    | none => c
    | some i =>
      if i.kind ≠ .program || !c.mayStart i || c.fwWaits || (c.part i.part).prog.isSome then c
      else
        let c := c.updItem id (fun i => { i with started := true, startTick := c.tick })
        let len := i.len % 2 ^ 32
        if len < 64 then c.refuseImage i ⟨St.LENGTH, 1, 8, 0⟩
        else
          let (st, c) := c.fetchImage i.part i 64 env
          if st ≠ 0 then c.endItem id st true
          else
            let size := field (c.readAt i.part 0 i.addr0 0 64) 8 4
            if size < 64 ∨ len < size then c.refuseImage i ⟨St.LENGTH, 1, 8, 0⟩
            else
              let (st, c) := c.fetchImage i.part i size env
              if st ≠ 0 then c.endItem id st true
              else
                let bs := c.readAt i.part 0 i.addr0 0 size
                match c.imageRefusal i.part bs with
                | some r => c.refuseImage i r
                | none => c.loadImage i.part id bs)

/-- Wipe and unmark the licensed pages of a partition when its new image is not the one that a loaded licensed slot names (R533). -/
def Core.dropMarks (c : Core) (p : Nat) : Core :=
  let d := c.imageDigest p
  let other := (List.range 16).any (fun n => match c.slot p n with | some s => s.model && s.bind != d | none => false)
  if !other then c
  else
    let mine := c.marks.filter (fun k => c.ownsGroup p (k / 1024 / 16))
    let wipe := fun (c : Core) (k : Nat) => match c.phys (k / 1024) with
      | some t => { c with scratch := threadAll (fun (m : SMap Byte) a => m.put zeroByte (c.scratchKey t a) 0) c.scratch (upFrom (k % 1024 * 4096) 4096) }
      | none => c
    { threadAll wipe c mine with marks := c.marks.filter (fun k => !mine.contains k) }

/-- A program item starts while the loss-scale state is not valid (R309). -/
def Core.scaleInit (c : Core) (p : Nat) : Core :=
  let e := c.lead p
  if c.flag Regs.UPD_LS_STATE_VALID e then c
  else
    let r := c.rf Regs.UPD_LS_CFG_RECOVERY_EXP e
    let c := c.wr Regs.UPD_LS_STATE e (r + 2 ^ 8 + 256 * 2 ^ 16)
    (c.wr Regs.UPD_LS_HIST e 0).evt Cls.info (Src.updEngine e) p 0x0603 r

/-- PROGRAM_START: a loaded program starts on every tile at one tick (R182). -/
def execProgramStart (p : PartId) (s : State) : Host.Outcome State Fault Refusal :=
  s.on (fun c => match (c.part p.val).prog with
    | none => c
    | some pr =>
      if pr.started || pr.stopping || c.fwWaits then c
      else
        let c := (c.dropMarks p.val).scaleInit p.val
        let go := fun (c : Core) (l : Nat) => match c.phys l with
          | some t => c.setTile t { c.tile t with run := 1 }
          | none => c
        let c := threadAll go c pr.tiles
        c.setPart p.val { c.part p.val with prog := some { pr with started := true }, accum := c.rf Regs.COL_ACCUM_COUNT p.val
                                            cfg := c.takeCfg p.val })

/-- INFO of a program item's record: fault reason, logical tile and PC (R568). -/
def Prog.info (pr : Prog) : Nat :=
  match pr.fault with | some (_, reason, l, pc) => reason + l * 2 ^ 8 + pc * 2 ^ 16 | none => 0

/-- End a program item and free its partition's tiles; the stash of each is emptied (R185, R275). -/
def Core.endProgram (c : Core) (p : Nat) (pr : Prog) : Core :=
  let empty := fun (c : Core) (l : Nat) => match c.phys l with | some t => c.emptyStash t | none => c
  let c := threadAll empty c pr.tiles
  let c := c.setPart p { c.part p with prog := none, boundaryWait := false }
  (c.updItem pr.item (fun i => { i with info := pr.info })).endItem pr.item pr.endStatus (pr.endStatus == 0)

/-- The held items of an undecided step end with the status of a program that has stopped: its step can no longer close.
DEDUCED (assumption 54). -/
def Core.endStopped (c : Core) (p : Nat) (pr : Prog) : Core :=
  let q := (c.part p).step
  if pr.stopping && !q.decided && !q.items.isEmpty then c.endHeld p pr.endStatus else c

/-- PROGRAM_END: every tile has halted or stopped and the issued operations have completed, so the program item of partition `p` ends
with its status (R183-R185); one that a removal stopped ends at the revocation or later (R540-R542). -/
def execProgramEnd (p : PartId) (s : State) : Host.Outcome State Fault Refusal :=
  s.on (fun c => match (c.part p.val).prog with
    | none => c
    | some pr =>
      let c := if pr.stopping then c.endStopped p.val pr else c
      if pr.stopping && pr.endStatus == St.KEY_REVOKED && !(c.part p.val).revoked then c
      else if (pr.started || pr.stopping) && c.programDone p.val pr then c.endProgram p.val pr else c)

end Sys2Proof.Machine
end

