-- ==== Sys2Proof/Machine/Host.lean ====
section
/-! DEFINITION. Host.lean: submission and completion queues, items, cancellation and records (R562-R571, R584). -/

namespace Sys2Proof.Machine

/-! ### Submission queues -/

/-- A write of SQ_CFG (R562): ENABLE is refused for a bad size or base, or while the queue is enabled; clearing it takes effect once
the queue's open items have ended. DEDUCED (assumption 42). DEDUCED (assumption 47). -/
def Core.sqCfgWrite (c : Core) (p q w : Nat) : Core :=
  let i := qi p q
  let v := w % 2 ^ 24
  let on := c.flag Regs.HIF_SQ_CFG_ENABLE i
  if bitOf v 23 then
    let base := c.rd Regs.HIF_SQ_BASE i
    let ok := isPow2 (bits v 16 0) && decide (16 ≤ bits v 16 0) && base % 4096 == 0 && (base / 2 ^ 60 == 2 || base / 2 ^ 60 == 3)
    if on then c.wf Regs.HIF_SQ_STATUS_CFG_ERR i 1
    else if !ok then (c.wr Regs.HIF_SQ_CFG i (v % 2 ^ 23)).wf Regs.HIF_SQ_STATUS_CFG_ERR i 1
    else c.wr Regs.HIF_SQ_CFG i v
  else
    let c := c.wr Regs.HIF_SQ_CFG i (v + b2n on * 2 ^ 23)
    if on then ({ c with sqOff := if c.sqOff.contains i then c.sqOff else c.sqOff ++ [i] } : Core).sqClear p q else c

/-- SQ_ENABLE: a write of SQ_CFG of queue q of partition p (R562). -/
def execSqEnable (p : PartId) (q : Fin 64) (w : Word) (s : State) : Host.Outcome State Fault Refusal :=
  s.on (fun c => c.sqCfgWrite p.val q.val w.toNat)

/-- Whether virtual function p + 1 is enabled: from CREATE until PARTITION_FREED (R678). -/
def Core.vfOn (c : Core) (p : Nat) : Bool := c.pstate p != pFREE && !(c.part p).freed

/-- Whether doorbells of a partition are taken: its function is enabled and no reset runs (R578, R678). -/
def Core.doorOpen (c : Core) (p : Nat) : Bool := c.vfOn p && !(c.part p).resetting

/-- SQ_DOORBELL: the new tail of queue q (R563); while the partition is draining it is counted and ignored (R540). -/
def execSqDoorbell (p : PartId) (q : Fin 64) (v : BitVec 16) (s : State) : Host.Outcome State Fault Refusal :=
  s.on (fun c =>
    let i := qi p.val q.val
    if !c.doorOpen p.val then c
    else if c.pstate p.val ≠ pACTIVE then c.count Regs.PART_DOORBELL_DROPS_COUNT p.val
    else if !c.flag Regs.HIF_SQ_CFG_ENABLE i || decide (c.rf Regs.HIF_SQ_CFG_SIZE i ≤ v.toNat) then c.wf Regs.HIF_SQ_STATUS_DB_ERR i 1
    else c.wf Regs.HIF_SQ_PTR_TAIL i v.toNat)

/-- Whether a queue fetches: enabled, not stopped, and with entries up to its tail (R564, R571). DEDUCED (assumption 47). -/
def Core.sqReady (c : Core) (p q : Nat) : Bool :=
  let i := qi p q
  c.flag Regs.HIF_SQ_CFG_ENABLE i && !c.sqOff.contains i && !c.flag Regs.HIF_SQ_STATUS_FETCH_ERR i &&
  c.rf Regs.HIF_SQ_PTR_HEAD i != c.rf Regs.HIF_SQ_PTR_TAIL i

/-- The queue whose turn it is: round-robin after the last one granted (R31, R564). -/
def Core.sqNext (c : Core) (p : Nat) : Option Nat :=
  ((List.range 64).map (fun k => (k + (c.part p).sqTurn) % 64)).find? (c.sqReady p)

/-- A failed fetch stops the queue (R571). -/
def Core.sqFetchFailed (c : Core) (p q st : Nat) : Core :=
  let i := qi p q
  (c.wf Regs.HIF_SQ_STATUS_FETCH_ERR i 1).evt Cls.item Src.pcie p 0x0D04
    (q + st * 2 ^ 16 + c.rf Regs.HIF_SQ_PTR_HEAD i * 2 ^ 32 + c.rf Regs.HIF_SQ_PTR_TAIL i * 2 ^ 48)

/-- The checks of R566 on an entry: the status of the first that fails, or 0. -/
def entryCheck (bs : List Byte) : Nat :=
  let kind := field bs 0 1
  let a0 := field bs 16 8
  let a1 := field bs 24 8
  let len := field bs 32 8
  let zero := fun (o n : Nat) => field bs o n == 0
  let copySpace := fun (a : Nat) => [1, 2, 3, 5].contains (a / 2 ^ 60)
  if kind = 0 ∨ 3 < kind then St.LENGTH
  else if 1 < field bs 1 1 || !zero 2 6 || !zero 44 20 then St.LENGTH
  else if kind = 1 then
    if a1 ≠ 0 ∨ 2 ^ 32 ≤ len then St.LENGTH else if a0 / 2 ^ 60 ≠ 2 ∧ a0 / 2 ^ 60 ≠ 3 then St.BOUNDS else 0
  else if kind = 2 then
    if 2 ^ 40 ≤ len then St.LENGTH
    else
      let one := fun (a : Nat) => if a / 2 ^ 60 = 6 then St.PROTECTION else if copySpace a then 0 else St.BOUNDS
      if one a0 ≠ 0 then one a0 else one a1
  else if a0 ≠ 0 ∨ a1 ≠ 0 ∨ len ≠ 0 ∨ !zero 40 4 then St.LENGTH else 0

/-- Fetch the entry at the head of a queue: it becomes an item, which its checks may end at once (R564-R566). -/
def Core.sqFetch (c : Core) (p q : Nat) (env : MemEnv) : Core :=
  let i := qi p q
  let head := c.rf Regs.HIF_SQ_PTR_HEAD i
  let addr := c.rd Regs.HIF_SQ_BASE i + 64 * head
  let (st, c) := c.itemAccess p [{ d := Desc.range addr 64, spaces := 0b1100 }] env
  if st ≠ 0 then c.sqFetchFailed p q st
  else
    let bs := c.readAt p 0 addr 0 64
    let kind : ItemKind := match field bs 0 1 with | 1 => .program | 2 => .copy | _ => .fence
    let id := c.nextItem
    let c := c.wf Regs.HIF_SQ_PTR_HEAD i ((head + 1) % c.rf Regs.HIF_SQ_CFG_SIZE i)
    let c := c.setPart p { c.part p with sqTurn := (q + 1) % 64 }
    let c := c.openItem
      { id := 0, part := p, kind := kind, sq := q, entry := head, tag := field bs 8 8, cq := c.rf Regs.HIF_SQ_CFG_CQ i
        order := bitOf (field bs 1 1) 0, limit := field bs 40 4, addr0 := field bs 16 8, addr1 := field bs 24 8
        len := field bs 32 8, source := Src.pcie }
    if entryCheck bs ≠ 0 then c.endItem id (entryCheck bs) true else c

/-- SQ_ENTRY_FETCH: the partition's next entry is fetched (R564), unless no item may be opened (R570, R607, R609). -/
def execSqEntryFetch (p : PartId) (env : MemEnv) (s : State) : Host.Outcome State Fault Refusal :=
  s.on (fun c =>
    if c.pstate p.val ≠ pACTIVE || (c.part p.val).resetting || c.lost || !c.canOpen p.val then c
    else match c.sqNext p.val with
      | some q => c.sqFetch p.val q env
      | none => c)

/-- SQ_FETCH_ERROR: the fetch of the next entry of partition p has failed with a status (R571). -/
def execSqFetchError (p : PartId) (status : BitVec 16) (s : State) : Host.Outcome State Fault Refusal :=
  s.on (fun c => match c.sqNext p.val with
    | some q => if c.pstate p.val = pACTIVE then c.sqFetchFailed p.val q status.toNat else c
    | none => c)

/-! ### Items -/

/-- Start an item. -/
def Core.startItem (c : Core) (id : Nat) : Core := c.updItem id (fun i => { i with started := true, startTick := c.tick })

/-- INFO of a copy that a memory fault ends: the bytes written, which are open (R60, R568). DEDUCED (assumption 52). -/
def Core.openInfo (c : Core) (id n : Nat) : Core :=
  let (w, c) := c.fresh
  c.updItem id (fun i => { i with info := w.toNat % (n + 1) / 64 * 64 })

/-- Whether a host COPY names the slow tier, whose commands and messages an activation holds (R628). -/
def Item.slowTier (i : Item) : Bool := i.addr0 / 2 ^ 60 == 5 || i.addr1 / 2 ^ 60 == 5

/-- SQ_COPY: a host COPY runs on engine 4g + (q mod 4) (R566). Bytes of the slow tier make it wait for commands or messages; while an
activation holds them it does not start (R628). DEDUCED (assumption 71). -/
def execSqCopy (id : Nat) (env : MemEnv) (s : State) : Host.Outcome State Fault Refusal :=
  s.on (fun c => match c.item? id with
    | none => c
    | some i =>
      if i.kind ≠ .copy || !c.mayStart i || (c.fwHold && i.slowTier) then c
      else
        let p := i.part
        let c := (c.startItem id).updItem id (fun i => { i with source := Src.dme (4 * c.lead p + i.sq % 4) })
        let n := i.len % 2 ^ 40
        let ops : List Operand :=
          [{ d := Desc.range i.addr1 n, dest := true, spaces := 0b101110 }, { d := Desc.range i.addr0 n, spaces := 0b101110 }]
        let checked := c.issueChecks p 0 ops true false
        let (st, c) := c.itemAccess p ops env
        if st ≠ 0 then (if checked = 0 then c.openInfo id n else c).endItem id st true
        else
          let c := c.updItem id (fun i => { i with info := n, dests := c.dests, banks := c.touched })
          let (wait, c) := c.slowAccess p ops (.item id)
          let c := c.writeAt p 0 i.addr1 0 (c.readAt p 0 i.addr0 0 n)
          if wait then c else c.endItem id 0 true)

/-- FENCE: a fence item starts (R566). -/
def execFence (id : Nat) (s : State) : Host.Outcome State Fault Refusal :=
  s.on (fun c => match c.item? id with
    | some i => if i.kind = .fence && c.mayStart i then c.startItem id else c
    | none => c)

/-- FENCE_COMPLETE: every item fetched before the fence, from any queue of the partition, has ended (R566). -/
def execFenceComplete (id : Nat) (s : State) : Host.Outcome State Fault Refusal :=
  s.on (fun c => match c.item? id with
    | some i =>
      if i.kind = .fence && i.started && !c.items.any (fun j => j.part == i.part && j.kind != .op && decide (j.id < id)) then c.endItem id 0 true
      else c
    | none => c)

/-- ORDERED_ITEM_START: every item fetched earlier from the queue of an item with ORDER has ended, so it may start (R565). -/
def execOrderedItemStart (id : Nat) (s : State) : Host.Outcome State Fault Refusal :=
  s.on (fun c => match c.item? id with
    | some i =>
      if c.items.any (fun j => j.part == i.part && j.sq == i.sq && j.kind != .op && decide (j.id < id)) then c
      else c.updItem id (fun i => { i with order := false })
    | none => c)

/-! ### Cancellation (R567) -/

/-- End or stop an item with a status: a running program stops first and ends when its operations have completed; held update items end
with it (R324, R567). A copy that runs reports the bytes it has written (`Core.cutCopy`). -/
def Core.cancelItem (c : Core) (i : Item) (st : Nat) : Core :=
  match i.kind with
  | .program => match (c.part i.part).prog with
    | some pr =>
      if pr.item = i.id then
        if !pr.started then (c.setPart i.part { c.part i.part with prog := none }).endItem i.id st false
        else if pr.stopping then c
        else (c.stopProgram i.part st none).endHeld i.part st
      else c.endItem i.id st false
    | none => c.endItem i.id st false
  | _ => (c.cutCopy i).endItem i.id st false

/-- A write of P_CANCEL (R567, R584). -/
def Core.cancelWrite (c : Core) (p w : Nat) : Core :=
  if !bitOf w 23 then c
  else
    let q := bits w 5 0
    let entry := bits w 21 6
    let all := bitOf w 22
    let hits := c.items.filter (fun i => i.part == p && i.kind != .op && i.sq == q && (all || i.entry == entry))
    let c := c.wf Regs.HIF_CANCEL_STATUS_RESULT p (if hits.isEmpty && !all then St.BOUNDS else 0)
    if hits.isEmpty then c
    else threadAll (fun c i => c.cancelItem i St.ABORTED) (c.evt Cls.item Src.pcie p 0x0D09 (q + entry * 2 ^ 6 + b2n all * 2 ^ 22)) hits

/-- P_CANCEL (R567). -/
def execPCancel (p : PartId) (w : Word) (s : State) : Host.Outcome State Fault Refusal := s.on (fun c => c.cancelWrite p.val w.toNat)

/-- ITEM_TIME_LIMIT: an item reaches its TIME_MS, counted from its fetch (R567). DEDUCED (assumption 49). -/
def execItemTimeLimit (id : Nat) (s : State) : Host.Outcome State Fault Refusal :=
  s.on (fun c => match c.item? id with
    | some i =>
      if i.kind = .op || i.limit == 0 || decide (c.tick < i.openTick + i.limit * Config.ticksPerMs) then c
      else (c.evt Cls.item Src.pcie i.part 0x0D09 (i.sq + i.entry * 2 ^ 6 + 2 ^ 23)).cancelItem i St.TIMEOUT
    | none => c)

/-! ### Completion queues and records (R568-R571) -/

def Core.cqh? (c : Core) (i : Nat) : QHid := c.cqh.get (fun _ => {}) i
def Core.setCqh (c : Core) (i : Nat) (q : QHid) : Core := { c with cqh := c.cqh.put (fun _ => {}) i q }

/-- A write of CQ_CFG (R569). The first queue enabled after a reset takes the held records (R578). -/
def Core.cqCfgWrite (c : Core) (p q w : Nat) : Core :=
  let i := qi p q
  let v := w % 2 ^ 31
  let size := bits v 16 0
  if bitOf v 17 && !c.flag Regs.HIF_CQ_CFG_ENABLE i then
    let ok := isPow2 size && decide (16 ≤ size) && decide (bits v 28 18 < (if bitOf v 29 then 256 else 112))
    if !ok then (c.wr Regs.HIF_CQ_CFG i (setBits v 17 17 0)).wf Regs.HIF_CQ_STATUS_CFG_ERR i 1
    else
      let c := c.setCqh i { base := c.rf Regs.HIF_CQ_BASE_BASE i * 4096, size := size }
      let c := ((c.wr Regs.HIF_CQ_CFG i v).wr Regs.HIF_CQ_PTR i 0).wf Regs.HIF_CQ_STATUS_FULL i 0
      { c with recs := c.recs.map (fun r => if r.part = p ∧ r.held then { r with held := false, cq := q } else r) }
  else c.wr Regs.HIF_CQ_CFG i v

/-- CQ_ENABLE: a write of CQ_CFG of queue q of partition p (R569). -/
def execCqEnable (p : PartId) (q : Fin 64) (w : Word) (s : State) : Host.Outcome State Fault Refusal :=
  s.on (fun c => c.cqCfgWrite p.val q.val w.toNat)

/-- Unread records of a completion queue (R569). -/
def Core.cqUnread (c : Core) (i : Nat) : Nat :=
  let s := max (c.cqh? i).size 1
  (c.rf Regs.HIF_CQ_PTR_TAIL i + s - c.rf Regs.HIF_CQ_PTR_HEAD i % s) % s

/-- CQ_DOORBELL: the new head of completion queue q (R563). A bad one sets DB_ERR of the submission queue of the same number.
DEDUCED (assumption 48). -/
def execCqDoorbell (p : PartId) (q : Fin 64) (v : BitVec 16) (s : State) : Host.Outcome State Fault Refusal :=
  s.on (fun c =>
    let i := qi p.val q.val
    if !c.doorOpen p.val then c
    else if !c.flag Regs.HIF_CQ_CFG_ENABLE i || decide ((c.cqh? i).size ≤ v.toNat) then c.wf Regs.HIF_SQ_STATUS_DB_ERR i 1
    else
      let c := c.wf Regs.HIF_CQ_PTR_HEAD i v.toNat
      c.wf Regs.HIF_CQ_STATUS_FULL i (b2n (c.cqUnread i + 1 == (c.cqh? i).size)))

/-- Raise the vector of a completion queue (R569). DEDUCED (assumption 50). -/
def Core.cqVector (c : Core) (p q : Nat) : Core :=
  let i := qi p q
  (c.setCqh i { c.cqh? i with unsignalled := 0 }).msix (if c.flag Regs.HIF_CQ_CFG_FN i then 0 else p + 1) (c.rf Regs.HIF_CQ_CFG_VECTOR i)

/-- The 32 bytes of a record (R568). -/
def Rec.bytes (r : Rec) (head : Nat) (phase : Bool) : List Byte :=
  leBytes 8 r.tag ++
  leBytes 8 (r.status + r.sq * 2 ^ 16 + r.origin * 2 ^ 22 + r.ltile * 2 ^ 24 + r.entry * 2 ^ 32 + head * 2 ^ 48) ++
  leBytes 8 r.info ++ leBytes 8 (r.ts % 2 ^ 63 + b2n phase * 2 ^ 63)

/-- The record as its fields stand by ORIGIN (R568). -/
def Rec.norm (r : Rec) : Rec := if r.origin = 0 then { r with ltile := 0 } else { r with sq := 0, entry := 0 }

/-- The oldest record that waits for a queue. -/
def Core.nextRec (c : Core) (p q : Nat) : Option Rec := c.recs.find? (fun r => r.part == p && r.cq == q && !r.held)

/-- Whether a queue takes records: enabled, not stopped, not full, the link up (R571). -/
def Core.cqOpen (c : Core) (p q : Nat) : Bool :=
  let i := qi p q
  c.flag Regs.HIF_CQ_CFG_ENABLE i && !c.flag Regs.HIF_CQ_STATUS_WRITE_ERR i && !c.flag Regs.HIF_CQ_STATUS_FULL i &&
  c.flag Regs.HIF_LINK_STATUS_UP

/-- Write a record into the next slot of its queue (R568, R569, R571). DEDUCED (assumption 50). -/
def Core.putRec (c : Core) (p q : Nat) (r : Rec) : Core :=
  let i := qi p q
  let h := c.cqh? i
  let t := c.rf Regs.HIF_CQ_PTR_TAIL i
  let head := if r.origin = 0 then c.rf Regs.HIF_SQ_PTR_HEAD (qi p r.sq) else 0
  let c := c.writeHost (h.base + 32 * t) (r.norm.bytes head h.phase)
  let wrap := t + 1 == h.size
  let c := c.setCqh i { h with
    phase := if wrap then !h.phase else h.phase
    unsignalled := h.unsignalled + 1
    firstTick := if h.unsignalled = 0 then c.tick else h.firstTick }
  let c := c.wf Regs.HIF_CQ_PTR_TAIL i (if wrap then 0 else t + 1)
  let c := ({ c with recs := c.recs.erase r } : Core).count Regs.HIF_ITEMS_ENDED_COUNT p
  let c := if c.cqUnread i + 1 = h.size then (c.wf Regs.HIF_CQ_STATUS_FULL i 1).evt Cls.info Src.pcie p 0x0D02 q else c
  if max 1 (c.rf Regs.HIF_CQ_MOD_COUNT i) ≤ c.cqUnread i then c.cqVector p q else c

/-- RECORD_WRITE: the oldest record that waits for queue q of partition p is written (R571). -/
def execRecordWrite (p : PartId) (q : Fin 64) (s : State) : Host.Outcome State Fault Refusal :=
  s.on (fun c => match c.nextRec p.val q.val with
    | some r => if c.cqOpen p.val q.val then c.putRec p.val q.val r else c
    | none => c)

/-- CQ_WRITE_ERROR: the write of the oldest waiting record fails; the queue stops and the record stays (R571). What the failed write
left in the slot is open. DESIGN CHOICE (assumption 39). -/
def execCqWriteError (p : PartId) (q : Fin 64) (s : State) : Host.Outcome State Fault Refusal :=
  s.on (fun c => match c.nextRec p.val q.val with
    | some _ =>
      if !c.cqOpen p.val q.val then c
      else
        let i := qi p.val q.val
        let a := (c.cqh? i).base + 32 * c.rf Regs.HIF_CQ_PTR_TAIL i
        let junk := fun (c : Core) (k : Nat) => (let (w, c) := c.fresh; c.writeHost (a + 8 * k) (leBytes 8 w.toNat))
        let c := threadAll junk c [0, 1, 2, 3]
        ((c.wf Regs.HIF_CQ_CFG_ENABLE i 0).wf Regs.HIF_CQ_STATUS_WRITE_ERR i 1).evt Cls.item Src.pcie p.val 0x0D03 q.val
    | none => c)

/-- CQ_MOD_TIMER: TIMER ticks have passed since the first record not yet signalled (R569, R74). -/
def execCqModTimer (p : PartId) (q : Fin 64) (s : State) : Host.Outcome State Fault Refusal :=
  s.on (fun c =>
    let i := qi p.val q.val
    let h := c.cqh? i
    let timer := c.rf Regs.HIF_CQ_MOD_TIMER i
    if timer == 0 || h.unsignalled == 0 || decide (c.tick < h.firstTick + timer) then c else c.cqVector p.val q.val)

end Sys2Proof.Machine
end

