-- ==== Sys2Proof/Machine/Slow.lean ====
section
/-! DEFINITION. Slow.lean: the NVMe engines, the row residency directory and the fetches and write-backs of rows (R374-R394). -/

namespace Sys2Proof.Machine

/-! ### SSD slots -/

/-- A write of SSD_CTRL of a slot: setting ENABLE starts the slot or finds a wrong LBA size; clearing it stops new commands (R374,
R376, R377). -/
def Core.ssdWrite (c : Core) (s w : Nat) (lbaOk : Bool) : Core :=
  let v := w % 2 ^ 29
  let was := c.flag Regs.SLOW_SSD_CTRL_ENABLE s
  if bitOf v 0 && !was then
    if !lbaOk then (c.wr Regs.SLOW_SSD_CTRL s (v - 1)).wf Regs.SLOW_SSD_STATUS_FORMAT_ERR s 1
    else ((c.wr Regs.SLOW_SSD_CTRL s v).wf Regs.SLOW_SSD_STATUS_ACTIVE s 1).wf Regs.SLOW_SSD_STATUS_FAILED s 0
  else
    let c := c.wr Regs.SLOW_SSD_CTRL s v
    if bitOf v 0 then c else c.wf Regs.SLOW_SSD_STATUS_ACTIVE s 0

/-- SSD_ENABLE: a write of SSD_CTRL; `lbaOk` tells that the SSD reports an LBA size of 4,096 bytes (R374). -/
def execSsdEnable (slot : Fin 8) (w : Word) (lbaOk : Bool) (s : State) : Host.Outcome State Fault Refusal :=
  s.on (fun c => c.ssdWrite slot.val w.toNat lbaOk)

/-- Whether a pending row lies in a staging block. -/
def Core.rowInBlock (c : Core) (r : PendRow) (b : StageBlk) : Bool :=
  r.table == b.table && (match c.rowAddr b.part r.table r.row with
    | .flash a => a / 2 ^ 45 == b.slot && a % 2 ^ 45 / 4096 == b.block
    | _ => false)

/-- The group of a table that holds a block of a slot. -/
def Core.blockGroup (c : Core) (p table slot block : Nat) : Option Nat :=
  let t := c.rowTable p table
  (List.range t.groups).find? (fun g => match c.rowPlace p table (g * t.groupBytes) with
    | .flash a => a / 2 ^ 45 == slot && decide (a % 2 ^ 45 / 4096 ≤ block) && decide (block < a % 2 ^ 45 / 4096 + t.groupBytes / 4096)
    | _ => false)

/-- BUSY of the group of a block is made right. -/
def Core.busyOf (c : Core) (b : StageBlk) : Core :=
  match c.blockGroup b.part b.table b.slot b.block with
  | some g => c.refreshBusy b.part b.table g
  | none => c

/-- Drop a block from the staging area. -/
def Core.dropStage (c : Core) (b : StageBlk) : Core :=
  let c : Core :=
    { c with
      stageBlks := c.stageBlks.filter (fun x => !(x.slot == b.slot && x.block == b.block))
      staged := c.staged.keepIf (fun a => !(a / 2 ^ 45 == b.slot && a % 2 ^ 45 / 4096 == b.block)) }
  c.busyOf b

/-- Blocks whose rows have all settled without a new state leave the staging area (R391). -/
def Core.tidyStage (c : Core) : Core :=
  let idle := c.stageBlks.filter (fun b => !b.fetching && !b.writing && !b.dirty && !b.stuck && !(c.part b.part).pend.any (fun r => c.rowInBlock r b))
  threadAll (fun c b => c.dropStage b) c idle

/-- Rows that wait for a staging block start their fetch when one is free (R397 STAGE_BLOCKS). -/
def Core.restartFetches (c : Core) (p : Nat) : Core :=
  let one := fun (c : Core) (r : PendRow) =>
    if !r.waits then c
    else
      let (r', c) := c.fetchRow p r
      c.setPart p { c.part p with pend := (c.part p).pend.map (fun y => if y.slot = r.slot then r' else y) }
  threadAll one c (c.part p).pend

/-- Rows whose block or whose remote bytes have arrived are present (R384, R389). -/
def Core.markPresent (c : Core) (p : Nat) : Core :=
  let asked := fun (r : PendRow) => c.slowReqs.any (fun q => q.owner == .row p r.table r.row) ||
    c.qps.any (fun q => q.tx.any (fun m => m.owner == .row p r.table r.row))
  let here := fun (r : PendRow) => match c.rowAddr p r.table r.row with
    | .flash a => (match c.stageOf a with | some b => !b.fetching | none => false)
    | .remote _ _ _ => r.remote.isSome && !asked r
    | _ => true
  c.setPart p { c.part p with pend := (c.part p).pend.map (fun r => if !r.present && r.failed.isNone && here r then { r with present := true } else r) }

/-- The rows of a partition go on: fetched ones apply, waiting ones are accepted, idle blocks leave, waiting fetches start. -/
def Core.rowsGoOn (c : Core) (p : Nat) : Core := (((c.markPresent p).runRows p).tidyStage).restartFetches p

/-- The partition of an SSD slot. -/
def Core.slotPart (c : Core) (s : Nat) : Nat := c.rf Regs.SLOW_SSD_CTRL_PART s

/-- The partition of an operation or a host item that a command serves. -/
def Core.ownerPart (c : Core) (w : NvOwner) : Option Nat :=
  match w with
  | .op id => (c.op? id).map (·.part)
  | .item id => (c.item? id).map (·.part)
  | .fetch p => some p
  | .writeback p => some p

/-- BUSY of the groups that commands of partition `p` touched is made right once no other command of a group is in flight (R380). -/
def Core.clearBusy (c : Core) (p : Nat) (gone : List NvCmd) : Core :=
  let tables := List.range (c.rf Regs.SLOW_TABLE_COUNT_COUNT p)
  let groups := (gone.flatMap (fun n => tables.filterMap (fun t => (c.blockGroup p t n.slot n.block).map (fun g => (t, g))))).eraseDups
  let still := fun (e : Nat × Nat) => c.nvcmds.any (fun n => c.blockGroup p e.1 n.slot n.block == some e.2)
  threadAll (fun c e => if still e then c else c.refreshBusy p e.1 e.2) c groups

/-- NVMe commands that have left the queues for good: what they serve ends with LINK_DOWN (R377, R554). A write-back that fails leaves
its block to ROW_WRITEBACK_DONE (R390). -/
def Core.nvDrop (c : Core) (mine : List NvCmd) : Core :=
  let c : Core := { c with nvcmds := c.nvcmds.filter (fun n => !mine.any (fun m => m.id == n.id)) }
  let parts := (mine.filterMap (fun n => c.ownerPart n.owner)).eraseDups
  let c := threadAll (fun c p => c.clearBusy p mine) c parts
  let one := fun (c : Core) (n : NvCmd) => match n.owner with
    | .op id => c.slowDone id false St.LINK_DOWN
    | .item id => c.slowDone id true St.LINK_DOWN
    | .fetch p =>
      let bad := c.stageBlks.filter (fun b => b.slot == n.slot && b.block == n.block && b.fetching)
      let hit := fun (r : PendRow) => bad.any (fun b => b.part == p && c.rowInBlock r b)
      let c := c.setPart p { c.part p with pend := (c.part p).pend.map (fun r => if hit r then { r with failed := some St.LINK_DOWN } else r) }
      threadAll (fun c b => c.dropStage b) c bad
    | .writeback _ => c
  let c := threadAll one c mine
  threadAll (fun c p => c.rowsGoOn p) c ((mine.filterMap (fun n => match n.owner with | .fetch p => some p | _ => none)).eraseDups)

/-- A slot fails: every outstanding fetch and write of it fails with LINK_DOWN (R377). -/
def Core.ssdFail (c : Core) (s : Nat) (timeout : Bool) (status : Nat) : Core :=
  let mine := c.nvcmds.filter (fun n => n.slot == s)
  let c := (c.wf Regs.SLOW_SSD_STATUS_FAILED s 1).wf Regs.SLOW_SSD_STATUS_ACTIVE s 0
  (c.evt Cls.item (Src.ssd s) (c.slotPart s) 0x0812 (s + b2n timeout * 2 ^ 3 + status % 2 ^ 16 * 2 ^ 4)).nvDrop mine

/-- NVME_COMPLETION: a completion entry of command `id`, with the NVMe status (0: success). A failed command is tried twice more
(R376, R377). -/
def execNvmeCompletion (id : Nat) (status : BitVec 16) (s : State) : Host.Outcome State Fault Refusal :=
  s.on (fun c => match c.nvcmds.find? (fun n => n.id == id) with
    | none => c
    | some n =>
      if status ≠ 0 then
        let c := c.count Regs.SLOW_ERRORS_COUNT n.slot
        if n.tries < 2 then
          let c : Core := { c with nvcmds := c.nvcmds.map (fun x => if x.id = id then { x with tries := x.tries + 1, issued := c.tick } else x) }
          c.send 1 [n.slot, n.kind, c.rf Regs.SLOW_NSID_NSID n.slot, n.block]
        else c.ssdFail n.slot false status.toNat
      else
        let p := c.ownerPart n.owner
        let c : Core := { c with nvcmds := c.nvcmds.filter (fun x => x.id != id) }
        let c := match p with | some p => c.clearBusy p [n] | none => c
        match n.owner with
        | .op o => c.slowDone o false 0
        | .item o => c.slowDone o true 0
        | .fetch q => (c.updStage n.slot n.block (fun b => { b with fetching := false })).clearBusy q [n]
        | .writeback _ =>
          let mine := fun (a : Nat) => a / 2 ^ 45 == n.slot && a % 2 ^ 45 / 4096 == n.block
          let flush := fun (m : SMap Byte) (e : Nat × Option Byte) => match e.2 with
            | some b => if mine e.1 then m.put zeroByte e.1 b else m
            | none => m
          let c : Core := { c with flash := threadAll flush c.flash c.staged }
          c.updStage n.slot n.block (fun b => { b with dirty := false }))

/-- SSD_FAILED: command `id` has had no completion for NVME_TIMEOUT (R377). -/
def execSsdFailed (id : Nat) (s : State) : Host.Outcome State Fault Refusal :=
  s.on (fun c => match c.nvcmds.find? (fun n => n.id == id) with
    | some n =>
      if c.tick < n.issued + max 1 (c.rf Regs.SLOW_NVME_TIMEOUT_MS) * Config.ticksPerMs then c
      else (c.count Regs.SLOW_ERRORS_COUNT n.slot).ssdFail n.slot true 0
    | none => c)

/-! ### The directory -/

/-- Whether the partition holds an update item, a pending row or an access through space 0x5 (R381). -/
def Core.dirBusy (c : Core) (p : Nat) : Bool :=
  let slowTx := fun (w : MsgOwner) => match w with | .slow _ _ => true | .row _ _ _ => true | _ => false
  (c.part p).step.items.any (·.open_) || !(c.part p).pend.isEmpty || c.slowReqs.any (fun r => r.part == p) ||
  c.qps.any (fun q => q.part == p && q.tx.any (fun m => slowTx m.owner)) ||
  c.nvcmds.any (fun n => c.ownerPart n.owner == some p) || c.ops.any (fun o => o.part == p && o.rowAccess)

/-- A write of DIR_DATA (R381). -/
def Core.dirWrite (c : Core) (p w : Nat) : Core :=
  let k := c.rf Regs.SLOW_DIR_INDEX_INDEX p
  if c.dirBusy p || decide (c.rf Regs.SLOW_DIR_RANGE_COUNT p ≤ k) then c.wf Regs.SLOW_SLOW_PSTATUS_CFG_ERR p 1
  else
    let e := bits w 1 0 + bits w 35 4 * 2 ^ 4 + 0x1FFFF * 2 ^ 47
    let c : Core := { c with dir := c.dir.put dirDefault (c.rf Regs.SLOW_DIR_RANGE_FIRST p + k) (BitVec.ofNat 64 e) }
    c.wf Regs.SLOW_DIR_INDEX_INDEX p (k + 1)

/-- DIR_DATA (R381). -/
def execDirData (p : PartId) (w : Word) (s : State) : Host.Outcome State Fault Refusal := s.on (fun c => c.dirWrite p.val w.toNat)

/-! ### Deadlines, fetches and write-backs -/

/-- DEADLINE of a partition in ticks (R382, R391). -/
def Core.deadlineTicks (c : Core) (p : Nat) : Nat := max 1 (c.rf Regs.SLOW_DEADLINE_US p) * 25

/-- ROW_ACCESS_DEADLINE: the fetch of an access through space 0x5, of operation or host item `id`, has not completed DEADLINE
microseconds after its issue (R382). -/
def execRowAccessDeadline (id : Nat) (item : Bool) (s : State) : Host.Outcome State Fault Refusal :=
  s.on (fun c =>
    let w := if item then NvOwner.item id else NvOwner.op id
    let p := if item then ((c.item? id).map (·.part)).getD 0 else ((c.op? id).map (·.part)).getD 0
    let early := c.nvcmds.any (fun n => n.owner == w && decide (c.tick < n.began + c.deadlineTicks p))
    if !c.slowBusy id item || early then c
    else
      let clean := fun (q : QP) => { q with tx := q.tx.map (fun m => if m.owner = .slow id item then { m with owner := .none } else m) }
      let gone := c.nvcmds.filter (fun n => n.owner == w)
      let c : Core :=
        { c with
          nvcmds := c.nvcmds.filter (fun n => n.owner != w)
          slowReqs := c.slowReqs.filter (fun r => r.owner != .slow id item)
          qps := c.qps.map clean }
      (c.clearBusy p gone).slowDone id item St.ROW_DEADLINE)

/-- ROW_ACCEPT: waiting rows of update item `op` are accepted as entries free (R387). -/
def execRowAccept (p : PartId) (op : Nat) (s : State) : Host.Outcome State Fault Refusal :=
  s.on (fun c => match (c.part p.val).step.items.find? (fun i => i.op == op && i.open_ && !i.todo.isEmpty) with
    | some i => if c.fwHold then c else (c.acceptItem p.val i false).runRows p.val
    | none => c)

/-- ROW_FETCH_DONE: the rows of a partition whose fetches have completed are present, and after the commit they are applied (R389). -/
def execRowFetchDone (p : PartId) (s : State) : Host.Outcome State Fault Refusal := s.on (fun c => c.rowsGoOn p.val)

/-- A write-back has failed: the block stays in staging as the state of record and blocks its group (R390). -/
def Core.writebackFailed (c : Core) (b : StageBlk) : Core :=
  let first := match c.blockGroup b.part b.table b.slot b.block with
    | some g => (match c.rowPlace b.part b.table (g * (c.rowTable b.part b.table).groupBytes) with | .flash a => a % 2 ^ 45 / 4096 | _ => 0)
    | none => 0
  let c := (c.updStage b.slot b.block (fun b => { b with writing := false, stuck := true })).busyOf b
  ((c.evt Cls.partition (Src.ssd b.slot) b.part 0x0813 (b.table + first * 2 ^ 8)).wf Regs.PART_STATUS_FATAL b.part 1).stopProgram
    b.part St.LINK_DOWN none

/-- ROW_WRITEBACK: every row of a changed block that holds a pending entry has settled, so the block is written back (R390). -/
def execRowWriteback (slot : Fin 8) (block : BitVec 33) (s : State) : Host.Outcome State Fault Refusal :=
  s.on (fun c => match c.stageBlks.find? (fun b => b.slot == slot.val && b.block == block.toNat) with
    | none => c
    | some b =>
      if c.fwHold || b.fetching || b.writing || !b.dirty || b.stuck || (c.part b.part).pend.any (fun r => c.rowInBlock r b) then c
      else if !c.ssdOk b.slot then c.writebackFailed b
      else
        let c := c.nvme b.slot 1 b.block (.writeback b.part)
        (c.updStage b.slot b.block (fun b => { b with writing := true })).busyOf b)

/-- ROW_WRITEBACK_DONE: the write-back of a block has completed, and the block leaves the staging area, or it has failed after its
retries (R390). -/
def execRowWritebackDone (slot : Fin 8) (block : BitVec 33) (s : State) : Host.Outcome State Fault Refusal :=
  s.on (fun c => match c.stageBlks.find? (fun b => b.slot == slot.val && b.block == block.toNat) with
    | none => c
    | some b =>
      if !b.writing || c.nvcmds.any (fun n => n.slot == b.slot && n.block == b.block && n.owner == .writeback b.part) then c
      else if b.dirty then c.writebackFailed b
      else
        let c := c.updStage b.slot b.block (fun b => { b with writing := false })
        (c.busyOf b).rowsGoOn b.part)

/-- ROW_STEP_DEADLINE: DEADLINE microseconds after the decision, every row that has not been applied fails, is logged, and the step
boundary is taken when it is due (R391). -/
def execRowStepDeadline (p : PartId) (s : State) : Host.Outcome State Fault Refusal :=
  s.on (fun c =>
    let p := p.val
    let q := (c.part p).step
    if !q.committed || decide (c.tick < q.decideTick + c.deadlineTicks p) then c
    else
      let failRow := fun (c : Core) (r : PendRow) => (c.logRow p r.table r.row (r.failed.getD St.ROW_DEADLINE)).freeRow p r
      let c := threadAll failRow c (c.part p).pend
      let waiting := q.items.flatMap (fun i => if i.open_ then i.todo.map (fun k => (i.table.getD 0, (i.rows[k]?).getD 0)) else [])
      let seen := (c.part p).step.failed.map (fun f => (f.1, f.2.1))
      let c := threadAll (fun c (w : Nat × Nat) => c.logRow p w.1 w.2 St.ROW_DEADLINE) c (waiting.eraseDups.filter (fun w => !seen.contains w))
      let c := c.updStep p (fun s => { s with items := s.items.map (fun i => { i with todo := [] }) })
      let n := (c.part p).step.rowsFailed
      let c := if n = 0 ∨ (c.part p).step.rowsPosted then c
        else (c.updStep p (fun s => { s with rowsPosted := true })).stepEvt p Cls.item 0x0811 n (c.stepOf p)
      let c := (c.tidyStage).settleItems p
      if c.canBoundary p then c.boundary p else c)

end Sys2Proof.Machine
end

