-- ==== Sys2Proof/Machine/Partition.lean ====
section
/-! DEFINITION. Partition.lean: the life of a partition: creation, change of its tile groups, reset, removal, scrub (R511-R517,
R540-R546, R578), and the reset of tiles (R344, R580). -/

namespace Sys2Proof.Machine

/-! ### Resets of tiles -/

/-- Reset a physical tile: its sequencer, codebook slots, stash directory and counters; the logical map, the bank map, the bank
configuration and the spill area stay (R577). -/
def Core.tileCleared (c : Core) (t : Nat) : Core :=
  let b := 0x200000 + 0x1000 * t
  let keep := [Regs.TILE_STASH_SPILL_BASE, Regs.TILE_STASH_SPILL_PAGES, Regs.TILE_BANK_MAP, Regs.TILE_BANK_STATE, Regs.TILE_BANK_CFG,
    Regs.TILE_BANK_STATUS, Regs.TILE_BANK_FUSE].map (fun r => r.at t)
  let c := c.setTile t {}
  let c : Core := { c with regs := c.regs.keepIf (fun k => decide (k < b) || decide (b + 0x1000 ≤ k) || keep.contains k) }
  c.wr Regs.TILE_BANK_STATUS t (c.rf Regs.TILE_BANK_STATUS_SWAPPING t + c.rf Regs.TILE_BANK_STATUS_WIPING t * 16)

/-- Reset a physical tile with its banks; a bank that is being wiped goes off when the wipe ends (R344, R353). DEDUCED (assumption 56). -/
def Core.resetTile (c : Core) (t : Nat) : Core := (c.tileCleared t).banksOff t

/-- Swaps in the tile groups of a mask that have not reached their step 4 are abandoned, and the spare stays free (R39, R348). A bank swap
reaches step 4 with BANK_SPARED, which ends it. Triggers that wait go with them. -/
def Core.abandonSwaps (c : Core) (groups : Nat) : Core :=
  let gone := c.bankSwaps.filter (fun w => bitOf groups (groupOfPhys w.tile))
  let c := threadAll (fun c (w : BankSwap) => c.wf Regs.TILE_BANK_STATUS_SWAPPING w.tile 0) c gone
  { c with
    bankSwaps := c.bankSwaps.filter (fun w => !bitOf groups (groupOfPhys w.tile))
    heldSwaps := c.heldSwaps.filter (fun x => !bitOf groups (match x with | .tile l _ => groupOfLogical l | .bank t _ _ _ => groupOfPhys t))
    tileSwaps := c.tileSwaps.filter (fun w => !(bitOf groups (groupOfLogical w.ltile) && decide (w.step < 4))) }

/-- Reset the tile groups of a mask and wipe their Umbra banks (R344, R352). -/
def Core.resetGroups (c : Core) (groups trigger part status : Nat) : Core :=
  let c := (c.abandonSwaps groups).wipe { groups := groups, trigger := trigger, part := part, status := status }
  threadAll (fun c t => c.resetTile t) c ((bitsIn 16 groups).flatMap (fun g => upFrom (17 * g) 17))

/-! ### Registers of a partition -/

/-- The BAR0 ranges of the registers of partition p (R326, R397, R467, R510, R548, R583, R584, R614, R626). DEDUCED (assumption 56). -/
def partRanges (p : Nat) : List (Nat × Nat) :=
  [(0x21000 + 0x100 * p, 0x100), (0x40280 + 8 * p, 8), (0x61000 + 0x100 * p, 0x100), (0x81000 + 0x100 * p, 0x100),
   (0xB0000 + 0x4000 * p, 0x4000), (0x100000 + 0x1000 * p, 0x1000), (0x501000 + 0x100 * p, 0x100), (0x701000 + 0x200 * p, 0x200),
   (0x801000 + 0x400 * p, 0x400)]

/-- The registers of partition p take their reset values, except those at the offsets `keep`; its event queue is reset with its
function. DEDUCED (assumption 56). -/
def Core.resetPartRegs (c : Core) (p : Nat) (keep : List Nat) : Core :=
  let mine := fun (k : Nat) => (partRanges p).any (fun r => decide (r.1 ≤ k) && decide (k < r.1 + r.2))
  let q := fun (k : Nat) => decide (0x11080 + 0x80 * p ≤ k) && decide (k < 0x11100 + 0x80 * p)
  { c with
    regs := c.regs.keepIf (fun k => keep.contains k || !(mine k || q k))
    evq := c.evq.keepIf (fun k => k != p + 1)
    cqh := c.cqh.keepIf (fun k => k / 64 != p)
    sqOff := c.sqOff.filter (fun k => k / 64 != p)
    hold := c.hold.keepIf (fun k => k != p + 1) }

/-- The UPD registers of tile group g that belong to the partition (R326). -/
def Core.resetUpd (c : Core) (g : Nat) : Core := c.resetRange (0x900100 + 0x1000 * g) (0x901000 + 0x1000 * g)

/-! ### What a reset and a removal do to the units -/

/-- ABORT with a reason leaves on every READY queue pair of a partition (R465). -/
def Core.abortQps (c : Core) (p reason : Nat) : Core :=
  threadAll (fun c q => c.control q 0x0F 0 (leBytes 2 reason)) c (c.qps.filter (fun q => q.part == p && q.state == qREADY))

/-- The queue pairs of a partition are reset; their operations end with a status (R465). -/
def Core.resetQps (c : Core) (p st : Nat) : Core :=
  let mine := c.qps.filter (fun q => q.part == p)
  let c := threadAll (fun c q => ((c.takeWaiting q.num).1).endQpOps q.num st) c mine
  { c with
    qps := c.qps.filter (fun q => q.part != p)
    regionCache := c.regionCache.keepIf (fun k => k / 262144 != p)
    invals := c.invals.filter (fun e => e.1 != p) }

/-- Groups are dissolved without messages, collectives end with the action's status (R508, R543). -/
def Core.resetColl (c : Core) (p : Nat) : Core := (c.dropColls p).resetRange (0x801200 + 0x400 * p) (0x801400 + 0x400 * p)

/-- A probe on a queue pair of the partition ends with a status. -/
def Core.dropProbe (c : Core) (p st : Nat) : Core :=
  match c.probe with
  | some b => if b.part = p then c.probeEnd st else c
  | none => c

/-- The NVMe commands of a partition's operations, items and rows are abandoned. -/
def Core.dropNvme (c : Core) (p : Nat) : Core :=
  { c with
    nvcmds := c.nvcmds.filter (fun n => c.ownerPart n.owner != some p)
    slowReqs := c.slowReqs.filter (fun r => r.part != p) }

/-- The open transaction of a partition is rolled back (R540, R577). -/
def Core.rollbackPart (c : Core) (p : Nat) : Core :=
  if c.flag Regs.CFG_P_TXN_STATUS_OPEN p then
    (({ c with txns := c.txns.put (fun _ => {}) (p + 1) { ender := 1 } } : Core).wf Regs.CFG_P_TXN_STATUS_OPEN p 0).wf
      Regs.CFG_P_TXN_STATUS_END p 2
  else c

/-- End every open item of a partition because of another action (R59); a copy that runs reports bytes that are open. -/
def Core.endAllItems (c : Core) (p st : Nat) : Core :=
  let one := fun (c : Core) (i : Item) =>
    if i.kind = .copy && i.started then (c.cutCopy i).endItem i.id st false
    else
      let info := match (c.part p).prog with | some pr => if pr.item = i.id then pr.info else i.info | none => i.info
      (c.updItem i.id (fun i => { i with info := info })).endItem i.id st false
  threadAll one c (c.items.filter (fun i => i.part == p))

/-- The operations of a partition are abandoned; what they write is open (R60). DEDUCED (assumption 52). -/
def Core.dropOps (c : Core) (p : Nat) : Core :=
  { threadAll (fun c o => c.cutOp o) c (c.ops.filter (fun o => o.part == p)) with ops := c.ops.filter (fun o => o.part != p) }

/-! ### Creation -/

/-- Whether the committed tile groups of partition p may stand: not zero (R29), none owned by another partition, none degraded without a
mapped tile (R513). `others` are groups that the same commit gives to other partitions. -/
def Core.maskOk (c : Core) (p groups others : Nat) : Bool :=
  groups != 0 && (bitsIn 16 groups).all (fun g =>
    !bitOf others g && (match c.partOfGroup g with | some q => q == p | none => true) &&
    (upFrom (16 * g) 16).any (fun l => (c.phys l).isSome))

/-- CREATE takes effect (R512): a new memory key, a new release nonce, the function is enabled. DESIGN CHOICE (assumption 8). -/
def Core.create (c : Core) (p : Nat) : Core :=
  let c := c.wf Regs.PART_STATE_STATE p pACTIVE
  let c := c.setPart p { key := c.nextKey }
  let c := c.wf Regs.PART_MEM_KEY_GEN_GEN p (c.rf Regs.PART_MEM_KEY_GEN_GEN p + 1)
  let c : Core := { c with nextKey := c.nextKey + 1, nonces := c.nonces.put (fun k => k) (p + 1) c.draws, draws := c.draws + 1 }
  c.evt Cls.info Src.security p 0x0C00 (c.rf Regs.PART_TILE_GROUPS_GROUPS p)

/-- A commit changes TILE_GROUPS of an ACTIVE partition (R514): removed groups are reset and wiped, and the partition's UPD values move
with the lead engine (R28, R326). -/
def Core.changeGroups (c : Core) (p groups : Nat) : Core :=
  let old := c.rf Regs.PART_TILE_GROUPS_GROUPS p
  let e := c.lead p
  let gone := old - (old &&& groups)
  let c := if gone = 0 then c else c.resetGroups gone 3 p St.PROTECTION
  let c := c.wf Regs.PART_TILE_GROUPS_GROUPS p groups
  let e' := c.lead p
  if e = e' then c
  else
    let base := fun (n : Nat) => 0x900000 + 0x1000 * n
    let mine := c.regs.filter (fun r => decide (base e + 0x100 ≤ r.1) && decide (r.1 < base e + 0x1000))
    let c := (c.resetUpd e).resetUpd e'
    { c with regs := threadAll (fun (m : SMap Word) (r : Nat × Word) => m.ins (r.1 - base e + base e') r.2) c.regs mine }

/-! ### Removal -/

/-- Entries that a doorbell covered and that have not been fetched become items; they are ended at once by the removal (R540).
DEDUCED (assumption 54). -/
def Core.fetchRest (p : Nat) : Nat → Core → Core
  | 0, c => c
  | n + 1, c => if !c.canOpen p then c else match c.sqNext p with | some q => Core.fetchRest p n (c.sqFetch p q {}) | none => c

/-- Entries of a partition's submission queues that wait to be fetched. DEDUCED (assumption 54). -/
def Core.unfetched (c : Core) (p : Nat) : Nat :=
  ((List.range 64).map (fun q =>
    if c.sqReady p q then
      (c.rf Regs.HIF_SQ_PTR_TAIL (qi p q) + c.rf Regs.HIF_SQ_CFG_SIZE (qi p q) - c.rf Regs.HIF_SQ_PTR_HEAD (qi p q)) % c.rf Regs.HIF_SQ_CFG_SIZE (qi p q)
    else 0)).foldl (· + ·) 0

/-- The removal of an ACTIVE partition begins (R540); tamper sends no ABORT (R539). DEDUCED (assumption 54). -/
def Core.remove (c : Core) (p : Nat) (abort : Bool) : Core :=
  let open_ := c.items.countP (fun i => i.part == p)
  let c := Core.fetchRest p (c.unfetched p) c
  let c := (c.wf Regs.PART_STATE_STATE p pDRAINING).setPart p { c.part p with removeTick := c.tick, drainEnded := 0 }
  let c := c.evt Cls.info Src.security p 0x0C01 open_
  let c := threadAll (fun c (i : Item) => c.endItem i.id St.ABORTED false) c (c.items.filter (fun i => i.part == p && i.kind != .op && !i.started))
  let c := (c.stopProgram p St.KEY_REVOKED none).rollbackPart p
  if abort then c.abortQps p St.PARTITION_RESET else c

/-- The key IDs of a partition. -/
def Core.keyIds (c : Core) (p : Nat) : List Nat := (List.range 255).filter (fun k => c.rf Regs.SEC_KEYID_MAP_PART k == p)

/-- The next granule of a removed partition begins its scrub (R543). -/
def Core.scrubNext (c : Core) (p : Nat) : Core :=
  match (c.part p).scrub with
  | g :: _ => c.wf Regs.MEM_GRANULE_OWNER_PART g 0x1E
  | [] => c

/-- From the tick after the revocation the partition's resources are cleared (R543). DEDUCED (assumption 54). -/
def Core.clearPart (c : Core) (p : Nat) : Core :=
  let groups := c.rf Regs.PART_TILE_GROUPS_GROUPS p
  let c := (c.resetQps p St.KEY_REVOKED).resetColl p
  let c := (c.dropProbe p St.KEY_REVOKED).dropRows p true
  let c := c.resetGroups groups 2 p St.KEY_REVOKED
  let c := threadAll (fun c g => c.resetUpd g) c (bitsIn 16 groups)
  let first := c.rf Regs.SLOW_DIR_RANGE_FIRST p
  let count := c.rf Regs.SLOW_DIR_RANGE_COUNT p
  let c : Core := { c with dir := c.dir.keepIf (fun k => decide (k < first) || decide (first + count ≤ k)) }
  let mine := (List.range 8).filter (fun s => c.flag Regs.SLOW_SSD_CTRL_ENABLE s && c.slotPart s == p)
  let c := threadAll (fun c s => c.wf Regs.SLOW_SSD_STATUS_ACTIVE s 0) c mine
  let granules := (List.range 372).filter (fun g => c.rf Regs.MEM_GRANULE_OWNER_PART g == p)
  (c.setPart p { c.part p with scrub := granules, scrubbed := 0 }).scrubNext p

/-- The revocation of a partition's keys (R541, R542): its key IDs, memory key and key slots at one tick; held update items end, its
pending rows are logged (R394), and every ending from here on is KEY_REVOKED. DEDUCED (assumption 54). -/
def Core.revoke (c : Core) (p : Nat) : Core :=
  let ids := c.keyIds p
  let c := threadAll (fun c k => c.wf Regs.SEC_KEYID_MAP_REVOKED k 1) c ids
  let c := threadAll (fun c (r : PendRow) => c.logRow p r.table r.row St.KEY_REVOKED) c (c.part p).pend
  let c := threadAll (fun c o => c.cutOp o) c (c.ops.filter (fun o => o.part == p))
  let c := threadAll (fun c i => c.cutCopy i) c (c.items.filter (fun i => i.part == p))
  let c := c.wr Regs.PART_REVOKE_TICK p c.tick
  let c := c.partFatal p Src.security 0x0C02 (c.part p).removeTick ids.length St.KEY_REVOKED
  let c := c.setPart p { c.part p with revoked := true, key := 0 }
  let c : Core := { c with slots := c.slots.keepIf (fun k => k / 16 != p) }
  let c := c.endHeld p St.KEY_REVOKED
  let mark := fun (o : AOp) => if o.part = p then { o with status := St.KEY_REVOKED, wait := o.wait && c.slowBusy o.id false } else o
  let c : Core := { c with ops := c.ops.map mark }
  c.clearPart p

/-- The partition is FREE: its resources go back to the pool (R544, R545). -/
def Core.freePart (c : Core) (p : Nat) : Core :=
  let n := (c.part p).scrubbed
  let c := threadAll (fun c k => c.wf Regs.SEC_KEYID_MAP_PART k 0x1F) c (c.keyIds p)
  let vcs := (List.range 256).filter (fun i => c.rf Regs.FAB_VC_CFG_OWNER i == p)
  let c := threadAll (fun c i => c.wf Regs.FAB_VC_CFG_OWNER i 0x1F) c vcs
  let mine := (List.range 8).filter (fun s => c.flag Regs.SLOW_SSD_CTRL_ENABLE s && c.slotPart s == p)
  let c := threadAll (fun c s => c.resetReg Regs.SLOW_SSD_CTRL s) c mine
  let c := (c.resetPartRegs p [Regs.PART_REVOKE_TICK.at p]).setPart p {}
  c.evt Cls.info Src.security p 0x0C05 n

/-- The last record of a partition that is being removed has been written: its function is disabled, and it is FREE once no granule is
left to scrub (R544). DEDUCED (assumption 55). -/
def Core.freed (c : Core) (p : Nat) : Core :=
  let x := c.part p
  let leaving := c.pstate p == pDRAINING || (c.pstate p == pSCRUBBING && !x.freed)
  if !leaving || !x.revoked || c.items.any (fun i => i.part == p) || c.recs.any (fun r => r.part == p) then c
  else
    let c := (c.wf Regs.PART_STATE_STATE p pSCRUBBING).setPart p { x with freed := true }
    let c := (c.dropOps p).evt Cls.info Src.security p 0x0C04 x.drainEnded
    let c : Core := { c with ide := c.ide.filter (· != p + 1), barSize := c.barSize.keepIf (fun k => k != p + 1), busMaster := c.busMaster.filter (· != p + 1) }
    if x.scrub.isEmpty then c.freePart p else c

/-- KEY_IDS_REVOKED: every ABORT of a removal has left its transmitter (R541). -/
def execKeyIdsRevoked (p : PartId) (s : State) : Host.Outcome State Fault Refusal :=
  s.on (fun c => if c.pstate p.val = pDRAINING && !(c.part p.val).revoked then c.revoke p.val else c)

/-- PARTITION_FREED (R544). DEDUCED (assumption 55). -/
def execPartitionFreed (p : PartId) (s : State) : Host.Outcome State Fault Refusal := s.on (fun c => c.freed p.val)

/-- PARTITION_DRAIN_FORCED: 10 ms after t0 every open item of the partition ends with KEY_REVOKED, and the partition leaves DRAINING
(R544). DEDUCED (assumption 55). -/
def execPartitionDrainForced (p : PartId) (s : State) : Host.Outcome State Fault Refusal :=
  s.on (fun c =>
    let p := p.val
    if c.pstate p ≠ pDRAINING || decide (c.tick < (c.part p).removeTick + 250000) then c
    else
      let c := if (c.part p).revoked then c else c.revoke p
      let n := c.items.countP (fun i => i.part == p)
      let c := (c.endAllItems p St.KEY_REVOKED).dropNvme p
      let c := (c.setPart p { c.part p with prog := none }).dropOps p
      let c := if n = 0 then c else (c.count Regs.PART_FORCED_ITEMS_COUNT p n).evt Cls.item Src.security p 0x0C03 n
      (c.wf Regs.PART_STATE_STATE p pSCRUBBING).freed p)

/-- GRANULE_SCRUBBED: the granule being scrubbed holds zero lines under no key and is free (R543); the last one makes the partition FREE
once PARTITION_FREED has been posted (R544). -/
def execGranuleScrubbed (p : PartId) (s : State) : Host.Outcome State Fault Refusal :=
  s.on (fun c =>
    let p := p.val
    let x := c.part p
    match x.scrub with
    | [] => c
    | g :: rest =>
      let out := fun (k : Nat) => k / granuleBytes != g
      let c : Core := { c with dram := c.dram.keepIf out, dramKey := c.dramKey.keepIf out }
      let c := (c.resetReg Regs.MEM_GRANULE_OWNER g).setPart p { x with scrub := rest, scrubbed := x.scrubbed + 1 }
      if rest.isEmpty then (if x.freed then c.freePart p else c) else c.scrubNext p)

/-! ### Reset -/

/-- The registers that a partition reset keeps: what R517 keeps of the partition, and the ranges that PF0 assigned to it.
DEDUCED (assumption 56). -/
def resetKeeps (p : Nat) : List Nat :=
  [Regs.PART_STATE, Regs.PART_TILE_GROUPS, Regs.PART_REVOKE_TICK, Regs.PART_MEM_KEY_GEN, Regs.SLOW_DIR_RANGE, Regs.RMA_QP_RANGE,
   Regs.RMA_KEY_RANGE, Regs.RMA_PD_RANGE].map (fun r => r.at p)

/-- The reset of a partition ends (R578). -/
def Core.partResetDone (c : Core) (p : Nat) : Core :=
  let x := c.part p
  if x.resetting then (c.setPart p { x with resetting := false, resetItems := 0 }).evt Cls.info Src.pcie p 0x0D07 x.resetItems else c

/-- A function-level reset sets the configuration of a virtual function back (R551). -/
def Core.flrConfig (c : Core) (fn : Nat) : Core :=
  { c with barSize := c.barSize.keepIf (fun k => k != fn), busMaster := c.busMaster.filter (· != fn) }

/-- A partition reset (R578, R517): only an ACTIVE partition that is not being reset takes one (R546). -/
def Core.partReset (c : Core) (p : Nat) (flr : Bool) : Core :=
  if c.pstate p ≠ pACTIVE || (c.part p).resetting then c
  else
    let n := c.items.countP (fun i => i.part == p)
    let c := if flr then c.flrConfig (p + 1) else c
    let c := c.evt Cls.partition Src.pcie p 0x0D08 (n + b2n flr * 2 ^ 32)
    let c := (c.abortQps p St.PARTITION_RESET).endHeld p St.PARTITION_RESET
    let c := (c.endAllItems p St.PARTITION_RESET).dropOps p
    let c := threadAll (fun c (q : QP) => c.writeState p q.num qRESET) c (c.qps.filter (fun q => q.part == p))
    let c := (c.resetQps p St.PARTITION_RESET).resetColl p
    let c := ((c.dropProbe p St.PARTITION_RESET).dropNvme p).dropRows p true
    let c : Core := { c with recs := c.recs.map (fun r => if r.part = p then { r with held := true } else r) }
    let c := (c.rollbackPart p).resetPartRegs p (resetKeeps p)
    let c := c.peak Regs.HIF_RECORDS_PEAK p (c.slotsUsed p)
    let groups := c.rf Regs.PART_TILE_GROUPS_GROUPS p
    let c := threadAll (fun c g => c.resetUpd g) c (bitsIn 16 groups)
    let c := c.setPart p { key := (c.part p).key, resetting := true, resetItems := n }
    let c := c.resetGroups groups 4 p St.PARTITION_RESET
    let spill := fun (c : Core) (t : Nat) => (c.resetReg Regs.TILE_STASH_SPILL_BASE t).resetReg Regs.TILE_STASH_SPILL_PAGES t
    let c := threadAll spill c ((bitsIn 16 groups).flatMap (fun g => upFrom (17 * g) 17))
    if c.wipes.any (fun w => w.part == p && w.trigger == 4 && w.tile == none) then c else c.partResetDone p

/-- A tile reset ends (R580). DEDUCED (assumption 56). -/
def Core.tileResetDone (c : Core) : Core := c.wf Regs.DEV_TILE_RESET_STATUS_BUSY 0 0

/-- UMBRA_WIPED: the last bank of wipe number `k`, oldest first, is back (R353); a partition reset or a tile reset whose wipe it was
ends. -/
def execUmbraWiped (k : Nat) (s : State) : Host.Outcome State Fault Refusal :=
  s.on (fun c => match c.wipes[k]? with
    | none => c
    | some w =>
      let c := c.wipeDone w
      if w.trigger ≠ 4 then c else if w.tile.isSome then c.tileResetDone else c.partResetDone w.part)

/-- A write of TILE_RESET (R580, R582): refused for a tile that runs a program; ignored while BUSY or without GO. -/
def Core.tileResetWrite (c : Core) (w : Nat) : Core :=
  let t := bits w 8 0
  if !bitOf w 9 || c.flag Regs.DEV_TILE_RESET_STATUS_BUSY then c
  else if 271 < t then c.wf Regs.DEV_TILE_RESET_STATUS_RESULT 0 St.BOUNDS
  else if (c.logical t).isSome && (c.tile t).run == 1 then c.wf Regs.DEV_TILE_RESET_STATUS_RESULT 0 St.PROTECTION
  else
    let c := (c.wf Regs.DEV_TILE_RESET_STATUS_RESULT 0 0).wf Regs.DEV_TILE_RESET_STATUS_BUSY 0 1
    let c := c.wipe { groups := 2 ^ groupOfPhys t, trigger := 4, part := (c.partOfGroup (groupOfPhys t)).getD devPart, status := 0, tile := some t }
    let c := c.resetTile t
    if c.wipes.any (fun w => w.tile == some t) then c else c.tileResetDone

/-- TILE_RESET (R580). -/
def execTileReset (w : Word) (s : State) : Host.Outcome State Fault Refusal := s.on (fun c => c.tileResetWrite w.toNat)

end Sys2Proof.Machine
end

