-- ==== Sys2Proof/Machine/Security.lean ====
section
/-! DEFINITION. Security.lean: the key store, key release, sealed objects, the life cycle, tamper and attestation (R518-R539). -/

namespace Sys2Proof.Machine

/-! ### Random draws and keys -/

/-- A new release nonce: of the device (key 0) or of partition k - 1 (R512, R527). -/
def Core.newNonce (c : Core) (k : Nat) : Core := { c with nonces := c.nonces.put (fun k => k) k c.draws, draws := c.draws + 1 }

/-- The 32 bytes of a release nonce (R527). -/
def Core.nonce (c : Core) (k : Nat) : List Byte := leBytes 32 (Config.random (c.nonces.get (fun k => k) k)).toNat

/-- Every nonce is drawn anew (R537). -/
def Core.newNonces (c : Core) : Core := threadAll (fun c k => c.newNonce k) c (List.range 17)

/-- The bytes of an ASCII string. -/
def ascii (t : String) : List Byte := t.toList.map (fun x => BitVec.ofNat 8 x.toNat)

/-- The link key of key ID k under the current epoch (R520). -/
def Core.linkKey (c : Core) (k : Nat) : Option (List Byte) :=
  c.epochCur.map (fun e => (Config.shake256 (leBytes 32 c.secretCur ++ ascii "LTX2-LINK" ++ leBytes 4 e.1 ++ leBytes 1 k)).take 32)

/-- Zeroise the key store: every key slot, every epoch secret, every memory key (R537, R539). -/
def Core.zeroise (c : Core) : Core :=
  { c with
    slots := []
    epochCur := none
    epochNext := none
    epochPrev := none
    secretCur := 0
    secretNext := 0
    secretPrev := 0 }

/-- Whether the tamper latch or the life cycle refuses key commands that read a blob (R529, R539). -/
def State.keysClosed (s : State) : Bool := s.perm.lc != 2 || s.perm.tamper

/-! ### Key blobs (R528, R529) -/

/-- The checks of a blob for command kind `kind` and nonce number `k`: a status, or the unwrapped key with LABEL and BIND. A blob of
another kind than the command's is refused like a reserved one. DEDUCED (assumption 57). -/
def State.checkBlob (s : State) (bs : List Byte) (kind k : Nat) : Nat × Nat × Nat × List Byte :=
  let zero := fun (o n : Nat) => field bs o n == 0
  let shape := field bs 0 4 == 0x4C424B57 && decide (field bs 4 1 ≤ 1) && decide (1 ≤ field bs 5 1) && field bs 6 1 == kind &&
    zero 7 1 && zero 176 16 && (kind != 1 || (zero 12 4 && zero 112 64))
  if !shape then (St.LENGTH, 0, 0, [])
  else match s.perm.seed with
    | none => (St.PROTECTION, 0, 0, [])
    | some seed =>
      if s.keysClosed || (bs.drop 16).take 64 != Config.deviceHash seed || (bs.drop 80).take 32 != s.core.nonce k then (St.PROTECTION, 0, 0, [])
      else match Config.openBlob seed (bs.take 192) (bs.drop 192) with
        | none => (St.PROTECTION, 0, 0, [])
        | some key => (0, leNat (key.take 32), field bs 8 8, (bs.drop 112).take 64)

/-- KEY_REFUSED (R547). -/
def Core.keyRefused (c : Core) (part st cmd : Nat) : Core := c.evt Cls.item Src.security part 0x0C09 (st + cmd * 2 ^ 16)

/-- KEY_INSTALLED (R547). -/
def Core.keyInstalled (c : Core) (part kind slot label : Nat) : Core :=
  c.evt Cls.info Src.security part 0x0C08 (kind + slot * 2 ^ 4 + label % 2 ^ 32 * 2 ^ 32)

/-- A read of n bytes of space 0x3 by PF0: its status, or the bytes; `host` is the status with which the link ends the access. -/
def Core.readPf0 (c : Core) (addr n host : Nat) : Nat × List Byte :=
  if !c.flag Regs.HIF_LINK_STATUS_UP || !c.busMaster.contains 0 then (St.LINK_DOWN, [])
  else if bits addr 63 60 ≠ 3 then (St.BOUNDS, [])
  else if host ≠ 0 then (host, [])
  else (0, c.readHost (addr % 2 ^ 60) n)

/-! ### Epochs (R522) -/

/-- INSTALL_EPOCH (R522): `saveOk` tells that the key-epoch record could be written. -/
def State.installEpoch (s : State) (host : Nat) (saveOk : Bool) : State :=
  let done := fun (st : Nat) (s : State) =>
    let c := s.core.wf Regs.SEC_EPOCH_STATUS_RESULT 0 st
    let c := if st = 0 then c else c.keyRefused devPart st 1
    { s with core := c.newNonce 0 }
  let r := s.core.readPf0 (s.core.rd Regs.SEC_EPOCH_ARG) 1328 host
  if r.1 ≠ 0 then done r.1 s
  else
    let b := s.checkBlob r.2 1 0
    let e := b.2.2.1 % 2 ^ 32
    if b.1 ≠ 0 then done b.1 s
    else if e < s.perm.epochHi then done St.PROTECTION s
    else if e = s.perm.epochHi ∧ 65535 ≤ s.perm.epochCnt then done St.LENGTH s
    else if !saveOk then done St.PROTECTION s
    else
      let cnt := if e = s.perm.epochHi then s.perm.epochCnt + 1 else 0
      let c : Core := { s.core with epochNext := some (e, cnt), secretNext := b.2.1 }
      done 0 { s with core := c.keyInstalled devPart 1 0 e, perm := { s.perm with epochHi := e, epochCnt := cnt } }

/-- SWITCH_EPOCH (R522): refused with PROTECTION when NEXT holds no epoch or the tamper latch is set. The packet counters of the keys
of the new epoch start at 0 (R521). DEDUCED (assumption 59). -/
def State.switchEpoch (s : State) : State :=
  match s.core.epochNext with
  | none => { s with core := s.core.wf Regs.SEC_EPOCH_STATUS_RESULT 0 St.PROTECTION }
  | some e =>
    if s.perm.tamper then { s with core := s.core.wf Regs.SEC_EPOCH_STATUS_RESULT 0 St.PROTECTION }
    else
      let c : Core :=
        { s.core with
          epochPrev := s.core.epochCur
          secretPrev := s.core.secretCur
          epochCur := some e
          secretCur := s.core.secretNext
          epochNext := none
          secretNext := 0
          switchTick := s.core.tick }
      let c := (c.wf Regs.SEC_EPOCH_CUR 0 e.1).wf Regs.SEC_EPOCH_INSTALLS 0 e.2
      let c := threadAll (fun c k => c.wf Regs.SEC_KEYID_MAP_SENT k 0) c (List.range 255)
      { s with core := (c.wf Regs.SEC_EPOCH_STATUS_RESULT 0 0).evt Cls.info Src.security devPart 0x0C0A e.1 }

/-- INSTALL_EPOCH: EPOCH_CMD with CMD 1 (R522). -/
def execInstallEpoch (host : BitVec 16) (saveOk : Bool) (s : State) : Host.Outcome State Fault Refusal := .next (s.installEpoch host.toNat saveOk)

/-- SWITCH_EPOCH: EPOCH_CMD with CMD 2 (R522). -/
def execSwitchEpoch (s : State) : Host.Outcome State Fault Refusal := .next s.switchEpoch

/-- EPOCH_GRACE_END: EPOCH_GRACE_MS after the switch the previous key is forgotten (R522). -/
def execEpochGraceEnd (s : State) : Host.Outcome State Fault Refusal :=
  s.on (fun c =>
    if c.tick < c.switchTick + c.rf Regs.SEC_EPOCH_GRACE_MS * Config.ticksPerMs then c else { c with epochPrev := none, secretPrev := 0 })

/-! ### Key slots (R530) -/

/-- The RESULT of a key command. -/
def Core.keyResult (c : Core) (p st : Nat) : Core := c.wf Regs.SEC_KEY_STATUS_RESULT p st

/-- The range of a partition's view as an operand. -/
def viewRange (o n : Nat) (dest : Bool) : Operand := { d := Desc.range (2 * 2 ^ 60 + o) n, dest := dest, spaces := 0b100 }

/-- INSTALL_MODEL (kind 2, command 3) and INSTALL_BINDING (kind 3, command 4): a new release nonce is drawn whether or not the command
succeeds (R527). DEDUCED (assumption 58). -/
def State.installKey (s : State) (p slot kind : Nat) (env : MemEnv) : State :=
  let done := fun (st : Nat) (c : Core) =>
    let c := c.keyResult p st
    let c := if st = 0 then c else c.keyRefused p st (kind + 1)
    { s with core := c.newNonce (p + 1) }
  let addr := s.core.rf Regs.SEC_KEY_ARG_ADDR p
  if (s.core.part p).revoked then done St.KEY_REVOKED s.core
  else
    let r := s.core.itemAccess p [viewRange addr 1328 false] env
    if r.1 ≠ 0 then done r.1 r.2
    else
      let b := s.checkBlob (r.2.readAt p 0 (2 * 2 ^ 60 + addr) 0 1328) kind (p + 1)
      if b.1 ≠ 0 then done b.1 r.2
      else
        let k : KeySlot := { model := kind == 2, label := b.2.2.1, bind := b.2.2.2, key := b.2.1 }
        let c : Core := { r.2 with slots := r.2.slots.put (fun _ => none) (16 * p + slot) (some k) }
        done 0 (c.keyInstalled p kind slot b.2.2.1)

/-- INSTALL_MODEL (R530). -/
def execInstallModel (p : PartId) (slot : Fin 16) (env : MemEnv) (s : State) : Host.Outcome State Fault Refusal :=
  .next (s.installKey p.val slot.val 2 env)

/-- INSTALL_BINDING (R530). -/
def execInstallBinding (p : PartId) (slot : Fin 16) (env : MemEnv) (s : State) : Host.Outcome State Fault Refusal :=
  .next (s.installKey p.val slot.val 3 env)

/-- DELETE_SLOT (R530), refused while the tamper latch is set (R539). -/
def State.deleteSlot (s : State) (p slot : Nat) : State :=
  if s.perm.tamper then { s with core := s.core.keyResult p St.PROTECTION }
  else
    let c : Core := { s.core with slots := s.core.slots.put (fun _ => none) (16 * p + slot) none }
    { s with core := c.keyResult p 0 }

def execDeleteSlot (p : PartId) (slot : Fin 16) (s : State) : Host.Outcome State Fault Refusal := .next (s.deleteSlot p.val slot.val)

/-! ### Sealed objects (R534, R535) -/

/-- Bytes of a sealed object with n bytes of plaintext. -/
def sealedBytes (n : Nat) : Nat := 128 + n + 16 * ceilDiv n 65536

/-- Chunk k of n plaintext bytes: its length. -/
def sealChunkLen (n k : Nat) : Nat := min 65536 (n - 65536 * k)

/-- A chunk sealed under a key: ciphertext and tag, as many bytes as the chunk and 16 more. -/
def sealChunk (key : Nat) (ctx plain : List Byte) : List Byte :=
  let x := Config.gcmSeal key ctx plain
  (x ++ List.replicate (plain.length + 16) 0).take (plain.length + 16)

/-- The binding key of a slot, when the latch and the slot give one. DEDUCED (assumption 58). -/
def State.bindingKey (s : State) (p slot : Nat) : Option KeySlot :=
  if s.perm.tamper then none else match s.core.slot p slot with
    | some k => if k.model then none else some k
    | none => none

/-- SEAL: the status and the device after it. DEDUCED (assumption 58). -/
def State.seal (s : State) (p slot : Nat) (env : MemEnv) : Nat × Core :=
  let c := s.core
  let n := c.rf Regs.SEC_SEAL_LEN_LEN p
  let src := c.rf Regs.SEC_SEAL_SRC_OFFSET p
  let dst := c.rf Regs.SEC_SEAL_DST_OFFSET p
  match s.bindingKey p slot with
  | none => (St.PROTECTION, c)
  | some k =>
    if 2 ^ 40 < n ∨ 2 ^ 40 < dst + sealedBytes n then (St.LENGTH, c)
    else
      let r := c.itemAccess p [viewRange dst (sealedBytes n) true, viewRange src n false] env
      if r.1 ≠ 0 then r
      else
        let base := (Config.random c.draws).toNat % 2 ^ 64
        let c : Core := { r.2 with draws := c.draws + 1 }
        let hdr := leBytes 4 0x4C534C44 ++ leBytes 4 0x0101 ++ leBytes 8 k.label ++ (k.bind ++ List.replicate 64 0).take 64 ++ leBytes 8 n ++
          leBytes 8 base ++ List.replicate 32 0
        let one := fun (c : Core) (j : Nat) =>
          let plain := s.core.readAt p 0 (2 * 2 ^ 60 + src + 65536 * j) 0 (sealChunkLen n j)
          c.writeAt p 0 (2 * 2 ^ 60 + dst + 128 + 65552 * j) 0 (sealChunk k.key (leBytes 8 base ++ leBytes 4 j ++ hdr) plain)
        (0, threadAll one (c.writeAt p 0 (2 * 2 ^ 60 + dst) 0 hdr) (List.range (ceilDiv n 65536)))

/-- The chunks of a sealed object are opened in order until a tag fails; earlier chunks stay written (R535). -/
def Core.unsealChunks (c : Core) (p src dst n key base : Nat) (hdr : List Byte) : List Nat → Nat × Core
  | [] => (0, c)
  | j :: rest =>
    let len := sealChunkLen n j
    match Config.gcmOpen key (leBytes 8 base ++ leBytes 4 j ++ hdr) (c.readAt p 0 (2 * 2 ^ 60 + src + 128 + 65552 * j) 0 (len + 16)) with
    | none => (St.PROTECTION, c)
    | some plain =>
      (c.writeAt p 0 (2 * 2 ^ 60 + dst + 65536 * j) 0 ((plain ++ List.replicate len 0).take len)).unsealChunks p src dst n key base hdr rest

/-- UNSEAL: SEAL_SRC names the object, SEAL_DST and SEAL_LEN the destination. DEDUCED (assumption 58). -/
def State.unseal (s : State) (p slot : Nat) (env : MemEnv) : Nat × Core :=
  let c := s.core
  let room := c.rf Regs.SEC_SEAL_LEN_LEN p
  let src := c.rf Regs.SEC_SEAL_SRC_OFFSET p
  let dst := c.rf Regs.SEC_SEAL_DST_OFFSET p
  match s.bindingKey p slot with
  | none => (St.PROTECTION, c)
  | some k =>
    if 2 ^ 40 < room then (St.LENGTH, c)
    else
      let r := c.itemAccess p [viewRange src 128 false] env
      if r.1 ≠ 0 then r
      else
        let hdr := r.2.readAt p 0 (2 * 2 ^ 60 + src) 0 128
        let n := field hdr 80 8
        let shape := field hdr 0 4 == 0x4C534C44 && decide (field hdr 4 1 ≤ 1) && decide (1 ≤ field hdr 5 1) && field hdr 6 2 == 0 && field hdr 96 32 == 0
        if !shape || decide (2 ^ 40 < n) || decide (room < n) || decide (2 ^ 40 < src + sealedBytes n) then (St.LENGTH, r.2)
        else
          let r := r.2.itemAccess p [viewRange dst n true, viewRange src (sealedBytes n) false] env
          if r.1 ≠ 0 then r
          else if field hdr 8 8 ≠ k.label ∨ (hdr.drop 16).take 64 ≠ k.bind then (St.PROTECTION, r.2)
          else r.2.unsealChunks p src dst n k.key (field hdr 88 8) hdr (List.range (ceilDiv n 65536))

/-- The end of SEAL or UNSEAL. DEDUCED (assumption 58). -/
def State.sealDone (s : State) (p : Nat) (r : Nat × Core) : State :=
  if (s.core.part p).revoked then { s with core := s.core.keyResult p St.KEY_REVOKED } else { s with core := r.2.keyResult p r.1 }

/-- SEAL (R534). -/
def execSealCmd (p : PartId) (slot : Fin 16) (env : MemEnv) (s : State) : Host.Outcome State Fault Refusal :=
  .next (s.sealDone p.val (s.seal p.val slot.val env))

/-- UNSEAL (R535). -/
def execUnsealCmd (p : PartId) (slot : Fin 16) (env : MemEnv) (s : State) : Host.Outcome State Fault Refusal :=
  .next (s.sealDone p.val (s.unseal p.val slot.val env))

/-! ### The life cycle (R536, R537) -/

/-- Whether a life-cycle command is refused whatever it asks (R537). -/
def State.lcRefused (s : State) : Bool :=
  (List.range 16).any (fun p => s.core.pstate p != pFREE || s.core.flag Regs.PART_STATUS_OWNER_LOCK p) || s.perm.tamper || decide (32 ≤ s.perm.ownSteps)

/-- A transition is accepted (R537): every Umbra bank is wiped, the key store is zeroised, new nonces are drawn. -/
def State.lcChange (s : State) (new : Nat) (perm : Perm) : State :=
  let c := s.core.wipe { groups := 0xFFFF, trigger := 1, part := devPart, status := St.PROTECTION }
  let c := (c.zeroise.newNonces.wf Regs.SEC_LC_STATUS_RESULT 0 0).evt Cls.lifeCycle Src.security devPart 0x0C07 (s.perm.lc + new * 2 ^ 2)
  { s with core := c, perm := { perm with lc := new } }

/-- A life-cycle command ends with a status and no transition. -/
def State.lcResult (s : State) (st : Nat) : State := { s with core := s.core.wf Regs.SEC_LC_STATUS_RESULT 0 st }

/-- Bytes of an ML-DSA-65 public key and of a signature (R524, FIPS 204). PRESUMED (assumption 10). -/
def mldsaKeyBytes : Nat := 1952
/-- PRESUMED (assumption 10). -/
def mldsaSigBytes : Nat := 3309

/-- Whether a signed request at LC_ARG carries the owner's signature over DEVICE_HASH and the device's release nonce. The request is
taken to be the public key followed by the signature. PRESUMED (assumption 10). -/
def State.ownerSigned (s : State) (bs : List Byte) : Bool :=
  match s.perm.seed with
  | none => false
  | some seed =>
    Config.shake256 (bs.take mldsaKeyBytes) == s.perm.ownerHash &&
      Config.mldsaVerify (bs.take mldsaKeyBytes) (Config.deviceHash seed ++ s.core.nonce 0) (bs.drop mldsaKeyBytes)

/-- CLAIM (R536). -/
def State.claim (s : State) (host : Nat) : State :=
  if s.lcRefused || s.perm.lc != 1 then s.lcResult St.PROTECTION
  else
    let r := s.core.readPf0 (s.core.rd Regs.SEC_LC_ARG) mldsaKeyBytes host
    if r.1 ≠ 0 then s.lcResult r.1
    else s.lcChange 2 { s.perm with ownerHash := Config.shake256 r.2, ownSteps := s.perm.ownSteps + 1 }

/-- RELEASE (R536). -/
def State.release (s : State) (host : Nat) : State :=
  if s.lcRefused || s.perm.lc != 2 then s.lcResult St.PROTECTION
  else
    let r := s.core.readPf0 (s.core.rd Regs.SEC_LC_ARG) (mldsaKeyBytes + mldsaSigBytes) host
    if r.1 ≠ 0 then s.lcResult r.1
    else if !s.ownerSigned r.2 then s.lcResult St.PROTECTION
    else s.lcChange 1 { s.perm with ownerHash := [] }

/-- RETIRE (R536): by PF0 alone in PROVISIONED, signed by the owner in OWNED. -/
def State.retire (s : State) (host : Nat) : State :=
  if s.lcRefused || (s.perm.lc != 1 && s.perm.lc != 2) then s.lcResult St.PROTECTION
  else if s.perm.lc = 1 then s.lcChange 3 { s.perm with seed := none }
  else
    let r := s.core.readPf0 (s.core.rd Regs.SEC_LC_ARG) (mldsaKeyBytes + mldsaSigBytes) host
    if r.1 ≠ 0 then s.lcResult r.1
    else if !s.ownerSigned r.2 then s.lcResult St.PROTECTION
    else s.lcChange 3 { s.perm with seed := none }

/-- CLAIM: LC_CMD with CMD 2 (R536). -/
def execClaim (host : BitVec 16) (s : State) : Host.Outcome State Fault Refusal := .next (s.claim host.toNat)

/-- RELEASE: LC_CMD with CMD 3 (R536). -/
def execRelease (host : BitVec 16) (s : State) : Host.Outcome State Fault Refusal := .next (s.release host.toNat)

/-- LC_RETIRE: LC_CMD with CMD 4 (R536). -/
def execLcRetire (host : BitVec 16) (s : State) : Host.Outcome State Fault Refusal := .next (s.retire host.toNat)

/-- PROVISIONING: the manufacturing command that fuses the identity seed; `signed_` tells that Lomeleri's signature checks (R536). -/
def execProvisioning (seed : Nat) (signed_ : Bool) (s : State) : Host.Outcome State Fault Refusal :=
  .next (if s.lcRefused || s.perm.lc != 0 || !signed_ then s.lcResult St.PROTECTION else s.lcChange 1 { s.perm with seed := some (seed % 2 ^ 256) })

/-! ### Tamper (R538, R539) -/

/-- What sampled tamper does to a partition that is not FREE: its removal starts, or goes on from where it stands (R539, R546). -/
def Core.tamperPart (c : Core) (p : Nat) : Core :=
  let c := if c.pstate p = pACTIVE then c.remove p false else c
  if c.pstate p = pDRAINING && !(c.part p).revoked then c.revoke p else c

/-- TAMPER_DETECTED: TAMPER_N and the sensors as they are now; an enabled one that is active is tamper (R538, R539). -/
def execTamperDetected (pin : Bool) (sensors : BitVec 5) (s : State) : Host.Outcome State Fault Refusal :=
  let c := (s.core.wf Regs.SEC_TAMPER_STATUS_PIN_NOW 0 (b2n pin)).wf Regs.SEC_TAMPER_STATUS_SENSORS_NOW 0 sensors.toNat
  let byPin := pin && c.flag Regs.SEC_TAMPER_CFG_PIN_EN
  let bySensor := sensors != 0 && c.flag Regs.SEC_TAMPER_CFG_SENSOR_EN
  if !byPin && !bySensor then .next { s with core := c }
  else
    let src := if byPin then Src.tamperN else Src.tamperSensors
    let c := (c.evt Cls.tamper src devPart 0x0C06 (b2n pin + sensors.toNat * 2)).fwAbandon 3
    let c := threadAll (fun c k => c.wf Regs.SEC_KEYID_MAP_REVOKED k 1) c.zeroise (List.range 255)
    let c := c.wipe { groups := 0xFFFF, trigger := 0, part := devPart, status := St.KEY_REVOKED }
    .next { s with core := threadAll (fun c p => c.tamperPart p) c (List.range 16), perm := { s.perm with tamper := true, tamperClear := false } }

/-! ### Attestation (R523-R527) -/

/-- A partition's resources under R511 as bytes: tile groups, key IDs, granules, ranges. DESIGN CHOICE (assumption 11). -/
def Core.resourceBytes (c : Core) (p : Nat) : List Byte :=
  let ids := c.keyIds p
  let granules := (List.range 372).filter (fun g => c.rf Regs.MEM_GRANULE_OWNER_PART g == p)
  leBytes 8 (c.rf Regs.PART_TILE_GROUPS_GROUPS p) ++ ids.flatMap (leBytes 1) ++ granules.flatMap (leBytes 2) ++
    (leBytes 8 (c.rd Regs.RMA_QP_RANGE p) ++ leBytes 8 (c.rd Regs.RMA_KEY_RANGE p) ++ leBytes 8 (c.rd Regs.RMA_PD_RANGE p) ++
      leBytes 8 (c.rd Regs.SLOW_DIR_RANGE p))

/-- A measurement (R526): none where the index has none on this function's responder. The spec gives what a measurement covers and not its
layout, which is this model's. DESIGN CHOICE (assumption 11). -/
def State.measured (s : State) (fn index : Nat) : Option (List Byte) :=
  let c := s.core
  if 1 ≤ index ∧ index ≤ 8 then some (Config.measurement index (s.perm.areas.get areaDefault s.perm.activeArea).build)
  else if index = 9 then some (leBytes 1 s.perm.lc ++ s.perm.ownerHash)
  else if index = 10 then some ((List.range 7).flatMap (fun k => leBytes 8 (s.perm.svn.get (fun _ => 0) (k + 1))))
  else if fn = 0 then none
  else if index = 0x10 then some (c.nonce fn)
  else if index = 0x11 then some (c.resourceBytes (fn - 1) ++ c.imageDigest (fn - 1))
  else none

/-- SPDM_REQUEST: a request on the DOE mailbox of a function: the certificate chain (kind 0), signed measurement `index` (kind 1), or a key
exchange for IDE stream `index`, which PF0 alone serves (kind 2); a function that does not exist answers nothing (R523, R525, R526, R678).
DESIGN CHOICE (assumption 11). -/
def execSpdmRequest (fn : FnId) (kind : Fin 3) (index : BitVec 8) (s : State) : Host.Outcome State Fault Refusal :=
  let answer := fun (r : Resp) => { s with core := { s.core with resp := r } }
  if fn.val ≠ 0 && !s.core.vfOn (fn.val - 1) then .next (answer .unsupported)
  else match s.perm.seed with
    | none => .next (answer .none)
    | some seed =>
      if kind.val = 0 then .next (answer (.bytes (Config.certificates seed)))
      else if kind.val = 1 then
        match s.measured fn.val index.toNat with
        | some m => .next (answer (.bytes (m ++ Config.mldsaSign seed m)))
        | none => .next (answer .none)
      else if fn.val ≠ 0 || decide (16 < index.toNat) then .next (answer .none)
      else
        let c : Core := { s.core with ide := if s.core.ide.contains index.toNat then s.core.ide else s.core.ide ++ [index.toNat] }
        .next { s with core := { c with resp := .bytes (Config.mldsaSign seed (leBytes 1 index.toNat)) } }

end Sys2Proof.Machine
end

