-- ==== Sys2Proof/Machine/Reset.lean ====
section
/-! DEFINITION. Reset.lean: the supply-loss save, the resets and the boot (R577, R579, R604-R612, R618-R620, R667), the host link and
BAR4 (R551-R560). -/

namespace Sys2Proof.Machine

/-! ### The save sequence (R605-R610) -/

/-- Powered hours of the device (R651). -/
def State.hoursNow (s : State) : Nat := s.perm.hours + s.core.tick / (Config.ticksPerMs * 3600000)

/-- Beacon writes waiting sparing records to its settings, stamped with the powered hours (R643). -/
def State.flushSpares (s : State) : State :=
  let put := s.core.spareQ.map (fun (r : SpareRec) => { r with hours := s.hoursNow % 2 ^ 32 })
  { s with core := { s.core with spareQ := [] }, perm := { s.perm with spares := (s.perm.spares ++ put).take 1024 } }

/-- The saved section of a partition (R608). -/
def Core.savedPart (c : Core) (p : Nat) : SavedPart :=
  let e := c.lead p
  let slot := fun (l : Nat) => ((c.layer p l).zeroRun, (c.layer p l).gmul, leNat (c.readView p (c.layerAt p l + 60) 2))
  { part := p, state := c.pstate p, scrub := (c.part p).scrub, step := c.stepOf p, ls := c.rd Regs.UPD_LS_STATE e
    hist := c.rd Regs.UPD_LS_HIST e, schedN := c.rd Regs.UPD_SCHED_N e, slots := (List.range 1024).map slot
    buddy := c.rd Regs.COL_BUDDY_STATE p, stepA := c.rd Regs.COL_BUDDY_A_STEP p, stepB := c.rd Regs.COL_BUDDY_B_STEP p }

/-- The record that an open item of the image becomes (R608, R610). -/
def Item.saved (i : Item) (status ts : Nat) : Rec :=
  let op := i.kind == .op
  { part := i.part, cq := i.cq, tag := i.tag, status := status, sq := if op then 0 else i.sq, origin := b2n op
    ltile := if op then i.ltile else 0, entry := if op then 0 else i.entry, info := 0, ts := ts }

/-- The newest entries of the device log, oldest first (R608). -/
def Core.logTail (c : Core) : List LogEnt :=
  ((List.range 512).map (fun k => c.log.get logDefault ((c.rf Regs.EVT_LOG_HEAD_HEAD + 3584 + k) % 4096))).filter (·.valid)

/-- The image that the capture takes (R608). DEDUCED (assumption 69). -/
def Core.saveImage (c : Core) (cause status : Nat) : SaveImg :=
  { cause := cause, tick := c.tick, ts := c.ts, items := c.items.map (fun i => i.saved status c.ts)
    parts := ((List.range 16).filter (fun p => c.pstate p != pFREE)).map c.savedPart
    mig := if c.rf Regs.MEM_MIG_STATUS_STEP = 0 then none else some (c.rf Regs.MEM_MIG_STATUS_CHANNEL, c.rf Regs.MEM_MIG_FRONTIER_DPA)
    log := c.logTail }

/-- An activation that waits or holds is abandoned, staging is lost (R633). DEDUCED (assumption 71). -/
def Core.fwSag (c : Core) : Core :=
  match c.rf Regs.FW_FW_STATUS_STATE with
  | 1 => c.wf Regs.FW_FW_STATUS_STATE 0 0
  | 3 => c.fwAbandon 3
  | 4 => ({ c with fwHold := false } : Core).wf Regs.FW_FW_STATUS_STATE 0 2 |>.evt Cls.info Src.firmware devPart 0x0F04 3
  | _ => c

/-- Everything stops at the capture (R605): items have their outcome, units accept nothing new, transmitters are dark.
DEDUCED (assumption 69). -/
def Core.darken (c : Core) : Core :=
  let c := threadAll (fun c u => c.wf Regs.FAB_PORT_STATUS_LINK_UP u 0) c (List.range 16)
  let stop := fun (c : Core) (p : Nat) => c.setPart p { c.part p with prog := none }
  let c := threadAll stop c (List.range 16)
  { c with
    items := []
    ops := []
    nvcmds := []
    slowReqs := []
    colls := []
    tileSwaps := []
    bankSwaps := []
    heldSwaps := []
    laneSwaps := []
    lost := true }

/-- What the operations and copies that run write is open when everything stops (R60). DEDUCED (assumption 52). -/
def Core.cutAll (c : Core) : Core := threadAll (fun c i => c.cutCopy i) (threadAll (fun c o => c.cutOp o) c c.ops) c.items

/-- The save sequence starts (R605, R579): the outcome of every open item is fixed and the image captured. -/
def State.capture (s : State) (cause status : Nat) : State :=
  let s := s.flushSpares
  let c := s.core.cutAll
  let img := c.saveImage cause status
  { s with core := { (c.fwSag).darken with savePend := some img } }

/-! ### Boot -/

/-- A tile that a sparing record takes out of service (R34, R37): the group's spare serves its logical tile, if there is one. -/
def Core.retireTile (c : Core) (t : Nat) : Core :=
  let c : Core := { c with outTiles := c.outTiles ++ [t] }
  match c.logical t with
  | some l => { c with map := c.map.put mapDefault l (c.spareTile (groupOfPhys t)) }
  | none => c

/-- A sparing record takes effect at a start (R328, R406, R643). -/
def Core.applySpare (c : Core) (r : SpareRec) : Core :=
  match r.kind with
  | 0 => c.retireTile r.unit
  | 1 => c.wr Regs.TILE_BANK_MAP r.unit (1 + r.sub * 2 + r.sub * 2 ^ 6)
  | 2 => (c.wf Regs.FAB_OE_SPARE_TX_USED r.unit 1).wf Regs.FAB_OE_SPARE_TX_FOR r.unit r.sub
  | _ => (c.wf Regs.FAB_OE_SPARE_RX_USED r.unit 1).wf Regs.FAB_OE_SPARE_RX_FOR r.unit r.sub

/-- A channel that was retired stays out (R368). -/
def Core.applyRetired (c : Core) (h : Nat) : Core :=
  let c := c.wf Regs.MEM_MEM_STATUS_ACTIVE 0 (setBits (c.rf Regs.MEM_MEM_STATUS_ACTIVE) h h 0)
  let c := c.wf Regs.MEM_MEM_STATUS_RETIRED_COUNT 0 (c.rf Regs.MEM_MEM_STATUS_RETIRED_COUNT + 1)
  let c := c.wr Regs.MEM_USABLE 0 (usableOf c.activeChannels.length)
  (c.setCtrlBit Regs.MEM_CTRL_STATUS_RETIRED h 1).setCtrlBit Regs.MEM_CTRL_STATUS_TRAINED h 0

/-- The tests of cleared sparing records at a cold reset (R643): a resource that fails is recorded again, the others are in use
again. -/
def sparesTested (rs : List SpareRec) (bad : List Nat) : List SpareRec :=
  rs.zipIdx.filterMap (fun e => if !e.1.cleared then some e.1 else if bad.contains e.2 then some { e.1 with cleared := false } else none)

/-- What Beacon's settings and the fuses give a start. -/
def State.fromSettings (s : State) : State :=
  { s with core := threadAll Core.applyRetired (threadAll Core.applySpare s.core s.perm.spares) s.perm.retired }

/-- The step of R618 at which a firmware area fails, or 0: an area without a complete manifest or with an SVN below its counter fails step 3
(R622). -/
def Perm.bootStep (pm : Perm) (env : BootEnv) (k : Nat) : Nat :=
  let a := pm.areas.get areaDefault k
  let low := a.comps.zipIdx.any (fun e => decide (e.1.svn < pm.svn.get (fun _ => 0) (e.2 + 1)))
  if !a.valid || low then 3 else if k = 0 then env.step0.val else env.step1.val

/-- Choose the firmware that boots (R619, R620, R630). DEDUCED (assumption 71). -/
def State.bootFirmware (s : State) (env : BootEnv) : State :=
  let s := match s.perm.trialBad with
    | some m => { s with
        core := s.core.evt Cls.device Src.firmware devPart 0x0F05 m
        perm := { s.perm with activeArea := 1 - s.perm.activeArea, trial := false, trialBad := none } }
    | none => s
  let a := s.perm.activeArea
  let st := s.perm.bootStep env a
  if st = 0 then s
  else if s.perm.bootStep env (1 - a) = 0 then
    { s with
      core := (s.core.wf Regs.FW_FW_STATUS_FALLBACK 0 1).evt Cls.device Src.firmware devPart 0x0F06 (1 - a + st * 2)
      perm := { s.perm with activeArea := 1 - a, trial := false, fwStaged := false } }
  else { s with core := (s.core.wf Regs.FW_FW_STATUS_RECOVERY 0 1).evt Cls.device Src.firmware devPart 0x0F07 }

/-- The save store at a start (R610). -/
def State.bootSave (s : State) (good : Bool) : State :=
  let bad : State :=
    { s with
      core := (s.core.wf Regs.DEV_STATUS_RECORDS_LOST 0 1).evt Cls.device Src.saveStore devPart 0x0E0C
      perm := { s.perm with saveMark := 0, image := none, imageState := 2 } }
  match s.perm.saveMark, s.perm.image with
  | 0, _ => s
  | 1, some img =>
    if !good then bad
    else
      let c := s.core.evt Cls.info Src.saveStore devPart 0x0E0B (img.items.length + img.parts.length * 2 ^ 16)
      { s with
        core := { c with migDue := img.mig.map (·.1), scrubDue := img.parts.flatMap (·.scrub) }
        perm := { s.perm with saveMark := 0, held := s.perm.held ++ img.items } }
  | _, _ => bad

/-- The latch that PF0 asked to clear opens after a cold reset with no tamper source active (R539). -/
def State.bootTamper (s : State) : State :=
  let quiet := !s.core.flag Regs.SEC_TAMPER_STATUS_PIN_NOW && s.core.rf Regs.SEC_TAMPER_STATUS_SENSORS_NOW == 0
  { s with perm := { s.perm with tamper := s.perm.tamper && !(s.perm.tamperClear && quiet), tamperClear := false } }

/-- Steps 3 to 6 of R618. -/
def State.bootUp (s : State) (env : BootEnv) : State :=
  let s := if s.perm.lastReset = 3 then s
    else ({ s with perm := { s.perm with spares := sparesTested s.perm.spares env.badSpares } } : State).bootTamper
  let s := s.fromSettings.bootFirmware env
  let st := if s.perm.trial then 5 else if s.perm.fwStaged then 2 else 0
  let more := decide (s.perm.settings < (s.perm.areas.get areaDefault s.perm.activeArea).setMax)
  let c := (s.core.wf Regs.FW_FW_STATUS_STATE 0 st).wf Regs.FW_SETTINGS_MIGRATING 0 (b2n more)
  let c : Core := { c.newNonces with inReset := false, fwTrialTick := s.core.tick }
  ({ s with core := c } : State).bootSave env.saveGood

/-- A device held in reset starts when PERST_N and PFAIL_N are high, the reference is there and no save runs (R579, R638, R667). -/
def State.tryStart (s : State) (env : BootEnv) : State :=
  let c := s.core
  if c.inReset && !c.perstLow && !c.pfailLow && c.savePend.isNone && !c.flag Regs.EVT_TS_STATUS_REF_NOW_ABSENT then s.bootUp env else s

/-- Fields that a reset keeps because a pin, the key-epoch record or the reference gives them. DEDUCED (assumption 69). -/
def Core.keepLive (o c : Core) : Core :=
  let c := c.wf Regs.EVT_TS_STATUS_REF_NOW_ABSENT 0 (o.rf Regs.EVT_TS_STATUS_REF_NOW_ABSENT)
  let c := (c.wf Regs.SEC_EPOCH_CUR 0 (o.rf Regs.SEC_EPOCH_CUR)).wf Regs.SEC_EPOCH_INSTALLS 0 (o.rf Regs.SEC_EPOCH_INSTALLS)
  (c.wf Regs.SEC_TAMPER_STATUS_PIN_NOW 0 (o.rf Regs.SEC_TAMPER_STATUS_PIN_NOW)).wf Regs.SEC_TAMPER_STATUS_SENSORS_NOW 0
    (o.rf Regs.SEC_TAMPER_STATUS_SENSORS_NOW)

/-- A cold reset clears everything but what R577 keeps, the outputs, the outside (host memory, flash) and the free values.
DEDUCED (assumption 69). -/
def State.coldClear (s : State) (cause : Nat) : State :=
  let s := s.flushSpares
  let o := s.core
  let c : Core :=
    { out := o.out, host := o.host, flash := o.flash, draws := o.draws, nextKey := o.nextKey, free := o.free
      inReset := true, perstLow := o.perstLow, pfailLow := o.pfailLow }
  { s with core := o.keepLive c, perm := { s.perm with lastReset := cause, hours := s.hoursNow } }

/-- A warm reset also keeps the tick, the timestamp, the event log, memory training and the contents of device memory (R577, R679).
DEDUCED (assumption 69). -/
def State.warmClear (s : State) : State :=
  let s := s.flushSpares
  let o := s.core
  let stays := fun (k : Nat) => (decide (0x10040 ≤ k) && decide (k < 0x10060)) || 
    (decide (0x400000 ≤ k) && decide (k < 0x4C0000) && decide (k % 0x10000 < 0x8000))
  let c : Core :=
    { out := o.out, host := o.host, flash := o.flash, draws := o.draws, nextKey := o.nextKey, free := o.free
      inReset := true, perstLow := o.perstLow, pfailLow := o.pfailLow, tick := o.tick, ts := o.ts, log := o.log
      evtBuf := o.evtBuf, dram := o.dram, dramKey := o.dramKey, failedCh := o.failedCh, trainFails := o.trainFails
      regs := o.regs.keepIf stays }
  { s with core := o.keepLive c, perm := { s.perm with lastReset := 3 } }

/-- The save has ended, committed or not: the reset that waits for it happens. DEDUCED (assumption 70). -/
def State.saveEnd (s : State) (env : BootEnv) : State :=
  match s.core.saveReset with
  | some 3 => s.warmClear.tryStart env
  | some k => (s.coldClear k).tryStart env
  | none => s

/-- SAVE_COMMIT: the sections, the header and the COMMIT word are written in `us` microseconds (R605). -/
def execSaveCommit (us : BitVec 16) (env : BootEnv) (s : State) : Host.Outcome State Fault Refusal :=
  match s.core.savePend with
  | none => .next s
  | some img =>
    let s : State :=
      { s with
        core := { s.core with savePend := none, thermtrip := s.core.thermtrip || s.core.tripped }
        perm := { s.perm with image := some img, imageState := 1, saveMark := 1, saveCount := (s.perm.saveCount + 1) % 2 ^ 32, saveUs := us.toNat } }
    .next (s.saveEnd env)

/-- The save is cut off before COMMIT: the next start finds the image invalid (R612). DEDUCED (assumption 70). -/
def State.saveBroken (s : State) : State :=
  { s with
    core := { s.core with savePend := none, thermtrip := s.core.thermtrip || s.core.tripped }
    perm := { s.perm with image := none, imageState := 2, saveMark := 2 } }

/-- SAVE_VSAVE_LOST: VSAVE falls below 7 V before COMMIT (R612). -/
def execSaveVsaveLost (env : BootEnv) (s : State) : Host.Outcome State Fault Refusal :=
  .next (if s.core.savePend.isSome then s.saveBroken.saveEnd env else s)

/-- SUPPLY_LOSS_DETECTED: PFAIL_N has been low at a tick (`pin`), or the supply monitor finds a rail too low (R604, R605). A second sample
is ignored; in reset there is nothing to save (R612, R667). -/
def execSupplyLossDetected (pin : Bool) (s : State) : Host.Outcome State Fault Refusal :=
  let s : State := if pin then { s with core := { s.core with pfailLow := true } } else s
  if s.core.lost || s.core.inReset then .next s
  else
    let n := s.core.items.length
    let s := s.capture 0 St.SUPPLY_LOSS
    .next { s with core := s.core.evt Cls.supply (if pin then Src.pfail else Src.supplyMon) devPart 0x0E0A n }

/-! ### Resets -/

/-- A cold reset that Beacon triggers runs the save sequence first (R577, R579). -/
def State.beaconReset (s : State) : State :=
  if s.core.inReset then s
  else
    let s := if s.core.lost then s else s.capture 2 St.PARTITION_RESET
    { s with core := { s.core with saveReset := some (s.core.saveReset.getD 2) } }

/-- A cold reset: power-on (cause 0), from PF0 (1, refused unless every partition is FREE), from Beacon (2) (R577). A power-on during a
save finds the image uncommitted. DEDUCED (assumption 70). -/
def State.coldReset (s : State) (cause : Nat) (env : BootEnv) : State :=
  match cause with
  | 0 => ((if s.core.savePend.isSome then s.saveBroken else s).coldClear 0).tryStart env
  | 1 =>
    if s.core.lost || s.core.inReset then s
    else if (List.range 16).any (fun p => s.core.pstate p != pFREE) then
      { s with core := s.core.wf Regs.DEV_RESET_STATUS_RESULT 0 St.PROTECTION }
    else (s.coldClear 1).tryStart env
  | _ => s.beaconReset

/-- COLD_RESET (R577). -/
def execColdReset (cause : Fin 3) (env : BootEnv) (s : State) : Host.Outcome State Fault Refusal := .next (s.coldReset cause.val env)

/-- WARM_RESET: PERST_N is low (R577, R579); during a save it acts when the save has ended (R612, R669). DEDUCED (assumption 70). -/
def execWarmReset (s : State) : Host.Outcome State Fault Refusal :=
  let s : State := { s with core := { s.core with perstLow := true } }
  if s.core.inReset then .next s
  else
    let s := if s.core.lost then s else s.capture 3 St.PARTITION_RESET
    .next { s with core := { s.core with saveReset := some (s.core.saveReset.getD 3) } }

/-- PERST_N_RELEASE: PERST_N rises (R579). -/
def execPerstNRelease (env : BootEnv) (s : State) : Host.Outcome State Fault Refusal :=
  .next (({ s with core := { s.core with perstLow := false } } : State).tryStart env)

/-- PFAIL_N_RELEASE: PFAIL_N rises: a device held in cold reset starts (R667); during a save, a cold reset follows it (R612). -/
def execPfailNRelease (env : BootEnv) (s : State) : Host.Outcome State Fault Refusal :=
  let c : Core := { s.core with pfailLow := false }
  let c : Core := if c.savePend.isSome && c.saveReset.isNone then { c with saveReset := some 0 } else c
  .next (({ s with core := c } : State).tryStart env)

/-- REFCLK_LOST: the reference stops; Beacon makes a cold reset, and the boot waits for the reference (R66, R638). -/
def execRefclkLost (s : State) : Host.Outcome State Fault Refusal :=
  if s.core.flag Regs.EVT_TS_STATUS_REF_NOW_ABSENT then .next s
  else
    let c := (s.core.wf Regs.EVT_TS_STATUS_REF_NOW_ABSENT 0 1).wf Regs.EVT_TS_STATUS_REF_LOST 0 1
    .next (({ s with core := c.evt Cls.device Src.timebase devPart 0x0106 } : State).beaconReset)

/-- REFCLK_RETURNED (R638). -/
def execRefclkReturned (env : BootEnv) (s : State) : Host.Outcome State Fault Refusal :=
  .next (({ s with core := s.core.wf Regs.EVT_TS_STATUS_REF_NOW_ABSENT 0 0 } : State).tryStart env)

/-- Every active channel that has not failed is trained and in service (R364, R396, R618). -/
def Core.trainAll (c : Core) : Core :=
  threadAll (fun c h => c.setCtrlBit Regs.MEM_CTRL_STATUS_TRAINED h 1) c (c.activeChannels.filter (fun h => !c.failedCh.contains h))

/-- DEVICE_READY: step 7 of R618: memory is trained and initialised, a migration and a scrub that were cut off are finished (R373,
R546), READY sets. -/
def execDeviceReady (s : State) : Host.Outcome State Fault Refusal :=
  if s.core.inReset || s.core.lost || s.core.flag Regs.DEV_STATUS_READY || s.core.flag Regs.FW_FW_STATUS_RECOVERY then .next s
  else
    let out := fun (k : Nat) => !s.core.scrubDue.contains (k / granuleBytes)
    let c : Core := { s.core with dram := s.core.dram.keepIf out, dramKey := s.core.dramKey.keepIf out, scrubDue := [], migDue := none }
    let s' : State := match s.core.migDue with
      | some h =>
        if !c.activeChannels.contains h || decide (8 ≤ s.perm.retired.length) then { s with core := c }
        else { s with
          core := (c.wr Regs.MEM_MIG_STATUS 0 h).channelRetired []
          perm := { s.perm with retired := s.perm.retired ++ [h] } }
      | none => { s with core := c }
    .next { s' with core := s'.core.trainAll.wf Regs.DEV_STATUS_READY 0 1 }

/-- PF0_FLR: a function-level reset of PF0 (R577): event queue 0, the raw rings, the HIF device registers except the state of the link,
PF0's configuration; the device-level transaction is rolled back. DEDUCED (assumption 69). -/
def execPf0Flr (s : State) : Host.Outcome State Fault Refusal :=
  s.on (fun c =>
    let ring := fun (k : Nat) => decide (0x600000 ≤ k) && decide (k < 0x680000) && decide (0x800 ≤ k % 0x8000) && decide (k % 0x8000 < 0x860)
    let mine := fun (k : Nat) => (decide (0x11000 ≤ k) && decide (k < 0x11080)) || (decide (0xA0008 ≤ k) && decide (k < 0xB0000)) || ring k
    let c := if c.flag Regs.CFG_TXN_STATUS_OPEN then
        (({ c with txns := c.txns.put (fun _ => {}) 0 { ender := 1 } } : Core).wf Regs.CFG_TXN_STATUS_OPEN 0 0).wf
          Regs.CFG_TXN_STATUS_END 0 2
      else c
    { c with
      regs := c.regs.keepIf (fun k => !mine k)
      evq := c.evq.keepIf (fun k => k != 0)
      txStamps := []
      hold := c.hold.keepIf (fun k => k != 0)
      barSize := c.barSize.keepIf (fun k => k != 0)
      busMaster := c.busMaster.filter (· != 0) })

/-- HELD_CLEAR: every held record and the save image are discarded (R579, R611). -/
def State.heldClear (s : State) : State := { s with perm := { s.perm with held := [], image := none, imageState := 0 } }

/-- HELD_CLEAR (R579). -/
def execHeldClear (s : State) : Host.Outcome State Fault Refusal := .next s.heldClear

/-! ### The host link (R554) -/

/-- HOST_LINK_DOWN: the link goes down while PERST_N is high: NVMe commands end with LINK_DOWN, records wait (R554, R638). -/
def execHostLinkDown (s : State) : Host.Outcome State Fault Refusal :=
  s.on (fun c =>
    if !c.flag Regs.HIF_LINK_STATUS_UP || c.perstLow || c.lost then c
    else
      let c := c.wf Regs.HIF_LINK_STATUS_UP 0 0
      (c.evt Cls.device Src.pcie devPart 0x0D00 (c.rf Regs.HIF_LINK_STATUS_RATE)).nvDrop c.nvcmds)

/-- The link comes up at a rate and a width; after a loss, another rate or width posts HOST_LINK_CHANGED (R554). -/
def Core.hostLink (c : Core) (rate width : Nat) (flit : Bool) : Core :=
  if c.flag Regs.HIF_LINK_STATUS_UP || c.inReset || c.lost then c
  else
    let old := c.rd Regs.HIF_LINK_STATUS
    let c := c.wr Regs.HIF_LINK_STATUS 0 (rate + width * 2 ^ 4 + b2n flit * 2 ^ 9 + 2 ^ 10)
    if bits old 8 0 = 0 ∨ bits old 8 0 = rate + width * 2 ^ 4 then c
    else c.evt Cls.info Src.pcie devPart 0x0D01 (rate + width * 2 ^ 4)

/-- HOST_LINK_UP (R554). -/
def execHostLinkUp (rate : Fin 4) (width : Fin 17) (flit : Bool) (s : State) : Host.Outcome State Fault Refusal :=
  s.on (fun c => c.hostLink rate.val width.val flit)

/-- HOST_LINK_CHANGED: the link returns at a different rate or width (R554). -/
def execHostLinkChanged (rate : Fin 4) (width : Fin 17) (flit : Bool) (s : State) : Host.Outcome State Fault Refusal :=
  s.on (fun c => c.hostLink rate.val width.val flit)

/-- ATS_INVALIDATION: every request that used the translation has completed, so the invalidation is completed and counted (R557). -/
def execAtsInvalidation (fn : FnId) (s : State) : Host.Outcome State Fault Refusal :=
  s.on (fun c => if fn.val = 0 || c.vfOn (fn.val - 1) then c.count Regs.HIF_ATC_INVALS_COUNT else c)

/-! ### BAR4 (R558-R560) and configuration space (R551) -/

/-- The size of a function's BAR4 (R551). -/
def Core.bar4 (c : Core) (fn : Nat) : Nat := c.barSize.get (fun _ => 0x10000000) fn

/-- Whether R560 refuses an access to a range of a partition's view. -/
def Core.bar4Refused (c : Core) (p off n : Nat) (read : Bool) : Bool :=
  c.pstate p != pACTIVE || !c.viewOk p off n || (c.backing p).any (fun b => overlaps off n b.1 b.2) || (read && c.inLicensed p off n)

/-- A refused BAR4 access is counted (R560). DEDUCED (assumption 68). -/
def Core.bar4Refuse (c : Core) (read : Bool) : Core :=
  let c := c.count Regs.HIF_BAR4_REFUSED_COUNT
  if read then { c with resp := .abort } else c

/-- An access to the view of a partition through BAR4. -/
def Core.bar4View (c : Core) (p off n : Nat) (data : Option (List Byte)) : Core :=
  if c.bar4Refused p off n data.isNone then c.bar4Refuse data.isNone
  else match data with
    | some bs => c.writeView p off (bs.take n)
    | none => { c with resp := .bytes (c.readView p off n) }

/-- An access to the queue memory of the NVMe engines (R559). -/
def Core.bar4Queue (c : Core) (off n : Nat) (data : Option (List Byte)) : Core :=
  match data with
  | some bs => { c with qmem := threadAll (fun (m : SMap Byte) (e : Nat × Byte) => m.put zeroByte e.1 e.2) c.qmem ((upFrom off n).zip bs) }
  | none => { c with resp := .bytes ((upFrom off n).map (fun a => c.qmem.get zeroByte a)) }

/-- A BAR4 access of n bytes at an offset: a write of `data`, or a read (R558-R560). DEDUCED (assumption 68). -/
def Core.bar4Access (c : Core) (fn off n : Nat) (data : Option (List Byte)) : Core :=
  let size := c.bar4 fn
  if size < off + n then c
  else if fn = 0 then
    if size - 0x200000 ≤ off then c.bar4Queue (off - (size - 0x200000)) n data
    else if size - 0x4000000 < off + n || !c.flag Regs.HIF_PF_WIN_EN then c.bar4Refuse data.isNone
    else c.bar4View (c.rf Regs.HIF_PF_WIN_PART) (c.rf Regs.HIF_PF_WIN_BASE * 0x10000000 + off) n data
  else if !c.vfOn (fn - 1) then (if data.isNone then { c with resp := .unsupported } else c)
  else c.bar4View (fn - 1) (c.rf Regs.HIF_P_BAR4_BASE (fn - 1) * 0x10000000 / size * size + off) n data

/-- BAR4_ACCESS (R558). -/
def execBar4Access (fn : FnId) (off : BitVec 37) (n : Fin 4097) (data : Option (List Byte)) (s : State) :
    Host.Outcome State Fault Refusal :=
  s.on (fun c => if c.lost || c.inReset || !c.flag Regs.HIF_LINK_STATUS_UP then c else c.bar4Access fn.val off.toNat n.val data)

/-- CONFIG_REQUEST: until READY every request is answered with retry status, except in recovery mode, where PF0 is present (R579, R620); a
disabled function answers Unsupported Request (R678). What a read shows is open: the spec gives no configuration space.
DEDUCED (assumption 68). -/
def execConfigRequest (fn : FnId) (req : CfgReq) (s : State) : Host.Outcome State Fault Refusal :=
  s.on (fun c =>
    if c.inReset || c.lost || !(c.flag Regs.DEV_STATUS_READY || c.flag Regs.FW_FW_STATUS_RECOVERY) then { c with resp := .retry }
    else if fn.val ≠ 0 && !c.vfOn (fn.val - 1) then { c with resp := .unsupported }
    else match req with
      | .read => (let (w, c) := c.fresh; { c with resp := .data w })
      | .bar4Size log =>
        if log.val < 28 then c else { c with barSize := c.barSize.put (fun _ => 0x10000000) fn.val (2 ^ log.val) }
      | .busMaster on =>
        let rest := c.busMaster.filter (· != fn.val)
        { c with busMaster := if on then rest ++ [fn.val] else rest })

end Sys2Proof.Machine
end

