-- ==== Sys2Proof/Machine/Firmware.lean ====
section
/-! DEFINITION. Firmware.lean: staging, activation and trial of firmware, security version counters and settings (R615-R635). -/

namespace Sys2Proof.Machine

/-! ### Packages (R616, R617, R624) -/

/-- The largest SIZE of component i in MiB (R617). -/
def compMiB : Nat → Nat
  | 1 => 8
  | 2 => 2
  | 4 => 2
  | 5 => 4
  | _ => 1

/-- The offset of component i's entry in a manifest (R616). -/
def compAt (i : Nat) : Nat := 64 + 128 * (i - 1)

/-- OFFSET and SIZE of component i. -/
def compPlace (bs : List Byte) (i : Nat) : Nat × Nat := (field bs (compAt i + 8) 4, field bs (compAt i + 12) 4)

/-- DIGEST of component i. -/
def compDigest (bs : List Byte) (i : Nat) : List Byte := (bs.drop (compAt i + 16)).take 64

/-- SVN of component i. -/
def compSvn (bs : List Byte) (i : Nat) : Nat := field bs (compAt i + 1) 1

/-- Whether n bytes at an offset are zero. -/
def zeroAt (bs : List Byte) (o n : Nat) : Bool := field bs o n == 0

/-- The components in order. -/
def compIds : List Nat := [1, 2, 3, 4, 5, 6, 7]

/-- The form of an entry for a package of `len` component bytes (check 3). -/
def entryOk (bs : List Byte) (len i : Nat) : Bool :=
  let a := compAt i
  let p := compPlace bs i
  field bs a 1 == i && decide (compSvn bs i ≤ 127) && zeroAt bs (a + 2) 6 && zeroAt bs (a + 80) 48 && p.1 % 4096 == 0 &&
    decide (p.1 + p.2 ≤ 24 * 1048576) && decide (p.1 + p.2 ≤ len) && decide (p.2 ≤ compMiB i * 1048576)

/-- Check 3 of R624. -/
def manifestOk (bs : List Byte) : Bool :=
  let len := bs.length - 8192
  let apart := fun (i j : Nat) => decide (j ≤ i) || !overlaps (compPlace bs i).1 (compPlace bs i).2 (compPlace bs j).1 (compPlace bs j).2
  field bs 0 4 == 0x4C46574D && decide (field bs 4 1 ≤ 1) && decide (1 ≤ field bs 5 1) && zeroAt bs 6 2 && zeroAt bs 20 44 &&
    decide (field bs 960 4 ≤ 1) && zeroAt bs 964 4 && zeroAt bs 7586 606 && (bitOf (field bs 960 4) 0 || zeroAt bs 4277 3309) &&
    compIds.all (fun i => entryOk bs len i && compIds.all (apart i))

/-- The area that a manifest describes. -/
def areaOf (bs : List Byte) : FwArea :=
  { valid := false, build := field bs 8 8, setMin := field bs 16 2, setMax := field bs 18 2
    comps := compIds.map (fun i => { svn := compSvn bs i, digest := compDigest bs i }) }

/-- A component of an area. -/
def FwArea.comp (a : FwArea) (i : Nat) : FwComp := (a.comps[i - 1]?).getD {}

/-- The A area and the number of the B area (R615). -/
def Perm.areaA (pm : Perm) : FwArea := pm.areas.get areaDefault pm.activeArea
def Perm.bNum (pm : Perm) : Nat := 1 - pm.activeArea
def Perm.areaB (pm : Perm) : FwArea := pm.areas.get areaDefault pm.bNum

/-- The value of the counter of component i (R621). -/
def Perm.counter (pm : Perm) (i : Nat) : Nat := pm.svn.get (fun _ => 0) i

/-- Bits of REFUSE (R635). -/
def rfSVN : Nat := 16
def rfSIG : Nat := 32
def rfDIGEST : Nat := 64
def rfFORMAT : Nat := 128

/-- Checks 3 to 7 of R624: the check that fails first, its status and its REFUSE bit. -/
def State.packageCheck (s : State) (bs : List Byte) : Option (Nat × Nat × Nat) :=
  let a := areaOf bs
  let signedOk := Config.mldsaVerify Config.vendorKey (bs.take 964) ((bs.drop 968).take 3309)
  let owner := bitOf (field bs 960 4) 0 && Config.ownerVerify s.perm.ownerHash (bs.take 964) ((bs.drop 4277).take 3309)
  let body := fun (i : Nat) => (bs.drop (8192 + (compPlace bs i).1)).take (compPlace bs i).2
  if !manifestOk bs then some (3, St.LENGTH, rfFORMAT)
  else if s.perm.settings < a.setMin || a.setMax < s.perm.settings then some (4, St.LENGTH, rfFORMAT)
  else if !signedOk || (s.core.flag Regs.FW_FW_CFG_OWNER_SIG && !owner) then some (5, St.PROTECTION, rfSIG)
  else if compIds.any (fun i => decide (compSvn bs i < s.perm.counter i)) then some (6, St.PROTECTION, rfSVN)
  else if compIds.any (fun i => Config.shake256 (body i) != compDigest bs i) then some (7, St.PROTECTION, rfDIGEST)
  else none

/-! ### Staging -/

/-- STATE of FW_STATUS. -/
def Core.fwState (c : Core) : Nat := c.rf Regs.FW_FW_STATUS_STATE
def Core.setFwState (c : Core) (v : Nat) : Core := c.wf Regs.FW_FW_STATUS_STATE 0 v
def Core.fwResult (c : Core) (st : Nat) : Core := c.wf Regs.FW_FW_STATUS_RESULT 0 st

/-- A refusal: RESULT, REFUSE and FW_REFUSED (R624, R626). -/
def Core.fwRefuse (c : Core) (check st bits_ : Nat) : Core :=
  ((c.fwResult st).wr Regs.FW_REFUSE 0 bits_).evt Cls.info Src.firmware devPart 0x0F01 (st + check * 2 ^ 16 + bits_ * 2 ^ 20)

/-- The B slots are empty and nothing is staged. -/
def Perm.emptyB (pm : Perm) : Perm := { pm with areas := pm.areas.put areaDefault pm.bNum {}, fwStaged := false, fwChanged := 0 }

/-- A staging that fails check 2 to 8 leaves the B slots empty (R624). DEDUCED (assumption 71). -/
def State.stageFails (s : State) (e : Nat × Nat × Nat) : State :=
  { s with core := (s.core.setFwState 0).fwRefuse e.1 e.2.1 e.2.2, perm := s.perm.emptyB }

/-- FW_CMD STAGE: checks 1 to 7; `host` is the status with which the reads of host memory end (R624). DEDUCED (assumption 71). -/
def State.stage (s : State) (host : Nat) : State :=
  let st := s.core.fwState
  if st = 1 then s
  else if 3 ≤ st then { s with core := s.core.fwRefuse 1 St.BOUNDS 0 }
  else
    let len := s.core.rf Regs.FW_FW_LEN_BYTES
    let r := s.core.readPf0 (s.core.rd Regs.FW_FW_ARG) len host
    if len < 8192 ∨ 8192 + 24 * 1048576 < len ∨ r.1 ≠ 0 then s.stageFails (2, St.BOUNDS, 0)
    else match s.packageCheck r.2 with
      | some e => s.stageFails e
      | none =>
        let a := areaOf r.2
        let changed := (compIds.map (fun i => if (a.comp i).digest = (s.perm.areaA.comp i).digest then 0 else 2 ^ (i - 1))).sum
        let pm := s.perm.emptyB
        { s with
          core := (s.core.setFwState 1).fwResult 0
          perm := { pm with areas := pm.areas.put areaDefault pm.bNum a, fwChanged := changed } }

/-- FW_STAGE (R624). -/
def execFwStage (host : BitVec 16) (s : State) : Host.Outcome State Fault Refusal := .next (s.stage host.toNat)

/-- FW_STAGED: the B area is written and read back, and the shadow stores are loaded (R625); `flashOk` is check 8. -/
def execFwStaged (flashOk : Bool) (s : State) : Host.Outcome State Fault Refusal :=
  if s.core.fwState ≠ 1 then .next s
  else if !flashOk then .next (s.stageFails (8, St.PROTECTION, rfDIGEST))
  else
    let pm := s.perm
    .next { s with
      core := (s.core.setFwState 2).evt Cls.info Src.firmware devPart 0x0F00 pm.fwChanged
      perm := { pm with areas := pm.areas.put areaDefault pm.bNum { pm.areaB with valid := true }, fwStaged := true } }

/-- A command that the state does not take ends with BOUNDS; while STAGING, and in recovery mode, every command but STAGE does nothing or is
refused alike (R620, R635). DEDUCED (assumption 71). -/
def State.fwOnly (s : State) (st : Nat) (f : State) : State :=
  if s.core.fwState = 1 then s
  else if s.core.fwState ≠ st || s.core.flag Regs.FW_FW_STATUS_RECOVERY then { s with core := s.core.fwResult St.BOUNDS } else f

/-- FW_CMD DISCARD (R625). -/
def State.fwDiscard (s : State) : State :=
  s.fwOnly 2 { s with core := (s.core.setFwState 0).fwResult 0, perm := { s.perm with fwStaged := false, fwChanged := 0 } }

/-- FW_DISCARD (R625). -/
def execFwDiscard (s : State) : Host.Outcome State Fault Refusal := .next s.fwDiscard

/-! ### Activation -/

/-- The conditions that refuse an ACTIVATE, as REFUSE bits (R626). -/
def Core.refuseBits (c : Core) : Nat :=
  b2n ((List.range 16).any (fun p => c.flag Regs.PART_STATUS_OWNER_LOCK p)) +
    b2n ((List.range 16).any (fun p => c.flag Regs.FW_P_MOTION_MOTION p)) * 2 +
    b2n (!c.flag Regs.PWR_PWR_STATUS_VSAVE_CHARGED) * 4 + b2n (c.flag Regs.PWR_PWR_STATUS_SUPPLY_WARN) * 8

/-- FW_CMD ACTIVATE (R626, R627). -/
def State.fwActivate (s : State) (force : Bool) : State :=
  let c := s.core
  s.fwOnly 2 (
    if c.refuseBits ≠ 0 then { s with core := c.fwRefuse 0xF St.PROTECTION c.refuseBits }
    else
      let c := ((c.setFwState 3).fwResult 0).evt Cls.info Src.firmware devPart 0x0F02 s.perm.fwChanged
      { s with core := { c with fwForce := force, fwStart := c.tick } })

/-- FW_ACTIVATE (R626). -/
def execFwActivate (force : Bool) (s : State) : Host.Outcome State Fault Refusal := .next (s.fwActivate force)

/-- Whether a program of partition p runs and has not reached the barrier (R627). -/
def Core.fwAwaits (c : Core) (p : Nat) : Bool :=
  match (c.part p).prog with
  | some pr => pr.started && !pr.stopping && !(c.part p).barrierHeld
  | none => false

/-- The conditions of the activation barrier (R627). -/
def Core.fwBarrier (c : Core) : Bool :=
  !(List.range 16).any (fun p => c.fwAwaits p || c.pstate p == pDRAINING) && c.tileSwaps.isEmpty && c.bankSwaps.isEmpty &&
    !c.laneSwaps.any (·.running) && c.rf Regs.MEM_MIG_STATUS_STEP == 0

/-- FW_ACTIVATION_BARRIER: the tick tb: new work is held (R628). -/
def execFwActivationBarrier (s : State) : Host.Outcome State Fault Refusal :=
  s.on (fun c => if c.fwState = 3 && c.fwBarrier then { c.setFwState 4 with fwHold := true, fwHoldTick := c.tick } else c)

/-- FW_ACTIVATED: the tick ta: the NVMe commands outstanding at tb have completed and the shadow copies match, so the CHANGED components take
effect as one action, and held work and held triggers go on (R628, R629, R632, R633). -/
def State.fwActivated (s : State) : State :=
  let c := s.core
  if c.fwState ≠ 4 || !c.nvcmds.isEmpty then s
  else
    let pm : Perm := { s.perm with activeArea := s.perm.bNum, trial := true, fwStaged := false }
    let c := (c.setFwState 5).count Regs.FW_ACTIVATIONS_COUNT
    let c := (c.wr Regs.FW_ACT_TICK 0 c.tick).wr Regs.FW_HOLD_TICKS 0 (satAt 32 (c.tick - c.fwHoldTick))
    let c := c.evt Cls.info Src.firmware devPart 0x0F03 c.tick (c.tick - c.fwHoldTick)
    let c := c.wf Regs.FW_SETTINGS_MIGRATING 0 (b2n (decide (pm.settings < pm.areaA.setMax)))
    let c : Core := { c with fwHold := false, beaconDown := bitOf pm.fwChanged 0, fwTrialTick := c.tick }
    { s with core := c.releaseBarriers.flushSlow.pumpAll.releaseSwaps.releaseLanes, perm := { pm with fwChanged := 0 } }

/-- FW_ACTIVATED (R628). -/
def execFwActivated (s : State) : Host.Outcome State Fault Refusal := .next s.fwActivated

/-- A partition whose program has not reached the barrier is stopped, and its open items end with FW_ACTIVATION (R631). -/
def Core.fwStop (c : Core) (p : Nat) : Core :=
  match (c.part p).prog with
  | none => c
  | some pr =>
    let c := (c.stopProgram p St.FW_ACTIVATION none).endHeld p St.FW_ACTIVATION
    let drop := fun (o : AOp) => if o.part = p then { o with item := none } else o
    let c : Core := { c with ops := c.ops.map drop }
    threadAll (fun c (i : Item) => c.endItem i.id St.FW_ACTIVATION false) c (c.items.filter (fun i => i.part == p && i.id != pr.item))

/-- FW_ACTIVATE_TIMEOUT: the barrier has not been reached within ACT_TIMEOUT_MS (R631). -/
def execFwActivateTimeout (s : State) : Host.Outcome State Fault Refusal :=
  s.on (fun c =>
    if c.fwState ≠ 3 || decide (c.tick < c.fwStart + max 1 (c.rf Regs.FW_FW_CFG_ACT_TIMEOUT_MS) * Config.ticksPerMs) then c
    else if !c.fwForce then c.fwAbandon 0
    else threadAll (fun c p => c.fwStop p) c ((List.range 16).filter c.fwAwaits))

/-- FW_CMD ABANDON, refused except while WAITING (R631). -/
def State.fwAbandonCmd (s : State) : State := s.fwOnly 3 { s with core := (s.core.fwResult 0).fwAbandon 1 }

/-- FW_ABANDON (R631). -/
def execFwAbandon (s : State) : Host.Outcome State Fault Refusal := .next s.fwAbandonCmd

/-! ### Trial, counters, settings -/

/-- FW_TRIAL_PASS: every loaded component passes within 500 ms of Beacon's start on the running firmware (R630). -/
def execFwTrialPass (s : State) : Host.Outcome State Fault Refusal :=
  if s.core.fwState ≠ 5 || s.core.beaconDown || decide (s.core.fwTrialTick + 500 * Config.ticksPerMs < s.core.tick) then .next s
  else .next { s with core := s.core.setFwState 0, perm := { s.perm with trial := false } }

/-- FW_TRIAL_TIMEOUT: the check fails for the components `bad`, or has not finished in 500 ms: Beacon makes a cold reset, and the next boot
takes the other area (R630). DEDUCED (assumption 71). -/
def execFwTrialTimeout (bad : BitVec 7) (s : State) : Host.Outcome State Fault Refusal :=
  if s.core.fwState ≠ 5 || (bad == 0 && decide (s.core.tick < s.core.fwTrialTick + 500 * Config.ticksPerMs)) then .next s
  else .next (({ s with perm := { s.perm with trialBad := some bad.toNat } } : State).beaconReset)

/-- BEACON_RESTARTED: the power manager resumes and the 500 ms of the trial check start (R629, R630). DEDUCED (assumption 65). -/
def execBeaconRestarted (s : State) : Host.Outcome State Fault Refusal :=
  s.on (fun c => if c.beaconDown then { c with beaconDown := false, fwTrialTick := c.tick, therm := [] } else c)

/-- FW_CMD SVN_COMMIT: every counter rises to the SVN of its running component (R623). -/
def State.svnCommit (s : State) : State :=
  let up := compIds.filter (fun i => decide (s.perm.counter i < (s.perm.areaA.comp i).svn))
  let steps := (up.map (fun i => (s.perm.areaA.comp i).svn - s.perm.counter i)).sum
  let raise := fun (m : SMap Nat) (i : Nat) => m.put (fun _ => 0) i (min 127 (s.perm.areaA.comp i).svn)
  s.fwOnly 0 (
    if up.isEmpty then { s with core := s.core.fwResult 0 }
    else { s with
      core := (s.core.fwResult 0).evt Cls.info Src.firmware devPart 0x0F08 ((up.map (fun i => 2 ^ (i - 1))).sum + steps % 256 * 2 ^ 8)
      perm := { s.perm with svn := threadAll raise s.perm.svn up } })

/-- SVN_COMMIT (R623). -/
def execSvnCommit (s : State) : Host.Outcome State Fault Refusal := .next s.svnCommit

/-- SETTINGS_MIGRATED: the boot header naming the migrated settings commits (R632). -/
def execSettingsMigrated (s : State) : Host.Outcome State Fault Refusal :=
  if !s.core.flag Regs.FW_SETTINGS_MIGRATING || s.core.lost || s.core.inReset then .next s
  else
    let new := s.perm.areaA.setMax
    .next { s with
      core := (s.core.wf Regs.FW_SETTINGS_MIGRATING 0 0).evt Cls.info Src.firmware devPart 0x0F09 (s.perm.settings + new * 2 ^ 16)
      perm := { s.perm with settings := new } }

/-- A write of FW_CMD (R635). DESIGN CHOICE (assumption 61). -/
def State.fwCmd (s : State) (w : Nat) : State :=
  if !bitOf w 4 then s
  else match bits w 2 0 with
    | 1 => s.stage 0
    | 2 => s.fwActivate (bitOf w 3)
    | 3 => s.fwAbandonCmd
    | 4 => s.svnCommit
    | 5 => s.fwDiscard
    | _ => s

end Sys2Proof.Machine
end

