-- ==== Sys2Proof/Machine/Power.lean ====
section
/-! DEFINITION. Power.lean: voltage margins, the power cap, thermal control, energy accounting, the herd budget and the restore of training
state (R585-R603, R607, R611-R614). -/

namespace Sys2Proof.Machine

/-! ### Margins and floors (R588-R590) -/

/-- MARGIN of quadrant q in mV: 60 on a new part (R588). PRESUMED (assumption 9). -/
def Perm.margin (pm : Perm) (q : Nat) : Nat := pm.margins.get (fun _ => 60) q

/-- VMIN of quadrant q in mV, fused; 540 is the spec's typical silicon. PRESUMED (assumption 9). -/
def Perm.vminOf (pm : Perm) (q : Nat) : Nat := pm.vmin.get (fun _ => 540) q

/-- The lowest setpoint of quadrant q (R588). DEDUCED (assumption 62). -/
def Perm.floorMv (pm : Perm) (q : Nat) : Nat := max 600 (pm.vminOf q + pm.margin q)

/-- The highest setpoint (R588). DEDUCED (assumption 62). -/
def Core.topMv (c : Core) : Nat := min 900 (c.rf Regs.PWR_VTARGET_MV)

/-- The setpoint of quadrant q. -/
def Core.setMv (c : Core) (q : Nat) : Nat := c.rf Regs.PWR_VCORE_SET_MV q

/-- Set a margin. -/
def Perm.setMargin (pm : Perm) (q v : Nat) : Perm := { pm with margins := pm.margins.put (fun _ => 60) q v }

/-- Whether the power manager acts: not after a supply loss (R612), in reset, or while Beacon restarts (R629). DEDUCED (assumption 73). -/
def Core.pwrRuns (c : Core) : Bool := !c.lost && !c.inReset && !c.beaconDown

/-! ### Duty (R593, R595, R597) -/

/-- What the temperature demands of quadrant q: mV below the top, duty notches. -/
def Core.thermOf (c : Core) (q : Nat) : Nat × Nat := c.therm.get (fun _ => (0, 0)) q

/-- The duty of a quadrant in eighths: the lower of what the cap and the temperature demand (R597). DEDUCED (assumption 63). -/
def Core.quadDuty (c : Core) (q : Nat) : Nat := min c.duty (8 - (c.thermOf q).2)

/-- The duty in force, with the rail limit (R595). -/
def Core.dutyNow (c : Core) (q : Nat) : Nat := if c.tick < c.limitUntil.get (fun _ => 0) q then min 4 (c.quadDuty q) else c.quadDuty q

/-- Which quadrants are gated in the current slot (R593). -/
def Core.regate (c : Core) : Core :=
  { c with gated := ((List.range 4).map (fun q => if c.dutyNow q ≤ c.dutySlot then 2 ^ q else 0)).foldl (· + ·) 0 }

/-- DUTY_SLOT: a slot of 25 ticks begins (R593). -/
def execDutySlot (s : State) : Host.Outcome State Fault Refusal :=
  s.on (fun c => ({ c with dutySlot := (c.dutySlot + 1) % 8 } : Core).regate)

/-- RAIL_LIMIT: the estimated current of quadrant q, in A, exceeds the limit: duty 4/8 or less from the next tick for 25 ticks (R595).
DEDUCED (assumption 63). -/
def execRailLimit (q : Fin 4) (amps : BitVec 16) (s : State) : Host.Outcome State Fault Refusal :=
  s.on (fun c =>
    if c.lost || c.inReset || decide (amps.toNat ≤ c.rf Regs.PWR_RAIL_LIMIT_AMPS) then c
    else
      let c := c.count Regs.PWR_LIMIT_EVENTS_COUNT
      ({ c with limitUntil := c.limitUntil.put (fun _ => 0) q.val (c.tick + 26) } : Core).regate)

/-! ### The ladder (R586, R592, R597) -/

/-- The setpoints that the ladder and the temperature demand, no two more than 150 mV apart above their floors (R586, R588, R597).
DEDUCED (assumption 62). DEDUCED (assumption 64). -/
def Core.setpoints (c : Core) (pm : Perm) : List Nat :=
  let want := (List.range 4).map (fun q => max (pm.floorMv q) (c.topMv - max (10 * c.notch) (c.thermOf q).1))
  let least := (lowest want).getD 0
  want.zipIdx.map (fun e => max (pm.floorMv e.2) (min e.1 (least + 150)))

/-- Voltage notches from the top until every quadrant is at its floor. -/
def Core.notches (c : Core) (pm : Perm) : Nat := ((List.range 4).map (fun q => ceilDiv (c.topMv - pm.floorMv q) 10)).foldl max 0

/-- INFO0 of CAP_UNMET and CAP_MET. -/
def Core.capInfo (c : Core) (p : Nat) : Nat := p / 10 + c.rf Regs.PWR_CAP_EFF_WATTS * 2 ^ 16

/-- One move on the ladder for P in 0.1 W (R592), CAP_UNMET and CAP_MET (R594). -/
def Core.ladder (c : Core) (pm : Perm) (p : Nat) : Core :=
  let cap := c.rf Regs.PWR_CAP_EFF_WATTS
  let low := c.notches pm
  let above := decide (10 * cap < p)
  let c : Core := { c with notch := min c.notch low, metSteps := if above then 0 else c.metSteps + 1 }
  let c :=
    if above then
      if c.notch < low then { c with notch := c.notch + 1 }
      else if 1 < c.duty then { c with duty := c.duty - 1 }
      else if c.flag Regs.PWR_PWR_STATUS_CAP_UNMET then c
      else (c.wf Regs.PWR_PWR_STATUS_CAP_UNMET 0 1).evt Cls.info Src.beacon devPart 0x0E00 (c.capInfo p)
    else if 10 * p < cap * (100 - c.rf Regs.PWR_CAP_CFG_UP_PCT) then
      if c.duty < 8 then { c with duty := c.duty + 1 } else { c with notch := c.notch - 1 }
    else c
  if c.flag Regs.PWR_PWR_STATUS_CAP_UNMET && decide (100 ≤ c.metSteps) then
    (c.wf Regs.PWR_PWR_STATUS_CAP_UNMET 0 0).evt Cls.info Src.beacon devPart 0x0E01 (c.capInfo p)
  else c

/-- The throttle limit in 0.1 °C. -/
def Core.throttleDeci (c : Core) : Nat := 10 * c.rf Regs.PWR_THERM_CFG_THROTTLE

/-- Whether a quadrant is throttled. -/
def Core.throttled (c : Core) (q : Nat) : Bool := bitOf (c.rf Regs.PWR_PWR_STATUS_THROTTLE) q

/-- A throttled quadrant's millisecond: 10 mV toward the floor; at the floor and still at or above the limit, a duty notch (R597).
DEDUCED (assumption 65). -/
def Core.throttleStep (c : Core) (pm : Perm) (q : Nat) : Core :=
  if !c.throttled q then c
  else
    let t := c.thermOf q
    let hot := decide ((c.throttleDeci : Int) ≤ signed 12 (c.rf Regs.PWR_TJ_DECI_C q))
    let t := if pm.floorMv q + t.1 < c.topMv then (t.1 + 10, t.2) else if hot then (t.1, min 7 (t.2 + 1)) else t
    { c with therm := c.therm.put (fun _ => (0, 0)) q t }

/-- Tj of quadrant q: the highest reading of its sensors that work; the throttle limit when none does (R46, R596). -/
def Core.readTj (c : Core) (q : Nat) : Core :=
  let good := (upFrom (8 * q) 8).filter (fun s => !c.flag Regs.PWR_TEMP_FAILED s)
  let top := good.foldl (fun (b : Option Int) s =>
    let v := signed 12 (c.rf Regs.PWR_TEMP_DECI_C s)
    match b with | some x => some (max x v) | none => some v) none
  c.wf Regs.PWR_TJ_DECI_C q (match top with | some v => toTwos 12 v | none => c.throttleDeci)

/-- The derived registers of the ladder. DEDUCED (assumption 63). -/
def Core.showPower (c : Core) (pm : Perm) : Core :=
  let set := c.setpoints pm
  let one := fun (c : Core) (q : Nat) =>
    let c := c.wf Regs.PWR_VCORE_SET_MV q ((set[q]?).getD 0)
    (c.wf Regs.PWR_MARGIN_FLOOR_MV q (pm.floorMv q)).wf Regs.PWR_MARGIN_DUTY q (c.quadDuty q - 1)
  (threadAll one c (List.range 4)).wf Regs.PWR_PWR_STATUS_DUTY 0 (c.duty - 1)

/-! ### Energy (R599) -/

/-- Energy of partition p accrues to the slot of its job tag. DEDUCED (assumption 66). -/
def Core.tagEnergy (c : Core) (p e : Nat) : Core :=
  let tag := c.rf Regs.PWR_JOB_TAG_TAG p
  if tag = 0 ∨ e = 0 then c
  else
    let mine := (List.range 64).find? (fun k => c.flag Regs.PWR_TAG_SLOT_VALID k && c.rf Regs.PWR_TAG_SLOT_TAG k == tag)
    let free := (List.range 64).find? (fun k => !c.flag Regs.PWR_TAG_SLOT_VALID k)
    match mine, free with
    | some k, _ => c.count Regs.PWR_TAG_ENERGY_MJ k e
    | none, some k => (c.wr Regs.PWR_TAG_SLOT k (tag + 2 ^ 16)).count Regs.PWR_TAG_ENERGY_MJ k e
    | none, none => c.wf Regs.PWR_TAG_STATUS_TAG_OVF 0 1

/-- The energy of a millisecond is accounted. DEDUCED (assumption 66). -/
def Core.addEnergy (c : Core) (es : List Nat) (rest : Nat) : Core :=
  let one := fun (c : Core) (e : Nat × Nat) => (c.count Regs.PWR_ENERGY_PART_MJ e.2 e.1).tagEnergy e.2 e.1
  let c := threadAll one c es.zipIdx
  (c.count Regs.PWR_ENERGY_UNASSIGNED_MJ 0 rest).count Regs.PWR_ENERGY_DEV_MJ 0 (es.foldl (· + ·) rest)

/-- TAG_SLOT_CLEAR: a write of a tag slot; CLEAR frees it (R599). DEDUCED (assumption 66). -/
def Core.tagClear (c : Core) (k w : Nat) : Core :=
  if bitOf w 17 then (c.wr Regs.PWR_TAG_SLOT k 0).wr Regs.PWR_TAG_ENERGY k 0 else c

/-- TAG_SLOT_CLEAR (R599). -/
def execTagSlotClear (k : Fin 64) (w : Word) (s : State) : Host.Outcome State Fault Refusal := s.on (fun c => c.tagClear k.val w.toNat)

/-! ### The control step -/

/-- What a control step reads goes into the registers. -/
def Core.telemetry (c : Core) (x : Telemetry) : Core :=
  let rail := fun (c : Core) (e : (BitVec 10 × BitVec 11) × Nat) =>
    (c.wf Regs.PWR_VCORE_MEAS_MV e.2 e.1.1.toNat).wf Regs.PWR_VCORE_AMPS e.2 e.1.2.toNat
  let temp := fun (c : Core) (e : BitVec 12 × Nat) => if c.flag Regs.PWR_TEMP_FAILED e.2 then c else c.wf Regs.PWR_TEMP_DECI_C e.2 e.1.toNat
  let c := threadAll rail c (x.mv.toList.zip x.amps.toList).zipIdx
  let c := threadAll temp c x.temps.toList.zipIdx
  let c := threadAll (fun c q => c.readTj q) c (List.range 4)
  let c := (c.wr Regs.PWR_POWER 0 x.p.toNat).wr Regs.PWR_VSAVE_MEAS 0 x.vsave.toNat
  c.addEnergy (x.energy.toList.map (·.toNat)) x.rest.toNat

/-- POWER_CONTROL_STEP (R592). -/
def execPowerControlStep (x : Telemetry) (s : State) : Host.Outcome State Fault Refusal :=
  if !s.core.pwrRuns then .next s
  else
    let c := (s.core.telemetry x).ladder s.perm x.p.toNat
    let c := threadAll (fun c q => c.throttleStep s.perm q) c (List.range 4)
    .next { s with core := (c.showPower s.perm).regate }

/-- A write of CAP (R591, R603); after a supply loss it is ignored (R612). -/
def Core.capWrite (c : Core) (w : Nat) : Core :=
  let v := w % 2 ^ 10
  if c.lost then c
  else if v < 250 ∨ 700 < v then c.wf Regs.PWR_PWR_STATUS_CFG_ERR 0 1
  else (c.wr Regs.PWR_CAP 0 v).wr Regs.PWR_CAP_EFF 0 v

/-- CAP_WRITE (R591). -/
def execCapWrite (w : Word) (s : State) : Host.Outcome State Fault Refusal := s.on (fun c => c.capWrite w.toNat)

/-! ### Margins (R589, R590) -/

/-- MARGIN_TRIMMED: the evaluation of 24 powered hours; `low` is the lowest slack in ps that a monitor of quadrant q has reported
(R589). -/
def execMarginTrimmed (q : Fin 4) (low : BitVec 16) (s : State) : Host.Outcome State Fault Refusal :=
  let m := s.perm.margin q.val
  let m' := if 40 ≤ low.toNat then (if m ≤ 30 then m else max 30 (m - 5)) else if low.toNat < 20 then (if 90 ≤ m then m else min 90 (m + 5)) else m
  if !s.core.pwrRuns || m' == m then .next s
  else .next { s with core := s.core.evt Cls.info Src.beacon devPart 0x0E06 (q.val + m' * 2 ^ 4), perm := s.perm.setMargin q.val m' }

/-- MARGIN_ALARM: monitor m reports less than 8 ps of slack: the setpoint rises by 10 mV at once and the margin by 10 mV (R590); rails
left more than 150 mV below rise with it (R586). DEDUCED (assumption 64). -/
def execMarginAlarm (m : Fin 128) (slack : BitVec 8) (s : State) : Host.Outcome State Fault Refusal :=
  let q := m.val / 32
  if !s.core.pwrRuns || decide (8 ≤ slack.toNat) then .next s
  else
    let c := s.core
    let v := min (max c.topMv (c.setMv q)) (c.setMv q + 10)
    let c := c.wf Regs.PWR_VCORE_SET_MV q v
    let c := threadAll (fun c r => if c.setMv r + 150 < v then c.wf Regs.PWR_VCORE_SET_MV r (v - 150) else c) c (List.range 4)
    let c := c.evt Cls.info (Src.delayMon m.val) devPart 0x0E07 (q + slack.toNat * 2 ^ 8)
    let old := s.perm.margin q
    .next { s with core := c, perm := s.perm.setMargin q (max old (min 90 (old + 10))) }

/-! ### Temperature (R596-R598) -/

/-- Whether sensor s can give its quadrant's Tj: it works, or no sensor of the quadrant does (R596). -/
def Core.givesTj (c : Core) (s : Nat) : Bool :=
  !c.flag Regs.PWR_TEMP_FAILED s || (upFrom (s / 8 * 8) 8).all (fun k => c.flag Regs.PWR_TEMP_FAILED k)

/-- THERMAL_THROTTLE: sensor s gives its quadrant's Tj, which has reached the limit (R597); while Beacon restarts the quadrant runs at duty
4/8 (R629). DEDUCED (assumption 65). -/
def execThermalThrottle (sensor : Fin 32) (tj : BitVec 12) (s : State) : Host.Outcome State Fault Refusal :=
  s.on (fun c =>
    let q := sensor.val / 8
    if c.lost || c.inReset || c.throttled q || !c.givesTj sensor.val || decide (tj.toInt < (c.throttleDeci : Int)) then c
    else
      let c := c.wf Regs.PWR_PWR_STATUS_THROTTLE 0 (c.rf Regs.PWR_PWR_STATUS_THROTTLE ||| 2 ^ q)
      let start := if c.beaconDown then (0, 4) else (c.topMv - c.setMv q, 0)
      let c : Core := { c with therm := c.therm.put (fun _ => (0, 0)) q start }
      (c.evt Cls.info (Src.thermal sensor.val) devPart 0x0E02 (q + tj.toNat * 2 ^ 4)).regate)

/-- THERMAL_THROTTLE_END: Tj has been below THROTTLE − HYST for 10 ms (R597). DEDUCED (assumption 65). -/
def execThermalThrottleEnd (sensor : Fin 32) (tj : BitVec 12) (s : State) : Host.Outcome State Fault Refusal :=
  s.on (fun c =>
    let q := sensor.val / 8
    if !c.throttled q || !c.givesTj sensor.val || decide ((c.throttleDeci : Int) - 10 * c.rf Regs.PWR_THERM_CFG_HYST ≤ tj.toInt) then c
    else
      let c := c.wf Regs.PWR_PWR_STATUS_THROTTLE 0 (setBits (c.rf Regs.PWR_PWR_STATUS_THROTTLE) q q 0)
      let c : Core := { c with therm := c.therm.put (fun _ => (0, 0)) q (0, 0) }
      (c.evt Cls.info (Src.thermal sensor.val) devPart 0x0E03 (q + tj.toNat * 2 ^ 4)).regate)

/-- SENSOR_FAULT: a sensor out of range or silent is removed from its quadrant's Tj (R596). -/
def execSensorFault (sensor : Fin 32) (s : State) : Host.Outcome State Fault Refusal :=
  s.on (fun c =>
    if c.flag Regs.PWR_TEMP_FAILED sensor.val then c
    else ((c.wf Regs.PWR_TEMP_FAILED sensor.val 1).readTj (sensor.val / 8)).evt Cls.info (Src.thermal sensor.val) devPart 0x0E05 sensor.val)

/-- THERMAL_TRIP: sensor s reads 115 °C or more: the save sequence runs with SUPPLY_LOSS (R598); during a save it is only posted (R612). -/
def execThermalTrip (sensor : Fin 32) (reading : BitVec 12) (s : State) : Host.Outcome State Fault Refusal :=
  if s.core.tripped || decide (reading.toInt < 1150) then .next s
  else
    let c := s.core.evt Cls.trip (Src.thermal sensor.val) devPart 0x0E04 (sensor.val + reading.toNat % 2 ^ 11 * 2 ^ 5)
    let s : State := { s with core := { c with tripped := true, tripTick := c.tick } }
    if s.core.lost || s.core.inReset then .next s else .next (s.capture 0 St.SUPPLY_LOSS)

/-- THERMTRIP_TIMEOUT: 8 ms after the trip tick the save has not ended, so THERMTRIP_N falls (R598). DEDUCED (assumption 70). -/
def execThermtripTimeout (s : State) : Host.Outcome State Fault Refusal :=
  s.on (fun c => if c.tripped && decide (c.tripTick + 8 * Config.ticksPerMs ≤ c.tick) then { c with thermtrip := true } else c)

/-! ### Supply (R587, R607) -/

/-- SUPPLY_WARNING: rails outside their range for 1 ms, by the table order of R585, or VSAVE below its threshold (R587); a WAITING activation
is abandoned (R633). -/
def execSupplyWarning (rails : BitVec 8) (vsaveLow : Bool) (s : State) : Host.Outcome State Fault Refusal :=
  s.on (fun c =>
    if c.lost || (rails == 0 && !vsaveLow) then c
    else
      let c := if vsaveLow then c.wf Regs.PWR_PWR_STATUS_VSAVE_CHARGED 0 0 else c
      if c.flag Regs.PWR_PWR_STATUS_SUPPLY_WARN then c
      else ((c.wf Regs.PWR_PWR_STATUS_SUPPLY_WARN 0 1).evt Cls.info Src.supplyMon devPart 0x0E08
        (rails.toNat + b2n vsaveLow * 2 ^ 8)).fwAbandon 2)

/-- SUPPLY_WARNING_END: every rail in range and VSAVE charged for 100 ms (R587). -/
def execSupplyWarningEnd (s : State) : Host.Outcome State Fault Refusal :=
  s.on (fun c =>
    if c.lost || !c.flag Regs.PWR_PWR_STATUS_SUPPLY_WARN then c
    else ((c.wf Regs.PWR_PWR_STATUS_SUPPLY_WARN 0 0).wf Regs.PWR_PWR_STATUS_VSAVE_CHARGED 0 1).evt Cls.info Src.supplyMon devPart 0x0E09)

/-- VSAVE_CHARGED: VSAVE reaches its threshold, and items may open (R607). -/
def execVsaveCharged (s : State) : Host.Outcome State Fault Refusal :=
  s.on (fun c => if c.lost then c else c.wf Regs.PWR_PWR_STATUS_VSAVE_CHARGED 0 1)

/-! ### The herd budget (R600-R603) -/

/-- The nanoseconds of a budget period. -/
def Core.periodNs (c : Core) : Nat := max 1 (c.rf Regs.PWR_HERD_PWR_PERIOD_MS) * 1000000

/-- The members of the budget group (R600). -/
def Core.members (c : Core) : List Nat := (List.range (min 64 (c.rf Regs.PWR_HERD_ORG_COUNT))).map (fun i => c.rf Regs.PWR_HERD_MEMBER_DEV i)

/-- The report of a member for a period. -/
def Core.report (c : Core) (dev period : Nat) : Option BudgetRep := c.reports.find? (fun r => r.dev == dev && r.period == period)

/-- Keep a report; those of periods before the last are dropped. DEDUCED (assumption 67). -/
def Core.keepReport (c : Core) (r : BudgetRep) : Core :=
  { c with reports := c.reports.filter (fun x => decide (r.period ≤ x.period + 1) && !(x.dev == r.dev && x.period == r.period)) ++ [r] }

/-- BUDGET_REPORT: the timestamp crosses a multiple of the period: the member sends its report and its slack starts anew (R601, R602). -/
def execBudgetReport (s : State) : Host.Outcome State Fault Refusal :=
  s.on (fun c =>
    if !c.pwrRuns || !c.flag Regs.PWR_HERD_PWR_EN then c
    else
      let sum := fun (rs : List Reg) => satAt 64 ((List.range 16).flatMap (fun p => rs.map (fun r => c.rd r p))).sum
      let slack := if c.slackAll = 0 then 0 else satAt 16 (c.slackWait * 65536 / c.slackAll)
      let r : BudgetRep :=
        { dev := c.rf Regs.COL_HERD_CFG_DEV_ID, period := c.ts / c.periodNs % 2 ^ 32, slack := slack, cap := c.rf Regs.PWR_CAP_EFF_WATTS
          tx := sum [Regs.COL_PIPE_TX_STALL5, Regs.COL_PIPE_TX_STALL6], rx := sum [Regs.COL_PIPE_RX_WAIT5, Regs.COL_PIPE_RX_WAIT6] }
      let c : Core := { c.keepReport r with slackWait := 0, slackAll := 0 }
      c.send 5 [c.rf Regs.PWR_HERD_ORG_ORG_ID, c.rf Regs.PWR_HERD_PWR_GROUP_TAG, r.dev, r.period, r.slack, r.cap, r.tx, r.rx])

/-- A change of CAP_EFF by the budget (R603). -/
def Core.transfer (c : Core) (cap other : Nat) (raised : Bool) : Core :=
  ((c.wr Regs.PWR_CAP_EFF 0 cap).count Regs.PWR_TRANSFERS_COUNT).evt Cls.info Src.beacon devPart 0x0E0D
    (cap + other * 2 ^ 16 + b2n raised * 2 ^ 30)

/-- The upper bound of this member's CAP_EFF (R600). DEDUCED (assumption 67). -/
def Core.capTop (c : Core) : Nat := min (c.rf Regs.PWR_CAP_RANGE_MAX) (c.rf Regs.PWR_CAP_WATTS)

/-- BUDGET_REPORT_RECEIVE: a member's report; it lets a raise go ahead when it shows the donor's lowered CAP_EFF (R603). -/
def execBudgetReportReceive (dev : BitVec 14) (period : BitVec 32) (slack cap : BitVec 16) (tag : BitVec 16) (s : State) :
    Host.Outcome State Fault Refusal :=
  s.on (fun c =>
    if !c.pwrRuns || !c.flag Regs.PWR_HERD_PWR_EN || tag.toNat != c.rf Regs.PWR_HERD_PWR_GROUP_TAG || !c.members.contains dev.toNat then c
    else
      let c := c.keepReport ⟨dev.toNat, period.toNat, slack.toNat, cap.toNat, 0, 0⟩
      match c.raise_ with
      | some (donor, low) =>
        if donor ≠ dev.toNat ∨ low < cap.toNat then c
        else
          let up := c.rf Regs.PWR_CAP_EFF_WATTS + c.rf Regs.PWR_HERD_PWR_STEP_W
          let c : Core := { c with raise_ := none }
          if c.capTop < up then c else c.transfer up donor true
      | none => c)

/-- The best of a list of reports by a measure; ties go to the lower device ID (R603). DEDUCED (assumption 67). -/
def bestReport (better : BudgetRep → BudgetRep → Bool) : List BudgetRep → Option BudgetRep
  | [] => none
  | r :: rest => match bestReport better rest with
    | none => some r
    | some b => if better b r || (!better r b && decide (b.dev < r.dev)) then some b else some r

/-- Whether half of the period that a report names has passed (R603). -/
def Core.halfPassed (c : Core) (r : BudgetRep) : Bool :=
  c.ts / c.periodNs % 2 ^ 32 != r.period || decide (c.periodNs ≤ 2 * (c.ts % c.periodNs))

/-- The decision of a member for the period of its own report (R603). DEDUCED (assumption 67). -/
def Core.decideBudget (c : Core) (mine : BudgetRep) : Core :=
  let own := c.rf Regs.COL_HERD_CFG_DEV_ID
  match c.members.find? (fun d => (c.report d mine.period).isNone) with
  | some d => c.evt Cls.info Src.beacon devPart 0x0E0E (mine.period + d * 2 ^ 32)
  | none =>
    let rs := c.members.filterMap (fun d => c.report d mine.period)
    let step := c.rf Regs.PWR_HERD_PWR_STEP_W
    let top := fun (r : BudgetRep) => if r.dev = own then c.capTop else c.rf Regs.PWR_CAP_RANGE_MAX
    let donor := bestReport (fun a b => decide (b.slack < a.slack)) (rs.filter (fun r => decide (c.rf Regs.PWR_CAP_RANGE_MIN + step ≤ r.cap)))
    let receiver := bestReport (fun a b => decide (a.slack < b.slack)) (rs.filter (fun r => decide (r.cap + step ≤ top r)))
    let c := (c.wf Regs.PWR_HERD_STATUS_PERIOD 0 mine.period).wf Regs.PWR_HERD_STATUS_SLACK 0 mine.slack
    match donor, receiver with
    | some d, some r =>
      if d.slack ≤ r.slack + c.rf Regs.PWR_HERD_PWR_HYST then c
      else if d.dev = own then c.transfer (c.rf Regs.PWR_CAP_EFF_WATTS - step) r.dev false
      else if r.dev = own then { c with raise_ := some (d.dev, d.cap - step) }
      else c
    | _, _ => c

/-- BUDGET_DECISION: half a period after the start of this member's last reported period, once (R603). DEDUCED (assumption 67). -/
def execBudgetDecision (s : State) : Host.Outcome State Fault Refusal :=
  s.on (fun c =>
    let own := c.rf Regs.COL_HERD_CFG_DEV_ID
    match c.reports.reverse.find? (fun r => r.dev == own) with
    | none => c
    | some mine =>
      if !c.pwrRuns || !c.flag Regs.PWR_HERD_PWR_EN || !c.halfPassed mine then c
      else (let d := c.decideBudget mine; { d with reports := d.reports.filter (fun r => r.dev != own) }))

/-! ### The restore of training state (R611) -/

/-- SAVE_CMD RESTORE: the result, and the device after it. -/
def State.restore (s : State) (section_ p : Nat) : Nat × Core :=
  let c := s.core
  match s.perm.image with
  | none => (St.PROTECTION, c)
  | some img => match img.parts.find? (fun x => x.part == section_) with
    | none => (St.PROTECTION, c)
    | some x =>
      if s.perm.saveMark ≠ 0 || c.pstate p != pACTIVE || (c.part p).prog.isSome then (St.PROTECTION, c)
      else if !c.viewOk p (c.layerAt p 0) 65536 then (St.BOUNDS, c)
      else
        let e := c.lead p
        let c := ((c.wr Regs.UPD_STEP e x.step).wr Regs.UPD_SCHED_N e x.schedN).wr Regs.UPD_LS_STATE e x.ls
        let c := (c.wf Regs.UPD_LS_STATE_VALID e 1).wr Regs.UPD_LS_HIST e x.hist
        let slot := fun (c : Core) (v : (Nat × Nat × Nat) × Nat) =>
          ((c.putLayer p v.2 44 4 v.1.1).putLayer p v.2 1 1 v.1.2.1).putLayer p v.2 60 2 v.1.2.2
        (0, threadAll slot c x.slots.zipIdx)

/-- A write of SAVE_CMD. -/
def State.saveCmd (s : State) (w : Nat) : State :=
  if !bitOf w 8 then s
  else
    let r := s.restore (bits w 3 0) (bits w 7 4)
    { s with core := r.2.wf Regs.PWR_SAVE_CMD_STATUS_RESULT 0 r.1 }

/-- SAVE_RESTORE (R611). -/
def execSaveRestore (w : Word) (s : State) : Host.Outcome State Fault Refusal := .next (s.saveCmd w.toNat)

end Sys2Proof.Machine
end

