-- ==== Sys2Proof/Machine/Access.lean ====
section
/-! DEFINITION. Access.lean: what a function sees through BAR0 and what a read of a register returns and clears (R11-R14, R551, R552,
R673, R674, R677, R678). A register whose value another field of the state holds is computed here. -/

namespace Sys2Proof.Machine

/-! ### Views (R552, R677, R678, and the opening sentence of each register table) -/

/-- Who reaches a register: every function, PF0 alone, or PF0 and the function of one partition. -/
inductive Reach where
  | all
  | pf
  | part (p : Nat)
  deriving DecidableEq, Repr

/-- The partition whose registers start at `lo` with a stride, for offsets from `lo` on. -/
def byPart (lo stride off : Nat) : Reach := if off < lo then .pf else .part ((off - lo) / stride)

/-- A physical tile's block is in the view of the partition whose mapped logical tile it serves (R677); BANK_CFG and BANK_SWAP_REQ are
PF0's. DEDUCED (assumption 77). -/
def Core.tileReach (c : Core) (off : Nat) : Reach :=
  let t := (off - 0x200000) / 0x1000
  let o := (off - 0x200000) % 0x1000
  match c.logical t, c.partOfGroup (groupOfPhys t) with
  | some _, some p => if o = 0x728 ∨ o = 0x730 then .pf else .part p
  | _, _ => .pf

/-- The engine of a tile group is in the view of the group's partition (R22, R26, R326). DEDUCED (assumption 77). -/
def Core.engineReach (c : Core) (off : Nat) : Reach :=
  match c.partOfGroup ((off - 0x900000) / 0x1000) with
  | some p => .part p
  | none => .pf

/-- Who reaches a BAR0 offset. -/
def Core.reach (c : Core) (off : Nat) : Reach :=
  if off < 0x18 then .all
  else if off < 0x10000 then .pf
  else if off < 0x20000 then byPart 0x11080 0x80 off
  else if off < 0x40000 then byPart 0x21000 0x100 off
  else if off < 0x60000 then
    (if 0x40200 ≤ off ∧ off < 0x40300 then .part ((off - 0x40200) / 8 % 16) else .pf)
  else if off < 0x80000 then byPart 0x61000 0x100 off
  else if off < 0xA0000 then byPart 0x81000 0x100 off
  else if off < 0x100000 then byPart 0xB0000 0x4000 off
  else if off < 0x200000 then
    (if (off % 0x1000) = 0x8 ∨ (off % 0x1000) = 0x10 then .pf else .part ((off - 0x100000) / 0x1000))
  else if off < 0x400000 then c.tileReach off
  else if off < 0x500000 then .pf
  else if off < 0x600000 then (if 0x501000 ≤ off ∧ off % 0x100 = 0x10 then .pf else byPart 0x501000 0x100 off)
  else if off < 0x700000 then .pf
  else if off < 0x800000 then byPart 0x701000 0x200 off
  else if off < 0x900000 then byPart 0x801000 0x400 off
  else c.engineReach off

/-- Whether the register exists now: interface 1 of a port only in split mode (R429), UPD registers of a partition only at its lead engine
(R326). DEDUCED (assumption 77). -/
def Core.present (c : Core) (off : Nat) : Bool :=
  if 0x600000 ≤ off ∧ off < 0x700000 then
    (off % 0x10000 / 0x8000 == 0 || decide (0xC000 ≤ off % 0x10000) || c.flag Regs.FAB_PORT_CTRL_SPLIT (2 * ((off - 0x600000) / 0x10000)))
  else if 0x900000 ≤ off ∧ 0x100 ≤ off % 0x1000 then
    (match c.partOfGroup ((off - 0x900000) / 0x1000) with
      | some p => c.lead p == (off - 0x900000) / 0x1000
      | none => false)
  else true

/-- Whether function `fn` (0: PF0, p + 1: VF p + 1) sees a BAR0 offset. DEDUCED (assumption 77). -/
def Core.sees (c : Core) (fn off : Nat) : Bool :=
  c.present off && (match c.reach off with
    | .all => true
    | .pf => fn == 0
    | .part p => fn == 0 || fn == p + 1)

/-- Whether the function exists on the bus (R678). -/
def Core.fnOn (c : Core) (fn : Nat) : Bool := fn == 0 || c.vfOn (fn - 1)

/-- In recovery mode the device answers in the DEV, EVT and FW blocks only (R620). -/
def Core.decodes (c : Core) (off : Nat) : Bool :=
  !c.flag Regs.FW_FW_STATUS_RECOVERY || decide (off < 0x20000) || (decide (0x80000 ≤ off) && decide (off < 0xA0000))

/-- The debug block, of which the spec gives the base alone (R552). DEDUCED (assumption 77). -/
def debugBase : Nat := 0xA00000

/-- What an access addresses: a register and the instance; nothing; or an offset that BAR0 or the spec does not give. -/
inductive RegPlace where
  | reg (row : RegRow) (i : Nat)
  | nothing
  | debug
  | outside
  deriving DecidableEq, Repr

/-- What PF0 or a VF addresses at an 8-byte aligned offset. -/
def Core.regPlace (c : Core) (fn off : Nat) : RegPlace :=
  if Config.bar0Bytes ≤ off then .outside
  else if debugBase ≤ off then (if fn = 0 ∧ !c.flag Regs.FW_FW_STATUS_RECOVERY then .debug else .nothing)
  else if !c.decodes off || !c.sees fn off then .nothing
  else match findReg off with
    | some (row, i) => .reg row i
    | none => .nothing

/-! ### Masks -/

/-- The bits of a register whose access type is in a list. -/
def RegRow.mask (row : RegRow) (accs : List Access) : Nat :=
  ((row.fields.filter (fun f => accs.contains f.access)).map (fun f => (2 ^ (f.hi + 1 - f.lo) - 1) * 2 ^ f.lo)).foldl (· ||| ·) 0

/-- The bits that a read returns: WO fields and reserved bits read zero (R9, R11). -/
def RegRow.readable (row : RegRow) : Nat := row.mask [.RO, .RW, .W1C, .RC, .RWL]

/-- Whether an RC field spans both 32-bit words (R674). -/
def RegRow.spans (row : RegRow) : Bool := row.fields.any (fun f => f.access == .RC && decide (f.lo < 32) && decide (32 ≤ f.hi))

/-! ### Registers that other fields of the state hold -/

/-- Word i of a string of bytes. -/
def wordOf (bs : List Byte) (i : Nat) : Nat := leNat ((bs.drop (8 * i)).take 8)

/-- FAULT_N is driven low (R636). -/
def State.faultLow (s : State) : Bool :=
  s.core.lost || s.perm.tamper || s.core.tripped || s.core.inReset || s.core.flag Regs.DEV_STATUS_FATAL || !s.core.flag Regs.DEV_STATUS_READY

/-- The mask of the numbers below n that satisfy a condition. -/
def maskOf (n : Nat) (f : Nat → Bool) : Nat := ((List.range n).map (fun k => if f k then 2 ^ k else 0)).foldl (· + ·) 0

/-- Tile groups with an unmapped logical tile (R651). -/
def Core.degraded (c : Core) : Nat := maskOf 16 (fun g => (upFrom (16 * g) 16).any (fun l => (c.phys l).isNone))

/-- SPARE_DATA of a record (R651). -/
def SpareRec.word (r : SpareRec) : Nat := r.kind + r.unit * 2 ^ 2 + r.sub * 2 ^ 11 + b2n r.cleared * 2 ^ 16 + r.hours % 2 ^ 32 * 2 ^ 32

/-- HELD_INDEX, HELD_DATA and SPARE_DATA at the record that their index names (R582, R651). -/
def State.heldIndex (s : State) : Nat :=
  let k := s.core.rf Regs.DEV_HELD_INDEX_INDEX
  k + ((s.perm.held[k]?).elim 0 (fun r => r.part)) * 2 ^ 32
def State.heldData (s : State) (i : Nat) : Nat :=
  (s.perm.held[s.core.rf Regs.DEV_HELD_INDEX_INDEX]?).elim 0 (fun r => wordOf (r.norm.bytes 0 false) i)
def State.spareData (s : State) : Nat := (s.perm.spares[s.core.rf Regs.DEV_SPARE_INDEX_INDEX]?).elim 0 (fun r => r.word)

/-- SEQ_STATUS of physical tile t (R189). DEDUCED (assumption 79). -/
def Core.seqStatus (c : Core) (t : Nat) : Nat :=
  let x := c.tile t
  let p := (c.partOfGroup (groupOfPhys t)).getD 0
  let ph := if x.run = 1 then (c.part p).phase else 0
  let waits := match x.stall with | some (.tokens _ _ _) => true | some (.flag _ _ _) => true | _ => false
  let arrived := match x.stall with | some (.barrier _) => true | _ => false
  x.run + ph * 2 ^ 2 + b2n waits * 2 ^ 4 + b2n arrived * 2 ^ 5 + b2n (x.run == 1 && c.clamped (quadOfGroup (groupOfPhys t))) * 2 ^ 6

/-- TOKENS of a tile (R189). -/
def Tile.tokens (x : Tile) : Nat :=
  maskOf 16 (fun k => (x.token k).count != 0) + maskOf 16 (fun k => (x.token k).status != 0) * 2 ^ 16

/-- CB_STATUS of a tile (R128). -/
def Tile.cbStatus (x : Tile) : Nat :=
  let has := fun (f : Codebook → Bool) => maskOf 16 (fun k => match x.cb.get (fun _ => none) k with | some b => f b | none => false)
  has (fun _ => true) + has (·.linear) * 2 ^ 16 + has (·.wide) * 2 ^ 32

/-- MAP of a physical tile (R189). -/
def Core.mapWord (c : Core) (t : Nat) : Nat := match c.logical t with | some l => l + 2 ^ 8 | none => 0

/-- MM_STATUS: the matrix operation of the tile that was issued first and has not completed (R263). -/
def Core.mmStatus (c : Core) (t : Nat) : Nat :=
  match c.ops.find? (fun o => c.phys o.ltile == some t && o.note != 0) with
  | some o => 1 + (o.note % 4) * 2 + (o.note / 4 % 2) * 8
  | none => 0

/-- What ENG_STATUS of an update engine shows (R326). DEDUCED (assumption 79). -/
def Core.engStatus (c : Core) (n : Nat) : Nat :=
  match c.partOfGroup n with
  | none => 0
  | some p =>
    let st := (c.part p).step
    let busy := st.items.any (fun i => i.open_ && i.eng == n)
    b2n (c.lead p == n) + (if busy then (if st.decided then 2 else 1) else 0) * 2

/-- COMP of firmware component i (R635). -/
def Perm.compWord (pm : Perm) (i : Nat) : Nat :=
  let b := pm.areaB
  (pm.areaA.comp i).svn % 128 + (b.comp i).svn % 128 * 2 ^ 8 + pm.counter i % 128 * 2 ^ 16 + b2n (bitOf pm.fwChanged i) * 2 ^ 24 +
    b2n (b.valid && decide (pm.counter i ≤ (b.comp i).svn)) * 2 ^ 25

/-- SAVE_STATUS (R614). -/
def Perm.saveStatus (pm : Perm) : Nat :=
  match pm.image with
  | some img => pm.imageState + img.items.length % 2 ^ 16 * 2 ^ 2 + maskOf 16 (fun p => img.parts.any (fun x => x.part == p)) * 2 ^ 18 + pm.saveUs * 2 ^ 48
  | none => pm.imageState + pm.saveUs * 2 ^ 48

/-- Instance i of the registers with a home of their own: the register, and its word. DEDUCED (assumption 45). DEDUCED (assumption 79). -/
def derived : List (Reg × (State → Nat → Nat)) := [
  (Regs.DEV_PART_NO, fun _ i => if i = 0 then 0x3639412D3258544C else 0x432D),
  (Regs.DEV_STATUS, fun s _ => s.core.rd Regs.DEV_STATUS + b2n (!s.perm.held.isEmpty) * 2 + s.perm.lastReset * 16),
  (Regs.DEV_HELD_COUNT, fun s _ => s.perm.held.length),
  (Regs.DEV_HELD_INDEX, fun s _ => s.heldIndex),
  (Regs.DEV_HELD_DATA, fun s i => s.heldData i),
  (Regs.DEV_SPARE_COUNT, fun s _ => min s.perm.spares.length 1024),
  (Regs.DEV_SPARE_DATA, fun s _ => s.spareData),
  (Regs.DEV_FAULT_PIN, fun s _ => b2n s.faultLow),
  (Regs.DEV_DEGRADED, fun s _ => s.core.degraded),
  (Regs.EVT_TICK_COUNT, fun s _ => s.core.tick),
  (Regs.EVT_TS, fun s _ => s.core.ts),
  (Regs.EVT_LOG_DATA, fun s i => wordOf s.core.logBytes i),
  (Regs.CFG_TXN_WRITES, fun s _ => (s.core.txns.get (fun _ => {}) 0).writes.length),
  (Regs.CFG_P_TXN_WRITES, fun s p => (s.core.txns.get (fun _ => {}) (p + 1)).writes.length),
  (Regs.PWR_MARGIN, fun s q => s.perm.margin q + s.perm.vminOf q * 2 ^ 16 + s.perm.floorMv q * 2 ^ 32 + s.core.rf Regs.PWR_MARGIN_DUTY q * 2 ^ 48),
  (Regs.PWR_SAVE_STATUS, fun s _ => s.perm.saveStatus),
  (Regs.PWR_SAVE_COUNT, fun s _ => s.perm.saveCount),
  (Regs.SEC_LC_STATE, fun s _ => s.perm.lc + s.perm.ownSteps * 2 ^ 8),
  (Regs.SEC_TAMPER_STATUS, fun s _ => s.core.rd Regs.SEC_TAMPER_STATUS + b2n s.perm.tamper),
  (Regs.SEC_DEV_NONCE, fun s i => wordOf (s.core.nonce 0) i),
  (Regs.SEC_RELEASE_NONCE, fun s i => wordOf (s.core.nonce (i / 4 + 1)) (i % 4)),
  (Regs.SEC_KEY_STATUS, fun s p =>
    s.core.rd Regs.SEC_KEY_STATUS p + maskOf 16 (fun n => (s.core.slots.get (fun _ => none) (16 * p + n)).isSome) * 2 ^ 32),
  (Regs.FW_FW_STATUS, fun s _ => s.core.rd Regs.FW_FW_STATUS + s.perm.activeArea * 2 ^ 3),
  (Regs.FW_COMP, fun s i => s.perm.compWord (i + 1)),
  (Regs.FW_BUILD, fun s _ => s.perm.areaA.build),
  (Regs.FW_STAGED_BUILD, fun s _ => if s.core.fwStaged then s.perm.areaB.build else 0),
  (Regs.FW_SETTINGS, fun s _ => s.core.rd Regs.FW_SETTINGS + s.perm.settings),
  (Regs.HIF_SQ_STATUS, fun s i =>
    s.core.rd Regs.HIF_SQ_STATUS i + b2n (s.core.flag Regs.HIF_SQ_CFG_ENABLE i && !s.core.flag Regs.HIF_SQ_STATUS_FETCH_ERR i && !s.core.sqOff.contains i)),
  (Regs.HIF_RECORDS, fun s p =>
    s.core.rd Regs.HIF_RECORDS p + s.core.slotsUsed p + (s.core.recs.countP (fun r => r.part == p && r.held)) * 2 ^ 16),
  (Regs.PART_OPEN_ITEMS, fun s p => s.core.items.countP (fun i => i.part == p)),
  (Regs.PART_SCRUB_LEFT, fun s p => (s.core.part p).scrub.length),
  (Regs.TILE_SEQ_STATUS, fun s t => s.core.seqStatus t),
  (Regs.TILE_SEQ_PC, fun s t => (s.core.tile t).pc),
  (Regs.TILE_TOKENS, fun s t => (s.core.tile t).tokens),
  (Regs.TILE_MAP, fun s t => s.core.mapWord t),
  (Regs.TILE_SYNC_FLAG, fun s i =>
    let f := fun (n : Nat) => (s.core.tile (i / 32)).flags.get (fun _ => 0) n
    f (i % 32) + f (i % 32 + 1) * 2 ^ 32),
  (Regs.TILE_CB_STATUS, fun s t => (s.core.tile t).cbStatus),
  (Regs.TILE_MM_STATUS, fun s t => s.core.mmStatus t),
  (Regs.MEM_GRANULE_OWNER, fun s g => s.core.rd Regs.MEM_GRANULE_OWNER g + b2n (decide (s.core.rf Regs.MEM_USABLE_GRANULES ≤ g)) * 2 ^ 14),
  (Regs.SLOW_SLOW_STATUS, fun s _ =>
    maskOf 8 (fun k => s.core.flag Regs.SLOW_SSD_STATUS_ACTIVE k) + maskOf 8 (fun k => s.core.flag Regs.SLOW_SSD_STATUS_FAILED k) * 2 ^ 8),
  (Regs.SLOW_DIR_DATA, fun s p =>
    let k := s.core.rf Regs.SLOW_DIR_INDEX_INDEX p
    if k < s.core.rf Regs.SLOW_DIR_RANGE_COUNT p then (s.core.dir.get dirDefault (s.core.rf Regs.SLOW_DIR_RANGE_FIRST p + k)).toNat else 0),
  (Regs.RMA_RMA_STATUS, fun s _ => s.core.qps.countP (·.cached) + (s.core.qps.countP (fun q => q.cached && q.pinned)) * 2 ^ 16),
  (Regs.RMA_GRANT_CFG, fun s _ =>
    let v := s.core.rf Regs.RMA_GRANT_CFG_VC_SEL
    s.core.grantCells.get (fun _ => 0x800) v + v * 2 ^ 16),
  (Regs.COL_HERD_STATUS, fun s _ => s.core.rd Regs.COL_HERD_STATUS + b2n (s.core.flag Regs.COL_HERD_CFG_VALID)),
  (Regs.UPD_ENG_STATUS, fun s n => s.core.engStatus n)]

/-- The word that instance i of a register shows. -/
def State.shown (s : State) (row : RegRow) (i : Nat) : Nat :=
  let v := match derived.find? (fun d => d.1.base == row.reg.base) with
    | some d => d.2 s i
    | none => s.core.rd row.reg i
  v &&& (if row.reg.size = 4 then 2 ^ 64 - 1 else row.readable)

/-! ### Reads -/

/-- The RC fields that a read of the words `lo` (0 or 1) to `hi` covers take `inc`, the increment of the read's own tick (R13). -/
def Core.clearRc (c : Core) (row : RegRow) (i lo hi inc : Nat) : Core :=
  threadAll (fun c (f : Fld) => c.wf f i (min inc f.top)) c
    (row.fields.filter (fun f => f.access == .RC && decide (32 * lo ≤ f.lo) && decide (f.hi < 32 * (hi + 1))))

/-- What a read of a register does beside returning its value: LOG_DATA (R75), TX_TS_TAG (R425) and RC fields (R11). -/
def State.readEffect (s : State) (row : RegRow) (i lo hi inc : Nat) : State :=
  if row.reg.base = Regs.EVT_LOG_DATA.base then
    (if i ≠ 3 then s
     else
      let k := s.core.rf Regs.EVT_LOG_INDEX_INDEX
      let x := s.core.log.get logDefault k
      if x.valid then { s with core := { s.core with log := s.core.log.put logDefault k { x with read := true } } } else s)
  else { s with core := s.core.clearRc row i lo hi inc }

/-- LANE_MON of a lane: dark paths read as the spec says, lit ones are measured values (R429). DESIGN CHOICE (assumption 36). -/
def Core.laneMon (c : Core) (i : Nat) : Nat × Core :=
  let lit := fun (f : Fld) => bitOf (c.rf f (i / 9)) (i % 9)
  let (w, c) := c.fresh
  let tx := if lit Regs.FAB_OE_STATUS_TX_OK then bits w.toNat 15 0 else 0x8000
  let rx := if lit Regs.FAB_OE_STATUS_RX_OK then bits w.toNat 31 16 else 0x8000
  let bias := if lit Regs.FAB_OE_STATUS_TX_OK then bits w.toNat 47 32 else 0
  (tx + rx * 2 ^ 16 + bias * 2 ^ 32, c)

/-- TX_TS_TAG: the oldest stamp leaves the queue and is shown (R425). -/
def Core.tsTag (c : Core) (u : Nat) : Nat × Core :=
  let q := c.txStamps.get (fun _ => []) u
  let e := (q.head?).getD (0, 0)
  let v := e.1 + b2n (!q.isEmpty) * 2 ^ 16 + c.rf Regs.FAB_TX_TS_TAG_LOST u * 2 ^ 17
  let c := if q.isEmpty then c else c.wr Regs.FAB_TX_TS_TIME u e.2
  (v, { c.wr Regs.FAB_TX_TS_TAG u (e.1 + b2n (!q.isEmpty) * 2 ^ 16) with txStamps := c.txStamps.put (fun _ => []) u (q.drop 1) })

/-- The value of a register for a read, where the read itself draws it. -/
def State.drawn (s : State) (row : RegRow) (i : Nat) : Nat × State :=
  if row.reg.base = Regs.FAB_LANE_MON.base then (let (v, c) := s.core.laneMon i; (v, { s with core := c }))
  else if row.reg.base = Regs.FAB_TX_TS_TAG.base then (let (v, c) := s.core.tsTag i; (v, { s with core := c }))
  else (s.shown row i, s)

/-- The answer to a read. -/
def State.answer (s : State) (r : Resp) : State := { s with core := { s.core with resp := r } }

/-- The hold of a function (R674). -/
def Core.holdOf (c : Core) (fn : Nat) : Nat := (c.hold.get (fun _ => 0) fn).toNat

/-- Read a register by 8 bytes, or by the lower or the upper 4. `inc` is what hardware adds to its RC field at the same tick.
DEDUCED (assumption 74). -/
def State.readReg (s : State) (fn : Nat) (row : RegRow) (i n upper inc : Nat) : State :=
  if n = 4 ∧ upper = 1 ∧ row.spans then s.answer (.data (BitVec.ofNat 64 (s.core.holdOf fn)))
  else
    let (v, s) := s.drawn row i
    if n = 8 then (s.readEffect row i 0 1 inc).answer (.data (BitVec.ofNat 64 v))
    else if upper = 1 then (s.readEffect row i 1 1 inc).answer (.data (BitVec.ofNat 64 (bits v 63 32)))
    else if row.spans then
      let s := s.readEffect row i 0 1 inc
      let s := { s with core := { s.core with hold := s.core.hold.put (fun _ => 0) fn (BitVec.ofNat 64 (bits v 63 32)) } }
      s.answer (.data (BitVec.ofNat 64 (bits v 31 0)))
    else (s.readEffect row i 0 0 inc).answer (.data (BitVec.ofNat 64 (bits v 31 0)))

/-- Whether the device answers register accesses at all: not in reset, nor after a supply loss (R605, R579). DEDUCED (assumption 60). -/
def Core.answers (c : Core) : Bool := !c.lost && !c.inReset

/-- Whether an access has 4 or 8 bytes and its natural alignment (R552). -/
def aligned (off n : Nat) : Bool := (n == 4 || n == 8) && off % n == 0

/-- A read of n bytes at a BAR0 offset by a function (R552, R678). -/
def State.read (s : State) (fn off n inc : Nat) : Host.Outcome State Fault Refusal :=
  if !s.core.answers then .next s
  else if !s.core.fnOn fn then .next (s.answer .unsupported)
  else if !aligned off n then .next (s.answer (.data 0))
  else match s.core.regPlace fn (off / 8 * 8) with
    | .outside => .fault .outsideBar0
    | .debug => .refused .debugBlock
    | .nothing => .next (s.answer (.data 0))
    | .reg row i => .next (s.readReg fn row i n (off % 8 / 4) inc)

/-- RC_READ: a BAR0 read of n bytes; an RC field is returned and cleared as one action, and keeps what hardware adds to it at the same
tick (R11, R13, R673). -/
def execRcRead (fn : FnId) (off : BitVec 32) (n : Fin 17) (inc : Word) (s : State) : Host.Outcome State Fault Refusal :=
  s.read fn.val off.toNat n.val inc.toNat

/-- RC_LOWER_WORD_READ: a 4-byte BAR0 read of a lower word (R674). -/
def execRcLowerWordRead (fn : FnId) (off : BitVec 32) (inc : Word) (s : State) : Host.Outcome State Fault Refusal :=
  s.read fn.val (off.toNat / 8 * 8) 4 inc.toNat

end Sys2Proof.Machine
end

