-- ==== Sys2Proof/Machine/Device.lean ====
section
/-! DEFINITION. Device.lean: commands of the DEV block that are not resets: sparing records, the load of training state and the GPIO pins
(R643, R649, R665). -/

namespace Sys2Proof.Machine

/-- A write of SPARE_CLEAR: the clear of a record, or of all, waits for the next cold reset (R643). -/
def State.spareClear (s : State) (w : Nat) : State :=
  if !bitOf w 11 then s
  else
    let mark := fun (e : SpareRec × Nat) => if bitOf w 10 ∨ e.2 = bits w 9 0 then { e.1 with cleared := true } else e.1
    { s with perm := { s.perm with spares := s.perm.spares.zipIdx.map mark } }

/-- SPARE_CLEAR (R643). -/
def execSpareClear (w : Word) (s : State) : Host.Outcome State Fault Refusal := .next (s.spareClear w.toNat)

/-- Load a header into a partition's training state (R649): the lead engine's registers and the record of slot `l`.
DEDUCED (assumption 79). -/
def Core.loadHeader (c : Core) (p l : Nat) (h : List Byte) : Core :=
  let e := c.lead p
  let f := fun (o n : Nat) => leNat ((h.drop o).take n)
  let c := (c.wr Regs.UPD_STEP e (f 8 8)).wr Regs.UPD_SCHED_N e (f 52 8)
  let c := c.wr Regs.UPD_LS_STATE e (f 16 1 + b2n (bitOf (f 3 1) 2) * 2 ^ 8 + f 18 2 % 512 * 2 ^ 16 + f 20 4 * 2 ^ 32)
  let c := c.wr Regs.UPD_LS_HIST e (f 24 8)
  let c := ((c.putLayer p l 1 1 (f 17 1)).putLayer p l 60 2 (roundNum .fp16 .nearest (.ofQ (Q.pow2 (f 17 1 % 32))))).putLayer p l 44 4 (f 44 4)
  ((c.putLayer p l 56 4 (f 32 4)).putLayer p l 36 4 (f 36 4)).putLayer p l 40 4 (f 40 4)

/-- TSTATE_CMD on partition p: its result and the device after it (R649). DEDUCED (assumption 78). DEDUCED (assumption 79). -/
def Core.tstate (c : Core) (p : Nat) : Nat × Core :=
  let off := c.rf Regs.DEV_TSTATE_ARG_OFFSET
  if c.pstate p != pACTIVE || (c.part p).prog.isSome || (c.part p).step.items.any (·.open_) then (St.PROTECTION, c)
  else if off % 64 ≠ 0 then (St.LENGTH, c)
  else if !c.viewOk p off 64 then (St.BOUNDS, c)
  else
    let h := c.readView p off 64
    let f := fun (o n : Nat) => leNat ((h.drop o).take n)
    if f 0 2 ≠ 1 ∨ f 3 1 / 8 ≠ 0 ∨ f 60 4 ≠ 0 ∨ 1023 < f 48 4 then (St.LENGTH, c)
    else if !c.viewOk p (c.layerAt p (f 48 4)) 64 then (St.BOUNDS, c)
    else (0, (c.loadHeader p (f 48 4) h).evt Cls.info (Src.updEngine (c.lead p)) p 0x1003 (f 48 4) (f 8 8))

/-- A write of TSTATE_CMD. -/
def Core.tstateWrite (c : Core) (w : Nat) : Core :=
  if !bitOf w 4 then c
  else
    let r := c.tstate (bits w 3 0)
    r.2.wf Regs.DEV_TSTATE_STATUS_RESULT 0 r.1

/-- TSTATE_CMD (R649). -/
def execTstateCmd (w : Word) (s : State) : Host.Outcome State Fault Refusal := s.on (fun c => c.tstateWrite w.toNat)

/-- GPIO_EDGE: the levels at the pins, sampled at a tick; an output pin carries what the device drives (R665, R666). -/
def execGpioEdge (levels : BitVec 8) (s : State) : Host.Outcome State Fault Refusal :=
  s.on (fun c =>
    let oe := c.rf Regs.DEV_GPIO_CFG_OE
    let old := c.rf Regs.DEV_GPIO_IN_LEVEL
    let ins := 0xFF - oe
    let now := (levels.toNat &&& ins) ||| (c.rf Regs.DEV_GPIO_CFG_OUT &&& oe)
    let c := c.wf Regs.DEV_GPIO_EDGE_RISE 0 (c.rf Regs.DEV_GPIO_EDGE_RISE ||| (now &&& (0xFF - old) &&& ins))
    let c := c.wf Regs.DEV_GPIO_EDGE_FALL 0 (c.rf Regs.DEV_GPIO_EDGE_FALL ||| (old &&& (0xFF - now) &&& ins))
    c.wf Regs.DEV_GPIO_IN_LEVEL 0 now)

end Sys2Proof.Machine
end

