-- ==== Sys2Proof/Machine/Time.lean ====
section
/-! DEFINITION. Time.lean: region skew (R46-R52) and the timestamp (R62-R66). -/

namespace Sys2Proof.Machine

/-! ### Region skew -/

def QuadSample.mv (x : QuadSample) (q : Nat) : Int := (((x.v.toList)[q]?).getD 0).toNat
def QuadSample.tj (x : QuadSample) (q : Nat) : Int := (((x.t.toList)[q]?).getD 0).toInt

/-- The differences of a pair: mV and 0.1 °C. -/
def QuadSample.dv (x : QuadSample) (a b : Nat) : Nat := (QuadSample.mv x a - QuadSample.mv x b).natAbs
def QuadSample.dt (x : QuadSample) (a b : Nat) : Nat := (QuadSample.tj x a - QuadSample.tj x b).natAbs

/-- The score of R49 times 120,000: |V − mean| / 150 mV + |T − mean| / 20 °C. -/
def QuadSample.score (x : QuadSample) (q : Nat) : Nat :=
  let sv := QuadSample.mv x 0 + QuadSample.mv x 1 + QuadSample.mv x 2 + QuadSample.mv x 3
  let st := QuadSample.tj x 0 + QuadSample.tj x 1 + QuadSample.tj x 2 + QuadSample.tj x 3
  (4 * QuadSample.mv x q - sv).natAbs * 200 + (4 * QuadSample.tj x q - st).natAbs * 150

/-- The quadrant that is never clamped: the lowest score, then the lowest index (R49). -/
def QuadSample.free (x : QuadSample) : Nat :=
  [1, 2, 3].foldl (fun b q => if QuadSample.score x q < QuadSample.score x b then q else b) 0

/-- The member of a pair that is clamped (R49). -/
def QuadSample.worse (x : QuadSample) (a b : Nat) : Nat := if QuadSample.score x a > QuadSample.score x b then a else b

/-- The pairs of quadrants. -/
def quadPairs : List (Nat × Nat) := [(0, 1), (0, 2), (0, 3), (1, 2), (1, 3), (2, 3)]

/-- Whether a pair exceeds a limit (R47). -/
def QuadSample.beyond (x : QuadSample) (a b : Nat) : Bool := decide (150 < QuadSample.dv x a b) || decide (200 < QuadSample.dt x a b)

/-- Clamp a quadrant for a violating pair (R51, R68). -/
def Core.clampQuad (c : Core) (x : QuadSample) (q other : Nat) : Core :=
  if c.clamped q then c
  else
    let info := q + other * 4 + b2n (decide (150 < QuadSample.dv x q other)) * 16 + b2n (decide (200 < QuadSample.dt x q other)) * 32 +
      QuadSample.dv x q other % 2 ^ 16 * 2 ^ 16 + QuadSample.dt x q other % 2 ^ 16 * 2 ^ 32
    let c : Core := { c with clamps := c.clamps ++ [(q, c.tick, info, false)] }
    let c := c.wf Regs.EVT_SKEW_STATUS_CLAMPED 0 (c.rf Regs.EVT_SKEW_STATUS_CLAMPED ||| 2 ^ q)
    (c.count Regs.EVT_SKEW_CLAMPS_COUNT q).evt Cls.info (Src.region q) devPart 0x0100 info

/-- REGION_SKEW_CLAMP: the samples of a tick; every pair beyond a limit has its member with the higher score clamped (R49-R51). -/
def execRegionSkewClamp (x : QuadSample) (s : State) : Host.Outcome State Fault Refusal :=
  s.on (fun c =>
    let one := fun (c : Core) (e : Nat × Nat) =>
      if !QuadSample.beyond x e.1 e.2 then c
      else
        let w := QuadSample.worse x e.1 e.2
        if w = QuadSample.free x then c else c.clampQuad x w (if w = e.1 then e.2 else e.1)
    threadAll one c quadPairs)

/-- REGION_SKEW_RELEASE: every pair of a clamped quadrant has been within the limits for 25 consecutive ticks (R51); barriers held by
the clamp go on. -/
def execRegionSkewRelease (q : Fin 4) (s : State) : Host.Outcome State Fault Refusal :=
  s.on (fun c => match c.clamps.find? (fun e => e.1 == q.val) with
    | none => c
    | some e =>
      let c : Core := { c with clamps := c.clamps.filter (fun e => e.1 != q.val) }
      let c := c.wf Regs.EVT_SKEW_STATUS_CLAMPED 0 (setBits (c.rf Regs.EVT_SKEW_STATUS_CLAMPED) q.val q.val 0)
      let c := c.evt Cls.info (Src.region q.val) devPart 0x0101 (q.val + satAt 32 (c.tick - e.2.1) * 2 ^ 32)
      threadAll (fun c p => c.tryBarrier p false) c (List.range 16))

/-- REGION_SKEW_PERSIST: a clamp has lasted 10 ms (R52). -/
def execRegionSkewPersist (q : Fin 4) (s : State) : Host.Outcome State Fault Refusal :=
  s.on (fun c => match c.clamps.find? (fun e => e.1 == q.val && !e.2.2.2) with
    | none => c
    | some e =>
      let mark := fun (x : Nat × Nat × Nat × Bool) => if x.1 = q.val then (x.1, x.2.1, x.2.2.1, true) else x
      ({ c with clamps := c.clamps.map mark } : Core).evt Cls.info (Src.region q.val) devPart 0x0102 e.2.2.1)

/-! ### The timestamp -/

/-- TS_SERVO_MEASURE: the servo measures an offset, source minus device (R62-R64). DEDUCED (assumption 40). -/
def execTsServoMeasure (offset : Word) (s : State) : Host.Outcome State Fault Refusal :=
  s.on (fun c =>
    if c.rf Regs.EVT_TS_CTRL_SRC = 0 ∨ !c.flag Regs.EVT_TS_CTRL_SLEW_EN then c
    else
      let o := offset.toInt
      let c := c.wr Regs.EVT_TS_OFFSET 0 offset.toNat
      let c := c.wf Regs.EVT_TS_STATUS_LOCKED 0 (b2n (decide (o.natAbs ≤ 1000)))
      if 100000 < o then
        ({ c with ts := (c.ts + o.toNat) % 2 ^ 64, slew := 0 } : Core).evt Cls.info Src.timebase devPart 0x0104 o.toNat 0
      else { c with slew := o })

/-- A write of TS_STEP (R76). -/
def Core.tsStepWrite (c : Core) (w : Nat) : Core :=
  if 2 ^ 40 ≤ w then c.wf Regs.EVT_TS_STATUS_STEP_ERR 0 1 else if w = 0 then c else { c with tsSteps := c.tsSteps ++ [w] }

/-- TS_STEP: PF0 writes TS_STEP; the next tick adds the value (R76). -/
def execTsStep (w : Word) (s : State) : Host.Outcome State Fault Refusal := s.on (fun c => c.tsStepWrite w.toNat)

/-- TS_SOURCE_LOST: the discipline source has sent no usable time for 4 s (R65). -/
def execTsSourceLost (s : State) : Host.Outcome State Fault Refusal :=
  s.on (fun c =>
    if c.rf Regs.EVT_TS_CTRL_SRC = 0 then c
    else ((({ c with slew := 0 } : Core).wf Regs.EVT_TS_STATUS_LOCKED 0 0)).evt Cls.info Src.timebase devPart 0x0103 (c.rf Regs.EVT_TS_CTRL_SRC))

/-- The timestamp moves by one tick: 40 ns, or 39 or 41 while the servo slews, at most once in 64 ticks (R62), and takes the values
written to TS_STEP. DEDUCED (assumption 40). -/
def Core.advanceTime (c : Core) : Core :=
  let slews := c.slew != 0 && c.flag Regs.EVT_TS_CTRL_SLEW_EN && !c.flag Regs.EVT_TS_STATUS_REF_NOW_ABSENT && decide (c.slewTick + 64 ≤ c.tick)
  let inc := if slews then (if 0 < c.slew then 41 else 39) else 40
  let left := if slews then (if 0 < c.slew then c.slew - 1 else c.slew + 1) else c.slew
  let step := c.tsSteps.foldl (· + ·) 0
  let posts := c.tsSteps
  let c : Core := { c with
    tick := c.tick + 1
    ts := (c.ts + inc + step) % 2 ^ 64
    slew := left
    slewTick := if slews then c.tick else c.slewTick
    tsSteps := [] }
  threadAll (fun c v => c.evt Cls.info Src.timebase devPart 0x0104 v 1) c posts

end Sys2Proof.Machine
end

