-- ==== Sys2Proof/Machine/Writes.lean ====
section
/-! DEFINITION. Writes.lean: what a write of a register does (R9-R12, R552, R673), the configuration transactions that collect writes
(R572-R576, R583), the instructions that drive them (R231, R232), and the commits that create, reset and remove partitions. -/

namespace Sys2Proof.Machine

/-! ### The plain write -/

/-- The bits of a register that a write can change or act on. -/
def RegRow.writable (row : RegRow) : Nat := row.mask [.RW, .RWL, .W1C, .WO]

/-- The word that a write of the bits `mask` amounts to: fields outside the mask keep what they hold and act on nothing.
DEDUCED (assumption 74). -/
def RegRow.merge (row : RegRow) (cur w mask : Nat) : Nat :=
  (w &&& mask) ||| ((cur &&& row.mask [.RW, .RWL]) - (cur &&& row.mask [.RW, .RWL] &&& mask))

/-- A word written under the access types of R11; a locked RW-L field keeps its value. -/
def RegRow.stored (row : RegRow) (old v : Nat) (locked : Bool) : Nat :=
  let rw := row.mask (if locked then [.RW] else [.RW, .RWL])
  let w1c := v &&& row.mask [.W1C]
  let x := (old - (old &&& rw)) ||| (v &&& rw)
  x - (x &&& w1c)

/-- Store a word in instance i of a register. -/
def Core.storeReg (c : Core) (row : RegRow) (i v : Nat) : Core := c.wr row.reg i (row.stored (c.rd row.reg i) v false)

/-! ### The rule of each register -/

/-- Why a register's rule refuses a write: the status a commit takes (R574), and the flag that is set. -/
abbrev Verdict := Option (Nat × Option (Fld × Nat))

/-- A refusal that sets a flag; one that sets none. -/
def refuse (st : Nat) (f : Fld) (i : Nat) : Verdict := some (st, some (f, i))
def refuseBare (st : Nat) : Verdict := some (st, none)

/-- Whether a program runs in a partition. -/
def Core.progRuns (c : Core) (p : Nat) : Bool := (c.part p).prog.isSome

/-- A range register of partition p that reaches past its space or meets the range of another partition (R380, R435, R440). -/
def Core.rangeBad (d : Core) (first count : Fld) (p total : Nat) : Bool :=
  let lo := fun (q : Nat) => d.rf first q
  let n := fun (q : Nat) => d.rf count q
  decide (0 < n p) && (decide (total < lo p + n p) ||
    (List.range 16).any (fun q => q != p && decide (0 < n q) && decide (lo p < lo q + n q) && decide (lo q < lo p + n p)))

/-- Whether partition q owns tile group g once the commit is done: `d` holds the committed masks, `creates` the partitions it creates. -/
def Core.ownsAfter (c d : Core) (creates : List Nat) (q g : Nat) : Bool :=
  (c.pstate q != pFREE || creates.contains q) && bitOf (d.rf Regs.PART_TILE_GROUPS_GROUPS q) g

/-- Whether the tile groups of partition p may stand (R29, R513): not none, none of another partition's, each with a mapped tile.
DEDUCED (assumption 78). -/
def Core.groupsStand (c d : Core) (creates : List Nat) (p : Nat) : Bool :=
  let m := d.rf Regs.PART_TILE_GROUPS_GROUPS p
  m != 0 && (bitsIn 16 m).all (fun g =>
    !(List.range 16).any (fun q => q != p && c.ownsAfter d creates q g) && (upFrom (16 * g) 16).any (fun l => (c.phys l).isSome))

/-- PART.CTRL (R513, R546): `sealed_` tells that the life-cycle state is RETIRED or the tamper latch is set. DEDUCED (assumption 60). -/
def Core.judgeCtrl (c d : Core) (sealed_ : Bool) (creates : List Nat) (p cmd : Nat) : Verdict :=
  if cmd = 1 then
    (if !c.groupsStand d creates p then refuseBare St.LENGTH
     else if c.pstate p != pFREE || sealed_ || !c.flag Regs.DEV_STATUS_READY then refuseBare St.PROTECTION
     else none)
  else if cmd = 0 then none
  else if c.pstate p != pACTIVE then refuse St.PROTECTION Regs.PART_STATUS_CFG_ERR p
  else none

/-- PART.TILE_GROUPS (R513, R514). -/
def Core.judgeGroups (c d : Core) (creates : List Nat) (p : Nat) : Verdict :=
  if c.pstate p = pFREE ∨ d.rf Regs.PART_TILE_GROUPS_GROUPS p = c.rf Regs.PART_TILE_GROUPS_GROUPS p then none
  else if c.pstate p ≠ pACTIVE then refuseBare St.PROTECTION
  else if !c.groupsStand d creates p then refuseBare St.LENGTH
  else if c.progRuns p || (c.part p).step.items.any (·.open_) then refuseBare St.PROTECTION
  else none

/-- MEM.GRANULE_OWNER of granule g (R365, R373, R396, R543). DEDUCED (assumption 80). -/
def Core.judgeGranule (c d : Core) (g : Nat) : Verdict :=
  let key := fun (k : Nat) => (d.rf Regs.MEM_GRANULE_OWNER_PART k, d.rf Regs.MEM_GRANULE_OWNER_VIEW k)
  if c.rf Regs.MEM_USABLE_GRANULES ≤ g ∨ c.rf Regs.MEM_GRANULE_OWNER_PART g = 0x1E then refuseBare St.PROTECTION
  else if c.rf Regs.MEM_MIG_STATUS_STEP ≠ 0 then refuseBare St.PROTECTION
  else if (key g).1 < 16 && (List.range 372).any (fun k => k != g && key k == key g) then refuseBare St.LENGTH
  else none

/-- COL.HERD_CFG (R468). DEDUCED (assumption 78). -/
def Core.judgeHerd (c d : Core) : Verdict :=
  let size := d.rf Regs.COL_HERD_CFG_SIZE
  if size < 1 ∨ 16384 < size ∨ size ≤ d.rf Regs.COL_HERD_CFG_DEV_ID ∨ size ≤ d.rf Regs.COL_HERD_CFG_ORDINAL then refuseBare St.LENGTH
  else if d.rd Regs.COL_HERD_CFG != c.rd Regs.COL_HERD_CFG && (List.range 256).any (fun i => c.flag Regs.COL_GRP_INFO_FORMED i) then
    refuseBare St.PROTECTION
  else none

/-- FAB.VC_CFG of VC i % 16 of interface i / 16 (R416). -/
def Core.judgeVc (d : Core) (i : Nat) : Verdict :=
  let sum := ((upFrom (i / 32 * 32) 32).map (fun k => d.rf Regs.FAB_VC_CFG_CELLS k)).foldl (· + ·) 0
  if 8192 < sum ∨ (i % 16 = 15 ∧ d.rf Regs.FAB_VC_CFG_CELLS i ≠ 0) then refuseBare St.LENGTH else none

/-- LS_STATE (R308). -/
def lsBad (v : Nat) : Bool :=
  let e := signed 8 v
  decide (e < -8) || decide (24 < e) || decide (256 < bits v 24 16)

/-- UPD registers of a partition (R308, R313, R326). -/
def Core.judgeUpd (c : Core) (b i v : Nat) : Verdict :=
  let runs := match c.partOfGroup i with | some p => c.progRuns p | none => false
  let e := signed 8 (bits v 23 16)
  let bad :=
    if b = Regs.UPD_LS_STATE.base then runs || lsBad v
    else if b = Regs.UPD_LS_HIST.base ∨ b = Regs.UPD_SCHED_N.base then runs
    else if b = Regs.UPD_SCHED_KIND.base then decide (5 ≤ bits v 2 0)
    else if b = Regs.UPD_LS_CFG.base then decide (e < -8) || decide (24 < e)
    else false
  if bad then refuse St.PROTECTION Regs.UPD_STEP_STATUS_CFG_ERR i else none

/-- PWR registers (R591, R595, R597, R602, R614). DEDUCED (assumption 78). -/
def Core.judgePwr (c : Core) (b v : Nat) : Verdict :=
  let bad :=
    if b = Regs.PWR_VTARGET.base then decide (bits v 9 0 < 600) || decide (900 < bits v 9 0)
    else if b = Regs.PWR_RAIL_LIMIT.base then decide (bits v 8 0 < 100) || decide (260 < bits v 8 0)
    else if b = Regs.PWR_THERM_CFG.base then decide (95 < bits v 7 0)
    else if b = Regs.PWR_HERD_PWR.base then bitOf v 0 && c.rf Regs.EVT_TS_CTRL_SRC != 2
    else if b = Regs.PWR_HERD_ORG.base then decide (bits v 30 24 < 2) || decide (64 < bits v 30 24)
    else if b = Regs.PWR_CAP_RANGE.base then decide (bits v 9 0 < 250)
    else false
  if bad then refuse St.PROTECTION Regs.PWR_PWR_STATUS_CFG_ERR 0 else none

/-- SLOW registers of a partition that are written only while no program runs in it (R397). -/
def slowRegs : List Reg :=
  [Regs.SLOW_TABLE_BASE, Regs.SLOW_TABLE_COUNT, Regs.SLOW_DIR_RANGE, Regs.SLOW_PEND_BASE, Regs.SLOW_PEND_ROWS, Regs.SLOW_STAGE_BASE,
   Regs.SLOW_STAGE_BLOCKS, Regs.SLOW_DEADLINE, Regs.SLOW_FAIL_BASE, Regs.SLOW_FAIL_SIZE, Regs.SLOW_REMOTE_QP, Regs.SLOW_DIR_INDEX]

/-- RMA registers of a partition that are written only while it has no READY queue pair (R467); the first three are its ranges. -/
def rmaRegs : List Reg :=
  [Regs.RMA_QP_RANGE, Regs.RMA_KEY_RANGE, Regs.RMA_PD_RANGE, Regs.RMA_CTX_BASE, Regs.RMA_REGION_BASE, Regs.RMA_RETRY_CFG]

/-- COL registers of a partition that are written only while no program runs in it (R510). -/
def colRegs : List Reg :=
  [Regs.COL_COLL_CFG, Regs.COL_COLL_STAGE_BASE, Regs.COL_COLL_STAGE_BYTES, Regs.COL_CKPT_QP, Regs.COL_BUDDY_BASE, Regs.COL_BUDDY_SLOT,
   Regs.COL_BUDDY_SRC]

/-- Whether a list of registers holds the one with a base. -/
def hasBase (rs : List Reg) (b : Nat) : Bool := rs.any (fun r => r.base == b)

/-- SLOW registers of partition p. -/
def Core.judgeSlow (c d : Core) (b p v : Nat) : Verdict :=
  if c.progRuns p then refuse St.PROTECTION Regs.SLOW_SLOW_PSTATUS_CFG_ERR p
  else if b = Regs.SLOW_DIR_RANGE.base && d.rangeBad Regs.SLOW_DIR_RANGE_FIRST Regs.SLOW_DIR_RANGE_COUNT p 524288 then refuseBare St.LENGTH
  else if b = Regs.SLOW_DIR_INDEX.base && decide (d.rf Regs.SLOW_DIR_RANGE_COUNT p ≤ bits v 18 0) then
    refuse St.PROTECTION Regs.SLOW_SLOW_PSTATUS_CFG_ERR p
  else none

/-- RMA registers of partition p. -/
def Core.judgeRma (c d : Core) (b p : Nat) : Verdict :=
  if c.qps.any (fun q => q.part == p && q.state == qREADY) then refuse St.PROTECTION Regs.RMA_RMA_PSTATUS_CFG_ERR p
  else if (b = Regs.RMA_QP_RANGE.base && d.rangeBad Regs.RMA_QP_RANGE_FIRST Regs.RMA_QP_RANGE_COUNT p 65536) ||
      (b = Regs.RMA_KEY_RANGE.base && d.rangeBad Regs.RMA_KEY_RANGE_FIRST Regs.RMA_KEY_RANGE_COUNT p 262144) ||
      (b = Regs.RMA_PD_RANGE.base && d.rangeBad Regs.RMA_PD_RANGE_FIRST Regs.RMA_PD_RANGE_COUNT p 4096) then refuseBare St.LENGTH
  else none

/-- The rule of a register for the word `v` written to its instance i: `c` is the device now, `d` the device with every write of the
commit stored, `creates` the partitions that the commit creates. DEDUCED (assumption 76). DEDUCED (assumption 78). -/
def Core.judge (c d : Core) (sealed_ : Bool) (creates : List Nat) (row : RegRow) (i v : Nat) : Verdict :=
  let b := row.reg.base
  if b = Regs.PART_CTRL.base then c.judgeCtrl d sealed_ creates i (bits v 1 0)
  else if b = Regs.PART_TILE_GROUPS.base then c.judgeGroups d creates i
  else if b = Regs.MEM_GRANULE_OWNER.base then c.judgeGranule d i
  else if b = Regs.COL_HERD_CFG.base then c.judgeHerd d
  else if b = Regs.FAB_VC_CFG.base then d.judgeVc i
  else if b = Regs.FAB_PTP_CFG.base then
    (if bits v 9 8 = 3 then refuse St.PROTECTION Regs.FAB_PORT_STATUS_CFG_ERR i else none)
  else if hasBase slowRegs b then c.judgeSlow d b i v
  else if hasBase rmaRegs b then c.judgeRma d b i
  else if hasBase colRegs b then
    (if c.progRuns i then refuse St.PROTECTION Regs.COL_COLL_STATUS_CFG_ERR i else none)
  else if b = Regs.TILE_STASH_SPILL_BASE.base ∨ b = Regs.TILE_STASH_SPILL_PAGES.base then
    (if (c.tile i).run = 1 then refuse St.PROTECTION Regs.TILE_STASH_STATUS_SPILL_CFG_ERR i else none)
  else if 0x900100 ≤ b ∧ b < 0x901000 then c.judgeUpd b i v
  else if 0x40000 ≤ b ∧ b < 0x60000 then c.judgePwr b v
  else if b = Regs.EVT_TS_CTRL.base then (if bits v 1 0 = 3 then refuseBare St.PROTECTION else none)
  else if b = Regs.RMA_GRANT_CFG.base then (if bits v 19 16 = 0 ∨ bits v 19 16 = 15 then refuseBare St.PROTECTION else none)
  else none

/-! ### What a write that its rule accepts does -/

/-- A partition takes OWNER_LOCK or MOTION: an activation that waits is abandoned (R631). DEDUCED (assumption 81). -/
def Core.locks (c : Core) (set : Bool) : Core := if set then c.fwAbandon 2 else c

/-- KEYID_MAP: a new assignment clears REVOKED (R545). -/
def Core.keyAssign (c : Core) (row : RegRow) (i v : Nat) : Core :=
  let old := c.rf Regs.SEC_KEYID_MAP_PART i
  let c := c.storeReg row i v
  if bits v 4 0 ≠ old ∧ bits v 4 0 < 16 then c.wf Regs.SEC_KEYID_MAP_REVOKED i 0 else c

/-- HERD_PWR: at enable CAP_EFF is CAP (R600). -/
def Core.herdPwr (c : Core) (row : RegRow) (v : Nat) : Core :=
  let was := c.flag Regs.PWR_HERD_PWR_EN
  let c := c.storeReg row 0 v
  if bitOf v 0 && !was then c.wr Regs.PWR_CAP_EFF 0 (c.rf Regs.PWR_CAP_WATTS) else c

/-- RAW_RX_SIZE and RAW_TX_SIZE of interface u: other slot counts leave the ring stopped (R429). DEDUCED (assumption 37). -/
def Core.rawSize (c : Core) (row : RegRow) (u v : Nat) : Core :=
  if rawSlots (bits v 12 0) then
    (let c := c.storeReg row u v; if row.reg.base = Regs.FAB_RAW_TX_SIZE.base ∧ bitOf v 16 then c.rawSend u false 4096 else c)
  else (c.wr row.reg u (bits v 12 0)).wf Regs.FAB_RAW_STATUS_CFG_ERR u 1

/-- GRANT_CFG: GRANT_CELLS of the VC that VC_SEL names (R458, R467). -/
def Core.grantCfg (c : Core) (v : Nat) : Core :=
  let vc := bits v 19 16
  ({ c with grantCells := c.grantCells.put (fun _ => 0x800) vc (bits v 13 0) } : Core).wf Regs.RMA_GRANT_CFG_VC_SEL 0 vc

/-- QP_CMD of partition p (R437, R438, R467). -/
def Core.qpCmd (c : Core) (p v : Nat) : Core :=
  if !bitOf v 18 then c
  else if bits v 17 16 = 1 then c.qpCreate p (bits v 15 0)
  else if bits v 17 16 = 2 then c.qpDestroy p (bits v 15 0)
  else c.wf Regs.RMA_RMA_PSTATUS_CFG_ERR p 1

/-- GRANULE_OWNER: requests of failed channels are retried (R369). DEDUCED (assumption 80). -/
def Core.granuleWrite (c : Core) (row : RegRow) (g v : Nat) : Core :=
  threadAll (fun c h => c.askRetire h 1) (c.storeReg row g v) c.failedCh

/-- PART.CTRL (R512, R540, R578). -/
def Core.partCtrl (c : Core) (p cmd : Nat) : Core :=
  if cmd = 1 then c.create p else if cmd = 2 then c.remove p true else if cmd = 3 then c.partReset p false else c

/-- PART.TILE_GROUPS (R514). -/
def Core.groupsWrite (c : Core) (row : RegRow) (p v : Nat) : Core :=
  if c.pstate p = pACTIVE ∧ bits v 15 0 ≠ c.rf Regs.PART_TILE_GROUPS_GROUPS p then c.changeGroups p (bits v 15 0) else c.storeReg row p v

/-- What a write of `v` to instance i of a register does on the volatile part of the device. DESIGN CHOICE (assumption 61). -/
def Core.act (c : Core) (row : RegRow) (i v : Nat) : Core :=
  let b := row.reg.base
  if b = Regs.DEV_STATUS.base then
    (let c := c.storeReg row i v; if bitOf v 2 then { c with fatalSeen := false } else c)
  else if b = Regs.DEV_TILE_RESET.base then c.tileResetWrite v
  else if b = Regs.DEV_TSTATE_CMD.base then c.tstateWrite v
  else if b = Regs.EVT_TS_STEP.base then c.tsStepWrite v
  else if b = Regs.EVT_Q_CTRL.base then c.qCtrl i v
  else if b = Regs.EVT_Q_HEAD.base then c.qHead i (bits v 15 0)
  else if b = Regs.PWR_CAP.base then c.capWrite v
  else if b = Regs.PWR_TAG_SLOT.base then c.tagClear i v
  else if b = Regs.PWR_HERD_PWR.base then c.herdPwr row v
  else if b = Regs.SEC_KEYID_MAP.base then c.keyAssign row i v
  else if b = Regs.FW_P_MOTION.base then (c.storeReg row i v).locks (bitOf v 0)
  else if b = Regs.HIF_SQ_CFG.base then c.sqCfgWrite (i / 64) (i % 64) v
  else if b = Regs.HIF_CQ_CFG.base then c.cqCfgWrite (i / 64) (i % 64) v
  else if b = Regs.HIF_P_CANCEL.base then c.cancelWrite i v
  else if b = Regs.PART_CTRL.base then c.partCtrl i (bits v 1 0)
  else if b = Regs.PART_TILE_GROUPS.base then c.groupsWrite row i v
  else if b = Regs.PART_STATUS.base then (c.storeReg row i v).locks (bitOf v 2)
  else if b = Regs.TILE_BANK_OFF.base then c.bankOffWrite i v
  else if b = Regs.TILE_BANK_RETAIN.base then c.bankRetainWrite i v
  else if b = Regs.TILE_BANK_ON.base then c.bankOnWrite i v
  else if b = Regs.TILE_BANK_CFG.base then c.bankCfgWrite i v
  else if b = Regs.TILE_BANK_SWAP_REQ.base then c.bankSwapWrite i v
  else if b = Regs.MEM_RETIRE_REQ.base then c.retireWrite v
  else if b = Regs.MEM_GRANULE_OWNER.base then c.granuleWrite row i v
  else if b = Regs.SLOW_SSD_CTRL.base then c.ssdWrite i v true
  else if b = Regs.SLOW_DIR_DATA.base then c.dirWrite i v
  else if b = Regs.FAB_PORT_CTRL.base then c.portCtrl i v
  else if b = Regs.FAB_VC_CFG.base then c.storeReg row i (if i % 16 = 0 then setBits v 20 16 0x1F else v)
  else if b = Regs.FAB_SNAP.base then c.snap i v
  else if b = Regs.FAB_RAW_RX_SIZE.base ∨ b = Regs.FAB_RAW_TX_SIZE.base then c.rawSize row i v
  else if b = Regs.FAB_RAW_TX_TAIL.base then c.rawTxTail i (bits v 11 0) false
  else if b = Regs.FAB_OE_SPARE_REQ.base then c.oeSpareReq i v
  else if b = Regs.RMA_GRANT_CFG.base then c.grantCfg v
  else if b = Regs.RMA_QP_CMD.base then c.qpCmd i v
  else if b = Regs.RMA_REGION_INVAL.base then (if bitOf v 18 then c.regionInval i (bits v 17 0) else c)
  else if b = Regs.COL_PROBE_CMD.base then c.probeCmd v
  else if b = Regs.COL_GROUP_CMD.base then (if bitOf v 6 then c.groupCmd i (bits v 3 0) (bits v 5 4) else c)
  else c.storeReg row i v

/-- EPOCH_CMD, LC_CMD and KEY_CMD of partition p (R522, R530, R534, R536, R548). -/
def State.epochCmd (s : State) (v : Nat) : State :=
  if !bitOf v 2 then s else if bits v 1 0 = 1 then s.installEpoch 0 true else if bits v 1 0 = 2 then s.switchEpoch else s
/-- DESIGN CHOICE (assumption 61). -/
def State.lcCmd (s : State) (v : Nat) : State :=
  let k := bits v 2 0
  if !bitOf v 3 then s
  else if k = 2 then s.claim 0 else if k = 3 then s.release 0 else if k = 4 then s.retire 0
  else { s with core := s.core.wf Regs.SEC_LC_STATUS_CFG_ERR 0 1 }
/-- DESIGN CHOICE (assumption 61). -/
def State.keyCmd (s : State) (p v : Nat) : State :=
  let k := bits v 3 0
  let n := bits v 7 4
  if !bitOf v 8 then s
  else if k = 3 ∨ k = 4 then s.installKey p n k {}
  else if k = 5 then s.deleteSlot p n
  else if k = 6 then s.sealDone p (s.seal p n {})
  else if k = 7 then s.sealDone p (s.unseal p n {})
  else s

/-- A register with an RW-L field, which CLAIM locks (R536, R538). DEDUCED (assumption 81). -/
def State.lockedStore (s : State) (row : RegRow) (i v : Nat) : State :=
  { s with core := s.core.wr row.reg i (row.stored (s.core.rd row.reg i) v (decide (2 ≤ s.perm.lc))) }

/-- What a write of `v` to instance i of a register does. DESIGN CHOICE (assumption 61). -/
def State.act (s : State) (row : RegRow) (i v : Nat) : State :=
  let b := row.reg.base
  if b = Regs.DEV_RESET_CMD.base then (if bitOf v 0 then s.coldReset 1 {} else s)
  else if b = Regs.DEV_HELD_CLEAR.base then (if bitOf v 0 then s.heldClear else s)
  else if b = Regs.DEV_SPARE_CLEAR.base then s.spareClear v
  else if b = Regs.PWR_SAVE_CMD.base then s.saveCmd v
  else if b = Regs.SEC_LC_CMD.base then s.lcCmd v
  else if b = Regs.SEC_TAMPER_STATUS.base then
    (if bitOf v 0 then { s with perm := { s.perm with tamperClear := s.perm.tamper } } else s)
  else if b = Regs.SEC_TAMPER_CFG.base ∨ b = Regs.FW_FW_CFG.base then s.lockedStore row i v
  else if b = Regs.SEC_EPOCH_CMD.base then s.epochCmd v
  else if b = Regs.SEC_KEY_CMD.base then s.keyCmd i v
  else if b = Regs.FW_FW_CMD.base then s.fwCmd v
  else { s with core := s.core.act row i v }

/-- Set the flag of a refused write. -/
def Core.setFlag (c : Core) (f : Option (Fld × Nat)) : Core :=
  match f with
  | some (f, i) => c.wf f i 1
  | none => c

/-- A write that takes effect at once under the register's own rules (R573). DEDUCED (assumption 76). -/
def State.writeNow (s : State) (row : RegRow) (i v : Nat) : State :=
  match s.core.judge (s.core.storeReg row i v) true [] row i v with
  | some e => { s with core := s.core.setFlag e.2 }
  | none => s.act row i v

/-! ### Transactions (R572-R576) -/

/-- Which transaction covers a register (R576). -/
inductive TxnKind where
  /-- the device-level transaction only -/
  | devOnly
  /-- the device-level transaction -/
  | dev
  /-- the partition's, or the device-level -/
  | part
  | none
  deriving DecidableEq, Repr

/-- Registers of the first and the second row of R576's table, and those of its third row outside UPD. -/
def devOnlyRegs : List Reg := [Regs.MEM_GRANULE_OWNER, Regs.SEC_KEYID_MAP, Regs.COL_HERD_CFG, Regs.PART_CTRL, Regs.PART_TILE_GROUPS]
def devRegs : List Reg :=
  [Regs.FAB_VC_CFG, Regs.FAB_PTP_CFG, Regs.SLOW_DIR_RANGE, Regs.RMA_QP_RANGE, Regs.RMA_KEY_RANGE, Regs.RMA_PD_RANGE]
def partRegs : List Reg :=
  [Regs.TILE_BANK_OFF, Regs.TILE_BANK_ON, Regs.TILE_BANK_RETAIN, Regs.SEC_LIC_WIN, Regs.SEC_LIC_LEN, Regs.PWR_JOB_TAG, Regs.FW_P_MOTION] ++
    slowRegs ++ rmaRegs ++ colRegs

/-- The transaction that covers a register. -/
def RegRow.txnKind (row : RegRow) : TxnKind :=
  let b := row.reg.base
  if hasBase devOnlyRegs b then .devOnly
  else if hasBase devRegs b then .dev
  else if hasBase partRegs b then .part
  else if 0x900100 ≤ b ∧ b < 0x901000 ∧ row.mask [.RW] ≠ 0 then .part
  else .none

/-- Field of the transaction registers of transaction k: 0 the device's, p + 1 partition p's. -/
def Core.txGet (c : Core) (k : Nat) (fd fp : Fld) : Nat := if k = 0 then c.rf fd 0 else c.rf fp (k - 1)
def Core.txSet (c : Core) (k : Nat) (fd fp : Fld) (v : Nat) : Core := if k = 0 then c.wf fd 0 v else c.wf fp (k - 1) v
def Core.txOpen (c : Core) (k : Nat) : Bool := c.txGet k Regs.CFG_TXN_STATUS_OPEN Regs.CFG_P_TXN_STATUS_OPEN == 1
def Core.txResult (c : Core) (k st : Nat) : Core := c.txSet k Regs.CFG_TXN_STATUS_RESULT Regs.CFG_P_TXN_STATUS_RESULT st
def Core.txn (c : Core) (k : Nat) : Txn := c.txns.get (fun _ => {}) k
def Core.setTxn (c : Core) (k : Nat) (t : Txn) : Core := { c with txns := c.txns.put (fun _ => {}) k t }

/-- The partition of an event about a transaction. -/
def txnPart (k : Nat) : Nat := if k = 0 then devPart else k - 1

/-- BEGIN (R572). DEDUCED (assumption 75). -/
def Core.txBegin (c : Core) (k : Nat) : Core :=
  if c.txOpen k then c.txResult k St.PROTECTION
  else
    let c := (c.txSet k Regs.CFG_TXN_STATUS_OPEN Regs.CFG_P_TXN_STATUS_OPEN 1).txSet k Regs.CFG_TXN_OPENED_TICK Regs.CFG_P_TXN_OPENED_TICK c.tick
    (c.setTxn k { c.txn k with writes := [], excess := none }).txResult k 0

/-- The transaction ends (R583 END, R232). -/
def Core.txEnd (c : Core) (k e ender : Nat) : Core :=
  ((c.txSet k Regs.CFG_TXN_STATUS_OPEN Regs.CFG_P_TXN_STATUS_OPEN 0).txSet k Regs.CFG_TXN_STATUS_END Regs.CFG_P_TXN_STATUS_END e).setTxn k
    { ender := ender }

/-- Shadow writes that a transaction holds (R573). -/
def txnLimit (k : Nat) : Nat := if k = 0 then 4096 else 1024

/-- A shadow write: it replaces an earlier one of the same register; one beyond the limit is ignored and sets OVERFLOW (R573).
DEDUCED (assumption 75). -/
def Core.txWrite (c : Core) (k off v : Nat) : Core :=
  let t := c.txn k
  let rest := t.writes.filter (fun w => w.1 != off)
  if rest.length = t.writes.length ∧ txnLimit k ≤ t.writes.length then
    (c.setTxn k { t with excess := some (t.excess.getD off) }).txSet k Regs.CFG_TXN_STATUS_OVERFLOW Regs.CFG_P_TXN_STATUS_OVERFLOW 1
  else c.setTxn k { t with writes := rest ++ [(off, BitVec.ofNat 64 v)] }

/-- The shadow writes as register, instance, offset and word. -/
def Txn.list (t : Txn) : List (RegRow × Nat × Nat × Nat) :=
  t.writes.filterMap (fun w => (findReg w.1).map (fun r => (r.1, r.2, w.1, w.2.toNat)))

/-- The first shadow write that its register's rule refuses: its offset and the verdict (R574). DEDUCED (assumption 75). -/
def Core.txJudge (c : Core) (sealed_ : Bool) (ws : List (RegRow × Nat × Nat × Nat)) : Option (Nat × Nat × Option (Fld × Nat)) :=
  let d := threadAll (fun d (w : RegRow × Nat × Nat × Nat) => d.storeReg w.1 w.2.1 w.2.2.2) c ws
  let creates := ws.filterMap (fun w => if w.1.reg.base = Regs.PART_CTRL.base ∧ bits w.2.2.2 1 0 = 1 then some w.2.1 else none)
  ws.findSome? (fun w => (c.judge d sealed_ creates w.1 w.2.1 w.2.2.2).map (fun e => (w.2.2.1, e)))

/-- Whether a register holds commands alone. -/
def RegRow.command (row : RegRow) : Bool := row.mask [.RW, .RWL, .W1C] == 0

/-- COMMIT of transaction k (R574): the status; settings are applied before commands. DEDUCED (assumption 75). -/
def Core.txCommit (c : Core) (k ender : Nat) (sealed_ : Bool) : Nat × Core :=
  let t := c.txn k
  let ws := t.list
  let bad := match t.excess with
    | some off => some (off, St.LENGTH, none)
    | none => c.txJudge sealed_ ws
  match bad with
  | some (off, st, f) =>
    let c := ((c.txEnd k 5 ender).setFlag f).txSet k Regs.CFG_TXN_ERR_ERR_OFFSET Regs.CFG_P_TXN_ERR_ERR_OFFSET off
    (st, (c.txResult k st).evt Cls.info Src.pcie (txnPart k) 0x0D05 (st + off / 8 * 2 ^ 16))
  | none =>
    let c := (c.txEnd k 1 ender).txResult k 0
    let c := if k = 0 then c.count Regs.CFG_TXN_COMMITS_COUNT else c.count Regs.CFG_P_TXN_COMMITS_COUNT (k - 1)
    let run := fun (c : Core) (w : RegRow × Nat × Nat × Nat) => c.act w.1 w.2.1 w.2.2.2
    (0, threadAll run (threadAll run c (ws.filter (fun w => !w.1.command))) (ws.filter (fun w => w.1.command)))

/-- Whether CREATE is refused by the life cycle or the tamper latch (R513). -/
def State.sealed (s : State) : Bool := s.perm.lc == 3 || s.perm.tamper

/-- COMMIT by the host. -/
def State.txCommit (s : State) (k : Nat) : State :=
  if !s.core.txOpen k then { s with core := s.core.txResult k St.PROTECTION } else { s with core := (s.core.txCommit k 1 s.sealed).2 }

/-- ROLLBACK by the host (R572). -/
def Core.txRollback (c : Core) (k : Nat) : Core :=
  if !c.txOpen k then c.txResult k St.PROTECTION else (c.txEnd k 2 1).txResult k 0

/-- A write of TXN_CMD. -/
def State.txCmd (s : State) (k cmd : Nat) : State :=
  if cmd = 1 then { s with core := s.core.txBegin k }
  else if cmd = 2 then s.txCommit k
  else if cmd = 3 then { s with core := s.core.txRollback k }
  else s

/-! ### Host writes -/

/-- Registers that the function of a partition sees and cannot write (R467). DEDUCED (assumption 77). -/
def Core.writes (c : Core) (fn off : Nat) (row : RegRow) : Bool :=
  c.sees fn off && (fn == 0 || !hasBase [Regs.RMA_QP_RANGE, Regs.RMA_KEY_RANGE, Regs.RMA_PD_RANGE] row.reg.base)

/-- The open transaction that takes a write by a function, if one does (R573). -/
def Core.takes (c : Core) (fn off : Nat) (row : RegRow) : Option Nat :=
  match row.txnKind with
  | .none => none
  | k =>
    if fn = 0 ∧ c.txOpen 0 then some 0
    else if k = .part then (match c.reach off with
      | .part p => if (fn = 0 ∨ fn = p + 1) ∧ c.txOpen (p + 1) then some (p + 1) else none
      | _ => none)
    else none

/-- The word that a shadow write builds on: the earlier shadow write of the register, else what it shows. -/
def State.base (s : State) (k off : Nat) (row : RegRow) (i : Nat) : Nat :=
  match (s.core.txn k).writes.find? (fun w => w.1 == off) with
  | some w => w.2.toNat
  | none => s.shown row i

/-- A write of the bits `mask` of the register at `off`. -/
def State.writeReg (s : State) (fn off : Nat) (row : RegRow) (i w mask : Nat) : State :=
  if !s.core.writes fn off row || row.writable &&& mask == 0 then s
  else if row.reg.base = Regs.CFG_TXN_CMD.base then s.txCmd 0 (bits w 1 0)
  else if row.reg.base = Regs.CFG_P_TXN_CMD.base then s.txCmd (i + 1) (bits w 1 0)
  else match s.core.takes fn off row with
    | some k => { s with core := s.core.txWrite k off (row.merge (s.base k off row i) w mask) }
    | none =>
      if row.txnKind = .devOnly then { s with core := s.core.wf Regs.CFG_TXN_STATUS_OUTSIDE 0 1 }
      else s.writeNow row i (row.merge (s.shown row i) w mask)

/-- R12: W1C bits that hardware sets in the tick of a write end set. DEDUCED (assumption 74). -/
def State.hardwareSets (s : State) (row : RegRow) (i set : Nat) : State :=
  { s with core := s.core.wr row.reg i (s.core.rd row.reg i ||| (set &&& row.mask [.W1C])) }

/-- A write of n bytes at a BAR0 offset by a function; `set` are W1C bits that hardware sets at the same tick (R12, R552, R678).
DEDUCED (assumption 74). -/
def State.write (s : State) (fn off n w set : Nat) : Host.Outcome State Fault Refusal :=
  if !s.core.answers || !s.core.fnOn fn || !aligned off n then .next s
  else match s.core.regPlace fn (off / 8 * 8) with
    | .outside => .fault .outsideBar0
    | .debug => .refused .debugBlock
    | .nothing => .next s
    | .reg row i =>
      let hi := off % 8 / 4
      let mask := if n = 8 then 2 ^ 64 - 1 else (2 ^ 32 - 1) * 2 ^ (32 * hi)
      let w := if n = 8 then w else w % 2 ^ 32 * 2 ^ (32 * hi)
      let s := s.writeReg fn (off / 8 * 8) row i w mask
      .next (if set = 0 then s else s.hardwareSets row i set)

/-- REGISTER_WRITE (R673): a write of n bytes by a function. -/
def execRegisterWrite (fn : FnId) (off : BitVec 32) (n : Fin 17) (w set : Word) (s : State) : Host.Outcome State Fault Refusal :=
  s.write fn.val off.toNat n.val w.toNat set.toNat

/-- TXN_BEGIN of transaction k: 0 the device's, p + 1 partition p's (R572). -/
def execTxnBegin (k : FnId) (s : State) : Host.Outcome State Fault Refusal := .next (s.txCmd k.val 1)

/-- TXN_COMMIT (R574). -/
def execTxnCommit (k : FnId) (s : State) : Host.Outcome State Fault Refusal := .next (s.txCmd k.val 2)

/-- TXN_ROLLBACK (R572). -/
def execTxnRollback (k : FnId) (s : State) : Host.Outcome State Fault Refusal := .next (s.txCmd k.val 3)

/-- CFG_TXN_TIMEOUT: a transaction that has not ended 2,500,000 ticks after its BEGIN is discarded (R575). -/
def execCfgTxnTimeout (k : FnId) (s : State) : Host.Outcome State Fault Refusal :=
  s.on (fun c =>
    let k := k.val
    if !c.txOpen k || decide (c.tick < c.txGet k Regs.CFG_TXN_OPENED_TICK Regs.CFG_P_TXN_OPENED_TICK + 2500000) then c
    else (c.txEnd k 4 2).evt Cls.info Src.devTxn (txnPart k) 0x0D06 (txnPart k))

/-! ### Instructions (R231, R232) -/

/-- The status of a configuration instruction that finds the transaction closed (R232, R572). -/
def Core.txClosed (c : Core) (p : Nat) : Nat :=
  match (c.txn (p + 1)).ender with
  | 1 => St.ABORTED
  | 2 => St.TIMEOUT
  | _ => St.PROTECTION

/-- An operation of the configuration logic that needs the transaction open. -/
def Core.whileOpen (c : Core) (p : Nat) (f : Core → Nat × Core) : OpRes :=
  if !c.txOpen (p + 1) then .fail c (c.txClosed p) else (let r := f c; { c := r.2, st := r.1 })

/-- CFGWR: the register at an offset of the partition's view (R231, R232). DEDUCED (assumption 75). -/
def Core.cfgWrite (c : Core) (p off v : Nat) : Nat × Core :=
  match c.regPlace (p + 1) off with
  | .reg row _ =>
    if row.txnKind = .part ∧ c.writes (p + 1) off row ∧ row.writable ≠ 0 then (0, c.txWrite (p + 1) off v) else (St.PROTECTION, c)
  | _ => (St.BOUNDS, c)

/-- CFGBEGIN. -/
def execCfgbegin (x : TArgs) (s : State) : Host.Outcome State Fault Refusal :=
  s.on (fun c => c.tensorIns x .CFGBEGIN (fun c _ p =>
    if c.txOpen (p + 1) then .fail (c.txResult (p + 1) St.PROTECTION) St.PROTECTION else { c := c.txBegin (p + 1) }))

/-- CFGWR: the offset divided by 8 in modifiers [22:0], the word in the immediate. -/
def execCfgwr (x : TArgs) (s : State) : Host.Outcome State Fault Refusal :=
  s.on (fun c => c.tensorIns x .CFGWR (fun c _ p =>
    c.whileOpen p (fun c => c.cfgWrite p (8 * bits x.mods.toNat 22 0) (x.wide.getD 0).toNat)))

/-- CFGCOMMIT: a refused commit ends with PROTECTION (R574). -/
def execCfgcommit (x : TArgs) (s : State) : Host.Outcome State Fault Refusal :=
  s.on (fun c => c.tensorIns x .CFGCOMMIT (fun c _ p =>
    c.whileOpen p (fun c => (let r := c.txCommit (p + 1) 0 true; (if r.1 = 0 then 0 else St.PROTECTION, r.2)))))

/-- CFGRBACK. -/
def execCfgrback (x : TArgs) (s : State) : Host.Outcome State Fault Refusal :=
  s.on (fun c => c.tensorIns x .CFGRBACK (fun c _ p => c.whileOpen p (fun c => (0, (c.txEnd (p + 1) 3 0).txResult (p + 1) 0))))

/-! ### Partitions (R512, R540, R578) -/

/-- PF0 commits writes of device-level registers: it opens the device-level transaction unless it is open, writes and commits.
DEDUCED (assumption 75). -/
def State.commitDevice (s : State) (ws : List (Nat × Nat)) : State :=
  if !s.core.answers then s
  else
    let c := if s.core.txOpen 0 then s.core else s.core.txBegin 0
    let c := threadAll (fun c (w : Nat × Nat) => c.txWrite 0 w.1 w.2) c ws
    { s with core := c }.txCommit 0

/-- PARTITION_CREATE: TILE_GROUPS and CTRL CREATE in one commit (R512, R513). -/
def execPartitionCreate (p : PartId) (groups : BitVec 16) (s : State) : Host.Outcome State Fault Refusal :=
  .next (s.commitDevice [(Regs.PART_TILE_GROUPS.at p.val, groups.toNat), (Regs.PART_CTRL.at p.val, 1)])

/-- PARTITION_REMOVE: CTRL REMOVE in a commit (R540). -/
def execPartitionRemove (p : PartId) (s : State) : Host.Outcome State Fault Refusal := .next (s.commitDevice [(Regs.PART_CTRL.at p.val, 2)])

/-- PARTITION_RESET: a function-level reset of VF p + 1, or CTRL RESET in a commit (R578). -/
def execPartitionReset (p : PartId) (flr : Bool) (s : State) : Host.Outcome State Fault Refusal :=
  if flr then s.on (fun c => if c.answers then c.partReset p.val true else c) else .next (s.commitDevice [(Regs.PART_CTRL.at p.val, 3)])

end Sys2Proof.Machine
end

