-- ==== Sys2Proof/Machine/Dispatch.lean ====
section
/-! DEFINITION. Dispatch.lean: one arm per command, one call of its meaning. -/

namespace Sys2Proof.Machine

def exec (i : Instr) (s : State) : Host.Outcome State Fault Refusal :=
  match i with
  | .registerWrite fn off n w set => Sys2Proof.Machine.execRegisterWrite fn off n w set s
  | .rcRead fn off n inc => Sys2Proof.Machine.execRcRead fn off n inc s
  | .rcLowerWordRead fn off inc => Sys2Proof.Machine.execRcLowerWordRead fn off inc s
  | .tileSpareRequest l trigger => Sys2Proof.Machine.execTileSpareRequest l trigger s
  | .tileSwapDrained l lost => Sys2Proof.Machine.execTileSwapDrained l lost s
  | .tileSpared l => Sys2Proof.Machine.execTileSpared l s
  | .regionSkewClamp x => Sys2Proof.Machine.execRegionSkewClamp x s
  | .regionSkewRelease q => Sys2Proof.Machine.execRegionSkewRelease q s
  | .regionSkewPersist q => Sys2Proof.Machine.execRegionSkewPersist q s
  | .tsServoMeasure offset => Sys2Proof.Machine.execTsServoMeasure offset s
  | .tsStep w => Sys2Proof.Machine.execTsStep w s
  | .tsSourceLost => Sys2Proof.Machine.execTsSourceLost s
  | .refclkLost => Sys2Proof.Machine.execRefclkLost s
  | .evtQEnable n w => Sys2Proof.Machine.execEvtQEnable n w s
  | .evtQHeadWrite n w => Sys2Proof.Machine.execEvtQHeadWrite n w s
  | .evtQueueWriteFail n => Sys2Proof.Machine.execEvtQueueWriteFail n s
  | .evtQModTimer n => Sys2Proof.Machine.execEvtQModTimer n s
  | .logDataRead => Sys2Proof.Machine.execLogDataRead s
  | .nop x => Sys2Proof.Machine.execNop x s
  | .add x => Sys2Proof.Machine.execAdd x s
  | .sub x => Sys2Proof.Machine.execSub x s
  | .mul x => Sys2Proof.Machine.execMul x s
  | .divu x => Sys2Proof.Machine.execDivu x s
  | .remu x => Sys2Proof.Machine.execRemu x s
  | .and x => Sys2Proof.Machine.execAnd x s
  | .or x => Sys2Proof.Machine.execOr x s
  | .xor x => Sys2Proof.Machine.execXor x s
  | .shl x => Sys2Proof.Machine.execShl x s
  | .shr x => Sys2Proof.Machine.execShr x s
  | .sar x => Sys2Proof.Machine.execSar x s
  | .mins x => Sys2Proof.Machine.execMins x s
  | .maxs x => Sys2Proof.Machine.execMaxs x s
  | .taddr x => Sys2Proof.Machine.execTaddr x s
  | .sysv x => Sys2Proof.Machine.execSysv x s
  | .cmpeq x => Sys2Proof.Machine.execCmpeq x s
  | .cmpne x => Sys2Proof.Machine.execCmpne x s
  | .cmplt x => Sys2Proof.Machine.execCmplt x s
  | .cmpltu x => Sys2Proof.Machine.execCmpltu x s
  | .cmpge x => Sys2Proof.Machine.execCmpge x s
  | .cmpgeu x => Sys2Proof.Machine.execCmpgeu x s
  | .pand x => Sys2Proof.Machine.execPand x s
  | .por x => Sys2Proof.Machine.execPor x s
  | .pxor x => Sys2Proof.Machine.execPxor x s
  | .br x => Sys2Proof.Machine.execBr x s
  | .bri x => Sys2Proof.Machine.execBri x s
  | .call x => Sys2Proof.Machine.execCall x s
  | .halt x => Sys2Proof.Machine.execHalt x s
  | .illegalInstruction tile word next => Sys2Proof.Machine.execIllegalInstruction tile word next s
  | .ld1 x => Sys2Proof.Machine.execLd1 x s
  | .ld2 x => Sys2Proof.Machine.execLd2 x s
  | .ld4 x => Sys2Proof.Machine.execLd4 x s
  | .ld8 x => Sys2Proof.Machine.execLd8 x s
  | .st1 x => Sys2Proof.Machine.execSt1 x s
  | .st2 x => Sys2Proof.Machine.execSt2 x s
  | .st4 x => Sys2Proof.Machine.execSt4 x s
  | .st8 x => Sys2Proof.Machine.execSt8 x s
  | .ldt x => Sys2Proof.Machine.execLdt x s
  | .stt x => Sys2Proof.Machine.execStt x s
  | .lds1 x => Sys2Proof.Machine.execLds1 x s
  | .lds2 x => Sys2Proof.Machine.execLds2 x s
  | .lds4 x => Sys2Proof.Machine.execLds4 x s
  | .copy x => Sys2Proof.Machine.execCopy x s
  | .fill x => Sys2Proof.Machine.execFill x s
  | .gather x => Sys2Proof.Machine.execGather x s
  | .scatter x => Sys2Proof.Machine.execScatter x s
  | .mm x => Sys2Proof.Machine.execMm x s
  | .mmsp x => Sys2Proof.Machine.execMmsp x s
  | .mmbs x => Sys2Proof.Machine.execMmbs x s
  | .mm32 x => Sys2Proof.Machine.execMm32 x s
  | .vadd x => Sys2Proof.Machine.execVadd x s
  | .vsub x => Sys2Proof.Machine.execVsub x s
  | .vmul x => Sys2Proof.Machine.execVmul x s
  | .vfma x => Sys2Proof.Machine.execVfma x s
  | .vmax x => Sys2Proof.Machine.execVmax x s
  | .vmin x => Sys2Proof.Machine.execVmin x s
  | .vcvt x => Sys2Proof.Machine.execVcvt x s
  | .vscale x => Sys2Proof.Machine.execVscale x s
  | .vrsum x => Sys2Proof.Machine.execVrsum x s
  | .vrmax x => Sys2Proof.Machine.execVrmax x s
  | .vnormsq x => Sys2Proof.Machine.execVnormsq x s
  | .vexp x => Sys2Proof.Machine.execVexp x s
  | .vrecip x => Sys2Proof.Machine.execVrecip x s
  | .vrsqrt x => Sys2Proof.Machine.execVrsqrt x s
  | .vsoftmax x => Sys2Proof.Machine.execVsoftmax x s
  | .cbload x => Sys2Proof.Machine.execCbload x s
  | .encode x => Sys2Proof.Machine.execEncode x s
  | .decode x => Sys2Proof.Machine.execDecode x s
  | .enc16 x => Sys2Proof.Machine.execEnc16 x s
  | .srelu x => Sys2Proof.Machine.execSrelu x s
  | .stashSpillDone t => Sys2Proof.Machine.execStashSpillDone t s
  | .sdrop x => Sys2Proof.Machine.execSdrop x s
  | .sabs x => Sys2Proof.Machine.execSabs x s
  | .sclamp x => Sys2Proof.Machine.execSclamp x s
  | .grelu x => Sys2Proof.Machine.execGrelu x s
  | .gdrop x => Sys2Proof.Machine.execGdrop x s
  | .gabs x => Sys2Proof.Machine.execGabs x s
  | .gclamp x => Sys2Proof.Machine.execGclamp x s
  | .grelux x => Sys2Proof.Machine.execGrelux x s
  | .gdropx x => Sys2Proof.Machine.execGdropx x s
  | .gabsx x => Sys2Proof.Machine.execGabsx x s
  | .gclampx x => Sys2Proof.Machine.execGclampx x s
  | .rput x => Sys2Proof.Machine.execRput x s
  | .rget x => Sys2Proof.Machine.execRget x s
  | .ratom x => Sys2Proof.Machine.execRatom x s
  | .rsend x => Sys2Proof.Machine.execRsend x s
  | .rrecv x => Sys2Proof.Machine.execRrecv x s
  | .rscat x => Sys2Proof.Machine.execRscat x s
  | .agath x => Sys2Proof.Machine.execAgath x s
  | .a2a x => Sys2Proof.Machine.execA2a x s
  | .ring x => Sys2Proof.Machine.execRing x s
  | .audit x => Sys2Proof.Machine.execAudit x s
  | .ckpt x => Sys2Proof.Machine.execCkpt x s
  | .update x => Sys2Proof.Machine.execUpdate x s
  | .updprog x => Sys2Proof.Machine.execUpdprog x s
  | .updprogChunkTimeout p op => Sys2Proof.Machine.execUpdprogChunkTimeout p op s
  | .lscale x => Sys2Proof.Machine.execLscale x s
  | .exportOp x => Sys2Proof.Machine.execExportOp x s
  | .rowupd x => Sys2Proof.Machine.execRowupd x s
  | .route x => Sys2Proof.Machine.execRoute x s
  | .wait x => Sys2Proof.Machine.execWait x s
  | .waitt x => Sys2Proof.Machine.execWaitt x s
  | .signal x => Sys2Proof.Machine.execSignal x s
  | .waitf x => Sys2Proof.Machine.execWaitf x s
  | .waitfc x => Sys2Proof.Machine.execWaitfc x s
  | .phase x => Sys2Proof.Machine.execPhase x s
  | .event x => Sys2Proof.Machine.execEvent x s
  | .cqpost x => Sys2Proof.Machine.execCqpost x s
  | .stest x => Sys2Proof.Machine.execStest x s
  | .cfgbegin x => Sys2Proof.Machine.execCfgbegin x s
  | .cfgwr x => Sys2Proof.Machine.execCfgwr x s
  | .cfgcommit x => Sys2Proof.Machine.execCfgcommit x s
  | .cfgrback x => Sys2Proof.Machine.execCfgrback x s
  | .operationComplete id => Sys2Proof.Machine.execOperationComplete id s
  | .programEnd p => Sys2Proof.Machine.execProgramEnd p s
  | .stepClose p => Sys2Proof.Machine.execStepClose p s
  | .stepAgreementTimeout p => Sys2Proof.Machine.execStepAgreementTimeout p s
  | .updateApplyDone p op lost => Sys2Proof.Machine.execUpdateApplyDone p op lost s
  | .stepBoundary p => Sys2Proof.Machine.execStepBoundary p s
  | .programStart p => Sys2Proof.Machine.execProgramStart p s
  | .bankOff t banks => Sys2Proof.Machine.execBankOff t banks s
  | .bankPowerDown t b => Sys2Proof.Machine.execBankPowerDown t b s
  | .bankOn t banks => Sys2Proof.Machine.execBankOn t banks s
  | .bankRetain t banks => Sys2Proof.Machine.execBankRetain t banks s
  | .bankWake t b => Sys2Proof.Machine.execBankWake t b s
  | .bankWakeDone t b => Sys2Proof.Machine.execBankWakeDone t b s
  | .bankCfgWrite t w => Sys2Proof.Machine.execBankCfgWrite t w s
  | .bankSwapReq t w => Sys2Proof.Machine.execBankSwapReq t w s
  | .bankSpared t lost => Sys2Proof.Machine.execBankSpared t lost s
  | .umbraWiped k => Sys2Proof.Machine.execUmbraWiped k s
  | .channelRetrain h ok => Sys2Proof.Machine.execChannelRetrain h ok s
  | .retireReq w => Sys2Proof.Machine.execRetireReq w s
  | .channelRetireStart => Sys2Proof.Machine.execChannelRetireStart s
  | .granuleMigrated lost => Sys2Proof.Machine.execGranuleMigrated lost s
  | .channelRetired lost => Sys2Proof.Machine.execChannelRetired lost s
  | .ssdEnable slot w lbaOk => Sys2Proof.Machine.execSsdEnable slot w lbaOk s
  | .nvmeCompletion id status => Sys2Proof.Machine.execNvmeCompletion id status s
  | .ssdFailed id => Sys2Proof.Machine.execSsdFailed id s
  | .dirData p w => Sys2Proof.Machine.execDirData p w s
  | .rowAccessDeadline id item => Sys2Proof.Machine.execRowAccessDeadline id item s
  | .rowAccept p op => Sys2Proof.Machine.execRowAccept p op s
  | .rowFetchDone p => Sys2Proof.Machine.execRowFetchDone p s
  | .rowWriteback slot block => Sys2Proof.Machine.execRowWriteback slot block s
  | .rowWritebackDone slot block => Sys2Proof.Machine.execRowWritebackDone slot block s
  | .rowStepDeadline p => Sys2Proof.Machine.execRowStepDeadline p s
  | .laneSpareTrigger e lane rx => Sys2Proof.Machine.execLaneSpareTrigger e lane rx s
  | .oeSpareReq e w => Sys2Proof.Machine.execOeSpareReq e w s
  | .txSparePause e => Sys2Proof.Machine.execTxSparePause e s
  | .laneSpared e ok ns => Sys2Proof.Machine.execLaneSpared e ok ns s
  | .portEnable port iface w => Sys2Proof.Machine.execPortEnable port iface w s
  | .linkUp port iface => Sys2Proof.Machine.execLinkUp port iface s
  | .linkFault port iface cause codewords => Sys2Proof.Machine.execLinkFault port iface cause codewords s
  | .linkDown port iface cause => Sys2Proof.Machine.execLinkDown port iface cause s
  | .frameReceive f hostFail => Sys2Proof.Machine.execFrameReceive f hostFail s
  | .creditUpdate port iface vc dev => Sys2Proof.Machine.execCreditUpdate port iface vc dev s
  | .rawTxTail port iface v hostFail => Sys2Proof.Machine.execRawTxTail port iface v hostFail s
  | .txTsTag port iface => Sys2Proof.Machine.execTxTsTag port iface s
  | .snap port iface groups => Sys2Proof.Machine.execSnap port iface groups s
  | .write k => Sys2Proof.Machine.execWrite k s
  | .send k => Sys2Proof.Machine.execSend k s
  | .readReq k => Sys2Proof.Machine.execReadReq k s
  | .readResp k => Sys2Proof.Machine.execReadResp k s
  | .atomicReq k => Sys2Proof.Machine.execAtomicReq k s
  | .atomicResp k => Sys2Proof.Machine.execAtomicResp k s
  | .done k => Sys2Proof.Machine.execDone k s
  | .nak k => Sys2Proof.Machine.execNak k s
  | .status k => Sys2Proof.Machine.execStatus k s
  | .statusReq k => Sys2Proof.Machine.execStatusReq k s
  | .credit k => Sys2Proof.Machine.execCredit k s
  | .creditReq k => Sys2Proof.Machine.execCreditReq k s
  | .creditReturn k => Sys2Proof.Machine.execCreditReturn k s
  | .abort k => Sys2Proof.Machine.execAbort k s
  | .rtoExpiry qp msn resp => Sys2Proof.Machine.execRtoExpiry qp msn resp s
  | .backoffExpiry qp msn context => Sys2Proof.Machine.execBackoffExpiry qp msn context s
  | .reassemblyTimeout qp msn => Sys2Proof.Machine.execReassemblyTimeout qp msn s
  | .creditIdleReturn port iface vc dev => Sys2Proof.Machine.execCreditIdleReturn port iface vc dev s
  | .creditRepeat port iface vc dev => Sys2Proof.Machine.execCreditRepeat port iface vc dev s
  | .creditReqRetry port iface vc dev => Sys2Proof.Machine.execCreditReqRetry port iface vc dev s
  | .qpCreate p qp => Sys2Proof.Machine.execQpCreate p qp s
  | .qpDestroy p qp => Sys2Proof.Machine.execQpDestroy p qp s
  | .regionInval p key => Sys2Proof.Machine.execRegionInval p key s
  | .regionInvalDrained p => Sys2Proof.Machine.execRegionInvalDrained p s
  | .contextFetchDone qp status => Sys2Proof.Machine.execContextFetchDone qp status s
  | .groupForm p g => Sys2Proof.Machine.execGroupForm p g s
  | .groupDissolve p g => Sys2Proof.Machine.execGroupDissolve p g s
  | .collData k => Sys2Proof.Machine.execCollData k s
  | .commit k => Sys2Proof.Machine.execCommit k s
  | .replay k => Sys2Proof.Machine.execReplay k s
  | .collAbort k => Sys2Proof.Machine.execCollAbort k s
  | .collTimeout op => Sys2Proof.Machine.execCollTimeout op s
  | .probeCmd w => Sys2Proof.Machine.execProbeCmd w s
  | .probe k => Sys2Proof.Machine.execProbe k s
  | .probeResp k => Sys2Proof.Machine.execProbeResp k s
  | .partitionCreate p groups => Sys2Proof.Machine.execPartitionCreate p groups s
  | .partitionRemove p => Sys2Proof.Machine.execPartitionRemove p s
  | .keyIdsRevoked p => Sys2Proof.Machine.execKeyIdsRevoked p s
  | .partitionFreed p => Sys2Proof.Machine.execPartitionFreed p s
  | .partitionDrainForced p => Sys2Proof.Machine.execPartitionDrainForced p s
  | .granuleScrubbed p => Sys2Proof.Machine.execGranuleScrubbed p s
  | .partitionReset p flr => Sys2Proof.Machine.execPartitionReset p flr s
  | .installEpoch host saveOk => Sys2Proof.Machine.execInstallEpoch host saveOk s
  | .switchEpoch => Sys2Proof.Machine.execSwitchEpoch s
  | .epochGraceEnd => Sys2Proof.Machine.execEpochGraceEnd s
  | .installModel p slot env => Sys2Proof.Machine.execInstallModel p slot env s
  | .installBinding p slot env => Sys2Proof.Machine.execInstallBinding p slot env s
  | .deleteSlot p slot => Sys2Proof.Machine.execDeleteSlot p slot s
  | .sealCmd p slot env => Sys2Proof.Machine.execSealCmd p slot env s
  | .unsealCmd p slot env => Sys2Proof.Machine.execUnsealCmd p slot env s
  | .claim host => Sys2Proof.Machine.execClaim host s
  | .release host => Sys2Proof.Machine.execRelease host s
  | .lcRetire host => Sys2Proof.Machine.execLcRetire host s
  | .tamperDetected pin sensors => Sys2Proof.Machine.execTamperDetected pin sensors s
  | .spdmRequest fn kind index => Sys2Proof.Machine.execSpdmRequest fn kind index s
  | .sqDoorbell p q v => Sys2Proof.Machine.execSqDoorbell p q v s
  | .cqDoorbell p q v => Sys2Proof.Machine.execCqDoorbell p q v s
  | .sqEntryFetch p env => Sys2Proof.Machine.execSqEntryFetch p env s
  | .program id env => Sys2Proof.Machine.execProgram id env s
  | .sqCopy id env => Sys2Proof.Machine.execSqCopy id env s
  | .fence id => Sys2Proof.Machine.execFence id s
  | .fenceComplete id => Sys2Proof.Machine.execFenceComplete id s
  | .orderedItemStart id => Sys2Proof.Machine.execOrderedItemStart id s
  | .pCancel p w => Sys2Proof.Machine.execPCancel p w s
  | .itemTimeLimit id => Sys2Proof.Machine.execItemTimeLimit id s
  | .recordWrite p q => Sys2Proof.Machine.execRecordWrite p q s
  | .cqWriteError p q => Sys2Proof.Machine.execCqWriteError p q s
  | .sqFetchError p status => Sys2Proof.Machine.execSqFetchError p status s
  | .sqEnable p q w => Sys2Proof.Machine.execSqEnable p q w s
  | .cqEnable p q w => Sys2Proof.Machine.execCqEnable p q w s
  | .cqModTimer p q => Sys2Proof.Machine.execCqModTimer p q s
  | .txnBegin k => Sys2Proof.Machine.execTxnBegin k s
  | .txnCommit k => Sys2Proof.Machine.execTxnCommit k s
  | .txnRollback k => Sys2Proof.Machine.execTxnRollback k s
  | .cfgTxnTimeout k => Sys2Proof.Machine.execCfgTxnTimeout k s
  | .coldReset cause env => Sys2Proof.Machine.execColdReset cause env s
  | .deviceReady => Sys2Proof.Machine.execDeviceReady s
  | .warmReset => Sys2Proof.Machine.execWarmReset s
  | .pf0Flr => Sys2Proof.Machine.execPf0Flr s
  | .tileReset w => Sys2Proof.Machine.execTileReset w s
  | .heldClear => Sys2Proof.Machine.execHeldClear s
  | .hostLinkDown => Sys2Proof.Machine.execHostLinkDown s
  | .hostLinkChanged rate width flit => Sys2Proof.Machine.execHostLinkChanged rate width flit s
  | .atsInvalidation fn => Sys2Proof.Machine.execAtsInvalidation fn s
  | .bar4Access fn off n data => Sys2Proof.Machine.execBar4Access fn off n data s
  | .powerControlStep x => Sys2Proof.Machine.execPowerControlStep x s
  | .capWrite w => Sys2Proof.Machine.execCapWrite w s
  | .dutySlot => Sys2Proof.Machine.execDutySlot s
  | .railLimit q amps => Sys2Proof.Machine.execRailLimit q amps s
  | .marginTrimmed q low => Sys2Proof.Machine.execMarginTrimmed q low s
  | .marginAlarm m slack => Sys2Proof.Machine.execMarginAlarm m slack s
  | .thermalThrottle sensor tj => Sys2Proof.Machine.execThermalThrottle sensor tj s
  | .thermalThrottleEnd sensor tj => Sys2Proof.Machine.execThermalThrottleEnd sensor tj s
  | .thermalTrip sensor reading => Sys2Proof.Machine.execThermalTrip sensor reading s
  | .sensorFault sensor => Sys2Proof.Machine.execSensorFault sensor s
  | .supplyWarning rails vsaveLow => Sys2Proof.Machine.execSupplyWarning rails vsaveLow s
  | .supplyWarningEnd => Sys2Proof.Machine.execSupplyWarningEnd s
  | .vsaveCharged => Sys2Proof.Machine.execVsaveCharged s
  | .supplyLossDetected pin => Sys2Proof.Machine.execSupplyLossDetected pin s
  | .saveCommit us env => Sys2Proof.Machine.execSaveCommit us env s
  | .saveRestore w => Sys2Proof.Machine.execSaveRestore w s
  | .budgetReport => Sys2Proof.Machine.execBudgetReport s
  | .budgetReportReceive dev period slack cap tag => Sys2Proof.Machine.execBudgetReportReceive dev period slack cap tag s
  | .budgetDecision => Sys2Proof.Machine.execBudgetDecision s
  | .tagSlotClear k w => Sys2Proof.Machine.execTagSlotClear k w s
  | .fwStage host => Sys2Proof.Machine.execFwStage host s
  | .fwStaged flashOk => Sys2Proof.Machine.execFwStaged flashOk s
  | .fwActivate force => Sys2Proof.Machine.execFwActivate force s
  | .fwActivationBarrier => Sys2Proof.Machine.execFwActivationBarrier s
  | .fwActivated => Sys2Proof.Machine.execFwActivated s
  | .fwActivateTimeout => Sys2Proof.Machine.execFwActivateTimeout s
  | .fwAbandon => Sys2Proof.Machine.execFwAbandon s
  | .fwDiscard => Sys2Proof.Machine.execFwDiscard s
  | .svnCommit => Sys2Proof.Machine.execSvnCommit s
  | .fwTrialPass => Sys2Proof.Machine.execFwTrialPass s
  | .fwTrialTimeout bad => Sys2Proof.Machine.execFwTrialTimeout bad s
  | .settingsMigrated => Sys2Proof.Machine.execSettingsMigrated s
  | .spareClear w => Sys2Proof.Machine.execSpareClear w s
  | .tstateCmd w => Sys2Proof.Machine.execTstateCmd w s
  | .gpioEdge levels => Sys2Proof.Machine.execGpioEdge levels s
  | .hostLinkUp rate width flit => Sys2Proof.Machine.execHostLinkUp rate width flit s
  | .refclkReturned env => Sys2Proof.Machine.execRefclkReturned env s
  | .perstNRelease env => Sys2Proof.Machine.execPerstNRelease env s
  | .pfailNRelease env => Sys2Proof.Machine.execPfailNRelease env s
  | .pcsLock port iface => Sys2Proof.Machine.execPcsLock port iface s
  | .beaconRestarted => Sys2Proof.Machine.execBeaconRestarted s
  | .thermtripTimeout => Sys2Proof.Machine.execThermtripTimeout s
  | .saveVsaveLost env => Sys2Proof.Machine.execSaveVsaveLost env s
  | .provisioning seed signed_ => Sys2Proof.Machine.execProvisioning seed signed_ s
  | .configRequest fn req => Sys2Proof.Machine.execConfigRequest fn req s

end Sys2Proof.Machine
end

