-- ==== Sys2Proof/Machine/Tick.lean ====
section
/-! DEFINITION. Tick.lean: what passes at a tick whatever is commanded: time, snapshots, the counters of waiting, the sampling of events
(R53, R54, R62, R189, R427, R429, R502, R601, R614; assumption 4). -/

namespace Sys2Proof.Machine

/-- The packet that a message sends next, if it has one. -/
def QP.todo (q : QP) (m : TxMsg) : Option Nat :=
  let np := if m.kind = 3 ∨ m.kind = 5 then 1 else q.packets m.total
  match m.again with
  | i :: _ => some i
  | [] => if m.next < min np (m.base + 512) then some m.next else none

/-- The interfaces on which a message has a packet but not the credit for it. DESIGN CHOICE (assumption 82). -/
def Core.starved (c : Core) (q : QP) (m : TxMsg) : List Nat :=
  match q.todo m with
  | none => []
  | some i =>
    let n := (q.chunk m i).length
    if m.waiting || q.state != qREADY || !q.cached || c.fwHold || (c.pickPath q m.vc n).isSome then []
    else (q.paths.map (fun a => unitOfPort a.1 a.2)).filter (fun u =>
      c.linkUp u && !c.flag Regs.FAB_PORT_STATUS_PAUSED u && decide ((c.credit u m.vc q.remoteDev).left < frameCells q.form n))

/-- The interface and VC pairs that want for credit, and the partitions and VCs whose sends wait for it. -/
def Core.starvedAll (c : Core) : List (Nat × Nat) × List (Nat × Nat) :=
  let ms := c.qps.flatMap (fun q => q.tx.map (fun m => (q, m, c.starved q m)))
  let hit := ms.filter (fun e => !e.2.2.isEmpty)
  ((hit.flatMap (fun e => e.2.2.map (fun u => (u, e.2.1.vc)))).eraseDups,
   ((hit.filter (fun e => e.2.1.kind == 2)).map (fun e => (e.1.part, e.2.1.vc))).eraseDups)

/-- Whether a tile of partition p waits on an RRECV of a queue pair on a VC (R502). -/
def Core.recvWait (c : Core) (p vc : Nat) : Bool :=
  let bufs := (c.qps.filter (fun q => q.part == p && q.vc == vc)).flatMap (·.bufs)
  bufs.any (fun b => match c.op? b.op, (c.phys b.ltile).map c.tile with
    | some o, some x => (match x.stall with | some (.tokens mask _ _) => bitOf mask o.tok | _ => false)
    | _, _ => false)

/-- Count the ticks that sends and receives of the pipeline wait (R429, R502). DESIGN CHOICE (assumption 82). -/
def Core.countWaits (c : Core) : Core :=
  if c.qps.isEmpty then c
  else
    let (vcs, sends) := c.starvedAll
    let parts := List.range 16
    let rx5 := parts.filter (fun p => c.recvWait p 5)
    let rx6 := parts.filter (fun p => c.recvWait p 6)
    let c := threadAll (fun c (e : Nat × Nat) => c.count Regs.FAB_VC_STALL_COUNT (e.2 + 16 * e.1)) c vcs
    let tx := fun (f : Fld) (vc : Nat) (c : Core) =>
      threadAll (fun c (e : Nat × Nat) => if e.2 = vc then c.count f e.1 else c) c sends
    let c := tx Regs.COL_PIPE_TX_STALL6_COUNT 6 (tx Regs.COL_PIPE_TX_STALL5_COUNT 5 c)
    let c := threadAll (fun c p => c.count Regs.COL_PIPE_RX_WAIT5_COUNT p) c rx5
    threadAll (fun c p => c.count Regs.COL_PIPE_RX_WAIT6_COUNT p) c rx6

/-- Whether a tile is in WAIT, WAITF or a barrier (R189). -/
def Tile.idles (x : Tile) : Bool :=
  x.run == 1 && (match x.stall with | some (.tokens _ _ _) => true | some (.flag _ _ _) => true | some (.barrier _) => true | _ => false)

/-- Count the ticks that tiles wait, and the slack of the budget period (R189, R601). DESIGN CHOICE (assumption 82). -/
def Core.countTiles (c : Core) : Core :=
  let idle := (c.tiles.filter (fun e => e.2.idles)).map (·.1)
  let c := threadAll (fun c t => c.count Regs.TILE_WAIT_TICKS_COUNT t) c idle
  let mapped := ((List.range 256).filter (fun l => (c.phys l).isSome)).length
  if c.flag Regs.PWR_HERD_PWR_EN then { c with slackWait := c.slackWait + idle.length, slackAll := c.slackAll + mapped } else c

/-- Count the ticks of throttling and of a duty below 8/8 (R614). DESIGN CHOICE (assumption 82). -/
def Core.countPower (c : Core) : Core :=
  let c := if c.rf Regs.PWR_PWR_STATUS_THROTTLE = 0 then c else c.count Regs.PWR_THROTTLE_TICKS_COUNT
  if c.duty < 8 then c.count Regs.PWR_GATED_TICKS_COUNT else c

/-- One tick passes: the timebase advances, snapshots asked for are taken, waits are counted, bank swaps that are due start, the events presented are sampled, and
Beacon writes sparing records to its settings. DESIGN CHOICE (assumption 4). -/
def State.tick (s : State) : State :=
  ({ s with core := s.core.advanceTime.takeSnaps.countTiles.countWaits.countPower.startDueSwaps.sampleAll } : State).flushSpares

end Sys2Proof.Machine
end

