-- ==== Sys2Proof/Machine/Step.lean ====
section
/-! DEFINITION. Step.lean: one step takes the command at the front of the queue. -/

namespace Sys2Proof.Machine

/-- Run the first waiting command on the state whose queue is the rest; an empty queue lets one tick pass (assumption 4).
DESIGN CHOICE (assumption 4). DESIGN CHOICE (assumption 86). -/
def step (s : State) : Host.Outcome State Fault Refusal :=
  match s.pending with
  | [] => .next s.tick
  | i :: r => exec i { s with pending := r }

/-- The command that a table word spells, put at the front of the queue; no word spells one. DESIGN CHOICE (assumption 2). -/
def State.withFetchWord (s : State) (nbits w : Nat) : State :=
  match decodeTableWord nbits w with
  | some i => { s with pending := i :: s.pending }
  | none => s

end Sys2Proof.Machine
end

