-- ==== Sys2Proof/Safety.lean ====
section
/-! DEFINITION. Safety.lean: what holds of the device in every state that a run can reach, in the terms the statements use: the fuses,
the life cycle and the stores that every reset keeps (R577), and the canonical form of the memories. -/

namespace Sys2Proof.Machine

/-- The identity seed is fused exactly while the device is PROVISIONED or OWNED (R524, R536, R537). -/
def Perm.seedOk (p : Perm) : Bool := p.seed.isSome == (p.lc == 1 || p.lc == 2)

/-- No security version counter is above 127 (R621). -/
def Perm.svnOk (p : Perm) : Bool := p.svn.all (fun e => decide (e.2 ≤ 127))

/-- What R577 keeps stays within its widths: the life-cycle state is one of four and fits the seed (R536), at most 32 ownership steps are
used (R537), the active area is one of two (R615), at most 1,024 sparing records are kept (R643), counters keep their widths (R522, R614,
R621) and the save store is in one of its states (R614). -/
def Perm.ok (p : Perm) : Bool :=
  decide (p.lc ≤ 3) && p.seedOk && decide (p.ownSteps ≤ 32) && decide (p.activeArea ≤ 1) && decide (p.spares.length ≤ 1024) && p.svnOk &&
    decide (p.epochCnt ≤ 65535) && decide (p.saveCount < 2 ^ 32) && decide (p.imageState ≤ 2) && decide (p.saveMark ≤ 2)

/-- The invariant of what resets keep. -/
def State.permOk (s : State) : Bool := s.perm.ok

/-- What no step undoes, from `s` to `t`: a retired device stays RETIRED (R536), and an ownership step stays used (R537). -/
def Perm.grows (p q : Perm) : Bool :=
  (p.lc != 3 || q.lc == 3) && (p.lc == 0 || q.lc != 0) && decide (p.ownSteps ≤ q.ownSteps)

/-- The canonical form of every byte memory: scratchpads, device memory and its keys, host memory, flash, NVMe queue memory. -/
def Core.memWf (c : Core) : Bool :=
  Memory.wf c.scratch && Memory.wf c.dram && c.dramKey.wf (fun _ => 0) && Memory.wf c.host && Memory.wf c.flash && Memory.wf c.qmem

/-! ### How the statements say what a command does -/

/-- The command answers a next state in which the device satisfies `P`; what resets keep and the queue are as they were. -/
def Answers (s : State) (i : Instr) (P : Core → Prop) : Prop :=
  ∃ c : Core, exec i s = .next { s with core := c } ∧ P c

/-- Everything of the device but its registers, tiles, partitions, events and the messages it has sent: the memories, items, records,
operations, queue pairs, keys and the rest. -/
def Core.others (c : Core) : Core := { c with regs := [], tiles := [], parts := [], evtBuf := [], out := [] }

/-- Nothing differs but registers, of which those that `ok` names may. -/
def Core.onlyRegs (c c' : Core) (ok : Nat → Prop) : Prop :=
  c'.others = c.others ∧ c'.tiles = c.tiles ∧ c'.parts = c.parts ∧ c'.evtBuf = c.evtBuf ∧ c'.out = c.out ∧
    ∀ r j, ¬ok (Reg.at r j) → c'.rd r j = c.rd r j

/-- Nothing but tile t's sequencer and its INSTR_COUNT differs. -/
def Core.onlySeq (c c' : Core) (t : Nat) : Prop :=
  c'.others = c.others ∧ c'.parts = c.parts ∧ c'.evtBuf = c.evtBuf ∧ c'.out = c.out ∧ (∀ u, u ≠ t → c'.tile u = c.tile u) ∧
    ∀ r j, Reg.at r j ≠ Regs.TILE_INSTR_COUNT.at t → c'.rd r j = c.rd r j

/-- Tile t's INSTR_COUNT has counted an instruction (R189). -/
def Core.counted (c c' : Core) (t : Nat) : Prop :=
  c'.rf Regs.TILE_INSTR_COUNT_COUNT t = min (c.rf Regs.TILE_INSTR_COUNT_COUNT t + 1) Regs.TILE_INSTR_COUNT_COUNT.top

/-- Tile t has retired an instruction of `len` bytes: it is counted and the pc has moved past it (R132). -/
def Core.retired (c c' : Core) (t len : Nat) : Prop := c.counted c' t ∧ (c'.tile t).pc = ((c.tile t).pc + len) % 2 ^ 22

/-- Tile t's sequencer is now `y`, the instruction is counted, and nothing else differs. -/
def Core.seqTo (c c' : Core) (t : Nat) (y : Tile) : Prop := c.onlySeq c' t ∧ c.counted c' t ∧ c'.tile t = y

/-- A program fault of tile t (R183, R186, R187): its sequencer has stopped, FAULT_INFO and PROGRAM_FAULT tell status, reason, opcode and pc,
and its partition's program is stopping with that status. -/
def Core.faults (c c' : Core) (t reason status major : Nat) : Prop :=
  let l := (c.who t).1
  let p := (c.who t).2
  let pc := (c.tile t).pc
  let w := status + reason * 65536 + major * 16777216 + pc * 4294967296
  (c'.tile t).run = 2 ∧ (c'.tile t).pc = pc ∧ c'.rd Regs.TILE_FAULT_INFO t = w % 2 ^ 64 ∧
    c'.evtBuf = c.evtBuf ++ [⟨Cls.item, Src.tile t, p, 0x0300, w % 2 ^ 64, (l + (c.tile t).imageTile * 2 ^ 8) % 2 ^ 64⟩] ∧
    ∃ pr, (c'.part p).prog = some pr ∧ pr.stopping = true ∧ pr.endStatus = status ∧ pr.fault = some (status, reason, l, pc)

/-- Tile t takes an instruction: its sequencer can issue, the fetch succeeds (R138), the encoding is legal (R136) and the guard is true
(R133). -/
def Core.takes_ (c : Core) (t : Nat) (reason : Option Nat) (guard : Nat) (neg : Bool) : Bool :=
  c.canIssue t && (c.fetchFault t).isNone && reason.isNone && (c.tile t).guardTrue guard neg

/-- The tile takes a scalar-format instruction. -/
def Core.takesS (c : Core) (x : SArgs) (op : SOp) : Bool := c.takes_ x.tile.val (x.ins op).reason x.guard.val x.neg

/-- The tile takes a tensor-format instruction: it takes it as above, its phase mark admits the phase (R166), its token has a count to give
(R156), and a record slot is there if it asks for one (R570). -/
def Core.takesT (c : Core) (x : TArgs) (op : TOp) : Bool :=
  let p := (c.who x.tile.val).2
  c.takes_ x.tile.val (x.ins op).reason x.guard.val x.neg && phaseOk op.uses.phase (c.part p).phase &&
    ((c.tile x.tile.val).token x.k.val).count != 255 && (!x.isRec op || c.canOpen p)

end Sys2Proof.Machine
end

