-- ==== Sys2Proof/Certificates/Slice0/Obligations.lean ====
section
/-! DEFINITION. Obligations.lean: the statements for the provers. -/

namespace Sys2Proof.Machine

/-! ### The scalar instructions -/

/-- The arithmetic instructions, each with what g[d] receives from g[a] and B (R195, R198). -/
def aluRows (x : SArgs) : List (Instr × SOp × (Word → Word → Word)) :=
  [(.add x, .ADD, fun a b => a + b), (.sub x, .SUB, fun a b => a - b), (.mul x, .MUL, fun a b => a * b),
   (.divu x, .DIVU, fun a b => if b = 0 then BitVec.allOnes 64 else a / b),
   (.remu x, .REMU, fun a b => if b = 0 then a else a % b),
   (.and x, .AND, fun a b => a &&& b), (.or x, .OR, fun a b => a ||| b), (.xor x, .XOR, fun a b => a ^^^ b),
   (.shl x, .SHL, fun a b => a <<< (b.toNat % 64)), (.shr x, .SHR, fun a b => a >>> (b.toNat % 64)),
   (.sar x, .SAR, fun a b => a.sshiftRight (b.toNat % 64)),
   (.mins x, .MINS, fun a b => if a.toInt < b.toInt then a else b), (.maxs x, .MAXS, fun a b => if a.toInt < b.toInt then b else a)]

/-- The comparisons, each with its relation between g[a] and B (R195). -/
def compareRows (x : SArgs) : List (Instr × SOp × (Word → Word → Bool)) :=
  [(.cmpeq x, .CMPEQ, fun a b => decide (a = b)), (.cmpne x, .CMPNE, fun a b => decide (a ≠ b)),
   (.cmplt x, .CMPLT, fun a b => decide (a.toInt < b.toInt)), (.cmpltu x, .CMPLTU, fun a b => decide (a.toNat < b.toNat)),
   (.cmpge x, .CMPGE, fun a b => decide (b.toInt ≤ a.toInt)), (.cmpgeu x, .CMPGEU, fun a b => decide (b.toNat ≤ a.toNat))]

/-- The predicate instructions (R195). -/
def predicateRows (x : SArgs) : List (Instr × SOp × (Bool → Bool → Bool)) :=
  [(.pand x, .PAND, fun a b => a && b), (.por x, .POR, fun a b => a || b), (.pxor x, .PXOR, fun a b => xor a b)]

/-- The tile has retired an instruction that writes `v` to g[d]: a write to g0 is discarded (R130), and nothing else of the sequencer
differs. -/
def Core.putsG (c c' : Core) (x : SArgs) (v : Word) : Prop :=
  c.retired c' x.tile.val (wideLen x.wide) ∧
    (∀ n, (c'.tile x.tile.val).gr n = if n = x.d.val ∧ n ≠ 0 then v else (c.tile x.tile.val).gr n) ∧
    { c'.tile x.tile.val with g := (c.tile x.tile.val).g, pc := (c.tile x.tile.val).pc } = c.tile x.tile.val

/-- The tile has retired an instruction that writes `v` to p[d]: a write to p7 is discarded (R130). -/
def Core.putsP (c c' : Core) (x : SArgs) (v : Bool) : Prop :=
  c.retired c' x.tile.val (wideLen x.wide) ∧
    (∀ n, n < 8 → (c'.tile x.tile.val).pr n = if n = x.d.val ∧ n ≠ 7 then v else (c.tile x.tile.val).pr n) ∧
    { c'.tile x.tile.val with p := (c.tile x.tile.val).p, pc := (c.tile x.tile.val).pc } = c.tile x.tile.val

/-- The system values of R131 with their numbers. -/
def systemValues (c : Core) (t : Nat) : List (Nat × Nat) :=
  let p := (c.who t).2
  let herd := fun (f : Fld) => if c.rf Regs.COL_HERD_CFG_VALID = 1 then c.rf f else 0x3FFF
  [(0, (c.who t).1), (1, (c.tile t).imageTile), (2, p), (3, ((c.part p).prog.map (fun r => r.tiles.length)).getD 0),
   (4, herd Regs.COL_HERD_CFG_DEV_ID), (5, herd Regs.COL_HERD_CFG_ORDINAL), (6, c.rf Regs.UPD_STEP_STEP (c.lead p)), (7, c.ts),
   (8, (c.part p).phase)]

end Sys2Proof.Machine

open Sys2Proof Sys2Proof.Machine

/-- ADD to MAXS, in their ordinary and wide forms: when the tile takes the instruction, the command answers a next state in which g[d] holds
the instruction's function of g[a] and B = g[b] + imm (B's addition and the results modulo 2^64; division by zero as R198 says; shift counts
modulo 64), a write to g0 is discarded, every other register of the tile, every other tile and every other register and memory of the device
is as it was, the instruction is counted and the pc has moved past it. CMPEQ to CMPGEU and PAND to PXOR: when the tile takes the instruction, the command answers a next state in which p[d] holds the relation
of g[a] and B, or the function of p[a] and p[b]; a write to p7 is discarded; nothing else differs but the count and the pc. -/
def Obligations.ScalarInstructions : Prop :=
  (∀ (x : SArgs) (s : State) (i : Instr) (op : SOp) (f : Word → Word → Word), (i, op, f) ∈ aluRows x → s.core.takesS x op = true →
      Answers s i (fun c => s.core.onlySeq c x.tile.val ∧
        s.core.putsG c x (f ((s.core.tile x.tile.val).gr x.a.val) ((s.core.tile x.tile.val).gr x.b.val + x.immWord)))) ∧
  ((∀ (x : SArgs) (s : State) (i : Instr) (op : SOp) (f : Word → Word → Bool), (i, op, f) ∈ compareRows x → s.core.takesS x op = true →
      Answers s i (fun c => s.core.onlySeq c x.tile.val ∧
        s.core.putsP c x (f ((s.core.tile x.tile.val).gr x.a.val) ((s.core.tile x.tile.val).gr x.b.val + x.immWord)))) ∧
    (∀ (x : SArgs) (s : State) (i : Instr) (op : SOp) (f : Bool → Bool → Bool), (i, op, f) ∈ predicateRows x → s.core.takesS x op = true →
      Answers s i (fun c => s.core.onlySeq c x.tile.val ∧
        s.core.putsP c x (f ((s.core.tile x.tile.val).pr x.a.val) ((s.core.tile x.tile.val).pr x.b.val)))))

/-- TADDR: bits [63:0] of t[d] become g[a] + B and its other bits stay. SYSV with the number of a system value: g[d] holds it. NOP: nothing but
the count and the pc. In each case the command answers that next state and nothing else differs. -/
def Obligations.TaddrSysvNop : Prop :=
  (∀ (x : SArgs) (s : State), s.core.takesS x .TADDR = true →
    Answers s (.taddr x) (fun c => s.core.onlySeq c x.tile.val ∧ s.core.retired c x.tile.val (wideLen x.wide) ∧
      (∀ n, (c.tile x.tile.val).t.get (fun _ => 0) n =
        if n = x.d.val then ((s.core.tile x.tile.val).t.get (fun _ => 0) n).extractLsb' 64 192 ++
          ((s.core.tile x.tile.val).gr x.a.val + ((s.core.tile x.tile.val).gr x.b.val + x.immWord))
        else (s.core.tile x.tile.val).t.get (fun _ => 0) n) ∧
      { c.tile x.tile.val with t := (s.core.tile x.tile.val).t, pc := (s.core.tile x.tile.val).pc } = s.core.tile x.tile.val)) ∧
  (∀ (x : SArgs) (s : State) (v : Nat), s.core.takesS x .SYSV = true → (x.imm.toNat, v) ∈ systemValues s.core x.tile.val →
    Answers s (.sysv x) (fun c => s.core.onlySeq c x.tile.val ∧ s.core.putsG c x (BitVec.ofNat 64 v))) ∧
  (∀ (x : SArgs) (s : State), s.core.takesS x .NOP = true →
    Answers s (.nop x) (fun c => s.core.onlySeq c x.tile.val ∧ s.core.retired c x.tile.val 8 ∧
      { c.tile x.tile.val with pc := (s.core.tile x.tile.val).pc } = s.core.tile x.tile.val))

namespace Sys2Proof.Machine

/-- The branches with their targets (R195). -/
def branchRows (x : SArgs) (y : Tile) : List (Instr × SOp × Word) :=
  [(.br x, .BR, BitVec.ofNat 64 y.pc + 8 * x.imm.signExtend 64), (.bri x, .BRI, y.gr x.a.val + x.immWord),
   (.call x, .CALL, BitVec.ofNat 64 y.pc + 8 * x.imm.signExtend 64)]

/-- CALL has written the address after it to g[d]; the other branches write no register (R195, R199). -/
def linked (i : Instr) (x : SArgs) (y : Tile) : Tile :=
  match i with | .call _ => y.setGr x.d.val (BitVec.ofNat 64 (y.pc + 8)) | _ => y

/-- Every token of a mask is signalled; no token of a mask holds a failure (R157, R158). -/
def Tile.allSignalled (y : Tile) (mask : Nat) : Prop := ∀ k, k < 16 → mask.testBit k = true → (y.token k).count = 0
def Tile.noFailure (y : Tile) (mask : Nat) : Prop := ∀ k, k < 16 → mask.testBit k = true → (y.token k).status = 0

/-- `st` is the status of the lowest-numbered token of the mask that holds a failure (R158). -/
def Tile.firstFailure (y : Tile) (mask st : Nat) : Prop :=
  ∃ k, k < 16 ∧ mask.testBit k = true ∧ (y.token k).status = st ∧ st ≠ 0 ∧ ∀ j, j < k → mask.testBit j = true → (y.token j).status = 0

end Sys2Proof.Machine

/-- A branch whose target is a multiple of 8 below 2^22 moves the pc there, CALL after it has written the next address to g[d], and nothing
else differs. A branch whose target is no multiple of 8 ends in a program fault with reason 5 and BOUNDS_EXCEEDED. (What becomes of a target
of 2^22 or more is this model's choice, assumption 12, and is not stated.) HALT of a tile whose 16 tokens are all signalled without a failure ends its stream; with a token outstanding the tile stalls at the HALT;
with all signalled and a failure among them it ends in a program fault with reason 8 and the status of the lowest-numbered failed token. -/
def Obligations.BranchesAndHalt : Prop :=
  (∀ (x : SArgs) (s : State) (i : Instr) (op : SOp) (w : Word), (i, op, w) ∈ branchRows x (s.core.tile x.tile.val) →
      s.core.takesS x op = true →
      (w.toNat % 8 = 0 → w.toNat < 2 ^ 22 →
        Answers s i (fun c => s.core.seqTo c x.tile.val { linked i x (s.core.tile x.tile.val) with pc := w.toNat })) ∧
      (w.toNat % 8 ≠ 0 → Answers s i (fun c => s.core.faults c x.tile.val 5 St.BOUNDS op.major))) ∧
  (∀ (x : SArgs) (s : State), s.core.takesS x .HALT = true →
      let y := s.core.tile x.tile.val
      (y.allSignalled 0xFFFF → y.noFailure 0xFFFF → Answers s (.halt x) (fun c => s.core.seqTo c x.tile.val { y with run := 3 })) ∧
      (¬y.allSignalled 0xFFFF → Answers s (.halt x) (fun c => s.core.seqTo c x.tile.val { y with stall := some .halt })) ∧
      (∀ st, y.allSignalled 0xFFFF → y.firstFailure 0xFFFF st →
        Answers s (.halt x) (fun c => s.core.faults c x.tile.val 8 st 0x1F)))

/-- WAIT on tokens that are signalled without a failure moves on; with a failure it ends in a program fault with reason 7 and the status of
the lowest-numbered failed token. WAITT on signalled tokens writes that status, or 0, to g[d], clears the statuses of its tokens and moves on.
With a token outstanding both stall. Nothing else differs. WAITF and WAITFC name flag imm[4:0] and the threshold imm[36:5]: with the flag at or above the threshold the tile moves on, WAITFC having
taken the threshold from the flag; below it the tile stalls. Nothing else differs. -/
def Obligations.Waits : Prop :=
  (∀ (x : SArgs) (s : State),
      let y := s.core.tile x.tile.val
      let mask := x.imm.toNat % 65536
      (s.core.takesS x .WAIT = true →
        (y.allSignalled mask → y.noFailure mask →
          Answers s (.wait x) (fun c => s.core.seqTo c x.tile.val { y with pc := (y.pc + 8) % 2 ^ 22 })) ∧
        (¬y.allSignalled mask →
          Answers s (.wait x) (fun c => s.core.seqTo c x.tile.val { y with stall := some (.tokens mask none 8) })) ∧
        (∀ st, y.allSignalled mask → y.firstFailure mask st → Answers s (.wait x) (fun c => s.core.faults c x.tile.val 7 st 0xC0))) ∧
      (s.core.takesS x .WAITT = true →
        (¬y.allSignalled mask →
          Answers s (.waitt x) (fun c => s.core.seqTo c x.tile.val { y with stall := some (.tokens mask (some x.d.val) 8) })) ∧
        (∀ st, y.allSignalled mask → (y.firstFailure mask st ∨ (y.noFailure mask ∧ st = 0)) →
          Answers s (.waitt x) (fun c => s.core.onlySeq c x.tile.val ∧ s.core.retired c x.tile.val 8 ∧
            (∀ n, (c.tile x.tile.val).gr n = if n = x.d.val ∧ n ≠ 0 then BitVec.ofNat 64 st else y.gr n) ∧
            (∀ k, k < 16 → (c.tile x.tile.val).token k = if mask.testBit k then { y.token k with status := 0 } else y.token k) ∧
            { c.tile x.tile.val with g := y.g, tok := y.tok, pc := y.pc } = y)))) ∧
  (∀ (x : SArgs) (s : State),
      let y := s.core.tile x.tile.val
      let n := bits x.imm.toNat 4 0
      let thr := bits x.imm.toNat 36 5
      (s.core.takesS x .WAITF = true →
        (thr ≤ y.fl n → Answers s (.waitf x) (fun c => s.core.seqTo c x.tile.val { y with pc := (y.pc + 8) % 2 ^ 22 })) ∧
        (y.fl n < thr → Answers s (.waitf x) (fun c => s.core.seqTo c x.tile.val { y with stall := some (.flag n thr false) }))) ∧
      (s.core.takesS x .WAITFC = true →
        (thr ≤ y.fl n → Answers s (.waitfc x) (fun c => s.core.onlySeq c x.tile.val ∧ s.core.retired c x.tile.val 8 ∧
          (∀ m, (c.tile x.tile.val).fl m = if m = n then y.fl n - thr else y.fl m) ∧
          { c.tile x.tile.val with flags := y.flags, pc := y.pc } = y)) ∧
        (y.fl n < thr → Answers s (.waitfc x) (fun c => s.core.seqTo c x.tile.val { y with stall := some (.flag n thr true) }))))

/-- SIGNAL to a mapped logical tile of the partition: the tile's flag imm[4:0] grows by imm[20:5] + 1, saturating at 2^32 - 1; a tile that waits
for that much goes on, with the threshold taken if it waits in WAITFC; a tile that runs, or waits for another thing, only holds the flag. The signalling tile moves on. A logical tile above 255 or unmapped ends
in a program fault with BOUNDS_EXCEEDED, one of another partition with PROTECTION. -/
def Obligations.Signal : Prop :=
  ∀ (x : SArgs) (s : State), s.core.takesS x .SIGNAL = true →
    let t := x.tile.val
    let y := s.core.tile t
    let l := (y.gr x.a.val).toNat
    let n := bits x.imm.toNat 4 0
    let v := bits x.imm.toNat 20 5 + 1
    (∀ u z, l ≤ 255 → s.core.phys l = some u → s.core.ownsGroup (s.core.who t).2 (l / 16) = true → s.core.tile u = z → u ≠ t →
      (z.stall = none ∨ (∃ m thr k, z.stall = some (.flag m thr k)) ∨ (∃ b, z.stall = some (.barrier b)) ∨
        ∃ mask tol len, z.stall = some (.tokens mask tol len) ∧ ¬z.allSignalled mask) →
      let f := min (z.fl n + v) (2 ^ 32 - 1)
      Answers s (.signal x) (fun c => s.core.retired c t 8 ∧ { c.tile t with pc := y.pc } = y ∧
        (∀ w, w ≠ t → w ≠ u → c.tile w = s.core.tile w) ∧ c.others = s.core.others ∧ c.parts = s.core.parts ∧ c.evtBuf = s.core.evtBuf ∧
        ((∀ m thr k, z.stall ≠ some (.flag m thr k)) →
          (∀ m, (c.tile u).fl m = if m = n then f else z.fl m) ∧ { c.tile u with flags := z.flags } = z) ∧
        (∀ thr consume, z.stall = some (.flag n thr consume) → thr ≤ f →
          (c.tile u).stall = none ∧ (c.tile u).pc = (z.pc + 8) % 2 ^ 22 ∧
          ∀ m, (c.tile u).fl m = if m = n then (if consume then f - thr else f) else z.fl m) ∧
        (∀ thr consume, z.stall = some (.flag n thr consume) → f < thr →
          (c.tile u).stall = z.stall ∧ (c.tile u).pc = z.pc ∧ ∀ m, (c.tile u).fl m = if m = n then f else z.fl m))) ∧
    (l ≤ 255 → s.core.phys l = some t → s.core.ownsGroup (s.core.who t).2 (l / 16) = true →
      Answers s (.signal x) (fun c => s.core.onlySeq c t ∧ s.core.retired c t 8 ∧
        (∀ m, (c.tile t).fl m = if m = n then min (y.fl n + v) (2 ^ 32 - 1) else y.fl m) ∧ { c.tile t with flags := y.flags, pc := y.pc } = y)) ∧
    ((255 < l ∨ s.core.phys l = none) → Answers s (.signal x) (fun c => s.core.faults c t 5 St.BOUNDS 0xC2)) ∧
    (l ≤ 255 → (s.core.phys l).isSome = true → s.core.ownsGroup (s.core.who t).2 (l / 16) = false →
      Answers s (.signal x) (fun c => s.core.faults c t 5 St.PROTECTION 0xC2))

/-- EVENT with a code of 0x8000 or more in g[a] posts that Informational event of the partition, with g[b] and g[d] as its information words,
and moves on. CQPOST with a status of 0x8000 or more to an enabled completion queue, a record slot being free, adds the record (tag g[b],
status g[a], the tile, ORIGIN 2) to those that wait, and moves on. A code or status below 0x8000 ends in a program fault with LENGTH_INVALID, a
queue that is not enabled with BOUNDS_EXCEEDED. -/
def Obligations.EventAndCqpost : Prop :=
  ∀ (x : SArgs) (s : State),
    let t := x.tile.val
    let y := s.core.tile t
    let l := (s.core.who t).1
    let p := (s.core.who t).2
    let v := (y.gr x.a.val).toNat % 65536
    let q := bits x.imm.toNat 5 0
    (s.core.takesS x .EVENT = true →
      (0x8000 ≤ v → Answers s (.event x) (fun c => s.core.retired c t 8 ∧ { c.tile t with pc := y.pc } = y ∧
        c.evtBuf = s.core.evtBuf ++ [⟨Cls.info, Src.part p, p, v, (y.gr x.b.val).toNat, (y.gr x.d.val).toNat⟩] ∧
        c.others = s.core.others ∧ c.parts = s.core.parts ∧ ∀ u, u ≠ t → c.tile u = s.core.tile u)) ∧
      (v < 0x8000 → Answers s (.event x) (fun c => s.core.faults c t 5 St.LENGTH 0xC6))) ∧
    (s.core.takesS x .CQPOST = true →
      (0x8000 ≤ v → s.core.rf Regs.HIF_CQ_CFG_ENABLE (qi p q) = 1 → s.core.slotsUsed p ≠ 4096 →
        Answers s (.cqpost x) (fun c => s.core.retired c t 8 ∧ { c.tile t with pc := y.pc } = y ∧
          c.recs = s.core.recs ++ [{ part := p, cq := q, tag := (y.gr x.b.val).toNat, status := v, sq := 0, origin := 2, ltile := l, entry := 0,
                                     info := 0, ts := s.core.ts }] ∧
          c.items = s.core.items ∧ c.evtBuf = s.core.evtBuf ∧ c.parts = s.core.parts ∧ ∀ u, u ≠ t → c.tile u = s.core.tile u)) ∧
      (v < 0x8000 → Answers s (.cqpost x) (fun c => s.core.faults c t 5 St.LENGTH 0xC7)) ∧
      (0x8000 ≤ v → s.core.rf Regs.HIF_CQ_CFG_ENABLE (qi p q) ≠ 1 → Answers s (.cqpost x) (fun c => s.core.faults c t 5 St.BOUNDS 0xC7)))

/-- PHASE of a tile whose compute units still have operations stalls until they end. With them drained and no tile of the program in the other
barrier the tile arrives: it waits while another tile of the program has not arrived; when every tile of the program has arrived at a
PHASE-bwd barrier, and no clamp or activation holds it, the partition's phase becomes backward and every tile moves past its PHASE. PHASE bwd
from the phase NONE ends in a program fault with reason 4. STEST with no stash operation of the tile in progress writes to p[d] whether the
entry is Resident or Spilled, and moves on; else it stalls. -/
def Obligations.PhaseAndStest : Prop :=
  ∀ (x : SArgs) (s : State),
    let t := x.tile.val
    let y := s.core.tile t
    let l := (s.core.who t).1
    let p := (s.core.who t).2
    let bwd := x.imm.toNat % 2 == 1
    let e := x.imm.toNat % 2 ^ 17
    let drain := s.core.ops.any (fun o => o.ltile == l && o.part == p && drained o.major)
    let stash := s.core.ops.any (fun o => o.ltile == l && o.part == p && isStash o.major)
    (s.core.takesS x .PHASE = true → (bwd = false ∨ (s.core.part p).phase ≠ 0) →
      (drain = true → Answers s (.phase x) (fun c => s.core.seqTo c t { y with stall := some (.drain bwd) })) ∧
      (∀ pr, drain = false → (s.core.part p).prog = some pr →
        (∃ m ∈ pr.tiles, ∃ u, u ≠ t ∧ s.core.phys m = some u ∧ (s.core.tile u).stall = none) →
        (∀ m ∈ pr.tiles, ∀ u, s.core.phys m = some u → (s.core.tile u).stall ≠ some (.barrier (!bwd))) →
        Answers s (.phase x) (fun c => s.core.seqTo c t { y with stall := some (.barrier bwd) })) ∧
      (∀ pr, drain = false → bwd = true → (s.core.part p).prog = some pr → pr.tiles = [l] → s.core.phys l = some t →
        s.core.partClamped p = false → s.core.fwWaits = false →
        Answers s (.phase x) (fun c => (c.part p).phase = 2 ∧ c.tile t = { y with pc := (y.pc + 8) % 2 ^ 22 } ∧ c.others = s.core.others))) ∧
    (s.core.takesS x .PHASE = true → bwd = true → (s.core.part p).phase = 0 →
      Answers s (.phase x) (fun c => s.core.faults c t 4 St.ILLEGAL 0xC5)) ∧
    (s.core.takesS x .STEST = true →
      (stash = true → Answers s (.stest x) (fun c => s.core.seqTo c t { y with stall := some (.stest x.d.val e) })) ∧
      (stash = false → Answers s (.stest x) (fun c => s.core.onlySeq c t ∧
        s.core.putsP c x (y.stash.any (fun r => r.name == e && (r.loc == .resident || r.loc == .spilled))))))

/-- ILLEGAL_INSTRUCTION with a word that decoding refuses: a tile that can issue and fetches it takes a program fault with ILLEGAL_INSTRUCTION
and the reason of the refusal, whatever its guard; its program stops. With a word that decodes, the command changes nothing. -/
def Obligations.IllegalInstruction : Prop :=
  ∀ (t : PTile) (w next : Word) (s : State),
    (∀ reason len, decodeDioth w next = .illegal reason len → s.core.canIssue t.val = true → s.core.fetchFault t.val = none →
      Answers s (.illegalInstruction t w next) (fun c => s.core.counted c t.val ∧ s.core.faults c t.val reason St.ILLEGAL (w.toNat / 2 ^ 56))) ∧
    (∀ i len, decodeDioth w next = .ins i len → exec (.illegalInstruction t w next) s = .next s)

namespace Sys2Proof.Machine

/-- The device as a tile's instruction finds it: the instruction is counted. -/
def Core.atIssue (c : Core) (t : Nat) : Core := c.count Regs.TILE_INSTR_COUNT_COUNT t

/-- The scalar loads, each with its bytes, the spaces it accepts and what g[d] receives (R201). -/
def loadRows (x : SArgs) : List (Instr × SOp × Nat × (List Byte → Word)) :=
  let zero := fun (bs : List Byte) => BitVec.ofNat 64 (leNat bs)
  let sign := fun (bs : List Byte) => BitVec.ofInt 64 (signed (8 * bs.length) (leNat bs))
  [(.ld1 x, .LD1, 1, zero), (.ld2 x, .LD2, 2, zero), (.ld4 x, .LD4, 4, zero), (.ld8 x, .LD8, 8, zero),
   (.lds1 x, .LDS1, 1, sign), (.lds2 x, .LDS2, 2, sign), (.lds4 x, .LDS4, 4, sign)]

/-- The scalar stores, each with its bytes, the spaces it accepts and the value stored (R201). -/
def storeRows (x : SArgs) (y : Tile) : List (Instr × SOp × Nat × Nat × Nat) :=
  let v := (y.gr x.b.val).toNat
  [(.st1 x, .ST1, 1, 0b1000111, v), (.st2 x, .ST2, 2, 0b1000111, v), (.st4 x, .ST4, 4, 0b1000111, v), (.st8 x, .ST8, 8, 0b1000111, v),
   (.stt x, .STT, 32, 1, (y.t.get (fun _ => 0) x.d.val).toNat)]

/-- The places of the n bytes of a scalar access of the tile. -/
def Core.bytePlaces (c : Core) (x : SArgs) (n : Nat) : List Place :=
  let w := c.who x.tile.val
  (upFrom 0 n).map (c.place w.2 w.1 (SArgs.address x (c.tile x.tile.val)))

/-- The device once the bytes of a scalar access of the tile are reached: its banks are awake and its replays are counted. -/
def Core.reached (c : Core) (x : SArgs) (n : Nat) (write : Bool) : Core :=
  let ps := c.bytePlaces x n
  (c.wakePlaces ps).replayed (ps.map (fun q => (q, if write then (if n < 4 then 4 else 0) else 64))) x.env

/-- A scalar access of n bytes passes every check and the memories hold its bytes. -/
def Core.accessOk (c : Core) (x : SArgs) (n spaces : Nat) (write : Bool) : Prop :=
  let w := c.who x.tile.val
  let a := SArgs.address x (c.tile x.tile.val)
  c.scalarCheck w.2 w.1 a n spaces write = 0 ∧ (c.scalarFault w.2 w.1 a n write x.env).1 = 0

/-- A byte of a memory the device has: within a tile's space 0x0, or anywhere else. -/
def Place.inDevice : Place → Prop
  | .scratch t o => t < 272 ∧ o < 0x300000
  | _ => True

end Sys2Proof.Machine

/-- LD1 to LD8 and LDS1 to LDS4 whose access passes its checks answer a next state in which g[d] holds the bytes at the address, little-endian,
zero-extended or sign-extended; LDT brings 32 bytes of the tile's own space to t[d]. The memories and everything else are as in the device with
the banks of the access awake (a bank that was off reads zero) and its replays counted. -/
def Obligations.Loads : Prop :=
  (∀ (x : SArgs) (s : State) (i : Instr) (op : SOp) (n : Nat) (f : List Byte → Word), (i, op, n, f) ∈ loadRows x →
    s.core.takesS x op = true → (s.core.atIssue x.tile.val).accessOk x n 0b1000111 false →
    let c0 := s.core.atIssue x.tile.val
    let c1 := c0.reached x n false
    Answers s i (fun c => c.others = c1.others ∧ c.parts = c1.parts ∧ (∀ u, u ≠ x.tile.val → c.tile u = s.core.tile u) ∧
      s.core.putsG c x (f ((c0.bytePlaces x n).map c1.readPlace)))) ∧
  (∀ (x : SArgs) (s : State), s.core.takesS x .LDT = true → (s.core.atIssue x.tile.val).accessOk x 32 1 false →
    let c0 := s.core.atIssue x.tile.val
    let c1 := c0.reached x 32 false
    let y := s.core.tile x.tile.val
    Answers s (.ldt x) (fun c => c.others = c1.others ∧ c.parts = c1.parts ∧ (∀ u, u ≠ x.tile.val → c.tile u = s.core.tile u) ∧
      s.core.retired c x.tile.val (wideLen x.wide) ∧
      (∀ m, (c.tile x.tile.val).t.get (fun _ => 0) m =
        if m = x.d.val then BitVec.ofNat 256 (leNat ((c0.bytePlaces x 32).map c1.readPlace)) else y.t.get (fun _ => 0) m) ∧
      { c.tile x.tile.val with t := y.t, pc := y.pc } = y))

/-- ST1 to ST8 and STT whose access passes its checks answer a next state in which byte k of the address holds byte k of the stored value,
every other byte of every memory reads as in the device with the banks of the access awake and its replays counted, the tile has moved on, and no other tile, no
item, record, operation or event differs. -/
def Obligations.Stores : Prop :=
  ∀ (x : SArgs) (s : State) (i : Instr) (op : SOp) (n spaces v : Nat), (i, op, n, spaces, v) ∈ storeRows x (s.core.tile x.tile.val) →
    s.core.takesS x op = true → (s.core.atIssue x.tile.val).accessOk x n spaces true →
    let c0 := s.core.atIssue x.tile.val
    let c1 := c0.reached x n true
    Answers s i (fun c =>
      (c0.bytePlaces x n).map c.readPlace = leBytes n v ∧
      (∀ q : Place, q.inDevice → q ∉ c0.bytePlaces x n → c.readPlace q = c1.readPlace q) ∧
      s.core.retired c x.tile.val (wideLen x.wide) ∧ { c.tile x.tile.val with pc := (s.core.tile x.tile.val).pc } = s.core.tile x.tile.val ∧
      (∀ u, u ≠ x.tile.val → c.tile u = s.core.tile u) ∧ c.items = s.core.items ∧ c.recs = s.core.recs ∧ c.ops = s.core.ops ∧
      c.evtBuf = s.core.evtBuf)

/-- A scalar load or store whose address is no multiple of its size ends in a program fault with reason 5 and BOUNDS_EXCEEDED, and no byte of
memory differs. -/
def Obligations.MisalignedAccess : Prop :=
  ∀ (x : SArgs) (s : State) (i : Instr) (op : SOp) (n : Nat),
    ((∃ f, (i, op, n, f) ∈ loadRows x) ∨ (i = .ldt x ∧ op = .LDT ∧ n = 32) ∨ ∃ spaces v, (i, op, n, spaces, v) ∈ storeRows x (s.core.tile x.tile.val)) →
    s.core.takesS x op = true → SArgs.address x (s.core.tile x.tile.val) % n ≠ 0 →
    Answers s i (fun c => s.core.faults c x.tile.val 5 St.BOUNDS op.major ∧ ∀ q, c.readPlace q = s.core.readPlace q)

namespace Sys2Proof.Machine

/-! ### The tensor instructions -/

/-- A tensor-format instruction, the operation it starts, what follows its issue and what it does. -/
abbrev TRow := Instr × TOp × (Core → Core) × (Core → Nat → Nat → OpRes)

/-- The data movement instructions. -/
def dataRows (x : TArgs) : List TRow :=
  [(.copy x, .COPY, Core.flushSlow, fun (c : Core) (l p : Nat) => c.opCopy x l p),
   (.fill x, .FILL, Core.flushSlow, fun (c : Core) (l p : Nat) => c.opFill x l p),
   (.gather x, .GATHER, Core.flushSlow, fun (c : Core) (l p : Nat) => c.opRows x l p true),
   (.scatter x, .SCATTER, Core.flushSlow, fun (c : Core) (l p : Nat) => c.opRows x l p false)]

/-- The matrix instructions and the reductions. -/
def matrixRows (x : TArgs) : List TRow :=
  [(.mm x, .MM, id, fun (c : Core) (l p : Nat) => c.opMatrix .mm x l p),
   (.mmsp x, .MMSP, id, fun (c : Core) (l p : Nat) => c.opMatrix .sp x l p),
   (.mmbs x, .MMBS, id, fun (c : Core) (l p : Nat) => c.opMatrix .bs x l p),
   (.mm32 x, .MM32, id, fun (c : Core) (l p : Nat) => c.opMatrix .m32 x l p),
   (.vrsum x, .VRSUM, id, fun (c : Core) (l p : Nat) => c.opReduce x l p (reduce64 add32)),
   (.vrmax x, .VRMAX, id, fun (c : Core) (l p : Nat) => c.opReduce x l p (reduce64 max32)),
   (.vnormsq x, .VNORMSQ, id, fun (c : Core) (l p : Nat) => c.opReduce x l p (fun xs => reduce64 add32 (xs.map (fun e => mul32 e e)))),
   (.vsoftmax x, .VSOFTMAX, id, fun (c : Core) (l p : Nat) => c.opSoftmax x l p)]

/-- The codec instructions. -/
def codecRows (x : TArgs) : List TRow :=
  [(.cbload x, .CBLOAD, id, fun (c : Core) (l p : Nat) => c.opCbload x l p),
   (.encode x, .ENCODE, id, fun (c : Core) (l p : Nat) => c.opEncode x l p),
   (.decode x, .DECODE, id, fun (c : Core) (l p : Nat) => c.opDecode x l p),
   (.enc16 x, .ENC16, id, fun (c : Core) (l p : Nat) => c.opEnc16 x l p)]

/-- The remote operations. -/
def remoteRows (x : TArgs) : List TRow :=
  [(.rput x, .RPUT, id, fun (c : Core) (l p : Nat) => c.opRemote x 1 l p),
   (.rget x, .RGET, id, fun (c : Core) (l p : Nat) => c.opRemote x 3 l p),
   (.ratom x, .RATOM, id, fun (c : Core) (l p : Nat) => c.opRemote x 5 l p),
   (.rsend x, .RSEND, id, fun (c : Core) (l p : Nat) => c.opRemote x 2 l p),
   (.rrecv x, .RRECV, id, fun (c : Core) (l p : Nat) => c.opRemote x 0 l p)]

/-- The collectives. -/
def collRows (x : TArgs) : List TRow :=
  [(.rscat x, .RSCAT, Core.settleColl, fun (c : Core) (l p : Nat) => c.opColl x kRSCAT l p),
   (.agath x, .AGATH, Core.settleColl, fun (c : Core) (l p : Nat) => c.opColl x kAGATH l p),
   (.a2a x, .A2A, Core.settleColl, fun (c : Core) (l p : Nat) => c.opColl x kA2A l p),
   (.ring x, .RING, Core.settleColl, fun (c : Core) (l p : Nat) => c.opColl x kRING l p),
   (.audit x, .AUDIT, Core.settleColl, fun (c : Core) (l p : Nat) => c.opColl x kAUDIT l p),
   (.ckpt x, .CKPT, Core.settleColl, fun (c : Core) (l p : Nat) => c.opCkpt x l p)]

/-- The update instructions and ROUTE. -/
def updateRows (x : TArgs) : List TRow :=
  [(.update x, .UPDATE, id, fun (c : Core) (l p : Nat) => c.opUpdate x false l p),
   (.updprog x, .UPDPROG, id, fun (c : Core) (l p : Nat) => c.opUpdate x true l p),
   (.lscale x, .LSCALE, id, fun (c : Core) (l p : Nat) => c.opLscale x l p),
   (.exportOp x, .EXPORT, id, fun (c : Core) (l p : Nat) => c.opExport x l p),
   (.rowupd x, .ROWUPD, id, fun (c : Core) (l p : Nat) => c.opRowupd x l p),
   (.route x, .ROUTE, id, fun (c : Core) (l p : Nat) => c.opRoute x l p)]

/-- The elementwise instructions (R212). -/
def elementRows (x : TArgs) : List TRow :=
  [(.vadd x, .VADD, id, fun (c : Core) (l p : Nat) => c.opElementwise x l p (c.src2 x) (fun m xs => addNum m (arg xs 0) (arg xs 1))),
   (.vsub x, .VSUB, id, fun (c : Core) (l p : Nat) => c.opElementwise x l p (c.src2 x) (fun m xs => addNum m (arg xs 0) (arg xs 1).negate)),
   (.vmul x, .VMUL, id, fun (c : Core) (l p : Nat) => c.opElementwise x l p (c.src2 x) (fun _ xs => mulNum (arg xs 0) (arg xs 1))),
   (.vfma x, .VFMA, id, fun (c : Core) (l p : Nat) => c.opElementwise x l p (c.src3 x) (fun m xs => addNum m (mulNum (arg xs 0) (arg xs 1)) (arg xs 2))),
   (.vmax x, .VMAX, id, fun (c : Core) (l p : Nat) => c.opElementwise x l p (c.src2 x) (fun _ xs => maxNum (arg xs 0) (arg xs 1))),
   (.vmin x, .VMIN, id, fun (c : Core) (l p : Nat) => c.opElementwise x l p (c.src2 x) (fun _ xs => minNum (arg xs 0) (arg xs 1))),
   (.vcvt x, .VCVT, id, fun (c : Core) (l p : Nat) => c.opElementwise x l p (c.src1 x) (fun _ xs => arg xs 0)),
   (.vscale x, .VSCALE, id, fun (c : Core) (l p : Nat) => c.opElementwise x l p (c.src1 x) (fun _ xs => mulNum (arg xs 0) (.fin false (Q.pow2 (signed 8 (bits x.mods.toNat 10 3)))))),
   (.vexp x, .VEXP, id, fun (c : Core) (l p : Nat) => c.opElementwise x l p (c.src1 x) (fun _ xs => expNum (arg xs 0))),
   (.vrecip x, .VRECIP, id, fun (c : Core) (l p : Nat) => c.opElementwise x l p (c.src1 x) (fun _ xs => divNum (.fin false (Q.ofNat 1)) (arg xs 0))),
   (.vrsqrt x, .VRSQRT, id, fun (c : Core) (l p : Nat) => c.opElementwise x l p (c.src1 x) (fun _ xs => rsqrtNum (arg xs 0)))]

/-- The forms that save to the stash (R220). -/
def saveRows (x : TArgs) : List TRow :=
  [(.srelu x, .SRELU, id, fun (c : Core) (l p : Nat) => c.opStash x l p 1 false (fun _ => reluS)),
   (.sdrop x, .SDROP, id, fun (c : Core) (l p : Nat) => c.opStash x l p 1 false (fun _ => dropS (TArgs.dropT x) (TArgs.dropSeed x) (c.stepOf p))),
   (.sabs x, .SABS, id, fun (c : Core) (l p : Nat) => c.opStash x l p 1 false absS),
   (.sclamp x, .SCLAMP, id, fun (c : Core) (l p : Nat) => c.opStash x l p 2 (TArgs.badBounds x) (fun _ => clampS (TArgs.lo x) (TArgs.hi x)))]

/-- The gradient forms (R220). -/
def gradFormRows (x : TArgs) : List TRow :=
  [(.grelu x, .GRELU, id, fun (c : Core) (l p : Nat) => c.opGrad x l p 1 reluG),
   (.gdrop x, .GDROP, id, fun (c : Core) (l p : Nat) => c.opGrad x l p 1 (dropG (TArgs.dropT x))),
   (.gabs x, .GABS, id, fun (c : Core) (l p : Nat) => c.opGrad x l p 1 absG),
   (.gclamp x, .GCLAMP, id, fun (c : Core) (l p : Nat) => c.opGrad x l p 2 clampG),
   (.grelux x, .GRELUX, id, fun (c : Core) (l p : Nat) => c.opGradX x l p true false reluG (fun _ => reluS)),
   (.gdropx x, .GDROPX, id, fun (c : Core) (l p : Nat) => c.opGradX x l p false false (dropG (TArgs.dropT x)) (fun _ => dropS (TArgs.dropT x) (TArgs.dropSeed x) (c.stepOf p))),
   (.gabsx x, .GABSX, id, fun (c : Core) (l p : Nat) => c.opGradX x l p true false absG absS),
   (.gclampx x, .GCLAMPX, id, fun (c : Core) (l p : Nat) => c.opGradX x l p true (TArgs.badBounds x) clampG (fun _ => clampS (TArgs.lo x) (TArgs.hi x)))]

/-- Each tensor-format instruction with the operation it starts and what follows the issue: the messages to remote row groups (R382), or those of
the collective engines (R463). -/
def tensorRows (x : TArgs) : List TRow :=
  dataRows x ++ matrixRows x ++ codecRows x ++ remoteRows x ++ collRows x ++
    updateRows x ++ elementRows x ++ saveRows x ++ gradFormRows x

/-- The byte memories of the device. -/
def Core.mems (c : Core) : SMap Byte × SMap Byte × SMap Nat × SMap Byte × SMap Byte × SMap (Option Byte) :=
  (c.scratch, c.dram, c.dramKey, c.host, c.flash, c.remoteOut)

/-- From device `b`, in which its effect stands, the operation of an instruction is in progress with a status (or waits for a later command):
the pc has moved past the instruction, its token counts one more, and no other token and no other tile differs. -/
def Core.started (b c : Core) (x : TArgs) (op : TOp) (st : Nat) (wait : Bool) : Prop :=
  let t := x.tile.val
  let y := b.tile t
  (c.tile t).pc = (y.pc + wideLen x.wide) % 2 ^ 22 ∧
    (∀ j, (c.tile t).token j = if j = x.k.val then { y.token j with count := (y.token j).count + 1 } else y.token j) ∧
    (∀ u, u ≠ t → c.tile u = b.tile u) ∧ c.parts = b.parts ∧
    ∃ o, c.ops = b.ops ++ [o] ∧ o.part = (b.who t).2 ∧ o.ltile = (b.who t).1 ∧ o.tok = x.k.val ∧ o.major = op.uses.major ∧ o.status = st ∧
      o.wait = wait

/-- The device as a unit finds it when it runs a tile's instruction: the instruction is counted and no bank is touched yet. -/
def Core.atUnit (c : Core) (t : Nat) : Core := { c.atIssue t with touched := [], dests := [], rowAccess := false }

/-- A record is not asked for, or its completion queue is enabled (R191). -/
def Core.recordOk (c : Core) (x : TArgs) (op : TOp) : Prop :=
  x.isRec op = false ∨ c.flag Regs.HIF_CQ_CFG_ENABLE (qi (c.who x.tile.val).2 x.cq) = true

/-- The memories take every operand of an operation: `b` is the device with their banks awake (R338). -/
def Core.runsFrom (c b : Core) (x : TArgs) (ops : List Operand) (shape inPlace : Bool) : Prop :=
  let w := c.who x.tile.val
  (c.atUnit x.tile.val).issueChecks w.2 w.1 ops shape inPlace = 0 ∧ (c.atUnit x.tile.val).memFaults w.2 w.1 ops x.env = (0, b)

/-- Operands of a unit: the destination and the sources. -/
def unitOps (td : Desc) (srcs : List Desc) (spaces : Nat) : List Operand :=
  { d := td, dest := true, spaces := spaces } :: srcs.map (fun d => { d := d, spaces := spaces, licensed := true })

/-- The instructions that write one value to each element of td, over device `b`: operands, the shape they need, whether td may be their first
source, and the bits that each index receives (R203, R211-R218, R307, R83). -/
def valueRows (b : Core) (x : TArgs) (y : Tile) (p l : Nat) :
    List (Instr × TOp × List Operand × Bool × Bool × (Nat × Nat × Nat × Nat → Nat)) :=
  let td := y.desc x.td.val
  let ta := y.desc x.ta.val
  let tb := y.desc x.tb.val
  let tc := y.desc x.tc.val
  let m := TArgs.rnd x
  let el := b.vecEl p l
  let one := unitOps td [ta] spUnit
  let two := unitOps td [ta, tb] spUnit
  let three := unitOps td [ta, tb, tc] spUnit
  let s1 := td.isFP && (ta.isFP && ta.fits td)
  let s2 := td.isFP && (ta.isFP && ta.fits td && (tb.isFP && tb.fits td))
  let s3 := td.isFP && (ta.isFP && ta.fits td && (tb.isFP && tb.fits td && (tc.isFP && tc.fits td)))
  let out := roundNum td.ffmt m
  [(.vadd x, .VADD, two, s2, true, fun i => out (addNum m (el ta i) (el tb i))),
   (.vsub x, .VSUB, two, s2, true, fun i => out (addNum m (el ta i) (el tb i).negate)),
   (.vmul x, .VMUL, two, s2, true, fun i => out (mulNum (el ta i) (el tb i))),
   (.vfma x, .VFMA, three, s3, true, fun i => out (addNum m (mulNum (el ta i) (el tb i)) (el tc i))),
   (.vmax x, .VMAX, two, s2, true, fun i => out (maxNum (el ta i) (el tb i))),
   (.vmin x, .VMIN, two, s2, true, fun i => out (minNum (el ta i) (el tb i))),
   (.vcvt x, .VCVT, one, s1, true, fun i => out (el ta i)),
   (.vscale x, .VSCALE, one, s1, true, fun i => out (mulNum (el ta i) (.fin false (Q.pow2 (signed 8 (bits x.mods.toNat 10 3)))))),
   (.vexp x, .VEXP, one, s1, true, fun i => out (expNum (el ta i))),
   (.vrecip x, .VRECIP, one, s1, true, fun i => out (divNum (.fin false (Q.ofNat 1)) (el ta i))),
   (.vrsqrt x, .VRSQRT, one, s1, true, fun i => out (rsqrtNum (el ta i)))]

/-- The reductions along RED of ta (R214): the result of the FP32 line of each destination index. -/
def reduceRows (x : TArgs) : List (Instr × TOp × (List Nat → Nat)) :=
  [(.vrsum x, .VRSUM, reduce64 add32), (.vrmax x, .VRMAX, reduce64 max32),
   (.vnormsq x, .VNORMSQ, fun xs => reduce64 add32 (xs.map (fun e => mul32 e e)))]

end Sys2Proof.Machine

/-- Each tensor instruction that its tile takes answers a next state in which the effect of its operation stands (what the model's operation of that
instruction makes of the device with the instruction counted), its operation is in progress with that operation's status, the pc has moved past it,
its token counts one more outstanding operation, no other token and no other tile differs, and with REC and an enabled queue one item has been
opened for its record. The row accesses and the messages of collectives that the issue starts follow. -/
def Obligations.TensorIssue : Prop :=
  ∀ (x : TArgs) (s : State) (i : Instr) (op : TOp) (post : Core → Core) (body : Core → Nat → Nat → OpRes),
    (i, op, post, body) ∈ tensorRows x → s.core.takesT x op = true →
    let w := s.core.who x.tile.val
    let r := (s.core.atIssue x.tile.val).runOp x op w.1 w.2 body
    let opens := x.isRec op && (s.core.atIssue x.tile.val).flag Regs.HIF_CQ_CFG_ENABLE (qi w.2 x.cq)
    Answers s i (fun c => ∃ c1 : Core, c = post c1 ∧ c1.mems = r.c.mems ∧
      (c1.tile x.tile.val).pc = ((r.c.tile x.tile.val).pc + wideLen x.wide) % 2 ^ 22 ∧
      (∀ j, (c1.tile x.tile.val).token j =
        if j = x.k.val then { (r.c.tile x.tile.val).token j with count := ((r.c.tile x.tile.val).token j).count + 1 }
        else (r.c.tile x.tile.val).token j) ∧
      (∀ u, u ≠ x.tile.val → c1.tile u = r.c.tile u) ∧ c1.parts = r.c.parts ∧ c1.evtBuf = r.c.evtBuf ∧
      (∃ o, c1.ops = r.c.ops ++ [o] ∧ o.id = r.c.nextOp ∧ o.part = w.2 ∧ o.ltile = w.1 ∧ o.tok = x.k.val ∧ o.major = op.uses.major ∧
        o.status = r.st ∧ o.wait = r.wait ∧ o.info = r.info ∧ o.item = if opens then some r.c.nextItem else none) ∧
      (opens = false → c1.items = r.c.items ∧ c1.regs = r.c.regs) ∧
      (opens = true → ∃ j, c1.items = r.c.items ++ [j] ∧ j.id = r.c.nextItem ∧ j.part = w.2 ∧ j.ltile = w.1 ∧ j.cq = x.cq ∧ j.kind = .op))

/-- When its checks pass and the memories give its operands, an elementwise instruction writes at each index of td the rounded function of its
sources' elements at that index; a reduction the rounded result of the line through the index along RED of ta; VSOFTMAX the rounded quotient of the
line's element at the index; ENC16 each element rounded to FP16 with the draw of its index; LSCALE each element times 2^E. The memories differ
only by those values and by the zero padding; the operation is in progress with status SUCCESS. -/
def Obligations.TensorValues : Prop :=
  ∀ (x : TArgs) (s : State) (b : Core),
    let y := s.core.tile x.tile.val
    let l := (s.core.who x.tile.val).1
    let p := (s.core.who x.tile.val).2
    let td := y.desc x.td.val
    let ta := y.desc x.ta.val
    let writes := fun (i : Instr) (op : TOp) (vs : List Nat) =>
      Answers s i (fun c => c.mems = (b.putTensor p l td vs).mems ∧ s.core.started c x op 0 false)
    td.empty = false →
    (∀ i op ops shape inPlace f, (i, op, ops, shape, inPlace, f) ∈ valueRows b x y p l → s.core.takesT x op = true → s.core.recordOk x op →
      s.core.runsFrom b x ops shape inPlace → writes i op (td.indices.map f)) ∧
    (∀ i op f, (i, op, f) ∈ reduceRows x → s.core.takesT x op = true → s.core.recordOk x op → ta.empty = false →
      s.core.runsFrom b x (unitOps td [ta] spUnit)
        (td.isFP && ta.isFP && (List.range 4).all (fun k => td.ext k == (if k = ta.red then 1 else ta.ext k))) false →
      writes i op (td.indices.map (fun j => roundNum td.ffmt (TArgs.rnd x) (decodeF .fp32 (f (b.line p l ta j)))))) ∧
    (s.core.takesT x .VSOFTMAX = true → s.core.recordOk x .VSOFTMAX →
      s.core.runsFrom b x (unitOps td [ta] spUnit) (td.isFP && ta.isFP && td.sameExt ta) true →
      writes (.vsoftmax x) .VSOFTMAX (td.indices.map (fun j => roundNum td.ffmt (TArgs.rnd x)
        (((softmaxLine (b.line p l ta j))[match ta.red with | 0 => j.1 | 1 => j.2.1 | 2 => j.2.2.1 | _ => j.2.2.2]?).getD .nan)))) ∧
    (s.core.takesT x .ENC16 = true → s.core.recordOk x .ENC16 →
      s.core.runsFrom b x (unitOps td [ta] spUnit) (ta.isFP32 && td.isFP16 && ta.sameExt td) false →
      writes (.enc16 x) .ENC16 ((ta.indices.zip (b.elems p l ta)).map (fun e => roundNum .fp16 (TArgs.rnd x) (decodeF .fp32 e.2)
        (draw16 (y.gr (bits x.mods.toNat 7 3)).toNat (b.stepOf p) (ta.linear e.1))))) ∧
    (s.core.takesT x .LSCALE = true → s.core.recordOk x .LSCALE →
      s.core.runsFrom b x [{ d := td, dest := true, spaces := spOwn }, { d := ta, spaces := spOwn }] (td.isFP32 && ta.isFP32 && td.sameExt ta) false →
      writes (.lscale x) .LSCALE ((b.elems p l ta).map (fun e =>
        roundNum .fp32 .nearest (mulNum (decodeF .fp32 e) (.ofQ (Q.pow2 (b.lossE p)))))))

namespace Sys2Proof.Machine

/-- Bytes of the destination are distinct bytes of the device's scratchpads whose banks are not off. -/
def Core.plain (c : Core) (p l : Nat) (d : Desc) (n : Nat) : Prop :=
  (∀ a, a < n → ∃ t o, c.place p l d.addr a = .scratch t o ∧ t < 272 ∧ o < 0x300000 ∧ c.bankState t (o / bankBytes) ≠ bkOFF ∧
    c.bankState t (o / bankBytes) ≠ bkRETAIN) ∧
    ∀ a b, a < n → b < n → c.place p l d.addr a = c.place p l d.addr b → a = b

end Sys2Proof.Machine

/-- Write values v0, v1, … to the elements of an FP16 or FP32 tensor in element order, its bytes being distinct scratchpad bytes of banks that
are on. Then the element at each index reads as the value, modulo the element's width, that was written to that index or to another index at the
same address; where no two elements share an address, as the value of its own index. Every scratchpad byte outside the tensor's span reads as before. -/
def Obligations.TensorReadBack : Prop :=
  ∀ (c : Core) (p l : Nat) (d : Desc) (vs : List Nat), d.isFP = true → d.formOk true = true → d.len = none → vs.length = d.indices.length → c.plain p l d d.span →
    let c' := c.putTensor p l d vs
    let off := fun (i : Nat × Nat × Nat × Nat) => d.elemOff i.1 i.2.1 i.2.2.1 i.2.2.2
    (∀ i ∈ d.indices, ∃ e ∈ d.indices.zip vs, off e.1 = off i ∧ c'.elem p l d i.1 i.2.1 i.2.2.1 i.2.2.2 = e.2 % 2 ^ (8 * d.esize)) ∧
    (d.mayCollide = false → ∀ e ∈ d.indices.zip vs, c'.elem p l d e.1.1 e.1.2.1 e.1.2.2.1 e.1.2.2.2 = e.2 % 2 ^ (8 * d.esize)) ∧
    (∀ t o, t < 272 → o < 0x300000 → (∀ a, a < d.span → c.place p l d.addr a ≠ .scratch t o) →
      c'.readPlace (.scratch t o) = c.readPlace (.scratch t o))

/-- When its checks pass, the memories give its operands and none of them lies in the slow tier: FILL gives every element of an FP16 or FP32 td the
value of its immediate (zero without one); COPY outside the licensed path (td not in Umbra) gives td the elements of ta, or the bytes of a block-coded
ta; GATHER gives row n of td the row of ta that index n of tb names, SCATTER gives the row of td that index n names row n of ta, every index being below
the number of rows. The memories differ only so; the operation is in progress with SUCCESS. -/
def Obligations.DataMovement : Prop :=
  ∀ (x : TArgs) (s : State) (b : Core), s.core.slowReqs = [] → s.core.remoteOut = [] →
    let y := s.core.tile x.tile.val
    let l := (s.core.who x.tile.val).1
    let p := (s.core.who x.tile.val).2
    let td := y.desc x.td.val
    let ta := y.desc x.ta.val
    let tb := y.desc x.tb.val
    let dst : Operand := { d := td, dest := true, spaces := spMove }
    let src : Operand := { d := ta, spaces := spMove }
    let idx : Operand := { d := tb, spaces := spMove }
    let near := fun (d : Desc) => bits d.addr 63 60 ≠ 5
    let writes := fun (i : Instr) (op : TOp) (b' : Core) => Answers s i (fun c => c.mems = b'.mems ∧ s.core.started c x op 0 false)
    let move := fun (gather : Bool) (i : Instr) (op : TOp) (ordered indexed : Desc) => s.core.takesT x op = true → s.core.recordOk x op →
      td.empty = false → near td → near ta → near tb →
      s.core.runsFrom b x [dst, src, idx] (td.isFP && td.fmt == ta.fmt && td.e0 == ta.e0 && tb.raw32 && tb.e0 == ordered.rows &&
        tb.e1 == 1 && tb.e2 == 1 && tb.e3 == 1) false →
      (∀ n ∈ b.elems p l tb, n < indexed.rows) →
      writes i op (threadAll (fun m e => m.putElems p l td (((List.range td.e0).map (td.rowIndex (if gather then e.2 else e.1))).zip
        ((List.range td.e0).map (fun k => let r := ta.rowIndex (if gather then e.1 else e.2) k; b.elem p l ta r.1 r.2.1 r.2.2.1 r.2.2.2))))
        (b.zeroPadding p l td) ((b.elems p l tb).zip (List.range (b.elems p l tb).length)))
    (s.core.takesT x .FILL = true → s.core.recordOk x .FILL → td.empty = false → td.isFP = true → near td →
      s.core.runsFrom b x [dst] (match x.wide with | none => true | some w => td.isFP && (td.isFP32 || bits w.toNat 31 16 == 0)) false →
      writes (.fill x) .FILL (b.putTensor p l td (List.replicate td.count (match x.wide with | none => 0 | some w => w.toNat % 2 ^ (8 * td.esize))))) ∧
    (s.core.takesT x .COPY = true → s.core.recordOk x .COPY → td.empty = false → near td → near ta → bits td.addr 63 60 ≠ 6 →
      bits ta.addr 63 60 ≠ 6 → s.core.runsFrom b x [dst, src] (copyShape td ta) false →
      writes (.copy x) .COPY (if td.isBlock then b.writeAt p l td.addr 0 (b.readAt p l ta.addr 0 ta.blockBytes) else b.putTensor p l td (b.elems p l ta))) ∧
    move true (.gather x) .GATHER td ta ∧ move false (.scatter x) .SCATTER ta td

namespace Sys2Proof.Machine

/-- The S-forms of a step: the width of a stashed value, whether the immediate is refused, and what an element gives (R220, R221). -/
def stashRows (x : TArgs) (step : Nat) : List (Instr × TOp × Nat × Bool × (FFmt → SForm)) :=
  [(.srelu x, .SRELU, 1, false, fun _ => reluS),
   (.sdrop x, .SDROP, 1, false, fun _ => dropS (TArgs.dropT x) (TArgs.dropSeed x) step),
   (.sabs x, .SABS, 1, false, absS),
   (.sclamp x, .SCLAMP, 2, TArgs.badBounds x, fun _ => clampS (TArgs.lo x) (TArgs.hi x))]

/-- The G-forms that read their entry (R220). -/
def gradRows (x : TArgs) : List (Instr × TOp × Nat × GForm) :=
  [(.grelu x, .GRELU, 1, reluG), (.gdrop x, .GDROP, 1, dropG (TArgs.dropT x)), (.gabs x, .GABS, 1, absG), (.gclamp x, .GCLAMP, 2, clampG)]

/-- The G-forms that take the stashed value from tc, or from the seed (GDROPX) (R220). -/
def gradXRows (x : TArgs) (step : Nat) : List (Instr × TOp × Bool × Bool × GForm × (FFmt → SForm)) :=
  [(.grelux x, .GRELUX, true, false, reluG, fun _ => reluS),
   (.gdropx x, .GDROPX, false, false, dropG (TArgs.dropT x), fun _ => dropS (TArgs.dropT x) (TArgs.dropSeed x) step),
   (.gabsx x, .GABSX, true, false, absG, absS),
   (.gclampx x, .GCLAMPX, true, TArgs.badBounds x, clampG, fun _ => clampS (TArgs.lo x) (TArgs.hi x))]

end Sys2Proof.Machine

/-- When its checks pass and the memories give its operands: an S-form whose entry the Shadow store takes, no line of the spill area being lost, writes its outputs to td, the directory
being as the store left it, and succeeds; one whose entry finds no room has STASH_FULL and writes no output; a G-form over a Resident or Spilled entry
of its width and of as many elements, whose bytes are readable, writes to td each gradient under the stashed value of its index; the X-forms take
that value from tc, or from the seed. The values of an entry, packed at 1 or 2 bits each, read back at every index below their number, modulo their width; and when the Shadow store takes
an entry, the tile's directory holds a record of its name with its width and its number of elements. -/
def Obligations.StashAndGradients : Prop :=
  (∀ (x : TArgs) (s : State) (b : Core),
      let t := x.tile.val
      let y := s.core.tile t
      let l := (s.core.who t).1
      let p := (s.core.who t).2
      let td := y.desc x.td.val
      let ta := y.desc x.ta.val
      let tc := y.desc x.tc.val
      let name := bits x.mods.toNat 16 0
      let step := s.core.stepOf p
      let raw := td.indices88.map (fun i => b.elem p l ta i.1 i.2.1 i.2.2.1 i.2.2.2)
      td.empty = false → td.mayCollide = false →
      (∀ i op width bad f, (i, op, width, bad, f) ∈ stashRows x step → s.core.takesT x op = true → s.core.recordOk x op →
        s.core.runsFrom b x (unitOps td [ta] spUnit) (td.isFP && ta.isFP && ta.sameExt td && !bad) true →
        let ys := raw.zipIdx.map (fun e => f ta.ffmt e.1 (decodeF ta.ffmt e.1) e.2)
        let kept := b.stashEntry t p name width td.indices88.length (packEntry width (ys.map (·.2))) x.env
        (kept.2 = none → kept.1.spillWritesLost t p (b.tile t).spillHead ((b.tile t).entry? name) x.env = [] → Answers s i (fun c =>
          c.mems = ((kept.1.zeroPadding p l td).putElems p l td (td.indices88.zip (ys.map (fun v => roundNum td.ffmt .nearest v.1)))).mems ∧
          (c.tile t).stash = (kept.1.tile t).stash ∧ (c.tile t).ring = (kept.1.tile t).ring ∧
          ∃ o ∈ c.ops, o.id = kept.1.nextOp ∧ o.status = 0 ∧ o.major = op.uses.major)) ∧
        (∀ cause, kept.2 = some cause → Answers s i (fun c => c.mems = kept.1.mems ∧
          ∃ o ∈ c.ops, o.id = kept.1.nextOp ∧ o.status = St.STASH_FULL ∧ o.major = op.uses.major))) ∧
      (∀ i op width g e, (i, op, width, g) ∈ gradRows x → s.core.takesT x op = true → s.core.recordOk x op →
        s.core.runsFrom b x (unitOps td [ta] spUnit) (td.isFP && ta.isFP && ta.sameExt td) true →
        y.entry? name = some e → e.count = ta.count → e.width = width → (e.loc = .resident ∨ e.loc = .spilled) →
        (s.core.atUnit t).entryLost t e x.env = none → (s.core.atUnit t).spillLost t p e x.env = none →
        let vs := unpackEntry width (b.loadEntry t p e)
        let b' := if e.loc = .spilled then b.count Regs.TILE_STASH_FETCH_BYTES_COUNT t (64 * e.words) else threadAll (fun c k => c.wakeBank t (c.resByte t e.addr (64 * k) / bankBytes)) b (List.range e.words)
        Answers s i (fun c => c.mems = (b'.gradOut p l td ta g vs).mems ∧ s.core.started c x op 0 false)) ∧
      (∀ i op useTc bad g f, (i, op, useTc, bad, g, f) ∈ gradXRows x step → s.core.takesT x op = true → s.core.recordOk x op →
        s.core.runsFrom b x (unitOps td ([ta] ++ if useTc then [tc] else []) spUnit)
          (td.isFP && ta.isFP && ta.sameExt td && (!useTc || (tc.isFP && tc.sameExt td)) && !bad) true →
        let vs := td.indices88.zipIdx.map (fun e =>
          if useTc then (let w := b.elem p l tc e.1.1 e.1.2.1 e.1.2.2.1 e.1.2.2.2; (f tc.ffmt w (decodeF tc.ffmt w) e.2).2) else (f .fp32 0 .nan e.2).2)
        Answers s i (fun c => c.mems = (b.gradOut p l td ta g (fun n => (vs[n]?).getD 0)).mems ∧ s.core.started c x op 0 false))) ∧
  ((∀ (width : Nat) (vs : List Nat) (i v : Nat), (width = 1 ∨ width = 2) → vs[i]? = some v →
      unpackEntry width (packEntry width vs) i = v % 2 ^ width) ∧
    (∀ (c c' : Core) (t p name width count : Nat) (bs : List Byte) (env : MemEnv), c.stashEntry t p name width count bs env = (c', none) →
      ∃ e, (c'.tile t).entry? name = some e ∧ e.width = width ∧ e.count = count ∧ e.loc ≠ .lost))

/-- MM, MMSP, MMBS and MM32 over operands that pass their checks, with their codebooks present, no position bit past the last square and no refused
group in any output block, write every output block: each element inside td is the rounded (FP16) or unrounded (FP32) result of the ordered
accumulation of R241 over its row of ta and its column of tb, starting from td's element when ACC is set; the padding is zero. The operation succeeds. -/
def Obligations.MatrixResults : Prop :=
  ∀ (x : TArgs) (s : State) (b : Core) (i : Instr) (op : TOp) (kind : MatKind),
    (i, op, kind) ∈ [(.mm x, .MM, .mm), (.mmsp x, .MMSP, .sp), (.mmbs x, .MMBS, .bs), (.mm32 x, .MM32, MatKind.m32)] →
    s.core.takesT x op = true → s.core.recordOk x op →
    let y := s.core.tile x.tile.val
    let l := (s.core.who x.tile.val).1
    let p := (s.core.who x.tile.val).2
    let td := y.desc x.td.val
    let ta := y.desc x.ta.val
    let tb := y.desc x.tb.val
    let tc := y.desc x.tc.val
    let kk := if bitOf x.mods.toNat 4 then 4 else 8
    let md := matMode kind (bitOf x.mods.toNat 4)
    let v : MatView :=
      { a := fun m k n => b.matEl p l ta (y.bookFor ta) (ta.matIndex k m n)
        b := fun k n m => b.matB p l kind tb tc (y.bookFor tb) kk k n m
        prior := fun m n q => if bitOf x.mods.toNat 3 then some (roundNum .fp32 .nearest (decodeF td.ffmt (b.elem p l td n m q.1 q.2))) else none
        f := if kind = .m32 then .fp32 else .fp16
        k := ta.matK
        md := md }
    let blocks := matBlocks md td.e2 td.e3 td.e1 td.e0
    let el := fun m n q => if td.isFP32 then v.result m n q else roundNum .fp16 (TArgs.rnd x) (decodeF .fp32 (v.result m n q))
    s.core.runsFrom b x (unitOps td ([ta, tb] ++ if kind = .sp ∨ kind = .bs then [tc] else []) spUnit) (matShape kind kk td ta tb tc) false →
    td.empty = false → td.mayCollide = false → (ta.isBlock = true → (y.bookFor ta).isSome = true) → (tb.isBlock = true → (y.bookFor tb).isSome = true) →
    (kind = .bs → ∀ n, tb.squares ≤ n → n < 16 * tc.e0 → bitOf ((s.core.atUnit x.tile.val).elem p l tc (n / 16) 0 0 0) (n % 16) = false) →
    (∀ bl ∈ blocks, v.blockBad bl = false) →
    Answers s i (fun c => c.mems = (({ b with free := b.free + 1 } : Core).putElems p l td (blocks.flatMap (fun bl => blockElems td bl el))).mems ∧ s.core.started c x op 0 false)

/-- The ranking of a token's logits names every expert once; an expert before another has a logit that is not below it (-0 being
below +0), a NaN stands after every number, and of equal values the lower index stands first. Whatever the selections, no expert takes more assignments than the capacity, each
selection of an existing rank is assigned or dropped, and without REROUTE every assignment goes to the expert of its rank. -/
def Obligations.Routing : Prop :=
  (∀ (f : FFmt) (ws : List Nat), let ls := ws.map (decodeF f)
    (∀ n, n < ls.length → ∃ v, (n, v) ∈ rankLogits ls ∧ ls[n]? = some v) ∧ (rankLogits ls).length = ls.length ∧
    (rankLogits ls).Pairwise (fun a b => a.1 ≠ b.1 ∧ (a.2 = .nan → b.2 = .nan ∧ a.1 < b.1) ∧ ltNum a.2 b.2 = false ∧
      (ltNum b.2 a.2 = false → b.2 ≠ .nan → a.1 < b.1))) ∧
  (∀ (cap k : Nat) (reroute : Bool) (ranks : List (List (Nat × Machine.Num))) (sel : List (Nat × Nat)),
    let a := sel.foldl (routeOne cap k reroute ranks) {}
    (∀ e, (a.asg.filter (fun z => z.1 == e)).length ≤ cap) ∧
    a.asg.length + a.dropped = (sel.filter (fun z => decide (z.2 < ((ranks[z.1]?).getD []).length))).length ∧
    (reroute = false → a.rerouted = 0 ∧ ∀ z ∈ a.asg, (((ranks[z.2.1]?).getD [])[z.2.2]?).map (·.1) = some z.1))

/-- CBLOAD of an image that R91 admits leaves the codebook in its slot. The bytes of a group record hold what was encoded: of 64 blocks with offsets
below 15 and codes of the format's width, a present block reads as occupied with its offset and its codes, an absent one as unoccupied with
offset 15. The bytes of a scale record whose fields fit read back as that record. -/
def Obligations.CodecRecords : Prop :=
  (∀ (x : TArgs) (s : State) (b : Core) (cb : Codebook),
    let y := s.core.tile x.tile.val
    let ta := y.desc x.ta.val
    let w := s.core.who x.tile.val
    s.core.takesT x .CBLOAD = true → s.core.recordOk x .CBLOAD → ta.addr % 64 = 0 →
    s.core.runsFrom b x [{ d := ta, spaces := spOwn }] (ta.raw16 && (ta.e0 == 48 || ta.e0 == 288) && ta.e1 == 1 && ta.e2 == 1 && ta.e3 == 1) false →
    parseCodebook (b.readAt w.2 w.1 ta.addr 0 (2 * ta.e0)) = some cb →
    Answers s (.cbload x) (fun c => (∀ n, (c.tile x.tile.val).book n = if n = bits x.mods.toNat 3 0 then some cb else y.book n) ∧ c.mems = b.mems ∧
      ∃ o ∈ c.ops, o.id = s.core.nextOp ∧ o.status = 0 ∧ o.slots = [bits x.mods.toNat 3 0])) ∧
  (∀ (d : Desc) (e2 : Int) (affine : Bool) (blocks : List (Option (Nat × List Nat))) (i k : Nat) (o : Option (Nat × List Nat)),
    d.isBlock = true → blocks.length = 64 →
    (∀ e ∈ blocks, ∀ q, e = some q → q.1 < 15 ∧ q.2.length = d.blockB ∧ ∀ v ∈ q.2, v < 2 ^ d.codeBits) → blocks[i]? = some o → k < d.blockB →
    let bs := groupBytes d e2 affine blocks
    let g : Group := { occ := leNat (bs.take 8), exps := leNat ((bs.drop 8).take 32), e2 := 0, affine := affine, reserved := false, codes := bs.drop 64 }
    bitOf g.occ i = o.isSome ∧ g.exp i = (match o with | some q => q.1 | none => 15) ∧
      ∀ q, o = some q → q.2[k]? = some (g.code d i k)) ∧
  (∀ r : ScaleRec, r.reserved = false → r.seed < 2 ^ 64 → -128 ≤ r.e2 → r.e2 < 128 → r.flags < 16 → r.histCount < 256 → r.run < 256 → r.step < 2 ^ 64 →
    r.amax < 2 ^ 32 → r.sat < 2 ^ 32 → r.flush < 2 ^ 32 → r.hist.length = 16 → (∀ h ∈ r.hist, h < 2 ^ 32) → r.satTotal < 2 ^ 64 →
    parseScale r.bytes = r)

/-- A tensor instruction whose encoding is legal and whose guard is true waits, with no effect, while its token stands at 255 outstanding operations, or
while its record finds no slot; one whose phase mark does not admit the partition's phase ends in a program fault with reason 3. One whose guard is
false moves the pc on and has no other effect. -/
def Obligations.TensorNotIssued : Prop :=
  ∀ (x : TArgs) (s : State) (i : Instr) (op : TOp) (post : Core → Core) (body : Core → Nat → Nat → OpRes), (i, op, post, body) ∈ tensorRows x →
    s.core.slowReqs = [] → s.core.remoteOut = [] → s.core.collEnds = [] →
    let t := x.tile.val
    let y := s.core.tile t
    let p := (s.core.who t).2
    s.core.canIssue t = true → s.core.fetchFault t = none → (x.ins op).reason = none →
    (y.guardTrue x.guard.val x.neg = true → (y.token x.k.val).count = 255 → Answers s i (fun c => c = s.core)) ∧
    (y.guardTrue x.guard.val x.neg = true → x.isRec op = true → s.core.canOpen p = false → Answers s i (fun c => c = s.core)) ∧
    (y.guardTrue x.guard.val x.neg = true → (y.token x.k.val).count ≠ 255 → (x.isRec op = false ∨ s.core.canOpen p = true) →
      phaseOk op.uses.phase (s.core.part p).phase = false → Answers s i (fun c => s.core.counted c t ∧ s.core.faults c t 3 St.ILLEGAL op.uses.major)) ∧
    (y.guardTrue x.guard.val x.neg = false → Answers s i (fun c => s.core.seqTo c t { y with pc := (y.pc + wideLen x.wide) % 2 ^ 22 }))

/-- OPERATION_COMPLETE of an operation in progress that waits for no other command, whose tile does not wait for a token: the operation is gone,
its token counts one less and takes the operation's status if it holds none, no other token and no other tile differs; an operation with REC has its
item ended, with its record (its tag, the status, or KEY_REVOKED once the partition's keys are revoked) among those that wait. An S-form with
STASH_FULL, which also stops its program, is left out here. -/
def Obligations.OperationComplete : Prop :=
  ∀ (id : Nat) (s : State) (o : AOp) (t : Nat), s.core.op? id = some o → o.wait = false → s.core.phys o.ltile = some t → (s.core.tile t).stall = none →
    (o.status ≠ St.STASH_FULL ∨ isStash o.major = false) →
    let y := s.core.tile t
    Answers s (.operationComplete id) (fun c => c.ops = s.core.ops.filter (fun q => q.id != id) ∧
      (∀ k, (c.tile t).token k = if k = o.tok then { count := (y.token k).count - 1
                                                     status := if (y.token k).status = 0 then o.status else (y.token k).status } else y.token k) ∧
      { c.tile t with tok := y.tok } = y ∧ (∀ u, u ≠ t → c.tile u = s.core.tile u) ∧ c.mems = s.core.mems ∧
      (o.item = none → c.items = s.core.items ∧ c.recs = s.core.recs) ∧
      (∀ i it, o.item = some i → s.core.item? i = some it →
        c.items = s.core.items.filter (fun j => j.id != i) ∧
        ∃ r, c.recs = s.core.recs ++ [r] ∧ r.part = it.part ∧ r.cq = it.cq ∧ r.tag = it.tag ∧ r.info = o.info ∧
          r.status = (if (s.core.part it.part).revoked then St.KEY_REVOKED else o.status)))

/-- An 8-byte read of a register with an RC field, by a function that sees it, answers a next state: the data hold the field's value from before the
read's tick, and the field then holds the increment of that tick (at most its largest value), so no count is lost. -/
def Obligations.ReadClear : Prop :=
  ∀ (fn : FnId) (off : BitVec 32) (inc : Word) (s : State) (row : RegRow) (i : Nat) (f : Fld), s.core.answers = true → s.core.fnOn fn.val = true →
    off.toNat % 8 = 0 → s.core.regPlace fn.val off.toNat = .reg row i → f ∈ row.fields → f.access = .RC →
    ∃ t v, exec (.rcRead fn off 8 inc) s = .next t ∧ t.core.resp = .data v ∧ bits v.toNat f.hi f.lo = s.core.rf f i ∧
      t.core.rf f i = min inc.toNat f.top

/-- A 4-byte read of the lower word of a register whose RC field spans both words returns the lower word, puts the upper one in the function's
hold and leaves the field at the increment of its tick; a 4-byte read of the upper word then returns the hold and changes nothing else. An 8-byte read
of a register without RC fields whose word is its own returns its readable bits and changes nothing. A read at an offset that holds nothing, or that is
not aligned to its 4 or 8 bytes, returns zero; a function that is not on the bus gets an Unsupported Request. -/
def Obligations.Reads : Prop :=
  ∀ (fn : FnId) (off : BitVec 32) (inc : Word) (s : State), s.core.answers = true →
    let place := s.core.regPlace fn.val (off.toNat / 8 * 8)
    (∀ row i f, s.core.fnOn fn.val = true → place = .reg row i → row.spans = true → f ∈ row.fields → f.access = .RC →
      (∃ t, exec (.rcLowerWordRead fn off inc) s = .next t ∧ t.core.resp = .data (BitVec.ofNat 64 (bits (s.shown row i) 31 0)) ∧
        t.core.holdOf fn.val = bits (s.shown row i) 63 32 ∧ t.core.rf f i = min inc.toNat f.top ∧ t.perm = s.perm ∧ t.core.others = { s.core.others with
          resp := t.core.resp, hold := t.core.hold }) ∧
      (off.toNat % 8 = 4 → exec (.rcRead fn off 4 inc) s = .next (s.answer (.data (BitVec.ofNat 64 (s.core.holdOf fn.val)))))) ∧
    (∀ row i, s.core.fnOn fn.val = true → place = .reg row i → off.toNat % 8 = 0 → row.mask [.RC] = 0 →
      derived.find? (fun d => d.1.base == row.reg.base) = none →
      row.reg.base ≠ Regs.FAB_LANE_MON.base → row.reg.base ≠ Regs.FAB_TX_TS_TAG.base → row.reg.size = 8 →
      exec (.rcRead fn off 8 inc) s = .next (s.answer (.data (BitVec.ofNat 64 (s.core.rd row.reg i &&& row.readable))))) ∧
    (s.core.fnOn fn.val = true → place = .nothing → ∀ n, exec (.rcRead fn off n inc) s = .next (s.answer (.data 0))) ∧
    (s.core.fnOn fn.val = true → ∀ n, aligned off.toNat n.val = false → exec (.rcRead fn off n inc) s = .next (s.answer (.data 0))) ∧
    (s.core.fnOn fn.val = false → ∀ n, exec (.rcRead fn off n inc) s = .next (s.answer .unsupported))

/-- A well-aligned access of PF0 at or beyond the end of BAR0 faults, and one in the debug block, of which the spec gives the base alone, is refused. -/
def Obligations.RegisterStops : Prop :=
  ∀ (off : BitVec 32) (n : Fin 17) (w set inc : Word) (s : State), s.core.answers = true → aligned off.toNat n.val = true →
    (Config.bar0Bytes ≤ off.toNat / 8 * 8 → exec (.rcRead 0 off n inc) s = .fault .outsideBar0 ∧ exec (.registerWrite 0 off n w set) s = .fault .outsideBar0 ∧
      exec (.rcLowerWordRead 0 off inc) s = .fault .outsideBar0) ∧
    (debugBase ≤ off.toNat / 8 * 8 → off.toNat / 8 * 8 < Config.bar0Bytes → s.core.flag Regs.FW_FW_STATUS_RECOVERY = false →
      exec (.rcRead 0 off n inc) s = .refused .debugBlock ∧ exec (.registerWrite 0 off n w set) s = .refused .debugBlock ∧
      exec (.rcLowerWordRead 0 off inc) s = .refused .debugBlock)

namespace Sys2Proof.Machine

/-- Registers whose writes follow R11 alone: no transaction covers them, no command field is in them and no rule of their own judges them. -/
def RegRow.plain (row : RegRow) : Bool :=
  let b := row.reg.base
  row.txnKind == .none && row.mask [.WO] == 0 && !decide (0x40000 ≤ b ∧ b < 0x60000) && !decide (0x900100 ≤ b ∧ b < 0x901000) &&
    !hasBase [Regs.DEV_STATUS, Regs.EVT_Q_CTRL, Regs.EVT_Q_HEAD, Regs.EVT_TS_CTRL, Regs.EVT_TS_STEP, Regs.SEC_KEYID_MAP, Regs.FW_P_MOTION, Regs.HIF_SQ_CFG,
      Regs.HIF_CQ_CFG, Regs.PART_STATUS, Regs.PART_TILE_GROUPS, Regs.TILE_BANK_CFG, Regs.MEM_GRANULE_OWNER, Regs.SLOW_SSD_CTRL, Regs.SLOW_DIR_DATA,
      Regs.FAB_PORT_CTRL, Regs.FAB_VC_CFG, Regs.FAB_RAW_RX_SIZE, Regs.FAB_RAW_TX_SIZE, Regs.FAB_RAW_TX_TAIL, Regs.RMA_GRANT_CFG, Regs.SEC_TAMPER_STATUS,
      Regs.SEC_TAMPER_CFG, Regs.FW_FW_CFG, Regs.FAB_PTP_CFG, Regs.TILE_STASH_SPILL_BASE, Regs.TILE_STASH_SPILL_PAGES, Regs.DEV_TSTATE_CMD,
      Regs.DEV_SPARE_CLEAR, Regs.SEC_EPOCH_CMD, Regs.SEC_KEY_CMD, Regs.SEC_LC_CMD, Regs.FW_FW_CMD, Regs.TILE_BANK_SWAP_REQ, Regs.FAB_SNAP,
      Regs.FAB_OE_SPARE_REQ, Regs.MEM_RETIRE_REQ, Regs.RMA_QP_CMD, Regs.RMA_REGION_INVAL, Regs.COL_PROBE_CMD, Regs.COL_GROUP_CMD, Regs.CFG_TXN_CMD,
      Regs.CFG_P_TXN_CMD, Regs.HIF_P_CANCEL, Regs.DEV_TILE_RESET, Regs.DEV_RESET_CMD, Regs.DEV_HELD_CLEAR] b &&
    !derived.any (fun d => d.1.base == b)

end Sys2Proof.Machine

/-- A REGISTER_WRITE of 8 bytes, by a function that may write it, to a register without commands or rules of its own: each RW bit takes the written bit, a
W1C bit written 1 is cleared, every other bit keeps its value, and no other register and nothing else of the device differs. A write of 4 bytes does so for
the bits of its half. A write to a register that the function may not write, at an offset that holds nothing, or out of alignment, changes nothing. -/
def Obligations.PlainWrites : Prop :=
  ∀ (fn : FnId) (off : BitVec 32) (n : Fin 17) (w : Word) (s : State), s.core.answers = true → s.core.fnOn fn.val = true →
    let place := s.core.regPlace fn.val (off.toNat / 8 * 8)
    (∀ row i, aligned off.toNat n.val = true → place = .reg row i → row.plain = true → s.core.writes fn.val (off.toNat / 8 * 8) row = true →
      ∃ t : State, exec (.registerWrite fn off n w 0) s = .next t ∧ t.perm = s.perm ∧ t.pending = s.pending ∧
        s.core.onlyRegs t.core (fun k => k = row.reg.at i) ∧
        ∀ b, b < 64 →
          let mine := n.val = 8 ∨ (off.toNat % 8 / 4 = b / 32)
          let wb := if n.val = 8 then w.getLsbD b else w.getLsbD (b % 32)
          (t.core.rd row.reg i).testBit b =
            if mine ∧ (row.mask [.RW, .RWL]).testBit b then wb
            else if mine ∧ (row.mask [.W1C]).testBit b then (s.core.rd row.reg i).testBit b && !wb
            else (s.core.rd row.reg i).testBit b) ∧
    (∀ row i, place = .reg row i → s.core.writes fn.val (off.toNat / 8 * 8) row = false → exec (.registerWrite fn off n w 0) s = .next s) ∧
    (place = .nothing → exec (.registerWrite fn off n w 0) s = .next s) ∧
    (aligned off.toNat n.val = false → exec (.registerWrite fn off n w 0) s = .next s)

/-- A REGISTER_WRITE that writes 1 to a W1C bit which hardware sets in the same tick answers a next state in which the bit is set. -/
def Obligations.W1cRace : Prop :=
  ∀ (fn : FnId) (off : BitVec 32) (w set : Word) (s : State) (row : RegRow) (i : Nat) (f : Fld) (b : Nat), s.core.answers = true →
    s.core.fnOn fn.val = true → off.toNat % 8 = 0 → s.core.regPlace fn.val off.toNat = .reg row i → f ∈ row.fields → f.access = .W1C →
    f.lo ≤ b → b ≤ f.hi → w.getLsbD b = true → set.getLsbD b = true →
    ∃ t, exec (.registerWrite fn off 8 w set) s = .next t ∧ (t.core.rd row.reg i).testBit b = true

namespace Sys2Proof.Machine

/-- OPEN, RESULT, END, OVERFLOW and OPENED_TICK of a transaction (R583): k is 0 for the device's, p + 1 for partition p's. -/
def Core.txF (c : Core) (k : Nat) : Nat × Nat × Nat × Nat × Nat :=
  (c.txGet k Regs.CFG_TXN_STATUS_OPEN Regs.CFG_P_TXN_STATUS_OPEN, c.txGet k Regs.CFG_TXN_STATUS_RESULT Regs.CFG_P_TXN_STATUS_RESULT,
    c.txGet k Regs.CFG_TXN_STATUS_END Regs.CFG_P_TXN_STATUS_END, c.txGet k Regs.CFG_TXN_STATUS_OVERFLOW Regs.CFG_P_TXN_STATUS_OVERFLOW,
    c.txGet k Regs.CFG_TXN_OPENED_TICK Regs.CFG_P_TXN_OPENED_TICK)

end Sys2Proof.Machine

/-- BEGIN of a closed transaction opens it with no shadow writes, RESULT 0 and the tick of its opening; of an open one it sets RESULT to PROTECTION.
ROLLBACK of an open one discards its writes with END 2; COMMIT and ROLLBACK of a closed one set RESULT to PROTECTION. COMMIT of an open one whose writes all
pass their registers' rules applies every setting, then every command, with END 1 and RESULT 0; with a write that fails it applies none of them, sets
END 5, RESULT and ERR_OFFSET, and posts CFG_COMMIT_REFUSED. CFG_TXN_TIMEOUT discards a transaction 2,500,000 ticks after its BEGIN with END 4 and its
event, and leaves an earlier or a closed one alone. -/
def Obligations.Transactions : Prop :=
  ∀ (k : FnId) (s : State),
    let c0 := s.core
    let n := k.val
    let f := c0.txF n
    let rest := fun (c : Core) => { c.others with txns := c0.txns } = c0.others ∧ c.tiles = c0.tiles ∧ c.parts = c0.parts
    (c0.txOpen n = false → c0.tick < 2 ^ 64 → Answers s (.txnBegin k) (fun c =>
      c.txF n = (1, 0, f.2.2.1, f.2.2.2.1, c0.tick) ∧ (c.txn n).writes = [] ∧ rest c)) ∧
    (c0.txOpen n = true → Answers s (.txnBegin k) (fun c => c.txF n = (1, St.PROTECTION, f.2.2) ∧ c.txns = c0.txns ∧ rest c)) ∧
    (c0.txOpen n = true → Answers s (.txnRollback k) (fun c => c.txF n = (0, 0, 2, f.2.2.2) ∧ (c.txn n).writes = [] ∧ rest c)) ∧
    (c0.txOpen n = false → (∀ i, i = .txnCommit k ∨ i = .txnRollback k →
      Answers s i (fun c => c.txF n = (f.1, St.PROTECTION, f.2.2) ∧ c.txns = c0.txns ∧ rest c))) ∧
    (c0.txOpen n = true → (c0.txn n).excess = none → c0.txJudge s.sealed (c0.txn n).list = none →
      Answers s (.txnCommit k) (fun c => ∃ c1 : Core, c1.txF n = (0, 0, 1, f.2.2.2) ∧ (c1.txn n).writes = [] ∧ rest c1 ∧
        let run := fun (c : Core) (w : RegRow × Nat × Nat × Nat) => c.act w.1 w.2.1 w.2.2.2
        c = threadAll run (threadAll run c1 ((c0.txn n).list.filter (fun w => !w.1.command))) ((c0.txn n).list.filter (fun w => w.1.command)))) ∧
    (∀ off st flag, c0.txOpen n = true → off < 2 ^ 26 → st < 2 ^ 16 →
      ((∃ o, (c0.txn n).excess = some o ∧ off = o ∧ st = St.LENGTH ∧ flag = none) ∨
        ((c0.txn n).excess = none ∧ c0.txJudge s.sealed (c0.txn n).list = some (off, st, flag))) → (∀ g, flag = some g → 0x40000 ≤ g.1.reg.base) →
      Answers s (.txnCommit k) (fun c => (c.txF n).1 = 0 ∧ (c.txF n).2.1 = st ∧ (c.txF n).2.2.1 = 5 ∧
        c.txGet n Regs.CFG_TXN_ERR_ERR_OFFSET Regs.CFG_P_TXN_ERR_ERR_OFFSET = off ∧ (c.txn n).writes = [] ∧ rest c ∧
        c.evtBuf = c0.evtBuf ++ [⟨Cls.info, Src.pcie, txnPart n, 0x0D05, st + off / 8 * 2 ^ 16, 0⟩])) ∧
    (c0.txOpen n = true → f.2.2.2.2 + 2500000 ≤ c0.tick → Answers s (.cfgTxnTimeout k) (fun c => (c.txF n).1 = 0 ∧ (c.txF n).2.2.1 = 4 ∧ (c.txn n).writes = [] ∧
      rest c ∧ c.evtBuf = c0.evtBuf ++ [⟨Cls.info, Src.devTxn, txnPart n, 0x0D06, txnPart n, 0⟩])) ∧
    (c0.txOpen n = false ∨ c0.tick < f.2.2.2.2 + 2500000 → exec (.cfgTxnTimeout k) s = .next s)

/-- Each configuration instruction that its tile takes is issued, with this effect and status on the transaction of its partition: CFGBEGIN opens a closed one and
ends with PROTECTION when it is open; CFGWR of a register that the partition's transaction covers adds the shadow write, of an offset that holds nothing ends
with BOUNDS; CFGRBACK discards an open one with END 3; CFGCOMMIT applies an open one whose writes all pass (END 1) and refuses it with PROTECTION when one fails (END
5). CFGWR, CFGCOMMIT and CFGRBACK of a closed one have no effect and end with ABORTED_BY_HOST, TIMEOUT or PROTECTION, by who ended the last. -/
def Obligations.ConfigInstructions : Prop :=
  ∀ (x : TArgs) (s : State),
    let t := x.tile.val
    let p := (s.core.who t).2
    let c0 := s.core.atUnit t
    let k := p + 1
    let off := 8 * bits x.mods.toNat 22 0
    let gives := fun (i : Instr) (op : TOp) (st : Nat) (P : Core → Prop) => s.core.takesT x op = true →
      Answers s i (fun c => s.core.started c x op st false ∧ c.mems = s.core.mems ∧ P c)
    p < 16 → c0.tick < 2 ^ 64 →
    (c0.txOpen k = false → gives (.cfgbegin x) .CFGBEGIN 0 (fun c => c.txOpen k = true ∧ (c.txn k).writes = [])) ∧
    (c0.txOpen k = true → gives (.cfgbegin x) .CFGBEGIN St.PROTECTION (fun c => c.txOpen k = true ∧ c.txns = s.core.txns)) ∧
    (∀ row i, c0.txOpen k = true → c0.regPlace k off = .reg row i → row.txnKind = .part → c0.writes k off row = true → row.writable ≠ 0 →
      (c0.txn k).writes.length < 1024 →
      gives (.cfgwr x) .CFGWR 0 (fun c => (off, BitVec.ofNat 64 (x.wide.getD 0).toNat) ∈ (c.txn k).writes ∧
        (∀ e ∈ (s.core.txn k).writes, e.1 ≠ off → e ∈ (c.txn k).writes) ∧ ∀ r j, Reg.at r j ≠ Regs.TILE_INSTR_COUNT.at t → c.rd r j = s.core.rd r j)) ∧
    (c0.txOpen k = true → c0.regPlace k off = .nothing → gives (.cfgwr x) .CFGWR St.BOUNDS (fun c => c.txns = s.core.txns)) ∧
    (c0.txOpen k = true → gives (.cfgrback x) .CFGRBACK 0 (fun c => c.txOpen k = false ∧ (c.txF k).2.2.1 = 3 ∧ (c.txn k).writes = [])) ∧
    (c0.txOpen k = true → (c0.txn k).excess = none → (c0.txn k).list = [] →
      gives (.cfgcommit x) .CFGCOMMIT 0 (fun c => c.txOpen k = false ∧ (c.txF k).2.2.1 = 1 ∧ (c.txn k).writes = [])) ∧
    (∀ off st, c0.txOpen k = true → (c0.txn k).excess = none → c0.txJudge true (c0.txn k).list = some (off, st, none) → st ≠ 0 →
      gives (.cfgcommit x) .CFGCOMMIT St.PROTECTION (fun c => c.txOpen k = false ∧ (c.txF k).2.2.1 = 5 ∧ (c.txn k).writes = [])) ∧
    (∀ i op, (i, op) ∈ [(.cfgwr x, .CFGWR), (.cfgcommit x, .CFGCOMMIT), (.cfgrback x, TOp.CFGRBACK)] → c0.txOpen k = false →
      gives i op (match (s.core.txn k).ender with | 1 => St.ABORTED | 2 => St.TIMEOUT | _ => St.PROTECTION) (fun c => c.txns = s.core.txns))

/-- REGION_SKEW_CLAMP with a sample clamps, for each pair beyond 150 mV or 20.0 degrees, the member with the higher score (the higher index when equal), except
the quadrant of the lowest score, and no other quadrant; a clamped quadrant stays clamped. REGION_SKEW_RELEASE of a clamped quadrant lets it go and posts
its event; REGION_SKEW_PERSIST of a clamp not yet reported posts its event and keeps the clamp; both leave an unclamped quadrant alone. No memory
differs. A measurement while the servo is on puts the offset in TS_OFFSET and sets LOCKED exactly within 1,000 ns; more than 100,000 ns behind the source, the
timestamp takes the whole difference and TS_STEPPED is posted; otherwise the timestamp stays and the offset is left to slew. With the servo off nothing
changes. TS_STEP of 1 to 2^40 - 1 waits for the next tick, 0 does nothing, and more sets STEP_ERR alone. TS_SOURCE_LOST clears LOCKED and posts its event when a
source is selected. -/
def Obligations.ClampsAndTimestamp : Prop :=
  ((∀ (x : QuadSample) (s : State), Answers s (.regionSkewClamp x) (fun c =>
      (∀ q, q < 4 → c.clamped q = (s.core.clamped q || quadPairs.any (fun e =>
        QuadSample.beyond x e.1 e.2 && QuadSample.worse x e.1 e.2 == q && q != QuadSample.free x))) ∧
      c.clamped (QuadSample.free x) = s.core.clamped (QuadSample.free x) ∧ c.tiles = s.core.tiles ∧ c.parts = s.core.parts ∧ c.mems = s.core.mems)) ∧
    (∀ (q : Fin 4) (s : State) (e : Nat × Nat × Nat × Bool), s.core.clamps.find? (fun e => e.1 == q.val) = some e →
      Answers s (.regionSkewRelease q) (fun c => (∀ u, u < 4 → c.clamped u = (s.core.clamped u && u != q.val)) ∧
        c.clamps = s.core.clamps.filter (fun e => e.1 != q.val) ∧ c.mems = s.core.mems ∧
        ∃ es, c.evtBuf = s.core.evtBuf ++ [⟨Cls.info, Src.region q.val, devPart, 0x0101, q.val + satAt 32 (s.core.tick - e.2.1) * 2 ^ 32, 0⟩] ++ es)) ∧
    (∀ (q : Fin 4) (s : State) (e : Nat × Nat × Nat × Bool), s.core.clamps.find? (fun e => e.1 == q.val && !e.2.2.2) = some e → e.2.2.1 < 2 ^ 64 →
      Answers s (.regionSkewPersist q) (fun c => c.regs = s.core.regs ∧ c.tiles = s.core.tiles ∧
        c.evtBuf = s.core.evtBuf ++ [⟨Cls.info, Src.region q.val, devPart, 0x0102, e.2.2.1, 0⟩] ∧
        c.clamps.find? (fun e => e.1 == q.val && !e.2.2.2) = none)) ∧
    (∀ (q : Fin 4) (s : State), (∀ e ∈ s.core.clamps, e.1 ≠ q.val) →
      exec (.regionSkewRelease q) s = .next s ∧ exec (.regionSkewPersist q) s = .next s)) ∧
  (∀ (s : State) (w : Word),
      let on := s.core.rf Regs.EVT_TS_CTRL_SRC ≠ 0 ∧ s.core.flag Regs.EVT_TS_CTRL_SLEW_EN = true
      let frame := fun (c : Core) => c.tiles = s.core.tiles ∧ c.parts = s.core.parts ∧ c.mems = s.core.mems ∧ c.tick = s.core.tick ∧
        ∀ r j, r.base ≠ Regs.EVT_TS_OFFSET.base → r.base ≠ Regs.EVT_TS_STATUS.base → Reg.at r j ≠ Regs.EVT_TS_OFFSET.base → Reg.at r j ≠ Regs.EVT_TS_STATUS.base →
          c.rd r j = s.core.rd r j
      (on → Answers s (.tsServoMeasure w) (fun c => c.rd Regs.EVT_TS_OFFSET = w.toNat ∧
        c.rf Regs.EVT_TS_STATUS_LOCKED = b2n (decide (w.toInt.natAbs ≤ 1000)) ∧ frame c ∧
        if 100000 < w.toInt then c.ts = (s.core.ts + w.toNat) % 2 ^ 64 ∧ c.slew = 0 ∧
          c.evtBuf = s.core.evtBuf ++ [⟨Cls.info, Src.timebase, devPart, 0x0104, w.toNat, 0⟩]
        else c.ts = s.core.ts ∧ c.slew = w.toInt ∧ c.evtBuf = s.core.evtBuf)) ∧
      (¬on → exec (.tsServoMeasure w) s = .next s) ∧
      (0 < w.toNat → w.toNat < 2 ^ 40 → Answers s (.tsStep w) (fun c => c = { s.core with tsSteps := s.core.tsSteps ++ [w.toNat] })) ∧
      (exec (.tsStep 0) s = .next s) ∧
      (2 ^ 40 ≤ w.toNat → Answers s (.tsStep w) (fun c => c.rf Regs.EVT_TS_STATUS_STEP_ERR = 1 ∧ c.tsSteps = s.core.tsSteps ∧ c.ts = s.core.ts ∧ frame c)) ∧
      (s.core.rf Regs.EVT_TS_CTRL_SRC ≠ 0 → Answers s .tsSourceLost (fun c => c.rf Regs.EVT_TS_STATUS_LOCKED = 0 ∧ c.slew = 0 ∧ c.ts = s.core.ts ∧ frame c ∧
        c.evtBuf = s.core.evtBuf ++ [⟨Cls.info, Src.timebase, devPart, 0x0103, s.core.rf Regs.EVT_TS_CTRL_SRC, 0⟩])) ∧
      (s.core.rf Regs.EVT_TS_CTRL_SRC = 0 → exec .tsSourceLost s = .next s))

/-- Of the events that wait at the collector, a tick samples for each source the one raised first and leaves the others in the order in which they were
raised; the sampled events stand by class, lower first, and within a class by source, lower first. -/
def Obligations.EventOrder : Prop :=
  ∀ es : List Evt,
    let now := (onePerSource es).1
    let later := (onePerSource es).2
    (∀ src, now.filter (fun e => e.source == src) = (es.filter (fun e => e.source == src)).take 1) ∧
    (∀ src, later.filter (fun e => e.source == src) = (es.filter (fun e => e.source == src)).drop 1) ∧ later.Sublist es ∧
    (now.mergeSort evtLe).Pairwise (fun a b => a.cls < b.cls ∨ (a.cls = b.cls ∧ a.source ≤ b.source)) ∧ (now.mergeSort evtLe).Perm now

/-- EVT_Q_ENABLE of a queue that is not enabled: with a SIZE that is a power of two from 64 to 65,536 it becomes ACTIVE and empty, else CFG_ERR sets and it
stays disabled; a write without ENABLE makes it inactive. EVT_Q_HEAD_WRITE below the size in use moves HEAD, at or above it sets CFG_ERR. A failed write of
the newest record of an active queue takes it back, counts it as dropped, sets WRITE_ERR and stops the queue. EVT_Q_MOD_TIMER raises the vector of a queue whose
first unsignalled record is TIMER ticks old. LOG_DATA_READ returns the last word of the entry at LOG_INDEX and marks it read. -/
def Obligations.EventQueues : Prop :=
  ∀ (n : FnId) (w : Word) (s : State),
    let c0 := s.core
    let q := n.val
    let size := c0.rf Regs.EVT_Q_SIZE_SIZE q
    let frame := fun (c : Core) => c.tiles = c0.tiles ∧ c.parts = c0.parts ∧ c.items = c0.items ∧ c.evtBuf = c0.evtBuf ∧ c.scratch = c0.scratch ∧ c.dram = c0.dram
    (w.getLsbD 0 = true → c0.flag Regs.EVT_Q_CTRL_ENABLE q = false → isPow2 size = true → 64 ≤ size → size ≤ 65536 →
      Answers s (.evtQEnable n w) (fun c => c.rf Regs.EVT_Q_STATUS_ACTIVE q = 1 ∧ c.rf Regs.EVT_Q_CTRL_ENABLE q = 1 ∧ c.evUnread q = 0 ∧
        c.rf Regs.EVT_Q_CTRL_CLASS_MAX q = bits w.toNat 7 4 ∧ c.rf Regs.EVT_Q_CTRL_VECTOR q = bits w.toNat 26 16 ∧
        (c.evq? q).base = c0.rf Regs.EVT_Q_BASE_BASE q * 4096 ∧ (c.evq? q).size = size ∧ frame c)) ∧
    (w.getLsbD 0 = true → c0.flag Regs.EVT_Q_CTRL_ENABLE q = false → (isPow2 size = false ∨ size < 64 ∨ 65536 < size) →
      Answers s (.evtQEnable n w) (fun c => c.rf Regs.EVT_Q_STATUS_CFG_ERR q = 1 ∧ c.rf Regs.EVT_Q_CTRL_ENABLE q = 0 ∧
        c.rf Regs.EVT_Q_STATUS_ACTIVE q = c0.rf Regs.EVT_Q_STATUS_ACTIVE q ∧ frame c)) ∧
    (w.getLsbD 0 = false → Answers s (.evtQEnable n w) (fun c => c.rf Regs.EVT_Q_STATUS_ACTIVE q = 0 ∧ c.rf Regs.EVT_Q_CTRL_ENABLE q = 0 ∧ frame c)) ∧
    (let used := if c0.flag Regs.EVT_Q_STATUS_ACTIVE q then (c0.evq? q).size else size
     (w.toNat < used → Answers s (.evtQHeadWrite n w) (fun c => c.rf Regs.EVT_Q_HEAD_HEAD q = w.toNat % 65536 ∧
        c.rf Regs.EVT_Q_STATUS_CFG_ERR q = c0.rf Regs.EVT_Q_STATUS_CFG_ERR q ∧ frame c)) ∧
     (used ≤ w.toNat → Answers s (.evtQHeadWrite n w) (fun c => c.rf Regs.EVT_Q_STATUS_CFG_ERR q = 1 ∧
        c.rf Regs.EVT_Q_HEAD_HEAD q = c0.rf Regs.EVT_Q_HEAD_HEAD q ∧ frame c))) ∧
    (c0.flag Regs.EVT_Q_STATUS_ACTIVE q = true → c0.evUnread q ≠ 0 → 0 < c0.rf Regs.EVT_Q_TAIL_TAIL q →
      Answers s (.evtQueueWriteFail n) (fun c => c.rf Regs.EVT_Q_STATUS_ACTIVE q = 0 ∧ c.rf Regs.EVT_Q_CTRL_ENABLE q = 0 ∧
        c.rf Regs.EVT_Q_STATUS_WRITE_ERR q = 1 ∧ c.rf Regs.EVT_Q_TAIL_TAIL q = c0.rf Regs.EVT_Q_TAIL_TAIL q - 1 ∧
        c.rf Regs.EVT_Q_DROPPED_DROPPED q = min (c0.rf Regs.EVT_Q_DROPPED_DROPPED q + 1) (2 ^ 64 - 1) ∧ frame c)) ∧
    (c0.rf Regs.EVT_Q_MOD_TIMER q ≠ 0 → (c0.evq? q).unsignalled ≠ 0 → (c0.evq? q).firstTick + c0.rf Regs.EVT_Q_MOD_TIMER q ≤ c0.tick →
      Answers s (.evtQModTimer n) (fun c => c.out = c0.out ++ [⟨0, [q, c0.rf Regs.EVT_Q_CTRL_VECTOR q]⟩] ∧ (c.evq? q).unsignalled = 0 ∧ c.regs = c0.regs ∧ frame c)) ∧
    (let k := c0.rf Regs.EVT_LOG_INDEX_INDEX
     let x := c0.log.get logDefault k
     x.valid = true → Answers s .logDataRead (fun c => c.resp = .data (BitVec.ofNat 64 x.evt.info1) ∧
       (∀ j, c.log.get logDefault j = if j = k then { x with read := true } else c0.log.get logDefault j) ∧ c.regs = c0.regs ∧ frame c))

/-- An event of a class that an active queue takes, with room for it and another, is written to host memory at the slot of TAIL as the 32 bytes of its record; TAIL
moves to the next slot, or to 0 with the phase inverted; no other byte of host memory differs. With SIZE - 2 records unread an EVENT_QUEUE_OVERFLOW record
is written in its place, and the event is counted as dropped; an inactive or a full queue counts it alone. -/
def Obligations.EventRecords : Prop :=
  ∀ (c : Core) (n seq : Nat) (e : Evt), n < 17 → c.lost = false → e.cls ≤ c.rf Regs.EVT_Q_CTRL_CLASS_MAX n →
    let q := c.evq? n
    let t := c.rf Regs.EVT_Q_TAIL_TAIL n
    let c' := c.evJudge n seq e
    let writes := fun (e : Evt) => c'.readHost (q.base + 32 * t) 32 = evtBytes c.ts seq e q.phase ∧
      (∀ a, (a < q.base + 32 * t ∨ q.base + 32 * t + 32 ≤ a) → c'.readHost a 1 = c.readHost a 1) ∧
      c'.rf Regs.EVT_Q_TAIL_TAIL n = (if t + 1 = q.size then 0 else t + 1) ∧ (c'.evq? n).phase = (if t + 1 = q.size then !q.phase else q.phase)
    (c.flag Regs.EVT_Q_STATUS_ACTIVE n = true → c.evUnread n + 2 < q.size → q.size ≤ 65536 → t < q.size →
      writes e ∧ c'.rf Regs.EVT_Q_DROPPED_DROPPED n = c.rf Regs.EVT_Q_DROPPED_DROPPED n) ∧
    (c.flag Regs.EVT_Q_STATUS_ACTIVE n = true → c.evUnread n + 2 = q.size → q.size ≤ 65536 → t < q.size →
      writes ⟨Cls.info, Src.timebase, if n = 0 then devPart else n - 1, 0x0105, n, 0⟩ ∧ c'.rf Regs.EVT_Q_STATUS_OVERFLOW n = 1 ∧
      c'.rf Regs.EVT_Q_DROPPED_DROPPED n = min (c.rf Regs.EVT_Q_DROPPED_DROPPED n + 1) (2 ^ 64 - 1)) ∧
    (c.flag Regs.EVT_Q_STATUS_ACTIVE n = false ∨ q.size ≤ c.evUnread n + 1 →
      c'.rf Regs.EVT_Q_DROPPED_DROPPED n = min (c.rf Regs.EVT_Q_DROPPED_DROPPED n + 1) (2 ^ 64 - 1) ∧ c'.host = c.host)

/-- SPARE_CLEAR with GO marks the record it names, or every record, as cleared, and leaves the others and the rest as they are; without GO nothing changes. TSTATE_CMD
with GO on a partition that is not ACTIVE, or runs a program, or has an open update item, sets RESULT to PROTECTION and loads nothing; on a header that
the device admits it sets RESULT to SUCCESS, the partition's STEP, SCHED_N and LS_HIST take the header's words, and the event is posted. GPIO_EDGE sets the
levels of inputs and of driven outputs, and the edge bits of inputs that changed; the other edge bits stay. -/
def Obligations.DeviceCommands : Prop :=
  (∀ (w : Word) (s : State), w.getLsbD 11 = true → ∃ t : State, exec (.spareClear w) s = .next t ∧ t.core = s.core ∧ t.pending = s.pending ∧
    { t.perm with spares := s.perm.spares } = s.perm ∧
    ∀ k, t.perm.spares[k]? = (s.perm.spares[k]?).map (fun r =>
      if w.getLsbD 10 = true ∨ k = bits w.toNat 9 0 then { r with cleared := true } else r)) ∧
  (∀ (w : Word) (s : State), w.getLsbD 11 = false → exec (.spareClear w) s = .next s) ∧
  (∀ (w : Word) (s : State), w.getLsbD 4 = true →
    let p := bits w.toNat 3 0
    let c0 := s.core
    let h := c0.readView p (c0.rf Regs.DEV_TSTATE_ARG_OFFSET) 64
    let f := fun (o n : Nat) => leNat ((h.drop o).take n)
    ((c0.pstate p ≠ pACTIVE ∨ (c0.part p).prog.isSome = true ∨ (c0.part p).step.items.any (·.open_) = true) →
      Answers s (.tstateCmd w) (fun c => c.rf Regs.DEV_TSTATE_STATUS_RESULT = St.PROTECTION ∧
        c.others = c0.others ∧ c.evtBuf = c0.evtBuf ∧ ∀ r j, Reg.at r j ≠ Regs.DEV_TSTATE_STATUS.base → c.rd r j = c0.rd r j)) ∧
    ((c0.tstate p).1 = 0 → Answers s (.tstateCmd w) (fun c => c.rf Regs.DEV_TSTATE_STATUS_RESULT = 0 ∧
      c.rd Regs.UPD_STEP (c0.lead p) = f 8 8 ∧ c.rd Regs.UPD_SCHED_N (c0.lead p) = f 52 8 ∧ c.rd Regs.UPD_LS_HIST (c0.lead p) = f 24 8 ∧
      c.evtBuf = c0.evtBuf ++ [⟨Cls.info, Src.updEngine (c0.lead p), p, 0x1003, f 48 4, f 8 8⟩] ∧ c.tiles = c0.tiles ∧ c.parts = c0.parts ∧
      c.scratch = c0.scratch))) ∧
  (∀ (v : BitVec 8) (s : State), Answers s (.gpioEdge v) (fun c =>
    let oe := fun b => (s.core.rf Regs.DEV_GPIO_CFG_OE).testBit b
    let old := fun b => (s.core.rf Regs.DEV_GPIO_IN_LEVEL).testBit b
    (∀ b, b < 8 → (c.rf Regs.DEV_GPIO_IN_LEVEL).testBit b = if oe b then (s.core.rf Regs.DEV_GPIO_CFG_OUT).testBit b else v.getLsbD b) ∧
    (∀ b, b < 8 → (c.rf Regs.DEV_GPIO_EDGE_RISE).testBit b = ((s.core.rf Regs.DEV_GPIO_EDGE_RISE).testBit b || (!oe b && !old b && v.getLsbD b))) ∧
    (∀ b, b < 8 → (c.rf Regs.DEV_GPIO_EDGE_FALL).testBit b = ((s.core.rf Regs.DEV_GPIO_EDGE_FALL).testBit b || (!oe b && old b && !v.getLsbD b))) ∧
    c.others = s.core.others ∧ c.tiles = s.core.tiles ∧ c.evtBuf = s.core.evtBuf))

/-- TILE_SPARE_REQUEST for a mapped logical tile of a group with a spare and no swap starts one at step 1 and posts TILE_SPARE_START, the map being as it was; while the
group swaps, for an unmapped index, or from PF0 for a group without a spare, nothing changes; a failing tile of a group without a spare leaves the map, goes out of
service for good and TILE_GROUP_DEGRADED is posted. TILE_SWAP_DRAINED moves the swap to its copy once no operation of the tile is in progress. TILE_SPARED, with no word lost, puts the
spare in the place of the old tile: the map names it, its sequencer and every byte of its space 0x0 are the old tile's, the old tile is out of service and a sparing
record waits; no other tile differs. While a firmware activation holds, the trigger waits and nothing else changes. -/
def Obligations.TileSparing : Prop :=
  ∀ (l : Fin 256) (s : State),
    let c0 := s.core
    let g := l.val / 16
    let p := (c0.partOfGroup g).getD devPart
    let swapping := c0.tileSwaps.any (fun w => groupOfLogical w.ltile == g)
    (∀ k : Fin 3, c0.fwHold = true → Answers s (.tileSpareRequest l k) (fun c => c = { c0 with heldSwaps := c.heldSwaps } ∧ HeldSwap.tile l.val k.val ∈ c.heldSwaps)) ∧
    (c0.fwHold = false → (∀ (k : Fin 3) t, c0.phys l.val = some t → swapping = false → (c0.spareTile g).isSome = true →
      Answers s (.tileSpareRequest l k) (fun c => c.tileSwaps = c0.tileSwaps ++ [{ ltile := l.val, step := 1, trigger := k.val }] ∧ c.map = c0.map ∧
        c.evtBuf = c0.evtBuf ++ [⟨Cls.info, Src.tile t, p, 0x1000, swapInfo l.val t k.val % 2 ^ 64, 0⟩] ∧ c.tiles = c0.tiles ∧ c.parts = c0.parts ∧
        c.mems = c0.mems ∧ c.items = c0.items)) ∧
    (∀ k : Fin 3, (swapping = true ∨ c0.phys l.val = none ∨ (k = 2 ∧ (c0.spareTile g).isNone = true)) → exec (.tileSpareRequest l k) s = .next s) ∧
    (∀ (k : Fin 3) t, c0.phys l.val = some t → swapping = false → (c0.spareTile g).isNone = true → k ≠ 2 →
      Answers s (.tileSpareRequest l k) (fun c => c.phys l.val = none ∧ (∀ m, m ≠ l.val → c.phys m = c0.phys m) ∧ c.outTiles = c0.outTiles ++ [t] ∧
        c.spareQ = c0.spareQ ++ [{ kind := 0, unit := t, sub := 0 }] ∧ c.tileSwaps = c0.tileSwaps ∧
        ((∀ o ∈ c0.ops, o.ltile = l.val → o.item = none) → c.mems = c0.mems) ∧
        ⟨Cls.item, Src.tile t, p, 0x1002, (g + l.val * 2 ^ 4) % 2 ^ 64, 0⟩ ∈ c.evtBuf))) ∧
    (∀ lost : List Nat, c0.ops.any (fun o => o.ltile == l.val) = false →
      Answers s (.tileSwapDrained l lost) (fun c => c = { c0 with tileSwaps := c.tileSwaps } ∧
        c.tileSwaps = c0.tileSwaps.map (fun w => if w.ltile = l.val ∧ w.step = 1 then { w with step := 4, lost := lost } else w))) ∧
    (∀ lost : List Nat, c0.ops.any (fun o => o.ltile == l.val) = true → exec (.tileSwapDrained l lost) s = .next s) ∧
    (∀ w a b, c0.tileSwaps.find? (fun w => w.ltile == l.val && w.step == 4) = some w → c0.phys l.val = some a → c0.spareTile g = some b → w.lost = [] →
      a < 272 → b < 272 → a ≠ b → Memory.wf c0.scratch = true →
      Answers s (.tileSpared l) (fun c => c.phys l.val = some b ∧ (∀ m, m ≠ l.val → c.phys m = c0.phys m) ∧ c.tile b = c0.tile a ∧
        (∀ u, u ≠ a → u ≠ b → c.tile u = c0.tile u) ∧ (∀ o, o < 0x300000 → c.readPlace (.scratch b o) = c0.readPlace (.scratch a o)) ∧
        (∀ u o, u ≠ a → u ≠ b → u < 272 → o < 0x300000 → c.readPlace (.scratch u o) = c0.readPlace (.scratch u o)) ∧
        c.outTiles = c0.outTiles ++ [a] ∧ c.spareQ = c0.spareQ ++ [{ kind := 0, unit := a, sub := 0 }] ∧
        c.tileSwaps = c0.tileSwaps.filter (fun v => v.ltile != l.val) ∧ c.items = c0.items ∧ c.ops = c0.ops))

/-- BANK_OFF and BANK_RETAIN (in compatibility mode, outside Umbra) queue a request for each named bank not in that state; BANK_ON starts the power-up of each named
bank that is off; on a physical tile that serves no logical tile, and BANK_RETAIN in native mode, PWR_REFUSED sets and nothing else happens.
BANK_POWER_DOWN of a requested bank that no swap and no operation holds turns it off, its bytes lost, or retains it with its bytes; a bank of a CODE section or of the
stash reservation, and one to be retained that may not be by then, is refused. BANK_WAKE brings a retained bank back with its bytes and clears an off one; BANK_WAKE_DONE turns a cleared bank on.
BANK_CFG_WRITE sets SWAP_THRESH and, with no program in the partition, TX1_COMPAT of the whole group; setting it refuses nothing. -/
def Obligations.BankPower : Prop :=
  ∀ (t : PTile) (s : State),
    let c0 := s.core
    let n := t.val
    let frame := fun (c : Core) => c.tiles = c0.tiles ∧ c.parts = c0.parts ∧ c.items = c0.items ∧ c.ops = c0.ops ∧ c.evtBuf = c0.evtBuf ∧ c.dram = c0.dram
    let refused := fun (i : Instr) => Answers s i (fun c => c.rf Regs.TILE_BANK_STATUS_PWR_REFUSED n = 1 ∧
      s.core.onlyRegs c (fun k => k = Regs.TILE_BANK_STATUS.at n))
    (∀ banks : BitVec 24, (c0.logical n = none → refused (.bankOff t banks) ∧ refused (.bankRetain t banks) ∧ refused (.bankOn t banks)) ∧
      ((c0.logical n).isSome = true → c0.flag Regs.TILE_BANK_CFG_TX1_COMPAT n = false → refused (.bankRetain t banks)) ∧
      (∀ l, c0.logical n = some l → Answers s (.bankOff t banks) (fun c => c = { c0 with bankReqs := c.bankReqs } ∧
        c.bankReqs = c0.bankReqs ++ ((bitsIn 24 banks.toNat).filter (fun b => c0.bankState n b != bkOFF)).map (fun b => ⟨n, b, false⟩))) ∧
      (∀ l, c0.logical n = some l → c0.flag Regs.TILE_BANK_CFG_TX1_COMPAT n = true → (bitsIn 24 banks.toNat).any (isUmbra l) = false →
        Answers s (.bankRetain t banks) (fun c => c = { c0 with bankReqs := c.bankReqs } ∧ c.bankReqs = c0.bankReqs ++
          ((bitsIn 24 banks.toNat).filter (fun b => !isUmbra l b && c0.bankState n b != bkRETAIN)).map (fun b => ⟨n, b, true⟩))) ∧
      (∀ l, c0.logical n = some l → Answers s (.bankOn t banks) (fun c => frame c ∧ c.bankReqs = c0.bankReqs ∧
        ∀ b, b < 24 → c.bankState n b = if banks.getLsbD b ∧ c0.bankState n b = bkOFF then bkCLEARING else c0.bankState n b))) ∧
    (∀ (b : Fin 24) r, c0.bankReqs.find? (fun r => r.tile == n && r.bank == b.val) = some r →
      c0.bankSwaps.any (fun w => w.tile == n && w.bank == b.val) = false → c0.ops.any (fun o => o.banks.contains (n, b.val)) = false →
      c0.items.any (fun i => i.started && i.banks.contains (n, b.val)) = false →
      let no := c0.bankHeld n b.val = true ∨ r.retain = true ∧ (c0.flag Regs.TILE_BANK_CFG_TX1_COMPAT n = false ∨ isUmbra ((c0.logical n).getD 0) b.val = true)
      (no → Answers s (.bankPowerDown t b) (fun c => c.rf Regs.TILE_BANK_STATUS_PWR_REFUSED n = 1 ∧
        c.bankState n b.val = c0.bankState n b.val ∧ c.bankReqs = c0.bankReqs.erase r ∧ c.scratch = c0.scratch ∧ frame c)) ∧
      (¬no → Answers s (.bankPowerDown t b) (fun c => c.bankReqs = c0.bankReqs.erase r ∧ frame c ∧
        c.bankState n b.val = (if r.retain then bkRETAIN else bkOFF) ∧ (r.retain = true → c.scratch = c0.scratch) ∧
        (r.retain = false → ∀ o, o < 0x300000 → c.readPlace (.scratch n o) = if o / bankBytes = b.val then 0 else c0.readPlace (.scratch n o)) ∧
        ∀ k, k < 24 → k ≠ b.val → c.bankState n k = c0.bankState n k))) ∧
    (∀ b : Fin 24, ((∀ r ∈ c0.bankReqs, r.tile ≠ n ∨ r.bank ≠ b.val) ∨ c0.bankSwaps.any (fun w => w.tile == n && w.bank == b.val) = true ∨
        c0.ops.any (fun o => o.banks.contains (n, b.val)) = true ∨ c0.items.any (fun i => i.started && i.banks.contains (n, b.val)) = true) → exec (.bankPowerDown t b) s = .next s) ∧
    (∀ b : Fin 24, (c0.bankState n b.val = bkRETAIN → Answers s (.bankWake t b) (fun c => c.bankState n b.val = bkON ∧ c.scratch = c0.scratch ∧ frame c)) ∧
      (c0.bankState n b.val = bkOFF → Answers s (.bankWake t b) (fun c => c.bankState n b.val = bkCLEARING ∧ frame c ∧
        ∀ o, o < 0x300000 → c.readPlace (.scratch n o) = if o / bankBytes = b.val then 0 else c0.readPlace (.scratch n o))) ∧
      (c0.bankState n b.val = bkON ∨ c0.bankState n b.val = bkCLEARING → exec (.bankWake t b) s = .next s) ∧
      (c0.bankState n b.val = bkCLEARING → c0.wiping n b.val = false →
        Answers s (.bankWakeDone t b) (fun c => c.bankState n b.val = bkON ∧ c.scratch = c0.scratch ∧ frame c)) ∧
      (c0.bankState n b.val ≠ bkCLEARING ∨ c0.wiping n b.val = true → exec (.bankWakeDone t b) s = .next s)) ∧
    (∀ w : Word, let runs := (match c0.partOfGroup (n / 17) with | some p => (c0.part p).prog.isSome | none => false) = true
      (runs → Answers s (.bankCfgWrite t w) (fun c => c.rf Regs.TILE_BANK_CFG_SWAP_THRESH n = bits w.toNat 7 0 ∧
        c.rf Regs.TILE_BANK_STATUS_PWR_REFUSED n = 1 ∧ (∀ u, u < 272 → c.rf Regs.TILE_BANK_CFG_TX1_COMPAT u = c0.rf Regs.TILE_BANK_CFG_TX1_COMPAT u) ∧ frame c)) ∧
      (¬runs → Answers s (.bankCfgWrite t w) (fun c => c.rf Regs.TILE_BANK_CFG_SWAP_THRESH n = bits w.toNat 7 0 ∧ frame c ∧
        ∀ u, u < 272 → c.rf Regs.TILE_BANK_CFG_TX1_COMPAT u = if u / 17 = n / 17 then bits w.toNat 8 8 else c0.rf Regs.TILE_BANK_CFG_TX1_COMPAT u)))

/-- BANK_SWAP_REQ with GO for a bank below 24 of a tile whose spare bank is free and which swaps no bank and is not swapped itself starts the swap and posts BANK_SPARE_START, or waits while a firmware activation holds; for another it sets
SWAP_REFUSED; without GO nothing happens. BANK_SPARED, with no further word lost in the copy, puts the spare bank in the place of the swapped one: each byte of the tile's space 0x0 reads as before but those
of words that were lost, which read zero; the map records it, the sparing record waits and BANK_SPARED is posted. UMBRA_WIPED of a wipe that is no reset's ends it: its
banks that still clear are on, or off after a removal or in no ACTIVE partition, WIPING clears and UMBRA_WIPED is posted. -/
def Obligations.BankSwaps : Prop :=
  ∀ (t : PTile) (s : State),
    let c0 := s.core
    let n := t.val
    let p := (c0.partOfGroup (groupOfPhys n)).getD devPart
    let frame := fun (c : Core) => c.tiles = c0.tiles ∧ c.parts = c0.parts ∧ c.items = c0.items ∧ c.ops = c0.ops ∧ c.dram = c0.dram ∧ c.map = c0.map
    (∀ w : Word, let b := bits w.toNat 4 0
      (w.getLsbD 5 = true → b < 24 → c0.fwHold = false → c0.flag Regs.TILE_BANK_MAP_SPARE_USED n = false → c0.bankSwaps.any (fun v => v.tile == n) = false →
        c0.tileSwaps.any (fun v => c0.phys v.ltile == some n) = false → Answers s (.bankSwapReq t w) (fun c => c.bankSwaps = c0.bankSwaps ++ [{ tile := n, bank := b, trigger := 2, words := [] }] ∧
          c.rf Regs.TILE_BANK_STATUS_SWAPPING n = 1 ∧ c.scratch = c0.scratch ∧ frame c ∧
          c.evtBuf = c0.evtBuf ++ [⟨Cls.info, Src.tile n, p, 0x0700, bankSwapInfo b b 2, 0⟩])) ∧
      (w.getLsbD 5 = true → b < 24 → c0.fwHold = true → c0.flag Regs.TILE_BANK_MAP_SPARE_USED n = false → c0.bankSwaps.any (fun v => v.tile == n) = false →
        Answers s (.bankSwapReq t w) (fun c => c = { c0 with heldSwaps := c.heldSwaps } ∧ HeldSwap.bank n b 2 [] ∈ c.heldSwaps)) ∧
      (w.getLsbD 5 = true → (23 < b ∨ c0.flag Regs.TILE_BANK_MAP_SPARE_USED n = true ∨ c0.bankSwaps.any (fun v => v.tile == n) = true) →
        Answers s (.bankSwapReq t w) (fun c => c.rf Regs.TILE_BANK_STATUS_SWAP_REFUSED n = 1 ∧ c0.onlyRegs c (fun k => k = Regs.TILE_BANK_STATUS.at n))) ∧
      (w.getLsbD 5 = false → exec (.bankSwapReq t w) s = .next s)) ∧
    (∀ v, c0.bankSwaps.find? (fun w => w.tile == n) = some v → v.bank < 24 → v.thenTile = false → c0.flag Regs.TILE_BANK_MAP_SPARE_USED n = false →
      Memory.wf c0.scratch = true → v.trigger < 4 →
      Answers s (.bankSpared t []) (fun c => c.rf Regs.TILE_BANK_MAP_SPARE_USED n = 1 ∧ c.rf Regs.TILE_BANK_MAP_SPARE_FOR n = v.bank ∧
        c.rf Regs.TILE_BANK_MAP_RETIRED n = v.bank ∧ c.rf Regs.TILE_BANK_STATUS_SWAPPING n = 0 ∧ c.bankSwaps = c0.bankSwaps.erase v ∧
        c.spareQ = c0.spareQ ++ [{ kind := 1, unit := n, sub := v.bank }] ∧ frame c ∧
        (∀ o, o < 0x300000 → c.readPlace (.scratch n o) =
          if o / bankBytes = v.bank ∧ o % bankBytes / 4 * 4 ∈ v.words.map (· % bankBytes) then 0 else c0.readPlace (.scratch n o)) ∧
        ∃ cycles, c.evtBuf = c0.evtBuf ++ [⟨Cls.info, Src.tile n, p, 0x0701, bankSwapInfo v.bank v.bank v.trigger, cycles⟩])) ∧
    ((∀ w ∈ c0.bankSwaps, w.tile ≠ n) → ∀ lost, exec (.bankSpared t lost) s = .next s) ∧
    (∀ (k : Nat) w, c0.wipes[k]? = some w → w.trigger ≠ 4 → (∀ v ∈ c0.wipes.erase w, c0.umbraOf v = []) → w.groups < 2 ^ 16 → w.trigger < 8 →
      (∀ e ∈ c0.umbraOf w, e.1 < 272) →
      Answers s (.umbraWiped k) (fun c => c.wipes = c0.wipes.erase w ∧ frame c ∧ c.scratch = c0.scratch ∧
        (∀ e ∈ c0.umbraOf w, c.rf Regs.TILE_BANK_STATUS_WIPING e.1 = 0 ∧ c.bankState e.1 e.2 ≠ bkCLEARING ∧
          (c0.bankState e.1 e.2 = bkCLEARING → w.trigger < 2 → (∃ q, c0.partOfGroup (groupOfPhys e.1) = some q ∧ c0.pstate q = pACTIVE) →
            c.bankState e.1 e.2 = bkON) ∧
          (c0.bankState e.1 e.2 = bkCLEARING → 2 ≤ w.trigger → c.bankState e.1 e.2 = bkOFF)) ∧
        ∃ src, c.evtBuf = c0.evtBuf ++ [⟨Cls.info, src, w.part, 0x0703, w.groups + w.trigger * 2 ^ 16, 0⟩])) ∧
    (∀ k : Nat, c0.wipes[k]? = none → exec (.umbraWiped k) s = .next s)

/-- CHANNEL_RETRAIN of an active channel counts it; the third failure in a row marks the channel FAILED and asks for its retirement. RETIRE_REQ with GO for an active channel
asks for its retirement once. CHANNEL_RETIRE_START with no migration under way takes the oldest request: beyond eight retired channels, without room for the owned
granules, or with a firmware activation staged it is refused with its error bit and event, else the migration starts at step 1 (or 2). GRANULE_MIGRATED
moves the owner entry of the next granule above the limit to the lowest free granule below it, and its bytes with it. CHANNEL_RETIRED takes the channel out of ACTIVE, counts it,
and adds it to what no reset undoes. -/
def Obligations.Channels : Prop :=
  ∀ s : State,
    let c0 := s.core
    let active := c0.activeChannels
    let frame := fun (c : Core) => c.tiles = c0.tiles ∧ c.parts = c0.parts ∧ c.items = c0.items ∧ c.scratch = c0.scratch
    let step := c0.rf Regs.MEM_MIG_STATUS_STEP
    let limit := usableOf (active.length - 1)
    let owner := fun (c : Core) g => c.rf Regs.MEM_GRANULE_OWNER_PART g
    (∀ (h : Fin 48) (ok : Bool), active.contains h.val = true →
      let n := c0.trainFails.get (fun _ => 0) h.val
      Answers s (.channelRetrain h ok) (fun c => c.rf Regs.MEM_RETRAINS_COUNT h.val = min (c0.rf Regs.MEM_RETRAINS_COUNT h.val + 1) (2 ^ 64 - 1) ∧
        c.trainFails.get (fun _ => 0) h.val = (if ok then 0 else n + 1) ∧ frame c ∧ c.dram = c0.dram ∧
        (ok = false → n = 2 → h.val ∈ c.failedCh ∧ (c0.retireQ.any (fun r => r.1 == h.val) = false → h.val ∉ c0.failedCh → c.retireQ = c0.retireQ ++ [(h.val, 1)])) ∧
        ((ok = true ∨ n ≠ 2) → c.failedCh = c0.failedCh ∧ c.retireQ = c0.retireQ))) ∧
    (∀ (h : Fin 48) (ok : Bool), active.contains h.val = false → exec (.channelRetrain h ok) s = .next s) ∧
    (∀ w : Word, let h := bits w.toNat 5 0
      Answers s (.retireReq w) (fun c => c = { c0 with retireQ := c.retireQ } ∧
        c.retireQ = if w.getLsbD 6 && active.contains h && !c0.retireQ.any (fun r => r.1 == h) then c0.retireQ ++ [(h, 0)] else c0.retireQ)) ∧
    (∀ h trigger rest, c0.retireQ = (h, trigger) :: rest → step = 0 → active.contains h = true → trigger < 4 →
      let refuse := fun cause (f : Fld) => Answers s .channelRetireStart (fun c => c.rf f = 1 ∧ c.retireQ = rest ∧ frame c ∧ c.dram = c0.dram ∧
        c.rf Regs.MEM_MIG_STATUS_STEP = 0 ∧ c.evtBuf = c0.evtBuf ++ [⟨Cls.device, Src.channel h, devPart, 0x0803, h + cause * 2 ^ 6, 0⟩])
      let full := 8 ≤ c0.rf Regs.MEM_MEM_STATUS_RETIRED_COUNT
      let tight := limit < c0.ownedGranules.length
      (full → refuse 0 Regs.MEM_RETIRE_ERR_LIMIT) ∧ (¬full → tight → refuse 1 Regs.MEM_RETIRE_ERR_SPACE) ∧
      (¬full → ¬tight → c0.fwStaged = true → refuse 2 Regs.MEM_RETIRE_ERR_FW) ∧
      (¬full → ¬tight → c0.fwStaged = false → Answers s .channelRetireStart (fun c => c.rf Regs.MEM_MIG_STATUS_CHANNEL = h ∧
        c.rf Regs.MEM_MEM_STATUS_MIGRATING = 1 ∧ c.retireQ = rest ∧ frame c ∧ c.dram = c0.dram ∧
        c.rf Regs.MEM_MIG_STATUS_STEP = (if c0.ownedGranules.any (fun g => decide (limit ≤ g)) then 1 else 2) ∧
        c.evtBuf = c0.evtBuf ++ [⟨Cls.info, Src.channel h, devPart, 0x0801, h + trigger * 2 ^ 6, 0⟩]))) ∧
    (c0.retireQ = [] ∨ step ≠ 0 → exec .channelRetireStart s = .next s) ∧
    (∀ a b, step = 1 → c0.nextGranule = some a → (List.range limit).find? (fun g => owner c0 g == 0x1F) = some b →
      Answers s (.granuleMigrated []) (fun c => c.rd Regs.MEM_GRANULE_OWNER b = c0.rd Regs.MEM_GRANULE_OWNER a ∧ owner c a = 0x1F ∧
        (∀ g, g < 372 → g ≠ a → g ≠ b → c.rd Regs.MEM_GRANULE_OWNER g = c0.rd Regs.MEM_GRANULE_OWNER g) ∧ frame c ∧
        ∀ o, o < granuleBytes → Memory.wf c0.dram = true →
          c.dram.get zeroByte (b * granuleBytes + o) = c0.dram.get zeroByte (a * granuleBytes + o))) ∧
    (step ≠ 1 → ∀ lost, exec (.granuleMigrated lost) s = .next s) ∧
    (step = 2 → c0.rf Regs.MEM_MIG_STATUS_CHANNEL < 48 → ∃ t : State, exec (.channelRetired []) s = .next t ∧ t.pending = s.pending ∧
      t.perm = { s.perm with retired := s.perm.retired ++ [c0.rf Regs.MEM_MIG_STATUS_CHANNEL] } ∧
      (∀ h, h < 48 → h ≠ c0.rf Regs.MEM_MIG_STATUS_CHANNEL → (h ∈ t.core.activeChannels ↔ h ∈ active)) ∧
      c0.rf Regs.MEM_MIG_STATUS_CHANNEL ∉ t.core.activeChannels ∧ t.core.rf Regs.MEM_MIG_STATUS_STEP = 0 ∧ t.core.rf Regs.MEM_MEM_STATUS_MIGRATING = 0 ∧
      t.core.rf Regs.MEM_USABLE_GRANULES = usableOf t.core.activeChannels.length ∧ t.core.scratch = c0.scratch) ∧
    (step ≠ 2 → ∀ lost, exec (.channelRetired lost) s = .next s)

/-- SSD_ENABLE: setting ENABLE of a slot that was disabled makes it ACTIVE and not FAILED when the SSD's LBA size is right, else ENABLE stays clear and FORMAT_ERR sets; clearing it
clears ACTIVE. NVME_COMPLETION with a failure is counted; the first two send the command again, the third fails the slot: SSD_FAILED is posted, FAILED sets and what the
slot's commands serve ends with LINK_DOWN, as at SSD_FAILED, when a command has had no completion for NVME_TIMEOUT. A success ends what the command serves: an
operation or item whose last one it was may complete, a fetched block is there, a written-back block's staged bytes stand on flash. DIR_DATA writes TIER and
ADDR of the entry, clears ACCESS and PEND, and steps DIR_INDEX, or sets CFG_ERR when the partition's row path is busy. ROW_ACCESS_DEADLINE gives a late access ROW_DEADLINE. -/
def Obligations.SlowTier : Prop :=
  ∀ s : State,
    let c0 := s.core
    let fails := fun (n : NvCmd) timeout status (c : Core) => ∃ c1 : Core, c = c1.nvDrop (c0.nvcmds.filter (fun m => m.slot == n.slot)) ∧
      c1.rf Regs.SLOW_SSD_STATUS_FAILED n.slot = 1 ∧ c1.rf Regs.SLOW_SSD_STATUS_ACTIVE n.slot = 0 ∧ c1.others = c0.others ∧ c1.parts = c0.parts ∧ c1.tiles = c0.tiles ∧
      c1.evtBuf = c0.evtBuf ++ [⟨Cls.item, Src.ssd n.slot, c0.slotPart n.slot, 0x0812, n.slot + b2n timeout * 2 ^ 3 + status * 2 ^ 4, 0⟩] ∧
      ∀ o, (c0.nvcmds.map (·.id)).Nodup → (∀ m ∈ c0.nvcmds, m.slot = n.slot → m.owner = .op o) → c0.qps = [] → c0.slowReqs = [] → (∀ m ∈ c0.nvcmds, m.slot ≠ n.slot → m.owner ≠ .op o) →
        c.nvcmds = c0.nvcmds.filter (fun m => m.slot != n.slot) ∧
        c.ops = c0.ops.map (fun x => if x.id = o then { x with wait := false, info := if x.wait then 0 else x.info,
                                                               status := if x.status = 0 then St.LINK_DOWN else x.status } else x)
    (∀ (n : Fin 8) (w : Word) (ok : Bool),
      let v := w.toNat % 2 ^ 29
      let was := c0.flag Regs.SLOW_SSD_CTRL_ENABLE n.val
      let only := fun (c : Core) => c0.onlyRegs c (fun k => k = Regs.SLOW_SSD_CTRL.at n.val ∨ k = Regs.SLOW_SSD_STATUS.at n.val)
      Answers s (.ssdEnable n w ok) (fun c => only c ∧
        (w.getLsbD 0 = true → was = false → ok = true → c.rd Regs.SLOW_SSD_CTRL n.val = v ∧ c.rf Regs.SLOW_SSD_STATUS_ACTIVE n.val = 1 ∧
          c.rf Regs.SLOW_SSD_STATUS_FAILED n.val = 0 ∧ c.rf Regs.SLOW_SSD_STATUS_FORMAT_ERR n.val = c0.rf Regs.SLOW_SSD_STATUS_FORMAT_ERR n.val) ∧
        (w.getLsbD 0 = true → was = false → ok = false → c.rd Regs.SLOW_SSD_CTRL n.val = v - 1 ∧ c.rf Regs.SLOW_SSD_STATUS_FORMAT_ERR n.val = 1 ∧
          c.rf Regs.SLOW_SSD_STATUS_ACTIVE n.val = c0.rf Regs.SLOW_SSD_STATUS_ACTIVE n.val) ∧
        (w.getLsbD 0 = true → was = true → c.rd Regs.SLOW_SSD_CTRL n.val = v ∧ c.rd Regs.SLOW_SSD_STATUS n.val = c0.rd Regs.SLOW_SSD_STATUS n.val) ∧
        (w.getLsbD 0 = false → c.rd Regs.SLOW_SSD_CTRL n.val = v ∧ c.rf Regs.SLOW_SSD_STATUS_ACTIVE n.val = 0 ∧
          c.rf Regs.SLOW_SSD_STATUS_FAILED n.val = c0.rf Regs.SLOW_SSD_STATUS_FAILED n.val))) ∧
    (∀ id (st : BitVec 16) n, c0.nvcmds.find? (fun n => n.id == id) = some n → n.slot < 8 →
      let left := c0.nvcmds.filter (fun x => x.id != id)
      let c1 : Core := { c0 with nvcmds := left }
      (st ≠ 0 → n.tries < 2 → Answers s (.nvmeCompletion id st) (fun c => c = { c0 with regs := c.regs, nvcmds := c.nvcmds, out := c.out } ∧
        c.rf Regs.SLOW_ERRORS_COUNT n.slot = min (c0.rf Regs.SLOW_ERRORS_COUNT n.slot + 1) Regs.SLOW_ERRORS_COUNT.top ∧
        c.nvcmds = c0.nvcmds.map (fun x => if x.id = id then { x with tries := x.tries + 1, issued := c0.tick } else x) ∧
        c.out = c0.out ++ [⟨1, [n.slot, n.kind, c0.rf Regs.SLOW_NSID_NSID n.slot, n.block]⟩])) ∧
      (st ≠ 0 → 2 ≤ n.tries → Answers s (.nvmeCompletion id st) (fails n false st.toNat)) ∧
      (∀ o, st = 0 → n.owner = .op o → Answers s (.nvmeCompletion id st) (fun c => c = { c0 with nvcmds := left, dir := c.dir, ops := c.ops } ∧
        c.ops = if c1.slowBusy o false then c0.ops else c0.ops.map (fun x => if x.id = o then { x with wait := false, info := if x.wait then 0 else x.info } else x))) ∧
      (∀ o i, st = 0 → n.owner = .item o → c0.item? o = some i → (c0.part i.part).revoked = false → Answers s (.nvmeCompletion id st) (fun c =>
        (c1.slowBusy o true = true → c = { c0 with nvcmds := left, dir := c.dir }) ∧
        (c1.slowBusy o true = false → c.items = c0.items.filter (fun j => j.id != o) ∧ c.nvcmds = left ∧ c.ops = c0.ops ∧ c.tiles = c0.tiles ∧
          ∃ r, c.recs = c0.recs ++ [r] ∧ r.part = i.part ∧ r.cq = i.cq ∧ r.tag = i.tag ∧ r.status = i.status))) ∧
      (∀ p, st = 0 → n.owner = .fetch p → Answers s (.nvmeCompletion id st) (fun c => c = { c0 with nvcmds := left, dir := c.dir, stageBlks := c.stageBlks } ∧
        c.stageBlks = c0.stageBlks.map (fun b => if b.slot = n.slot ∧ b.block = n.block then { b with fetching := false } else b))) ∧
      (∀ p, st = 0 → n.owner = .writeback p → Memory.wf c0.flash = true → c0.staged.wf (fun _ => none) = true →
        Answers s (.nvmeCompletion id st) (fun c => c = { c0 with nvcmds := left, dir := c.dir, stageBlks := c.stageBlks, flash := c.flash } ∧
          c.stageBlks = c0.stageBlks.map (fun b => if b.slot = n.slot ∧ b.block = n.block then { b with dirty := false } else b) ∧
          ∀ a, c.flash.get zeroByte a = if a / 2 ^ 45 = n.slot ∧ a % 2 ^ 45 / 4096 = n.block then ((c0.staged.get (fun _ => none) a).getD (c0.flash.get zeroByte a))
            else c0.flash.get zeroByte a))) ∧
    (∀ id, c0.nvcmds.find? (fun n => n.id == id) = none → (∀ st, exec (.nvmeCompletion id st) s = .next s) ∧ exec (.ssdFailed id) s = .next s) ∧
    (∀ id n, c0.nvcmds.find? (fun n => n.id == id) = some n → n.slot < 8 →
      let due := n.issued + max 1 (c0.rf Regs.SLOW_NVME_TIMEOUT_MS) * Config.ticksPerMs
      (c0.tick < due → exec (.ssdFailed id) s = .next s) ∧ (due ≤ c0.tick → Answers s (.ssdFailed id) (fails n true 0))) ∧
    (∀ (p : PartId) (w : Word),
      let k := c0.rf Regs.SLOW_DIR_INDEX_INDEX p.val
      let e := c0.rf Regs.SLOW_DIR_RANGE_FIRST p.val + k
      let bad := c0.dirBusy p.val = true ∨ c0.rf Regs.SLOW_DIR_RANGE_COUNT p.val ≤ k
      (bad → Answers s (.dirData p w) (fun c => c.rf Regs.SLOW_SLOW_PSTATUS_CFG_ERR p.val = 1 ∧ c0.onlyRegs c (fun r => r = Regs.SLOW_SLOW_PSTATUS.at p.val))) ∧
      (¬bad → Answers s (.dirData p w) (fun c => c = { c0 with regs := c.regs, dir := c.dir } ∧
        (c.dir.get dirDefault e).toNat = w.toNat % 4 + bits w.toNat 35 4 * 16 + 0x1FFFF * 2 ^ 47 ∧ (∀ j, j ≠ e → c.dir.get dirDefault j = c0.dir.get dirDefault j) ∧
        c.rf Regs.SLOW_DIR_INDEX_INDEX p.val = (k + 1) % 2 ^ (Regs.SLOW_DIR_INDEX_INDEX.hi + 1 - Regs.SLOW_DIR_INDEX_INDEX.lo)))) ∧
    (∀ id item,
      let w := if item then NvOwner.item id else NvOwner.op id
      let p := if item then ((c0.item? id).map (·.part)).getD 0 else ((c0.op? id).map (·.part)).getD 0
      let early := c0.nvcmds.any (fun n => n.owner == w && decide (c0.tick < n.began + c0.deadlineTicks p))
      (c0.slowBusy id item = false ∨ early = true → exec (.rowAccessDeadline id item) s = .next s) ∧
      (c0.slowBusy id item = true → early = false → item = false → Answers s (.rowAccessDeadline id item) (fun c => c.slowBusy id item = false ∧
        c = { c0 with nvcmds := c.nvcmds, slowReqs := c.slowReqs, qps := c.qps, dir := c.dir, ops := c.ops } ∧ c.nvcmds = c0.nvcmds.filter (fun n => n.owner != w) ∧
        c.ops = c0.ops.map (fun x => if x.id = id then { x with wait := false, info := if x.wait then 0 else x.info,
                                                                status := if x.status = 0 then St.ROW_DEADLINE else x.status } else x))) ∧
      (∀ i, c0.slowBusy id item = true → early = false → item = true → c0.item? id = some i → (c0.part i.part).revoked = false →
        Answers s (.rowAccessDeadline id item) (fun c => c.slowBusy id item = false ∧ c.items.any (·.id == id) = false ∧ c.ops = c0.ops ∧ c.tiles = c0.tiles ∧
          ∃ r, c.recs = c0.recs ++ [r] ∧ r.part = i.part ∧ r.cq = i.cq ∧ r.tag = i.tag ∧
            r.status = if i.status = 0 then St.ROW_DEADLINE else i.status)))

/-- ROW_ACCEPT of an item that waits for one position, in an undecided step with nothing else waiting: a row with an entry adds the gradient to its accumulator; a row
without one takes a free entry, which starts at zero, and with none free it keeps waiting and PEND_FULL is posted once a step. ROW_FETCH_DONE marks every row whose state
has arrived as present. ROW_WRITEBACK writes a settled changed block back, and when its slot does not serve the block is stuck and the failure is Partition fatal.
ROW_WRITEBACK_DONE of a block still dirty is that failure. ROW_STEP_DEADLINE does nothing before the deadline; at it every entry is freed. STASH_SPILL_DONE lets the tile go on. -/
def Obligations.RowPath : Prop :=
  ∀ (p : PartId) (s : State),
    let c0 := s.core
    let q := (c0.part p.val).step
    let pend := (c0.part p.val).pend
    let quiet := q.committed = false ∧ c0.slowReqs = []
    let frame := fun (c : Core) => c.tiles = c0.tiles ∧ c.items = c0.items ∧ c.ops = c0.ops ∧ c.scratch = c0.scratch ∧ c.dram = c0.dram ∧ c.flash = c0.flash ∧
      ∀ u, u ≠ p.val → c.part u = c0.part u
    (∀ op i k, q.items.find? (fun i => i.op == op && i.open_ && !i.todo.isEmpty) = some i → c0.fwHold = false → quiet → i.todo = [k] →
      (∀ j ∈ q.items, j.op ≠ op → j.todo = []) → (∀ j ∈ q.items, j.op = op → j = i) →
      let row := (i.rows[k]?).getD 0
      let tb := i.table.getD 0
      let g := c0.gradRow p.val i k
      (∀ r, pend.find? (fun r => r.table == tb && r.row == row) = some r → r.count < 4194303 → Answers s (.rowAccept p op) (fun c => frame c ∧
        (c.part p.val).pend = pend.map (fun y => if y.slot = r.slot then { r with acc := (r.acc.zip g).map (fun e => e.1 + fixed24 e.2), count := r.count + 1 } else y) ∧
        ∀ j ∈ (c.part p.val).step.items, j.todo = [])) ∧
      (pend.find? (fun r => r.table == tb && r.row == row) = none → c0.rf Regs.SLOW_PEND_ROWS_ROWS p.val ≤ pend.length →
        Answers s (.rowAccept p op) (fun c => frame c ∧ (c.part p.val).pend = pend ∧ (c.part p.val).step = { q with pendFull := true } ∧
          c.evtBuf = c0.evtBuf ++ (if q.pendFull then [] else [⟨Cls.info, Src.updEngine (c0.lead p.val), p.val, 0x0810, c0.stepOf p.val % 2 ^ 64, 0⟩]))) ∧
      (pend.find? (fun r => r.table == tb && r.row == row) = none → pend.length < c0.rf Regs.SLOW_PEND_ROWS_ROWS p.val →
        (∃ u d, c0.rowAddr p.val tb row = .view u d) ∨ (∃ t o, c0.rowAddr p.val tb row = .scratch t o) →
        Answers s (.rowAccept p op) (fun c => frame c ∧ (∀ j ∈ (c.part p.val).step.items, j.todo = []) ∧ ∃ r : PendRow, (c.part p.val).pend = pend ++ [r] ∧
          r.table = tb ∧ r.row = row ∧ r.count = 1 ∧ r.present = true ∧ (∀ y ∈ pend, y.slot ≠ r.slot) ∧
          r.acc = ((List.replicate (c0.rowTable p.val tb).elems (0 : Int)).zip g).map (fun e => e.1 + fixed24 e.2)))) ∧
    (∀ op, (q.items.find? (fun i => i.op == op && i.open_ && !i.todo.isEmpty) = none ∨ c0.fwHold = true) → exec (.rowAccept p op) s = .next s) ∧
    (quiet → (∀ j ∈ q.items, j.todo = []) → (∀ r ∈ pend, r.waits = false) →
      (∀ b ∈ c0.stageBlks, b.fetching = true ∨ b.writing = true ∨ b.dirty = true ∨ b.stuck = true) →
      Answers s (.rowFetchDone p) (fun c => frame c ∧ (c.part p.val).step = q ∧ c.stageBlks = c0.stageBlks ∧ (c.part p.val).pend.length = pend.length ∧
        ∀ (j : Nat) r, pend[j]? = some r → ∃ r', (c.part p.val).pend[j]? = some r' ∧ r' = { r with present := r'.present } ∧ (r.present = true → r'.present = true) ∧
          (∀ a b, r.failed = none → c0.rowAddr p.val r.table r.row = .flash a → c0.stageOf a = some b → (r'.present = true ↔ r.present = true ∨ b.fetching = false)) ∧
          ((∃ st, r.failed = some st) → r' = r))) ∧
    (∀ (n : Fin 8) (k : BitVec 33),
      (c0.stageBlks.find? (fun b => b.slot == n.val && b.block == k.toNat) = none → exec (.rowWriteback n k) s = .next s ∧ exec (.rowWritebackDone n k) s = .next s) ∧
      (∀ b, c0.stageBlks.find? (fun b => b.slot == n.val && b.block == k.toNat) = some b →
        let stuck := fun (c : Core) => c.rf Regs.PART_STATUS_FATAL b.part = 1 ∧
          c.stageBlks = c0.stageBlks.map (fun x => if x.slot = b.slot ∧ x.block = b.block then { x with writing := false, stuck := true } else x) ∧ c.flash = c0.flash ∧
          (∃ first, c.evtBuf = c0.evtBuf ++ [⟨Cls.partition, Src.ssd b.slot, b.part, 0x0813, first, 0⟩]) ∧
          ∀ pr, (c0.part b.part).prog = some pr → pr.stopping = false →
            (c.part b.part).prog = some { pr with stopping := true, endStatus := St.LINK_DOWN, fault := none }
        let hold := c0.fwHold || b.fetching || b.writing || !b.dirty || b.stuck || (c0.part b.part).pend.any (fun r => c0.rowInBlock r b)
        (hold = true → exec (.rowWriteback n k) s = .next s) ∧
        (hold = false → c0.ssdOk b.slot = false → Answers s (.rowWriteback n k) stuck) ∧
        (hold = false → c0.ssdOk b.slot = true → Answers s (.rowWriteback n k) (fun c => c.flash = c0.flash ∧ c.staged = c0.staged ∧ c.parts = c0.parts ∧
          c.stageBlks = c0.stageBlks.map (fun x => if x.slot = b.slot ∧ x.block = b.block then { x with writing := true } else x) ∧
          c.nvcmds = c0.nvcmds ++ [{ id := c0.nextNv, slot := b.slot, kind := 1, block := b.block, owner := .writeback b.part, issued := c0.tick, began := c0.tick }])) ∧
        let flying := c0.nvcmds.any (fun m => m.slot == b.slot && m.block == b.block && m.owner == .writeback b.part)
        (b.writing = false ∨ flying = true → exec (.rowWritebackDone n k) s = .next s) ∧
        (b.writing = true → flying = false → b.dirty = true → Answers s (.rowWritebackDone n k) stuck) ∧
        (b.writing = true → flying = false → b.dirty = false → b.part = p.val → quiet → pend = [] → (∀ j ∈ q.items, j.todo = []) →
          (∀ x ∈ c0.stageBlks, x ≠ b → (x.slot ≠ b.slot ∨ x.block ≠ b.block) ∧ (x.fetching = true ∨ x.writing = true ∨ x.dirty = true ∨ x.stuck = true)) →
          b.fetching = false → b.stuck = false →
          Answers s (.rowWritebackDone n k) (fun c => frame c ∧ c.stageBlks = c0.stageBlks.filter (fun x => !(x.slot == b.slot && x.block == b.block)))))) ∧
    ((q.committed = false ∨ c0.tick < q.decideTick + c0.deadlineTicks p.val) → exec (.rowStepDeadline p) s = .next s) ∧
    (q.committed = true → q.decideTick + c0.deadlineTicks p.val ≤ c0.tick → (∀ j ∈ q.items, j.table = none ∧ j.todo = []) → q.items.any (·.open_) = true →
      q.rowsPosted = false → pend ≠ [] → Answers s (.rowStepDeadline p) (fun c => (c.part p.val).pend = [] ∧ (c.part p.val).step.rowsFailed = q.rowsFailed + pend.length ∧
        (∀ r ∈ pend, (r.table, r.row, r.failed.getD St.ROW_DEADLINE) ∈ (c.part p.val).step.failed) ∧
        ⟨Cls.item, Src.updEngine (c0.lead p.val), p.val, 0x0811, (q.rowsFailed + pend.length) % 2 ^ 64, c0.stepOf p.val % 2 ^ 64⟩ ∈ c.evtBuf ∧
        c.items = c0.items ∧ c.ops = c0.ops)) ∧
    (∀ t : PTile, (c0.flag Regs.TILE_STASH_STATUS_SPILLING t.val = false → exec (.stashSpillDone t) s = .next s) ∧
      (c0.flag Regs.TILE_STASH_STATUS_SPILLING t.val = true → Answers s (.stashSpillDone t) (fun c => c.rf Regs.TILE_STASH_STATUS_SPILLING t.val = 0 ∧
        c.tile t.val = { c0.tile t.val with stall := if (c0.tile t.val).stall = some .spill then none else (c0.tile t.val).stall } ∧
        (∀ u, u ≠ t.val → c.tile u = c0.tile u) ∧ c.mems = c0.mems ∧ c.parts = c0.parts ∧ c.evtBuf = c0.evtBuf)))

/-- STEP_CLOSE takes the step's local flag, slot sums, rate and settings and clears NUM_STATUS.NF of the partition's tiles, once it can; without an agreement group the
step is decided at once: the flag or an infinite sum skips it and every held item ends. STEP_AGREEMENT_TIMEOUT gives an undecided step up: Partition fatal, TIMEOUT.
UPDATE_APPLY_DONE of an engine's oldest item ends it, with its new shard written, or with PARITY_REPLAY_EXHAUSTED when a read was lost, any part of the shard written, which is
Partition fatal; UPDPROG_CHUNK_TIMEOUT ends a pass that ran too long. STEP_BOUNDARY moves the step counter, LS_HIST, E, CLEAN, SCHED_N and the counters in one action. -/
def Obligations.TrainingStep : Prop :=
  ∀ (p : PartId) (s : State),
    let c0 := s.core
    let q := (c0.part p.val).step
    let e := c0.lead p.val
    let mapped := (c0.ltiles p.val).filterMap c0.phys
    let flag := q.nf || q.items.any (·.nf) || mapped.any (fun t => c0.flag Regs.TILE_NUM_STATUS_NF t)
    let k := (c0.part p.val).cfg
    let late := q.closeTick + max 1 k.timeout * Config.ticksPerMs ≤ c0.tick
    let st := fun (c : Core) => (c.part p.val).step
    let stopped := fun (c : Core) => ∀ pr, (c0.part p.val).prog = some pr → ∃ pr', (c.part p.val).prog = some pr' ∧ pr'.stopping = true
    (c0.canClose p.val = false → exec (.stepClose p) s = .next s) ∧
    (∀ n, c0.canClose p.val = true → k.agree = some n → c0.ring p.val n = none →
      Answers s (.stepClose p) (fun c => c.mems = c0.mems ∧ c.items = c0.items ∧ c.ops = c0.ops ∧ c.tiles = c0.tiles ∧ c.evtBuf = c0.evtBuf ∧
        c.rf Regs.UPD_STEP_STATUS_CLOSED e = 1 ∧ c.rd Regs.UPD_SCHED_RATE e = c0.eta p.val % 2 ^ 64 ∧ (∀ t ∈ mapped, c.rf Regs.TILE_NUM_STATUS_NF t = 0) ∧
        (c.part p.val).step = { q with
          closed := true, closeTick := c0.tick, flag := flag, slots := slotSums q.items, eta := c0.eta p.val, clip := k.clip
          grow := k.grow, under := k.under, agree := some n, ownNoise := (c.part p.val).step.ownNoise })) ∧
    (c0.canClose p.val = true → k.agree = none →
      let sums := slotSums q.items
      let skip := flag || sums.any (fun s => decodeF .fp32 s.l2 == .inf false)
      (skip = true → Answers s (.stepClose p) (fun c => (c.part p.val).pend = [] ∧ c.scratch = c0.scratch ∧ c.dram = c0.dram ∧ c.flash = c0.flash ∧
        c.rf Regs.UPD_STEP_STATUS_DECIDED e = 1 ∧ (∀ t ∈ mapped, c.rf Regs.TILE_NUM_STATUS_NF t = 0) ∧
        (st c).closed = true ∧ (st c).decided = true ∧ (st c).committed = false ∧ (st c).aflag = flag ∧ (st c).agreed = sums ∧ (st c).decideTick = c0.tick ∧
        (st c).items.length = q.items.length ∧ (∀ i ∈ (st c).items, i.open_ = false) ∧
        ∀ i ∈ q.items, i.open_ = true → c.op? i.op = none)) ∧
      (skip = false → (c0.part p.val).pend = [] → c0.slowReqs = [] → (∀ i ∈ q.items, i.table = none ∧ i.todo = []) → Answers s (.stepClose p) (fun c =>
        c.ops = c0.ops ∧ c.scratch = c0.scratch ∧ c.dram = c0.dram ∧ c.rf Regs.UPD_STEP_STATUS_DECIDED e = 1 ∧
        (st c).closed = true ∧ (st c).decided = true ∧ (st c).committed = true ∧ (st c).agreed = sums ∧ (st c).decideTick = c0.tick ∧ (st c).items = q.items ∧
        (k.clip = 0 → (st c).cf = one32)))) ∧
    (¬(q.closed = true ∧ q.agree.isSome = true ∧ q.decided = false ∧ late) → exec (.stepAgreementTimeout p) s = .next s) ∧
    (q.closed = true → q.agree.isSome = true → q.decided = false → late → Answers s (.stepAgreementTimeout p) (fun c => (c.part p.val).step = {} ∧ (c.part p.val).pend = [] ∧
      c.rf Regs.UPD_STEP_STATUS_INCOMPLETE e = 1 ∧ c.rf Regs.PART_STATUS_FATAL p.val = 1 ∧ stopped c ∧ c.scratch = c0.scratch ∧ c.dram = c0.dram ∧
      ⟨Cls.partition, Src.updEngine e, p.val, 0x0609, c0.stepOf p.val % 2 ^ 64, 0⟩ ∈ c.evtBuf ∧ ∀ i ∈ q.items, i.open_ = true → c.op? i.op = none)) ∧
    (∀ op, c0.nextApply p.val op = none → (∀ lost, exec (.updateApplyDone p op lost) s = .next s) ∧ exec (.updprogChunkTimeout p op) s = .next s) ∧
    (∀ op i, c0.nextApply p.val op = some i →
      let r := c0.applyPass p.val i
      let ended := fun (c : Core) => c.op? op = none ∧ (∀ j ∈ (c.part p.val).step.items, j.op = op → j.open_ = false)
      let broken := fun (c : Core) => (c.part p.val).step.broken = q.broken + 1 ∧ c.rf Regs.PART_STATUS_FATAL p.val = 1 ∧ stopped c ∧
        ⟨Cls.partition, Src.updEngine e, p.val, 0x060A, c0.stepOf p.val % 2 ^ 64, (q.broken + 1) % 2 ^ 64⟩ ∈ c.evtBuf
      let cut := (c0.shardSpans p.val i).foldl (fun c x => c.spoil x) c0
      Answers s (.updateApplyDone p op true) (fun c => ended c ∧ broken c ∧ c.scratch = cut.scratch ∧ c.dram = cut.dram) ∧
      (i.user = false → r.st = 0 ∧ Answers s (.updateApplyDone p op false) (fun c => ended c ∧ c.scratch = r.c.scratch ∧ c.dram = r.c.dram ∧
        (c.part p.val).step.broken = q.broken ∧ ∀ j ∈ (c.part p.val).step.items, j.op = op → j.sx = r.sx ∧ j.sd = r.sd ∧ j.kept = r.kept)) ∧
      (r.st = St.TIMEOUT → exec (.updateApplyDone p op false) s = .next s ∧ Answers s (.updprogChunkTimeout p op) (fun c => ended c ∧ c.scratch = r.c.scratch ∧
        c.dram = r.c.dram ∧ c.rf Regs.PART_STATUS_FATAL p.val = 1 ∧ stopped c)) ∧
      (r.st ≠ St.TIMEOUT → exec (.updprogChunkTimeout p op) s = .next s)) ∧
    (c0.canBoundary p.val = false → exec (.stepBoundary p) s = .next s) ∧
    (c0.canBoundary p.val = true →
      let n := c0.stepOf p.val
      let clean := min (c0.rf Regs.UPD_LS_STATE_CLEAN e + 1) (2 ^ 32 - 1)
      let grow := 0 < q.grow ∧ q.grow ≤ clean
      let hist := c0.rd Regs.UPD_LS_HIST e
      let both := fun (c : Core) => (c.part p.val).step = {} ∧ c.stepOf p.val = (n + 1) % 2 ^ 64 ∧ c.rf Regs.UPD_STEP_STATUS_CLOSED e = 0 ∧
        c.rf Regs.UPD_STEP_STATUS_DECIDED e = 0 ∧ c.items = c0.items ∧ c.ops = c0.ops ∧ c.scratch = c0.scratch ∧ (c.part p.val).cfg = c.takeCfg p.val
      (q.committed = false → Answers s (.stepBoundary p) (fun c => both c ∧ c.dram = c0.dram ∧ c.rd Regs.UPD_LS_HIST e = (hist * 2 + 1) % 2 ^ 64 ∧
        c.rf Regs.UPD_LS_STATE_CLEAN e = 0 ∧ c.lossE p.val = (if -8 < c0.lossE p.val then c0.lossE p.val - 1 else c0.lossE p.val) ∧
        c.rd Regs.UPD_SCHED_N e = c0.rd Regs.UPD_SCHED_N e ∧ c.rf Regs.UPD_STEP_STATUS_LAST_SKIPPED e = 1 ∧
        c.rf Regs.UPD_STEPS_SKIPPED_COUNT e = min (c0.rf Regs.UPD_STEPS_SKIPPED_COUNT e + 1) Regs.UPD_STEPS_SKIPPED_COUNT.top ∧
        ∃ info, ⟨Cls.info, Src.updEngine e, p.val, 0x0601, n % 2 ^ 64, info⟩ ∈ c.evtBuf)) ∧
      (q.committed = true → Answers s (.stepBoundary p) (fun c => both c ∧ c.rd Regs.UPD_LS_HIST e = hist * 2 % 2 ^ 64 ∧
        c.rf Regs.UPD_LS_STATE_CLEAN e = (if grow then 0 else clean) ∧
        c.lossE p.val = (if grow ∧ c0.lossE p.val < 24 then c0.lossE p.val + 1 else c0.lossE p.val) ∧
        c.rd Regs.UPD_SCHED_N e = (c0.rd Regs.UPD_SCHED_N e + 1) % 2 ^ 64 ∧ c.rf Regs.UPD_STEP_STATUS_LAST_SKIPPED e = 0 ∧
        c.rf Regs.UPD_STEPS_COMMITTED_COUNT e = min (c0.rf Regs.UPD_STEPS_COMMITTED_COUNT e + 1) Regs.UPD_STEPS_COMMITTED_COUNT.top ∧
        ⟨Cls.info, Src.updEngine e, p.val, 0x0600, n % 2 ^ 64, (q.g + q.cf * 2 ^ 32) % 2 ^ 64⟩ ∈ c.evtBuf)))

/-- PROGRAM_START of a loaded program, with no firmware activation pending, starts every tile of it; loss-scale state that is not valid is made so with E at RECOVERY_EXP and
256 recovery steps, and LOSS_SCALE_INIT is posted. PROGRAM_END of a program whose tiles have all halted or stopped and whose operations have completed ends its item: the
partition has no program, the stash of every tile is empty, and the item's record has the program's status, or KEY_REVOKED once the keys are revoked, and INFO. A program
stopped by a removal ends at the revocation or later. In every other state nothing happens. -/
def Obligations.ProgramLife : Prop :=
  ∀ (p : PartId) (s : State),
    let c0 := s.core
    let q := c0.part p.val
    let e := c0.lead p.val
    (q.prog = none → exec (.programStart p) s = .next s ∧ exec (.programEnd p) s = .next s) ∧
    (∀ pr, q.prog = some pr →
      let idle := pr.started || pr.stopping || c0.fwWaits
      (idle = true → exec (.programStart p) s = .next s) ∧
      (idle = false → Answers s (.programStart p) (fun c => (∀ l ∈ pr.tiles, ∀ t, c0.phys l = some t → c.tile t = { c0.tile t with run := 1 }) ∧
        (∀ t, (∀ l ∈ pr.tiles, c0.phys l ≠ some t) → c.tile t = c0.tile t) ∧ (c.part p.val) = { q with
          prog := some { pr with started := true }, accum := c0.rf Regs.COL_ACCUM_COUNT p.val, cfg := c0.takeCfg p.val } ∧ (∀ u, u ≠ p.val → c.part u = c0.part u) ∧
        c.rf Regs.UPD_LS_STATE_VALID e = 1 ∧ c.dram = c0.dram ∧ c.items = c0.items ∧ c.ops = c0.ops ∧
        (c0.flag Regs.UPD_LS_STATE_VALID e = true → c.regs = c0.regs ∧ c.evtBuf = c0.evtBuf) ∧
        (c0.flag Regs.UPD_LS_STATE_VALID e = false → c.rf Regs.UPD_LS_STATE_E e = c0.rf Regs.UPD_LS_CFG_RECOVERY_EXP e % 2 ^ 8 ∧
          c.rf Regs.UPD_LS_STATE_RECOVERY_LEFT e = 256 ∧ c.rf Regs.UPD_LS_STATE_CLEAN e = 0 ∧ c.rd Regs.UPD_LS_HIST e = 0 ∧
          c.evtBuf = c0.evtBuf ++ [⟨Cls.info, Src.updEngine e, p.val, 0x0603, c0.rf Regs.UPD_LS_CFG_RECOVERY_EXP e, 0⟩]))) ∧
      (pr.stopping = false ∨ q.step.items = [] →
        let ready := (pr.started || pr.stopping) && c0.programDone p.val pr && !(pr.stopping && pr.endStatus == St.KEY_REVOKED && !q.revoked)
        (ready = false → exec (.programEnd p) s = .next s) ∧
        (∀ i, ready = true → c0.item? pr.item = some i → Answers s (.programEnd p) (fun c => (c.part p.val).prog = none ∧ (c.part p.val).boundaryWait = false ∧
          (c.part p.val).step = q.step ∧ c.items = c0.items.filter (fun j => j.id != pr.item) ∧ c.ops = c0.ops ∧ c.scratch = c0.scratch ∧ c.dram = c0.dram ∧
          (∀ l ∈ pr.tiles, ∀ t, c0.phys l = some t → (c.tile t).stash = [] ∧ (c.tile t).pc = (c0.tile t).pc ∧ (c.tile t).run = (c0.tile t).run) ∧
          ∃ r, c.recs = c0.recs ++ [r] ∧ r.part = i.part ∧ r.cq = i.cq ∧ r.tag = i.tag ∧ r.info = pr.info ∧
            r.status = if (c.part i.part).revoked then St.KEY_REVOKED else pr.endStatus))))

/-- LANE_SPARE_TRIGGER and OE_SPARE_REQ with GO ask for the spare of a lane path (a sampled fault once): with no replacement on the engine it starts (LANE_SPARE_START) when the direction's spare is
free, else it fails (LANE_SPARE_FAILED, cause 0); behind a running one, or while a firmware activation holds, it waits. TX_SPARE_PAUSE starts a transmit replacement's pause. LANE_SPARED of the engine's last one
puts the spare in the lane's place and records it, or reports that the spare did not lock. PORT_ENABLE writes PORT_CTRL of an interface that exists, but SPLIT only while both interfaces are
disabled. PCS_LOCK, LINK_UP, LINK_FAULT and LINK_DOWN move the link status as R409 and R410 say; a link that goes down ends what the queue pairs with no other path send. -/
def Obligations.LanesAndLinks : Prop :=
  ∀ s : State,
    let c0 := s.core
    let frame := fun (c : Core) => c.tiles = c0.tiles ∧ c.parts = c0.parts ∧ c.items = c0.items ∧ c.ops = c0.ops ∧ c.mems = c0.mems
    let quiet := c0.qps = [] ∧ c0.collEnds = [] ∧ c0.slowReqs = [] ∧ c0.remoteOut = []
    let asks := fun (i : Instr) (e lane : Nat) (rx : Bool) trigger =>
      let mine := fun (w : LaneSwap) => w.engine == e
      let w : LaneSwap := { engine := e, lane := lane, rx := rx, trigger := trigger }
      let lit := fun (c : Core) (r : Fld) (d : Bool) => c.rf r e = if rx = d ∧ trigger ≠ 2 then c0.rf r e &&& (0x1FF - 2 ^ lane) else c0.rf r e
      let both := fun (c : Core) => frame c ∧ lit c Regs.FAB_OE_STATUS_RX_OK true ∧ lit c Regs.FAB_OE_STATUS_TX_OK false
      (trigger ≠ 2 → c0.laneSwaps.any (fun x => mine x && x.lane == lane && x.rx == rx) = true → Answers s i (fun c => both c ∧ c.laneSwaps = c0.laneSwaps ∧ c.evtBuf = c0.evtBuf)) ∧
      (trigger = 2 ∨ c0.laneSwaps.any (fun x => mine x && x.lane == lane && x.rx == rx) = false → c0.laneSwaps.any (fun x => mine x && x.running) = true →
        Answers s i (fun c => both c ∧ c.laneSwaps = c0.laneSwaps ++ [w] ∧ c.evtBuf = c0.evtBuf)) ∧
      (c0.laneSwaps.any mine = false → c0.fwHold = true → Answers s i (fun c => both c ∧ c.laneSwaps = c0.laneSwaps ++ [w] ∧ c.evtBuf = c0.evtBuf)) ∧
      (c0.laneSwaps.any mine = false → c0.fwHold = false → c0.spareUsed e rx = false → Answers s i (fun c => both c ∧ c.laneSwaps = c0.laneSwaps ++ [{ w with running := true }] ∧
        c.rf Regs.FAB_OE_STATUS_SWITCHING e = 1 ∧ c.evtBuf = c0.evtBuf ++ [⟨Cls.info, Src.optical e, devPart, 0x0902, lane + b2n rx * 2 ^ 3 + trigger * 2 ^ 4, 0⟩])) ∧
      (c0.laneSwaps.any mine = false → c0.fwHold = false → c0.spareUsed e rx = true → Answers s i (fun c => both c ∧ c.laneSwaps = c0.laneSwaps ∧
        c.rf Regs.FAB_OE_STATUS_SWITCHING e = 0 ∧ c.evtBuf = c0.evtBuf ++ [⟨Cls.link, Src.optical e, devPart, 0x0904, lane + b2n rx * 2 ^ 3 + trigger * 2 ^ 4, 0⟩]))
    (∀ (e : Fin 4) (lane : Fin 8) (rx : Bool), asks (.laneSpareTrigger e lane rx) e.val lane.val rx (if rx then 1 else 0)) ∧
    (∀ (e : Fin 4) (w : Word), (w.getLsbD 4 = true → asks (.oeSpareReq e w) e.val (bits w.toNat 2 0) (w.getLsbD 3) 2) ∧
      (w.getLsbD 4 = false → exec (.oeSpareReq e w) s = .next s)) ∧
    (∀ e : Fin 4,
      let found := c0.laneSwaps.find? (fun w => w.engine == e.val && w.running && !w.rx && !w.paused)
      (found = none → exec (.txSparePause e) s = .next s) ∧
      (∀ w, found = some w → Answers s (.txSparePause e) (fun c => c = { c0 with regs := c.regs, laneSwaps := c.laneSwaps } ∧
        c.laneSwaps = c0.laneSwaps.map (fun x => if x = w then { x with paused := true } else x) ∧ c.rf Regs.FAB_PORT_STATUS_PAUSED (c0.laneUnit e.val w.lane) = 1))) ∧
    (∀ (e : Fin 4) (ok : Bool) (ns : BitVec 16),
      let found := c0.laneSwaps.find? (fun w => w.engine == e.val && w.running && (w.rx || w.paused || !ok))
      (found = none → exec (.laneSpared e ok ns) s = .next s) ∧
      (∀ w, found = some w → (c0.laneSwaps.erase w).any (fun x => x.engine == e.val) = false → w.lane < 8 → w.trigger < 4 → quiet →
        c0.flag Regs.FAB_RAW_TX_SIZE_ENABLE (c0.laneUnit e.val w.lane) = false →
        let pause := if w.rx then 0 else ns.toNat
        let end_ := fun (c : Core) => frame c ∧ c.laneSwaps = c0.laneSwaps.erase w ∧ c.rf Regs.FAB_OE_STATUS_SWITCHING e.val = 0
        (ok = false → w.paused = false → Answers s (.laneSpared e ok ns) (fun c => end_ c ∧ c.spareQ = c0.spareQ ∧
          c.evtBuf = c0.evtBuf ++ [⟨Cls.link, Src.optical e.val, devPart, 0x0904, w.info + 2 ^ 6, 0⟩])) ∧
        (ok = true ∨ w.paused = true → Answers s (.laneSpared e ok ns) (fun c => end_ c ∧ c.spareUsed e.val w.rx = true ∧
          c.spareUsed e.val (!w.rx) = c0.spareUsed e.val (!w.rx) ∧ c.spareQ = c0.spareQ ++ [{ kind := if w.rx then 3 else 2, unit := e.val, sub := w.lane }] ∧
          c.rf (if w.rx then Regs.FAB_OE_SPARE_RX_FOR else Regs.FAB_OE_SPARE_TX_FOR) e.val = w.lane ∧
          c.evtBuf = c0.evtBuf ++ [⟨Cls.info, Src.optical e.val, devPart, 0x0903, w.info, pause⟩])))) ∧
    (∀ (port : Fin 8) (iface : Fin 2),
      let u := unitOfPort port.val iface.val
      let st := fun (c : Core) => (c.rf Regs.FAB_PORT_STATUS_LINK_UP u, c.rf Regs.FAB_PORT_STATUS_PCS_LOCK u, c.rf Regs.FAB_PORT_STATUS_LOCAL_FAULT u,
        c.rf Regs.FAB_PORT_STATUS_REMOTE_FAULT u)
      let on := c0.flag Regs.FAB_PORT_CTRL_ENABLE u
      let up := c0.flag Regs.FAB_PORT_STATUS_LINK_UP u
      let only := fun (c : Core) => c0.onlyRegs c (fun r => r = Regs.FAB_PORT_STATUS.at u ∨ r = Regs.FAB_OE_STATUS.at (port.val / 2) ∨
        r = Regs.FAB_FEC_UNCORR_CW.at u ∨ r = Regs.FAB_PORT_CTRL.at u)
      (∀ w : Word,
        let split := if iface.val = 0 then bits w.toNat 1 1 else c0.rf Regs.FAB_PORT_CTRL_SPLIT u
        let free := c0.flag Regs.FAB_PORT_CTRL_ENABLE (2 * port.val) = false ∧ c0.flag Regs.FAB_PORT_CTRL_ENABLE (2 * port.val + 1) = false
        (c0.unitExists u = false → exec (.portEnable port iface w) s = .next s) ∧
        (c0.unitExists u = true → split ≠ c0.rf Regs.FAB_PORT_CTRL_SPLIT u → ¬free → Answers s (.portEnable port iface w) (fun c => c.rf Regs.FAB_PORT_STATUS_CFG_ERR u = 1 ∧
          c0.onlyRegs c (fun r => r = Regs.FAB_PORT_STATUS.at u))) ∧
        (c0.unitExists u = true → split = c0.rf Regs.FAB_PORT_CTRL_SPLIT u ∨ free → w.getLsbD 0 = true ∨ up = false → Answers s (.portEnable port iface w) (fun c => only c ∧
          c.rd Regs.FAB_PORT_CTRL u = bits w.toNat 0 0 + split * 2 + bits w.toNat 3 2 * 4 ∧
          (w.getLsbD 0 = true → on = false → c.rf Regs.FAB_PORT_STATUS_LOCAL_FAULT u = 1)))) ∧
      (∀ ready, ready = (on && c0.unitExists u && !c0.lost) → (ready = false → exec (.pcsLock port iface) s = .next s) ∧
        (ready = true → Answers s (.pcsLock port iface) (fun c => only c ∧ st c = (c0.rf Regs.FAB_PORT_STATUS_LINK_UP u, 1, 0, 0) ∧
          c.rf Regs.FAB_OE_STATUS_RX_OK (port.val / 2) = c0.rf Regs.FAB_OE_STATUS_RX_OK (port.val / 2) ||| c0.laneMask u))) ∧
      (∀ ready, ready = (on && c0.flag Regs.FAB_PORT_STATUS_PCS_LOCK u && !up && !c0.lost && !c0.flag Regs.FAB_PORT_STATUS_LOCAL_FAULT u &&
          !c0.flag Regs.FAB_PORT_STATUS_REMOTE_FAULT u) → (ready = false → exec (.linkUp port iface) s = .next s) ∧
        (ready = true → quiet → c0.flag Regs.FAB_RAW_TX_SIZE_ENABLE u = false → Answers s (.linkUp port iface) (fun c => frame c ∧ st c = (1, 1, 0, 0) ∧
          (∀ g ∈ c.rxGrants, g.unit ≠ u) ∧ (∀ r ∈ c.creditReqs, r.unit ≠ u) ∧ (∀ vc dev, vc < 16 → dev < 2 ^ 14 → c.credit u vc dev = {}) ∧
          c.evtBuf = c0.evtBuf ++ [⟨Cls.link, Src.port port.val, devPart, 0x0900, c0.linkInfo u, 0⟩]))) ∧
      (∀ (cause : Fin 4) (n : BitVec 16), (on = false → exec (.linkFault port iface cause n) s = .next s) ∧
        (on = true → Answers s (.linkFault port iface cause n) (fun c => only c ∧
          c.rf Regs.FAB_FEC_UNCORR_CW_COUNT u = min (c0.rf Regs.FAB_FEC_UNCORR_CW_COUNT u + n.toNat) Regs.FAB_FEC_UNCORR_CW_COUNT.top ∧
          (cause.val < 2 → st c = ((st c0).1, 0, 1, (st c0).2.2.2)) ∧ (cause.val = 2 → st c = ((st c0).1, (st c0).2.1, (st c0).2.2.1, 1)) ∧
          (cause.val = 3 → st c = ((st c0).1, (st c0).2.1,
            (if c0.rf Regs.FAB_LINK_CFG_UNCORR_LIMIT u < n.toNat then 1 else (st c0).2.2.1), (st c0).2.2.2))))) ∧
      (∀ cause : Fin 4,
        let due := up && (c0.flag Regs.FAB_PORT_STATUS_LOCAL_FAULT u || c0.flag Regs.FAB_PORT_STATUS_REMOTE_FAULT u)
        let down := fun (c : Core) => c.rf Regs.FAB_PORT_STATUS_LINK_UP u = 0 ∧ c.rf Regs.FAB_PORT_STATUS_PCS_LOCK u = 0 ∧
          c.rf Regs.FAB_LINK_DOWNS_COUNT u = min (c0.rf Regs.FAB_LINK_DOWNS_COUNT u + 1) Regs.FAB_LINK_DOWNS_COUNT.top
        let ev : Evt := ⟨Cls.link, Src.port port.val, devPart, 0x0901, port.val + iface.val * 8 + cause.val * 2 ^ 4, 0⟩
        (due = false → exec (.linkDown port iface cause) s = .next s) ∧
        (due = true → quiet → Answers s (.linkDown port iface cause) (fun c => down c ∧ frame c ∧ c.evtBuf = c0.evtBuf ++ [ev])) ∧
        (∀ q id, due = true → c0.qps = [q] → q.state = qREADY → q.part < 16 → q.paths ≠ [] → (∀ a ∈ q.paths, unitOfPort a.1 a.2 = u) → (∀ m ∈ q.tx, m.owner = .op id) →
          q.tx ≠ [] → q.bufs = [] → q.rx = [] → c0.collEnds = [] → c0.slowReqs = [] → c0.remoteOut = [] → Answers s (.linkDown port iface cause) (fun c => down c ∧
            c.qps = [{ q with tx := [] }] ∧ c.tiles = c0.tiles ∧ c.items = c0.items ∧ c.mems = c0.mems ∧
            c.evtBuf = c0.evtBuf ++ [ev, ⟨Cls.link, Src.port port.val, q.part, 0x0A01, port.val + iface.val * 8 + 2 ^ 16, 0⟩] ∧
            c.ops = c0.ops.map (fun x => if x.id = id then { x with wait := false, info := if x.wait then 0 else x.info,
                                                                    status := if x.status = 0 then St.LINK_DOWN else x.status } else x)))))

/-- FRAME_RECEIVE drops a frame of a link that is down, with a wrong length or FCS, or that no filter accepts, in this order, each with its counter; an Apong frame that its
grant and the cells cover is handed to the transport, a raw frame goes with its header into the receive ring, or is counted when the ring is full. CREDIT_UPDATE
with no request waiting gives the freed cells back to their sender. RAW_TX_TAIL beyond the ring sets CFG_ERR; else it stands, and a valid filled slot
is sent and the vector raised. TX_TS_TAG reads the oldest stamp and takes it out of the queue. SNAP asks for snapshots at the next tick. -/
def Obligations.FramesAndRings : Prop :=
  ∀ s : State,
    let c0 := s.core
    let counts := fun (i : Instr) (r : Fld) (u : Nat) => Answers s i (fun c => c0.onlyRegs c (fun k => k = r.reg.at u) ∧ c.rf r u = min (c0.rf r u + 1) r.top)
    let rest := fun (c : Core) => c.tiles = c0.tiles ∧ c.parts = c0.parts ∧ c.items = c0.items ∧ c.ops = c0.ops ∧ c.scratch = c0.scratch ∧ c.dram = c0.dram ∧ c.evtBuf = c0.evtBuf
    (∀ (f : Frame) (bad : Bool),
      let u := unitOfPort f.port.val f.iface.val
      let i := Instr.frameReceive f bad
      let good := c0.linkUp u = true ∧ 64 ≤ f.len.toNat ∧ f.len.toNat ≤ 9216
      let cells := ceilDiv f.len.toNat 256
      (c0.linkUp u = false → exec i s = .next s) ∧
      (c0.linkUp u = true → f.len.toNat < 64 ∨ 9216 < f.len.toNat → counts i Regs.FAB_RX_LEN_ERR_COUNT u) ∧
      (good → f.fcsOk = false → counts i Regs.FAB_RX_FCS_ERR_COUNT u) ∧
      (good → f.fcsOk = true → c0.accepts u f.dst.toNat = false → counts i Regs.FAB_RX_FILTERED_COUNT u) ∧
      (good → f.fcsOk = true → c0.accepts u f.dst.toNat = true →
        let took := fun (c : Core) (vc : Nat) => c0.onlyRegs c (fun k => k = Regs.FAB_RX_FRAMES.at u ∨ k = Regs.FAB_RX_BYTES.at u ∨ k = Regs.FAB_VC_RX_CELLS.at (vc + 16 * u)) ∧
          c.rf Regs.FAB_RX_FRAMES_COUNT u = min (c0.rf Regs.FAB_RX_FRAMES_COUNT u + 1) Regs.FAB_RX_FRAMES_COUNT.top ∧
          c.rf Regs.FAB_RX_BYTES_COUNT u = min (c0.rf Regs.FAB_RX_BYTES_COUNT u + f.len.toNat) Regs.FAB_RX_BYTES_COUNT.top
        let room := fun (vc : Nat) => c0.rf Regs.FAB_VC_CFG_CELLS (vc + 16 * u) - c0.heldCells u vc
        (∀ o k, c0.frameRule u f = 0 → f.apong = some (o, k) → k.vc.val = 15 → counts i Regs.FAB_RX_PROT_DROPS_COUNT u) ∧
        (∀ o k g, c0.frameRule u f = 0 → f.apong = some (o, k) → 1 ≤ k.vc.val → k.vc.val < 15 → cells ≤ room k.vc.val → cells ≤ g.limit - g.consumed →
          c0.rxGrants.find? (fun g => g.unit == u && g.vc == k.vc.val && g.dev == k.srcDev.toNat) = some g →
          Answers s i (fun c => ∃ c1, took c1 k.vc.val ∧ c = c1.packet o.toNat { k with port := f.port, iface := f.iface })) ∧
        (c0.frameRule u f = 2 → cells ≤ room 0 →
          let size := c0.rf Regs.FAB_RAW_RX_SIZE_SLOTS u
          let tail := c0.rf Regs.FAB_RAW_RX_TAIL_TAIL u
          let live := c0.flag Regs.FAB_RAW_RX_SIZE_ENABLE u = true ∧ rawSlots size = true
          let full := (tail + 1) % size = c0.rf Regs.FAB_RAW_RX_HEAD_HEAD u
          (¬live → Answers s i (fun c => took c 0)) ∧
          (live → full → Answers s i (fun c => rest c ∧ c.host = c0.host ∧
            c.rf Regs.FAB_RX_RAW_FULL_COUNT u = min (c0.rf Regs.FAB_RX_RAW_FULL_COUNT u + 1) Regs.FAB_RX_RAW_FULL_COUNT.top)) ∧
          (live → ¬full → bad = true → Answers s i (fun c => rest c ∧ c.host = c0.host ∧ c.rf Regs.FAB_RAW_RX_SIZE_ENABLE u = 0 ∧ c.rf Regs.FAB_RAW_STATUS_RX_WRITE_ERR u = 1)) ∧
          (live → ¬full → bad = false → Answers s i (fun c => rest c ∧ c.rf Regs.FAB_RAW_RX_TAIL_TAIL u = (tail + 1) % size ∧
            ∃ h : List Byte, h.length = 32 ∧ h.take 2 = leBytes 2 f.len.toNat ∧ (h.drop 8).take 8 = leBytes 8 (c0.stamp f.ns.val (-(c0.rf Regs.FAB_PTP_LAT_RX_LAT u : Int))) ∧
              c.host = (c0.writeHost (c0.rf Regs.FAB_RAW_RX_BASE_BASE u * 4096 + 10240 * tail) (h ++ f.bytes)).host ∧
              c.out = c0.out ++ [⟨0, [0, c0.rf Regs.FAB_RAW_VECTOR_RX_VEC u]⟩]))))) ∧
    (∀ (port : Fin 8) (iface : Fin 2),
      let u := unitOfPort port.val iface.val
      let size := c0.rf Regs.FAB_RAW_TX_SIZE_SLOTS u
      let head := c0.rf Regs.FAB_RAW_TX_HEAD_HEAD u
      (∀ (vc : Fin 16) (dev : BitVec 14),
        let found := c0.rxGrants.find? (fun g => g.unit == u && g.vc == vc.val && g.dev == dev.toNat)
        (found = none → exec (.creditUpdate port iface vc dev) s = .next s) ∧
        (∀ g, found = some g → g.freed = 0 → exec (.creditUpdate port iface vc dev) s = .next s) ∧
        (∀ g, found = some g → 0 < g.freed → c0.creditReqs = [] → Answers s (.creditUpdate port iface vc dev) (fun c => rest c ∧ c.creditReqs = [] ∧
          c.rxGrants = c0.rxGrants.map (fun h => if h.unit = u ∧ h.vc = vc.val ∧ h.dev = dev.toNat
            then { h with limit := h.limit + h.freed, freed := 0, changed := true } else h) ∧ ∃ args, c.out = c0.out ++ [⟨3, 0x0C :: u :: args⟩]))) ∧
      (∀ (v : BitVec 12) (bad : Bool),
        (rawSlots size = true → size ≤ v.toNat → Answers s (.rawTxTail port iface v bad) (fun c => c.rf Regs.FAB_RAW_STATUS_CFG_ERR u = 1 ∧
          c0.onlyRegs c (fun k => k = Regs.FAB_RAW_STATUS.at u))) ∧
        (rawSlots size = false ∨ v.toNat < size →
          let idle := c0.flag Regs.FAB_RAW_TX_SIZE_ENABLE u = false ∨ rawSlots size = false ∨ head = v.toNat ∨ c0.linkUp u = false ∨ c0.flag Regs.FAB_PORT_STATUS_PAUSED u = true
          (idle → Answers s (.rawTxTail port iface v bad) (fun c => c.rf Regs.FAB_RAW_TX_TAIL_TAIL u = v.toNat ∧ c0.onlyRegs c (fun k => k = Regs.FAB_RAW_TX_TAIL.at u))) ∧
          (¬idle → bad = true → Answers s (.rawTxTail port iface v bad) (fun c => c.rf Regs.FAB_RAW_STATUS_TX_READ_ERR u = 1 ∧ c.rf Regs.FAB_RAW_TX_SIZE_ENABLE u = 0 ∧
            c.rf Regs.FAB_RAW_TX_HEAD_HEAD u = head ∧ c.out = c0.out)) ∧
          (¬idle → bad = false → (head + 1) % size = v.toNat →
            let h := c0.readHost (c0.rf Regs.FAB_RAW_TX_BASE_BASE u * 4096 + 10240 * head) 32
            let len := leNat (h.take 2)
            60 ≤ len → len ≤ 9212 → (∀ (k : Nat) b, 2 ≤ k → (k ≤ 3 ∨ 6 ≤ k) → h[k]? = some b → b = 0) → Answers s (.rawTxTail port iface v bad) (fun c => rest c ∧ c.host = c0.host ∧
              c.rf Regs.FAB_RAW_TX_HEAD_HEAD u = v.toNat ∧ c.rf Regs.FAB_TX_FRAMES_COUNT u = min (c0.rf Regs.FAB_TX_FRAMES_COUNT u + 1) Regs.FAB_TX_FRAMES_COUNT.top ∧
              c.out = c0.out ++ [⟨4, u :: (c0.readHost (c0.rf Regs.FAB_RAW_TX_BASE_BASE u * 4096 + 10240 * head + 32) len).map (·.toNat)⟩,
                ⟨0, [0, c0.rf Regs.FAB_RAW_VECTOR_TX_VEC u]⟩])))) ∧
      (∀ q, q = c0.txStamps.get (fun _ => []) u → Answers s (.txTsTag port iface) (fun c => rest c ∧ c.txStamps.get (fun _ => []) u = q.drop 1 ∧
        (∀ w, w ≠ u → c.txStamps.get (fun _ => []) w = c0.txStamps.get (fun _ => []) w) ∧
        c.resp = .data (BitVec.ofNat 64 (((q.head?).getD (0, 0)).1 + b2n (!q.isEmpty) * 2 ^ 16 + c0.rf Regs.FAB_TX_TS_TAG_LOST u * 2 ^ 17)) ∧
        (∀ e, q.head? = some e → c.rd Regs.FAB_TX_TS_TIME u = e.2 % 2 ^ 64) ∧ (((q.head?).getD (0, 0)).1 < 2 ^ 16 → c.rf Regs.FAB_TX_TS_TAG_LOST u = 0))) ∧
      (∀ g : BitVec 4, Answers s (.snap port iface g) (fun c => c = { c0 with snapReq := c.snapReq } ∧
        (∀ w, w ≠ u → c.snapReq.get (fun _ => 0) w = c0.snapReq.get (fun _ => 0) w) ∧ c.snapReq.get (fun _ => 0) u = c0.snapReq.get (fun _ => 0) u ||| g.toNat)))

namespace Sys2Proof.Machine

/-! ### The Apong transport -/

/-- The commands that are a packet of the transport, each with its OPCODE (R434). -/
def packetRows (k : Pkt) : List (Instr × Nat) :=
  [(.write k, 0x01), (.send k, 0x02), (.readReq k, 0x03), (.readResp k, 0x04), (.atomicReq k, 0x05), (.atomicResp k, 0x06), (.done k, 0x08), (.nak k, 0x09),
   (.status k, 0x0A), (.statusReq k, 0x0B), (.credit k, 0x0C), (.creditReq k, 0x0D), (.creditReturn k, 0x0E), (.abort k, 0x0F)]

/-- No end of a collective message and no access to a remote row group waits. -/
def Core.rmaQuiet (c : Core) : Prop := c.collEnds = [] ∧ c.slowReqs = [] ∧ c.remoteOut = []

/-- A packet passes checks 1 to 7 of R455 and its context is at hand. -/
def Core.hears (c : Core) (o : Nat) (k : Pkt) (q : QP) : Prop :=
  c.frontChecks o k = (c, true) ∧ c.qp? k.dstQp.toNat = some q ∧ (c.qpOwner k.dstQp.toNat).isSome = true ∧ q.cached = true ∧ q.peerOk k = true ∧ c.rmaQuiet

/-- A packet of an OPCODE has gone out on a queue pair's first path that is up, when there is one and the key lets it (R434). -/
def Core.answered (c c' : Core) (q : QP) (o : Nat) : Prop :=
  ∀ a, q.paths.find? (fun a => c.linkUp (unitOfPort a.1 a.2)) = some a → c.keyUsable q.key = true → ∃ args, ⟨3, o :: unitOfPort a.1 a.2 :: args⟩ ∈ c'.out

/-- Operation `id` may complete, with a status and INFO; no other operation differs. -/
def Core.opEnds (c c' : Core) (id st info : Nat) : Prop :=
  c'.ops = c.ops.map (fun x => if x.id = id then { x with wait := false, info := if x.wait then info else x.info,
                                                          status := if x.status = 0 then st else x.status } else x)

/-- The bytes of the scratchpads, the device memory and the host are those of another device. -/
def Core.sameBytes (c b : Core) : Prop := c.scratch = b.scratch ∧ c.dram = b.dram ∧ c.dramKey = b.dramKey ∧ c.host = b.host

/-- A message of one packet is the next one of its queue pair, which holds no record, and its bytes are all there. -/
def QP.oneNew (q : QP) (k : Pkt) : Prop :=
  q.rx = [] ∧ q.refused = [] ∧ q.atomics = [] ∧ k.msn.toNat = q.rxLow ∧ k.offset = 0 ∧ k.total.toNat ≤ q.pmtu

/-- The region that a key gives a message is the one in memory (R443), and the message lies within it. -/
def Core.inRegion (c : Core) (q : QP) (kind : Nat) (k : Pkt) (g : Region) : Prop :=
  (∀ e, c.regionCache.get (fun _ => none) (262144 * q.part + k.rkey.toNat) = some e → e = c.regionBytes q.part k.rkey.toNat) ∧
    (c.region q kind k.rkey.toNat).1 = some g ∧ k.roff.toNat + k.total.toNat ≤ g.len ∧ 0 < k.total.toNat

end Sys2Proof.Machine

/-- A packet that fails a check of R455 before its queue pair moves one drop counter and nothing else; one for a queue pair that does not exist is answered with NAK PROTECTION.
WRITE of one packet writes its bytes to the region and SEND to the oldest posted buffer, whose operation may complete; each is answered with DONE. READ_REQ queues a response of the
region's bytes; READ_RESP writes them to the operation's tensor, ends it and answers DONE. ATOMIC_REQ adds or compares and swaps 8 bytes and answers the old value, which
ATOMIC_RESP writes for its operation. DONE ends a message sent whole; NAK ends it too, or makes it wait with TIMEOUT and CONTEXT_UNAVAILABLE. STATUS moves BASE;
STATUS_REQ is answered. CREDIT sets the limit, CREDIT_REQ is granted free cells or waits, CREDIT_RETURN gives the grant up. ABORT puts the queue pair in ERROR. -/
def Obligations.Packets : Prop :=
  ∀ (k : Pkt) (s : State),
    let c0 := s.core
    let n := k.dstQp.toNat
    let u := unitOfPort k.port.val k.iface.val
    let dev := k.srcDev.toNat
    let msn := k.msn.toNat
    let st := leNat (k.payload.take 2)
    let frame := fun (c : Core) => c.tiles = c0.tiles ∧ c.items = c0.items ∧ c.parts = c0.parts ∧ c.colls = c0.colls
    let still := fun (c : Core) => frame c ∧ c.sameBytes c0
    let moved := fun (c : Core) (p : Nat) => c.rf Regs.RMA_RX_MSGS_COUNT p = min (c0.rf Regs.RMA_RX_MSGS_COUNT p + 1) Regs.RMA_RX_MSGS_COUNT.top
    let slid := fun (c : Core) (q : QP) => ∃ q', c.qp? n = some q' ∧ q'.rxLow = (q.rxLow + 1) % 2 ^ 32 ∧ q'.rx = [] ∧ q'.refused = []
    (∀ e ∈ packetRows k, c0.rmaQuiet → c0.probe = none →
      let r := c0.frontChecks e.2 k
      (r.2 = false → Answers s e.1 (fun c => c = { c0 with regs := r.1.regs, rxGrants := c.rxGrants }) ∧ c0.onlyRegs r.1 (fun x => x = Regs.RMA_MALFORMED.at 0 ∨
        x = Regs.RMA_MISROUTED.at 0 ∨ x = Regs.FAB_RX_REVOKED_DROPS.at u ∨ x = Regs.FAB_RX_PROT_DROPS.at u ∨ x = Regs.RMA_AUTH_FAIL.at 0)) ∧
      (r = (c0, true) → c0.qp? n = none → e.2 ∉ [0x08, 0x09, 0x0C, 0x0D, 0x0E, 0x0F] → c0.keyUsable k.key.toNat = true → Answers s e.1 (fun c => still c ∧
        c.ops = c0.ops ∧ c.qps = c0.qps ∧ ∃ args, c.out = c0.out ++ [⟨3, 0x09 :: u :: args⟩]))) ∧
    (∀ q g, c0.hears 1 k q → q.oneNew k → c0.inRegion q 1 k g → k.payload.length = k.total.toNat → Answers s (.write k) (fun c => frame c ∧ c.ops = c0.ops ∧
      c.sameBytes (c0.writeAt q.part 0 g.base k.roff.toNat k.payload) ∧ moved c q.part ∧ slid c q ∧ c0.answered c q 0x08)) ∧
    (∀ q b rest, c0.hears 2 k q → q.oneNew k → q.bufs = b :: rest → k.rkey = 0 → k.total.toNat ≤ b.len → k.payload.length = k.total.toNat → Answers s (.send k) (fun c => frame c ∧
      c0.opEnds c b.op 0 k.total.toNat ∧ c.sameBytes (c0.putBytes q.part b.ltile (Desc.ofBits (BitVec.ofNat 256 b.desc)) 0 k.payload) ∧ moved c q.part ∧ slid c q ∧
      c0.answered c q 0x08)) ∧
    (∀ q g, c0.hears 3 k q → q.oneNew k → c0.inRegion q 3 k g → Answers s (.readReq k) (fun c => still c ∧ c.ops = c0.ops ∧ moved c q.part ∧ slid c q ∧
      ∃ q', c.qp? n = some q' ∧ ∃ m ∈ q'.tx, m.msn = msn ∧ m.kind = 4 ∧ m.data = c0.readAt q.part 0 g.base k.roff.toNat k.total.toNat)) ∧
    (∀ q m id o, c0.hears 4 k q → q.tx = [m] → m.msn = msn → m.kind = 3 → m.owner = .op id → c0.op? id = some o → m.got = [] → k.total.toNat = m.total → k.offset = 0 → k.rkey = 0 →
      m.total ≤ q.pmtu → k.payload.length = m.total → Answers s (.readResp k) (fun c => frame c ∧ c0.opEnds c id 0 0 ∧ c0.answered c q 0x08 ∧
        c.sameBytes (c0.putBytes o.part o.ltile (Desc.ofBits (BitVec.ofNat 256 m.desc)) 0 k.payload) ∧ ∃ q', c.qp? n = some q' ∧ q'.tx = [])) ∧
    (∀ q g, c0.hears 5 k q → q.oneNew k → c0.inRegion q 5 k g → (g.base + k.roff.toNat) % 8 = 0 → k.payload.length = 16 → k.total = 8 →
      let old := leNat (c0.readAt q.part 0 g.base k.roff.toNat 8)
      let a := leNat (k.payload.take 8)
      let b := leNat (k.payload.drop 8)
      let new := if k.cas then (if old = b then a else old) else (old + a) % 2 ^ 64
      Answers s (.atomicReq k) (fun c => frame c ∧ c.ops = c0.ops ∧ c.sameBytes (c0.writeAt q.part 0 g.base k.roff.toNat (leBytes 8 new)) ∧ moved c q.part ∧ slid c q ∧
        c0.answered c q 0x06 ∧ ∃ q', c.qp? n = some q' ∧ q'.atomics = [(msn, old)])) ∧
    (∀ q m id o, c0.hears 6 k q → q.tx = [m] → m.msn = msn → m.kind = 5 → m.owner = .op id → c0.op? id = some o → Answers s (.atomicResp k) (fun c => frame c ∧
      c0.opEnds c id 0 0 ∧ c.sameBytes (c0.putBytes o.part o.ltile (Desc.ofBits (BitVec.ofNat 256 m.desc)) 0 (k.payload.take 8)) ∧ ∃ q', c.qp? n = some q' ∧ q'.tx = [])) ∧
    (∀ q m id, q.tx = [m] → m.msn = msn → m.owner = .op id →
      let ends := fun (i : Instr) => Answers s i (fun c => still c ∧ c0.opEnds c id st 0 ∧ ∃ q', c.qp? n = some q' ∧ q'.tx = [])
      (c0.hears 8 k q → m.kind = 1 ∨ m.kind = 2 → m.next = q.packets m.total → ends (.done k)) ∧
      (c0.hears 9 k q → m.kind ≠ 4 → st ≠ St.TIMEOUT → st ≠ St.CONTEXT → ends (.nak k)) ∧
      (c0.hears 9 k q → m.kind ≠ 4 → st = St.TIMEOUT ∨ st = St.CONTEXT → Answers s (.nak k) (fun c => still c ∧ c.ops = c0.ops ∧
        ∃ q', c.qp? n = some q' ∧ q'.tx = [{ m with waiting := true, tries := m.tries + 1 }])) ∧
      (c0.hears 10 k q → let base := leNat (k.payload.take 4)
        Answers s (.status k) (fun c => still c ∧ c.ops = c0.ops ∧ ∃ q' m', c.qp? n = some q' ∧ q'.tx = [m'] ∧ m'.msn = msn ∧ m'.base = max m.base base ∧
          m'.rounds = if m.base < base then 0 else m.rounds))) ∧
    (∀ q, c0.hears 11 k q →
      (∀ r, q.rx.find? (fun r => r.msn == msn) = some r → Answers s (.statusReq k) (fun c => still c ∧ c.ops = c0.ops ∧ c0.answered c q (if r.done.isSome then 0x08 else 0x0A))) ∧
      (q.rx = [] → q.tx = [] → ∀ e, q.refused.find? (fun e => e.1 == msn) = some e → Answers s (.statusReq k) (fun c => still c ∧ c.ops = c0.ops ∧ c0.answered c q 0x09))) ∧
    (∀ (vc : Fin 16) (x : BitVec 24), vc.val ≠ 0 → vc.val ≠ 15 → k.payload = leBytes 4 (vc.val + x.toNat * 2 ^ 8) → c0.rmaQuiet → k.vc = 0 →
      (c0.frontChecks 0x0C k = (c0, true) → c0.qps = [] → c0.probe = none → Answers s (.credit k) (fun c => c = { c0 with txCredit := c.txCredit } ∧
        c.credit u vc.val dev = { c0.credit u vc.val dev with limit := x.toNat, granted := true, requested := false } ∧
        ∀ key, key ≠ creditKey u vc.val dev → c.txCredit.get (fun _ => {}) key = c0.txCredit.get (fun _ => {}) key)) ∧
      (c0.frontChecks 0x0D k = (c0, true) →
        let free := c0.unallotted u vc.val
        (0 < free → c0.rxGrants.any (fun g => g.unit == u && g.vc == vc.val && g.dev == dev) = false → Answers s (.creditReq k) (fun c => still c ∧ c.creditReqs = c0.creditReqs ∧
          c.rxGrants = c0.rxGrants ++ [{ unit := u, vc := vc.val, dev := dev, limit := min free x.toNat, changed := true }] ∧ ∃ args, c.out = c0.out ++ [⟨3, 0x0C :: u :: args⟩])) ∧
        (free = 0 → Answers s (.creditReq k) (fun c => c = { c0 with creditReqs := c.creditReqs } ∧
          c.creditReqs = if (c0.creditReqs.filter (fun r => r.unit == u)).length < 64 then c0.creditReqs ++ [{ unit := u, vc := vc.val, dev := dev, cells := x.toNat }]
            else c0.creditReqs))) ∧
      (c0.frontChecks 0x0E k = (c0, true) → c0.creditReqs = [] → (∀ g ∈ c0.rxGrants, g.unit = u → g.vc = vc.val → g.dev = dev → g.kept = 0) →
        Answers s (.creditReturn k) (fun c => c = { c0 with rxGrants := c.rxGrants } ∧
          c.rxGrants = c0.rxGrants.filter (fun g => !(g.unit == u && g.vc == vc.val && g.dev == dev))))) ∧
    (∀ q id, c0.hears 15 k q → q.part < 16 → (∀ m ∈ q.tx, m.owner = .op id) → q.tx ≠ [] → q.bufs = [] → q.rx = [] → Answers s (.abort k) (fun c => frame c ∧
      c0.opEnds c id St.LINK_DOWN 0 ∧ c.rf Regs.RMA_ABORTS_COUNT q.part = min (c0.rf Regs.RMA_ABORTS_COUNT q.part + 1) Regs.RMA_ABORTS_COUNT.top ∧
      c.evtBuf = c0.evtBuf ++ [⟨Cls.item, Src.port q.port, q.part, 0x0A00, n + St.LINK_DOWN * 2 ^ 16, 0⟩,
        ⟨Cls.item, Src.port k.port.val, q.part, 0x0A04, (n + st * 2 ^ 16 + q.remoteDev * 2 ^ 32) % 2 ^ 64, 0⟩] ∧
      ∃ q', c.qp? n = some q' ∧ q'.state = qERROR ∧ q'.err = St.LINK_DOWN ∧ q'.tx = []))

/-- RTO_EXPIRY of a message that has been sent and does not wait sends STATUS_REQ and counts the round, or after RETRY_LIMIT rounds ends it with TIMEOUT and puts the queue pair in
ERROR. BACKOFF_EXPIRY of a waiting message lets it start again, or ends it. REASSEMBLY_TIMEOUT frees the record, and its SEND buffer stays posted. CREDIT_IDLE_RETURN gives an unused grant
back, CREDIT_REPEAT repeats a changed limit, CREDIT_REQ_RETRY repeats an unanswered request. QP_CREATE and QP_DESTROY give RESULT and start or end the context, unless a command is running; DESTROY of a context that is being fetched waits; REGION_INVAL
takes a key out of the cache and REGION_INVAL_DRAINED clears BUSY. CONTEXT_FETCH_DONE brings a context in, or ends with its status what waits for it. -/
def Obligations.TransportUpkeep : Prop :=
  ∀ s : State,
    let c0 := s.core
    let frame := fun (c : Core) => c.tiles = c0.tiles ∧ c.items = c0.items ∧ c.parts = c0.parts ∧ c.colls = c0.colls
    (∀ (qp : BitVec 16) (msn : BitVec 32) (resp : Bool),
      let i := Instr.rtoExpiry qp msn resp
      (c0.qp? qp.toNat = none → exec i s = .next s) ∧
      (∀ q, c0.qp? qp.toNat = some q → q.msg? msn.toNat resp = none → exec i s = .next s) ∧
      (∀ q m, c0.qp? qp.toNat = some q → q.msg? msn.toNat resp = some m →
        let idle := m.waiting || m.next == 0 || q.state != qREADY
        (idle = true → exec i s = .next s) ∧
        (idle = false → m.rounds < c0.retryLimit q.part → Answers s i (fun c => frame c ∧ c.ops = c0.ops ∧ c0.answered c q 0x0B ∧ c.sameBytes c0 ∧
          c.qps = c0.qps.map (fun x => if x.num = qp.toNat then { x with tx := x.tx.map (fun y => if y.msn = m.msn ∧ y.kind = m.kind then { y with rounds := y.rounds + 1 } else y) }
            else x))) ∧
        (∀ id, idle = false → c0.retryLimit q.part ≤ m.rounds → resp = false → q.tx = [m] → m.owner = .op id → q.bufs = [] → q.rx = [] → c0.rmaQuiet →
          Answers s i (fun c => frame c ∧ c0.opEnds c id St.TIMEOUT 0 ∧ (∃ q', c.qp? qp.toNat = some q' ∧ q'.state = qERROR ∧ q'.err = St.TIMEOUT ∧ q'.tx = []) ∧
            c.evtBuf = c0.evtBuf ++ [⟨Cls.item, Src.port q.port, q.part, 0x0A00, q.num + St.TIMEOUT * 2 ^ 16, 0⟩])))) ∧
    (∀ (qp : BitVec 16) (msn : BitVec 32) (ctx : Bool),
      let i := Instr.backoffExpiry qp msn ctx
      (c0.qp? qp.toNat = none → exec i s = .next s) ∧
      (∀ q, c0.qp? qp.toNat = some q → q.msg? msn.toNat false = none → exec i s = .next s) ∧
      (∀ q m, c0.qp? qp.toNat = some q → q.msg? msn.toNat false = some m → (m.waiting = false → exec i s = .next s) ∧
        (m.waiting = true → m.tries < c0.retryLimit q.part → q.tx = [m] → Answers s i (fun c => frame c ∧ c.ops = c0.ops ∧ c.sameBytes c0 ∧
          ∃ q' m', c.qp? qp.toNat = some q' ∧ q'.tx = [m'] ∧ m'.msn = m.msn ∧ m'.waiting = false ∧ m'.base = 0 ∧ m'.again = [] ∧ m'.got = [] ∧ m'.tries = m.tries)) ∧
        (∀ id, m.waiting = true → c0.retryLimit q.part ≤ m.tries → q.tx = [m] → m.owner = .op id → q.bufs = [] → q.rx = [] → c0.rmaQuiet → Answers s i (fun c => frame c ∧
          c0.opEnds c id (if ctx then St.CONTEXT else St.TIMEOUT) 0 ∧ ∃ q', c.qp? qp.toNat = some q' ∧ q'.tx = [] ∧ (ctx = false → q'.state = qERROR) ∧
            (ctx = true → q'.state = q.state))))) ∧
    (∀ (qp : BitVec 16) (msn : BitVec 32), Answers s (.reassemblyTimeout qp msn) (fun c => c = { c0 with qps := c.qps } ∧ c.qps.length = c0.qps.length ∧
      ∀ (j : Nat) q, c0.qps[j]? = some q → ∃ q', c.qps[j]? = some q' ∧
        (q.num ≠ qp.toNat ∨ q.rx.any (fun r => r.msn == msn.toNat && r.done.isNone) = false → q' = q) ∧
        (∀ r, q.num = qp.toNat → q.rx.find? (fun r => r.msn == msn.toNat && r.done.isNone) = some r →
          q' = { q with rx := q.rx.filter (fun x => x.msn != msn.toNat), bufs := r.buf.toList ++ q.bufs }))) ∧
    (∀ (port : Fin 8) (iface : Fin 2) (vc : Fin 16) (dev : BitVec 14),
      let u := unitOfPort port.val iface.val
      let x := c0.credit u vc.val dev.toNat
      let sent := fun (c : Core) o => frame c ∧ c.sameBytes c0 ∧ c.qps = c0.qps ∧ ∃ args, c.out = c0.out ++ [⟨3, o :: u :: args⟩]
      let found := c0.rxGrants.find? (fun g => g.unit == u && g.vc == vc.val && g.dev == dev.toNat)
      (x.granted = false → exec (.creditIdleReturn port iface vc dev) s = .next s) ∧
      (x.granted = true → Answers s (.creditIdleReturn port iface vc dev) (fun c => sent c 0x0E ∧ c.credit u vc.val dev.toNat = {} ∧ c.rxGrants = c0.rxGrants)) ∧
      (∀ r, r = (x.requested && !x.granted && c0.linkUp u) → (r = false → exec (.creditReqRetry port iface vc dev) s = .next s) ∧
        (r = true → Answers s (.creditReqRetry port iface vc dev) (fun c => sent c 0x0D ∧ c.txCredit = c0.txCredit ∧ c.rxGrants = c0.rxGrants))) ∧
      ((∀ g, found = some g → g.changed = false) → exec (.creditRepeat port iface vc dev) s = .next s) ∧
      (∀ g, found = some g → g.changed = true → Answers s (.creditRepeat port iface vc dev) (fun c => sent c 0x0C ∧ c.txCredit = c0.txCredit ∧
        c.rxGrants = c0.rxGrants.map (fun h => if h.unit = u ∧ h.vc = vc.val ∧ h.dev = dev.toNat then { h with changed := false } else h)))) ∧
    (∀ (p : PartId) (qp : BitVec 16),
      let n := qp.toNat
      let own := c0.qpOwner n = some p.val
      let res := fun (c : Core) st => c.rf Regs.RMA_QP_CMD_STATUS_RESULT p.val = st
      let only := fun (c : Core) => c0.onlyRegs c (fun r => r = Regs.RMA_QP_CMD_STATUS.at p.val)
      let x := c0.parseContext p.val n (c0.readAt p.val 0 (c0.rf Regs.RMA_CTX_BASE_ADDR p.val) (256 * (n - c0.rf Regs.RMA_QP_RANGE_FIRST p.val)) 176)
      let free := c0.flag Regs.RMA_QP_CMD_STATUS_BUSY p.val = false
      (¬free → exec (.qpCreate p qp) s = .next s ∧ (c0.collEnds = [] → exec (.qpDestroy p qp) s = .next s)) ∧
      (free → ¬own → Answers s (.qpCreate p qp) (fun c => only c ∧ res c St.BOUNDS) ∧ (c0.collEnds = [] → Answers s (.qpDestroy p qp) (fun c => only c ∧ res c St.BOUNDS))) ∧
      (free → own → x.2 = false → Answers s (.qpCreate p qp) (fun c => only c ∧ res c St.LENGTH)) ∧
      (free → own → x.2 = true → c0.rf Regs.RMA_PD_RANGE_FIRST p.val ≤ x.1.pd → x.1.pd < c0.rf Regs.RMA_PD_RANGE_FIRST p.val + c0.rf Regs.RMA_PD_RANGE_COUNT p.val →
        c0.rf Regs.SEC_KEYID_MAP_PART (x.1.key - 1) = p.val → x.1.paths.any (fun a => c0.vcForeign p.val (unitOfPort a.1 a.2) x.1.vc) = false →
        let far := x.1.remoteDev ≠ c0.rf Regs.COL_HERD_CFG_DEV_ID ∧ x.1.remoteDev < c0.rf Regs.COL_HERD_CFG_SIZE
        (¬far → Answers s (.qpCreate p qp) (fun c => only c ∧ res c St.BOUNDS)) ∧
        (∀ q, far → c0.qp? n = some q → q.state ≠ qRESET → Answers s (.qpCreate p qp) (fun c => only c ∧ res c St.BOUNDS)) ∧
        (far → c0.qp? n = none → (c0.qps.filter (·.cached)).length < 4096 → Answers s (.qpCreate p qp) (fun c => res c St.SUCCESS ∧ frame c ∧ c.ops = c0.ops ∧
          c.qps = c0.qps ++ [{ x.1 with state := qREADY, cached := true, lastUse := c0.tick }]))) ∧
      (free → own → c0.qp? n = none → c0.collEnds = [] → Answers s (.qpDestroy p qp) (fun c => only c ∧ res c St.SUCCESS)) ∧
      (∀ q, free → own → c0.qp? n = some q → q.fetching = true → c0.collEnds = [] → Answers s (.qpDestroy p qp) (fun c => frame c ∧ c.ops = c0.ops ∧
        c.rf Regs.RMA_QP_CMD_STATUS_BUSY p.val = 1 ∧ c.qps = c0.qps.map (fun x => if x.num = n then { x with destroying := true } else x))) ∧
      (∀ q id, free → own → c0.qp? n = some q → q.fetching = false → (∀ m ∈ q.tx, m.owner = .op id) → q.tx ≠ [] → q.bufs = [] → q.rx = [] → q.waiting = [] → c0.rmaQuiet → Answers s (.qpDestroy p qp) (fun c =>
        frame c ∧ res c St.SUCCESS ∧ c.qps = c0.qps.filter (fun x => x.num != n) ∧ c0.opEnds c id St.ABORTED 0 ∧ (q.state = qREADY → c0.answered c q 0x0F)))) ∧
    (∀ (p : PartId) (key : BitVec 18),
      Answers s (.regionInval p key) (fun c => c = { c0 with regs := c.regs, regionCache := c.regionCache, invals := c.invals } ∧ c.invals = c0.invals ++ [(p.val, key.toNat)] ∧
        c.rf Regs.RMA_REGION_INVAL_BUSY p.val = 1 ∧ c.regionCache.get (fun _ => none) (262144 * p.val + key.toNat) = none ∧
        ∀ j, j ≠ 262144 * p.val + key.toNat → c.regionCache.get (fun _ => none) j = c0.regionCache.get (fun _ => none) j)) ∧
    (∀ p : PartId, let busy := c0.invals.any (fun e => e.1 == p.val && c0.keyBusy e.1 e.2)
      (busy = true → exec (.regionInvalDrained p) s = .next s) ∧
      (busy = false → Answers s (.regionInvalDrained p) (fun c => c = { c0 with regs := c.regs, invals := c.invals } ∧ c.rf Regs.RMA_REGION_INVAL_BUSY p.val = 0 ∧
        c.invals = c0.invals.filter (fun e => e.1 != p.val)))) ∧
    (∀ (qp : BitVec 16) (st : BitVec 16),
      (c0.qp? qp.toNat = none → exec (.contextFetchDone qp st) s = .next s) ∧
      (∀ q, c0.qp? qp.toNat = some q → (q.fetching = false → exec (.contextFetchDone qp st) s = .next s) ∧
        (q.fetching = true → q.destroying = false → st = 0 → (c0.qps.filter (·.cached)).length < 4096 → q.waiting = [] → q.tx = [] → c0.rmaQuiet → Answers s (.contextFetchDone qp st) (fun c =>
          c = { c0 with qps := c.qps } ∧ c.qps = c0.qps.map (fun x => if x.num = qp.toNat
            then { x with cached := true, fetching := false, lastUse := c0.tick, waiting := [], bufs := x.bufs.map (fun b => { b with waits := false }) } else x))) ∧
        (∀ m id, q.fetching = true → q.destroying = false → st ≠ 0 → q.waiting = [] → q.bufs = [] → q.tx = [m] → m.kind ≠ 4 → m.owner = .op id → c0.rmaQuiet → Answers s (.contextFetchDone qp st) (fun c => frame c ∧
          c.rf Regs.RMA_RMA_PSTATUS_FETCH_ERR q.part = 1 ∧ c0.opEnds c id St.CONTEXT 0 ∧ c.evtBuf = c0.evtBuf ++ [⟨Cls.item, Src.port q.port, q.part, 0x0A03, qp.toNat + st.toNat * 2 ^ 16, 0⟩] ∧
          ∃ q', c.qp? qp.toNat = some q' ∧ q'.fetching = false ∧ q'.tx = []))))

/-- GROUP_FORM is refused while a program is loaded; it checks the group descriptor and the members in the order of R472 and writes GRP_INFO, GRP_TAG and GRP_DIGEST. GROUP_DISSOLVE clears them and
ends what runs with ABORTED. A whole collective message waits when its collective has not been issued here, its group being known or not, and else acts: a chunk
of an owner's shard is added up exactly and written, all-gather and all-to-all rows and ring bytes are written where they belong, COMMIT gives a shard its outcome, REPLAY
waits for the own check, COLL_ABORT and COLL_TIMEOUT end the collective. A PROBE is answered once its bytes are there, PROBE_RESP gives latency or
bandwidth, and PROBE_CMD with GO starts a probe or gives its RESULT. -/
def Obligations.Collectives : Prop :=
  ∀ s : State,
    let c0 := s.core
    let frame := fun (c : Core) => c.tiles = c0.tiles ∧ c.items = c0.items ∧ c.recs = c0.recs
    let ended := fun (c : Core) (op st : Nat) => ∃ k', c.coll? op = some k' ∧ k'.ended = true ∧ k'.status = st
    (∀ (p : PartId) (g : Fin 16),
      let i := g.val + 16 * p.val
      let a := c0.rf Regs.COL_GROUP_DESC_ADDR p.val
      let d := c0.readAt p.val 0 a 0 64
      let f := fun (lo n : Nat) => leNat ((d.drop lo).take n)
      let n := f 2 2 % 2 ^ 15
      let size := c0.rf Regs.COL_HERD_CFG_SIZE
      let res := fun (c : Core) st => c.rf Regs.COL_GROUP_CMD_STATUS_RESULT p.val = st
      let only := fun (c : Core) => c0.onlyRegs c (fun r => r = Regs.COL_GROUP_CMD_STATUS.at p.val)
      let readable := c0.flag Regs.COL_GRP_INFO_FORMED i = false ∧ c0.flag Regs.COL_HERD_CFG_VALID = true ∧ bits a 63 60 = 2 ∧ c0.boundsOk p.val a 0 64 = true
      let vc := fun v => 1 ≤ v ∧ v ≤ 14
      let fields := f 2 2 < 2 ^ 15 ∧ f 5 3 = 0 ∧ f 12 4 = 0 ∧ f 24 40 = 0 ∧ 1 ≤ n ∧ n ≤ size ∧ vc (f 4 1 % 16) ∧ vc (f 4 1 / 16) ∧ isPow2 (f 8 4) = true ∧ 1024 ≤ f 8 4 ∧ f 8 4 ≤ 262144
      let ma := f 16 8
      let mb := c0.readAt p.val 0 ma 0 (8 * n)
      let es := (List.range n).map (fun j => leNat ((mb.drop (8 * j)).take 8))
      let mem := es.map (fun e => (bits e 13 0, bits e 29 16, bits e 47 32))
      let near := fun j => match c0.qp? ((mem[j]?).getD (0, 0, 0xFFFF)).2.2 with
        | some q => n = 1 ∨ (q.part = p.val ∧ q.state = qREADY ∧ q.remoteDev = ((mem[j]?).getD (0, 0, 0xFFFF)).1 ∧
          ∀ b ∈ q.paths, c0.vcForeign p.val (unitOfPort b.1 b.2) (f 4 1 % 16) = false ∧ c0.vcForeign p.val (unitOfPort b.1 b.2) (f 4 1 / 16) = false)
        | none => n = 1
      ((c0.part p.val).prog.isSome = true → Answers s (.groupForm p g) (fun c => c.rf Regs.COL_COLL_STATUS_CFG_ERR p.val = 1 ∧
        c0.onlyRegs c (fun r => r = Regs.COL_COLL_STATUS.at p.val))) ∧
      ((c0.part p.val).prog = none → ¬readable → Answers s (.groupForm p g) (fun c => only c ∧ res c St.BOUNDS)) ∧
      ((c0.part p.val).prog = none → readable → ¬fields → Answers s (.groupForm p g) (fun c => only c ∧ res c St.LENGTH)) ∧
      (∀ pos, (c0.part p.val).prog = none → readable → fields → bits ma 63 60 = 2 → c0.boundsOk p.val ma 0 (8 * n) = true →
        mem.findIdx? (fun e => e.2.1 == c0.rf Regs.COL_HERD_CFG_ORDINAL) = some pos → (mem[pos]?).map (fun e => (e.1, e.2.2)) = some (c0.rf Regs.COL_HERD_CFG_DEV_ID, 0xFFFF) →
        (∀ e ∈ es, bits e 15 14 = 0 ∧ bits e 31 30 = 0 ∧ bits e 63 48 = 0) → (∀ e ∈ mem.zip (mem.drop 1), e.1.2.1 < e.2.2.1) → (∀ e ∈ mem, e.1 < size ∧ e.2.1 < size) →
        (∀ j, j < 16 → j ≠ g.val → c0.flag Regs.COL_GRP_INFO_FORMED (j + 16 * p.val) = true → c0.rf Regs.COL_GRP_TAG_TAG (j + 16 * p.val) ≠ f 0 2) →
        (n ≠ 1 → near ((pos + 1) % n) ∧ near ((pos + n - 1) % n)) → (n = 1 → c0.qp? 0xFFFF = none) → Answers s (.groupForm p g) (fun c => res c St.SUCCESS ∧ frame c ∧ c.mems = c0.mems ∧
          c.ring p.val g.val = some { part := p.val, num := g.val, tag := f 0 2, pos := pos, n := n, rvc := f 4 1 % 16, gvc := f 4 1 / 16, chunk := f 8 4,
                                      digest := crc64 (d.take 16 ++ mb) % 2 ^ 64, members := mem })) ∧
      (c0.ring p.val g.val = none → c0.collEnds = [] → Answers s (.groupDissolve p g) (fun c => only c ∧ res c St.BOUNDS)) ∧
      (∀ r, c0.ring p.val g.val = some r → c0.collEnds = [] → (∀ k ∈ c0.colls, k.part = p.val → k.group = g.val → k.kind ≠ kCKPT → k.ended = true) →
        Answers s (.groupDissolve p g) (fun c => res c St.SUCCESS ∧ frame c ∧ c.mems = c0.mems ∧ c.ops = c0.ops ∧ c.ring p.val g.val = none ∧ c.rd Regs.COL_GRP_INFO i = 0 ∧
          c.rd Regs.COL_GRP_TAG i = 0 ∧ c.rd Regs.COL_GRP_DIGEST i = 0 ∧ ∀ k ∈ c.colls, k.part = p.val → k.group = g.val → k.kind = kCKPT)) ∧
      (∀ r k, c0.ring p.val g.val = some r → c0.collEnds = [] → c0.colls = [k] → k.part = p.val → k.group = g.val → k.kind ≠ kCKPT → k.ended = false → r.n = 1 → r.pos = 0 →
        Answers s (.groupDissolve p g) (fun c => res c St.SUCCESS ∧ frame c ∧ c.mems = c0.mems ∧ c0.opEnds c k.op St.ABORTED 0 ∧ c.colls = [] ∧ c.ring p.val g.val = none))) ∧
    (∀ (k : Pkt) (q : QP),
      let h := CollHdr.parse k.payload
      let body := k.payload.drop 64
      let n := k.dstQp.toNat
      let whole := fun o => c0.hears o k q ∧ q.oneNew k ∧ k.payload.length = k.total.toNat ∧ 64 ≤ k.total.toNat
      let dd := fun (w : Nat) => descOf w
      (∀ e ∈ [(Instr.collData k, 0x10), (.commit k, 0x11), (.replay k, 0x12), (.collAbort k, 0x13)],
        let full := c0.stageFull q.part k.payload.length
        let cells := (unitOfPort k.port.val k.iface.val, k.vc.val, k.srcDev.toNat, frameCells q.form k.payload.length)
        let parks := fun (c : Core) =>
          c.parked = c0.parked ++ [{ part := q.part, qp := n, opcode := e.2, bytes := k.payload, inCells := full, hold := if full then some cells else none }]
        (∀ m ∈ c0.parked, m.inCells = true → m.hold.isSome = true) → whole e.2 → (e.2 = 0x10 → h.kind ≠ kCKPT ∧ h.kind ≠ kAGREE) →
        (c0.ringOfTag q.part h.tag = none → Answers s e.1 (fun c => frame c ∧ c.sameBytes c0 ∧ c.colls = c0.colls ∧ c.ops = c0.ops ∧ c0.answered c q 0x08 ∧ parks c)) ∧
        (∀ r, c0.ringOfTag q.part h.tag = some r →
          c0.colls.find? (fun x => x.part == q.part && x.group == r.num && x.ltile == h.tile && x.seq == h.seq && x.kind != kCKPT) = none →
          Answers s e.1 (fun c => frame c ∧ c.sameBytes c0 ∧ c.colls = c0.colls ∧ c.ops = c0.ops ∧ c0.answered c q 0x08 ∧
            (h.seq < c0.collSeq.get (fun _ => 0) ((16 * q.part + r.num) * 256 + h.tile) → c.parked = c0.parked) ∧
            (c0.collSeq.get (fun _ => 0) ((16 * q.part + r.num) * 256 + h.tile) ≤ h.seq → parks c)))) ∧
      (whole 0x10 → h.kind = kAGREE → ∀ r, c0.ringOfTag q.part h.tag = some r → h.e ≠ c0.stepOf q.part → Answers s (.collData k) (fun c => frame c ∧ c.sameBytes c0 ∧ c.parts = c0.parts ∧
        ⟨Cls.info, Src.dme (4 * c0.lead q.part), q.part, 0x0B05, h.e % 2 ^ 64, c0.stepOf q.part % 2 ^ 64⟩ ∈ c.evtBuf)) ∧
      (∀ r x, c0.ringOfTag q.part h.tag = some r → c0.ring x.part x.group = some r → (c0.colls.map (·.op)).Nodup →
        c0.colls.find? (fun x => x.part == q.part && x.group == r.num && x.ltile == h.tile && x.seq == h.seq && x.kind != kCKPT) = some x → x.ended = false →
        let fits := h.kind = x.kind ∧ h.e = x.e ∧ h.compact = x.compact ∧ h.digest = r.digest
        let now := fun (c : Core) (y : Coll) => ∃ x', c.coll? x.op = some x' ∧ x' = { y with lastTick := c0.tick }
        (whole 0x10 → fits → x.kind = kRSCAT → h.shard = r.pos → r.pos < r.n → h.chunk < chunkCount (shardCount x.e r.n h.shard) r.chunk →
          let w := if x.compact then 2 else 4
          body.length = chunkLen (shardCount x.e r.n h.shard) r.chunk h.chunk * w → x.owned.any (fun o => o.1 == h.chunk) = false →
          x.owned.length + 1 < chunkCount (shardCount x.e r.n r.pos) r.chunk →
          let y := addChunk h (some (splitElems w body)) (c0.rsPart x r h.shard h.chunk)
          chunkOk y.1 y.2 = true → Answers s (.collData k) (fun c => frame c ∧ c.ops = c0.ops ∧ c0.answered c q 0x08 ∧
            c.sameBytes (c0.putRange x.part x.ltile (dd x.td) (h.chunk * r.chunk) y.2) ∧ ∃ x', c.coll? x.op = some x' ∧ (h.chunk, 0) ∈ x'.owned ∧ x'.ended = false)) ∧
        (whole 0x10 → fits → x.kind = kAGATH → chunkShape x r h (dd x.td) body = true → Answers s (.collData k) (fun c => frame c ∧
          c.sameBytes (c0.putRange x.part x.ltile (dd x.td) (shardStart x.e r.n h.shard + h.chunk * r.chunk) (splitElems (dd x.td).esize body)))) ∧
        (∀ c1, whole 0x10 → fits → x.kind = kA2A → c0.a2aTake x r h.shard body = some c1 → Answers s (.collData k) (fun c => frame c ∧ c.sameBytes c1)) ∧
        (whole 0x10 → fits → x.kind = kRING → body.length = (dd x.td).bytes → Answers s (.collData k) (fun c => frame c ∧ c.sameBytes (c0.putBytes x.part x.ltile (dd x.td) 0 body) ∧
          (x.sent ≤ x.confirmed → c0.opEnds c x.op 0 0 ∧ ended c x.op 0) ∧ (x.confirmed < x.sent → c.ops = c0.ops))) ∧
        (whole 0x11 → fits → x.kind = kRSCAT → x.outcomes.any (fun o => o.1 == h.shard) = false → r.next = h.shard → Answers s (.commit k) (fun c => frame c ∧ c.sameBytes c0 ∧
          (x.outcomes.length + 1 < r.n → now c { x with outcomes := (h.shard, h.status) :: x.outcomes } ∧ c.ops = c0.ops) ∧
          (r.n ≤ x.outcomes.length + 1 → c0.opEnds c x.op (if h.status ≠ 0 ∨ x.outcomes.any (fun o => o.2 != 0) then St.CHECKSUM else 0) 0))) ∧
        (whole 0x12 → x.kind = kAGATH → x.outcomes.any (fun o => o.1 == h.shard) = false → Answers s (.replay k) (fun c => frame c ∧ c.sameBytes c0 ∧ c.ops = c0.ops ∧
          now c { x with asked := x.asked ++ [(h.shard, r.next, h.attempt)] })) ∧
        (whole 0x13 → r.next = h.shard → r.prev = h.shard → Answers s (.collAbort k) (fun c => frame c ∧ c.sameBytes c0 ∧ c0.opEnds c x.op h.status 0 ∧ ended c x.op h.status ∧
          ⟨Cls.item, Src.dme (dmeOf x.ltile), x.part, 0x0B04, (r.tag + h.status * 2 ^ 16 + h.shard * 2 ^ 32) % 2 ^ 64, 0⟩ ∈ c.evtBuf))) ∧
      (c0.hears 0x14 k q → 64 ≤ k.payload.length →
        let got := c0.probeGot.get (fun _ => 0) n + (k.payload.length - 64)
        Answers s (.probe k) (fun c => frame c ∧ c.sameBytes c0 ∧ c.ops = c0.ops ∧ c.colls = c0.colls ∧ c.probeGot.get (fun _ => 0) n = (if h.e ≤ got then 0 else got) ∧
          (h.e ≤ got → q.paths.any (fun a => c0.linkUp (unitOfPort a.1 a.2)) = true → ∃ u args, c.out = c0.out ++ [⟨3, 0x15 :: u :: args⟩]))) ∧
      (c0.hears 0x15 k q →
        let ns := fun (b : Probe) => (c0.tick + 1 - b.started) * Config.tickNs
        (c0.probe = none → Answers s (.probeResp k) (fun c => frame c ∧ c.sameBytes c0 ∧ c.ops = c0.ops ∧ c.out = c0.out)) ∧
        (∀ b, c0.probe = some b → b.qp = n →
          let done := fun (c : Core) => frame c ∧ c.sameBytes c0 ∧ c.ops = c0.ops ∧ c.probe = none ∧ c.rf Regs.COL_PROBE_STATUS_BUSY = 0 ∧
            c.rf Regs.COL_PROBE_STATUS_RESULT = St.SUCCESS
          (b.rate = false → b.kib = 0 → ns b < 2 ^ 32 → Answers s (.probeResp k) (fun c => done c ∧ c.rf Regs.COL_PROBE_LAT_NS = ns b)) ∧
          (b.rate = true → Answers s (.probeResp k) done)))) ∧
    (∀ op,
      (c0.coll? op = none → exec (.collTimeout op) s = .next s) ∧
      (∀ k, c0.coll? op = some k → (k.ended = true → exec (.collTimeout op) s = .next s) ∧
        (k.ended = false → c0.collEnds = [] → (c0.colls.map (·.op)).Nodup → Answers s (.collTimeout op) (fun c => frame c ∧ c.parts = c0.parts ∧ c.sameBytes c0 ∧
          c0.opEnds c op St.TIMEOUT 0 ∧ ended c op St.TIMEOUT)))) ∧
    (∀ w : Word,
      let busy := c0.flag Regs.COL_PROBE_STATUS_BUSY
      let p := bits w.toNat 3 0
      let n := bits w.toNat 19 4
      let st := c0.qpIssue p n none
      (w.getLsbD 23 = false ∨ busy = true → exec (.probeCmd w) s = .next s) ∧
      (w.getLsbD 23 = true → busy = false → st ≠ 0 → st < 2 ^ 16 → Answers s (.probeCmd w) (fun c => c.probe = none ∧ c.rf Regs.COL_PROBE_STATUS_RESULT = st ∧
        c.rf Regs.COL_PROBE_STATUS_BUSY = 0 ∧ frame c ∧ c.out = c0.out)) ∧
      (∀ q a, w.getLsbD 23 = true → busy = false → st = 0 → c0.qp? n = some q → q.paths[bits w.toNat 22 20]? = some a → c0.linkUp (unitOfPort a.1 a.2) = true →
        let x := c0.credit (unitOfPort a.1 a.2) q.vc q.remoteDev
        frameCells q.form 64 ≤ x.left → Answers s (.probeCmd w) (fun c => frame c ∧ c.sameBytes c0 ∧ c.rf Regs.COL_PROBE_STATUS_BUSY = 1 ∧
          c.probe = some { part := p, qp := n, path := bits w.toNat 22 20, kib := bits w.toNat 55 32, started := c0.tick + 1, left := 0 } ∧
          c.credit (unitOfPort a.1 a.2) q.vc q.remoteDev = { x with consumed := (x.consumed + frameCells q.form 64) % 2 ^ 24, lastSend := c0.tick } ∧
          ∃ args, c.out = c0.out ++ [⟨3, 0x14 :: unitOfPort a.1 a.2 :: args⟩])))

/-- With no device-level transaction open: PARTITION_CREATE of a FREE partition with tile groups that are free and mapped makes it ACTIVE with a new memory key and posts PARTITION_CREATED;
else its commit is refused. PARTITION_REMOVE of an ACTIVE partition makes it DRAINING and stops its program with KEY_REVOKED. KEY_IDS_REVOKED revokes its key IDs, takes
its memory key and key slots and begins the scrub. PARTITION_FREED, once no item and no record is left, disables its function; PARTITION_DRAIN_FORCED, 10 ms after t0, ends
what is left. GRANULE_SCRUBBED zeroes a granule and frees it, and the last one of a freed partition makes it FREE. PARTITION_RESET ends every item and operation of an
ACTIVE partition and keeps its memory key. TILE_RESET of a tile that runs no program clears its sequencer and its scratchpad. -/
def Obligations.PartitionLife : Prop :=
  ∀ (p : PartId) (s : State),
    let c0 := s.core
    let x := c0.part p.val
    let closed := c0.answers = true ∧ c0.txOpen 0 = false
    let result := fun (c : Core) => c.rf Regs.CFG_TXN_STATUS_RESULT
    let others := fun (c : Core) => (∀ q, q < 16 → q ≠ p.val → c.part q = c0.part q ∧ c.pstate q = c0.pstate q)
    let same := fun (c : Core) => c.parts = c0.parts ∧ c.tiles = c0.tiles ∧ c.items = c0.items ∧ c.ops = c0.ops ∧ c.mems = c0.mems ∧ (∀ q, q < 16 → c.pstate q = c0.pstate q)
    let gone := fun (c : Core) => (∀ i ∈ c.items, i.part ≠ p.val) ∧ (∀ o ∈ c.ops, o.part ≠ p.val)
    let due := (c0.pstate p.val = pDRAINING ∨ (c0.pstate p.val = pSCRUBBING ∧ x.freed = false)) ∧ x.revoked = true ∧ (∀ i ∈ c0.items, i.part ≠ p.val) ∧ ∀ r ∈ c0.recs, r.part ≠ p.val
    let owns := fun g => (List.range 372).filter (fun k => c0.rf Regs.MEM_GRANULE_OWNER_PART k == g)
    (c0.answers = false → (∀ g, exec (.partitionCreate p g) s = .next s) ∧ exec (.partitionRemove p) s = .next s ∧ ∀ f, exec (.partitionReset p f) s = .next s) ∧
    (∀ groups : BitVec 16, closed →
      let stand := groups ≠ 0 ∧ ∀ g, g < 16 → groups.getLsbD g = true → (∀ q, q < 16 → q ≠ p.val → c0.ownsGroup q g = false) ∧ ∃ l, l / 16 = g ∧ (c0.phys l).isSome = true
      let ok := stand ∧ c0.pstate p.val = pFREE ∧ s.perm.lc ≠ 3 ∧ s.perm.tamper = false ∧ c0.flag Regs.DEV_STATUS_READY = true
      (ok → Answers s (.partitionCreate p groups) (fun c => result c = 0 ∧ c.txOpen 0 = false ∧ c.pstate p.val = pACTIVE ∧ c.part p.val = { key := c0.nextKey } ∧
        c.nextKey = c0.nextKey + 1 ∧ c.rf Regs.PART_TILE_GROUPS_GROUPS p.val = groups.toNat ∧ others c ∧ c.tiles = c0.tiles ∧ c.items = c0.items ∧ c.mems = c0.mems ∧
        c.evtBuf = c0.evtBuf ++ [⟨Cls.info, Src.security, p.val, 0x0C00, groups.toNat, 0⟩])) ∧
      (¬ok → Answers s (.partitionCreate p groups) (fun c => (result c = St.LENGTH ∨ result c = St.PROTECTION) ∧ c.txOpen 0 = false ∧ same c ∧ c.nextKey = c0.nextKey))) ∧
    (closed → c0.pstate p.val = pACTIVE → Answers s (.partitionRemove p) (fun c => result c = 0 ∧ c.pstate p.val = pDRAINING ∧ (c.part p.val).removeTick = c0.tick ∧
      (c.part p.val).revoked = x.revoked ∧ (∀ pr, x.prog = some pr → pr.stopping = false →
        (c.part p.val).prog = some { pr with stopping := true, endStatus := St.KEY_REVOKED, fault := none }) ∧
      ⟨Cls.info, Src.security, p.val, 0x0C01, c0.items.countP (fun i => i.part == p.val) % 2 ^ 64, 0⟩ ∈ c.evtBuf)) ∧
    (closed → c0.pstate p.val ≠ pACTIVE → Answers s (.partitionRemove p) (fun c => result c = St.PROTECTION ∧ c.rf Regs.PART_STATUS_CFG_ERR p.val = 1 ∧ same c)) ∧
    (c0.pstate p.val ≠ pDRAINING ∨ x.revoked = true → exec (.keyIdsRevoked p) s = .next s) ∧
    (c0.pstate p.val = pDRAINING → x.revoked = false → Answers s (.keyIdsRevoked p) (fun c => (c.part p.val).revoked = true ∧ (c.part p.val).key = 0 ∧
      (∀ k, k < 255 → c0.rf Regs.SEC_KEYID_MAP_PART k = p.val → c.rf Regs.SEC_KEYID_MAP_REVOKED k = 1) ∧ (∀ n, n < 16 → c.slot p.val n = none) ∧
      c.rd Regs.PART_REVOKE_TICK p.val = c0.tick % 2 ^ 64 ∧ c.rf Regs.PART_STATUS_FATAL p.val = 1 ∧ (c.part p.val).scrub = owns p.val ∧ (c.part p.val).pend = [] ∧
      (∀ g rest, owns p.val = g :: rest → c.rf Regs.MEM_GRANULE_OWNER_PART g = 0x1E) ∧ (∀ q ∈ c.qps, q.part ≠ p.val) ∧
      ⟨Cls.partition, Src.security, p.val, 0x0C02, x.removeTick % 2 ^ 64, (c0.keyIds p.val).length % 2 ^ 64⟩ ∈ c.evtBuf)) ∧
    ((¬due → exec (.partitionFreed p) s = .next s) ∧
      (due → Answers s (.partitionFreed p) (fun c => gone c ∧ p.val + 1 ∉ c.ide ∧ p.val + 1 ∉ c.busMaster ∧ c.items = c0.items ∧ ((∀ o ∈ c0.ops, o.part ≠ p.val) → c.mems = c0.mems) ∧ others c ∧
        ⟨Cls.info, Src.security, p.val, 0x0C04, x.drainEnded % 2 ^ 64, 0⟩ ∈ c.evtBuf ∧
        (x.scrub ≠ [] → c.pstate p.val = pSCRUBBING ∧ c.part p.val = { x with freed := true }) ∧
        (x.scrub = [] → c.pstate p.val = pFREE ∧ c.part p.val = {} ∧ c.rf Regs.PART_TILE_GROUPS_GROUPS p.val = 0)))) ∧
    (c0.pstate p.val ≠ pDRAINING ∨ c0.tick < x.removeTick + 250000 → exec (.partitionDrainForced p) s = .next s) ∧
    (c0.pstate p.val = pDRAINING → x.removeTick + 250000 ≤ c0.tick → (c0.items.map (·.id)).Nodup → Answers s (.partitionDrainForced p) (fun c => gone c ∧ c.pstate p.val ≠ pDRAINING ∧ c.pstate p.val ≠ pACTIVE ∧
      (c.part p.val).prog = none ∧ (∀ i ∈ c0.items, i.part = p.val → ∃ r ∈ c.recs, r.part = p.val ∧ r.cq = i.cq ∧ r.tag = i.tag ∧ r.status = St.KEY_REVOKED))) ∧
    (x.scrub = [] → exec (.granuleScrubbed p) s = .next s) ∧
    (∀ g rest, x.scrub = g :: rest → g < 372 → g ∉ rest → Answers s (.granuleScrubbed p) (fun c => c.tiles = c0.tiles ∧ c.items = c0.items ∧ c.scratch = c0.scratch ∧
      (∀ d, c.dram.get zeroByte d = if d / granuleBytes = g then 0 else c0.dram.get zeroByte d) ∧ c.rd Regs.MEM_GRANULE_OWNER g = Regs.MEM_GRANULE_OWNER.reset ∧
      (∀ h t, rest = h :: t → h < 372 → h ≠ g → c.rf Regs.MEM_GRANULE_OWNER_PART h = 0x1E ∧ c.part p.val = { x with scrub := rest, scrubbed := x.scrubbed + 1 }) ∧
      (rest = [] → x.freed = false → c.part p.val = { x with scrub := [], scrubbed := x.scrubbed + 1 } ∧ c.pstate p.val = c0.pstate p.val) ∧
      (rest = [] → x.freed = true → c.part p.val = {} ∧ c.pstate p.val = pFREE ∧
        c.evtBuf = c0.evtBuf ++ [⟨Cls.info, Src.security, p.val, 0x0C05, (x.scrubbed + 1) % 2 ^ 64, 0⟩]))) ∧
    (∀ flr : Bool, (flr = false → c0.txOpen 0 = false) → c0.answers = true →
      let i := Instr.partitionReset p flr
      let idle := (∀ o ∈ c0.ops, o.part ≠ p.val) ∧ ∀ i ∈ c0.items, i.part = p.val → i.kind ≠ .copy ∨ i.started = false
      (c0.pstate p.val ≠ pACTIVE → flr = true → exec i s = .next s) ∧
      (c0.pstate p.val ≠ pACTIVE → flr = false → Answers s i (fun c => result c = St.PROTECTION ∧ same c)) ∧
      (c0.pstate p.val = pACTIVE → x.resetting = true → flr = true → exec i s = .next s) ∧
      (c0.pstate p.val = pACTIVE → x.resetting = false → Answers s i (fun c => gone c ∧ c.pstate p.val = pACTIVE ∧ (c.part p.val).key = x.key ∧ (c.part p.val).prog = none ∧
        (c.part p.val).phase = 0 ∧ (c.part p.val).pend = [] ∧ (∀ q ∈ c.qps, q.part ≠ p.val) ∧ (∀ r ∈ c.recs, r.part = p.val → r.held = true) ∧ (idle → c.dram = c0.dram) ∧
        c.rf Regs.PART_TILE_GROUPS_GROUPS p.val = c0.rf Regs.PART_TILE_GROUPS_GROUPS p.val ∧
        (∀ t, t < 272 → c0.ownsGroup p.val (groupOfPhys t) = true → c.tile t = {}) ∧
        ⟨Cls.partition, Src.pcie, p.val, 0x0D08, (c0.items.countP (fun i => i.part == p.val) + b2n flr * 2 ^ 32) % 2 ^ 64, 0⟩ ∈ c.evtBuf))) ∧
    (∀ w : Word,
      let t := bits w.toNat 8 0
      let busy := c0.flag Regs.DEV_TILE_RESET_STATUS_BUSY
      let runs := (c0.logical t).isSome = true ∧ (c0.tile t).run = 1
      let tells := fun st => Answers s (.tileReset w) (fun c => c.rf Regs.DEV_TILE_RESET_STATUS_RESULT = st ∧ c0.onlyRegs c (fun r => r = Regs.DEV_TILE_RESET_STATUS.at 0))
      (w.getLsbD 9 = false ∨ busy = true → exec (.tileReset w) s = .next s) ∧
      (w.getLsbD 9 = true → busy = false → 271 < t → tells St.BOUNDS) ∧
      (w.getLsbD 9 = true → busy = false → t < 272 → runs → tells St.PROTECTION) ∧
      (w.getLsbD 9 = true → busy = false → t < 272 → ¬runs → Answers s (.tileReset w) (fun c => c.rf Regs.DEV_TILE_RESET_STATUS_RESULT = 0 ∧ c.tile t = {} ∧
        (∀ u, u ≠ t → c.tile u = c0.tile u) ∧ c.parts = c0.parts ∧ c.items = c0.items ∧ c.dram = c0.dram ∧ (∀ r ∈ c.bankReqs, r.tile ≠ t) ∧
        (∀ u o, u < 272 → u ≠ t → o < 0x300000 → c.readPlace (.scratch u o) = c0.readPlace (.scratch u o)) ∧
        ((∀ l u, c0.phys l = some u → u / 17 = l / 16) → ∀ o, o < 0x300000 → c.readPlace (.scratch t o) = 0))))

namespace Sys2Proof.Machine

/-- A blob that passes every check of R529 for a command that installs `kind` under nonce number `k`, with the key it unwraps to. -/
def State.goodBlob (s : State) (bs : List Byte) (kind k : Nat) (key : List Byte) : Prop :=
  field bs 0 4 = 0x4C424B57 ∧ field bs 4 1 ≤ 1 ∧ 1 ≤ field bs 5 1 ∧ field bs 6 1 = kind ∧ field bs 7 1 = 0 ∧ field bs 176 16 = 0 ∧
    (kind = 1 → field bs 12 4 = 0 ∧ field bs 112 64 = 0) ∧ s.perm.lc = 2 ∧ s.perm.tamper = false ∧ (bs.drop 80).take 32 = s.core.nonce k ∧
    ∃ seed, s.perm.seed = some seed ∧ (bs.drop 16).take 64 = Config.deviceHash seed ∧ Config.openBlob seed (bs.take 192) (bs.drop 192) = some key

/-- PF0 can read host memory at a space-0x3 address: the link is up, PF0 is a bus master, and the link ends the read well. -/
def Core.pf0Reads (c : Core) (addr host : Nat) : Prop :=
  c.flag Regs.HIF_LINK_STATUS_UP = true ∧ 0 ∈ c.busMaster ∧ bits addr 63 60 = 3 ∧ host = 0

/-- Nonce number `k` has been drawn anew, and no other. -/
def Core.drewNonce (c c' : Core) (k : Nat) : Prop :=
  c'.draws = c.draws + 1 ∧ c'.nonces.get (fun k => k) k = c.draws ∧ ∀ j, j ≠ k → c'.nonces.get (fun k => k) j = c.nonces.get (fun k => k) j

/-- The key store differs in nothing. -/
def Core.sameKeys (c c' : Core) : Prop :=
  c'.slots = c.slots ∧ c'.epochCur = c.epochCur ∧ c'.epochNext = c.epochNext ∧ c'.epochPrev = c.epochPrev ∧ c'.secretCur = c.secretCur ∧
    c'.secretNext = c.secretNext ∧ c'.secretPrev = c.secretPrev

/-- The key store is zeroised (R537, R539). -/
def Core.noKeys (c : Core) : Prop :=
  (∀ p n, p < 16 → n < 16 → c.slot p n = none) ∧ c.epochCur = none ∧ c.epochNext = none ∧ c.epochPrev = none ∧ c.secretCur = 0 ∧ c.secretNext = 0 ∧
    c.secretPrev = 0

end Sys2Proof.Machine

/-- INSTALL_EPOCH of a good blob puts the epoch and its install count into NEXT and into the record that every reset keeps; an older epoch, a count used up, a failed
write of the record or an unreadable blob is refused with its status and KEY_REFUSED; a release nonce is drawn each time. SWITCH_EPOCH makes NEXT current and starts
every packet counter at 0; with no NEXT (this model's choice) or with the tamper latch it is refused. EPOCH_GRACE_END forgets the previous key once the grace has passed.
INSTALL_MODEL and INSTALL_BINDING of a good blob fill the slot; a revoked partition's commands are refused. DELETE_SLOT empties the slot. SEAL writes the
header and the sealed chunks; UNSEAL of a good object writes the plaintext of every chunk; without a binding key both end with PROTECTION. SPDM_REQUEST answers the certificates, a
signed measurement, or a key exchange on PF0. -/
def Obligations.KeyStore : Prop :=
  ∀ (s : State),
    let c0 := s.core
    let result := fun (c : Core) (p : Nat) => c.rf Regs.SEC_KEY_STATUS_RESULT p
    let epochRes := fun (c : Core) => c.rf Regs.SEC_EPOCH_STATUS_RESULT
    let frame := fun (c : Core) => c.tiles = c0.tiles ∧ c.parts = c0.parts ∧ c.items = c0.items ∧ c.mems = c0.mems
    (∀ (host : BitVec 16) (saveOk : Bool),
      let i := Instr.installEpoch host saveOk
      let addr := c0.rd Regs.SEC_EPOCH_ARG
      let bs := c0.readHost (addr % 2 ^ 60) 1328
      let e := field bs 8 8 % 2 ^ 32
      let refused := fun st => Answers s i (fun c => epochRes c = st ∧ c0.sameKeys c ∧ c0.drewNonce c 0 ∧ frame c ∧
        c.evtBuf = c0.evtBuf ++ [⟨Cls.item, Src.security, devPart, 0x0C09, st + 65536, 0⟩])
      let installed := fun cnt => ∃ c, exec i s = .next { s with core := c, perm := { s.perm with epochHi := e, epochCnt := cnt } } ∧ epochRes c = 0 ∧
        c.epochNext = some (e, cnt) ∧ (∃ key, Config.openBlob (s.perm.seed.getD 0) (bs.take 192) (bs.drop 192) = some key ∧ c.secretNext = leNat (key.take 32)) ∧
        c.epochCur = c0.epochCur ∧ c.secretCur = c0.secretCur ∧ c.epochPrev = c0.epochPrev ∧ c.slots = c0.slots ∧ c0.drewNonce c 0 ∧ frame c ∧
        c.evtBuf = c0.evtBuf ++ [⟨Cls.info, Src.security, devPart, 0x0C08, (1 + e * 2 ^ 32) % 2 ^ 64, 0⟩]
      (c0.flag Regs.HIF_LINK_STATUS_UP = false → refused St.LINK_DOWN) ∧
      (c0.pf0Reads addr 0 → host ≠ 0 → refused host.toNat) ∧
      (c0.pf0Reads addr host.toNat → (field bs 0 4 ≠ 0x4C424B57 ∨ 1 < field bs 4 1 ∨ field bs 5 1 = 0 ∨ field bs 6 1 ≠ 1 ∨ field bs 176 16 ≠ 0) → refused St.LENGTH) ∧
      (∀ key, c0.pf0Reads addr host.toNat → s.goodBlob bs 1 0 key →
        (e < s.perm.epochHi → refused St.PROTECTION) ∧
        (e = s.perm.epochHi → 65535 ≤ s.perm.epochCnt → refused St.LENGTH) ∧
        (s.perm.epochHi < e → saveOk = false → refused St.PROTECTION) ∧
        (s.perm.epochHi < e → saveOk = true → installed 0) ∧
        (e = s.perm.epochHi → s.perm.epochCnt < 65535 → saveOk = true → installed (s.perm.epochCnt + 1)))) ∧
    (c0.epochNext = none ∨ s.perm.tamper = true → Answers s .switchEpoch (fun c => epochRes c = St.PROTECTION ∧ c0.onlyRegs c (fun r => r = Regs.SEC_EPOCH_STATUS.at 0))) ∧
    (∀ e cnt, c0.epochNext = some (e, cnt) → s.perm.tamper = false → e < 2 ^ 32 → cnt < 2 ^ 16 → Answers s .switchEpoch (fun c => epochRes c = 0 ∧
      c.epochCur = some (e, cnt) ∧ c.secretCur = c0.secretNext ∧ c.epochPrev = c0.epochCur ∧ c.secretPrev = c0.secretCur ∧ c.epochNext = none ∧ c.secretNext = 0 ∧
      c.switchTick = c0.tick ∧ c.rf Regs.SEC_EPOCH_CUR = e ∧ c.rf Regs.SEC_EPOCH_INSTALLS = cnt ∧ (∀ k, k < 255 → c.rf Regs.SEC_KEYID_MAP_SENT k = 0) ∧
      c.slots = c0.slots ∧ frame c ∧ c.evtBuf = c0.evtBuf ++ [⟨Cls.info, Src.security, devPart, 0x0C0A, e, 0⟩])) ∧
    (c0.tick < c0.switchTick + c0.rf Regs.SEC_EPOCH_GRACE_MS * Config.ticksPerMs → exec .epochGraceEnd s = .next s) ∧
    (c0.switchTick + c0.rf Regs.SEC_EPOCH_GRACE_MS * Config.ticksPerMs ≤ c0.tick → Answers s .epochGraceEnd (fun c => c = { c0 with epochPrev := none, secretPrev := 0 })) ∧
    (∀ (p : PartId) (slot : Fin 16) (env : MemEnv) i kind, (i, kind) ∈ [(Instr.installModel p slot env, 2), (.installBinding p slot env, 3)] →
      let addr := c0.rf Regs.SEC_KEY_ARG_ADDR p.val
      let r := c0.itemAccess p.val [viewRange addr 1328 false] env
      let bs := r.2.readAt p.val 0 (2 * 2 ^ 60 + addr) 0 1328
      let event := fun st => ⟨Cls.item, Src.security, p.val, 0x0C09, st + (kind + 1) * 2 ^ 16, 0⟩
      ((c0.part p.val).revoked = true → Answers s i (fun c => result c p.val = St.KEY_REVOKED ∧ c0.sameKeys c ∧ c0.drewNonce c (p.val + 1) ∧ frame c ∧
        c.evtBuf = c0.evtBuf ++ [event St.KEY_REVOKED])) ∧
      ((c0.part p.val).revoked = false → r.1 ≠ 0 → r.1 < 2 ^ 16 → Answers s i (fun c => result c p.val = r.1 ∧ r.2.sameKeys c ∧ r.2.drewNonce c (p.val + 1) ∧
        c.mems = r.2.mems ∧ c.evtBuf = r.2.evtBuf ++ [event r.1])) ∧
      ((c0.part p.val).revoked = false → r.1 = 0 → (field bs 0 4 ≠ 0x4C424B57 ∨ field bs 6 1 ≠ kind) → Answers s i (fun c => result c p.val = St.LENGTH ∧
        r.2.sameKeys c ∧ r.2.drewNonce c (p.val + 1) ∧ c.mems = r.2.mems ∧ c.evtBuf = r.2.evtBuf ++ [event St.LENGTH])) ∧
      (∀ key, (c0.part p.val).revoked = false → r.1 = 0 → s.goodBlob bs kind (p.val + 1) key → Answers s i (fun c => result c p.val = 0 ∧
        c.slot p.val slot.val = some { model := kind == 2, label := field bs 8 8, bind := (bs.drop 112).take 64, key := leNat (key.take 32) } ∧
        (∀ k, k ≠ 16 * p.val + slot.val → c.slots.get (fun _ => none) k = r.2.slots.get (fun _ => none) k) ∧ r.2.drewNonce c (p.val + 1) ∧ c.mems = r.2.mems ∧
        c.epochCur = r.2.epochCur ∧ c.epochNext = r.2.epochNext ∧
        c.evtBuf = r.2.evtBuf ++ [⟨Cls.info, Src.security, p.val, 0x0C08, (kind + slot.val * 2 ^ 4 + field bs 8 8 % 2 ^ 32 * 2 ^ 32) % 2 ^ 64, 0⟩]))) ∧
    (∀ (p : PartId) (slot : Fin 16),
      (s.perm.tamper = true → Answers s (.deleteSlot p slot) (fun c => result c p.val = St.PROTECTION ∧ c0.onlyRegs c (fun r => r = Regs.SEC_KEY_STATUS.at p.val))) ∧
      (s.perm.tamper = false → Answers s (.deleteSlot p slot) (fun c => result c p.val = 0 ∧ c.slot p.val slot.val = none ∧ frame c ∧ c.evtBuf = c0.evtBuf ∧
        c.epochCur = c0.epochCur ∧ c.epochNext = c0.epochNext ∧ ∀ k, k ≠ 16 * p.val + slot.val → c.slots.get (fun _ => none) k = c0.slots.get (fun _ => none) k))) ∧
    (∀ (p : PartId) (slot : Fin 16) (env : MemEnv), (c0.part p.val).revoked = false →
      let n := c0.rf Regs.SEC_SEAL_LEN_LEN p.val
      let src := c0.rf Regs.SEC_SEAL_SRC_OFFSET p.val
      let dst := c0.rf Regs.SEC_SEAL_DST_OFFSET p.val
      let bare := s.perm.tamper = true ∨ c0.slot p.val slot.val = none ∨ ∃ k, c0.slot p.val slot.val = some k ∧ k.model = true
      let tells := fun i st => Answers s i (fun c => result c p.val = st ∧ c0.onlyRegs c (fun r => r = Regs.SEC_KEY_STATUS.at p.val))
      (bare → tells (.sealCmd p slot env) St.PROTECTION ∧ tells (.unsealCmd p slot env) St.PROTECTION) ∧
      (∀ k, s.perm.tamper = false → c0.slot p.val slot.val = some k → k.model = false → k.bind.length = 64 →
        (2 ^ 40 < n → tells (.sealCmd p slot env) St.LENGTH ∧ tells (.unsealCmd p slot env) St.LENGTH) ∧
        (n ≤ 2 ^ 40 → dst + 128 + n + 16 * ceilDiv n 65536 ≤ 2 ^ 40 →
          let r := c0.itemAccess p.val [viewRange dst (128 + n + 16 * ceilDiv n 65536) true, viewRange src n false] env
          let base := (Config.random c0.draws).toNat % 2 ^ 64
          let hdr := leBytes 4 0x4C534C44 ++ leBytes 4 0x0101 ++ leBytes 8 k.label ++ k.bind ++ leBytes 8 n ++ leBytes 8 base ++ List.replicate 32 0
          let chunk := fun (c : Core) (j : Nat) => c.writeAt p.val 0 (2 * 2 ^ 60 + dst + 128 + 65552 * j) 0
            (sealChunk k.key (leBytes 8 base ++ leBytes 4 j ++ hdr) (c0.readAt p.val 0 (2 * 2 ^ 60 + src + 65536 * j) 0 (min 65536 (n - 65536 * j))))
          r.1 = 0 → Answers s (.sealCmd p slot env) (fun c => result c p.val = 0 ∧ c.slots = r.2.slots ∧ c.draws = c0.draws + 1 ∧
            c.mems = (threadAll chunk (({ r.2 with draws := c0.draws + 1 } : Core).writeAt p.val 0 (2 * 2 ^ 60 + dst) 0 hdr) (List.range (ceilDiv n 65536))).mems)) ∧
        (n ≤ 2 ^ 40 →
          let r := c0.itemAccess p.val [viewRange src 128 false] env
          let hdr := r.2.readAt p.val 0 (2 * 2 ^ 60 + src) 0 128
          let len := field hdr 80 8
          let size := 128 + len + 16 * ceilDiv len 65536
          let r2 := r.2.itemAccess p.val [viewRange dst len true, viewRange src size false] env
          let good := field hdr 0 4 = 0x4C534C44 ∧ field hdr 4 1 ≤ 1 ∧ 1 ≤ field hdr 5 1 ∧ field hdr 6 2 = 0 ∧ field hdr 96 32 = 0
          r.1 = 0 →
          (¬good ∨ 2 ^ 40 < len ∨ n < len → Answers s (.unsealCmd p slot env) (fun c => result c p.val = St.LENGTH ∧ c.mems = r.2.mems)) ∧
          (good → len ≤ 2 ^ 40 → len ≤ n → src + size ≤ 2 ^ 40 → r2.1 = 0 →
            (field hdr 8 8 ≠ k.label ∨ (hdr.drop 16).take 64 ≠ k.bind → Answers s (.unsealCmd p slot env) (fun c => result c p.val = St.PROTECTION ∧ c.mems = r2.2.mems)) ∧
            (field hdr 8 8 = k.label → (hdr.drop 16).take 64 = k.bind → 0 < len → len ≤ 65536 →
              let opened := Config.gcmOpen k.key (leBytes 8 (field hdr 88 8) ++ leBytes 4 0 ++ hdr) (r2.2.readAt p.val 0 (2 * 2 ^ 60 + src + 128) 0 (len + 16))
              (opened = none → Answers s (.unsealCmd p slot env) (fun c => result c p.val = St.PROTECTION ∧ c.mems = r2.2.mems)) ∧
              (∀ plain, opened = some plain → plain.length = len → Answers s (.unsealCmd p slot env) (fun c => result c p.val = 0 ∧
                c.mems = (r2.2.writeAt p.val 0 (2 * 2 ^ 60 + dst) 0 plain).mems))))))) ∧
    (∀ (p : PartId) (slot : Fin 16) (env : MemEnv) i, i ∈ [Instr.sealCmd p slot env, .unsealCmd p slot env] → (c0.part p.val).revoked = true →
      Answers s i (fun c => result c p.val = St.KEY_REVOKED ∧ c0.onlyRegs c (fun r => r = Regs.SEC_KEY_STATUS.at p.val))) ∧
    (∀ (fn : FnId) (index : BitVec 8) (seed : Nat), s.perm.seed = some seed → (fn.val = 0 ∨ c0.vfOn (fn.val - 1) = true) →
      let replies := fun kind (r : Resp) => Answers s (.spdmRequest fn kind index) (fun c => c = { c0 with resp := r })
      replies 0 (.bytes (Config.certificates seed)) ∧
      (∀ m, s.measured fn.val index.toNat = some m → replies 1 (.bytes (m ++ Config.mldsaSign seed m))) ∧
      (s.measured fn.val index.toNat = none → replies 1 .none) ∧
      (fn.val ≠ 0 → s.measured fn.val 0x10 = some (c0.nonce fn.val) ∧ replies 2 .none) ∧
      (fn.val = 0 → index.toNat ≤ 16 → Answers s (.spdmRequest fn 2 index) (fun c => c.resp = .bytes (Config.mldsaSign seed (leBytes 1 index.toNat)) ∧ index.toNat ∈ c.ide ∧
        (∀ n ∈ c0.ide, n ∈ c.ide) ∧ c0.sameKeys c ∧ frame c ∧ c.regs = c0.regs)))

/-- CLAIM of a PROVISIONED device stores the hash of the owner's key, uses an ownership step and makes it OWNED; RELEASE, signed by the owner, makes it PROVISIONED; RETIRE, by
PF0 alone in PROVISIONED and signed in OWNED, blows the seed; PROVISIONING of a TEST device fuses it. Each wipes Umbra, zeroises the key store, draws every nonce anew and posts
LIFECYCLE_CHANGED; each is refused with PROTECTION in another state, with a partition not FREE or holding the owner lock, with the tamper latch set or with no ownership step
left. TAMPER_DETECTED of an enabled source zeroises the key store, revokes every key ID, sets the latch and removes and revokes every partition; of a source that is not
enabled it shows in TAMPER_STATUS alone. (That the steps being used up refuses every command is this model's reading.) -/
def Obligations.LifeCycle : Prop :=
  ∀ (s : State), (∀ l t, l < 256 → s.core.phys l = some t → t < 272) →
    let c0 := s.core
    let busy := (∃ p, p < 16 ∧ (c0.pstate p ≠ pFREE ∨ c0.flag Regs.PART_STATUS_OWNER_LOCK p = true)) ∨ s.perm.tamper = true ∨ 32 ≤ s.perm.ownSteps
    let addr := c0.rd Regs.SEC_LC_ARG
    let frame := fun (c : Core) => c.tiles = c0.tiles ∧ c.parts = c0.parts ∧ c.items = c0.items ∧ c.dram = c0.dram ∧ c.host = c0.host
    let tells := fun i st => Answers s i (fun c => c.rf Regs.SEC_LC_STATUS_RESULT = st ∧ c0.onlyRegs c (fun r => r = Regs.SEC_LC_STATUS.at 0))
    let changes := fun i new (perm : Perm) => ∃ c, exec i s = .next { s with core := c, perm := perm } ∧ c.rf Regs.SEC_LC_STATUS_RESULT = 0 ∧ c.noKeys ∧ frame c ∧
      (∀ k, k < 17 → c0.draws ≤ c.nonces.get (fun k => k) k) ∧ c0.draws < c.draws ∧ (∀ m ∈ c.marks, 256 ≤ m / 1024) ∧
      (∀ e ∈ c0.umbraOf ⟨0xFFFF, 1, devPart, St.PROTECTION, none⟩, c0.bankState e.1 e.2 = bkON ∨ c0.bankState e.1 e.2 = bkCLEARING → c.bankState e.1 e.2 = bkCLEARING) ∧
      ⟨Cls.lifeCycle, Src.security, devPart, 0x0C07, (s.perm.lc + new * 2 ^ 2) % 2 ^ 64, 0⟩ ∈ c.evtBuf
    (∀ host : BitVec 16,
      let sees := c0.pf0Reads addr host.toNat
      let key := c0.readHost (addr % 2 ^ 60) 1952
      let signed := s.ownerSigned (c0.readHost (addr % 2 ^ 60) (1952 + 3309)) = true
      (busy → tells (.claim host) St.PROTECTION ∧ tells (.release host) St.PROTECTION ∧ tells (.lcRetire host) St.PROTECTION) ∧
      (s.perm.lc ≠ 1 → tells (.claim host) St.PROTECTION) ∧ (s.perm.lc ≠ 2 → tells (.release host) St.PROTECTION) ∧
      (s.perm.lc = 0 ∨ s.perm.lc = 3 → tells (.lcRetire host) St.PROTECTION) ∧
      (¬busy → s.perm.lc = 1 → sees → changes (.claim host) 2
        { s.perm with lc := 2, ownerHash := Config.shake256 key, ownSteps := s.perm.ownSteps + 1 }) ∧
      (¬busy → s.perm.lc = 1 → c0.flag Regs.HIF_LINK_STATUS_UP = false → tells (.claim host) St.LINK_DOWN) ∧
      (¬busy → s.perm.lc = 2 → sees → signed → changes (.release host) 1 { s.perm with lc := 1, ownerHash := [] }) ∧
      (¬busy → s.perm.lc = 2 → sees → ¬signed → tells (.release host) St.PROTECTION ∧ tells (.lcRetire host) St.PROTECTION) ∧
      (¬busy → s.perm.lc = 1 → changes (.lcRetire host) 3 { s.perm with lc := 3, seed := none }) ∧
      (¬busy → s.perm.lc = 2 → sees → signed → changes (.lcRetire host) 3 { s.perm with lc := 3, seed := none })) ∧
    (∀ (seed : Nat) (ok : Bool),
      (busy ∨ s.perm.lc ≠ 0 ∨ ok = false → tells (.provisioning seed ok) St.PROTECTION) ∧
      (¬busy → s.perm.lc = 0 → ok = true → changes (.provisioning seed ok) 1 { s.perm with lc := 1, seed := some (seed % 2 ^ 256) })) ∧
    (∀ (pin : Bool) (sensors : BitVec 5),
      let byPin := pin = true ∧ c0.flag Regs.SEC_TAMPER_CFG_PIN_EN = true
      let bySensor := sensors ≠ 0 ∧ c0.flag Regs.SEC_TAMPER_CFG_SENSOR_EN = true
      let i := Instr.tamperDetected pin sensors
      let now := fun (c : Core) => c.rf Regs.SEC_TAMPER_STATUS_PIN_NOW = b2n pin ∧ c.rf Regs.SEC_TAMPER_STATUS_SENSORS_NOW = sensors.toNat
      (¬byPin ∧ ¬bySensor → Answers s i (fun c => now c ∧ c0.onlyRegs c (fun r => r = Regs.SEC_TAMPER_STATUS.at 0))) ∧
      (byPin ∨ bySensor → ∃ c, exec i s = .next { s with core := c, perm := { s.perm with tamper := true, tamperClear := false } } ∧ c.noKeys ∧
        (∀ k, k < 255 → c.rf Regs.SEC_KEYID_MAP_REVOKED k = 1) ∧ (∀ m ∈ c.marks, 256 ≤ m / 1024) ∧
        (∀ p, p < 16 → c0.pstate p = pACTIVE ∨ c0.pstate p = pDRAINING → (c.part p).revoked = true ∧ c.pstate p ≠ pACTIVE) ∧
        (∀ p, p < 16 → c0.pstate p = pACTIVE → (c0.part p).revoked = false → (c.part p).key = 0 ∧ (c.part p).removeTick = c0.tick) ∧
        ⟨Cls.tamper, if pin && c0.flag Regs.SEC_TAMPER_CFG_PIN_EN then Src.tamperN else Src.tamperSensors, devPart, 0x0C06, b2n pin + sensors.toNat * 2, 0⟩ ∈ c.evtBuf))

/-- SQ_ENABLE and CQ_ENABLE take a good setting, refuse a bad one with CFG_ERR, and a submission queue's clear waits for its open items. A doorbell sets the tail or head, sets DB_ERR
when its value or its queue is bad (for a completion queue, in the submission queue of the same number: this model's choice), is counted while the partition drains, and is nothing
while its function is off. SQ_ENTRY_FETCH makes the next entry an item with the entry's fields, ended at once by a failed check; SQ_FETCH_ERROR stops the queue. RECORD_WRITE writes the oldest
waiting record with its phase, counts it, posts CQ_FULL when it fills the queue and raises the vector at COUNT; CQ_WRITE_ERROR stops the queue and keeps the record; CQ_MOD_TIMER raises
the vector of a queue whose timer has passed. -/
def Obligations.Queues : Prop :=
  ∀ (p : PartId) (q : Fin 64) (s : State),
    let c0 := s.core
    let i := qi p.val q.val
    let h := c0.cqh? i
    let good := fun (size : Nat) => ∃ k, 4 ≤ k ∧ k ≤ 16 ∧ size = 2 ^ k
    let quiet := fun (c : Core) => c.tiles = c0.tiles ∧ c.parts = c0.parts ∧ c.items = c0.items ∧ c.dram = c0.dram ∧ c.scratch = c0.scratch
    let opens := c0.vfOn p.val = true ∧ (c0.part p.val).resetting = false
    (∀ w : Word,
      let v := w.toNat % 2 ^ 24
      let base := c0.rd Regs.HIF_SQ_BASE i
      let ok := good (v % 2 ^ 17) ∧ base % 4096 = 0 ∧ (base / 2 ^ 60 = 2 ∨ base / 2 ^ 60 = 3)
      let on := c0.flag Regs.HIF_SQ_CFG_ENABLE i = true
      let busy := ∃ j ∈ c0.items, j.part = p.val ∧ j.sq = q.val ∧ j.kind ≠ .op
      (w.getLsbD 23 = true → ¬on → ok → Answers s (.sqEnable p q w) (fun c => c.rd Regs.HIF_SQ_CFG i = v ∧ c0.onlyRegs c (fun r => r = Regs.HIF_SQ_CFG.at i))) ∧
      (w.getLsbD 23 = true → ¬on → ¬ok → Answers s (.sqEnable p q w) (fun c => c.rf Regs.HIF_SQ_STATUS_CFG_ERR i = 1 ∧ c.flag Regs.HIF_SQ_CFG_ENABLE i = false ∧
        c0.onlyRegs c (fun r => r = Regs.HIF_SQ_CFG.at i ∨ r = Regs.HIF_SQ_STATUS.at i))) ∧
      (w.getLsbD 23 = true → on → Answers s (.sqEnable p q w) (fun c => c.rf Regs.HIF_SQ_STATUS_CFG_ERR i = 1 ∧ c0.onlyRegs c (fun r => r = Regs.HIF_SQ_STATUS.at i))) ∧
      (w.getLsbD 23 = false → ¬on → Answers s (.sqEnable p q w) (fun c => c.rd Regs.HIF_SQ_CFG i = v ∧ c0.onlyRegs c (fun r => r = Regs.HIF_SQ_CFG.at i))) ∧
      (w.getLsbD 23 = false → on → busy → Answers s (.sqEnable p q w) (fun c => c.flag Regs.HIF_SQ_CFG_ENABLE i = true ∧ i ∈ c.sqOff ∧ quiet c)) ∧
      (w.getLsbD 23 = false → on → ¬busy → Answers s (.sqEnable p q w) (fun c => c.flag Regs.HIF_SQ_CFG_ENABLE i = false ∧ i ∉ c.sqOff ∧ quiet c))) ∧
    (∀ v : BitVec 16,
      (¬opens → exec (.sqDoorbell p q v) s = .next s ∧ exec (.cqDoorbell p q v) s = .next s) ∧
      (opens → c0.pstate p.val ≠ pACTIVE → Answers s (.sqDoorbell p q v) (fun c =>
        c.rf Regs.PART_DOORBELL_DROPS_COUNT p.val = min (c0.rf Regs.PART_DOORBELL_DROPS_COUNT p.val + 1) Regs.PART_DOORBELL_DROPS_COUNT.top ∧
        c0.onlyRegs c (fun r => r = Regs.PART_DOORBELL_DROPS.at p.val))) ∧
      (opens → c0.pstate p.val = pACTIVE → c0.flag Regs.HIF_SQ_CFG_ENABLE i = false ∨ c0.rf Regs.HIF_SQ_CFG_SIZE i ≤ v.toNat → Answers s (.sqDoorbell p q v) (fun c =>
        c.rf Regs.HIF_SQ_STATUS_DB_ERR i = 1 ∧ c0.onlyRegs c (fun r => r = Regs.HIF_SQ_STATUS.at i))) ∧
      (opens → c0.pstate p.val = pACTIVE → c0.flag Regs.HIF_SQ_CFG_ENABLE i = true → v.toNat < c0.rf Regs.HIF_SQ_CFG_SIZE i → Answers s (.sqDoorbell p q v) (fun c =>
        c.rf Regs.HIF_SQ_PTR_TAIL i = v.toNat ∧ c.rf Regs.HIF_SQ_PTR_HEAD i = c0.rf Regs.HIF_SQ_PTR_HEAD i ∧ c0.onlyRegs c (fun r => r = Regs.HIF_SQ_PTR.at i))) ∧
      (opens → c0.flag Regs.HIF_CQ_CFG_ENABLE i = false ∨ h.size ≤ v.toNat → Answers s (.cqDoorbell p q v) (fun c =>
        c.rf Regs.HIF_SQ_STATUS_DB_ERR i = 1 ∧ c0.onlyRegs c (fun r => r = Regs.HIF_SQ_STATUS.at i))) ∧
      (opens → c0.flag Regs.HIF_CQ_CFG_ENABLE i = true → v.toNat < h.size → Answers s (.cqDoorbell p q v) (fun c =>
        c.rf Regs.HIF_CQ_PTR_HEAD i = v.toNat ∧ c.rf Regs.HIF_CQ_PTR_TAIL i = c0.rf Regs.HIF_CQ_PTR_TAIL i ∧
        c.rf Regs.HIF_CQ_STATUS_FULL i = b2n (decide ((c0.rf Regs.HIF_CQ_PTR_TAIL i + h.size - v.toNat) % h.size + 1 = h.size)) ∧
        c0.onlyRegs c (fun r => r = Regs.HIF_CQ_PTR.at i ∨ r = Regs.HIF_CQ_STATUS.at i)))) ∧
    (∀ env : MemEnv,
      let shut := c0.pstate p.val ≠ pACTIVE ∨ (c0.part p.val).resetting = true ∨ c0.lost = true ∨ c0.canOpen p.val = false ∨ c0.sqNext p.val = none
      (shut → exec (.sqEntryFetch p env) s = .next s) ∧
      (∀ n, ¬shut → c0.sqNext p.val = some n →
        let j := qi p.val n
        let head := c0.rf Regs.HIF_SQ_PTR_HEAD j
        let addr := c0.rd Regs.HIF_SQ_BASE j + 64 * head
        let r := c0.itemAccess p.val [{ d := Desc.range addr 64, spaces := 0b1100 }] env
        let bs := r.2.readAt p.val 0 addr 0 64
        let size := r.2.rf Regs.HIF_SQ_CFG_SIZE j
        let ahead := fun (c : Core) => c.rf Regs.HIF_SQ_PTR_HEAD j = (head + 1) % size ∧ (c.part p.val).sqTurn = (n + 1) % 64 ∧ c.nextItem = r.2.nextItem + 1 ∧ c.mems = r.2.mems
        (r.1 ≠ 0 → r.1 < 2 ^ 16 → Answers s (.sqEntryFetch p env) (fun c => c.rf Regs.HIF_SQ_STATUS_FETCH_ERR j = 1 ∧ c.items = r.2.items ∧ c.recs = r.2.recs ∧
          c.evtBuf = r.2.evtBuf ++ [⟨Cls.item, Src.pcie, p.val, 0x0D04,
            (n + r.1 * 2 ^ 16 + r.2.rf Regs.HIF_SQ_PTR_HEAD j * 2 ^ 32 + r.2.rf Regs.HIF_SQ_PTR_TAIL j * 2 ^ 48) % 2 ^ 64, 0⟩])) ∧
        (r.1 = 0 → 0 < size → size ≤ 65536 → entryCheck bs = 0 → Answers s (.sqEntryFetch p env) (fun c => ahead c ∧ c.recs = r.2.recs ∧
          c.items = r.2.items ++ [{ id := r.2.nextItem, part := p.val, kind := (match field bs 0 1 with | 1 => ItemKind.program | 2 => .copy | _ => .fence)
                                    sq := n, entry := head, tag := field bs 8 8, cq := r.2.rf Regs.HIF_SQ_CFG_CQ j, order := bitOf (field bs 1 1) 0
                                    limit := field bs 40 4, addr0 := field bs 16 8, addr1 := field bs 24 8, len := field bs 32 8, source := Src.pcie
                                    openTick := r.2.tick }])) ∧
        (r.1 = 0 → 0 < size → size ≤ 65536 → entryCheck bs ≠ 0 → (∀ e ∈ r.2.items, e.id ≠ r.2.nextItem) → Answers s (.sqEntryFetch p env) (fun c => ahead c ∧
          c.items = r.2.items ∧ ∃ x, c.recs = r.2.recs ++ [x] ∧ x.part = p.val ∧ x.cq = r.2.rf Regs.HIF_SQ_CFG_CQ j ∧ x.tag = field bs 8 8 ∧ x.sq = n ∧
            x.entry = head ∧ x.origin = 0 ∧ x.info = 0 ∧ x.status = if (r.2.part p.val).revoked then St.KEY_REVOKED else entryCheck bs)))) ∧
    (∀ bs : List Byte,
      let kind := field bs 0 1
      let a0 := field bs 16 8
      let a1 := field bs 24 8
      let len := field bs 32 8
      let clean := field bs 1 1 ≤ 1 ∧ field bs 2 6 = 0 ∧ field bs 44 20 = 0
      (kind = 0 ∨ 3 < kind ∨ ¬clean → entryCheck bs = St.LENGTH) ∧
      (clean → kind = 1 → entryCheck bs = if a1 ≠ 0 ∨ 2 ^ 32 ≤ len then St.LENGTH else if a0 / 2 ^ 60 = 2 ∨ a0 / 2 ^ 60 = 3 then 0 else St.BOUNDS) ∧
      (clean → kind = 2 → 2 ^ 40 ≤ len → entryCheck bs = St.LENGTH) ∧
      (clean → kind = 2 → len < 2 ^ 40 → a0 / 2 ^ 60 ∈ [1, 2, 3, 5] → a1 / 2 ^ 60 ∈ [1, 2, 3, 5] → entryCheck bs = 0) ∧
      (clean → kind = 2 → len < 2 ^ 40 → a0 / 2 ^ 60 ∉ [1, 2, 3, 5] → entryCheck bs = if a0 / 2 ^ 60 = 6 then St.PROTECTION else St.BOUNDS) ∧
      (clean → kind = 3 → entryCheck bs = if a0 = 0 ∧ a1 = 0 ∧ len = 0 ∧ field bs 40 4 = 0 then 0 else St.LENGTH)) ∧
    (∀ st : BitVec 16,
      (c0.sqNext p.val = none ∨ c0.pstate p.val ≠ pACTIVE → exec (.sqFetchError p st) s = .next s) ∧
      (∀ n, c0.sqNext p.val = some n → c0.pstate p.val = pACTIVE → Answers s (.sqFetchError p st) (fun c => c.rf Regs.HIF_SQ_STATUS_FETCH_ERR (qi p.val n) = 1 ∧ quiet c ∧
        c.rf Regs.HIF_SQ_PTR_HEAD (qi p.val n) = c0.rf Regs.HIF_SQ_PTR_HEAD (qi p.val n) ∧
        c.evtBuf = c0.evtBuf ++ [⟨Cls.item, Src.pcie, p.val, 0x0D04,
          (n + st.toNat * 2 ^ 16 + c0.rf Regs.HIF_SQ_PTR_HEAD (qi p.val n) * 2 ^ 32 + c0.rf Regs.HIF_SQ_PTR_TAIL (qi p.val n) * 2 ^ 48) % 2 ^ 64, 0⟩]))) ∧
    (∀ w : Word,
      let v := w.toNat % 2 ^ 31
      let vec := v / 2 ^ 18 % 2 ^ 11
      let ok := good (v % 2 ^ 17) ∧ vec < (if w.getLsbD 29 then 256 else 112)
      let starts := w.getLsbD 17 = true ∧ c0.flag Regs.HIF_CQ_CFG_ENABLE i = false
      (starts → ok → Answers s (.cqEnable p q w) (fun c => c.rd Regs.HIF_CQ_CFG i = v ∧ c.rd Regs.HIF_CQ_PTR i = 0 ∧ c.rf Regs.HIF_CQ_STATUS_FULL i = 0 ∧
        c.cqh? i = { base := c0.rf Regs.HIF_CQ_BASE_BASE i * 4096, size := v % 2 ^ 17 } ∧ quiet c ∧
        c.recs = c0.recs.map (fun r => if r.part = p.val ∧ r.held then { r with held := false, cq := q.val } else r))) ∧
      (starts → ¬ok → Answers s (.cqEnable p q w) (fun c => c.rf Regs.HIF_CQ_STATUS_CFG_ERR i = 1 ∧ c.flag Regs.HIF_CQ_CFG_ENABLE i = false ∧
        c0.onlyRegs c (fun r => r = Regs.HIF_CQ_CFG.at i ∨ r = Regs.HIF_CQ_STATUS.at i))) ∧
      (¬starts → Answers s (.cqEnable p q w) (fun c => c.rd Regs.HIF_CQ_CFG i = v ∧ c0.onlyRegs c (fun r => r = Regs.HIF_CQ_CFG.at i)))) ∧
    (let t := c0.rf Regs.HIF_CQ_PTR_TAIL i
     let idle := c0.nextRec p.val q.val = none ∨ c0.cqOpen p.val q.val = false
     let fn := if c0.flag Regs.HIF_CQ_CFG_FN i then 0 else p.val + 1
     let raised := fun (c : Core) => c.out = c0.out ++ [⟨0, [fn, c0.rf Regs.HIF_CQ_CFG_VECTOR i]⟩]
     (idle → exec (.recordWrite p q) s = .next s ∧ exec (.cqWriteError p q) s = .next s) ∧
     (∀ r, c0.nextRec p.val q.val = some r → c0.cqOpen p.val q.val = true → t < h.size → h.size ≤ 65536 →
      let next := if t + 1 = h.size then 0 else t + 1
      let unread := (next + h.size - c0.rf Regs.HIF_CQ_PTR_HEAD i % h.size) % h.size
      let head := if r.origin = 0 then c0.rf Regs.HIF_SQ_PTR_HEAD (qi p.val r.sq) else 0
      let bytes := leBytes 8 r.tag ++
        leBytes 8 (r.status + (if r.origin = 0 then r.sq * 2 ^ 16 + r.entry * 2 ^ 32 else r.ltile * 2 ^ 24) + r.origin * 2 ^ 22 + head * 2 ^ 48) ++
        leBytes 8 r.info ++ leBytes 8 (r.ts % 2 ^ 63 + b2n h.phase * 2 ^ 63)
      Answers s (.recordWrite p q) (fun c => c.recs = c0.recs.erase r ∧ c.host = (c0.writeHost (h.base + 32 * t) bytes).host ∧ c.rf Regs.HIF_CQ_PTR_TAIL i = next ∧
        c.rf Regs.HIF_CQ_PTR_HEAD i = c0.rf Regs.HIF_CQ_PTR_HEAD i ∧ (c.cqh? i).phase = (if t + 1 = h.size then !h.phase else h.phase) ∧ quiet c ∧
        c.rf Regs.HIF_ITEMS_ENDED_COUNT p.val = min (c0.rf Regs.HIF_ITEMS_ENDED_COUNT p.val + 1) Regs.HIF_ITEMS_ENDED_COUNT.top ∧
        c.rf Regs.HIF_CQ_STATUS_FULL i = b2n (decide (unread + 1 = h.size)) ∧
        c.evtBuf = c0.evtBuf ++ (if unread + 1 = h.size then [⟨Cls.info, Src.pcie, p.val, 0x0D02, q.val, 0⟩] else []) ∧
        (if max 1 (c0.rf Regs.HIF_CQ_MOD_COUNT i) ≤ unread then raised c ∧ (c.cqh? i).unsignalled = 0 else c.out = c0.out ∧ (c.cqh? i).unsignalled = h.unsignalled + 1))) ∧
     (¬idle → Answers s (.cqWriteError p q) (fun c => c.recs = c0.recs ∧ quiet c ∧ c.flag Regs.HIF_CQ_CFG_ENABLE i = false ∧ c.rf Regs.HIF_CQ_STATUS_WRITE_ERR i = 1 ∧
        c.rf Regs.HIF_CQ_PTR_TAIL i = t ∧ (∀ a, a < h.base + 32 * t ∨ h.base + 32 * t + 32 ≤ a → c.host.get zeroByte a = c0.host.get zeroByte a) ∧
        c.evtBuf = c0.evtBuf ++ [⟨Cls.item, Src.pcie, p.val, 0x0D03, q.val, 0⟩])) ∧
     (let timer := c0.rf Regs.HIF_CQ_MOD_TIMER i
      let due := timer ≠ 0 ∧ h.unsignalled ≠ 0 ∧ h.firstTick + timer ≤ c0.tick
      (¬due → exec (.cqModTimer p q) s = .next s) ∧
      (due → Answers s (.cqModTimer p q) (fun c => raised c ∧ (c.cqh? i).unsignalled = 0 ∧ quiet c ∧ c.regs = c0.regs ∧ c.recs = c0.recs ∧ c.evtBuf = c0.evtBuf))))

/-- PROGRAM of an item that may start loads its image: the partition holds a program that has not started and every tile it uses stands at its entry with g1 to g3 set; an image
that cannot be read ends the item with the status of the read, one that a check refuses with the check's status and IMAGE_REFUSED. SQ_COPY moves the bytes and ends the item with SUCCESS
and the number of bytes, or with the status of the check that failed. FENCE starts, and FENCE_COMPLETE ends it once every item fetched before it has ended; ORDERED_ITEM_START frees an ordered
item in the same way for its queue. A copy through the slow tier does not start while a firmware activation holds. P_CANCEL and ITEM_TIME_LIMIT end an item that does not run a program with ABORTED_BY_HOST or TIMEOUT and stop a running program. -/
def Obligations.Items : Prop :=
  ∀ (s : State), (s.core.items.map (·.id)).Nodup →
    let c0 := s.core
    let recordOf := fun (c : Core) (i : Item) (st info : Nat) => (∀ j ∈ c.items, j.id ≠ i.id) ∧ ∃ r ∈ c.recs, r.part = i.part ∧ r.cq = i.cq ∧ r.tag = i.tag ∧ r.sq = i.sq ∧
      r.entry = i.entry ∧ r.origin = 0 ∧ r.info = info ∧ r.status = if (c0.part i.part).revoked then St.KEY_REVOKED else st
    let running := fun (i : Item) => i.kind = .program ∧ ∃ pr, (c0.part i.part).prog = some pr ∧ pr.item = i.id
    let stops := fun (c : Core) (i : Item) (st : Nat) => ∀ pr, (c0.part i.part).prog = some pr → pr.started = true → pr.stopping = false →
      ∃ pr', (c.part i.part).prog = some pr' ∧ pr'.item = i.id ∧ pr'.stopping = true ∧ pr'.endStatus = st
    (∀ (id : Nat) (env : MemEnv), c0.item? id = none → exec (.program id env) s = .next s ∧ exec (.sqCopy id env) s = .next s ∧ exec (.fence id) s = .next s ∧
      exec (.fenceComplete id) s = .next s ∧ exec (.orderedItemStart id) s = .next s ∧ exec (.itemTimeLimit id) s = .next s) ∧
    (∀ (id : Nat) (env : MemEnv) (i : Item), c0.item? id = some i →
      let p := i.part
      let may := i.started = false ∧ i.order = false ∧ (c0.part p).resetting = false ∧ c0.lost = false ∧ c0.pstate p = pACTIVE ∧
        ∀ j ∈ c0.items, j.part = p → j.sq = i.sq → j.kind ≠ .op → j.id < id → j.started = true
      (i.kind ≠ .program ∨ ¬may ∨ c0.fwWaits = true ∨ (c0.part p).prog.isSome = true → exec (.program id env) s = .next s) ∧
      (i.kind = .program → may → c0.fwWaits = false → (c0.part p).prog = none →
        let len := i.len % 2 ^ 32
        let c1 := c0.updItem id (fun i => { i with started := true, startTick := c0.tick })
        let r1 := c1.fetchImage p i 64 env
        let size := field (r1.2.readAt p 0 i.addr0 0 64) 8 4
        let r2 := r1.2.fetchImage p i size env
        let bs := r2.2.readAt p 0 i.addr0 0 size
        let refused := fun (st check off info1 : Nat) (c : Core) => recordOf c i st i.info ∧ (c.part p).prog = none ∧
          ⟨Cls.item, Src.pcie, p, 0x0301, (st + check * 2 ^ 16 + off * 2 ^ 32) % 2 ^ 64, info1 % 2 ^ 64⟩ ∈ c.evtBuf
        (len < 64 → Answers s (.program id env) (fun c => refused St.LENGTH 1 8 0 c ∧ c.tiles = c0.tiles ∧ c.mems = c0.mems)) ∧
        (64 ≤ len → r1.1 = 0 → size < 64 ∨ len < size → Answers s (.program id env) (fun c => refused St.LENGTH 1 8 0 c ∧ c.mems = r1.2.mems)) ∧
        (64 ≤ len → r1.1 ≠ 0 → ∀ j, r1.2.item? id = some j → Answers s (.program id env) (fun c => recordOf c i r1.1 j.info ∧ c.mems = r1.2.mems)) ∧
        (64 ≤ len → r1.1 = 0 → 64 ≤ size → size ≤ len → r2.1 ≠ 0 → ∀ j, r2.2.item? id = some j → Answers s (.program id env) (fun c => recordOf c i r2.1 j.info ∧ c.mems = r2.2.mems)) ∧
        (∀ x, 64 ≤ len → r1.1 = 0 → 64 ≤ size → size ≤ len → r2.1 = 0 → r2.2.imageRefusal p bs = some x → Answers s (.program id env) (fun c =>
          refused x.status x.check x.off x.info1 c ∧ c.mems = r2.2.mems)) ∧
        (64 ≤ len → r1.1 = 0 → 64 ≤ size → size ≤ len → r2.1 = 0 → r2.2.imageRefusal p bs = none →
          (∀ l l' t, r2.2.phys l = some t → r2.2.phys l' = some t → l = l') → p < 16 →
          let tiles := (r2.2.ltiles p).take (imgTiles bs)
          let entry := fun (n : Nat) => match (imgSects bs).find? (fun x => x.type == sCODE && x.serves n) with | some x => x.dest + x.entry | none => 0
          Answers s (.program id env) (fun c => (∃ pr, (c.part p).prog = some pr ∧ pr.item = id ∧ pr.started = false ∧ pr.stopping = false ∧ pr.tiles = tiles ∧
            pr.shadowPages = imgPages bs) ∧ (c.part p).phase = 0 ∧ (∃ j, c.item? id = some j ∧ j.started = true) ∧ c.recs = r2.2.recs ∧ c.evtBuf = r2.2.evtBuf ∧
            ∀ n l t, tiles[n]? = some l → c0.phys l = some t → t < 272 → (c.tile t).run = 0 ∧ (c.tile t).pc = entry n ∧ (c.tile t).imageTile = n ∧ (c.tile t).stash = [] ∧
              (c.tile t).gr 1 = BitVec.ofNat 64 l ∧ (c.tile t).gr 2 = BitVec.ofNat 64 n ∧ (c.tile t).gr 3 = BitVec.ofNat 64 p ∧
              (∀ m, m ≠ 1 → m ≠ 2 → m ≠ 3 → (c.tile t).gr m = 0) ∧ (∀ k, (c.tile t).token k = {}) ∧ ∀ k, (c.tile t).fl k = 0))) ∧
      let held := c0.fwHold = true ∧ (i.addr0 / 2 ^ 60 = 5 ∨ i.addr1 / 2 ^ 60 = 5)
      (i.kind ≠ .copy ∨ ¬may ∨ held → exec (.sqCopy id env) s = .next s) ∧
      (i.kind = .copy → may → ¬held →
        let n := i.len % 2 ^ 40
        let ops : List Operand := [{ d := Desc.range i.addr1 n, dest := true, spaces := 0b101110 }, { d := Desc.range i.addr0 n, spaces := 0b101110 }]
        let c1 := (c0.updItem id (fun i => { i with started := true, startTick := c0.tick })).updItem id (fun i => { i with source := Src.dme (4 * c0.lead p + i.sq % 4) })
        let r := c1.itemAccess p ops env
        let w := (r.2.updItem id (fun i => { i with info := n, dests := r.2.dests, banks := r.2.touched })).slowAccess p ops (.item id)
        let checked := c1.issueChecks p 0 ops true false
        (checked ≠ 0 → ∀ j, r.2.item? id = some j → Answers s (.sqCopy id env) (fun c => recordOf c i checked j.info ∧ c.mems = c0.mems)) ∧
        (checked = 0 → r.1 ≠ 0 → ∀ j, r.2.item? id = some j → Answers s (.sqCopy id env) (fun c => ∃ k, k ≤ n ∧ k % 64 = 0 ∧ recordOf c i r.1 k ∧
          c.mems = r.2.mems)) ∧
        (r.1 = 0 → w.1 = false → ∀ j, w.2.item? id = some j → Answers s (.sqCopy id env) (fun c => recordOf c i 0 j.info ∧
          c.mems = (w.2.writeAt p 0 i.addr1 0 (w.2.readAt p 0 i.addr0 0 n)).mems)) ∧
        (r.1 = 0 → w.1 = true → Answers s (.sqCopy id env) (fun c => c.items = w.2.items ∧ c.recs = w.2.recs ∧
          c.mems = (w.2.writeAt p 0 i.addr1 0 (w.2.readAt p 0 i.addr0 0 n)).mems))) ∧
      (i.kind ≠ .fence ∨ ¬may → exec (.fence id) s = .next s) ∧
      (i.kind = .fence → may → Answers s (.fence id) (fun c => c = { c0 with items := c.items } ∧
        c.items = c0.items.map (fun j => if j.id = id then { j with started := true, startTick := c0.tick } else j))) ∧
      (let first := i.kind = .fence ∧ i.started = true ∧ ∀ j ∈ c0.items, j.part = p → j.kind ≠ .op → id ≤ j.id
       (¬first → exec (.fenceComplete id) s = .next s) ∧
       (first → Answers s (.fenceComplete id) (fun c => recordOf c i 0 i.info ∧ c.items = c0.items.filter (fun j => j.id != id) ∧ c.mems = c0.mems ∧ c.tiles = c0.tiles))) ∧
      (let waits := ∃ j ∈ c0.items, j.part = p ∧ j.sq = i.sq ∧ j.kind ≠ .op ∧ j.id < id
       (waits → exec (.orderedItemStart id) s = .next s) ∧
       (¬waits → Answers s (.orderedItemStart id) (fun c => c = { c0 with items := c.items } ∧
         c.items = c0.items.map (fun j => if j.id = id then { j with order := false } else j)))) ∧
      (let due := i.kind ≠ .op ∧ i.limit ≠ 0 ∧ i.openTick + i.limit * Config.ticksPerMs ≤ c0.tick
       (¬due → exec (.itemTimeLimit id) s = .next s) ∧
       (due → Answers s (.itemTimeLimit id) (fun c => ⟨Cls.item, Src.pcie, p, 0x0D09, (i.sq + i.entry * 2 ^ 6 + 2 ^ 23) % 2 ^ 64, 0⟩ ∈ c.evtBuf ∧
         (i.kind ≠ .copy ∨ i.started = false → c.mems = c0.mems) ∧
         (running i → stops c i St.TIMEOUT) ∧ (¬running i → i.kind ≠ .copy ∨ i.started = false → recordOf c i St.TIMEOUT i.info) ∧
         (i.kind = .copy → i.started = true → ∃ n, n ≤ i.len ∧ n % 64 = 0 ∧ recordOf c i St.TIMEOUT n))))) ∧
    (∀ (p : PartId) (w : Word),
      let q := w.toNat % 2 ^ 6
      let entry := w.toNat / 2 ^ 6 % 2 ^ 16
      let all := w.getLsbD 22
      let hit := fun (i : Item) => i ∈ c0.items ∧ i.part = p.val ∧ i.kind ≠ .op ∧ i.sq = q ∧ (all = true ∨ i.entry = entry)
      let result := fun (c : Core) => c.rf Regs.HIF_CANCEL_STATUS_RESULT p.val
      (w.getLsbD 23 = false → exec (.pCancel p w) s = .next s) ∧
      (w.getLsbD 23 = true → (∀ i, ¬hit i) → Answers s (.pCancel p w) (fun c => result c = (if all then 0 else St.BOUNDS) ∧
        c0.onlyRegs c (fun r => r = Regs.HIF_CANCEL_STATUS.at p.val))) ∧
      (w.getLsbD 23 = true → (∃ i, hit i) → Answers s (.pCancel p w) (fun c => result c = 0 ∧
        ((∀ i, hit i → i.kind ≠ .copy ∨ i.started = false) → c.mems = c0.mems) ∧
        ⟨Cls.item, Src.pcie, p.val, 0x0D09, q + entry * 2 ^ 6 + b2n all * 2 ^ 22, 0⟩ ∈ c.evtBuf ∧
        (∀ i, hit i → running i → stops c i St.ABORTED) ∧
        ((c0.part p.val).prog = none → ∀ i, hit i → (i.kind ≠ .copy ∨ i.started = false) → recordOf c i St.ABORTED i.info))))

namespace Sys2Proof.Machine

/-- What every reset keeps of the fuses and of Beacon's settings (R577): the life cycle, the seed, the key-epoch record, the security versions, the margins,
the firmware areas and the retired channels. -/
def Perm.kept (p q : Perm) : Prop :=
  q.lc = p.lc ∧ q.ownSteps = p.ownSteps ∧ q.ownerHash = p.ownerHash ∧ q.seed = p.seed ∧ q.epochHi = p.epochHi ∧ q.epochCnt = p.epochCnt ∧ q.svn = p.svn ∧
    q.margins = p.margins ∧ q.vmin = p.vmin ∧ q.areas = p.areas ∧ q.retired = p.retired

/-- The device after a reset, started or held: no item, operation, partition, tile state, queue pair, key or scratchpad byte is left; host memory and flash stay. -/
def Core.cleared (c c' : Core) : Prop :=
  c'.items = [] ∧ c'.ops = [] ∧ c'.recs = [] ∧ c'.parts = [] ∧ c'.tiles = [] ∧ c'.qps = [] ∧ c'.scratch = [] ∧ c'.slots = [] ∧ c'.epochCur = none ∧ c'.epochNext = none ∧
    c'.nvcmds = [] ∧ c'.colls = [] ∧ c'.lost = false ∧ c'.savePend = none ∧ c'.flag Regs.DEV_STATUS_READY = false ∧ (∀ p, p < 16 → c'.pstate p = pFREE) ∧
    c'.host = c.host ∧ c'.flash = c.flash

/-- The capture of a save (R605, R608): its image holds every open item with the status, the tick and the timestamp; nothing is left open and every lane is dark. What an
operation or a copy that runs writes, and the bytes such a copy reports, are open (R60). -/
def State.captured (s t : State) (cause status : Nat) : Prop :=
  let c := s.core.cutAll
  let d := t.core
  let quiet := s.core.ops = [] ∧ ∀ i ∈ s.core.items, i.kind ≠ .copy ∨ i.started = false
  (quiet → c = s.core) ∧
  (∃ img, d.savePend = some img ∧ img.cause = cause ∧ img.tick = c.tick ∧ img.ts = c.ts ∧ img.items = c.items.map (fun i => i.saved status c.ts)) ∧
    d.items = [] ∧ d.ops = [] ∧ d.nvcmds = [] ∧ d.colls = [] ∧ d.lost = true ∧ (∀ u, u < 16 → d.rf Regs.FAB_PORT_STATUS_LINK_UP u = 0) ∧
    (∀ p, p < 16 → (d.part p).prog = none) ∧ d.mems = c.mems ∧ s.perm.kept t.perm ∧ t.pending = s.pending

end Sys2Proof.Machine

/-- COLD_RESET at power-on, or from PF0 with every partition FREE, clears the device but for what resets keep, and it starts when its pins and its reference allow; from PF0 otherwise
it is refused; from Beacon it captures the save image first, as do WARM_RESET, REFCLK_LOST and SUPPLY_LOSS_DETECTED. SAVE_COMMIT stores the image and counts the save; SAVE_VSAVE_LOST loses
it; the reset that waits follows, a warm one keeping tick, timestamp, log and device memory. PERST_N_RELEASE, PFAIL_N_RELEASE and REFCLK_RETURNED start a held device once nothing else holds
it. DEVICE_READY finishes a cut-off scrub and sets READY. PF0_FLR rolls the device transaction back and resets PF0's registers; HELD_CLEAR discards the held records. -/
def Obligations.Resets : Prop :=
  ∀ (s : State) (env : BootEnv),
    let c0 := s.core
    let absent := c0.flag Regs.EVT_TS_STATUS_REF_NOW_ABSENT
    let gives := fun i (P : State → Prop) => ∃ t, exec i s = .next t ∧ P t
    let clears := fun (cause : Nat) (t : State) => c0.cleared t.core ∧ s.perm.kept t.perm ∧ t.perm.lastReset = cause ∧ t.pending = s.pending ∧ t.core.dram = [] ∧ t.core.tick = 0 ∧
      (t.core.inReset = true ↔ c0.perstLow = true ∨ c0.pfailLow = true ∨ absent = true)
    let boots := fun (t : State) => t.core.inReset = false ∧ s.perm.kept t.perm ∧ t.pending = s.pending ∧ t.core.tick = c0.tick ∧ t.core.dram = c0.dram ∧ t.core.host = c0.host ∧
      t.core.flag Regs.DEV_STATUS_READY = c0.flag Regs.DEV_STATUS_READY ∧ (∀ k, k < 17 → c0.draws ≤ t.core.nonces.get (fun k => k) k) ∧ t.core.fwTrialTick = c0.tick
    let lost := fun (t : State) => t.perm.image = none ∧ t.perm.imageState = 2 ∧ t.perm.saveMark = 2
    gives (.coldReset 0 env) (clears 0) ∧
    (c0.lost = true ∨ c0.inReset = true → exec (.coldReset 1 env) s = .next s) ∧
    (c0.lost = false → c0.inReset = false → (∃ p, p < 16 ∧ c0.pstate p ≠ pFREE) → Answers s (.coldReset 1 env) (fun c =>
      c.rf Regs.DEV_RESET_STATUS_RESULT = St.PROTECTION ∧ c0.onlyRegs c (fun r => r = Regs.DEV_RESET_STATUS.at 0))) ∧
    (c0.lost = false → c0.inReset = false → (∀ p, p < 16 → c0.pstate p = pFREE) → gives (.coldReset 1 env) (clears 1)) ∧
    (c0.inReset = true → exec (.coldReset 2 env) s = .next s ∧ exec .warmReset s = .next { s with core := { c0 with perstLow := true } }) ∧
    (c0.inReset = false → c0.lost = true → exec (.coldReset 2 env) s = .next { s with core := { c0 with saveReset := some (c0.saveReset.getD 2) } } ∧
      exec .warmReset s = .next { s with core := { c0 with perstLow := true, saveReset := some (c0.saveReset.getD 3) } }) ∧
    (c0.inReset = false → c0.lost = false →
      gives (.coldReset 2 env) (fun t => s.captured t 2 St.PARTITION_RESET ∧ t.core.saveReset = some (c0.saveReset.getD 2)) ∧
      gives .warmReset (fun t => s.captured t 3 St.PARTITION_RESET ∧ t.core.saveReset = some (c0.saveReset.getD 3) ∧ t.core.perstLow = true)) ∧
    (absent = true → exec .refclkLost s = .next s) ∧
    (absent = false → c0.inReset = false → c0.lost = false → gives .refclkLost (fun t => s.captured t 2 St.PARTITION_RESET ∧ t.core.saveReset = some (c0.saveReset.getD 2) ∧
      t.core.flag Regs.EVT_TS_STATUS_REF_NOW_ABSENT = true ∧ t.core.rf Regs.EVT_TS_STATUS_REF_LOST = 1 ∧ ⟨Cls.device, Src.timebase, devPart, 0x0106, 0, 0⟩ ∈ t.core.evtBuf)) ∧
    (∀ pin : Bool,
      (c0.lost = true ∨ c0.inReset = true → exec (.supplyLossDetected pin) s = .next { s with core := { c0 with pfailLow := c0.pfailLow || pin } }) ∧
      (c0.lost = false → c0.inReset = false → gives (.supplyLossDetected pin) (fun t => s.captured t 0 St.SUPPLY_LOSS ∧ t.core.pfailLow = (c0.pfailLow || pin) ∧
        t.core.saveReset = c0.saveReset ∧ ⟨Cls.supply, if pin then Src.pfail else Src.supplyMon, devPart, 0x0E0A, c0.items.length % 2 ^ 64, 0⟩ ∈ t.core.evtBuf))) ∧
    (c0.savePend = none → (∀ us, exec (.saveCommit us env) s = .next s) ∧ exec (.saveVsaveLost env) s = .next s) ∧
    (∀ (img : SaveImg) (us : BitVec 16), c0.savePend = some img →
      let starts := c0.perstLow = false ∧ c0.pfailLow = false ∧ absent = false
      let trip := c0.thermtrip || c0.tripped
      let stored : Perm := { s.perm with image := some img, imageState := 1, saveMark := 1, saveCount := (s.perm.saveCount + 1) % 2 ^ 32, saveUs := us.toNat }
      (c0.saveReset = none → exec (.saveCommit us env) s = .next { s with core := { c0 with savePend := none, thermtrip := trip }, perm := stored } ∧
        exec (.saveVsaveLost env) s = .next { s with core := { c0 with savePend := none, thermtrip := trip }, perm := { s.perm with image := none, imageState := 2, saveMark := 2 } }) ∧
      (c0.saveReset = some 3 → c0.perstLow = true → gives (.saveCommit us env) (fun t => c0.cleared t.core ∧ s.perm.kept t.perm ∧ t.perm.lastReset = 3 ∧ t.core.inReset = true ∧
        t.core.tick = c0.tick ∧ t.core.ts = c0.ts ∧ t.core.log = c0.log ∧ t.core.dram = c0.dram ∧ t.perm.image = some img ∧ t.perm.saveMark = 1 ∧ t.perm.saveCount = stored.saveCount)) ∧
      (∀ k, c0.saveReset = some k → k ≠ 3 →
        gives (.saveCommit us env) (fun t => clears k t ∧ t.perm.saveCount = stored.saveCount ∧
          (¬starts → t.perm.image = some img ∧ t.perm.saveMark = 1 ∧ t.perm.held = s.perm.held) ∧
          (starts → env.saveGood = true → t.perm.image = some img ∧ t.perm.imageState = 1 ∧ t.perm.saveMark = 0 ∧ t.perm.held = s.perm.held ++ img.items ∧
            ⟨Cls.info, Src.saveStore, devPart, 0x0E0B, (img.items.length + img.parts.length * 2 ^ 16) % 2 ^ 64, 0⟩ ∈ t.core.evtBuf) ∧
          (starts → env.saveGood = false → t.perm.image = none ∧ t.perm.imageState = 2 ∧ t.core.rf Regs.DEV_STATUS_RECORDS_LOST = 1)) ∧
        gives (.saveVsaveLost env) (fun t => clears k t ∧ t.perm.image = none ∧ t.perm.imageState = 2 ∧ t.perm.saveCount = s.perm.saveCount ∧ t.perm.held = s.perm.held ∧
          (¬starts → lost t) ∧ (starts → t.perm.saveMark = 0 ∧ t.core.rf Regs.DEV_STATUS_RECORDS_LOST = 1 ∧ ⟨Cls.device, Src.saveStore, devPart, 0x0E0C, 0, 0⟩ ∈ t.core.evtBuf)))) ∧
    (c0.inReset = false ∨ c0.pfailLow = true ∨ c0.savePend.isSome = true ∨ absent = true → exec (.perstNRelease env) s = .next { s with core := { c0 with perstLow := false } }) ∧
    (c0.inReset = true → c0.pfailLow = false → c0.savePend = none → absent = false → gives (.perstNRelease env) (fun t => boots t ∧ t.core.perstLow = false)) ∧
    (c0.savePend = none → c0.inReset = false ∨ c0.perstLow = true ∨ absent = true → exec (.pfailNRelease env) s = .next { s with core := { c0 with pfailLow := false } }) ∧
    (∀ img, c0.savePend = some img → exec (.pfailNRelease env) s = .next { s with core := { c0 with pfailLow := false, saveReset := some (c0.saveReset.getD 0) } }) ∧
    (c0.inReset = true → c0.perstLow = false → c0.savePend = none → absent = false → gives (.pfailNRelease env) (fun t => boots t ∧ t.core.pfailLow = false)) ∧
    (c0.inReset = false ∨ c0.perstLow = true ∨ c0.pfailLow = true ∨ c0.savePend.isSome = true → Answers s (.refclkReturned env) (fun c =>
      c.flag Regs.EVT_TS_STATUS_REF_NOW_ABSENT = false ∧ c0.onlyRegs c (fun r => r = Regs.EVT_TS_STATUS.at 0))) ∧
    (c0.inReset = true → c0.perstLow = false → c0.pfailLow = false → c0.savePend = none → gives (.refclkReturned env) (fun t => boots t ∧
      t.core.flag Regs.EVT_TS_STATUS_REF_NOW_ABSENT = false)) ∧
    (let idle := c0.inReset = true ∨ c0.lost = true ∨ c0.flag Regs.DEV_STATUS_READY = true ∨ c0.flag Regs.FW_FW_STATUS_RECOVERY = true
     (idle → exec .deviceReady s = .next s) ∧
     (¬idle → gives .deviceReady (fun t => t.core.flag Regs.DEV_STATUS_READY = true ∧ t.core.scrubDue = [] ∧ t.core.migDue = none ∧ t.pending = s.pending ∧
       (c0.migDue = none → t.perm = s.perm ∧ t.core.items = c0.items ∧ t.core.tiles = c0.tiles ∧ t.core.parts = c0.parts ∧
         ∀ d, t.core.dram.get zeroByte d = if d / granuleBytes ∈ c0.scrubDue then 0 else c0.dram.get zeroByte d) ∧
       (∀ h, c0.migDue = some h → t.perm = if h ∈ c0.activeChannels ∧ s.perm.retired.length < 8 then { s.perm with retired := s.perm.retired ++ [h] } else s.perm)))) ∧
    Answers s .pf0Flr (fun c => c.txOpen 0 = false ∧ 0 ∉ c.busMaster ∧ c.bar4 0 = 0x10000000 ∧ c.items = c0.items ∧ c.recs = c0.recs ∧ c.tiles = c0.tiles ∧ c.parts = c0.parts ∧
      c.mems = c0.mems ∧ c.rd Regs.HIF_LINK_STATUS = c0.rd Regs.HIF_LINK_STATUS ∧ (c0.txOpen 0 = true → (c.txn 0).writes = []) ∧ ∀ n ∈ c0.busMaster, n ≠ 0 → n ∈ c.busMaster) ∧
    exec .heldClear s = .next { s with perm := { s.perm with held := [], image := none, imageState := 0 } }

/-- HOST_LINK_DOWN takes the link down and ends the item that an NVMe command serves with LINK_DOWN; HOST_LINK_UP and HOST_LINK_CHANGED bring it up at a rate and a width and post HOST_LINK_CHANGED when
either differs from before. ATS_INVALIDATION is counted. BAR4_ACCESS reads or writes the partition's view through its window, or the queue memory of the NVMe engines, and is refused and
counted outside it. CONFIG_REQUEST is answered with retry until READY and as Unsupported Request for a function that is off; a read's data is a free value. -/
def Obligations.HostLink : Prop :=
  ∀ (s : State),
    let c0 := s.core
    let up := c0.flag Regs.HIF_LINK_STATUS_UP = true
    let quiet := fun (c : Core) => c.tiles = c0.tiles ∧ c.parts = c0.parts ∧ c.items = c0.items ∧ c.recs = c0.recs
    (¬up ∨ c0.perstLow = true ∨ c0.lost = true → exec .hostLinkDown s = .next s) ∧
    (up → c0.perstLow = false → c0.lost = false →
      let down := fun (c : Core) => c.flag Regs.HIF_LINK_STATUS_UP = false ∧ c.rf Regs.HIF_LINK_STATUS_RATE = c0.rf Regs.HIF_LINK_STATUS_RATE ∧
        c.rf Regs.HIF_LINK_STATUS_WIDTH = c0.rf Regs.HIF_LINK_STATUS_WIDTH ∧ c.mems = c0.mems ∧ c.nvcmds = [] ∧
        ⟨Cls.device, Src.pcie, devPart, 0x0D00, c0.rf Regs.HIF_LINK_STATUS_RATE, 0⟩ ∈ c.evtBuf
      (c0.nvcmds = [] → Answers s .hostLinkDown (fun c => down c ∧ quiet c)) ∧
      (∀ n id i, c0.nvcmds = [n] → n.owner = .item id → c0.item? id = some i → i.status = 0 → c0.slowReqs = [] → (∀ q ∈ c0.qps, q.tx = []) →
        Answers s .hostLinkDown (fun c => down c ∧ (∀ j ∈ c.items, j.id ≠ id) ∧ ∃ r ∈ c.recs, r.part = i.part ∧ r.cq = i.cq ∧ r.tag = i.tag ∧
          r.status = if (c0.part i.part).revoked then St.KEY_REVOKED else St.LINK_DOWN))) ∧
    (∀ (rate : Fin 4) (width : Fin 17) (flit : Bool) i, i ∈ [Instr.hostLinkUp rate width flit, .hostLinkChanged rate width flit] →
      let old := c0.rd Regs.HIF_LINK_STATUS % 2 ^ 9
      let now := rate.val + width.val * 2 ^ 4
      (up ∨ c0.inReset = true ∨ c0.lost = true → exec i s = .next s) ∧
      (¬up → c0.inReset = false → c0.lost = false → Answers s i (fun c => c.rf Regs.HIF_LINK_STATUS_RATE = rate.val ∧ c.rf Regs.HIF_LINK_STATUS_WIDTH = width.val ∧
        c.rf Regs.HIF_LINK_STATUS_FLIT = b2n flit ∧ c.flag Regs.HIF_LINK_STATUS_UP = true ∧ quiet c ∧ c.mems = c0.mems ∧
        (∀ r j, Reg.at r j ≠ Regs.HIF_LINK_STATUS.at 0 → c.rd r j = c0.rd r j) ∧
        c.evtBuf = c0.evtBuf ++ (if old = 0 ∨ old = now then [] else [⟨Cls.info, Src.pcie, devPart, 0x0D01, now, 0⟩])))) ∧
    (∀ fn : FnId,
      let exists_ := fn.val = 0 ∨ c0.vfOn (fn.val - 1) = true
      (¬exists_ → exec (.atsInvalidation fn) s = .next s) ∧
      (exists_ → Answers s (.atsInvalidation fn) (fun c => c.rf Regs.HIF_ATC_INVALS_COUNT = min (c0.rf Regs.HIF_ATC_INVALS_COUNT + 1) Regs.HIF_ATC_INVALS_COUNT.top ∧
        c0.onlyRegs c (fun r => r = Regs.HIF_ATC_INVALS.at 0))) ∧
      (let size := c0.bar4 fn.val
       let dead := c0.lost = true ∨ c0.inReset = true ∨ ¬up
       let refused := fun (c : Core) => c.rf Regs.HIF_BAR4_REFUSED_COUNT = min (c0.rf Regs.HIF_BAR4_REFUSED_COUNT + 1) Regs.HIF_BAR4_REFUSED_COUNT.top ∧ quiet c ∧ c.mems = c0.mems
       ∀ (off : BitVec 37) (n : Fin 4097),
        let o := off.toNat
        let read := Instr.bar4Access fn off n none
        let write := fun bs => Instr.bar4Access fn off n (some bs)
        let view := fun (p v : Nat) =>
          let shut := c0.pstate p ≠ pACTIVE ∨ c0.viewOk p v n.val = false ∨ ∃ b ∈ c0.backing p, overlaps v n.val b.1 b.2 = true
          (shut → Answers s read (fun c => refused c ∧ c.resp = .abort) ∧ ∀ bs, Answers s (write bs) (fun c => refused c ∧ c.resp = c0.resp)) ∧
          (¬shut → c0.inLicensed p v n.val = true → Answers s read (fun c => refused c ∧ c.resp = .abort)) ∧
          (¬shut → c0.inLicensed p v n.val = false → Answers s read (fun c => c = { c0 with resp := .bytes (c0.readView p v n.val) })) ∧
          (¬shut → ∀ bs, bs.length = n.val → Answers s (write bs) (fun c => c = c0.writeView p v bs))
        (dead ∨ size < o + n.val → exec read s = .next s ∧ ∀ bs, exec (write bs) s = .next s) ∧
        (¬dead → o + n.val ≤ size → fn.val = 0 → size - 0x200000 ≤ o →
          Answers s read (fun c => c = { c0 with resp := .bytes ((upFrom (o - (size - 0x200000)) n.val).map (fun a => c0.qmem.get zeroByte a)) }) ∧
          ∀ bs, bs.length = n.val → Answers s (write bs) (fun c => c.resp = c0.resp ∧ quiet c ∧ c.mems = c0.mems ∧
            (∀ a, (a < o - (size - 0x200000) ∨ o - (size - 0x200000) + n.val ≤ a) → c.qmem.get zeroByte a = c0.qmem.get zeroByte a) ∧
            (∀ k b, bs[k]? = some b → c.qmem.get zeroByte (o - (size - 0x200000) + k) = b))) ∧
        (¬dead → o + n.val ≤ size → fn.val = 0 → o < size - 0x200000 →
          (size - 0x4000000 < o + n.val ∨ c0.flag Regs.HIF_PF_WIN_EN = false → Answers s read (fun c => refused c ∧ c.resp = .abort) ∧
            ∀ bs, Answers s (write bs) (fun c => refused c ∧ c.resp = c0.resp)) ∧
          (o + n.val ≤ size - 0x4000000 → c0.flag Regs.HIF_PF_WIN_EN = true → view (c0.rf Regs.HIF_PF_WIN_PART) (c0.rf Regs.HIF_PF_WIN_BASE * 0x10000000 + o))) ∧
        (¬dead → o + n.val ≤ size → fn.val ≠ 0 →
          (c0.vfOn (fn.val - 1) = false → Answers s read (fun c => c = { c0 with resp := .unsupported }) ∧ ∀ bs, exec (write bs) s = .next s) ∧
          (c0.vfOn (fn.val - 1) = true → view (fn.val - 1) (c0.rf Regs.HIF_P_BAR4_BASE (fn.val - 1) * 0x10000000 / size * size + o)))) ∧
      (let waits := c0.inReset = true ∨ c0.lost = true ∨ (c0.flag Regs.DEV_STATUS_READY = false ∧ c0.flag Regs.FW_FW_STATUS_RECOVERY = false)
       (waits → ∀ req, Answers s (.configRequest fn req) (fun c => c = { c0 with resp := .retry })) ∧
       (¬waits → ¬exists_ → ∀ req, Answers s (.configRequest fn req) (fun c => c = { c0 with resp := .unsupported })) ∧
       (¬waits → exists_ → Answers s (.configRequest fn .read) (fun c => (∃ w, c.resp = .data w) ∧ quiet c ∧ c.mems = c0.mems ∧ c.regs = c0.regs ∧ c.evtBuf = c0.evtBuf) ∧
         (∀ log : Fin 38, log.val < 28 → exec (.configRequest fn (.bar4Size log)) s = .next s) ∧
         (∀ log : Fin 38, 28 ≤ log.val → Answers s (.configRequest fn (.bar4Size log)) (fun c => c.bar4 fn.val = 2 ^ log.val ∧ (∀ n, n ≠ fn.val → c.bar4 n = c0.bar4 n) ∧
           c = { c0 with barSize := c.barSize })) ∧
         (∀ on : Bool, Answers s (.configRequest fn (.busMaster on)) (fun c => (fn.val ∈ c.busMaster ↔ on = true) ∧ (∀ n, n ≠ fn.val → (n ∈ c.busMaster ↔ n ∈ c0.busMaster)) ∧
           c = { c0 with busMaster := c.busMaster })))))

/-- POWER_CONTROL_STEP moves one notch down above the cap, one up below it by UP_PCT, and else none, posts CAP_UNMET and CAP_MET, sets every rail at or above its floor, none above the top or its
floor and no two further apart than 150 mV above their floors, takes Tj as the highest working reading and accounts the energy. CAP_WRITE takes 250 to 700 W. DUTY_SLOT and RAIL_LIMIT gate the
quadrants by their duty. MARGIN_TRIMMED and MARGIN_ALARM move a margin within 30 and 90 mV. A throttled quadrant falls 10 mV, then a duty notch, per step; THERMAL_THROTTLE starts it and its
end stops it; SENSOR_FAULT takes a sensor out of Tj; THERMAL_TRIP saves, and THERMTRIP falls 8 ms later. -/
def Obligations.PowerControl : Prop :=
  ∀ (s : State),
    let c0 := s.core
    let runs := c0.lost = false ∧ c0.inReset = false ∧ c0.beaconDown = false
    let quiet := fun (c : Core) => c.tiles = c0.tiles ∧ c.parts = c0.parts ∧ c.items = c0.items ∧ c.ops = c0.ops ∧ c.mems = c0.mems
    let gates := fun (c : Core) => ∀ q, q < 4 → c.gated.testBit q = decide (c.dutyNow q ≤ c.dutySlot)
    let top := min 900 (c0.rf Regs.PWR_VTARGET_MV)
    let floor := fun q => max 600 (s.perm.vminOf q + s.perm.margin q)
    let limit : Int := 10 * c0.rf Regs.PWR_THERM_CFG_THROTTLE
    let tj := fun (c : Core) (q : Nat) => (∀ k, 8 * q ≤ k → k < 8 * q + 8 → c.flag Regs.PWR_TEMP_FAILED k = false →
        signed 12 (c.rf Regs.PWR_TEMP_DECI_C k) ≤ signed 12 (c.rf Regs.PWR_TJ_DECI_C q)) ∧
      ((∃ k, 8 * q ≤ k ∧ k < 8 * q + 8 ∧ c.flag Regs.PWR_TEMP_FAILED k = false) → ∃ k, 8 * q ≤ k ∧ k < 8 * q + 8 ∧ c.flag Regs.PWR_TEMP_FAILED k = false ∧
        c.rf Regs.PWR_TJ_DECI_C q = c.rf Regs.PWR_TEMP_DECI_C k) ∧
      ((∀ k, 8 * q ≤ k → k < 8 * q + 8 → c.flag Regs.PWR_TEMP_FAILED k = true) → c.rf Regs.PWR_TJ_DECI_C q = 10 * c.rf Regs.PWR_THERM_CFG_THROTTLE)
    (∀ x : Telemetry,
      (¬runs → exec (.powerControlStep x) s = .next s) ∧
      (runs → 1 ≤ c0.duty → c0.duty ≤ 8 → (∀ q, q < 4 → floor q ≤ 900) →
        let p := x.p.toNat
        let cap := c0.rf Regs.PWR_CAP_EFF_WATTS
        let low := c0.notches s.perm
        let n := min c0.notch low
        let above := 10 * cap < p
        let below := 10 * p < cap * (100 - c0.rf Regs.PWR_CAP_CFG_UP_PCT)
        let unmet := c0.flag Regs.PWR_PWR_STATUS_CAP_UNMET
        let set := fun (c : Core) q => c.rf Regs.PWR_VCORE_SET_MV q
        Answers s (.powerControlStep x) (fun c => quiet c ∧ gates c ∧
          (c.notch, c.duty) = (if above then (if n < low then (n + 1, c0.duty) else if 1 < c0.duty then (n, c0.duty - 1) else (n, c0.duty))
            else if below then (if c0.duty < 8 then (n, c0.duty + 1) else (n - 1, c0.duty)) else (n, c0.duty)) ∧
          c.metSteps = (if above then 0 else c0.metSteps + 1) ∧
          (above → n = low → c0.duty = 1 → unmet = false → c.flag Regs.PWR_PWR_STATUS_CAP_UNMET = true ∧
            c.evtBuf = c0.evtBuf ++ [⟨Cls.info, Src.beacon, devPart, 0x0E00, (p / 10 + cap * 2 ^ 16) % 2 ^ 64, 0⟩]) ∧
          (¬above → unmet = true → 100 ≤ c0.metSteps + 1 → c.flag Regs.PWR_PWR_STATUS_CAP_UNMET = false ∧
            c.evtBuf = c0.evtBuf ++ [⟨Cls.info, Src.beacon, devPart, 0x0E01, (p / 10 + cap * 2 ^ 16) % 2 ^ 64, 0⟩]) ∧
          (∀ q, q < 4 → floor q ≤ set c q ∧ set c q ≤ max (floor q) top ∧ (∀ r, r < 4 → set c q ≤ max (floor q) (set c r + 150)) ∧
            c.rf Regs.PWR_MARGIN_FLOOR_MV q = floor q ∧ tj c q ∧
            (c0.throttled q = false → c.thermOf q = c0.thermOf q) ∧
            (c0.throttled q = true → c.thermOf q = (if floor q + (c0.thermOf q).1 < top then ((c0.thermOf q).1 + 10, (c0.thermOf q).2)
              else if limit ≤ signed 12 (c.rf Regs.PWR_TJ_DECI_C q) then ((c0.thermOf q).1, min 7 ((c0.thermOf q).2 + 1)) else c0.thermOf q))) ∧
          ((∀ q r, q < 4 → r < 4 → floor q ≤ floor r + 150) → (∀ q, q < 4 → c0.throttled q = false ∧ c0.thermOf q = (0, 0)) →
            ∀ q, q < 4 → set c q = max (floor q) (top - 10 * c.notch)) ∧
          (∀ k v, k < 32 → x.temps[k]? = some v → c0.flag Regs.PWR_TEMP_FAILED k = false → c.rf Regs.PWR_TEMP_DECI_C k = v.toNat) ∧
          (∀ k e, k < 16 → x.energy[k]? = some e → c.rf Regs.PWR_ENERGY_PART_MJ k = min (c0.rf Regs.PWR_ENERGY_PART_MJ k + e.toNat) (2 ^ 64 - 1)) ∧
          c.rf Regs.PWR_ENERGY_UNASSIGNED_MJ = min (c0.rf Regs.PWR_ENERGY_UNASSIGNED_MJ + x.rest.toNat) (2 ^ 64 - 1) ∧
          c.rf Regs.PWR_ENERGY_DEV_MJ = min (c0.rf Regs.PWR_ENERGY_DEV_MJ + (x.energy.toList.map (·.toNat)).foldl (· + ·) x.rest.toNat) (2 ^ 64 - 1)))) ∧
    (∀ w : Word,
      let v := w.toNat % 2 ^ 10
      (c0.lost = true → exec (.capWrite w) s = .next s) ∧
      (c0.lost = false → v < 250 ∨ 700 < v → Answers s (.capWrite w) (fun c => c.rf Regs.PWR_PWR_STATUS_CFG_ERR = 1 ∧ c0.onlyRegs c (fun r => r = Regs.PWR_PWR_STATUS.at 0))) ∧
      (c0.lost = false → 250 ≤ v → v ≤ 700 → Answers s (.capWrite w) (fun c => c.rf Regs.PWR_CAP_WATTS = v ∧ c.rf Regs.PWR_CAP_EFF_WATTS = v ∧
        c0.onlyRegs c (fun r => r = Regs.PWR_CAP.at 0 ∨ r = Regs.PWR_CAP_EFF.at 0)))) ∧
    Answers s .dutySlot (fun c => c.dutySlot = (c0.dutySlot + 1) % 8 ∧ gates c ∧ c = { c0 with dutySlot := c.dutySlot, gated := c.gated }) ∧
    (∀ (q : Fin 4) (amps : BitVec 16),
      let calm := c0.lost = true ∨ c0.inReset = true ∨ amps.toNat ≤ c0.rf Regs.PWR_RAIL_LIMIT_AMPS
      (calm → exec (.railLimit q amps) s = .next s) ∧
      (¬calm → Answers s (.railLimit q amps) (fun c => c.rf Regs.PWR_LIMIT_EVENTS_COUNT = min (c0.rf Regs.PWR_LIMIT_EVENTS_COUNT + 1) (2 ^ 64 - 1) ∧ quiet c ∧ gates c ∧
        c.dutyNow q.val = min 4 (c0.quadDuty q.val) ∧ (∀ r, r ≠ q.val → c.dutyNow r = c0.dutyNow r) ∧ c.evtBuf = c0.evtBuf))) ∧
    (∀ (q : Fin 4) (slack : BitVec 16),
      let m := s.perm.margin q.val
      let new := if 40 ≤ slack.toNat ∧ 30 < m then max 30 (m - 5) else if slack.toNat < 20 ∧ m < 90 then min 90 (m + 5) else m
      (¬runs ∨ new = m → exec (.marginTrimmed q slack) s = .next s) ∧
      (runs → new ≠ m → ∃ t, exec (.marginTrimmed q slack) s = .next t ∧ t.perm.margin q.val = new ∧ (∀ r, r ≠ q.val → t.perm.margin r = s.perm.margin r) ∧
        t = { s with core := { c0 with evtBuf := c0.evtBuf ++ [⟨Cls.info, Src.beacon, devPart, 0x0E06, (q.val + new * 2 ^ 4) % 2 ^ 64, 0⟩] },
                     perm := { s.perm with margins := t.perm.margins } })) ∧
    (∀ (m : Fin 128) (slack : BitVec 8),
      let q := m.val / 32
      let v := min (max top (c0.setMv q)) (c0.setMv q + 10)
      (¬runs ∨ 8 ≤ slack.toNat → exec (.marginAlarm m slack) s = .next s) ∧
      (runs → slack.toNat < 8 → ∃ t, exec (.marginAlarm m slack) s = .next t ∧ t.pending = s.pending ∧ quiet t.core ∧ t.core.setMv q = v ∧
        (∀ r, r < 4 → r ≠ q → t.core.setMv r = max (c0.setMv r) (v - 150)) ∧ t.perm.margin q = max (s.perm.margin q) (min 90 (s.perm.margin q + 10)) ∧
        (∀ r, r ≠ q → t.perm.margin r = s.perm.margin r) ∧ t.perm = { s.perm with margins := t.perm.margins } ∧
        t.core.evtBuf = c0.evtBuf ++ [⟨Cls.info, Src.delayMon m.val, devPart, 0x0E07, (q + slack.toNat * 2 ^ 8) % 2 ^ 64, 0⟩])) ∧
    (∀ (k : Fin 32) (t : BitVec 12),
      let q := k.val / 8
      let gone := c0.flag Regs.PWR_TEMP_FAILED k.val = true ∧ ∃ j, j / 8 = q ∧ c0.flag Regs.PWR_TEMP_FAILED j = false
      let cold := c0.lost = true ∨ c0.inReset = true ∨ c0.throttled q = true ∨ gone ∨ t.toInt < limit
      let ends := c0.throttled q = true ∧ ¬gone ∧ t.toInt < limit - 10 * c0.rf Regs.PWR_THERM_CFG_HYST
      (cold → exec (.thermalThrottle k t) s = .next s) ∧
      (¬cold → Answers s (.thermalThrottle k t) (fun c => (∀ r, r < 4 → c.throttled r = (c0.throttled r || r == q)) ∧ quiet c ∧ gates c ∧
        c.thermOf q = (if c0.beaconDown then (0, 4) else (top - c0.setMv q, 0)) ∧ (∀ r, r ≠ q → c.thermOf r = c0.thermOf r) ∧
        c.evtBuf = c0.evtBuf ++ [⟨Cls.info, Src.thermal k.val, devPart, 0x0E02, (q + t.toNat * 2 ^ 4) % 2 ^ 64, 0⟩])) ∧
      (¬ends → exec (.thermalThrottleEnd k t) s = .next s) ∧
      (ends → Answers s (.thermalThrottleEnd k t) (fun c => (∀ r, r < 4 → c.throttled r = (c0.throttled r && r != q)) ∧ quiet c ∧ gates c ∧ c.thermOf q = (0, 0) ∧
        (∀ r, r ≠ q → c.thermOf r = c0.thermOf r) ∧ c.evtBuf = c0.evtBuf ++ [⟨Cls.info, Src.thermal k.val, devPart, 0x0E03, (q + t.toNat * 2 ^ 4) % 2 ^ 64, 0⟩])) ∧
      (c0.flag Regs.PWR_TEMP_FAILED k.val = true → exec (.sensorFault k) s = .next s) ∧
      (c0.flag Regs.PWR_TEMP_FAILED k.val = false → Answers s (.sensorFault k) (fun c => c.flag Regs.PWR_TEMP_FAILED k.val = true ∧ quiet c ∧ tj c q ∧
        (∀ j, j < 32 → c.rf Regs.PWR_TEMP_DECI_C j = c0.rf Regs.PWR_TEMP_DECI_C j) ∧ c.evtBuf = c0.evtBuf ++ [⟨Cls.info, Src.thermal k.val, devPart, 0x0E05, k.val, 0⟩])) ∧
      (let fine := c0.tripped = true ∨ t.toInt < 1150
       let event : Evt := ⟨Cls.trip, Src.thermal k.val, devPart, 0x0E04, (k.val + t.toNat % 2 ^ 11 * 2 ^ 5) % 2 ^ 64, 0⟩
       (fine → exec (.thermalTrip k t) s = .next s) ∧
       (¬fine → c0.lost = true ∨ c0.inReset = true → Answers s (.thermalTrip k t) (fun c => c = { c0 with evtBuf := c0.evtBuf ++ [event], tripped := true, tripTick := c0.tick })) ∧
       (¬fine → c0.lost = false → c0.inReset = false → ∃ t', exec (.thermalTrip k t) s = .next t' ∧ s.captured t' 0 St.SUPPLY_LOSS ∧ t'.core.tripped = true ∧
         t'.core.tripTick = c0.tick ∧ event ∈ t'.core.evtBuf))) ∧
    (let late := c0.tripped = true ∧ c0.tripTick + 200000 ≤ c0.tick
     (¬late → exec .thermtripTimeout s = .next s) ∧ (late → Answers s .thermtripTimeout (fun c => c = { c0 with thermtrip := true })))

/-- SUPPLY_WARNING sets SUPPLY_WARN and posts it, takes VSAVE_CHARGED back when VSAVE is low, and its end sets both right; VSAVE_CHARGED lets items open. BUDGET_REPORT sends the member's slack, cap
and pipeline counters; BUDGET_DECISION, once half a period has passed and with every member's report, lets the member with the highest slack lower its cap by STEP_W when it leads the lowest by more than HYST, and the receiver
raises its own when BUDGET_REPORT_RECEIVE shows the lowered cap; a missing report is posted. TAG_SLOT_CLEAR frees a slot. SAVE_RESTORE puts a saved section's training state back. -/
def Obligations.SupplyAndBudget : Prop :=
  ∀ (s : State),
    let c0 := s.core
    let runs := c0.lost = false ∧ c0.inReset = false ∧ c0.beaconDown = false ∧ c0.flag Regs.PWR_HERD_PWR_EN = true
    let quiet := fun (c : Core) => c.tiles = c0.tiles ∧ c.parts = c0.parts ∧ c.items = c0.items ∧ c.ops = c0.ops ∧ c.mems = c0.mems
    let own := c0.rf Regs.COL_HERD_CFG_DEV_ID
    let eff := c0.rf Regs.PWR_CAP_EFF_WATTS
    let step := c0.rf Regs.PWR_HERD_PWR_STEP_W
    let bound := min (c0.rf Regs.PWR_CAP_RANGE_MAX) (c0.rf Regs.PWR_CAP_WATTS)
    let moved := fun (c : Core) (cap other raised : Nat) => c.rf Regs.PWR_CAP_EFF_WATTS = cap ∧
      c.rf Regs.PWR_TRANSFERS_COUNT = min (c0.rf Regs.PWR_TRANSFERS_COUNT + 1) (2 ^ 64 - 1) ∧
      c.evtBuf = c0.evtBuf ++ [⟨Cls.info, Src.beacon, devPart, 0x0E0D, (cap + other * 2 ^ 16 + raised * 2 ^ 30) % 2 ^ 64, 0⟩]
    let unmoved := fun (c : Core) => c.rf Regs.PWR_CAP_EFF_WATTS = eff ∧ c.evtBuf = c0.evtBuf
    let ns := max 1 (c0.rf Regs.PWR_HERD_PWR_PERIOD_MS) * 1000000
    let due := fun (r : BudgetRep) => c0.ts / ns % 2 ^ 32 ≠ r.period ∨ ns ≤ 2 * (c0.ts % ns)
    let once := fun (c : Core) => c.reports = c0.reports.filter (fun r => r.dev != own)
    (∀ (rails : BitVec 8) (low : Bool),
      (c0.lost = true ∨ (rails = 0 ∧ low = false) → exec (.supplyWarning rails low) s = .next s) ∧
      (c0.lost = false → rails ≠ 0 ∨ low = true → c0.flag Regs.PWR_PWR_STATUS_SUPPLY_WARN = true → Answers s (.supplyWarning rails low) (fun c =>
        c.flag Regs.PWR_PWR_STATUS_VSAVE_CHARGED = (c0.flag Regs.PWR_PWR_STATUS_VSAVE_CHARGED && !low) ∧ c0.onlyRegs c (fun r => r = Regs.PWR_PWR_STATUS.at 0))) ∧
      (c0.lost = false → rails ≠ 0 ∨ low = true → c0.flag Regs.PWR_PWR_STATUS_SUPPLY_WARN = false → Answers s (.supplyWarning rails low) (fun c =>
        c.flag Regs.PWR_PWR_STATUS_SUPPLY_WARN = true ∧ c.flag Regs.PWR_PWR_STATUS_VSAVE_CHARGED = (c0.flag Regs.PWR_PWR_STATUS_VSAVE_CHARGED && !low) ∧
        ⟨Cls.info, Src.supplyMon, devPart, 0x0E08, rails.toNat + b2n low * 2 ^ 8, 0⟩ ∈ c.evtBuf ∧
        (c0.fwState ≠ 3 → quiet c ∧ c.fwState = c0.fwState) ∧
        (c0.fwState = 3 → c.fwState = 2 ∧ ⟨Cls.info, Src.firmware, devPart, 0x0F04, 2, 0⟩ ∈ c.evtBuf)))) ∧
    (c0.lost = true ∨ c0.flag Regs.PWR_PWR_STATUS_SUPPLY_WARN = false → exec .supplyWarningEnd s = .next s) ∧
    (c0.lost = false → c0.flag Regs.PWR_PWR_STATUS_SUPPLY_WARN = true → Answers s .supplyWarningEnd (fun c => c.flag Regs.PWR_PWR_STATUS_SUPPLY_WARN = false ∧
      c.flag Regs.PWR_PWR_STATUS_VSAVE_CHARGED = true ∧ quiet c ∧ c.evtBuf = c0.evtBuf ++ [⟨Cls.info, Src.supplyMon, devPart, 0x0E09, 0, 0⟩])) ∧
    (c0.lost = true → exec .vsaveCharged s = .next s) ∧
    (c0.lost = false → Answers s .vsaveCharged (fun c => c.flag Regs.PWR_PWR_STATUS_VSAVE_CHARGED = true ∧ c0.onlyRegs c (fun r => r = Regs.PWR_PWR_STATUS.at 0) ∧
      ∀ p, c.canOpen p = (decide (c0.slotsUsed p < 4096) && decide (c0.items.length < 8192)))) ∧
    (¬runs → exec .budgetReport s = .next s ∧ ∀ d n k w g, exec (.budgetReportReceive d n k w g) s = .next s) ∧
    (runs →
      let period := c0.ts / (max 1 (c0.rf Regs.PWR_HERD_PWR_PERIOD_MS) * 1000000) % 2 ^ 32
      let slack := if c0.slackAll = 0 then 0 else min (c0.slackWait * 65536 / c0.slackAll) 65535
      let sum := fun (a b : Reg) => min ((List.range 16).flatMap (fun p => [c0.rd a p, c0.rd b p])).sum (2 ^ 64 - 1)
      let tx := sum Regs.COL_PIPE_TX_STALL5 Regs.COL_PIPE_TX_STALL6
      let rx := sum Regs.COL_PIPE_RX_WAIT5 Regs.COL_PIPE_RX_WAIT6
      Answers s .budgetReport (fun c => c.report own period = some ⟨own, period, slack, eff, tx, rx⟩ ∧ c.slackWait = 0 ∧ c.slackAll = 0 ∧ c.regs = c0.regs ∧ quiet c ∧
        c.out = c0.out ++ [⟨5, [c0.rf Regs.PWR_HERD_ORG_ORG_ID, c0.rf Regs.PWR_HERD_PWR_GROUP_TAG, own, period, slack, eff, tx, rx]⟩] ∧ c.evtBuf = c0.evtBuf)) ∧
    (∀ (dev : BitVec 14) (period : BitVec 32) (slack cap tag : BitVec 16),
      let i := Instr.budgetReportReceive dev period slack cap tag
      let meant := tag.toNat = c0.rf Regs.PWR_HERD_PWR_GROUP_TAG ∧ dev.toNat ∈ c0.members
      (¬meant → exec i s = .next s) ∧
      (runs → meant → Answers s i (fun c => c.report dev.toNat period.toNat = some ⟨dev.toNat, period.toNat, slack.toNat, cap.toNat, 0, 0⟩ ∧ quiet c ∧
        (c0.raise_ = none → c.raise_ = none ∧ unmoved c) ∧
        (∀ donor low, c0.raise_ = some (donor, low) →
          (donor ≠ dev.toNat ∨ low < cap.toNat → c.raise_ = c0.raise_ ∧ unmoved c) ∧
          (donor = dev.toNat → cap.toNat ≤ low → c.raise_ = none ∧ (eff + step ≤ bound → moved c (eff + step) donor 1) ∧ (bound < eff + step → unmoved c)))))) ∧
    ((∀ r ∈ c0.reports, r.dev ≠ own) ∨ ¬runs → exec .budgetDecision s = .next s) ∧
    (∀ mine, c0.reports.reverse.find? (fun r => r.dev == own) = some mine → ¬due mine → exec .budgetDecision s = .next s) ∧
    (∀ mine, c0.reports.reverse.find? (fun r => r.dev == own) = some mine → runs → due mine →
      let have_ := fun (d : Nat) (r : BudgetRep) => d ∈ c0.members ∧ c0.report d mine.period = some r
      let gives := fun (r : BudgetRep) => c0.rf Regs.PWR_CAP_RANGE_MIN + step ≤ r.cap
      let takes := fun (r : BudgetRep) => r.cap + step ≤ (if r.dev = own then bound else c0.rf Regs.PWR_CAP_RANGE_MAX)
      let donor := fun (r : BudgetRep) => (∃ d, have_ d r) ∧ gives r ∧ ∀ d o, have_ d o → gives o → o.slack < r.slack ∨ (o.slack = r.slack ∧ r.dev ≤ o.dev)
      let receiver := fun (r : BudgetRep) => (∃ d, have_ d r) ∧ takes r ∧ ∀ d o, have_ d o → takes o → r.slack < o.slack ∨ (o.slack = r.slack ∧ r.dev ≤ o.dev)
      (∀ d, c0.members.find? (fun d => (c0.report d mine.period).isNone) = some d → Answers s .budgetDecision (fun c => c.regs = c0.regs ∧ quiet c ∧ c.raise_ = c0.raise_ ∧ once c ∧
        c.evtBuf = c0.evtBuf ++ [⟨Cls.info, Src.beacon, devPart, 0x0E0E, (mine.period + d * 2 ^ 32) % 2 ^ 64, 0⟩])) ∧
      ((∀ d ∈ c0.members, (c0.report d mine.period).isSome = true) → Answers s .budgetDecision (fun c => quiet c ∧ once c ∧
        c.rf Regs.PWR_HERD_STATUS_PERIOD = mine.period % 2 ^ 32 ∧ c.rf Regs.PWR_HERD_STATUS_SLACK = mine.slack % 2 ^ 16 ∧
        ((∀ d r, have_ d r → ¬gives r) ∨ (∀ d r, have_ d r → ¬takes r) → unmoved c ∧ c.raise_ = c0.raise_) ∧
        (∀ d r, donor d → receiver r →
          (d.slack ≤ r.slack + c0.rf Regs.PWR_HERD_PWR_HYST → unmoved c ∧ c.raise_ = c0.raise_) ∧
          (r.slack + c0.rf Regs.PWR_HERD_PWR_HYST < d.slack → d.dev = own → moved c (eff - step) r.dev 0 ∧ c.raise_ = c0.raise_) ∧
          (r.slack + c0.rf Regs.PWR_HERD_PWR_HYST < d.slack → d.dev ≠ own → r.dev = own → unmoved c ∧ c.raise_ = some (d.dev, d.cap - step)) ∧
          (r.slack + c0.rf Regs.PWR_HERD_PWR_HYST < d.slack → d.dev ≠ own → r.dev ≠ own → unmoved c ∧ c.raise_ = c0.raise_))))) ∧
    (∀ (k : Fin 64) (w : Word),
      (w.getLsbD 17 = false → exec (.tagSlotClear k w) s = .next s) ∧
      (w.getLsbD 17 = true → Answers s (.tagSlotClear k w) (fun c => c.rd Regs.PWR_TAG_SLOT k.val = 0 ∧ c.rd Regs.PWR_TAG_ENERGY k.val = 0 ∧
        c0.onlyRegs c (fun r => r = Regs.PWR_TAG_SLOT.at k.val ∨ r = Regs.PWR_TAG_ENERGY.at k.val)))) ∧
    (∀ w : Word,
      let sect := w.toNat % 2 ^ 4
      let p := w.toNat / 2 ^ 4 % 2 ^ 4
      let e := c0.lead p
      let saved := s.perm.image.bind (fun img => img.parts.find? (fun x => x.part == sect))
      let able := s.perm.saveMark = 0 ∧ c0.pstate p = pACTIVE ∧ (c0.part p).prog = none
      let tells := fun st => Answers s (.saveRestore w) (fun c => c.rf Regs.PWR_SAVE_CMD_STATUS_RESULT = st ∧ c0.onlyRegs c (fun r => r = Regs.PWR_SAVE_CMD_STATUS.at 0))
      (w.getLsbD 8 = false → exec (.saveRestore w) s = .next s) ∧
      (w.getLsbD 8 = true → saved = none ∨ ¬able → tells St.PROTECTION) ∧
      (w.getLsbD 8 = true → saved.isSome = true → able → c0.viewOk p (c0.layerAt p 0) 65536 = false → tells St.BOUNDS) ∧
      (∀ x, w.getLsbD 8 = true → saved = some x → able → c0.viewOk p (c0.layerAt p 0) 65536 = true → Answers s (.saveRestore w) (fun c =>
        c.rf Regs.PWR_SAVE_CMD_STATUS_RESULT = 0 ∧ c.stepOf p = x.step % 2 ^ 64 ∧ c.rd Regs.UPD_SCHED_N e = x.schedN % 2 ^ 64 ∧ c.rd Regs.UPD_LS_HIST e = x.hist % 2 ^ 64 ∧
        c.rf Regs.UPD_LS_STATE_VALID e = 1 ∧ c.rf Regs.UPD_LS_STATE_E e = x.ls % 2 ^ 8 ∧ c.tiles = c0.tiles ∧ c.parts = c0.parts ∧ c.items = c0.items ∧
        c.scratch = c0.scratch ∧ c.host = c0.host ∧ c.evtBuf = c0.evtBuf)))

/-- FW_STAGE of a package that passes its checks puts it into the B area; a check that fails leaves B empty and names the check. FW_STAGED makes the set available or gives it up. FW_ACTIVATE waits
for the barrier unless a lock, a motion, VSAVE or a supply warning refuses it; FW_ACTIVATION_BARRIER holds new work; FW_ACTIVATED, with no NVMe command outstanding, swaps the areas as a
trial; FW_ACTIVATE_TIMEOUT gives a wait up, or stops the programs it was forced over; FW_ABANDON and FW_DISCARD go back. FW_TRIAL_PASS accepts the set, FW_TRIAL_TIMEOUT saves and resets. SVN_COMMIT
raises the counters, never lowers one; SETTINGS_MIGRATED and BEACON_RESTARTED finish their work. A command in another state ends with BOUNDS. -/
def Obligations.FirmwareUpdate : Prop :=
  ∀ (s : State),
    let c0 := s.core
    let st := c0.fwState
    let res := fun (c : Core) => c.rf Regs.FW_FW_STATUS_RESULT
    let quiet := fun (c : Core) => c.tiles = c0.tiles ∧ c.parts = c0.parts ∧ c.items = c0.items ∧ c.ops = c0.ops ∧ c.mems = c0.mems
    let gives := fun i (P : State → Prop) => ∃ t, exec i s = .next t ∧ t.pending = s.pending ∧ P t
    let empty := fun (t : State) => t.perm = s.perm.emptyB ∧ t.perm.areaB = {} ∧ t.perm.areaA = s.perm.areaA
    let bad := fun i => Answers s i (fun c => res c = St.BOUNDS ∧ c0.onlyRegs c (fun r => r = Regs.FW_FW_STATUS.at 0))
    let wrong := fun (n : Nat) => st ≠ 1 ∧ (st ≠ n ∨ c0.flag Regs.FW_FW_STATUS_RECOVERY = true)
    let ready := fun (n : Nat) => st = n ∧ c0.flag Regs.FW_FW_STATUS_RECOVERY = false
    s.perm.activeArea ≤ 1 →
    (st = 1 → (∀ h, exec (.fwStage h) s = .next s) ∧ (∀ f, exec (.fwActivate f) s = .next s) ∧ exec .fwAbandon s = .next s ∧ exec .fwDiscard s = .next s ∧
      exec .svnCommit s = .next s) ∧
    (wrong 2 → (∀ f, bad (.fwActivate f)) ∧ bad .fwDiscard) ∧ (wrong 3 → bad .fwAbandon) ∧ (wrong 0 → bad .svnCommit) ∧
    (∀ host : BitVec 16,
      let len := c0.rf Regs.FW_FW_LEN_BYTES
      let r := c0.readPf0 (c0.rd Regs.FW_FW_ARG) len host.toNat
      let sized := 8192 ≤ len ∧ len ≤ 8192 + 24 * 1048576
      let event := fun (check st bits : Nat) => ⟨Cls.info, Src.firmware, devPart, 0x0F01, (st + check * 2 ^ 16 + bits * 2 ^ 20) % 2 ^ 64, 0⟩
      let fails := fun (check status bits : Nat) => gives (.fwStage host) (fun t => empty t ∧ t.core.fwState = 0 ∧ res t.core = status ∧ t.core.rd Regs.FW_REFUSE = bits ∧ quiet t.core ∧
        t.core.evtBuf = c0.evtBuf ++ [event check status bits])
      (3 ≤ st → Answers s (.fwStage host) (fun c => res c = St.BOUNDS ∧ c.rd Regs.FW_REFUSE = 0 ∧ c.fwState = st ∧ quiet c ∧ c.evtBuf = c0.evtBuf ++ [event 1 St.BOUNDS 0])) ∧
      (st ≠ 1 → st < 3 → ¬sized ∨ r.1 ≠ 0 → fails 2 St.BOUNDS 0) ∧
      (st ≠ 1 → st < 3 → sized → r.1 = 0 →
        let bs := r.2
        let a := areaOf bs
        let fits := a.setMin ≤ s.perm.settings ∧ s.perm.settings ≤ a.setMax
        let signed_ := Config.mldsaVerify Config.vendorKey (bs.take 964) ((bs.drop 968).take 3309) = true
        let owned := c0.flag Regs.FW_FW_CFG_OWNER_SIG = true →
          bitOf (field bs 960 4) 0 = true ∧ Config.ownerVerify s.perm.ownerHash (bs.take 964) ((bs.drop 4277).take 3309) = true
        let newer := ∀ i ∈ compIds, s.perm.counter i ≤ compSvn bs i
        let whole := ∀ i ∈ compIds, Config.shake256 ((bs.drop (8192 + (compPlace bs i).1)).take (compPlace bs i).2) = compDigest bs i
        (field bs 0 4 ≠ 0x4C46574D ∨ manifestOk bs = false → fails 3 St.LENGTH 128) ∧
        (manifestOk bs = true → ¬fits → fails 4 St.LENGTH 128) ∧
        (manifestOk bs = true → fits → ¬(signed_ ∧ owned) → fails 5 St.PROTECTION 32) ∧
        (manifestOk bs = true → fits → signed_ → owned → ¬newer → fails 6 St.PROTECTION 16) ∧
        (manifestOk bs = true → fits → signed_ → owned → newer → ¬whole → fails 7 St.PROTECTION 64) ∧
        (manifestOk bs = true → fits → signed_ → owned → newer → whole → gives (.fwStage host) (fun t => t.core.fwState = 1 ∧ res t.core = 0 ∧ quiet t.core ∧
          t.core.evtBuf = c0.evtBuf ∧ t.perm.areaB = a ∧ t.perm.areaA = s.perm.areaA ∧ t.perm.fwStaged = false ∧ t.perm.svn = s.perm.svn ∧
          ∀ i ∈ compIds, t.perm.fwChanged.testBit (i - 1) = decide ((a.comp i).digest ≠ (s.perm.areaA.comp i).digest))))) ∧
    (st ≠ 1 → ∀ f, exec (.fwStaged f) s = .next s) ∧
    (st = 1 → gives (.fwStaged false) (fun t => empty t ∧ t.core.fwState = 0 ∧ res t.core = St.PROTECTION ∧ t.core.rd Regs.FW_REFUSE = 64 ∧ quiet t.core) ∧
      gives (.fwStaged true) (fun t => t.core.fwState = 2 ∧ t.perm.fwStaged = true ∧ t.perm.areaB = { s.perm.areaB with valid := true } ∧ t.perm.areaA = s.perm.areaA ∧
        t.perm.fwChanged = s.perm.fwChanged ∧ quiet t.core ∧ t.core.evtBuf = c0.evtBuf ++ [⟨Cls.info, Src.firmware, devPart, 0x0F00, s.perm.fwChanged % 2 ^ 64, 0⟩])) ∧
    (ready 2 → gives .fwDiscard (fun t => t.core.fwState = 0 ∧ res t.core = 0 ∧ t.perm = { s.perm with fwStaged := false, fwChanged := 0 } ∧ quiet t.core ∧ t.core.evtBuf = c0.evtBuf)) ∧
    (ready 2 → ∀ force : Bool,
      let locked := ∃ p, p < 16 ∧ c0.flag Regs.PART_STATUS_OWNER_LOCK p = true
      let moving := ∃ p, p < 16 ∧ c0.flag Regs.FW_P_MOTION_MOTION p = true
      let charged := c0.flag Regs.PWR_PWR_STATUS_VSAVE_CHARGED = true
      let warned := c0.flag Regs.PWR_PWR_STATUS_SUPPLY_WARN = true
      (locked ∨ moving ∨ ¬charged ∨ warned → Answers s (.fwActivate force) (fun c => res c = St.PROTECTION ∧ c.fwState = 2 ∧ quiet c ∧
        ((c.rd Regs.FW_REFUSE).testBit 0 = true ↔ locked) ∧ ((c.rd Regs.FW_REFUSE).testBit 1 = true ↔ moving) ∧ ((c.rd Regs.FW_REFUSE).testBit 2 = true ↔ ¬charged) ∧
        ((c.rd Regs.FW_REFUSE).testBit 3 = true ↔ warned) ∧ ∃ info, c.evtBuf = c0.evtBuf ++ [⟨Cls.info, Src.firmware, devPart, 0x0F01, info, 0⟩])) ∧
      (¬locked → ¬moving → charged → ¬warned → Answers s (.fwActivate force) (fun c => res c = 0 ∧ c.fwState = 3 ∧ c.fwForce = force ∧ c.fwStart = c0.tick ∧ quiet c ∧
        c.evtBuf = c0.evtBuf ++ [⟨Cls.info, Src.firmware, devPart, 0x0F02, s.perm.fwChanged % 2 ^ 64, 0⟩]))) ∧
    (let calm := (∀ p, p < 16 → c0.pstate p ≠ pDRAINING ∧ ∀ pr, (c0.part p).prog = some pr → pr.started = true → pr.stopping = true ∨ (c0.part p).barrierHeld = true) ∧
       c0.tileSwaps = [] ∧ c0.bankSwaps = [] ∧ (∀ w ∈ c0.laneSwaps, w.running = false) ∧ c0.rf Regs.MEM_MIG_STATUS_STEP = 0
     (st ≠ 3 ∨ ¬calm → exec .fwActivationBarrier s = .next s) ∧
     (st = 3 → calm → Answers s .fwActivationBarrier (fun c => c.fwState = 4 ∧ c.fwHold = true ∧ c.fwHoldTick = c0.tick ∧ quiet c ∧ c.evtBuf = c0.evtBuf))) ∧
    (st ≠ 4 ∨ c0.nvcmds ≠ [] → exec .fwActivated s = .next s) ∧
    (st = 4 → c0.nvcmds = [] → c0.slowReqs = [] → c0.qps = [] → c0.colls = [] → c0.heldSwaps = [] → c0.laneSwaps = [] → (∀ p, p < 16 → (c0.part p).barrierHeld = false) → gives .fwActivated (fun t => t.core.fwState = 5 ∧ t.perm.trial = true ∧
      t.perm.activeArea = 1 - s.perm.activeArea ∧ t.perm.areaA = s.perm.areaB ∧ t.perm.areaB = s.perm.areaA ∧ t.perm.fwStaged = false ∧ t.perm.fwChanged = 0 ∧ t.perm.svn = s.perm.svn ∧
      t.core.fwHold = false ∧ t.core.fwTrialTick = c0.tick ∧ t.core.beaconDown = s.perm.fwChanged.testBit 0 ∧ t.core.rd Regs.FW_ACT_TICK = c0.tick % 2 ^ 64 ∧
      t.core.rf Regs.FW_ACTIVATIONS_COUNT = min (c0.rf Regs.FW_ACTIVATIONS_COUNT + 1) Regs.FW_ACTIVATIONS_COUNT.top ∧
      ⟨Cls.info, Src.firmware, devPart, 0x0F03, c0.tick % 2 ^ 64, (c0.tick - c0.fwHoldTick) % 2 ^ 64⟩ ∈ t.core.evtBuf)) ∧
    (let late := st = 3 ∧ c0.fwStart + max 1 (c0.rf Regs.FW_FW_CFG_ACT_TIMEOUT_MS) * 25000 ≤ c0.tick
     (¬late → exec .fwActivateTimeout s = .next s) ∧
     (late → c0.fwForce = false → Answers s .fwActivateTimeout (fun c => c.fwState = 2 ∧ ⟨Cls.info, Src.firmware, devPart, 0x0F04, 0, 0⟩ ∈ c.evtBuf)) ∧
     (late → c0.fwForce = true → Answers s .fwActivateTimeout (fun c => c.fwState = 3 ∧ ∀ p pr, p < 16 → (c0.part p).prog = some pr → pr.started = true → pr.stopping = false →
       (c0.part p).barrierHeld = false → ∃ pr', (c.part p).prog = some pr' ∧ pr'.stopping = true ∧ pr'.endStatus = St.FW_ACTIVATION))) ∧
    (ready 3 → Answers s .fwAbandon (fun c => c.fwState = 2 ∧ res c = 0 ∧ ⟨Cls.info, Src.firmware, devPart, 0x0F04, 1, 0⟩ ∈ c.evtBuf)) ∧
    (let passes := st = 5 ∧ c0.beaconDown = false ∧ c0.tick ≤ c0.fwTrialTick + 500 * 25000
     (¬passes → exec .fwTrialPass s = .next s) ∧
     (passes → gives .fwTrialPass (fun t => t.core.fwState = 0 ∧ t.perm = { s.perm with trial := false } ∧ quiet t.core ∧ t.core.evtBuf = c0.evtBuf))) ∧
    (∀ comps : BitVec 7,
      let over_ := st = 5 ∧ (comps ≠ 0 ∨ c0.fwTrialTick + 500 * 25000 ≤ c0.tick)
      (¬over_ → exec (.fwTrialTimeout comps) s = .next s) ∧
      (over_ → c0.inReset = false → c0.lost = false → gives (.fwTrialTimeout comps) (fun t => s.captured t 2 St.PARTITION_RESET ∧ t.perm.trialBad = some comps.toNat ∧
        t.core.saveReset = some (c0.saveReset.getD 2)))) ∧
    (c0.beaconDown = false → exec .beaconRestarted s = .next s) ∧
    (c0.beaconDown = true → Answers s .beaconRestarted (fun c => c = { c0 with beaconDown := false, fwTrialTick := c0.tick, therm := [] })) ∧
    (ready 0 →
      let lag := compIds.filter (fun i => decide (s.perm.counter i < (s.perm.areaA.comp i).svn))
      gives .svnCommit (fun t => res t.core = 0 ∧ quiet t.core ∧ t.perm = { s.perm with svn := t.perm.svn } ∧
        (∀ i ∈ compIds, (s.perm.areaA.comp i).svn ≤ 127 → t.perm.counter i = max (s.perm.counter i) (s.perm.areaA.comp i).svn) ∧
        (lag = [] → t.core.evtBuf = c0.evtBuf) ∧ (lag ≠ [] → ∃ info, t.core.evtBuf = c0.evtBuf ++ [⟨Cls.info, Src.firmware, devPart, 0x0F08, info, 0⟩] ∧
          ∀ i ∈ compIds, info.testBit (i - 1) = decide (i ∈ lag)))) ∧
    (let moves := c0.flag Regs.FW_SETTINGS_MIGRATING = true ∧ c0.lost = false ∧ c0.inReset = false
     (¬moves → exec .settingsMigrated s = .next s) ∧
     (moves → gives .settingsMigrated (fun t => t.core.flag Regs.FW_SETTINGS_MIGRATING = false ∧ t.perm = { s.perm with settings := s.perm.areaA.setMax } ∧ quiet t.core ∧
       t.core.evtBuf = c0.evtBuf ++ [⟨Cls.info, Src.firmware, devPart, 0x0F09, (s.perm.settings + s.perm.areaA.setMax * 2 ^ 16) % 2 ^ 64, 0⟩])))

/-- For every command and state, a step of the state with that command at the front of its queue is exec of the command on the state with the rest of the queue. With no
command waiting a step is one tick, which is this model's choice (assumption 4): the tick counter moves by one, the timestamp by 40 ns and by the steps written, unless the servo slews; unless a bank swap is due, no tile,
partition, item, operation or memory byte of scratchpad or device memory differs; and the queue stays empty. -/
def Obligations.StepRunsFront : Prop :=
  (∀ (i : Instr) (s : State), step { s with pending := i :: s.pending } = exec i s) ∧
    ∀ s : State, s.pending = [] → ∃ t, step s = .next t ∧ t.pending = [] ∧ t.core.tick = s.core.tick + 1 ∧ t.core.tsSteps = [] ∧ t.core.spareQ = [] ∧ t.core.snapReq = [] ∧
      (s.core.slew = 0 → t.core.ts = (s.core.ts + 40 + s.core.tsSteps.sum) % 2 ^ 64) ∧ t.core.swapDue = [] ∧
      (s.core.swapDue = [] → t.core.tiles = s.core.tiles ∧ t.core.parts = s.core.parts ∧
        t.core.items = s.core.items ∧ t.core.ops = s.core.ops ∧ t.core.scratch = s.core.scratch ∧ t.core.dram = s.core.dram)

/-- After reset nothing is in progress and nothing waits: no item, operation, record, partition, queue pair or key; every register holds its reset value, every partition is FREE, READY is 0, the tick
and the timestamp are 0, every tile's sequencer is stopped with zero registers and every logical tile has its own physical tile. Memories are in canonical form and what resets keep is consistent.
(That nothing was fused or saved before is this model's choice, assumption 3.) -/
def Obligations.ResetValues : Prop :=
  let c := State.reset.core
  State.reset.pending = [] ∧ c.items = [] ∧ c.ops = [] ∧ c.recs = [] ∧ c.qps = [] ∧ c.slots = [] ∧ c.epochCur = none ∧ c.epochNext = none ∧ c.evtBuf = [] ∧
    (∀ r j, r.reset < 2 ^ 64 → c.rd r j = r.reset) ∧ (∀ p, p < 16 → c.pstate p = pFREE ∧ c.part p = {}) ∧ c.flag Regs.DEV_STATUS_READY = false ∧ c.tick = 0 ∧ c.ts = 0 ∧
    (∀ t, t < 272 → (c.tile t).run = 0 ∧ (∀ n, (c.tile t).gr n = 0) ∧ (∀ k, (c.tile t).token k = {})) ∧
    (∀ l, l < 256 → c.phys l = some (17 * (l / 16) + l % 16)) ∧ c.memWf = true ∧ State.reset.permOk = true

/-- Every well-formed instruction of the tiles, scalar or tensor, ordinary or wide, with every field at every value its entry allows, is what its words decode to, with its length; and whatever two
words decode to is well-formed and has those words, so no bit of an encoding is dropped or ignored. -/
def Obligations.DiothRoundTrip : Prop :=
  (∀ (i : SIns) (next : Word), i.wf = true → decodeDioth i.word (i.wide.getD next) = .ins (.s i) (Ins.words (.s i)).length) ∧
    (∀ (i : TIns) (next : Word), i.wf = true → decodeDioth i.word (i.wide.getD next) = .ins (.t i) (Ins.words (.t i)).length) ∧
    (∀ (w next : Word) (i : SIns) (len : Nat), decodeDioth w next = .ins (.s i) len →
      i.wf = true ∧ i.word = w ∧ len = (Ins.words (.s i)).length ∧ (len = 2 → i.wide = some next)) ∧
    ∀ (w next : Word) (i : TIns) (len : Nat), decodeDioth w next = .ins (.t i) len →
      i.wf = true ∧ i.word = w ∧ len = (Ins.words (.t i)).length ∧ (len = 2 → i.wide = some next)

/-- From every state in which what resets keep is consistent (the life cycle is one of four states, the seed is fused exactly in PROVISIONED and OWNED, no counter is past its width, the sparing
records fit), every step that answers a next state, whatever command it runs, leaves it so; and it never takes a device out of RETIRED or back to TEST, and never gives an ownership step back. -/
def Obligations.StepKeepsPerm : Prop :=
  ∀ s t : State, s.permOk = true → step s = .next t → t.permOk = true ∧ s.perm.grows t.perm = true
end

