-- ==== Sys2Proof/Laws/Maps.lean ====
section
/-! SUPPORT. Maps.lean: the laws of sparse arrays and of bit fields. -/

namespace Sys2Proof

namespace SMap

variable {α : Type} (d : Nat → α)

theorem get_del_same (m : SMap α) (k : Nat) : get d (del m k) k = d k := by
  induction m with
  | nil => rfl
  | cons e r ih => by_cases h : e.1 = k <;> simp [del, get, h, ih]

theorem get_del_other (m : SMap α) {k j : Nat} (h : j ≠ k) : get d (del m k) j = get d m j := by
  induction m with
  | nil => rfl
  | cons e r ih =>
    by_cases hk : e.1 = k
    · have hj : ¬e.1 = j := fun c => h (c.symm.trans hk)
      simp [del, get, hk, ih, Ne.symm h]
    · simp [del, get, hk, ih]

theorem get_ins_same (m : SMap α) (k : Nat) (x : α) : get d (ins m k x) k = x := by
  induction m with
  | nil => simp [ins, get]
  | cons e r ih =>
    by_cases h : e.1 = k
    · simp [ins, get, h]
    · by_cases h2 : k < e.1 <;> simp [ins, get, h, h2, ih]

theorem get_ins_other (m : SMap α) {k j : Nat} (x : α) (h : j ≠ k) : get d (ins m k x) j = get d m j := by
  induction m with
  | nil => simp [ins, get, Ne.symm h]
  | cons e r ih =>
    by_cases hk : e.1 = k
    · have hj : ¬k = j := Ne.symm h
      simp [ins, get, hk, hj]
    · by_cases h2 : k < e.1 <;> simp [ins, get, hk, h2, ih, Ne.symm h]

/-- What was written is read. -/
@[simp] theorem get_put_same [DecidableEq α] (m : SMap α) (k : Nat) (x : α) : get d (put d m k x) k = x := by
  unfold put; split
  · rw [get_del_same]; exact (‹x = d k›).symm
  · exact get_ins_same d m k x

/-- A write leaves every other key alone. -/
theorem get_put_other [DecidableEq α] (m : SMap α) {k j : Nat} (x : α) (h : j ≠ k) : get d (put d m k x) j = get d m j := by
  unfold put; split
  · exact get_del_other d m h
  · exact get_ins_other d m x h

theorem get_put [DecidableEq α] (m : SMap α) (k j : Nat) (x : α) : get d (put d m k x) j = if j = k then x else get d m j := by
  split
  · subst_vars; simp
  · exact get_put_other d m x ‹_›

/-- An array read under another default agrees wherever the two defaults do. -/
theorem get_congr {d d' : Nat → α} (m : SMap α) {k : Nat} (h : d k = d' k) : get d m k = get d' m k := by
  induction m with
  | nil => exact h
  | cons e r ih => simp [get, ih]

/-- Keeping some keys: the others read as unlisted. -/
theorem get_keepIf (m : SMap α) (keep : Nat → Bool) (k : Nat) : get d (keepIf m keep) k = if keep k then get d m k else d k := by
  induction m with
  | nil => simp [keepIf, get]
  | cons e r ih =>
    unfold keepIf at ih ⊢
    by_cases he : keep e.1 = true
    · rw [List.filter_cons_of_pos (by simpa using he)]
      by_cases hk : e.1 = k
      · subst hk; simp [get, he]
      · simp [get, hk, ih]
    · rw [List.filter_cons_of_neg (by simpa using he), ih]
      by_cases hk : e.1 = k
      · subst hk; simp [he]
      · simp [get, hk]

/-! ### The canonical form -/

theorem sortedAbove_mono {m : SMap α} {a b : Nat} (h : a ≤ b) (s : sortedAbove b m = true) : sortedAbove a m = true := by
  cases m with
  | nil => rfl
  | cons e r => simp only [sortedAbove, Bool.and_eq_true, decide_eq_true_eq] at s ⊢; exact ⟨by omega, s.2⟩

theorem sortedAbove_del {m : SMap α} {b : Nat} (k : Nat) (s : sortedAbove b m = true) : sortedAbove b (del m k) = true := by
  induction m generalizing b with
  | nil => rfl
  | cons e r ih =>
    simp only [sortedAbove, Bool.and_eq_true, decide_eq_true_eq] at s
    simp only [del]
    split
    · exact ih (sortedAbove_mono (by omega) s.2)
    · simp only [sortedAbove, Bool.and_eq_true, decide_eq_true_eq]; exact ⟨s.1, ih s.2⟩

theorem sortedAbove_ins {m : SMap α} {b k : Nat} (x : α) (hk : b < k) (s : sortedAbove b m = true) : sortedAbove b (ins m k x) = true := by
  induction m generalizing b with
  | nil => simp [ins, sortedAbove, hk]
  | cons e r ih =>
    simp only [sortedAbove, Bool.and_eq_true, decide_eq_true_eq] at s
    simp only [ins]
    split
    · subst_vars; simp [sortedAbove, s.2, hk]
    · split
      · simp [sortedAbove, hk, s.2]; assumption
      · simp only [sortedAbove, Bool.and_eq_true, decide_eq_true_eq]
        exact ⟨s.1, ih (by omega) s.2⟩

theorem sorted_of_above {m : SMap α} {b : Nat} (s : sortedAbove b m = true) : sorted m = true := by
  cases m with
  | nil => rfl
  | cons e r => simp only [sortedAbove, Bool.and_eq_true] at s; exact s.2

theorem sorted_del {m : SMap α} (k : Nat) (s : sorted m = true) : sorted (del m k) = true := by
  cases m with
  | nil => rfl
  | cons e r =>
    simp only [del]; split
    · exact sorted_of_above (sortedAbove_del k s)
    · exact sortedAbove_del k s

theorem sorted_ins {m : SMap α} (k : Nat) (x : α) (s : sorted m = true) : sorted (ins m k x) = true := by
  cases m with
  | nil => rfl
  | cons e r =>
    simp only [ins]; split
    · subst_vars; exact s
    · split
      · simp only [sorted, sortedAbove, Bool.and_eq_true, decide_eq_true_eq]; exact ⟨by assumption, s⟩
      · exact sortedAbove_ins x (by omega) s

theorem mem_del {m : SMap α} {k : Nat} {e : Nat × α} (h : e ∈ del m k) : e ∈ m ∧ e.1 ≠ k := by
  induction m with
  | nil => simp [del] at h
  | cons f r ih =>
    simp only [del] at h; split at h
    · have := ih h; exact ⟨List.mem_cons_of_mem _ this.1, this.2⟩
    · rcases List.mem_cons.mp h with rfl | h
      · exact ⟨List.mem_cons_self, ‹_›⟩
      · have := ih h; exact ⟨List.mem_cons_of_mem _ this.1, this.2⟩

theorem mem_ins {m : SMap α} {k : Nat} {x : α} {e : Nat × α} (h : e ∈ ins m k x) : e ∈ m ∨ e = (k, x) := by
  induction m with
  | nil => simp [ins] at h; exact .inr h
  | cons f r ih =>
    simp only [ins] at h; split at h
    · rcases List.mem_cons.mp h with h | h
      · exact .inr h
      · exact .inl (List.mem_cons_of_mem _ h)
    · split at h
      · rcases List.mem_cons.mp h with h | h
        · exact .inr h
        · exact .inl h
      · rcases List.mem_cons.mp h with h | h
        · exact .inl (h ▸ List.mem_cons_self)
        · exact (ih h).imp (List.mem_cons_of_mem _) id

/-- Every pair of a written array is an old pair or the pair written. -/
theorem mem_put [DecidableEq α] {m : SMap α} {k : Nat} {x : α} {e : Nat × α} (h : e ∈ put d m k x) : e ∈ m ∨ e = (k, x) := by
  unfold put at h; split at h
  · exact .inl (mem_del h).1
  · exact mem_ins h

variable [DecidableEq α]

/-- A write keeps the canonical form. -/
theorem wf_put {m : SMap α} (k : Nat) (x : α) (h : wf d m = true) : wf d (put d m k x) = true := by
  simp only [wf, Bool.and_eq_true, List.all_eq_true, decide_eq_true_eq] at h ⊢
  refine ⟨?_, fun e he => ?_⟩
  · unfold put; split
    · exact sorted_del k h.1
    · exact sorted_ins k x h.1
  · by_cases hx : x = d k
    · rw [put, if_pos hx] at he; exact h.2 e (mem_del he).1
    · rcases mem_put d he with he | rfl
      · exact h.2 e he
      · exact hx

/-- Dropping keys keeps the canonical form. -/
theorem wf_keepIf {m : SMap α} (keep : Nat → Bool) (h : wf d m = true) : wf d (keepIf m keep) = true := by
  have above : ∀ (m : SMap α) (b : Nat), sortedAbove b m = true → sortedAbove b (keepIf m keep) = true := by
    intro m
    induction m with
    | nil => intro b _; rfl
    | cons e r ih =>
      intro b s
      simp only [sortedAbove, Bool.and_eq_true, decide_eq_true_eq] at s
      unfold keepIf at ih ⊢
      rw [List.filter_cons]; split
      · simp only [sortedAbove, Bool.and_eq_true, decide_eq_true_eq]; exact ⟨s.1, ih _ s.2⟩
      · exact ih _ (sortedAbove_mono (by omega) s.2)
  simp only [wf, Bool.and_eq_true, List.all_eq_true, decide_eq_true_eq] at h ⊢
  refine ⟨?_, fun e he => h.2 e (List.mem_of_mem_filter he)⟩
  cases m with
  | nil => rfl
  | cons e r =>
    have := above r e.1 h.1
    unfold keepIf at this ⊢
    rw [List.filter_cons]; split
    · exact this
    · exact sorted_of_above this

end SMap

/-! ### Threads -/

/-- What a function keeps on every input, a thread of it keeps. -/
theorem threadAll_inv {α β : Type} (P : α → Prop) {f : α → β → α} (h : ∀ a b, P a → P (f a b)) (l : List β) (a : α) (ha : P a) :
    P (threadAll f a l) := by
  induction l generalizing a with
  | nil => exact ha
  | cons x r ih => exact ih _ (h _ _ ha)

/-- A thread of a function that keeps a view of its value keeps the view. -/
theorem threadAll_view {α β γ : Type} (v : α → γ) {f : α → β → α} (h : ∀ a b, v (f a b) = v a) (l : List β) (a : α) :
    v (threadAll f a l) = v a := by
  induction l generalizing a with
  | nil => rfl
  | cons x r ih => rw [threadAll, ih, h]

/-! ### Bit fields -/

theorem testBit_bits (n hi lo j : Nat) : (bits n hi lo).testBit j = (decide (j < hi + 1 - lo) && n.testBit (lo + j)) := by
  simp [bits, Nat.testBit_mod_two_pow, Nat.testBit_shiftRight]

theorem bits_lt (n hi lo : Nat) : bits n hi lo < 2 ^ (hi + 1 - lo) := Nat.mod_lt _ (Nat.two_pow_pos _)

/-- The parts of a number above, in and below a field. -/
theorem setBits_parts (n hi lo v : Nat) (h : lo ≤ hi) :
    setBits n hi lo v = n / 2 ^ (hi + 1) * 2 ^ (hi + 1) + v % 2 ^ (hi + 1 - lo) * 2 ^ lo + n % 2 ^ lo := by
  have e : 2 ^ (hi + 1) = 2 ^ lo * 2 ^ (hi + 1 - lo) := by rw [← Nat.pow_add]; congr 1; omega
  have hb : bits n hi lo = n / 2 ^ lo % 2 ^ (hi + 1 - lo) := by simp [bits, Nat.shiftRight_eq_div_pow]
  have hn : n = n / 2 ^ (hi + 1) * 2 ^ (hi + 1) + (n / 2 ^ lo % 2 ^ (hi + 1 - lo)) * 2 ^ lo + n % 2 ^ lo := by
    have h1 : n = 2 ^ lo * (n / 2 ^ lo) + n % 2 ^ lo := (Nat.div_add_mod n _).symm
    have h2 : n / 2 ^ lo = 2 ^ (hi + 1 - lo) * (n / 2 ^ lo / 2 ^ (hi + 1 - lo)) + n / 2 ^ lo % 2 ^ (hi + 1 - lo) :=
      (Nat.div_add_mod _ _).symm
    have h3 : n / 2 ^ lo / 2 ^ (hi + 1 - lo) = n / 2 ^ (hi + 1) := by rw [Nat.div_div_eq_div_mul, e]
    rw [h3] at h2
    calc n = 2 ^ lo * (n / 2 ^ lo) + n % 2 ^ lo := h1
      _ = 2 ^ lo * (2 ^ (hi + 1 - lo) * (n / 2 ^ (hi + 1)) + n / 2 ^ lo % 2 ^ (hi + 1 - lo)) + n % 2 ^ lo := by rw [← h2]
      _ = _ := by rw [e]; ring
  unfold setBits
  rw [hb]
  omega

/-- A field written is read. -/
theorem bits_setBits_same (n hi lo v : Nat) (h : lo ≤ hi) : bits (setBits n hi lo v) hi lo = v % 2 ^ (hi + 1 - lo) := by
  have e : 2 ^ (hi + 1) = 2 ^ lo * 2 ^ (hi + 1 - lo) := by rw [← Nat.pow_add]; congr 1; omega
  rw [setBits_parts n hi lo v h, bits, Nat.shiftRight_eq_div_pow]
  have hp := Nat.two_pow_pos lo
  have h1 : (n / 2 ^ (hi + 1) * 2 ^ (hi + 1) + v % 2 ^ (hi + 1 - lo) * 2 ^ lo + n % 2 ^ lo) / 2 ^ lo =
      n / 2 ^ (hi + 1) * 2 ^ (hi + 1 - lo) + v % 2 ^ (hi + 1 - lo) := by
    rw [Nat.div_eq_of_lt_le]
    · rw [e]; nlinarith [Nat.zero_le (n % 2 ^ lo)]
    · rw [e]; nlinarith [Nat.mod_lt n hp]
  rw [h1, Nat.mul_add_mod_self_right]; simp

/-- Another field reads as before. -/
theorem bits_setBits_beside (n hi lo v hi' lo' : Nat) (h : lo ≤ hi) (hd : hi' < lo ∨ hi < lo') :
    bits (setBits n hi lo v) hi' lo' = bits n hi' lo' := by
  apply Nat.eq_of_testBit_eq
  intro j
  rw [testBit_bits, testBit_bits]
  by_cases hj : j < hi' + 1 - lo'
  · have ht : (setBits n hi lo v).testBit (lo' + j) = n.testBit (lo' + j) := by
      have hout : lo' + j < lo ∨ hi < lo' + j := by omega
      have e : 2 ^ (hi + 1) = 2 ^ lo * 2 ^ (hi + 1 - lo) := by rw [← Nat.pow_add]; congr 1; omega
      have h2 : v % 2 ^ (hi + 1 - lo) < 2 ^ (hi + 1 - lo) := Nat.mod_lt _ (Nat.two_pow_pos _)
      have h3 : n % 2 ^ lo < 2 ^ lo := Nat.mod_lt _ (Nat.two_pow_pos _)
      rw [setBits_parts n hi lo v h]
      rcases hout with hlt | hgt
      · have : n / 2 ^ (hi + 1) * 2 ^ (hi + 1) + v % 2 ^ (hi + 1 - lo) * 2 ^ lo + n % 2 ^ lo =
            2 ^ lo * (n / 2 ^ (hi + 1) * 2 ^ (hi + 1 - lo) + v % 2 ^ (hi + 1 - lo)) + n % 2 ^ lo := by
          rw [e]; ring
        rw [this, Nat.testBit_two_pow_mul_add _ h3, if_pos hlt, Nat.testBit_mod_two_pow]; simp [hlt]
      · have h4 : v % 2 ^ (hi + 1 - lo) * 2 ^ lo + n % 2 ^ lo < 2 ^ (hi + 1) := by
          have := Nat.mul_le_mul_right (2 ^ lo) h2
          rw [e]; nlinarith
        have : n / 2 ^ (hi + 1) * 2 ^ (hi + 1) + v % 2 ^ (hi + 1 - lo) * 2 ^ lo + n % 2 ^ lo =
            2 ^ (hi + 1) * (n / 2 ^ (hi + 1)) + (v % 2 ^ (hi + 1 - lo) * 2 ^ lo + n % 2 ^ lo) := by ring
        rw [this, Nat.testBit_two_pow_mul_add _ h4, if_neg (by omega), Nat.testBit_div_two_pow]
        congr 1; omega
    rw [ht]
  · simp [hj]

/-- The bits of a number with a field replaced. -/
theorem testBit_setBits (n hi lo v j : Nat) (h : lo ≤ hi) :
    (setBits n hi lo v).testBit j = if lo ≤ j ∧ j ≤ hi then v.testBit (j - lo) else n.testBit j := by
  split
  · have e := congrArg (fun m => m.testBit (j - lo)) (bits_setBits_same n hi lo v h)
    simp only [testBit_bits, Nat.testBit_mod_two_pow] at e
    rw [show lo + (j - lo) = j by omega] at e
    simpa [show j - lo < hi + 1 - lo by omega] using e
  · have e := congrArg (fun m => m.testBit 0) (bits_setBits_beside n hi lo v j j h (by omega))
    rw [testBit_bits, testBit_bits] at e
    simpa using e

end Sys2Proof
end

