-- ==== Sys2Proof/Laws/State.lean ====
section
/-! SUPPORT. State.lean: what each basic update of the device leaves of each field. -/

namespace Sys2Proof.Machine

variable (c : Core)

/-! ### wr -/

@[simp] theorem Core.wr_tick (r : Reg) (i v : Nat) : (c.wr r i v).tick = c.tick := rfl
@[simp] theorem Core.wr_ts (r : Reg) (i v : Nat) : (c.wr r i v).ts = c.ts := rfl
@[simp] theorem Core.wr_hold (r : Reg) (i v : Nat) : (c.wr r i v).hold = c.hold := rfl
@[simp] theorem Core.wr_resp (r : Reg) (i v : Nat) : (c.wr r i v).resp = c.resp := rfl
@[simp] theorem Core.wr_evtBuf (r : Reg) (i v : Nat) : (c.wr r i v).evtBuf = c.evtBuf := rfl
@[simp] theorem Core.wr_log (r : Reg) (i v : Nat) : (c.wr r i v).log = c.log := rfl
@[simp] theorem Core.wr_evq (r : Reg) (i v : Nat) : (c.wr r i v).evq = c.evq := rfl
@[simp] theorem Core.wr_cqh (r : Reg) (i v : Nat) : (c.wr r i v).cqh = c.cqh := rfl
@[simp] theorem Core.wr_out (r : Reg) (i v : Nat) : (c.wr r i v).out = c.out := rfl
@[simp] theorem Core.wr_scratch (r : Reg) (i v : Nat) : (c.wr r i v).scratch = c.scratch := rfl
@[simp] theorem Core.wr_dram (r : Reg) (i v : Nat) : (c.wr r i v).dram = c.dram := rfl
@[simp] theorem Core.wr_dramKey (r : Reg) (i v : Nat) : (c.wr r i v).dramKey = c.dramKey := rfl
@[simp] theorem Core.wr_nextKey (r : Reg) (i v : Nat) : (c.wr r i v).nextKey = c.nextKey := rfl
@[simp] theorem Core.wr_host (r : Reg) (i v : Nat) : (c.wr r i v).host = c.host := rfl
@[simp] theorem Core.wr_tiles (r : Reg) (i v : Nat) : (c.wr r i v).tiles = c.tiles := rfl
@[simp] theorem Core.wr_map (r : Reg) (i v : Nat) : (c.wr r i v).map = c.map := rfl
@[simp] theorem Core.wr_parts (r : Reg) (i v : Nat) : (c.wr r i v).parts = c.parts := rfl
@[simp] theorem Core.wr_items (r : Reg) (i v : Nat) : (c.wr r i v).items = c.items := rfl
@[simp] theorem Core.wr_recs (r : Reg) (i v : Nat) : (c.wr r i v).recs = c.recs := rfl
@[simp] theorem Core.wr_ops (r : Reg) (i v : Nat) : (c.wr r i v).ops = c.ops := rfl
@[simp] theorem Core.wr_txns (r : Reg) (i v : Nat) : (c.wr r i v).txns = c.txns := rfl
@[simp] theorem Core.wr_nextItem (r : Reg) (i v : Nat) : (c.wr r i v).nextItem = c.nextItem := rfl
@[simp] theorem Core.wr_nextOp (r : Reg) (i v : Nat) : (c.wr r i v).nextOp = c.nextOp := rfl
@[simp] theorem Core.wr_free (r : Reg) (i v : Nat) : (c.wr r i v).free = c.free := rfl
@[simp] theorem Core.wr_wipes (r : Reg) (i v : Nat) : (c.wr r i v).wipes = c.wipes := rfl
@[simp] theorem Core.wr_tileSwaps (r : Reg) (i v : Nat) : (c.wr r i v).tileSwaps = c.tileSwaps := rfl
@[simp] theorem Core.wr_bankSwaps (r : Reg) (i v : Nat) : (c.wr r i v).bankSwaps = c.bankSwaps := rfl
@[simp] theorem Core.wr_heldSwaps (r : Reg) (i v : Nat) : (c.wr r i v).heldSwaps = c.heldSwaps := rfl
@[simp] theorem Core.wr_slots (r : Reg) (i v : Nat) : (c.wr r i v).slots = c.slots := rfl
@[simp] theorem Core.wr_marks (r : Reg) (i v : Nat) : (c.wr r i v).marks = c.marks := rfl
@[simp] theorem Core.wr_dir (r : Reg) (i v : Nat) : (c.wr r i v).dir = c.dir := rfl
@[simp] theorem Core.wr_flash (r : Reg) (i v : Nat) : (c.wr r i v).flash = c.flash := rfl
@[simp] theorem Core.wr_fwHold (r : Reg) (i v : Nat) : (c.wr r i v).fwHold = c.fwHold := rfl
@[simp] theorem Core.wr_gated (r : Reg) (i v : Nat) : (c.wr r i v).gated = c.gated := rfl
@[simp] theorem Core.wr_lost (r : Reg) (i v : Nat) : (c.wr r i v).lost = c.lost := rfl
@[simp] theorem Core.wr_sqOff (r : Reg) (i v : Nat) : (c.wr r i v).sqOff = c.sqOff := rfl
@[simp] theorem Core.wr_bankReqs (r : Reg) (i v : Nat) : (c.wr r i v).bankReqs = c.bankReqs := rfl
@[simp] theorem Core.wr_touched (r : Reg) (i v : Nat) : (c.wr r i v).touched = c.touched := rfl
@[simp] theorem Core.wr_dests (r : Reg) (i v : Nat) : (c.wr r i v).dests = c.dests := rfl
@[simp] theorem Core.wr_rowAccess (r : Reg) (i v : Nat) : (c.wr r i v).rowAccess = c.rowAccess := rfl
@[simp] theorem Core.wr_outTiles (r : Reg) (i v : Nat) : (c.wr r i v).outTiles = c.outTiles := rfl
@[simp] theorem Core.wr_spareQ (r : Reg) (i v : Nat) : (c.wr r i v).spareQ = c.spareQ := rfl
@[simp] theorem Core.wr_nvcmds (r : Reg) (i v : Nat) : (c.wr r i v).nvcmds = c.nvcmds := rfl
@[simp] theorem Core.wr_nextNv (r : Reg) (i v : Nat) : (c.wr r i v).nextNv = c.nextNv := rfl
@[simp] theorem Core.wr_qps (r : Reg) (i v : Nat) : (c.wr r i v).qps = c.qps := rfl
@[simp] theorem Core.wr_txCredit (r : Reg) (i v : Nat) : (c.wr r i v).txCredit = c.txCredit := rfl
@[simp] theorem Core.wr_rxGrants (r : Reg) (i v : Nat) : (c.wr r i v).rxGrants = c.rxGrants := rfl
@[simp] theorem Core.wr_creditReqs (r : Reg) (i v : Nat) : (c.wr r i v).creditReqs = c.creditReqs := rfl
@[simp] theorem Core.wr_grantCells (r : Reg) (i v : Nat) : (c.wr r i v).grantCells = c.grantCells := rfl
@[simp] theorem Core.wr_regionCache (r : Reg) (i v : Nat) : (c.wr r i v).regionCache = c.regionCache := rfl
@[simp] theorem Core.wr_invals (r : Reg) (i v : Nat) : (c.wr r i v).invals = c.invals := rfl
@[simp] theorem Core.wr_nonces (r : Reg) (i v : Nat) : (c.wr r i v).nonces = c.nonces := rfl
@[simp] theorem Core.wr_draws (r : Reg) (i v : Nat) : (c.wr r i v).draws = c.draws := rfl
@[simp] theorem Core.wr_ide (r : Reg) (i v : Nat) : (c.wr r i v).ide = c.ide := rfl
@[simp] theorem Core.wr_epochCur (r : Reg) (i v : Nat) : (c.wr r i v).epochCur = c.epochCur := rfl
@[simp] theorem Core.wr_epochNext (r : Reg) (i v : Nat) : (c.wr r i v).epochNext = c.epochNext := rfl
@[simp] theorem Core.wr_epochPrev (r : Reg) (i v : Nat) : (c.wr r i v).epochPrev = c.epochPrev := rfl
@[simp] theorem Core.wr_secretCur (r : Reg) (i v : Nat) : (c.wr r i v).secretCur = c.secretCur := rfl
@[simp] theorem Core.wr_secretNext (r : Reg) (i v : Nat) : (c.wr r i v).secretNext = c.secretNext := rfl
@[simp] theorem Core.wr_secretPrev (r : Reg) (i v : Nat) : (c.wr r i v).secretPrev = c.secretPrev := rfl
@[simp] theorem Core.wr_switchTick (r : Reg) (i v : Nat) : (c.wr r i v).switchTick = c.switchTick := rfl
@[simp] theorem Core.wr_staged (r : Reg) (i v : Nat) : (c.wr r i v).staged = c.staged := rfl
@[simp] theorem Core.wr_stageBlks (r : Reg) (i v : Nat) : (c.wr r i v).stageBlks = c.stageBlks := rfl
@[simp] theorem Core.wr_slowReqs (r : Reg) (i v : Nat) : (c.wr r i v).slowReqs = c.slowReqs := rfl
@[simp] theorem Core.wr_remoteOut (r : Reg) (i v : Nat) : (c.wr r i v).remoteOut = c.remoteOut := rfl
@[simp] theorem Core.wr_failedCh (r : Reg) (i v : Nat) : (c.wr r i v).failedCh = c.failedCh := rfl
@[simp] theorem Core.wr_trainFails (r : Reg) (i v : Nat) : (c.wr r i v).trainFails = c.trainFails := rfl
@[simp] theorem Core.wr_corrTicks (r : Reg) (i v : Nat) : (c.wr r i v).corrTicks = c.corrTicks := rfl
@[simp] theorem Core.wr_swapDue (r : Reg) (i v : Nat) : (c.wr r i v).swapDue = c.swapDue := rfl
@[simp] theorem Core.wr_migLost (r : Reg) (i v : Nat) : (c.wr r i v).migLost = c.migLost := rfl
@[simp] theorem Core.wr_retireQ (r : Reg) (i v : Nat) : (c.wr r i v).retireQ = c.retireQ := rfl
@[simp] theorem Core.wr_colls (r : Reg) (i v : Nat) : (c.wr r i v).colls = c.colls := rfl
@[simp] theorem Core.wr_collSeq (r : Reg) (i v : Nat) : (c.wr r i v).collSeq = c.collSeq := rfl
@[simp] theorem Core.wr_colMembers (r : Reg) (i v : Nat) : (c.wr r i v).colMembers = c.colMembers := rfl
@[simp] theorem Core.wr_parked (r : Reg) (i v : Nat) : (c.wr r i v).parked = c.parked := rfl
@[simp] theorem Core.wr_collEnds (r : Reg) (i v : Nat) : (c.wr r i v).collEnds = c.collEnds := rfl
@[simp] theorem Core.wr_probe (r : Reg) (i v : Nat) : (c.wr r i v).probe = c.probe := rfl
@[simp] theorem Core.wr_probeGot (r : Reg) (i v : Nat) : (c.wr r i v).probeGot = c.probeGot := rfl
@[simp] theorem Core.wr_laneSwaps (r : Reg) (i v : Nat) : (c.wr r i v).laneSwaps = c.laneSwaps := rfl
@[simp] theorem Core.wr_txStamps (r : Reg) (i v : Nat) : (c.wr r i v).txStamps = c.txStamps := rfl
@[simp] theorem Core.wr_snapReq (r : Reg) (i v : Nat) : (c.wr r i v).snapReq = c.snapReq := rfl
@[simp] theorem Core.wr_slew (r : Reg) (i v : Nat) : (c.wr r i v).slew = c.slew := rfl
@[simp] theorem Core.wr_slewTick (r : Reg) (i v : Nat) : (c.wr r i v).slewTick = c.slewTick := rfl
@[simp] theorem Core.wr_tsSteps (r : Reg) (i v : Nat) : (c.wr r i v).tsSteps = c.tsSteps := rfl
@[simp] theorem Core.wr_clamps (r : Reg) (i v : Nat) : (c.wr r i v).clamps = c.clamps := rfl
@[simp] theorem Core.wr_fatalSeen (r : Reg) (i v : Nat) : (c.wr r i v).fatalSeen = c.fatalSeen := rfl
@[simp] theorem Core.wr_tripped (r : Reg) (i v : Nat) : (c.wr r i v).tripped = c.tripped := rfl
@[simp] theorem Core.wr_notch (r : Reg) (i v : Nat) : (c.wr r i v).notch = c.notch := rfl
@[simp] theorem Core.wr_duty (r : Reg) (i v : Nat) : (c.wr r i v).duty = c.duty := rfl
@[simp] theorem Core.wr_therm (r : Reg) (i v : Nat) : (c.wr r i v).therm = c.therm := rfl
@[simp] theorem Core.wr_metSteps (r : Reg) (i v : Nat) : (c.wr r i v).metSteps = c.metSteps := rfl
@[simp] theorem Core.wr_limitUntil (r : Reg) (i v : Nat) : (c.wr r i v).limitUntil = c.limitUntil := rfl
@[simp] theorem Core.wr_dutySlot (r : Reg) (i v : Nat) : (c.wr r i v).dutySlot = c.dutySlot := rfl
@[simp] theorem Core.wr_slackWait (r : Reg) (i v : Nat) : (c.wr r i v).slackWait = c.slackWait := rfl
@[simp] theorem Core.wr_slackAll (r : Reg) (i v : Nat) : (c.wr r i v).slackAll = c.slackAll := rfl
@[simp] theorem Core.wr_reports (r : Reg) (i v : Nat) : (c.wr r i v).reports = c.reports := rfl
@[simp] theorem Core.wr_raise_ (r : Reg) (i v : Nat) : (c.wr r i v).raise_ = c.raise_ := rfl
@[simp] theorem Core.wr_barSize (r : Reg) (i v : Nat) : (c.wr r i v).barSize = c.barSize := rfl
@[simp] theorem Core.wr_busMaster (r : Reg) (i v : Nat) : (c.wr r i v).busMaster = c.busMaster := rfl
@[simp] theorem Core.wr_qmem (r : Reg) (i v : Nat) : (c.wr r i v).qmem = c.qmem := rfl
@[simp] theorem Core.wr_beaconDown (r : Reg) (i v : Nat) : (c.wr r i v).beaconDown = c.beaconDown := rfl
@[simp] theorem Core.wr_fwForce (r : Reg) (i v : Nat) : (c.wr r i v).fwForce = c.fwForce := rfl
@[simp] theorem Core.wr_fwStart (r : Reg) (i v : Nat) : (c.wr r i v).fwStart = c.fwStart := rfl
@[simp] theorem Core.wr_fwHoldTick (r : Reg) (i v : Nat) : (c.wr r i v).fwHoldTick = c.fwHoldTick := rfl
@[simp] theorem Core.wr_fwTrialTick (r : Reg) (i v : Nat) : (c.wr r i v).fwTrialTick = c.fwTrialTick := rfl
@[simp] theorem Core.wr_thermtrip (r : Reg) (i v : Nat) : (c.wr r i v).thermtrip = c.thermtrip := rfl
@[simp] theorem Core.wr_tripTick (r : Reg) (i v : Nat) : (c.wr r i v).tripTick = c.tripTick := rfl
@[simp] theorem Core.wr_inReset (r : Reg) (i v : Nat) : (c.wr r i v).inReset = c.inReset := rfl
@[simp] theorem Core.wr_perstLow (r : Reg) (i v : Nat) : (c.wr r i v).perstLow = c.perstLow := rfl
@[simp] theorem Core.wr_pfailLow (r : Reg) (i v : Nat) : (c.wr r i v).pfailLow = c.pfailLow := rfl
@[simp] theorem Core.wr_savePend (r : Reg) (i v : Nat) : (c.wr r i v).savePend = c.savePend := rfl
@[simp] theorem Core.wr_saveReset (r : Reg) (i v : Nat) : (c.wr r i v).saveReset = c.saveReset := rfl
@[simp] theorem Core.wr_migDue (r : Reg) (i v : Nat) : (c.wr r i v).migDue = c.migDue := rfl
@[simp] theorem Core.wr_scrubDue (r : Reg) (i v : Nat) : (c.wr r i v).scrubDue = c.scrubDue := rfl

/-! ### wf -/

@[simp] theorem Core.wf_tick (f : Fld) (i v : Nat) : (c.wf f i v).tick = c.tick := rfl
@[simp] theorem Core.wf_ts (f : Fld) (i v : Nat) : (c.wf f i v).ts = c.ts := rfl
@[simp] theorem Core.wf_hold (f : Fld) (i v : Nat) : (c.wf f i v).hold = c.hold := rfl
@[simp] theorem Core.wf_resp (f : Fld) (i v : Nat) : (c.wf f i v).resp = c.resp := rfl
@[simp] theorem Core.wf_evtBuf (f : Fld) (i v : Nat) : (c.wf f i v).evtBuf = c.evtBuf := rfl
@[simp] theorem Core.wf_log (f : Fld) (i v : Nat) : (c.wf f i v).log = c.log := rfl
@[simp] theorem Core.wf_evq (f : Fld) (i v : Nat) : (c.wf f i v).evq = c.evq := rfl
@[simp] theorem Core.wf_cqh (f : Fld) (i v : Nat) : (c.wf f i v).cqh = c.cqh := rfl
@[simp] theorem Core.wf_out (f : Fld) (i v : Nat) : (c.wf f i v).out = c.out := rfl
@[simp] theorem Core.wf_scratch (f : Fld) (i v : Nat) : (c.wf f i v).scratch = c.scratch := rfl
@[simp] theorem Core.wf_dram (f : Fld) (i v : Nat) : (c.wf f i v).dram = c.dram := rfl
@[simp] theorem Core.wf_dramKey (f : Fld) (i v : Nat) : (c.wf f i v).dramKey = c.dramKey := rfl
@[simp] theorem Core.wf_nextKey (f : Fld) (i v : Nat) : (c.wf f i v).nextKey = c.nextKey := rfl
@[simp] theorem Core.wf_host (f : Fld) (i v : Nat) : (c.wf f i v).host = c.host := rfl
@[simp] theorem Core.wf_tiles (f : Fld) (i v : Nat) : (c.wf f i v).tiles = c.tiles := rfl
@[simp] theorem Core.wf_map (f : Fld) (i v : Nat) : (c.wf f i v).map = c.map := rfl
@[simp] theorem Core.wf_parts (f : Fld) (i v : Nat) : (c.wf f i v).parts = c.parts := rfl
@[simp] theorem Core.wf_items (f : Fld) (i v : Nat) : (c.wf f i v).items = c.items := rfl
@[simp] theorem Core.wf_recs (f : Fld) (i v : Nat) : (c.wf f i v).recs = c.recs := rfl
@[simp] theorem Core.wf_ops (f : Fld) (i v : Nat) : (c.wf f i v).ops = c.ops := rfl
@[simp] theorem Core.wf_txns (f : Fld) (i v : Nat) : (c.wf f i v).txns = c.txns := rfl
@[simp] theorem Core.wf_nextItem (f : Fld) (i v : Nat) : (c.wf f i v).nextItem = c.nextItem := rfl
@[simp] theorem Core.wf_nextOp (f : Fld) (i v : Nat) : (c.wf f i v).nextOp = c.nextOp := rfl
@[simp] theorem Core.wf_free (f : Fld) (i v : Nat) : (c.wf f i v).free = c.free := rfl
@[simp] theorem Core.wf_wipes (f : Fld) (i v : Nat) : (c.wf f i v).wipes = c.wipes := rfl
@[simp] theorem Core.wf_tileSwaps (f : Fld) (i v : Nat) : (c.wf f i v).tileSwaps = c.tileSwaps := rfl
@[simp] theorem Core.wf_bankSwaps (f : Fld) (i v : Nat) : (c.wf f i v).bankSwaps = c.bankSwaps := rfl
@[simp] theorem Core.wf_heldSwaps (f : Fld) (i v : Nat) : (c.wf f i v).heldSwaps = c.heldSwaps := rfl
@[simp] theorem Core.wf_slots (f : Fld) (i v : Nat) : (c.wf f i v).slots = c.slots := rfl
@[simp] theorem Core.wf_marks (f : Fld) (i v : Nat) : (c.wf f i v).marks = c.marks := rfl
@[simp] theorem Core.wf_dir (f : Fld) (i v : Nat) : (c.wf f i v).dir = c.dir := rfl
@[simp] theorem Core.wf_flash (f : Fld) (i v : Nat) : (c.wf f i v).flash = c.flash := rfl
@[simp] theorem Core.wf_fwHold (f : Fld) (i v : Nat) : (c.wf f i v).fwHold = c.fwHold := rfl
@[simp] theorem Core.wf_gated (f : Fld) (i v : Nat) : (c.wf f i v).gated = c.gated := rfl
@[simp] theorem Core.wf_lost (f : Fld) (i v : Nat) : (c.wf f i v).lost = c.lost := rfl
@[simp] theorem Core.wf_sqOff (f : Fld) (i v : Nat) : (c.wf f i v).sqOff = c.sqOff := rfl
@[simp] theorem Core.wf_bankReqs (f : Fld) (i v : Nat) : (c.wf f i v).bankReqs = c.bankReqs := rfl
@[simp] theorem Core.wf_touched (f : Fld) (i v : Nat) : (c.wf f i v).touched = c.touched := rfl
@[simp] theorem Core.wf_dests (f : Fld) (i v : Nat) : (c.wf f i v).dests = c.dests := rfl
@[simp] theorem Core.wf_rowAccess (f : Fld) (i v : Nat) : (c.wf f i v).rowAccess = c.rowAccess := rfl
@[simp] theorem Core.wf_outTiles (f : Fld) (i v : Nat) : (c.wf f i v).outTiles = c.outTiles := rfl
@[simp] theorem Core.wf_spareQ (f : Fld) (i v : Nat) : (c.wf f i v).spareQ = c.spareQ := rfl
@[simp] theorem Core.wf_nvcmds (f : Fld) (i v : Nat) : (c.wf f i v).nvcmds = c.nvcmds := rfl
@[simp] theorem Core.wf_nextNv (f : Fld) (i v : Nat) : (c.wf f i v).nextNv = c.nextNv := rfl
@[simp] theorem Core.wf_qps (f : Fld) (i v : Nat) : (c.wf f i v).qps = c.qps := rfl
@[simp] theorem Core.wf_txCredit (f : Fld) (i v : Nat) : (c.wf f i v).txCredit = c.txCredit := rfl
@[simp] theorem Core.wf_rxGrants (f : Fld) (i v : Nat) : (c.wf f i v).rxGrants = c.rxGrants := rfl
@[simp] theorem Core.wf_creditReqs (f : Fld) (i v : Nat) : (c.wf f i v).creditReqs = c.creditReqs := rfl
@[simp] theorem Core.wf_grantCells (f : Fld) (i v : Nat) : (c.wf f i v).grantCells = c.grantCells := rfl
@[simp] theorem Core.wf_regionCache (f : Fld) (i v : Nat) : (c.wf f i v).regionCache = c.regionCache := rfl
@[simp] theorem Core.wf_invals (f : Fld) (i v : Nat) : (c.wf f i v).invals = c.invals := rfl
@[simp] theorem Core.wf_nonces (f : Fld) (i v : Nat) : (c.wf f i v).nonces = c.nonces := rfl
@[simp] theorem Core.wf_draws (f : Fld) (i v : Nat) : (c.wf f i v).draws = c.draws := rfl
@[simp] theorem Core.wf_ide (f : Fld) (i v : Nat) : (c.wf f i v).ide = c.ide := rfl
@[simp] theorem Core.wf_epochCur (f : Fld) (i v : Nat) : (c.wf f i v).epochCur = c.epochCur := rfl
@[simp] theorem Core.wf_epochNext (f : Fld) (i v : Nat) : (c.wf f i v).epochNext = c.epochNext := rfl
@[simp] theorem Core.wf_epochPrev (f : Fld) (i v : Nat) : (c.wf f i v).epochPrev = c.epochPrev := rfl
@[simp] theorem Core.wf_secretCur (f : Fld) (i v : Nat) : (c.wf f i v).secretCur = c.secretCur := rfl
@[simp] theorem Core.wf_secretNext (f : Fld) (i v : Nat) : (c.wf f i v).secretNext = c.secretNext := rfl
@[simp] theorem Core.wf_secretPrev (f : Fld) (i v : Nat) : (c.wf f i v).secretPrev = c.secretPrev := rfl
@[simp] theorem Core.wf_switchTick (f : Fld) (i v : Nat) : (c.wf f i v).switchTick = c.switchTick := rfl
@[simp] theorem Core.wf_staged (f : Fld) (i v : Nat) : (c.wf f i v).staged = c.staged := rfl
@[simp] theorem Core.wf_stageBlks (f : Fld) (i v : Nat) : (c.wf f i v).stageBlks = c.stageBlks := rfl
@[simp] theorem Core.wf_slowReqs (f : Fld) (i v : Nat) : (c.wf f i v).slowReqs = c.slowReqs := rfl
@[simp] theorem Core.wf_remoteOut (f : Fld) (i v : Nat) : (c.wf f i v).remoteOut = c.remoteOut := rfl
@[simp] theorem Core.wf_failedCh (f : Fld) (i v : Nat) : (c.wf f i v).failedCh = c.failedCh := rfl
@[simp] theorem Core.wf_trainFails (f : Fld) (i v : Nat) : (c.wf f i v).trainFails = c.trainFails := rfl
@[simp] theorem Core.wf_corrTicks (f : Fld) (i v : Nat) : (c.wf f i v).corrTicks = c.corrTicks := rfl
@[simp] theorem Core.wf_swapDue (f : Fld) (i v : Nat) : (c.wf f i v).swapDue = c.swapDue := rfl
@[simp] theorem Core.wf_migLost (f : Fld) (i v : Nat) : (c.wf f i v).migLost = c.migLost := rfl
@[simp] theorem Core.wf_retireQ (f : Fld) (i v : Nat) : (c.wf f i v).retireQ = c.retireQ := rfl
@[simp] theorem Core.wf_colls (f : Fld) (i v : Nat) : (c.wf f i v).colls = c.colls := rfl
@[simp] theorem Core.wf_collSeq (f : Fld) (i v : Nat) : (c.wf f i v).collSeq = c.collSeq := rfl
@[simp] theorem Core.wf_colMembers (f : Fld) (i v : Nat) : (c.wf f i v).colMembers = c.colMembers := rfl
@[simp] theorem Core.wf_parked (f : Fld) (i v : Nat) : (c.wf f i v).parked = c.parked := rfl
@[simp] theorem Core.wf_collEnds (f : Fld) (i v : Nat) : (c.wf f i v).collEnds = c.collEnds := rfl
@[simp] theorem Core.wf_probe (f : Fld) (i v : Nat) : (c.wf f i v).probe = c.probe := rfl
@[simp] theorem Core.wf_probeGot (f : Fld) (i v : Nat) : (c.wf f i v).probeGot = c.probeGot := rfl
@[simp] theorem Core.wf_laneSwaps (f : Fld) (i v : Nat) : (c.wf f i v).laneSwaps = c.laneSwaps := rfl
@[simp] theorem Core.wf_txStamps (f : Fld) (i v : Nat) : (c.wf f i v).txStamps = c.txStamps := rfl
@[simp] theorem Core.wf_snapReq (f : Fld) (i v : Nat) : (c.wf f i v).snapReq = c.snapReq := rfl
@[simp] theorem Core.wf_slew (f : Fld) (i v : Nat) : (c.wf f i v).slew = c.slew := rfl
@[simp] theorem Core.wf_slewTick (f : Fld) (i v : Nat) : (c.wf f i v).slewTick = c.slewTick := rfl
@[simp] theorem Core.wf_tsSteps (f : Fld) (i v : Nat) : (c.wf f i v).tsSteps = c.tsSteps := rfl
@[simp] theorem Core.wf_clamps (f : Fld) (i v : Nat) : (c.wf f i v).clamps = c.clamps := rfl
@[simp] theorem Core.wf_fatalSeen (f : Fld) (i v : Nat) : (c.wf f i v).fatalSeen = c.fatalSeen := rfl
@[simp] theorem Core.wf_tripped (f : Fld) (i v : Nat) : (c.wf f i v).tripped = c.tripped := rfl
@[simp] theorem Core.wf_notch (f : Fld) (i v : Nat) : (c.wf f i v).notch = c.notch := rfl
@[simp] theorem Core.wf_duty (f : Fld) (i v : Nat) : (c.wf f i v).duty = c.duty := rfl
@[simp] theorem Core.wf_therm (f : Fld) (i v : Nat) : (c.wf f i v).therm = c.therm := rfl
@[simp] theorem Core.wf_metSteps (f : Fld) (i v : Nat) : (c.wf f i v).metSteps = c.metSteps := rfl
@[simp] theorem Core.wf_limitUntil (f : Fld) (i v : Nat) : (c.wf f i v).limitUntil = c.limitUntil := rfl
@[simp] theorem Core.wf_dutySlot (f : Fld) (i v : Nat) : (c.wf f i v).dutySlot = c.dutySlot := rfl
@[simp] theorem Core.wf_slackWait (f : Fld) (i v : Nat) : (c.wf f i v).slackWait = c.slackWait := rfl
@[simp] theorem Core.wf_slackAll (f : Fld) (i v : Nat) : (c.wf f i v).slackAll = c.slackAll := rfl
@[simp] theorem Core.wf_reports (f : Fld) (i v : Nat) : (c.wf f i v).reports = c.reports := rfl
@[simp] theorem Core.wf_raise_ (f : Fld) (i v : Nat) : (c.wf f i v).raise_ = c.raise_ := rfl
@[simp] theorem Core.wf_barSize (f : Fld) (i v : Nat) : (c.wf f i v).barSize = c.barSize := rfl
@[simp] theorem Core.wf_busMaster (f : Fld) (i v : Nat) : (c.wf f i v).busMaster = c.busMaster := rfl
@[simp] theorem Core.wf_qmem (f : Fld) (i v : Nat) : (c.wf f i v).qmem = c.qmem := rfl
@[simp] theorem Core.wf_beaconDown (f : Fld) (i v : Nat) : (c.wf f i v).beaconDown = c.beaconDown := rfl
@[simp] theorem Core.wf_fwForce (f : Fld) (i v : Nat) : (c.wf f i v).fwForce = c.fwForce := rfl
@[simp] theorem Core.wf_fwStart (f : Fld) (i v : Nat) : (c.wf f i v).fwStart = c.fwStart := rfl
@[simp] theorem Core.wf_fwHoldTick (f : Fld) (i v : Nat) : (c.wf f i v).fwHoldTick = c.fwHoldTick := rfl
@[simp] theorem Core.wf_fwTrialTick (f : Fld) (i v : Nat) : (c.wf f i v).fwTrialTick = c.fwTrialTick := rfl
@[simp] theorem Core.wf_thermtrip (f : Fld) (i v : Nat) : (c.wf f i v).thermtrip = c.thermtrip := rfl
@[simp] theorem Core.wf_tripTick (f : Fld) (i v : Nat) : (c.wf f i v).tripTick = c.tripTick := rfl
@[simp] theorem Core.wf_inReset (f : Fld) (i v : Nat) : (c.wf f i v).inReset = c.inReset := rfl
@[simp] theorem Core.wf_perstLow (f : Fld) (i v : Nat) : (c.wf f i v).perstLow = c.perstLow := rfl
@[simp] theorem Core.wf_pfailLow (f : Fld) (i v : Nat) : (c.wf f i v).pfailLow = c.pfailLow := rfl
@[simp] theorem Core.wf_savePend (f : Fld) (i v : Nat) : (c.wf f i v).savePend = c.savePend := rfl
@[simp] theorem Core.wf_saveReset (f : Fld) (i v : Nat) : (c.wf f i v).saveReset = c.saveReset := rfl
@[simp] theorem Core.wf_migDue (f : Fld) (i v : Nat) : (c.wf f i v).migDue = c.migDue := rfl
@[simp] theorem Core.wf_scrubDue (f : Fld) (i v : Nat) : (c.wf f i v).scrubDue = c.scrubDue := rfl

/-! ### count -/

@[simp] theorem Core.count_tick (f : Fld) (i n : Nat) : (c.count f i n).tick = c.tick := rfl
@[simp] theorem Core.count_ts (f : Fld) (i n : Nat) : (c.count f i n).ts = c.ts := rfl
@[simp] theorem Core.count_hold (f : Fld) (i n : Nat) : (c.count f i n).hold = c.hold := rfl
@[simp] theorem Core.count_resp (f : Fld) (i n : Nat) : (c.count f i n).resp = c.resp := rfl
@[simp] theorem Core.count_evtBuf (f : Fld) (i n : Nat) : (c.count f i n).evtBuf = c.evtBuf := rfl
@[simp] theorem Core.count_log (f : Fld) (i n : Nat) : (c.count f i n).log = c.log := rfl
@[simp] theorem Core.count_evq (f : Fld) (i n : Nat) : (c.count f i n).evq = c.evq := rfl
@[simp] theorem Core.count_cqh (f : Fld) (i n : Nat) : (c.count f i n).cqh = c.cqh := rfl
@[simp] theorem Core.count_out (f : Fld) (i n : Nat) : (c.count f i n).out = c.out := rfl
@[simp] theorem Core.count_scratch (f : Fld) (i n : Nat) : (c.count f i n).scratch = c.scratch := rfl
@[simp] theorem Core.count_dram (f : Fld) (i n : Nat) : (c.count f i n).dram = c.dram := rfl
@[simp] theorem Core.count_dramKey (f : Fld) (i n : Nat) : (c.count f i n).dramKey = c.dramKey := rfl
@[simp] theorem Core.count_nextKey (f : Fld) (i n : Nat) : (c.count f i n).nextKey = c.nextKey := rfl
@[simp] theorem Core.count_host (f : Fld) (i n : Nat) : (c.count f i n).host = c.host := rfl
@[simp] theorem Core.count_tiles (f : Fld) (i n : Nat) : (c.count f i n).tiles = c.tiles := rfl
@[simp] theorem Core.count_map (f : Fld) (i n : Nat) : (c.count f i n).map = c.map := rfl
@[simp] theorem Core.count_parts (f : Fld) (i n : Nat) : (c.count f i n).parts = c.parts := rfl
@[simp] theorem Core.count_items (f : Fld) (i n : Nat) : (c.count f i n).items = c.items := rfl
@[simp] theorem Core.count_recs (f : Fld) (i n : Nat) : (c.count f i n).recs = c.recs := rfl
@[simp] theorem Core.count_ops (f : Fld) (i n : Nat) : (c.count f i n).ops = c.ops := rfl
@[simp] theorem Core.count_txns (f : Fld) (i n : Nat) : (c.count f i n).txns = c.txns := rfl
@[simp] theorem Core.count_nextItem (f : Fld) (i n : Nat) : (c.count f i n).nextItem = c.nextItem := rfl
@[simp] theorem Core.count_nextOp (f : Fld) (i n : Nat) : (c.count f i n).nextOp = c.nextOp := rfl
@[simp] theorem Core.count_free (f : Fld) (i n : Nat) : (c.count f i n).free = c.free := rfl
@[simp] theorem Core.count_wipes (f : Fld) (i n : Nat) : (c.count f i n).wipes = c.wipes := rfl
@[simp] theorem Core.count_tileSwaps (f : Fld) (i n : Nat) : (c.count f i n).tileSwaps = c.tileSwaps := rfl
@[simp] theorem Core.count_bankSwaps (f : Fld) (i n : Nat) : (c.count f i n).bankSwaps = c.bankSwaps := rfl
@[simp] theorem Core.count_heldSwaps (f : Fld) (i n : Nat) : (c.count f i n).heldSwaps = c.heldSwaps := rfl
@[simp] theorem Core.count_slots (f : Fld) (i n : Nat) : (c.count f i n).slots = c.slots := rfl
@[simp] theorem Core.count_marks (f : Fld) (i n : Nat) : (c.count f i n).marks = c.marks := rfl
@[simp] theorem Core.count_dir (f : Fld) (i n : Nat) : (c.count f i n).dir = c.dir := rfl
@[simp] theorem Core.count_flash (f : Fld) (i n : Nat) : (c.count f i n).flash = c.flash := rfl
@[simp] theorem Core.count_fwHold (f : Fld) (i n : Nat) : (c.count f i n).fwHold = c.fwHold := rfl
@[simp] theorem Core.count_gated (f : Fld) (i n : Nat) : (c.count f i n).gated = c.gated := rfl
@[simp] theorem Core.count_lost (f : Fld) (i n : Nat) : (c.count f i n).lost = c.lost := rfl
@[simp] theorem Core.count_sqOff (f : Fld) (i n : Nat) : (c.count f i n).sqOff = c.sqOff := rfl
@[simp] theorem Core.count_bankReqs (f : Fld) (i n : Nat) : (c.count f i n).bankReqs = c.bankReqs := rfl
@[simp] theorem Core.count_touched (f : Fld) (i n : Nat) : (c.count f i n).touched = c.touched := rfl
@[simp] theorem Core.count_dests (f : Fld) (i n : Nat) : (c.count f i n).dests = c.dests := rfl
@[simp] theorem Core.count_rowAccess (f : Fld) (i n : Nat) : (c.count f i n).rowAccess = c.rowAccess := rfl
@[simp] theorem Core.count_outTiles (f : Fld) (i n : Nat) : (c.count f i n).outTiles = c.outTiles := rfl
@[simp] theorem Core.count_spareQ (f : Fld) (i n : Nat) : (c.count f i n).spareQ = c.spareQ := rfl
@[simp] theorem Core.count_nvcmds (f : Fld) (i n : Nat) : (c.count f i n).nvcmds = c.nvcmds := rfl
@[simp] theorem Core.count_nextNv (f : Fld) (i n : Nat) : (c.count f i n).nextNv = c.nextNv := rfl
@[simp] theorem Core.count_qps (f : Fld) (i n : Nat) : (c.count f i n).qps = c.qps := rfl
@[simp] theorem Core.count_txCredit (f : Fld) (i n : Nat) : (c.count f i n).txCredit = c.txCredit := rfl
@[simp] theorem Core.count_rxGrants (f : Fld) (i n : Nat) : (c.count f i n).rxGrants = c.rxGrants := rfl
@[simp] theorem Core.count_creditReqs (f : Fld) (i n : Nat) : (c.count f i n).creditReqs = c.creditReqs := rfl
@[simp] theorem Core.count_grantCells (f : Fld) (i n : Nat) : (c.count f i n).grantCells = c.grantCells := rfl
@[simp] theorem Core.count_regionCache (f : Fld) (i n : Nat) : (c.count f i n).regionCache = c.regionCache := rfl
@[simp] theorem Core.count_invals (f : Fld) (i n : Nat) : (c.count f i n).invals = c.invals := rfl
@[simp] theorem Core.count_nonces (f : Fld) (i n : Nat) : (c.count f i n).nonces = c.nonces := rfl
@[simp] theorem Core.count_draws (f : Fld) (i n : Nat) : (c.count f i n).draws = c.draws := rfl
@[simp] theorem Core.count_ide (f : Fld) (i n : Nat) : (c.count f i n).ide = c.ide := rfl
@[simp] theorem Core.count_epochCur (f : Fld) (i n : Nat) : (c.count f i n).epochCur = c.epochCur := rfl
@[simp] theorem Core.count_epochNext (f : Fld) (i n : Nat) : (c.count f i n).epochNext = c.epochNext := rfl
@[simp] theorem Core.count_epochPrev (f : Fld) (i n : Nat) : (c.count f i n).epochPrev = c.epochPrev := rfl
@[simp] theorem Core.count_secretCur (f : Fld) (i n : Nat) : (c.count f i n).secretCur = c.secretCur := rfl
@[simp] theorem Core.count_secretNext (f : Fld) (i n : Nat) : (c.count f i n).secretNext = c.secretNext := rfl
@[simp] theorem Core.count_secretPrev (f : Fld) (i n : Nat) : (c.count f i n).secretPrev = c.secretPrev := rfl
@[simp] theorem Core.count_switchTick (f : Fld) (i n : Nat) : (c.count f i n).switchTick = c.switchTick := rfl
@[simp] theorem Core.count_staged (f : Fld) (i n : Nat) : (c.count f i n).staged = c.staged := rfl
@[simp] theorem Core.count_stageBlks (f : Fld) (i n : Nat) : (c.count f i n).stageBlks = c.stageBlks := rfl
@[simp] theorem Core.count_slowReqs (f : Fld) (i n : Nat) : (c.count f i n).slowReqs = c.slowReqs := rfl
@[simp] theorem Core.count_remoteOut (f : Fld) (i n : Nat) : (c.count f i n).remoteOut = c.remoteOut := rfl
@[simp] theorem Core.count_failedCh (f : Fld) (i n : Nat) : (c.count f i n).failedCh = c.failedCh := rfl
@[simp] theorem Core.count_trainFails (f : Fld) (i n : Nat) : (c.count f i n).trainFails = c.trainFails := rfl
@[simp] theorem Core.count_corrTicks (f : Fld) (i n : Nat) : (c.count f i n).corrTicks = c.corrTicks := rfl
@[simp] theorem Core.count_swapDue (f : Fld) (i n : Nat) : (c.count f i n).swapDue = c.swapDue := rfl
@[simp] theorem Core.count_migLost (f : Fld) (i n : Nat) : (c.count f i n).migLost = c.migLost := rfl
@[simp] theorem Core.count_retireQ (f : Fld) (i n : Nat) : (c.count f i n).retireQ = c.retireQ := rfl
@[simp] theorem Core.count_colls (f : Fld) (i n : Nat) : (c.count f i n).colls = c.colls := rfl
@[simp] theorem Core.count_collSeq (f : Fld) (i n : Nat) : (c.count f i n).collSeq = c.collSeq := rfl
@[simp] theorem Core.count_colMembers (f : Fld) (i n : Nat) : (c.count f i n).colMembers = c.colMembers := rfl
@[simp] theorem Core.count_parked (f : Fld) (i n : Nat) : (c.count f i n).parked = c.parked := rfl
@[simp] theorem Core.count_collEnds (f : Fld) (i n : Nat) : (c.count f i n).collEnds = c.collEnds := rfl
@[simp] theorem Core.count_probe (f : Fld) (i n : Nat) : (c.count f i n).probe = c.probe := rfl
@[simp] theorem Core.count_probeGot (f : Fld) (i n : Nat) : (c.count f i n).probeGot = c.probeGot := rfl
@[simp] theorem Core.count_laneSwaps (f : Fld) (i n : Nat) : (c.count f i n).laneSwaps = c.laneSwaps := rfl
@[simp] theorem Core.count_txStamps (f : Fld) (i n : Nat) : (c.count f i n).txStamps = c.txStamps := rfl
@[simp] theorem Core.count_snapReq (f : Fld) (i n : Nat) : (c.count f i n).snapReq = c.snapReq := rfl
@[simp] theorem Core.count_slew (f : Fld) (i n : Nat) : (c.count f i n).slew = c.slew := rfl
@[simp] theorem Core.count_slewTick (f : Fld) (i n : Nat) : (c.count f i n).slewTick = c.slewTick := rfl
@[simp] theorem Core.count_tsSteps (f : Fld) (i n : Nat) : (c.count f i n).tsSteps = c.tsSteps := rfl
@[simp] theorem Core.count_clamps (f : Fld) (i n : Nat) : (c.count f i n).clamps = c.clamps := rfl
@[simp] theorem Core.count_fatalSeen (f : Fld) (i n : Nat) : (c.count f i n).fatalSeen = c.fatalSeen := rfl
@[simp] theorem Core.count_tripped (f : Fld) (i n : Nat) : (c.count f i n).tripped = c.tripped := rfl
@[simp] theorem Core.count_notch (f : Fld) (i n : Nat) : (c.count f i n).notch = c.notch := rfl
@[simp] theorem Core.count_duty (f : Fld) (i n : Nat) : (c.count f i n).duty = c.duty := rfl
@[simp] theorem Core.count_therm (f : Fld) (i n : Nat) : (c.count f i n).therm = c.therm := rfl
@[simp] theorem Core.count_metSteps (f : Fld) (i n : Nat) : (c.count f i n).metSteps = c.metSteps := rfl
@[simp] theorem Core.count_limitUntil (f : Fld) (i n : Nat) : (c.count f i n).limitUntil = c.limitUntil := rfl
@[simp] theorem Core.count_dutySlot (f : Fld) (i n : Nat) : (c.count f i n).dutySlot = c.dutySlot := rfl
@[simp] theorem Core.count_slackWait (f : Fld) (i n : Nat) : (c.count f i n).slackWait = c.slackWait := rfl
@[simp] theorem Core.count_slackAll (f : Fld) (i n : Nat) : (c.count f i n).slackAll = c.slackAll := rfl
@[simp] theorem Core.count_reports (f : Fld) (i n : Nat) : (c.count f i n).reports = c.reports := rfl
@[simp] theorem Core.count_raise_ (f : Fld) (i n : Nat) : (c.count f i n).raise_ = c.raise_ := rfl
@[simp] theorem Core.count_barSize (f : Fld) (i n : Nat) : (c.count f i n).barSize = c.barSize := rfl
@[simp] theorem Core.count_busMaster (f : Fld) (i n : Nat) : (c.count f i n).busMaster = c.busMaster := rfl
@[simp] theorem Core.count_qmem (f : Fld) (i n : Nat) : (c.count f i n).qmem = c.qmem := rfl
@[simp] theorem Core.count_beaconDown (f : Fld) (i n : Nat) : (c.count f i n).beaconDown = c.beaconDown := rfl
@[simp] theorem Core.count_fwForce (f : Fld) (i n : Nat) : (c.count f i n).fwForce = c.fwForce := rfl
@[simp] theorem Core.count_fwStart (f : Fld) (i n : Nat) : (c.count f i n).fwStart = c.fwStart := rfl
@[simp] theorem Core.count_fwHoldTick (f : Fld) (i n : Nat) : (c.count f i n).fwHoldTick = c.fwHoldTick := rfl
@[simp] theorem Core.count_fwTrialTick (f : Fld) (i n : Nat) : (c.count f i n).fwTrialTick = c.fwTrialTick := rfl
@[simp] theorem Core.count_thermtrip (f : Fld) (i n : Nat) : (c.count f i n).thermtrip = c.thermtrip := rfl
@[simp] theorem Core.count_tripTick (f : Fld) (i n : Nat) : (c.count f i n).tripTick = c.tripTick := rfl
@[simp] theorem Core.count_inReset (f : Fld) (i n : Nat) : (c.count f i n).inReset = c.inReset := rfl
@[simp] theorem Core.count_perstLow (f : Fld) (i n : Nat) : (c.count f i n).perstLow = c.perstLow := rfl
@[simp] theorem Core.count_pfailLow (f : Fld) (i n : Nat) : (c.count f i n).pfailLow = c.pfailLow := rfl
@[simp] theorem Core.count_savePend (f : Fld) (i n : Nat) : (c.count f i n).savePend = c.savePend := rfl
@[simp] theorem Core.count_saveReset (f : Fld) (i n : Nat) : (c.count f i n).saveReset = c.saveReset := rfl
@[simp] theorem Core.count_migDue (f : Fld) (i n : Nat) : (c.count f i n).migDue = c.migDue := rfl
@[simp] theorem Core.count_scrubDue (f : Fld) (i n : Nat) : (c.count f i n).scrubDue = c.scrubDue := rfl

/-! ### setTile -/

@[simp] theorem Core.setTile_tick (t : Nat) (x : Tile) : (c.setTile t x).tick = c.tick := rfl
@[simp] theorem Core.setTile_ts (t : Nat) (x : Tile) : (c.setTile t x).ts = c.ts := rfl
@[simp] theorem Core.setTile_regs (t : Nat) (x : Tile) : (c.setTile t x).regs = c.regs := rfl
@[simp] theorem Core.setTile_hold (t : Nat) (x : Tile) : (c.setTile t x).hold = c.hold := rfl
@[simp] theorem Core.setTile_resp (t : Nat) (x : Tile) : (c.setTile t x).resp = c.resp := rfl
@[simp] theorem Core.setTile_evtBuf (t : Nat) (x : Tile) : (c.setTile t x).evtBuf = c.evtBuf := rfl
@[simp] theorem Core.setTile_log (t : Nat) (x : Tile) : (c.setTile t x).log = c.log := rfl
@[simp] theorem Core.setTile_evq (t : Nat) (x : Tile) : (c.setTile t x).evq = c.evq := rfl
@[simp] theorem Core.setTile_cqh (t : Nat) (x : Tile) : (c.setTile t x).cqh = c.cqh := rfl
@[simp] theorem Core.setTile_out (t : Nat) (x : Tile) : (c.setTile t x).out = c.out := rfl
@[simp] theorem Core.setTile_scratch (t : Nat) (x : Tile) : (c.setTile t x).scratch = c.scratch := rfl
@[simp] theorem Core.setTile_dram (t : Nat) (x : Tile) : (c.setTile t x).dram = c.dram := rfl
@[simp] theorem Core.setTile_dramKey (t : Nat) (x : Tile) : (c.setTile t x).dramKey = c.dramKey := rfl
@[simp] theorem Core.setTile_nextKey (t : Nat) (x : Tile) : (c.setTile t x).nextKey = c.nextKey := rfl
@[simp] theorem Core.setTile_host (t : Nat) (x : Tile) : (c.setTile t x).host = c.host := rfl
@[simp] theorem Core.setTile_map (t : Nat) (x : Tile) : (c.setTile t x).map = c.map := rfl
@[simp] theorem Core.setTile_parts (t : Nat) (x : Tile) : (c.setTile t x).parts = c.parts := rfl
@[simp] theorem Core.setTile_items (t : Nat) (x : Tile) : (c.setTile t x).items = c.items := rfl
@[simp] theorem Core.setTile_recs (t : Nat) (x : Tile) : (c.setTile t x).recs = c.recs := rfl
@[simp] theorem Core.setTile_ops (t : Nat) (x : Tile) : (c.setTile t x).ops = c.ops := rfl
@[simp] theorem Core.setTile_txns (t : Nat) (x : Tile) : (c.setTile t x).txns = c.txns := rfl
@[simp] theorem Core.setTile_nextItem (t : Nat) (x : Tile) : (c.setTile t x).nextItem = c.nextItem := rfl
@[simp] theorem Core.setTile_nextOp (t : Nat) (x : Tile) : (c.setTile t x).nextOp = c.nextOp := rfl
@[simp] theorem Core.setTile_free (t : Nat) (x : Tile) : (c.setTile t x).free = c.free := rfl
@[simp] theorem Core.setTile_wipes (t : Nat) (x : Tile) : (c.setTile t x).wipes = c.wipes := rfl
@[simp] theorem Core.setTile_tileSwaps (t : Nat) (x : Tile) : (c.setTile t x).tileSwaps = c.tileSwaps := rfl
@[simp] theorem Core.setTile_bankSwaps (t : Nat) (x : Tile) : (c.setTile t x).bankSwaps = c.bankSwaps := rfl
@[simp] theorem Core.setTile_heldSwaps (t : Nat) (x : Tile) : (c.setTile t x).heldSwaps = c.heldSwaps := rfl
@[simp] theorem Core.setTile_slots (t : Nat) (x : Tile) : (c.setTile t x).slots = c.slots := rfl
@[simp] theorem Core.setTile_marks (t : Nat) (x : Tile) : (c.setTile t x).marks = c.marks := rfl
@[simp] theorem Core.setTile_dir (t : Nat) (x : Tile) : (c.setTile t x).dir = c.dir := rfl
@[simp] theorem Core.setTile_flash (t : Nat) (x : Tile) : (c.setTile t x).flash = c.flash := rfl
@[simp] theorem Core.setTile_fwHold (t : Nat) (x : Tile) : (c.setTile t x).fwHold = c.fwHold := rfl
@[simp] theorem Core.setTile_gated (t : Nat) (x : Tile) : (c.setTile t x).gated = c.gated := rfl
@[simp] theorem Core.setTile_lost (t : Nat) (x : Tile) : (c.setTile t x).lost = c.lost := rfl
@[simp] theorem Core.setTile_sqOff (t : Nat) (x : Tile) : (c.setTile t x).sqOff = c.sqOff := rfl
@[simp] theorem Core.setTile_bankReqs (t : Nat) (x : Tile) : (c.setTile t x).bankReqs = c.bankReqs := rfl
@[simp] theorem Core.setTile_touched (t : Nat) (x : Tile) : (c.setTile t x).touched = c.touched := rfl
@[simp] theorem Core.setTile_dests (t : Nat) (x : Tile) : (c.setTile t x).dests = c.dests := rfl
@[simp] theorem Core.setTile_rowAccess (t : Nat) (x : Tile) : (c.setTile t x).rowAccess = c.rowAccess := rfl
@[simp] theorem Core.setTile_outTiles (t : Nat) (x : Tile) : (c.setTile t x).outTiles = c.outTiles := rfl
@[simp] theorem Core.setTile_spareQ (t : Nat) (x : Tile) : (c.setTile t x).spareQ = c.spareQ := rfl
@[simp] theorem Core.setTile_nvcmds (t : Nat) (x : Tile) : (c.setTile t x).nvcmds = c.nvcmds := rfl
@[simp] theorem Core.setTile_nextNv (t : Nat) (x : Tile) : (c.setTile t x).nextNv = c.nextNv := rfl
@[simp] theorem Core.setTile_qps (t : Nat) (x : Tile) : (c.setTile t x).qps = c.qps := rfl
@[simp] theorem Core.setTile_txCredit (t : Nat) (x : Tile) : (c.setTile t x).txCredit = c.txCredit := rfl
@[simp] theorem Core.setTile_rxGrants (t : Nat) (x : Tile) : (c.setTile t x).rxGrants = c.rxGrants := rfl
@[simp] theorem Core.setTile_creditReqs (t : Nat) (x : Tile) : (c.setTile t x).creditReqs = c.creditReqs := rfl
@[simp] theorem Core.setTile_grantCells (t : Nat) (x : Tile) : (c.setTile t x).grantCells = c.grantCells := rfl
@[simp] theorem Core.setTile_regionCache (t : Nat) (x : Tile) : (c.setTile t x).regionCache = c.regionCache := rfl
@[simp] theorem Core.setTile_invals (t : Nat) (x : Tile) : (c.setTile t x).invals = c.invals := rfl
@[simp] theorem Core.setTile_nonces (t : Nat) (x : Tile) : (c.setTile t x).nonces = c.nonces := rfl
@[simp] theorem Core.setTile_draws (t : Nat) (x : Tile) : (c.setTile t x).draws = c.draws := rfl
@[simp] theorem Core.setTile_ide (t : Nat) (x : Tile) : (c.setTile t x).ide = c.ide := rfl
@[simp] theorem Core.setTile_epochCur (t : Nat) (x : Tile) : (c.setTile t x).epochCur = c.epochCur := rfl
@[simp] theorem Core.setTile_epochNext (t : Nat) (x : Tile) : (c.setTile t x).epochNext = c.epochNext := rfl
@[simp] theorem Core.setTile_epochPrev (t : Nat) (x : Tile) : (c.setTile t x).epochPrev = c.epochPrev := rfl
@[simp] theorem Core.setTile_secretCur (t : Nat) (x : Tile) : (c.setTile t x).secretCur = c.secretCur := rfl
@[simp] theorem Core.setTile_secretNext (t : Nat) (x : Tile) : (c.setTile t x).secretNext = c.secretNext := rfl
@[simp] theorem Core.setTile_secretPrev (t : Nat) (x : Tile) : (c.setTile t x).secretPrev = c.secretPrev := rfl
@[simp] theorem Core.setTile_switchTick (t : Nat) (x : Tile) : (c.setTile t x).switchTick = c.switchTick := rfl
@[simp] theorem Core.setTile_staged (t : Nat) (x : Tile) : (c.setTile t x).staged = c.staged := rfl
@[simp] theorem Core.setTile_stageBlks (t : Nat) (x : Tile) : (c.setTile t x).stageBlks = c.stageBlks := rfl
@[simp] theorem Core.setTile_slowReqs (t : Nat) (x : Tile) : (c.setTile t x).slowReqs = c.slowReqs := rfl
@[simp] theorem Core.setTile_remoteOut (t : Nat) (x : Tile) : (c.setTile t x).remoteOut = c.remoteOut := rfl
@[simp] theorem Core.setTile_failedCh (t : Nat) (x : Tile) : (c.setTile t x).failedCh = c.failedCh := rfl
@[simp] theorem Core.setTile_trainFails (t : Nat) (x : Tile) : (c.setTile t x).trainFails = c.trainFails := rfl
@[simp] theorem Core.setTile_corrTicks (t : Nat) (x : Tile) : (c.setTile t x).corrTicks = c.corrTicks := rfl
@[simp] theorem Core.setTile_swapDue (t : Nat) (x : Tile) : (c.setTile t x).swapDue = c.swapDue := rfl
@[simp] theorem Core.setTile_migLost (t : Nat) (x : Tile) : (c.setTile t x).migLost = c.migLost := rfl
@[simp] theorem Core.setTile_retireQ (t : Nat) (x : Tile) : (c.setTile t x).retireQ = c.retireQ := rfl
@[simp] theorem Core.setTile_colls (t : Nat) (x : Tile) : (c.setTile t x).colls = c.colls := rfl
@[simp] theorem Core.setTile_collSeq (t : Nat) (x : Tile) : (c.setTile t x).collSeq = c.collSeq := rfl
@[simp] theorem Core.setTile_colMembers (t : Nat) (x : Tile) : (c.setTile t x).colMembers = c.colMembers := rfl
@[simp] theorem Core.setTile_parked (t : Nat) (x : Tile) : (c.setTile t x).parked = c.parked := rfl
@[simp] theorem Core.setTile_collEnds (t : Nat) (x : Tile) : (c.setTile t x).collEnds = c.collEnds := rfl
@[simp] theorem Core.setTile_probe (t : Nat) (x : Tile) : (c.setTile t x).probe = c.probe := rfl
@[simp] theorem Core.setTile_probeGot (t : Nat) (x : Tile) : (c.setTile t x).probeGot = c.probeGot := rfl
@[simp] theorem Core.setTile_laneSwaps (t : Nat) (x : Tile) : (c.setTile t x).laneSwaps = c.laneSwaps := rfl
@[simp] theorem Core.setTile_txStamps (t : Nat) (x : Tile) : (c.setTile t x).txStamps = c.txStamps := rfl
@[simp] theorem Core.setTile_snapReq (t : Nat) (x : Tile) : (c.setTile t x).snapReq = c.snapReq := rfl
@[simp] theorem Core.setTile_slew (t : Nat) (x : Tile) : (c.setTile t x).slew = c.slew := rfl
@[simp] theorem Core.setTile_slewTick (t : Nat) (x : Tile) : (c.setTile t x).slewTick = c.slewTick := rfl
@[simp] theorem Core.setTile_tsSteps (t : Nat) (x : Tile) : (c.setTile t x).tsSteps = c.tsSteps := rfl
@[simp] theorem Core.setTile_clamps (t : Nat) (x : Tile) : (c.setTile t x).clamps = c.clamps := rfl
@[simp] theorem Core.setTile_fatalSeen (t : Nat) (x : Tile) : (c.setTile t x).fatalSeen = c.fatalSeen := rfl
@[simp] theorem Core.setTile_tripped (t : Nat) (x : Tile) : (c.setTile t x).tripped = c.tripped := rfl
@[simp] theorem Core.setTile_notch (t : Nat) (x : Tile) : (c.setTile t x).notch = c.notch := rfl
@[simp] theorem Core.setTile_duty (t : Nat) (x : Tile) : (c.setTile t x).duty = c.duty := rfl
@[simp] theorem Core.setTile_therm (t : Nat) (x : Tile) : (c.setTile t x).therm = c.therm := rfl
@[simp] theorem Core.setTile_metSteps (t : Nat) (x : Tile) : (c.setTile t x).metSteps = c.metSteps := rfl
@[simp] theorem Core.setTile_limitUntil (t : Nat) (x : Tile) : (c.setTile t x).limitUntil = c.limitUntil := rfl
@[simp] theorem Core.setTile_dutySlot (t : Nat) (x : Tile) : (c.setTile t x).dutySlot = c.dutySlot := rfl
@[simp] theorem Core.setTile_slackWait (t : Nat) (x : Tile) : (c.setTile t x).slackWait = c.slackWait := rfl
@[simp] theorem Core.setTile_slackAll (t : Nat) (x : Tile) : (c.setTile t x).slackAll = c.slackAll := rfl
@[simp] theorem Core.setTile_reports (t : Nat) (x : Tile) : (c.setTile t x).reports = c.reports := rfl
@[simp] theorem Core.setTile_raise_ (t : Nat) (x : Tile) : (c.setTile t x).raise_ = c.raise_ := rfl
@[simp] theorem Core.setTile_barSize (t : Nat) (x : Tile) : (c.setTile t x).barSize = c.barSize := rfl
@[simp] theorem Core.setTile_busMaster (t : Nat) (x : Tile) : (c.setTile t x).busMaster = c.busMaster := rfl
@[simp] theorem Core.setTile_qmem (t : Nat) (x : Tile) : (c.setTile t x).qmem = c.qmem := rfl
@[simp] theorem Core.setTile_beaconDown (t : Nat) (x : Tile) : (c.setTile t x).beaconDown = c.beaconDown := rfl
@[simp] theorem Core.setTile_fwForce (t : Nat) (x : Tile) : (c.setTile t x).fwForce = c.fwForce := rfl
@[simp] theorem Core.setTile_fwStart (t : Nat) (x : Tile) : (c.setTile t x).fwStart = c.fwStart := rfl
@[simp] theorem Core.setTile_fwHoldTick (t : Nat) (x : Tile) : (c.setTile t x).fwHoldTick = c.fwHoldTick := rfl
@[simp] theorem Core.setTile_fwTrialTick (t : Nat) (x : Tile) : (c.setTile t x).fwTrialTick = c.fwTrialTick := rfl
@[simp] theorem Core.setTile_thermtrip (t : Nat) (x : Tile) : (c.setTile t x).thermtrip = c.thermtrip := rfl
@[simp] theorem Core.setTile_tripTick (t : Nat) (x : Tile) : (c.setTile t x).tripTick = c.tripTick := rfl
@[simp] theorem Core.setTile_inReset (t : Nat) (x : Tile) : (c.setTile t x).inReset = c.inReset := rfl
@[simp] theorem Core.setTile_perstLow (t : Nat) (x : Tile) : (c.setTile t x).perstLow = c.perstLow := rfl
@[simp] theorem Core.setTile_pfailLow (t : Nat) (x : Tile) : (c.setTile t x).pfailLow = c.pfailLow := rfl
@[simp] theorem Core.setTile_savePend (t : Nat) (x : Tile) : (c.setTile t x).savePend = c.savePend := rfl
@[simp] theorem Core.setTile_saveReset (t : Nat) (x : Tile) : (c.setTile t x).saveReset = c.saveReset := rfl
@[simp] theorem Core.setTile_migDue (t : Nat) (x : Tile) : (c.setTile t x).migDue = c.migDue := rfl
@[simp] theorem Core.setTile_scrubDue (t : Nat) (x : Tile) : (c.setTile t x).scrubDue = c.scrubDue := rfl

/-! ### setPart -/

@[simp] theorem Core.setPart_tick (p : Nat) (x : Part) : (c.setPart p x).tick = c.tick := rfl
@[simp] theorem Core.setPart_ts (p : Nat) (x : Part) : (c.setPart p x).ts = c.ts := rfl
@[simp] theorem Core.setPart_regs (p : Nat) (x : Part) : (c.setPart p x).regs = c.regs := rfl
@[simp] theorem Core.setPart_hold (p : Nat) (x : Part) : (c.setPart p x).hold = c.hold := rfl
@[simp] theorem Core.setPart_resp (p : Nat) (x : Part) : (c.setPart p x).resp = c.resp := rfl
@[simp] theorem Core.setPart_evtBuf (p : Nat) (x : Part) : (c.setPart p x).evtBuf = c.evtBuf := rfl
@[simp] theorem Core.setPart_log (p : Nat) (x : Part) : (c.setPart p x).log = c.log := rfl
@[simp] theorem Core.setPart_evq (p : Nat) (x : Part) : (c.setPart p x).evq = c.evq := rfl
@[simp] theorem Core.setPart_cqh (p : Nat) (x : Part) : (c.setPart p x).cqh = c.cqh := rfl
@[simp] theorem Core.setPart_out (p : Nat) (x : Part) : (c.setPart p x).out = c.out := rfl
@[simp] theorem Core.setPart_scratch (p : Nat) (x : Part) : (c.setPart p x).scratch = c.scratch := rfl
@[simp] theorem Core.setPart_dram (p : Nat) (x : Part) : (c.setPart p x).dram = c.dram := rfl
@[simp] theorem Core.setPart_dramKey (p : Nat) (x : Part) : (c.setPart p x).dramKey = c.dramKey := rfl
@[simp] theorem Core.setPart_nextKey (p : Nat) (x : Part) : (c.setPart p x).nextKey = c.nextKey := rfl
@[simp] theorem Core.setPart_host (p : Nat) (x : Part) : (c.setPart p x).host = c.host := rfl
@[simp] theorem Core.setPart_tiles (p : Nat) (x : Part) : (c.setPart p x).tiles = c.tiles := rfl
@[simp] theorem Core.setPart_map (p : Nat) (x : Part) : (c.setPart p x).map = c.map := rfl
@[simp] theorem Core.setPart_items (p : Nat) (x : Part) : (c.setPart p x).items = c.items := rfl
@[simp] theorem Core.setPart_recs (p : Nat) (x : Part) : (c.setPart p x).recs = c.recs := rfl
@[simp] theorem Core.setPart_ops (p : Nat) (x : Part) : (c.setPart p x).ops = c.ops := rfl
@[simp] theorem Core.setPart_txns (p : Nat) (x : Part) : (c.setPart p x).txns = c.txns := rfl
@[simp] theorem Core.setPart_nextItem (p : Nat) (x : Part) : (c.setPart p x).nextItem = c.nextItem := rfl
@[simp] theorem Core.setPart_nextOp (p : Nat) (x : Part) : (c.setPart p x).nextOp = c.nextOp := rfl
@[simp] theorem Core.setPart_free (p : Nat) (x : Part) : (c.setPart p x).free = c.free := rfl
@[simp] theorem Core.setPart_wipes (p : Nat) (x : Part) : (c.setPart p x).wipes = c.wipes := rfl
@[simp] theorem Core.setPart_tileSwaps (p : Nat) (x : Part) : (c.setPart p x).tileSwaps = c.tileSwaps := rfl
@[simp] theorem Core.setPart_bankSwaps (p : Nat) (x : Part) : (c.setPart p x).bankSwaps = c.bankSwaps := rfl
@[simp] theorem Core.setPart_heldSwaps (p : Nat) (x : Part) : (c.setPart p x).heldSwaps = c.heldSwaps := rfl
@[simp] theorem Core.setPart_slots (p : Nat) (x : Part) : (c.setPart p x).slots = c.slots := rfl
@[simp] theorem Core.setPart_marks (p : Nat) (x : Part) : (c.setPart p x).marks = c.marks := rfl
@[simp] theorem Core.setPart_dir (p : Nat) (x : Part) : (c.setPart p x).dir = c.dir := rfl
@[simp] theorem Core.setPart_flash (p : Nat) (x : Part) : (c.setPart p x).flash = c.flash := rfl
@[simp] theorem Core.setPart_fwHold (p : Nat) (x : Part) : (c.setPart p x).fwHold = c.fwHold := rfl
@[simp] theorem Core.setPart_gated (p : Nat) (x : Part) : (c.setPart p x).gated = c.gated := rfl
@[simp] theorem Core.setPart_lost (p : Nat) (x : Part) : (c.setPart p x).lost = c.lost := rfl
@[simp] theorem Core.setPart_sqOff (p : Nat) (x : Part) : (c.setPart p x).sqOff = c.sqOff := rfl
@[simp] theorem Core.setPart_bankReqs (p : Nat) (x : Part) : (c.setPart p x).bankReqs = c.bankReqs := rfl
@[simp] theorem Core.setPart_touched (p : Nat) (x : Part) : (c.setPart p x).touched = c.touched := rfl
@[simp] theorem Core.setPart_dests (p : Nat) (x : Part) : (c.setPart p x).dests = c.dests := rfl
@[simp] theorem Core.setPart_rowAccess (p : Nat) (x : Part) : (c.setPart p x).rowAccess = c.rowAccess := rfl
@[simp] theorem Core.setPart_outTiles (p : Nat) (x : Part) : (c.setPart p x).outTiles = c.outTiles := rfl
@[simp] theorem Core.setPart_spareQ (p : Nat) (x : Part) : (c.setPart p x).spareQ = c.spareQ := rfl
@[simp] theorem Core.setPart_nvcmds (p : Nat) (x : Part) : (c.setPart p x).nvcmds = c.nvcmds := rfl
@[simp] theorem Core.setPart_nextNv (p : Nat) (x : Part) : (c.setPart p x).nextNv = c.nextNv := rfl
@[simp] theorem Core.setPart_qps (p : Nat) (x : Part) : (c.setPart p x).qps = c.qps := rfl
@[simp] theorem Core.setPart_txCredit (p : Nat) (x : Part) : (c.setPart p x).txCredit = c.txCredit := rfl
@[simp] theorem Core.setPart_rxGrants (p : Nat) (x : Part) : (c.setPart p x).rxGrants = c.rxGrants := rfl
@[simp] theorem Core.setPart_creditReqs (p : Nat) (x : Part) : (c.setPart p x).creditReqs = c.creditReqs := rfl
@[simp] theorem Core.setPart_grantCells (p : Nat) (x : Part) : (c.setPart p x).grantCells = c.grantCells := rfl
@[simp] theorem Core.setPart_regionCache (p : Nat) (x : Part) : (c.setPart p x).regionCache = c.regionCache := rfl
@[simp] theorem Core.setPart_invals (p : Nat) (x : Part) : (c.setPart p x).invals = c.invals := rfl
@[simp] theorem Core.setPart_nonces (p : Nat) (x : Part) : (c.setPart p x).nonces = c.nonces := rfl
@[simp] theorem Core.setPart_draws (p : Nat) (x : Part) : (c.setPart p x).draws = c.draws := rfl
@[simp] theorem Core.setPart_ide (p : Nat) (x : Part) : (c.setPart p x).ide = c.ide := rfl
@[simp] theorem Core.setPart_epochCur (p : Nat) (x : Part) : (c.setPart p x).epochCur = c.epochCur := rfl
@[simp] theorem Core.setPart_epochNext (p : Nat) (x : Part) : (c.setPart p x).epochNext = c.epochNext := rfl
@[simp] theorem Core.setPart_epochPrev (p : Nat) (x : Part) : (c.setPart p x).epochPrev = c.epochPrev := rfl
@[simp] theorem Core.setPart_secretCur (p : Nat) (x : Part) : (c.setPart p x).secretCur = c.secretCur := rfl
@[simp] theorem Core.setPart_secretNext (p : Nat) (x : Part) : (c.setPart p x).secretNext = c.secretNext := rfl
@[simp] theorem Core.setPart_secretPrev (p : Nat) (x : Part) : (c.setPart p x).secretPrev = c.secretPrev := rfl
@[simp] theorem Core.setPart_switchTick (p : Nat) (x : Part) : (c.setPart p x).switchTick = c.switchTick := rfl
@[simp] theorem Core.setPart_staged (p : Nat) (x : Part) : (c.setPart p x).staged = c.staged := rfl
@[simp] theorem Core.setPart_stageBlks (p : Nat) (x : Part) : (c.setPart p x).stageBlks = c.stageBlks := rfl
@[simp] theorem Core.setPart_slowReqs (p : Nat) (x : Part) : (c.setPart p x).slowReqs = c.slowReqs := rfl
@[simp] theorem Core.setPart_remoteOut (p : Nat) (x : Part) : (c.setPart p x).remoteOut = c.remoteOut := rfl
@[simp] theorem Core.setPart_failedCh (p : Nat) (x : Part) : (c.setPart p x).failedCh = c.failedCh := rfl
@[simp] theorem Core.setPart_trainFails (p : Nat) (x : Part) : (c.setPart p x).trainFails = c.trainFails := rfl
@[simp] theorem Core.setPart_corrTicks (p : Nat) (x : Part) : (c.setPart p x).corrTicks = c.corrTicks := rfl
@[simp] theorem Core.setPart_swapDue (p : Nat) (x : Part) : (c.setPart p x).swapDue = c.swapDue := rfl
@[simp] theorem Core.setPart_migLost (p : Nat) (x : Part) : (c.setPart p x).migLost = c.migLost := rfl
@[simp] theorem Core.setPart_retireQ (p : Nat) (x : Part) : (c.setPart p x).retireQ = c.retireQ := rfl
@[simp] theorem Core.setPart_colls (p : Nat) (x : Part) : (c.setPart p x).colls = c.colls := rfl
@[simp] theorem Core.setPart_collSeq (p : Nat) (x : Part) : (c.setPart p x).collSeq = c.collSeq := rfl
@[simp] theorem Core.setPart_colMembers (p : Nat) (x : Part) : (c.setPart p x).colMembers = c.colMembers := rfl
@[simp] theorem Core.setPart_parked (p : Nat) (x : Part) : (c.setPart p x).parked = c.parked := rfl
@[simp] theorem Core.setPart_collEnds (p : Nat) (x : Part) : (c.setPart p x).collEnds = c.collEnds := rfl
@[simp] theorem Core.setPart_probe (p : Nat) (x : Part) : (c.setPart p x).probe = c.probe := rfl
@[simp] theorem Core.setPart_probeGot (p : Nat) (x : Part) : (c.setPart p x).probeGot = c.probeGot := rfl
@[simp] theorem Core.setPart_laneSwaps (p : Nat) (x : Part) : (c.setPart p x).laneSwaps = c.laneSwaps := rfl
@[simp] theorem Core.setPart_txStamps (p : Nat) (x : Part) : (c.setPart p x).txStamps = c.txStamps := rfl
@[simp] theorem Core.setPart_snapReq (p : Nat) (x : Part) : (c.setPart p x).snapReq = c.snapReq := rfl
@[simp] theorem Core.setPart_slew (p : Nat) (x : Part) : (c.setPart p x).slew = c.slew := rfl
@[simp] theorem Core.setPart_slewTick (p : Nat) (x : Part) : (c.setPart p x).slewTick = c.slewTick := rfl
@[simp] theorem Core.setPart_tsSteps (p : Nat) (x : Part) : (c.setPart p x).tsSteps = c.tsSteps := rfl
@[simp] theorem Core.setPart_clamps (p : Nat) (x : Part) : (c.setPart p x).clamps = c.clamps := rfl
@[simp] theorem Core.setPart_fatalSeen (p : Nat) (x : Part) : (c.setPart p x).fatalSeen = c.fatalSeen := rfl
@[simp] theorem Core.setPart_tripped (p : Nat) (x : Part) : (c.setPart p x).tripped = c.tripped := rfl
@[simp] theorem Core.setPart_notch (p : Nat) (x : Part) : (c.setPart p x).notch = c.notch := rfl
@[simp] theorem Core.setPart_duty (p : Nat) (x : Part) : (c.setPart p x).duty = c.duty := rfl
@[simp] theorem Core.setPart_therm (p : Nat) (x : Part) : (c.setPart p x).therm = c.therm := rfl
@[simp] theorem Core.setPart_metSteps (p : Nat) (x : Part) : (c.setPart p x).metSteps = c.metSteps := rfl
@[simp] theorem Core.setPart_limitUntil (p : Nat) (x : Part) : (c.setPart p x).limitUntil = c.limitUntil := rfl
@[simp] theorem Core.setPart_dutySlot (p : Nat) (x : Part) : (c.setPart p x).dutySlot = c.dutySlot := rfl
@[simp] theorem Core.setPart_slackWait (p : Nat) (x : Part) : (c.setPart p x).slackWait = c.slackWait := rfl
@[simp] theorem Core.setPart_slackAll (p : Nat) (x : Part) : (c.setPart p x).slackAll = c.slackAll := rfl
@[simp] theorem Core.setPart_reports (p : Nat) (x : Part) : (c.setPart p x).reports = c.reports := rfl
@[simp] theorem Core.setPart_raise_ (p : Nat) (x : Part) : (c.setPart p x).raise_ = c.raise_ := rfl
@[simp] theorem Core.setPart_barSize (p : Nat) (x : Part) : (c.setPart p x).barSize = c.barSize := rfl
@[simp] theorem Core.setPart_busMaster (p : Nat) (x : Part) : (c.setPart p x).busMaster = c.busMaster := rfl
@[simp] theorem Core.setPart_qmem (p : Nat) (x : Part) : (c.setPart p x).qmem = c.qmem := rfl
@[simp] theorem Core.setPart_beaconDown (p : Nat) (x : Part) : (c.setPart p x).beaconDown = c.beaconDown := rfl
@[simp] theorem Core.setPart_fwForce (p : Nat) (x : Part) : (c.setPart p x).fwForce = c.fwForce := rfl
@[simp] theorem Core.setPart_fwStart (p : Nat) (x : Part) : (c.setPart p x).fwStart = c.fwStart := rfl
@[simp] theorem Core.setPart_fwHoldTick (p : Nat) (x : Part) : (c.setPart p x).fwHoldTick = c.fwHoldTick := rfl
@[simp] theorem Core.setPart_fwTrialTick (p : Nat) (x : Part) : (c.setPart p x).fwTrialTick = c.fwTrialTick := rfl
@[simp] theorem Core.setPart_thermtrip (p : Nat) (x : Part) : (c.setPart p x).thermtrip = c.thermtrip := rfl
@[simp] theorem Core.setPart_tripTick (p : Nat) (x : Part) : (c.setPart p x).tripTick = c.tripTick := rfl
@[simp] theorem Core.setPart_inReset (p : Nat) (x : Part) : (c.setPart p x).inReset = c.inReset := rfl
@[simp] theorem Core.setPart_perstLow (p : Nat) (x : Part) : (c.setPart p x).perstLow = c.perstLow := rfl
@[simp] theorem Core.setPart_pfailLow (p : Nat) (x : Part) : (c.setPart p x).pfailLow = c.pfailLow := rfl
@[simp] theorem Core.setPart_savePend (p : Nat) (x : Part) : (c.setPart p x).savePend = c.savePend := rfl
@[simp] theorem Core.setPart_saveReset (p : Nat) (x : Part) : (c.setPart p x).saveReset = c.saveReset := rfl
@[simp] theorem Core.setPart_migDue (p : Nat) (x : Part) : (c.setPart p x).migDue = c.migDue := rfl
@[simp] theorem Core.setPart_scrubDue (p : Nat) (x : Part) : (c.setPart p x).scrubDue = c.scrubDue := rfl

/-! ### evt -/

@[simp] theorem Core.evt_tick (a b d e f g : Nat) : (c.evt a b d e f g).tick = c.tick := rfl
@[simp] theorem Core.evt_ts (a b d e f g : Nat) : (c.evt a b d e f g).ts = c.ts := rfl
@[simp] theorem Core.evt_regs (a b d e f g : Nat) : (c.evt a b d e f g).regs = c.regs := rfl
@[simp] theorem Core.evt_hold (a b d e f g : Nat) : (c.evt a b d e f g).hold = c.hold := rfl
@[simp] theorem Core.evt_resp (a b d e f g : Nat) : (c.evt a b d e f g).resp = c.resp := rfl
@[simp] theorem Core.evt_log (a b d e f g : Nat) : (c.evt a b d e f g).log = c.log := rfl
@[simp] theorem Core.evt_evq (a b d e f g : Nat) : (c.evt a b d e f g).evq = c.evq := rfl
@[simp] theorem Core.evt_cqh (a b d e f g : Nat) : (c.evt a b d e f g).cqh = c.cqh := rfl
@[simp] theorem Core.evt_out (a b d e f g : Nat) : (c.evt a b d e f g).out = c.out := rfl
@[simp] theorem Core.evt_scratch (a b d e f g : Nat) : (c.evt a b d e f g).scratch = c.scratch := rfl
@[simp] theorem Core.evt_dram (a b d e f g : Nat) : (c.evt a b d e f g).dram = c.dram := rfl
@[simp] theorem Core.evt_dramKey (a b d e f g : Nat) : (c.evt a b d e f g).dramKey = c.dramKey := rfl
@[simp] theorem Core.evt_nextKey (a b d e f g : Nat) : (c.evt a b d e f g).nextKey = c.nextKey := rfl
@[simp] theorem Core.evt_host (a b d e f g : Nat) : (c.evt a b d e f g).host = c.host := rfl
@[simp] theorem Core.evt_tiles (a b d e f g : Nat) : (c.evt a b d e f g).tiles = c.tiles := rfl
@[simp] theorem Core.evt_map (a b d e f g : Nat) : (c.evt a b d e f g).map = c.map := rfl
@[simp] theorem Core.evt_parts (a b d e f g : Nat) : (c.evt a b d e f g).parts = c.parts := rfl
@[simp] theorem Core.evt_items (a b d e f g : Nat) : (c.evt a b d e f g).items = c.items := rfl
@[simp] theorem Core.evt_recs (a b d e f g : Nat) : (c.evt a b d e f g).recs = c.recs := rfl
@[simp] theorem Core.evt_ops (a b d e f g : Nat) : (c.evt a b d e f g).ops = c.ops := rfl
@[simp] theorem Core.evt_txns (a b d e f g : Nat) : (c.evt a b d e f g).txns = c.txns := rfl
@[simp] theorem Core.evt_nextItem (a b d e f g : Nat) : (c.evt a b d e f g).nextItem = c.nextItem := rfl
@[simp] theorem Core.evt_nextOp (a b d e f g : Nat) : (c.evt a b d e f g).nextOp = c.nextOp := rfl
@[simp] theorem Core.evt_free (a b d e f g : Nat) : (c.evt a b d e f g).free = c.free := rfl
@[simp] theorem Core.evt_wipes (a b d e f g : Nat) : (c.evt a b d e f g).wipes = c.wipes := rfl
@[simp] theorem Core.evt_tileSwaps (a b d e f g : Nat) : (c.evt a b d e f g).tileSwaps = c.tileSwaps := rfl
@[simp] theorem Core.evt_bankSwaps (a b d e f g : Nat) : (c.evt a b d e f g).bankSwaps = c.bankSwaps := rfl
@[simp] theorem Core.evt_heldSwaps (a b d e f g : Nat) : (c.evt a b d e f g).heldSwaps = c.heldSwaps := rfl
@[simp] theorem Core.evt_slots (a b d e f g : Nat) : (c.evt a b d e f g).slots = c.slots := rfl
@[simp] theorem Core.evt_marks (a b d e f g : Nat) : (c.evt a b d e f g).marks = c.marks := rfl
@[simp] theorem Core.evt_dir (a b d e f g : Nat) : (c.evt a b d e f g).dir = c.dir := rfl
@[simp] theorem Core.evt_flash (a b d e f g : Nat) : (c.evt a b d e f g).flash = c.flash := rfl
@[simp] theorem Core.evt_fwHold (a b d e f g : Nat) : (c.evt a b d e f g).fwHold = c.fwHold := rfl
@[simp] theorem Core.evt_gated (a b d e f g : Nat) : (c.evt a b d e f g).gated = c.gated := rfl
@[simp] theorem Core.evt_lost (a b d e f g : Nat) : (c.evt a b d e f g).lost = c.lost := rfl
@[simp] theorem Core.evt_sqOff (a b d e f g : Nat) : (c.evt a b d e f g).sqOff = c.sqOff := rfl
@[simp] theorem Core.evt_bankReqs (a b d e f g : Nat) : (c.evt a b d e f g).bankReqs = c.bankReqs := rfl
@[simp] theorem Core.evt_touched (a b d e f g : Nat) : (c.evt a b d e f g).touched = c.touched := rfl
@[simp] theorem Core.evt_dests (a b d e f g : Nat) : (c.evt a b d e f g).dests = c.dests := rfl
@[simp] theorem Core.evt_rowAccess (a b d e f g : Nat) : (c.evt a b d e f g).rowAccess = c.rowAccess := rfl
@[simp] theorem Core.evt_outTiles (a b d e f g : Nat) : (c.evt a b d e f g).outTiles = c.outTiles := rfl
@[simp] theorem Core.evt_spareQ (a b d e f g : Nat) : (c.evt a b d e f g).spareQ = c.spareQ := rfl
@[simp] theorem Core.evt_nvcmds (a b d e f g : Nat) : (c.evt a b d e f g).nvcmds = c.nvcmds := rfl
@[simp] theorem Core.evt_nextNv (a b d e f g : Nat) : (c.evt a b d e f g).nextNv = c.nextNv := rfl
@[simp] theorem Core.evt_qps (a b d e f g : Nat) : (c.evt a b d e f g).qps = c.qps := rfl
@[simp] theorem Core.evt_txCredit (a b d e f g : Nat) : (c.evt a b d e f g).txCredit = c.txCredit := rfl
@[simp] theorem Core.evt_rxGrants (a b d e f g : Nat) : (c.evt a b d e f g).rxGrants = c.rxGrants := rfl
@[simp] theorem Core.evt_creditReqs (a b d e f g : Nat) : (c.evt a b d e f g).creditReqs = c.creditReqs := rfl
@[simp] theorem Core.evt_grantCells (a b d e f g : Nat) : (c.evt a b d e f g).grantCells = c.grantCells := rfl
@[simp] theorem Core.evt_regionCache (a b d e f g : Nat) : (c.evt a b d e f g).regionCache = c.regionCache := rfl
@[simp] theorem Core.evt_invals (a b d e f g : Nat) : (c.evt a b d e f g).invals = c.invals := rfl
@[simp] theorem Core.evt_nonces (a b d e f g : Nat) : (c.evt a b d e f g).nonces = c.nonces := rfl
@[simp] theorem Core.evt_draws (a b d e f g : Nat) : (c.evt a b d e f g).draws = c.draws := rfl
@[simp] theorem Core.evt_ide (a b d e f g : Nat) : (c.evt a b d e f g).ide = c.ide := rfl
@[simp] theorem Core.evt_epochCur (a b d e f g : Nat) : (c.evt a b d e f g).epochCur = c.epochCur := rfl
@[simp] theorem Core.evt_epochNext (a b d e f g : Nat) : (c.evt a b d e f g).epochNext = c.epochNext := rfl
@[simp] theorem Core.evt_epochPrev (a b d e f g : Nat) : (c.evt a b d e f g).epochPrev = c.epochPrev := rfl
@[simp] theorem Core.evt_secretCur (a b d e f g : Nat) : (c.evt a b d e f g).secretCur = c.secretCur := rfl
@[simp] theorem Core.evt_secretNext (a b d e f g : Nat) : (c.evt a b d e f g).secretNext = c.secretNext := rfl
@[simp] theorem Core.evt_secretPrev (a b d e f g : Nat) : (c.evt a b d e f g).secretPrev = c.secretPrev := rfl
@[simp] theorem Core.evt_switchTick (a b d e f g : Nat) : (c.evt a b d e f g).switchTick = c.switchTick := rfl
@[simp] theorem Core.evt_staged (a b d e f g : Nat) : (c.evt a b d e f g).staged = c.staged := rfl
@[simp] theorem Core.evt_stageBlks (a b d e f g : Nat) : (c.evt a b d e f g).stageBlks = c.stageBlks := rfl
@[simp] theorem Core.evt_slowReqs (a b d e f g : Nat) : (c.evt a b d e f g).slowReqs = c.slowReqs := rfl
@[simp] theorem Core.evt_remoteOut (a b d e f g : Nat) : (c.evt a b d e f g).remoteOut = c.remoteOut := rfl
@[simp] theorem Core.evt_failedCh (a b d e f g : Nat) : (c.evt a b d e f g).failedCh = c.failedCh := rfl
@[simp] theorem Core.evt_trainFails (a b d e f g : Nat) : (c.evt a b d e f g).trainFails = c.trainFails := rfl
@[simp] theorem Core.evt_corrTicks (a b d e f g : Nat) : (c.evt a b d e f g).corrTicks = c.corrTicks := rfl
@[simp] theorem Core.evt_swapDue (a b d e f g : Nat) : (c.evt a b d e f g).swapDue = c.swapDue := rfl
@[simp] theorem Core.evt_migLost (a b d e f g : Nat) : (c.evt a b d e f g).migLost = c.migLost := rfl
@[simp] theorem Core.evt_retireQ (a b d e f g : Nat) : (c.evt a b d e f g).retireQ = c.retireQ := rfl
@[simp] theorem Core.evt_colls (a b d e f g : Nat) : (c.evt a b d e f g).colls = c.colls := rfl
@[simp] theorem Core.evt_collSeq (a b d e f g : Nat) : (c.evt a b d e f g).collSeq = c.collSeq := rfl
@[simp] theorem Core.evt_colMembers (a b d e f g : Nat) : (c.evt a b d e f g).colMembers = c.colMembers := rfl
@[simp] theorem Core.evt_parked (a b d e f g : Nat) : (c.evt a b d e f g).parked = c.parked := rfl
@[simp] theorem Core.evt_collEnds (a b d e f g : Nat) : (c.evt a b d e f g).collEnds = c.collEnds := rfl
@[simp] theorem Core.evt_probe (a b d e f g : Nat) : (c.evt a b d e f g).probe = c.probe := rfl
@[simp] theorem Core.evt_probeGot (a b d e f g : Nat) : (c.evt a b d e f g).probeGot = c.probeGot := rfl
@[simp] theorem Core.evt_laneSwaps (a b d e f g : Nat) : (c.evt a b d e f g).laneSwaps = c.laneSwaps := rfl
@[simp] theorem Core.evt_txStamps (a b d e f g : Nat) : (c.evt a b d e f g).txStamps = c.txStamps := rfl
@[simp] theorem Core.evt_snapReq (a b d e f g : Nat) : (c.evt a b d e f g).snapReq = c.snapReq := rfl
@[simp] theorem Core.evt_slew (a b d e f g : Nat) : (c.evt a b d e f g).slew = c.slew := rfl
@[simp] theorem Core.evt_slewTick (a b d e f g : Nat) : (c.evt a b d e f g).slewTick = c.slewTick := rfl
@[simp] theorem Core.evt_tsSteps (a b d e f g : Nat) : (c.evt a b d e f g).tsSteps = c.tsSteps := rfl
@[simp] theorem Core.evt_clamps (a b d e f g : Nat) : (c.evt a b d e f g).clamps = c.clamps := rfl
@[simp] theorem Core.evt_fatalSeen (a b d e f g : Nat) : (c.evt a b d e f g).fatalSeen = c.fatalSeen := rfl
@[simp] theorem Core.evt_tripped (a b d e f g : Nat) : (c.evt a b d e f g).tripped = c.tripped := rfl
@[simp] theorem Core.evt_notch (a b d e f g : Nat) : (c.evt a b d e f g).notch = c.notch := rfl
@[simp] theorem Core.evt_duty (a b d e f g : Nat) : (c.evt a b d e f g).duty = c.duty := rfl
@[simp] theorem Core.evt_therm (a b d e f g : Nat) : (c.evt a b d e f g).therm = c.therm := rfl
@[simp] theorem Core.evt_metSteps (a b d e f g : Nat) : (c.evt a b d e f g).metSteps = c.metSteps := rfl
@[simp] theorem Core.evt_limitUntil (a b d e f g : Nat) : (c.evt a b d e f g).limitUntil = c.limitUntil := rfl
@[simp] theorem Core.evt_dutySlot (a b d e f g : Nat) : (c.evt a b d e f g).dutySlot = c.dutySlot := rfl
@[simp] theorem Core.evt_slackWait (a b d e f g : Nat) : (c.evt a b d e f g).slackWait = c.slackWait := rfl
@[simp] theorem Core.evt_slackAll (a b d e f g : Nat) : (c.evt a b d e f g).slackAll = c.slackAll := rfl
@[simp] theorem Core.evt_reports (a b d e f g : Nat) : (c.evt a b d e f g).reports = c.reports := rfl
@[simp] theorem Core.evt_raise_ (a b d e f g : Nat) : (c.evt a b d e f g).raise_ = c.raise_ := rfl
@[simp] theorem Core.evt_barSize (a b d e f g : Nat) : (c.evt a b d e f g).barSize = c.barSize := rfl
@[simp] theorem Core.evt_busMaster (a b d e f g : Nat) : (c.evt a b d e f g).busMaster = c.busMaster := rfl
@[simp] theorem Core.evt_qmem (a b d e f g : Nat) : (c.evt a b d e f g).qmem = c.qmem := rfl
@[simp] theorem Core.evt_beaconDown (a b d e f g : Nat) : (c.evt a b d e f g).beaconDown = c.beaconDown := rfl
@[simp] theorem Core.evt_fwForce (a b d e f g : Nat) : (c.evt a b d e f g).fwForce = c.fwForce := rfl
@[simp] theorem Core.evt_fwStart (a b d e f g : Nat) : (c.evt a b d e f g).fwStart = c.fwStart := rfl
@[simp] theorem Core.evt_fwHoldTick (a b d e f g : Nat) : (c.evt a b d e f g).fwHoldTick = c.fwHoldTick := rfl
@[simp] theorem Core.evt_fwTrialTick (a b d e f g : Nat) : (c.evt a b d e f g).fwTrialTick = c.fwTrialTick := rfl
@[simp] theorem Core.evt_thermtrip (a b d e f g : Nat) : (c.evt a b d e f g).thermtrip = c.thermtrip := rfl
@[simp] theorem Core.evt_tripTick (a b d e f g : Nat) : (c.evt a b d e f g).tripTick = c.tripTick := rfl
@[simp] theorem Core.evt_inReset (a b d e f g : Nat) : (c.evt a b d e f g).inReset = c.inReset := rfl
@[simp] theorem Core.evt_perstLow (a b d e f g : Nat) : (c.evt a b d e f g).perstLow = c.perstLow := rfl
@[simp] theorem Core.evt_pfailLow (a b d e f g : Nat) : (c.evt a b d e f g).pfailLow = c.pfailLow := rfl
@[simp] theorem Core.evt_savePend (a b d e f g : Nat) : (c.evt a b d e f g).savePend = c.savePend := rfl
@[simp] theorem Core.evt_saveReset (a b d e f g : Nat) : (c.evt a b d e f g).saveReset = c.saveReset := rfl
@[simp] theorem Core.evt_migDue (a b d e f g : Nat) : (c.evt a b d e f g).migDue = c.migDue := rfl
@[simp] theorem Core.evt_scrubDue (a b d e f g : Nat) : (c.evt a b d e f g).scrubDue = c.scrubDue := rfl

/-! ### send -/

@[simp] theorem Core.send_tick (k : Nat) (l : List Nat) : (c.send k l).tick = c.tick := rfl
@[simp] theorem Core.send_ts (k : Nat) (l : List Nat) : (c.send k l).ts = c.ts := rfl
@[simp] theorem Core.send_regs (k : Nat) (l : List Nat) : (c.send k l).regs = c.regs := rfl
@[simp] theorem Core.send_hold (k : Nat) (l : List Nat) : (c.send k l).hold = c.hold := rfl
@[simp] theorem Core.send_resp (k : Nat) (l : List Nat) : (c.send k l).resp = c.resp := rfl
@[simp] theorem Core.send_evtBuf (k : Nat) (l : List Nat) : (c.send k l).evtBuf = c.evtBuf := rfl
@[simp] theorem Core.send_log (k : Nat) (l : List Nat) : (c.send k l).log = c.log := rfl
@[simp] theorem Core.send_evq (k : Nat) (l : List Nat) : (c.send k l).evq = c.evq := rfl
@[simp] theorem Core.send_cqh (k : Nat) (l : List Nat) : (c.send k l).cqh = c.cqh := rfl
@[simp] theorem Core.send_scratch (k : Nat) (l : List Nat) : (c.send k l).scratch = c.scratch := rfl
@[simp] theorem Core.send_dram (k : Nat) (l : List Nat) : (c.send k l).dram = c.dram := rfl
@[simp] theorem Core.send_dramKey (k : Nat) (l : List Nat) : (c.send k l).dramKey = c.dramKey := rfl
@[simp] theorem Core.send_nextKey (k : Nat) (l : List Nat) : (c.send k l).nextKey = c.nextKey := rfl
@[simp] theorem Core.send_host (k : Nat) (l : List Nat) : (c.send k l).host = c.host := rfl
@[simp] theorem Core.send_tiles (k : Nat) (l : List Nat) : (c.send k l).tiles = c.tiles := rfl
@[simp] theorem Core.send_map (k : Nat) (l : List Nat) : (c.send k l).map = c.map := rfl
@[simp] theorem Core.send_parts (k : Nat) (l : List Nat) : (c.send k l).parts = c.parts := rfl
@[simp] theorem Core.send_items (k : Nat) (l : List Nat) : (c.send k l).items = c.items := rfl
@[simp] theorem Core.send_recs (k : Nat) (l : List Nat) : (c.send k l).recs = c.recs := rfl
@[simp] theorem Core.send_ops (k : Nat) (l : List Nat) : (c.send k l).ops = c.ops := rfl
@[simp] theorem Core.send_txns (k : Nat) (l : List Nat) : (c.send k l).txns = c.txns := rfl
@[simp] theorem Core.send_nextItem (k : Nat) (l : List Nat) : (c.send k l).nextItem = c.nextItem := rfl
@[simp] theorem Core.send_nextOp (k : Nat) (l : List Nat) : (c.send k l).nextOp = c.nextOp := rfl
@[simp] theorem Core.send_free (k : Nat) (l : List Nat) : (c.send k l).free = c.free := rfl
@[simp] theorem Core.send_wipes (k : Nat) (l : List Nat) : (c.send k l).wipes = c.wipes := rfl
@[simp] theorem Core.send_tileSwaps (k : Nat) (l : List Nat) : (c.send k l).tileSwaps = c.tileSwaps := rfl
@[simp] theorem Core.send_bankSwaps (k : Nat) (l : List Nat) : (c.send k l).bankSwaps = c.bankSwaps := rfl
@[simp] theorem Core.send_heldSwaps (k : Nat) (l : List Nat) : (c.send k l).heldSwaps = c.heldSwaps := rfl
@[simp] theorem Core.send_slots (k : Nat) (l : List Nat) : (c.send k l).slots = c.slots := rfl
@[simp] theorem Core.send_marks (k : Nat) (l : List Nat) : (c.send k l).marks = c.marks := rfl
@[simp] theorem Core.send_dir (k : Nat) (l : List Nat) : (c.send k l).dir = c.dir := rfl
@[simp] theorem Core.send_flash (k : Nat) (l : List Nat) : (c.send k l).flash = c.flash := rfl
@[simp] theorem Core.send_fwHold (k : Nat) (l : List Nat) : (c.send k l).fwHold = c.fwHold := rfl
@[simp] theorem Core.send_gated (k : Nat) (l : List Nat) : (c.send k l).gated = c.gated := rfl
@[simp] theorem Core.send_lost (k : Nat) (l : List Nat) : (c.send k l).lost = c.lost := rfl
@[simp] theorem Core.send_sqOff (k : Nat) (l : List Nat) : (c.send k l).sqOff = c.sqOff := rfl
@[simp] theorem Core.send_bankReqs (k : Nat) (l : List Nat) : (c.send k l).bankReqs = c.bankReqs := rfl
@[simp] theorem Core.send_touched (k : Nat) (l : List Nat) : (c.send k l).touched = c.touched := rfl
@[simp] theorem Core.send_dests (k : Nat) (l : List Nat) : (c.send k l).dests = c.dests := rfl
@[simp] theorem Core.send_rowAccess (k : Nat) (l : List Nat) : (c.send k l).rowAccess = c.rowAccess := rfl
@[simp] theorem Core.send_outTiles (k : Nat) (l : List Nat) : (c.send k l).outTiles = c.outTiles := rfl
@[simp] theorem Core.send_spareQ (k : Nat) (l : List Nat) : (c.send k l).spareQ = c.spareQ := rfl
@[simp] theorem Core.send_nvcmds (k : Nat) (l : List Nat) : (c.send k l).nvcmds = c.nvcmds := rfl
@[simp] theorem Core.send_nextNv (k : Nat) (l : List Nat) : (c.send k l).nextNv = c.nextNv := rfl
@[simp] theorem Core.send_qps (k : Nat) (l : List Nat) : (c.send k l).qps = c.qps := rfl
@[simp] theorem Core.send_txCredit (k : Nat) (l : List Nat) : (c.send k l).txCredit = c.txCredit := rfl
@[simp] theorem Core.send_rxGrants (k : Nat) (l : List Nat) : (c.send k l).rxGrants = c.rxGrants := rfl
@[simp] theorem Core.send_creditReqs (k : Nat) (l : List Nat) : (c.send k l).creditReqs = c.creditReqs := rfl
@[simp] theorem Core.send_grantCells (k : Nat) (l : List Nat) : (c.send k l).grantCells = c.grantCells := rfl
@[simp] theorem Core.send_regionCache (k : Nat) (l : List Nat) : (c.send k l).regionCache = c.regionCache := rfl
@[simp] theorem Core.send_invals (k : Nat) (l : List Nat) : (c.send k l).invals = c.invals := rfl
@[simp] theorem Core.send_nonces (k : Nat) (l : List Nat) : (c.send k l).nonces = c.nonces := rfl
@[simp] theorem Core.send_draws (k : Nat) (l : List Nat) : (c.send k l).draws = c.draws := rfl
@[simp] theorem Core.send_ide (k : Nat) (l : List Nat) : (c.send k l).ide = c.ide := rfl
@[simp] theorem Core.send_epochCur (k : Nat) (l : List Nat) : (c.send k l).epochCur = c.epochCur := rfl
@[simp] theorem Core.send_epochNext (k : Nat) (l : List Nat) : (c.send k l).epochNext = c.epochNext := rfl
@[simp] theorem Core.send_epochPrev (k : Nat) (l : List Nat) : (c.send k l).epochPrev = c.epochPrev := rfl
@[simp] theorem Core.send_secretCur (k : Nat) (l : List Nat) : (c.send k l).secretCur = c.secretCur := rfl
@[simp] theorem Core.send_secretNext (k : Nat) (l : List Nat) : (c.send k l).secretNext = c.secretNext := rfl
@[simp] theorem Core.send_secretPrev (k : Nat) (l : List Nat) : (c.send k l).secretPrev = c.secretPrev := rfl
@[simp] theorem Core.send_switchTick (k : Nat) (l : List Nat) : (c.send k l).switchTick = c.switchTick := rfl
@[simp] theorem Core.send_staged (k : Nat) (l : List Nat) : (c.send k l).staged = c.staged := rfl
@[simp] theorem Core.send_stageBlks (k : Nat) (l : List Nat) : (c.send k l).stageBlks = c.stageBlks := rfl
@[simp] theorem Core.send_slowReqs (k : Nat) (l : List Nat) : (c.send k l).slowReqs = c.slowReqs := rfl
@[simp] theorem Core.send_remoteOut (k : Nat) (l : List Nat) : (c.send k l).remoteOut = c.remoteOut := rfl
@[simp] theorem Core.send_failedCh (k : Nat) (l : List Nat) : (c.send k l).failedCh = c.failedCh := rfl
@[simp] theorem Core.send_trainFails (k : Nat) (l : List Nat) : (c.send k l).trainFails = c.trainFails := rfl
@[simp] theorem Core.send_corrTicks (k : Nat) (l : List Nat) : (c.send k l).corrTicks = c.corrTicks := rfl
@[simp] theorem Core.send_swapDue (k : Nat) (l : List Nat) : (c.send k l).swapDue = c.swapDue := rfl
@[simp] theorem Core.send_migLost (k : Nat) (l : List Nat) : (c.send k l).migLost = c.migLost := rfl
@[simp] theorem Core.send_retireQ (k : Nat) (l : List Nat) : (c.send k l).retireQ = c.retireQ := rfl
@[simp] theorem Core.send_colls (k : Nat) (l : List Nat) : (c.send k l).colls = c.colls := rfl
@[simp] theorem Core.send_collSeq (k : Nat) (l : List Nat) : (c.send k l).collSeq = c.collSeq := rfl
@[simp] theorem Core.send_colMembers (k : Nat) (l : List Nat) : (c.send k l).colMembers = c.colMembers := rfl
@[simp] theorem Core.send_parked (k : Nat) (l : List Nat) : (c.send k l).parked = c.parked := rfl
@[simp] theorem Core.send_collEnds (k : Nat) (l : List Nat) : (c.send k l).collEnds = c.collEnds := rfl
@[simp] theorem Core.send_probe (k : Nat) (l : List Nat) : (c.send k l).probe = c.probe := rfl
@[simp] theorem Core.send_probeGot (k : Nat) (l : List Nat) : (c.send k l).probeGot = c.probeGot := rfl
@[simp] theorem Core.send_laneSwaps (k : Nat) (l : List Nat) : (c.send k l).laneSwaps = c.laneSwaps := rfl
@[simp] theorem Core.send_txStamps (k : Nat) (l : List Nat) : (c.send k l).txStamps = c.txStamps := rfl
@[simp] theorem Core.send_snapReq (k : Nat) (l : List Nat) : (c.send k l).snapReq = c.snapReq := rfl
@[simp] theorem Core.send_slew (k : Nat) (l : List Nat) : (c.send k l).slew = c.slew := rfl
@[simp] theorem Core.send_slewTick (k : Nat) (l : List Nat) : (c.send k l).slewTick = c.slewTick := rfl
@[simp] theorem Core.send_tsSteps (k : Nat) (l : List Nat) : (c.send k l).tsSteps = c.tsSteps := rfl
@[simp] theorem Core.send_clamps (k : Nat) (l : List Nat) : (c.send k l).clamps = c.clamps := rfl
@[simp] theorem Core.send_fatalSeen (k : Nat) (l : List Nat) : (c.send k l).fatalSeen = c.fatalSeen := rfl
@[simp] theorem Core.send_tripped (k : Nat) (l : List Nat) : (c.send k l).tripped = c.tripped := rfl
@[simp] theorem Core.send_notch (k : Nat) (l : List Nat) : (c.send k l).notch = c.notch := rfl
@[simp] theorem Core.send_duty (k : Nat) (l : List Nat) : (c.send k l).duty = c.duty := rfl
@[simp] theorem Core.send_therm (k : Nat) (l : List Nat) : (c.send k l).therm = c.therm := rfl
@[simp] theorem Core.send_metSteps (k : Nat) (l : List Nat) : (c.send k l).metSteps = c.metSteps := rfl
@[simp] theorem Core.send_limitUntil (k : Nat) (l : List Nat) : (c.send k l).limitUntil = c.limitUntil := rfl
@[simp] theorem Core.send_dutySlot (k : Nat) (l : List Nat) : (c.send k l).dutySlot = c.dutySlot := rfl
@[simp] theorem Core.send_slackWait (k : Nat) (l : List Nat) : (c.send k l).slackWait = c.slackWait := rfl
@[simp] theorem Core.send_slackAll (k : Nat) (l : List Nat) : (c.send k l).slackAll = c.slackAll := rfl
@[simp] theorem Core.send_reports (k : Nat) (l : List Nat) : (c.send k l).reports = c.reports := rfl
@[simp] theorem Core.send_raise_ (k : Nat) (l : List Nat) : (c.send k l).raise_ = c.raise_ := rfl
@[simp] theorem Core.send_barSize (k : Nat) (l : List Nat) : (c.send k l).barSize = c.barSize := rfl
@[simp] theorem Core.send_busMaster (k : Nat) (l : List Nat) : (c.send k l).busMaster = c.busMaster := rfl
@[simp] theorem Core.send_qmem (k : Nat) (l : List Nat) : (c.send k l).qmem = c.qmem := rfl
@[simp] theorem Core.send_beaconDown (k : Nat) (l : List Nat) : (c.send k l).beaconDown = c.beaconDown := rfl
@[simp] theorem Core.send_fwForce (k : Nat) (l : List Nat) : (c.send k l).fwForce = c.fwForce := rfl
@[simp] theorem Core.send_fwStart (k : Nat) (l : List Nat) : (c.send k l).fwStart = c.fwStart := rfl
@[simp] theorem Core.send_fwHoldTick (k : Nat) (l : List Nat) : (c.send k l).fwHoldTick = c.fwHoldTick := rfl
@[simp] theorem Core.send_fwTrialTick (k : Nat) (l : List Nat) : (c.send k l).fwTrialTick = c.fwTrialTick := rfl
@[simp] theorem Core.send_thermtrip (k : Nat) (l : List Nat) : (c.send k l).thermtrip = c.thermtrip := rfl
@[simp] theorem Core.send_tripTick (k : Nat) (l : List Nat) : (c.send k l).tripTick = c.tripTick := rfl
@[simp] theorem Core.send_inReset (k : Nat) (l : List Nat) : (c.send k l).inReset = c.inReset := rfl
@[simp] theorem Core.send_perstLow (k : Nat) (l : List Nat) : (c.send k l).perstLow = c.perstLow := rfl
@[simp] theorem Core.send_pfailLow (k : Nat) (l : List Nat) : (c.send k l).pfailLow = c.pfailLow := rfl
@[simp] theorem Core.send_savePend (k : Nat) (l : List Nat) : (c.send k l).savePend = c.savePend := rfl
@[simp] theorem Core.send_saveReset (k : Nat) (l : List Nat) : (c.send k l).saveReset = c.saveReset := rfl
@[simp] theorem Core.send_migDue (k : Nat) (l : List Nat) : (c.send k l).migDue = c.migDue := rfl
@[simp] theorem Core.send_scrubDue (k : Nat) (l : List Nat) : (c.send k l).scrubDue = c.scrubDue := rfl

end Sys2Proof.Machine
end

