-- ==== Sys2Proof/Laws/Ops.lean ====
section
/-! SUPPORT. Ops.lean: what the named operations do: a register, a field, a tile or a partition reads as it was last written, every
other one as before; and every operation on a memory keeps its canonical form. -/

namespace Sys2Proof.Machine

variable (c : Core)

/-! ### Registers -/

/-- A register written reads the low 64 bits of what was written. -/
theorem Core.rd_wr_same (r : Reg) (i v : Nat) : (c.wr r i v).rd r i = v % 2 ^ 64 := by
  simp [Core.rd, Core.wr]

/-- A register elsewhere reads as before. -/
theorem Core.rd_wr_other {r q : Reg} {i j : Nat} (v : Nat) (h : q.at j ≠ r.at i) : (c.wr r i v).rd q j = c.rd q j := by
  unfold Core.rd
  rw [show (c.wr r i v).regs = c.regs.put (fun _ => BitVec.ofNat 64 r.reset) (r.at i) (BitVec.ofNat 64 v) from rfl]
  congr 1
  unfold SMap.put
  split
  · exact SMap.get_del_other _ _ h
  · exact SMap.get_ins_other _ _ _ h

theorem Core.rd_lt (r : Reg) (i : Nat) : c.rd r i < 2 ^ 64 := (c.regs.get _ _).isLt

theorem setBits_lt {n hi lo v : Nat} (hn : n < 2 ^ 64) (h : lo ≤ hi) (h64 : hi < 64) : setBits n hi lo v < 2 ^ 64 := by
  rw [setBits_parts n hi lo v h]
  have e : (2 : Nat) ^ 64 = 2 ^ (hi + 1) * 2 ^ (63 - hi) := by rw [← Nat.pow_add]; congr 1; omega
  have e2 : 2 ^ (hi + 1) = 2 ^ lo * 2 ^ (hi + 1 - lo) := by rw [← Nat.pow_add]; congr 1; omega
  have h1 : n / 2 ^ (hi + 1) < 2 ^ (63 - hi) := Nat.div_lt_of_lt_mul (by omega)
  have h2 : v % 2 ^ (hi + 1 - lo) < 2 ^ (hi + 1 - lo) := Nat.mod_lt _ (Nat.two_pow_pos _)
  have h3 : n % 2 ^ lo < 2 ^ lo := Nat.mod_lt _ (Nat.two_pow_pos _)
  have h4 : v % 2 ^ (hi + 1 - lo) * 2 ^ lo + n % 2 ^ lo < 2 ^ (hi + 1) := by
    have := Nat.mul_le_mul_right (2 ^ lo) h2
    rw [e2]; nlinarith
  have := Nat.mul_le_mul_right (2 ^ (hi + 1)) h1
  rw [e]; nlinarith

/-- The fields of a register lie in 64 bits. -/
def Fld.ok (f : Fld) : Bool := decide (f.lo ≤ f.hi) && decide (f.hi < 64)

theorem Core.rd_wf_same (f : Fld) (i v : Nat) (h : f.ok = true) : (c.wf f i v).rd f.reg i = setBits (c.rd f.reg i) f.hi f.lo v := by
  simp only [Fld.ok, Bool.and_eq_true, decide_eq_true_eq] at h
  rw [Core.wf, Core.rd_wr_same, Nat.mod_eq_of_lt (setBits_lt (c.rd_lt _ _) h.1 h.2)]

/-- A field written reads what fits of the value. -/
theorem Core.rf_wf_same (f : Fld) (i v : Nat) (h : f.ok = true) : (c.wf f i v).rf f i = v % 2 ^ (f.hi + 1 - f.lo) := by
  rw [Core.rf, c.rd_wf_same f i v h, bits_setBits_same]
  simp only [Fld.ok, Bool.and_eq_true, decide_eq_true_eq] at h; exact h.1

/-- Another field of the same register reads as before. -/
theorem Core.rf_wf_beside {f g : Fld} (i v : Nat) (hf : f.ok = true) (hr : g.reg = f.reg) (h : g.hi < f.lo ∨ f.hi < g.lo) :
    (c.wf f i v).rf g i = c.rf g i := by
  rw [Core.rf, Core.rf, hr, c.rd_wf_same f i v hf, bits_setBits_beside]
  · simp only [Fld.ok, Bool.and_eq_true, decide_eq_true_eq] at hf; exact hf.1
  · exact h

theorem Core.rd_wf_other {f : Fld} {q : Reg} {i j : Nat} (v : Nat) (h : q.at j ≠ f.reg.at i) : (c.wf f i v).rd q j = c.rd q j :=
  c.rd_wr_other _ h

/-- A field of a register elsewhere reads as before. -/
theorem Core.rf_wf_other {f g : Fld} {i j : Nat} (v : Nat) (h : g.reg.at j ≠ f.reg.at i) : (c.wf f i v).rf g j = c.rf g j := by
  unfold Core.rf; rw [c.rd_wf_other v h]

/-- A counter field counts up to its top (R14). -/
theorem Core.rf_count_same (f : Fld) (i n : Nat) (h : f.ok = true) : (c.count f i n).rf f i = min (c.rf f i + n) f.top := by
  rw [Core.count, c.rf_wf_same f i _ h, Nat.mod_eq_of_lt]
  have : 0 < 2 ^ (f.hi + 1 - f.lo) := Nat.two_pow_pos _
  simp only [Fld.top]; omega

theorem Core.rf_count_other {f g : Fld} {i j : Nat} (n : Nat) (h : g.reg.at j ≠ f.reg.at i) : (c.count f i n).rf g j = c.rf g j :=
  c.rf_wf_other _ h

theorem Core.rd_count_other {f : Fld} {q : Reg} {i j : Nat} (n : Nat) (h : q.at j ≠ f.reg.at i) : (c.count f i n).rd q j = c.rd q j :=
  c.rd_wf_other _ h

/-! ### Tiles and partitions -/

@[simp] theorem Core.tile_setTile_same (t : Nat) (x : Tile) : (c.setTile t x).tile t = x := by simp [Core.tile, Core.setTile]
theorem Core.tile_setTile_other {t u : Nat} (x : Tile) (h : u ≠ t) : (c.setTile t x).tile u = c.tile u := SMap.get_put_other _ _ _ h
@[simp] theorem Core.part_setPart_same (p : Nat) (x : Part) : (c.setPart p x).part p = x := by simp [Core.part, Core.setPart]
theorem Core.part_setPart_other {p q : Nat} (x : Part) (h : q ≠ p) : (c.setPart p x).part q = c.part q := SMap.get_put_other _ _ _ h

/-- Devices that agree on a field agree on what is read from it. -/
theorem Core.part_of_parts {c c' : Core} (h : c'.parts = c.parts) (p : Nat) : c'.part p = c.part p := by unfold Core.part; rw [h]
theorem Core.tile_of_tiles {c c' : Core} (h : c'.tiles = c.tiles) (t : Nat) : c'.tile t = c.tile t := by unfold Core.tile; rw [h]
theorem Core.rd_of_regs {c c' : Core} (h : c'.regs = c.regs) (r : Reg) (i : Nat) : c'.rd r i = c.rd r i := by unfold Core.rd; rw [h]
theorem Core.rf_of_regs {c c' : Core} (h : c'.regs = c.regs) (f : Fld) (i : Nat) : c'.rf f i = c.rf f i := by unfold Core.rf Core.rd; rw [h]

/-! ### What the other updates leave of each reading -/

@[simp] theorem Core.wr_tile (r : Reg) (i v : Nat) (j : Nat) : (c.wr r i v).tile j = c.tile j := rfl
@[simp] theorem Core.wr_part (r : Reg) (i v : Nat) (j : Nat) : (c.wr r i v).part j = c.part j := rfl
@[simp] theorem Core.wr_phys (r : Reg) (i v : Nat) (j : Nat) : (c.wr r i v).phys j = c.phys j := rfl
@[simp] theorem Core.wr_logical (r : Reg) (i v : Nat) (j : Nat) : (c.wr r i v).logical j = c.logical j := rfl
@[simp] theorem Core.wf_tile (f : Fld) (i v : Nat) (j : Nat) : (c.wf f i v).tile j = c.tile j := rfl
@[simp] theorem Core.wf_part (f : Fld) (i v : Nat) (j : Nat) : (c.wf f i v).part j = c.part j := rfl
@[simp] theorem Core.wf_phys (f : Fld) (i v : Nat) (j : Nat) : (c.wf f i v).phys j = c.phys j := rfl
@[simp] theorem Core.wf_logical (f : Fld) (i v : Nat) (j : Nat) : (c.wf f i v).logical j = c.logical j := rfl
@[simp] theorem Core.count_tile (f : Fld) (i n : Nat) (j : Nat) : (c.count f i n).tile j = c.tile j := rfl
@[simp] theorem Core.count_part (f : Fld) (i n : Nat) (j : Nat) : (c.count f i n).part j = c.part j := rfl
@[simp] theorem Core.count_phys (f : Fld) (i n : Nat) (j : Nat) : (c.count f i n).phys j = c.phys j := rfl
@[simp] theorem Core.count_logical (f : Fld) (i n : Nat) (j : Nat) : (c.count f i n).logical j = c.logical j := rfl
@[simp] theorem Core.setTile_rd (t : Nat) (x : Tile) (q : Reg) (j : Nat) : (c.setTile t x).rd q j = c.rd q j := rfl
@[simp] theorem Core.setTile_rf (t : Nat) (x : Tile) (q : Fld) (j : Nat) : (c.setTile t x).rf q j = c.rf q j := rfl
@[simp] theorem Core.setTile_flag (t : Nat) (x : Tile) (q : Fld) (j : Nat) : (c.setTile t x).flag q j = c.flag q j := rfl
@[simp] theorem Core.setTile_pstate (t : Nat) (x : Tile) (j : Nat) : (c.setTile t x).pstate j = c.pstate j := rfl
@[simp] theorem Core.setTile_ownsGroup (t : Nat) (x : Tile) (j k : Nat) : (c.setTile t x).ownsGroup j k = c.ownsGroup j k := rfl
@[simp] theorem Core.setTile_groups (t : Nat) (x : Tile) (j : Nat) : (c.setTile t x).groups j = c.groups j := rfl
@[simp] theorem Core.setTile_partOfGroup (t : Nat) (x : Tile) (j : Nat) : (c.setTile t x).partOfGroup j = c.partOfGroup j := rfl
@[simp] theorem Core.setTile_lead (t : Nat) (x : Tile) (j : Nat) : (c.setTile t x).lead j = c.lead j := rfl
@[simp] theorem Core.setTile_stepOf (t : Nat) (x : Tile) (j : Nat) : (c.setTile t x).stepOf j = c.stepOf j := rfl
@[simp] theorem Core.setTile_part (t : Nat) (x : Tile) (j : Nat) : (c.setTile t x).part j = c.part j := rfl
@[simp] theorem Core.setTile_phys (t : Nat) (x : Tile) (j : Nat) : (c.setTile t x).phys j = c.phys j := rfl
@[simp] theorem Core.setTile_logical (t : Nat) (x : Tile) (j : Nat) : (c.setTile t x).logical j = c.logical j := rfl
@[simp] theorem Core.setTile_who (t : Nat) (x : Tile) (j : Nat) : (c.setTile t x).who j = c.who j := rfl
@[simp] theorem Core.setPart_rd (p : Nat) (x : Part) (q : Reg) (j : Nat) : (c.setPart p x).rd q j = c.rd q j := rfl
@[simp] theorem Core.setPart_rf (p : Nat) (x : Part) (q : Fld) (j : Nat) : (c.setPart p x).rf q j = c.rf q j := rfl
@[simp] theorem Core.setPart_flag (p : Nat) (x : Part) (q : Fld) (j : Nat) : (c.setPart p x).flag q j = c.flag q j := rfl
@[simp] theorem Core.setPart_pstate (p : Nat) (x : Part) (j : Nat) : (c.setPart p x).pstate j = c.pstate j := rfl
@[simp] theorem Core.setPart_ownsGroup (p : Nat) (x : Part) (j k : Nat) : (c.setPart p x).ownsGroup j k = c.ownsGroup j k := rfl
@[simp] theorem Core.setPart_groups (p : Nat) (x : Part) (j : Nat) : (c.setPart p x).groups j = c.groups j := rfl
@[simp] theorem Core.setPart_partOfGroup (p : Nat) (x : Part) (j : Nat) : (c.setPart p x).partOfGroup j = c.partOfGroup j := rfl
@[simp] theorem Core.setPart_lead (p : Nat) (x : Part) (j : Nat) : (c.setPart p x).lead j = c.lead j := rfl
@[simp] theorem Core.setPart_stepOf (p : Nat) (x : Part) (j : Nat) : (c.setPart p x).stepOf j = c.stepOf j := rfl
@[simp] theorem Core.setPart_tile (p : Nat) (x : Part) (j : Nat) : (c.setPart p x).tile j = c.tile j := rfl
@[simp] theorem Core.setPart_phys (p : Nat) (x : Part) (j : Nat) : (c.setPart p x).phys j = c.phys j := rfl
@[simp] theorem Core.setPart_logical (p : Nat) (x : Part) (j : Nat) : (c.setPart p x).logical j = c.logical j := rfl
@[simp] theorem Core.setPart_who (p : Nat) (x : Part) (j : Nat) : (c.setPart p x).who j = c.who j := rfl
@[simp] theorem Core.evt_rd (a b d e f g : Nat) (q : Reg) (j : Nat) : (c.evt a b d e f g).rd q j = c.rd q j := rfl
@[simp] theorem Core.evt_rf (a b d e f g : Nat) (q : Fld) (j : Nat) : (c.evt a b d e f g).rf q j = c.rf q j := rfl
@[simp] theorem Core.evt_flag (a b d e f g : Nat) (q : Fld) (j : Nat) : (c.evt a b d e f g).flag q j = c.flag q j := rfl
@[simp] theorem Core.evt_pstate (a b d e f g : Nat) (j : Nat) : (c.evt a b d e f g).pstate j = c.pstate j := rfl
@[simp] theorem Core.evt_ownsGroup (a b d e f g : Nat) (j k : Nat) : (c.evt a b d e f g).ownsGroup j k = c.ownsGroup j k := rfl
@[simp] theorem Core.evt_groups (a b d e f g : Nat) (j : Nat) : (c.evt a b d e f g).groups j = c.groups j := rfl
@[simp] theorem Core.evt_partOfGroup (a b d e f g : Nat) (j : Nat) : (c.evt a b d e f g).partOfGroup j = c.partOfGroup j := rfl
@[simp] theorem Core.evt_lead (a b d e f g : Nat) (j : Nat) : (c.evt a b d e f g).lead j = c.lead j := rfl
@[simp] theorem Core.evt_stepOf (a b d e f g : Nat) (j : Nat) : (c.evt a b d e f g).stepOf j = c.stepOf j := rfl
@[simp] theorem Core.evt_tile (a b d e f g : Nat) (j : Nat) : (c.evt a b d e f g).tile j = c.tile j := rfl
@[simp] theorem Core.evt_part (a b d e f g : Nat) (j : Nat) : (c.evt a b d e f g).part j = c.part j := rfl
@[simp] theorem Core.evt_phys (a b d e f g : Nat) (j : Nat) : (c.evt a b d e f g).phys j = c.phys j := rfl
@[simp] theorem Core.evt_logical (a b d e f g : Nat) (j : Nat) : (c.evt a b d e f g).logical j = c.logical j := rfl
@[simp] theorem Core.evt_who (a b d e f g : Nat) (j : Nat) : (c.evt a b d e f g).who j = c.who j := rfl
@[simp] theorem Core.send_rd (k : Nat) (l : List Nat) (q : Reg) (j : Nat) : (c.send k l).rd q j = c.rd q j := rfl
@[simp] theorem Core.send_rf (k : Nat) (l : List Nat) (q : Fld) (j : Nat) : (c.send k l).rf q j = c.rf q j := rfl
@[simp] theorem Core.send_flag (k : Nat) (l : List Nat) (q : Fld) (j : Nat) : (c.send k l).flag q j = c.flag q j := rfl
@[simp] theorem Core.send_pstate (k : Nat) (l : List Nat) (j : Nat) : (c.send k l).pstate j = c.pstate j := rfl
@[simp] theorem Core.send_ownsGroup (k : Nat) (l : List Nat) (j m : Nat) : (c.send k l).ownsGroup j m = c.ownsGroup j m := rfl
@[simp] theorem Core.send_groups (k : Nat) (l : List Nat) (j : Nat) : (c.send k l).groups j = c.groups j := rfl
@[simp] theorem Core.send_partOfGroup (k : Nat) (l : List Nat) (j : Nat) : (c.send k l).partOfGroup j = c.partOfGroup j := rfl
@[simp] theorem Core.send_lead (k : Nat) (l : List Nat) (j : Nat) : (c.send k l).lead j = c.lead j := rfl
@[simp] theorem Core.send_stepOf (k : Nat) (l : List Nat) (j : Nat) : (c.send k l).stepOf j = c.stepOf j := rfl
@[simp] theorem Core.send_tile (k : Nat) (l : List Nat) (j : Nat) : (c.send k l).tile j = c.tile j := rfl
@[simp] theorem Core.send_part (k : Nat) (l : List Nat) (j : Nat) : (c.send k l).part j = c.part j := rfl
@[simp] theorem Core.send_phys (k : Nat) (l : List Nat) (j : Nat) : (c.send k l).phys j = c.phys j := rfl
@[simp] theorem Core.send_logical (k : Nat) (l : List Nat) (j : Nat) : (c.send k l).logical j = c.logical j := rfl
@[simp] theorem Core.send_who (k : Nat) (l : List Nat) (j : Nat) : (c.send k l).who j = c.who j := rfl

@[simp] theorem Core.wr_others (r : Reg) (i v : Nat) : (c.wr r i v).others = c.others := rfl
@[simp] theorem Core.wf_others (f : Fld) (i v : Nat) : (c.wf f i v).others = c.others := rfl
@[simp] theorem Core.count_others (f : Fld) (i n : Nat) : (c.count f i n).others = c.others := rfl
@[simp] theorem Core.setTile_others (t : Nat) (x : Tile) : (c.setTile t x).others = c.others := rfl
@[simp] theorem Core.setPart_others (p : Nat) (x : Part) : (c.setPart p x).others = c.others := rfl
@[simp] theorem Core.evt_others (a b d e f g : Nat) : (c.evt a b d e f g).others = c.others := rfl
@[simp] theorem Core.send_others (k : Nat) (l : List Nat) : (c.send k l).others = c.others := rfl

/-! ### Sequencer registers -/

@[simp] theorem Tile.gr_zero (x : Tile) : x.gr 0 = 0 := rfl
theorem Tile.gr_setGr_same (x : Tile) {n : Nat} (v : Word) (h : n ≠ 0) : (x.setGr n v).gr n = v := by simp [Tile.gr, Tile.setGr, h]
theorem Tile.gr_setGr_other (x : Tile) {n m : Nat} (v : Word) (h : m ≠ n) : (x.setGr n v).gr m = x.gr m := by
  unfold Tile.gr Tile.setGr
  split
  · rfl
  · split
    · rfl
    · exact SMap.get_put_other _ _ _ h
/-- A write to g0 is discarded (R130). -/
@[simp] theorem Tile.setGr_zero (x : Tile) (v : Word) : x.setGr 0 v = x := rfl
@[simp] theorem Tile.setGr_pc (x : Tile) (n : Nat) (v : Word) : (x.setGr n v).pc = x.pc := by unfold Tile.setGr; split <;> rfl
@[simp] theorem Tile.setGr_p (x : Tile) (n : Nat) (v : Word) : (x.setGr n v).p = x.p := by unfold Tile.setGr; split <;> rfl
@[simp] theorem Tile.setGr_t (x : Tile) (n : Nat) (v : Word) : (x.setGr n v).t = x.t := by unfold Tile.setGr; split <;> rfl
@[simp] theorem Tile.setGr_tok (x : Tile) (n : Nat) (v : Word) : (x.setGr n v).tok = x.tok := by unfold Tile.setGr; split <;> rfl
@[simp] theorem Tile.setGr_flags (x : Tile) (n : Nat) (v : Word) : (x.setGr n v).flags = x.flags := by unfold Tile.setGr; split <;> rfl
@[simp] theorem Tile.setPr_pc (x : Tile) (n : Nat) (v : Bool) : (x.setPr n v).pc = x.pc := by unfold Tile.setPr; split <;> rfl
@[simp] theorem Tile.setPr_g (x : Tile) (n : Nat) (v : Bool) : (x.setPr n v).g = x.g := by unfold Tile.setPr; split <;> rfl
theorem Tile.pr_setPr (x : Tile) {n m : Nat} (v : Bool) (hm : m < 8) : (x.setPr n v).pr m = if m = n ∧ m ≠ 7 then v else x.pr m := by
  unfold Tile.setPr Tile.pr
  by_cases h7 : m = 7
  · simp [h7]
  · by_cases hn : n = 7
    · have : ¬m = n := by omega
      simp [h7, hn]
    · simp only [h7, hn, if_false, BitVec.getLsbD_ofNat, hm, decide_true, Bool.true_and, testBit_setBits _ _ _ _ _ (Nat.le_refl n)]
      by_cases he : m = n
      · subst he; cases v <;> simp [b2n, h7]
      · have : ¬(n ≤ m ∧ m ≤ n) := by omega
        simp only [he, this, if_false, false_and]; rfl
@[simp] theorem Tile.setPr_seven (x : Tile) (v : Bool) : x.setPr 7 v = x := rfl
@[simp] theorem Tile.token_setToken_same (x : Tile) (k : Nat) (y : Token) : (x.setToken k y).token k = y := by
  simp [Tile.token, Tile.setToken]
theorem Tile.token_setToken_other (x : Tile) {k j : Nat} (y : Token) (h : j ≠ k) : (x.setToken k y).token j = x.token j :=
  SMap.get_put_other _ _ _ h

/-! ### The canonical form of the memories -/

/-- Clearing a bank keeps the canonical form of the scratchpads. -/
theorem Core.clearBank_wf (t pb : Nat) (h : Memory.wf c.scratch = true) : Memory.wf (c.clearBank t pb).scratch = true := by
  exact SMap.wf_keepIf zeroByte (fun k => decide (k / bankBytes ≠ t * 25 + pb)) h

/-- Waking a bank keeps it. -/
theorem Core.wakeBank_wf (t b : Nat) (h : Memory.wf c.scratch = true) : Memory.wf (c.wakeBank t b).scratch = true := by
  unfold Core.wakeBank
  dsimp only
  split
  · exact c.clearBank_wf t _ h
  · split <;> exact h

/-- Turning a bank off keeps it. -/
theorem Core.bankOff_wf (t b : Nat) (h : Memory.wf c.scratch = true) : Memory.wf (c.bankOff t b).scratch = true :=
  c.clearBank_wf t _ h

/-- A store to a scratchpad keeps it. -/
theorem Core.writeScratch_wf (t o : Nat) (bs : List Byte) (h : Memory.wf c.scratch = true) :
    Memory.wf (c.writeScratch t o bs).scratch = true := by
  have hw : Memory.wf (c.wakeRange t o bs.length).scratch = true := by
    unfold Core.wakeRange
    split
    · exact h
    · exact threadAll_inv (fun c : Core => Memory.wf c.scratch = true) (fun a b ha => a.wakeBank_wf t b ha) _ _ h
  exact threadAll_inv (fun m : SMap Byte => Memory.wf m = true) (fun m e hm => SMap.wf_put _ _ _ hm) _ _ hw

/-- A write of a byte of device memory keeps the form of the bytes and of their keys. -/
theorem Core.putDram_wf (k d : Nat) (b : Byte) (h : Memory.wf c.dram = true) (hk : c.dramKey.wf (fun _ => 0) = true) :
    Memory.wf (c.putDram k d b).dram = true ∧ (c.putDram k d b).dramKey.wf (fun _ => 0) = true :=
  ⟨SMap.wf_put _ _ _ h, SMap.wf_put _ _ _ hk⟩

/-- A store to a partition's view keeps it. -/
theorem Core.writeView_wf (p off : Nat) (bs : List Byte) (h : Memory.wf c.dram = true) (hk : c.dramKey.wf (fun _ => 0) = true) :
    Memory.wf (c.writeView p off bs).dram = true ∧ (c.writeView p off bs).dramKey.wf (fun _ => 0) = true := by
  refine threadAll_inv (fun c : Core => Memory.wf c.dram = true ∧ c.dramKey.wf (fun _ => 0) = true) (fun a e ha => ?_) _ _ ⟨h, hk⟩
  split
  · exact a.putDram_wf _ _ _ ha.1 ha.2
  · exact ha

/-- A write to host memory keeps it. -/
theorem Core.writeHost_wf (a : Nat) (bs : List Byte) (h : Memory.wf c.host = true) : Memory.wf (c.writeHost a bs).host = true :=
  threadAll_inv (fun m : SMap Byte => Memory.wf m = true) (fun _ _ hm => SMap.wf_put _ _ _ hm) _ _ h

/-- The memories are in canonical form after reset. -/
theorem State.reset_memWf : State.reset.core.memWf = true := by decide

end Sys2Proof.Machine
end

