-- ==== Sys2Proof/Laws/Issue.lean ====
section
/-! SUPPORT. Issue.lean: what the sequencer of a tile does with an instruction that it takes. -/

namespace Sys2Proof.Machine

variable (c : Core)

/-! ### Ownership depends on two registers and the tile map -/

/-- Two devices whose partitions' STATE and TILE_GROUPS read alike. -/
def Core.sameOwners (c c' : Core) : Prop :=
  ∀ p, c'.rd Regs.PART_STATE p = c.rd Regs.PART_STATE p ∧ c'.rd Regs.PART_TILE_GROUPS p = c.rd Regs.PART_TILE_GROUPS p

theorem Core.sameOwners.pstate {c c' : Core} (h : c.sameOwners c') (p : Nat) : c'.pstate p = c.pstate p := by
  unfold Core.pstate Core.rf; rw [show Regs.PART_STATE_STATE.reg = Regs.PART_STATE from rfl, (h p).1]

theorem Core.sameOwners.ownsGroup {c c' : Core} (h : c.sameOwners c') (p g : Nat) : c'.ownsGroup p g = c.ownsGroup p g := by
  unfold Core.ownsGroup Core.rf
  rw [h.pstate p, show Regs.PART_TILE_GROUPS_GROUPS.reg = Regs.PART_TILE_GROUPS from rfl, (h p).2]

theorem Core.sameOwners.groups {c c' : Core} (h : c.sameOwners c') (p : Nat) : c'.groups p = c.groups p := by
  unfold Core.groups; rw [show c'.ownsGroup p = c.ownsGroup p from funext (h.ownsGroup p)]

theorem Core.sameOwners.lead {c c' : Core} (h : c.sameOwners c') (p : Nat) : c'.lead p = c.lead p := by
  unfold Core.lead; rw [h.groups p]

theorem Core.sameOwners.partOfGroup {c c' : Core} (h : c.sameOwners c') (g : Nat) : c'.partOfGroup g = c.partOfGroup g := by
  unfold Core.partOfGroup; rw [show (fun p => c'.ownsGroup p g) = fun p => c.ownsGroup p g from funext fun p => h.ownsGroup p g]

theorem Core.sameOwners.who {c c' : Core} (h : c.sameOwners c') (hm : c'.map = c.map) (t : Nat) : c'.who t = c.who t := by
  unfold Core.who Core.logical Core.phys; rw [h.partOfGroup, hm]

/-- Counting an instruction of tile t changes no ownership. -/
theorem Core.count_instr_owners (t : Nat) : c.sameOwners (c.count Regs.TILE_INSTR_COUNT_COUNT t) := fun p => by
  constructor <;> refine c.rd_count_other _ ?_ <;>
    simp only [Reg.at, Reg.offsetOf, Regs.PART_STATE, Regs.PART_TILE_GROUPS, Regs.TILE_INSTR_COUNT_COUNT, Regs.TILE_INSTR_COUNT] <;> omega

@[simp] theorem Core.count_instr_who (t u : Nat) : (c.count Regs.TILE_INSTR_COUNT_COUNT t).who u = c.who u :=
  (c.count_instr_owners t).who rfl u

/-! ### Issue -/

/-- A tile that takes an instruction counts it and runs its effect. -/
theorem Core.sequence_takes {t : Nat} {reason : Option Nat} {guard : Nat} {neg : Bool} (h : c.takes_ t reason guard neg = true)
    (major len : Nat) (body : Core → Core) :
    c.sequence t major len reason guard neg body = body (c.count Regs.TILE_INSTR_COUNT_COUNT t) := by
  simp only [Core.takes_, Bool.and_eq_true, Option.isNone_iff_eq_none] at h
  obtain ⟨⟨⟨h1, h2⟩, h3⟩, h4⟩ := h
  subst h3
  simp [Core.sequence, h1, h2, h4]

/-- A command that acts on the volatile part alone answers a next state. -/
theorem answers_on {s : State} {i : Instr} {f : Core → Core} {P : Core → Prop} (h : exec i s = s.on f) (hp : P (f s.core)) :
    Answers s i P := ⟨f s.core, h, hp⟩

/-- A scalar-format instruction that is taken. -/
theorem Core.scalarIns_takes {x : SArgs} {op : SOp} (h : c.takesS x op = true) (body : Core → Core) :
    c.scalarIns x op body = body (c.count Regs.TILE_INSTR_COUNT_COUNT x.tile.val) :=
  c.sequence_takes h _ _ _

/-- A tensor-format instruction that is taken starts its operation. -/
theorem Core.tensorIns_takes {x : TArgs} {op : TOp} (h : c.takesT x op = true) (body : Core → Nat → Nat → OpRes) :
    c.tensorIns x op body =
      (c.count Regs.TILE_INSTR_COUNT_COUNT x.tile.val).beginOp x op (c.who x.tile.val).1 (c.who x.tile.val).2 body := by
  simp only [Core.takesT, Bool.and_eq_true, bne_iff_ne, ne_eq, Bool.or_eq_true, Bool.not_eq_eq_eq_not, Bool.not_true] at h
  obtain ⟨⟨⟨h1, h2⟩, h3⟩, h4⟩ := h
  have hr : (x.isRec op && !c.canOpen (c.who x.tile.val).2) = false := by
    rcases h4 with h4 | h4 <;> simp [h4]
  simp [Core.tensorIns, h3, hr, c.sequence_takes h1, h2, Bool.and_assoc]

/-! ### Program faults -/

theorem Core.stopTile_view (l : Nat) :
    (c.stopTile l).regs = c.regs ∧ (c.stopTile l).evtBuf = c.evtBuf ∧ (c.stopTile l).parts = c.parts ∧ (c.stopTile l).others = c.others := by
  unfold Core.stopTile
  split
  · split <;> exact ⟨rfl, rfl, rfl, rfl⟩
  · exact ⟨rfl, rfl, rfl, rfl⟩

theorem Core.stopTiles_view (ls : List Nat) :
    (threadAll Core.stopTile c ls).regs = c.regs ∧ (threadAll Core.stopTile c ls).evtBuf = c.evtBuf ∧
      (threadAll Core.stopTile c ls).parts = c.parts ∧ (threadAll Core.stopTile c ls).others = c.others :=
  ⟨threadAll_view Core.regs (fun a b => (a.stopTile_view b).1) ls c, threadAll_view Core.evtBuf (fun a b => (a.stopTile_view b).2.1) ls c,
    threadAll_view Core.parts (fun a b => (a.stopTile_view b).2.2.1) ls c, threadAll_view Core.others (fun a b => (a.stopTile_view b).2.2.2) ls c⟩

/-- A tile that has stopped stays as it is. -/
theorem Core.stopTiles_tile {t : Nat} (ls : List Nat) : ∀ c : Core, (c.tile t).run = 2 → (threadAll Core.stopTile c ls).tile t = c.tile t := by
  induction ls with
  | nil => intro c _; rfl
  | cons l r ih =>
    intro c h
    have one : (c.stopTile l).tile t = c.tile t := by
      unfold Core.stopTile
      split
      · rename_i u _
        split
        · rename_i h1
          exact Core.tile_setTile_other _ _ (fun e => by rw [← e, h] at h1; cases h1)
        · rfl
      · rfl
    rw [threadAll, ih _ (by rw [one]; exact h), one]

/-- Stopping a program writes the stop and its cause, and touches no register or event. -/
theorem Core.stopProgram_view {p : Nat} {pr : Prog} (h : (c.part p).prog = some pr) (hs : pr.stopping = false) (st : Nat)
    (f : Option (Nat × Nat × Nat × Nat)) :
    (c.stopProgram p st f).regs = c.regs ∧ (c.stopProgram p st f).evtBuf = c.evtBuf ∧
      ((c.stopProgram p st f).part p).prog = some { pr with stopping := true, endStatus := st, fault := f } := by
  simp only [Core.stopProgram, h, hs, Bool.false_eq_true, if_false]
  have e := (c.setPart p { c.part p with prog := some { pr with stopping := true, endStatus := st, fault := f } }).stopTiles_view pr.tiles
  refine ⟨e.1, e.2.1, ?_⟩
  rw [Core.part_of_parts e.2.2.1, Core.part_setPart_same]

theorem Core.stopProgram_tile {p t : Nat} {pr : Prog} (h : (c.part p).prog = some pr) (hs : pr.stopping = false) (st : Nat)
    (f : Option (Nat × Nat × Nat × Nat)) (ht : (c.tile t).run = 2) : (c.stopProgram p st f).tile t = c.tile t := by
  simp only [Core.stopProgram, h, hs, Bool.false_eq_true, if_false]
  exact Core.stopTiles_tile _ _ ht

/-- What a tile's fault writes before its program stops. -/
theorem Core.noteFault_view (t w : Nat) :
    (c.noteFault t w).rd Regs.TILE_FAULT_INFO t = w % 2 ^ 64 ∧ (c.noteFault t w).parts = c.parts ∧
      (c.noteFault t w).tile t = { c.tile t with run := 2, stall := none } ∧
      (c.noteFault t w).evtBuf = c.evtBuf ++ [⟨Cls.item, Src.tile t, (c.who t).2, 0x0300, w % 2 ^ 64,
        ((c.who t).1 + (c.tile t).imageTile * 2 ^ 8) % 2 ^ 64⟩] :=
  ⟨c.rd_wr_same _ _ _, rfl, by simp [Core.noteFault], rfl⟩

/-- A program fault of a tile whose partition's program runs. -/
theorem Core.faults_programFault {t : Nat} {pr : Prog} (h : (c.part (c.who t).2).prog = some pr) (hs : pr.stopping = false)
    (reason st major : Nat) : c.faults (c.programFault t reason st major) t reason st major := by
  have hw : c.faultWord t reason st major = st + reason * 65536 + major * 16777216 + (c.tile t).pc * 4294967296 := rfl
  unfold Core.programFault Core.faults
  dsimp only
  rw [← hw]
  generalize c.faultWord t reason st major = w
  obtain ⟨h1, h2, h3, h4⟩ := c.noteFault_view t w
  have hp : ((c.noteFault t w).part (c.who t).2).prog = some pr := by rw [Core.part_of_parts h2]; exact h
  have e := (c.noteFault t w).stopProgram_view hp hs st (some (st, reason, (c.who t).1, (c.tile t).pc))
  have et := (c.noteFault t w).stopProgram_tile (t := t) hp hs st (some (st, reason, (c.who t).1, (c.tile t).pc)) (by rw [h3])
  refine ⟨?_, ?_, ?_, ?_, ?_⟩
  · rw [et, h3]
  · rw [et, h3]
  · rw [Core.rd_of_regs e.1, h1]
  · rw [e.2.1, h4]
  · exact ⟨_, e.2.2, rfl, rfl, rfl⟩

/-- A tile that can issue has a running program. -/
theorem Core.canIssue_prog {t : Nat} (h : c.canIssue t = true) :
    ∃ pr, (c.part (c.who t).2).prog = some pr ∧ pr.stopping = false := by
  unfold Core.canIssue at h
  unfold Core.who
  simp only [Bool.and_eq_true] at h
  have h := h.2
  split at h
  · rename_i l p hl hp
    simp only [Bool.and_eq_true] at h
    have h := h.2
    rw [hp]
    split at h
    · rename_i pr hpr
      exact ⟨pr, hpr, by simpa using h⟩
    · cases h
  · cases h

/-- A tile that can issue runs and is not stalled. -/
theorem Core.canIssue_tile {t : Nat} (h : c.canIssue t = true) : (c.tile t).run = 1 ∧ (c.tile t).stall = none := by
  unfold Core.canIssue at h
  simp only [Bool.and_eq_true, beq_iff_eq, Option.isNone_iff_eq_none] at h
  exact ⟨h.1.1.1.1.1.1.1, h.1.1.1.1.1.1.2⟩

/-- What moving the pc leaves. -/
@[simp] theorem Core.tile_advance_pc (t len : Nat) : ((c.advance t len).tile t).pc = ((c.tile t).pc + len) % 2 ^ 22 := by
  simp [Core.advance]
theorem Core.tile_advance (t len : Nat) : (c.advance t len).tile t = { c.tile t with pc := ((c.tile t).pc + len) % 2 ^ 22 } := by
  simp [Core.advance]
theorem Core.tile_advance_other {t u : Nat} (len : Nat) (h : u ≠ t) : (c.advance t len).tile u = c.tile u := by
  simp [Core.advance, Core.tile_setTile_other _ _ h]

/-- Counting an instruction of tile t, and any update of tile t, change nothing else. -/
theorem Core.onlySeq_count (t : Nat) : c.onlySeq (c.count Regs.TILE_INSTR_COUNT_COUNT t) t :=
  ⟨rfl, rfl, rfl, rfl, fun _ _ => rfl, fun _ _ h => c.rd_count_other _ h⟩

theorem Core.onlySeq.setTile {c c' : Core} {t : Nat} (h : c.onlySeq c' t) (x : Tile) : c.onlySeq (c'.setTile t x) t :=
  ⟨h.1, h.2.1, h.2.2.1, h.2.2.2.1, fun u hu => by rw [Core.tile_setTile_other _ _ hu]; exact h.2.2.2.2.1 u hu, h.2.2.2.2.2⟩

theorem Core.onlySeq.advance {c c' : Core} {t : Nat} (h : c.onlySeq c' t) (len : Nat) : c.onlySeq (c'.advance t len) t := h.setTile _

/-- What a tile's own update and the move of its pc make of the device: one update of the tile. -/
theorem Core.setTile_advance (t len : Nat) (x : Tile) :
    (c.setTile t x).advance t len = (c.setTile t x).setTile t { x with pc := (x.pc + len) % 2 ^ 22 } := by
  simp [Core.advance]

theorem Core.rf_instrCount (t : Nat) (x : Tile) :
    ((c.count Regs.TILE_INSTR_COUNT_COUNT t).setTile t x).rf Regs.TILE_INSTR_COUNT_COUNT t =
      min (c.rf Regs.TILE_INSTR_COUNT_COUNT t + 1) Regs.TILE_INSTR_COUNT_COUNT.top := by
  rw [Core.setTile_rf]; exact c.rf_count_same _ _ _ (by decide)

end Sys2Proof.Machine
end

