-- ==== Sys2Proof/WellFormed.lean ====
section
/-! DEFINITION. WellFormed.lean: the commands whose operands describe something that can happen on the device's pins. The table
gives no operands (assumption 2), so these are checks of the model's own operands against the sizes the spec gives. -/

namespace Sys2Proof

/-- Bytes that a memory loses or replays are bytes of that memory, 272 tiles of 25 banks (R328) and 372 granules (R365); a corrected access takes
1 to 3 replays (R332, R362); the host ends an access with a status of R17. -/
def MemEnv.wf (e : MemEnv) : Bool :=
  let inScratch := fun (k : Nat) => decide (k < 272 * 25 * 131072)
  let inDram := fun (d : Nat) => decide (d < 372 * 0x10000000)
  let replays := fun (n : Nat) => decide (1 ≤ n) && decide (n ≤ 3)
  e.scratchLost.all inScratch && e.dramLost.all inDram && decide (e.hostStatus ≤ 0x11) &&
  e.scratchReplayed.all (fun r => inScratch r.1 && replays r.2) && e.dramReplayed.all (fun r => inDram r.1 && replays (r.2.1 + r.2.2))

/-- A packet carries at most the largest PMTU, 8,192 bytes (R436). -/
def Pkt.wf (k : Pkt) : Bool := decide (k.payload.length ≤ 8192)

/-- A frame's bytes are no more than its length (R412), and a packet it carries is well formed. -/
def Frame.wf (f : Frame) : Bool :=
  decide (f.bytes.length ≤ f.len.toNat) && match f.apong with | some (_, k) => k.wf | none => true

/-- The host link runs at one of three rates and at a width of 4, 8 or 16 lanes (R550). -/
def linkWf (rate : Fin 4) (width : Fin 17) : Bool := rate != 0 && (width == 4 || width == 8 || width == 16)

/-- A write carries as many bytes as it says; a read carries none. -/
def dataWf (n : Nat) (data : Option (List Byte)) : Bool := match data with | some b => b.length == n | none => true

/-- Well-formed commands; words lost in a copy lie in the tile's 24 banks or in the bank (R327). -/
def Instr.wf : Instr → Bool
  | .nop x | .add x | .sub x | .mul x | .divu x | .remu x | .and x | .or x | .xor x | .shl x | .shr x | .sar x | .mins x
  | .maxs x | .taddr x | .sysv x | .cmpeq x | .cmpne x | .cmplt x | .cmpltu x | .cmpge x | .cmpgeu x | .pand x | .por x
  | .pxor x | .br x | .bri x | .call x | .halt x | .ld1 x | .ld2 x | .ld4 x | .ld8 x | .st1 x | .st2 x | .st4 x | .st8 x
  | .ldt x | .stt x | .lds1 x | .lds2 x | .lds4 x | .copy x | .fill x | .gather x | .scatter x | .mm x | .mmsp x | .mmbs x
  | .mm32 x | .vadd x | .vsub x | .vmul x | .vfma x | .vmax x | .vmin x | .vcvt x | .vscale x | .vrsum x | .vrmax x
  | .vnormsq x | .vexp x | .vrecip x | .vrsqrt x | .vsoftmax x | .cbload x | .encode x | .decode x | .enc16 x | .srelu x
  | .sdrop x | .sabs x | .sclamp x | .grelu x | .gdrop x | .gabs x | .gclamp x | .grelux x | .gdropx x | .gabsx x
  | .gclampx x | .rput x | .rget x | .ratom x | .rsend x | .rrecv x | .rscat x | .agath x | .a2a x | .ring x | .audit x
  | .ckpt x | .update x | .updprog x | .lscale x | .exportOp x | .rowupd x | .route x | .wait x | .waitt x | .signal x
  | .waitf x | .waitfc x | .phase x | .event x | .cqpost x | .stest x | .cfgbegin x | .cfgwr x | .cfgcommit x | .cfgrback x => x.env.wf
  | .frameReceive f _ => f.wf
  | .write k | .send k | .readReq k | .readResp k | .atomicReq k | .atomicResp k | .done k | .nak k | .status k
  | .statusReq k | .credit k | .creditReq k | .creditReturn k | .abort k | .collData k | .commit k | .replay k | .collAbort k
  | .probe k | .probeResp k => k.wf
  | .installModel _ _ env | .installBinding _ _ env | .sealCmd _ _ env | .unsealCmd _ _ env | .sqEntryFetch _ env
  | .program _ env | .sqCopy _ env => env.wf
  | .hostLinkChanged rate width _ | .hostLinkUp rate width _ => linkWf rate width
  | .bar4Access _ _ n data => dataWf n.val data
  | .tileSwapDrained _ lost => lost.all (fun o => decide (o < 0x300000))
  | .bankSpared _ lost => lost.all (fun o => decide (o < 0x20000))
  | .registerWrite .. | .rcRead .. | .rcLowerWordRead .. | .tileSpareRequest .. | .tileSpared ..
  | .regionSkewClamp .. | .regionSkewRelease .. | .regionSkewPersist .. | .tsServoMeasure .. | .tsStep .. | .tsSourceLost
  | .refclkLost | .evtQEnable .. | .evtQHeadWrite .. | .evtQueueWriteFail .. | .evtQModTimer .. | .logDataRead
  | .illegalInstruction .. | .stashSpillDone .. | .updprogChunkTimeout .. | .operationComplete .. | .programEnd ..
  | .stepClose .. | .stepAgreementTimeout .. | .updateApplyDone .. | .stepBoundary .. | .programStart .. | .bankOff ..
  | .bankPowerDown .. | .bankOn .. | .bankRetain .. | .bankWake .. | .bankWakeDone .. | .bankCfgWrite .. | .bankSwapReq ..
  | .umbraWiped .. | .channelRetrain .. | .retireReq .. | .channelRetireStart | .granuleMigrated ..
  | .channelRetired .. | .ssdEnable .. | .nvmeCompletion .. | .ssdFailed .. | .dirData .. | .rowAccessDeadline ..
  | .rowAccept .. | .rowFetchDone .. | .rowWriteback .. | .rowWritebackDone .. | .rowStepDeadline .. | .laneSpareTrigger ..
  | .oeSpareReq .. | .txSparePause .. | .laneSpared .. | .portEnable .. | .linkUp .. | .linkFault .. | .linkDown ..
  | .creditUpdate .. | .rawTxTail .. | .txTsTag .. | .snap .. | .rtoExpiry .. | .backoffExpiry .. | .reassemblyTimeout ..
  | .creditIdleReturn .. | .creditRepeat .. | .creditReqRetry .. | .qpCreate .. | .qpDestroy .. | .regionInval ..
  | .regionInvalDrained .. | .contextFetchDone .. | .groupForm .. | .groupDissolve .. | .collTimeout .. | .probeCmd ..
  | .partitionCreate .. | .partitionRemove .. | .keyIdsRevoked .. | .partitionFreed .. | .partitionDrainForced ..
  | .granuleScrubbed .. | .partitionReset .. | .installEpoch .. | .switchEpoch | .epochGraceEnd | .deleteSlot .. | .claim ..
  | .release .. | .lcRetire .. | .tamperDetected .. | .spdmRequest .. | .sqDoorbell .. | .cqDoorbell .. | .fence ..
  | .fenceComplete .. | .orderedItemStart .. | .pCancel .. | .itemTimeLimit .. | .recordWrite .. | .cqWriteError ..
  | .sqFetchError .. | .sqEnable .. | .cqEnable .. | .cqModTimer .. | .txnBegin .. | .txnCommit .. | .txnRollback ..
  | .cfgTxnTimeout .. | .coldReset .. | .deviceReady | .warmReset | .pf0Flr | .tileReset .. | .heldClear | .hostLinkDown
  | .atsInvalidation .. | .powerControlStep .. | .capWrite .. | .dutySlot | .railLimit .. | .marginTrimmed ..
  | .marginAlarm .. | .thermalThrottle .. | .thermalThrottleEnd .. | .thermalTrip .. | .sensorFault .. | .supplyWarning ..
  | .supplyWarningEnd | .vsaveCharged | .supplyLossDetected .. | .saveCommit .. | .saveRestore .. | .budgetReport
  | .budgetReportReceive .. | .budgetDecision | .tagSlotClear .. | .fwStage .. | .fwStaged .. | .fwActivate ..
  | .fwActivationBarrier | .fwActivated | .fwActivateTimeout | .fwAbandon | .fwDiscard | .svnCommit | .fwTrialPass
  | .fwTrialTimeout .. | .settingsMigrated | .spareClear .. | .tstateCmd .. | .gpioEdge .. | .refclkReturned ..
  | .perstNRelease .. | .pfailNRelease .. | .pcsLock .. | .beaconRestarted | .thermtripTimeout | .saveVsaveLost ..
  | .provisioning .. | .configRequest .. => true

end Sys2Proof
end

