-- ==== Sys2Proof/Tests/Slice0.lean ====
section
/-! SUPPORT. Slice0.lean: the model's own tests: the well-formedness smoke, words of Dioth written out bit by bit, single steps, and for each
statement with hypotheses a theorem that shows a state and operands that meet them (`witness_<Statement>`). -/

set_option maxRecDepth 20000

namespace Sys2Proof.Machine

/-! ### Small states -/

/-- A device whose partition 0 is ACTIVE on tile group 0 and whose program runs on logical tile 0, there with the sequencer `x`. -/
def running (x : Tile) : Core :=
  let c : Core := {}
  let c := (c.wf Regs.PART_STATE_STATE 0 pACTIVE).wf Regs.PART_TILE_GROUPS_GROUPS 0 1
  let c := (c.wf Regs.DEV_STATUS_READY 0 1).wf Regs.PWR_PWR_STATUS_VSAVE_CHARGED 0 1
  (c.setPart 0 { key := 1, prog := some { item := 0, tiles := [0], started := true } }).setTile 0 { x with run := 1 }

/-- A state with that device. -/
def st (c : Core) : State := { core := c, perm := {}, pending := [] }

/-- Operands of a scalar instruction of tile 0 under p7, with d, a, b and the immediate. -/
def sx (d a b : Fin 32) (imm : BitVec 37) : SArgs :=
  { tile := 0, guard := 7, d := d, a := a, b := b, imm := imm, wide := none, neg := false }

/-- The sequencer with one register set. -/
def withG (n : Nat) (v : Word) : Tile := ({} : Tile).setGr n v

end Sys2Proof.Machine

open Sys2Proof Sys2Proof.Machine

/-! ### Witnesses: the scalar instructions -/

theorem witness_ScalarInstructions :
    (Instr.add (sx 4 5 6 3), SOp.ADD, fun a b : Word => a + b) ∈ aluRows (sx 4 5 6 3) ∧ (st (running {})).core.takesS (sx 4 5 6 3) .ADD = true ∧
    (st (running {})).core.takesS (sx 0 5 6 3) .DIVU = true ∧ (st (running {})).core.takesS (sx 7 5 6 3) .CMPLT = true ∧
    (st (running {})).core.takesS (sx 7 1 2 0) .PXOR = true :=
  ⟨.head _, by decide, by decide, by decide, by decide⟩

theorem witness_TaddrSysvNop :
    (st (running {})).core.takesS (sx 7 5 6 3) .TADDR = true ∧ (st (running {})).core.takesS (sx 0 0 0 0) .NOP = true ∧
    ((st (running {})).core.takesS (sx 3 0 0 8) .SYSV = true ∧ ((8 : BitVec 37).toNat, 0) ∈ systemValues (running {}) 0) ∧
    ((st (running {})).core.takesS (sx 3 0 0 4) .SYSV = true ∧ ((4 : BitVec 37).toNat, 0x3FFF) ∈ systemValues (running {}) 0) := by
  decide

theorem witness_BranchesAndHalt :
    let s := st (running (withG 5 9))
    let f := st (running (({} : Tile).setToken 15 { status := St.LENGTH }))
    (s.core.takesS (sx 1 0 0 2) .CALL = true ∧ (BitVec.ofNat 64 0 + 8 * (2 : BitVec 37).signExtend 64 : Word).toNat % 8 = 0) ∧
    (s.core.takesS (sx 0 5 0 0) .BRI = true ∧ ((s.core.tile 0).gr 5 + (sx 0 5 0 0).immWord).toNat % 8 ≠ 0) ∧
    (s.core.takesS (sx 0 0 0 0) .HALT = true ∧ (s.core.tile 0).allSignalled 0xFFFF ∧ (s.core.tile 0).noFailure 0xFFFF) ∧
    ¬((running (({} : Tile).setToken 15 { count := 1 })).tile 0).allSignalled 0xFFFF ∧
    (f.core.takesS (sx 0 0 0 0) .HALT = true ∧ (f.core.tile 0).allSignalled 0xFFFF ∧ (f.core.tile 0).firstFailure 0xFFFF St.LENGTH) := by
  simp only [Tile.allSignalled, Tile.noFailure]
  exact ⟨by decide, by decide, by decide, by decide, by decide, by decide, 15, by decide⟩

theorem witness_Waits :
    let s := st (running ({ ({} : Tile) with flags := [(31, 7)] }.setToken 1 { status := St.BOUNDS }))
    let y := s.core.tile 0
    (s.core.takesS (sx 0 0 0 1) .WAIT = true ∧ y.allSignalled 1 ∧ y.noFailure 1) ∧
    (s.core.takesS (sx 0 0 0 3) .WAIT = true ∧ y.allSignalled 3 ∧ y.firstFailure 3 St.BOUNDS) ∧
    (s.core.takesS (sx 9 0 0 0x8002) .WAITT = true ∧ y.allSignalled 0x8002 ∧ y.firstFailure 0x8002 St.BOUNDS) ∧
    ¬(({} : Tile).setToken 0 { count := 255 }).allSignalled 1 ∧
    (s.core.takesS (sx 0 0 0 (31 + 7 * 32)) .WAITF = true ∧ bits (31 + 7 * 32 : BitVec 37).toNat 36 5 ≤ y.fl (bits (31 + 7 * 32 : BitVec 37).toNat 4 0)) ∧
    (s.core.takesS (sx 0 0 0 (31 + 8 * 32)) .WAITFC = true ∧ y.fl (bits (31 + 8 * 32 : BitVec 37).toNat 4 0) < bits (31 + 8 * 32 : BitVec 37).toNat 36 5) := by
  simp only [Tile.allSignalled, Tile.noFailure]
  exact ⟨by decide, ⟨by decide, by decide, 1, by decide⟩, ⟨by decide, by decide, 1, by decide⟩, by decide, by decide, by decide⟩

theorem witness_Signal :
    let s := fun (l : Word) => (running (withG 5 l)).setTile 1 { stall := some (.flag 0 4 true) }
    let x := sx 0 5 0 0x60
    ((s 1).takesS x .SIGNAL = true ∧ (s 1).phys 1 = some 1 ∧ (s 1).ownsGroup ((s 1).who 0).2 (1 / 16) = true ∧
      ((s 1).tile 1).stall = some (.flag (bits x.imm.toNat 4 0) 4 true) ∧ 4 ≤ min (((s 1).tile 1).fl 0 + (bits x.imm.toNat 20 5 + 1)) (2 ^ 32 - 1)) ∧
    ((s 1).takesS (sx 0 5 0 0x40) .SIGNAL = true ∧ bits (0x40 : BitVec 37).toNat 20 5 + 1 < 4) ∧
    ((s 0).takesS x .SIGNAL = true ∧ (s 0).phys 0 = some 0 ∧ (s 0).ownsGroup ((s 0).who 0).2 0 = true) ∧
    ((s 256).takesS x .SIGNAL = true ∧ 255 < (((s 256).tile 0).gr 5).toNat) ∧
    ((s 255).takesS x .SIGNAL = true ∧ (((s 255).tile 0).gr 5).toNat ≤ 255 ∧ ((s 255).phys 255).isSome = true ∧
      (s 255).ownsGroup ((s 255).who 0).2 (255 / 16) = false) := by
  decide

theorem witness_EventAndCqpost :
    let s := fun (v : Word) => (running (withG 5 v)).wf Regs.HIF_CQ_CFG_ENABLE (qi 0 63) 1
    ((s 0x8000).takesS (sx 7 5 6 0) .EVENT = true ∧ 0x8000 ≤ (((s 0x8000).tile 0).gr 5).toNat % 65536) ∧
    ((s 0x7FFF).takesS (sx 7 5 6 0) .EVENT = true ∧ (((s 0x7FFF).tile 0).gr 5).toNat % 65536 < 0x8000) ∧
    ((s 0xFFFF).takesS (sx 0 5 6 63) .CQPOST = true ∧ (s 0xFFFF).rf Regs.HIF_CQ_CFG_ENABLE (qi 0 63) = 1 ∧ (s 0xFFFF).slotsUsed 0 ≠ 4096) ∧
    (s 0x7FFF).takesS (sx 0 5 6 63) .CQPOST = true ∧
    ((s 0x8000).takesS (sx 0 5 6 62) .CQPOST = true ∧ (s 0x8000).rf Regs.HIF_CQ_CFG_ENABLE (qi 0 62) ≠ 1) := by
  decide

/-- The partition's phase is forward, and an operation of major opcode `m` runs on tile 0 (none: no operation). -/
def phased (m : Option Nat) : Core :=
  let c := running {}
  let c := c.setPart 0 { c.part 0 with phase := 1 }
  match m with | some m => { c with ops := [{ id := 0, part := 0, ltile := 0, tok := 0, major := m, unit := 0 }] } | none => c

theorem witness_PhaseAndStest :
    ((phased (some 0x9F)).takesS (sx 0 0 0 1) .PHASE = true ∧ ((phased (some 0x9F)).part 0).phase ≠ 0 ∧
      (phased (some 0x9F)).ops.any (fun o => o.ltile == 0 && o.part == 0 && drained o.major) = true) ∧
    ((phased none).takesS (sx 0 0 0 1) .PHASE = true ∧ (phased none).ops = [] ∧ ((phased none).part 0).prog.map (fun r => r.tiles) = some [0] ∧
      (phased none).phys 0 = some 0 ∧ (phased none).partClamped 0 = false ∧ (phased none).fwWaits = false) ∧
    ((running {}).takesS (sx 0 0 0 1) .PHASE = true ∧ ((running {}).part 0).phase = 0) ∧
    ((running {}).setPart 0 { (running {}).part 0 with prog := some { item := 0, tiles := [0, 1], started := true } }).takesS (sx 0 0 0 0) .PHASE = true ∧
    (phased (some 0x90)).takesS (sx 6 0 0 0) .STEST = true ∧ (phased none).takesS (sx 7 0 0 0x1FFFF) .STEST = true := by
  decide

theorem witness_IllegalInstruction :
    (decodeDioth 0xFF00000000000000 0 = .illegal 1 1 ∧ decodeDioth 0 0 = .ins (.s { op := .NOP, guard := 0, neg := false, d := 0, a := 0, b := 0, imm := 0, wide := none }) 1) ∧ (running {}).canIssue 0 = true ∧ (running {}).fetchFault 0 = none := by
  decide

/-! ### Witnesses: memory -/

theorem witness_Loads :
    let c := running (withG 5 0x27FFF8)
    (c.takesS (sx 3 5 0 0) .LD8 = true ∧ (c.atIssue 0).accessOk (sx 3 5 0 0) 8 0b1000111 false) ∧
    (c.takesS (sx 3 5 0 7) .LDS1 = true ∧ (c.atIssue 0).accessOk (sx 3 5 0 7) 1 0b1000111 false) ∧
    (c.takesS (sx 3 0 0 0x40) .LDT = true ∧ (c.atIssue 0).accessOk (sx 3 0 0 0x40) 32 1 false) := by
  simp only [Core.accessOk]; decide

theorem witness_Stores :
    let c := running (withG 5 0x27FFF8)
    (c.takesS (sx 0 5 6 0) .ST8 = true ∧ (c.atIssue 0).accessOk (sx 0 5 6 0) 8 0b1000111 true) ∧
    (c.takesS (sx 3 0 0 0x40) .STT = true ∧ (c.atIssue 0).accessOk (sx 3 0 0 0x40) 32 1 true) := by
  simp only [Core.accessOk]; decide

theorem witness_MisalignedAccess :
    let c := running (withG 5 0x27FFF9)
    (c.takesS (sx 0 5 6 0) .ST2 = true ∧ SArgs.address (sx 0 5 6 0) (c.tile 0) % 2 ≠ 0) ∧
    (c.takesS (sx 9 5 0 0) .LD4 = true ∧ SArgs.address (sx 9 5 0 0) (c.tile 0) % 4 ≠ 0) ∧
    (c.takesS (sx 0 0 0 16) .LDT = true ∧ SArgs.address (sx 0 0 0 16) (c.tile 0) % 32 ≠ 0) := by
  decide
/-! ### Witnesses: the tensor instructions -/

namespace Sys2Proof.Machine

/-- A descriptor at `addr` of format `fmt` and extents e0 × e1, its strides those of a dense row-major tensor of `n` bytes an element. -/
def tdesc (addr fmt e0 e1 n : Nat) : BitVec 256 :=
  BitVec.ofNat 256 (addr + fmt * 2 ^ 64 + e0 * 2 ^ 80 + e1 * 2 ^ 104 + 2 ^ 128 + 2 ^ 152 + (e0 * n) * 2 ^ 176 + (e0 * e1 * n) * 2 ^ 202 + (e0 * e1 * n) * 2 ^ 228)

/-- A sequencer with t0, t1, t2 and t3 set. -/
def withT (a b c d : BitVec 256) : Tile := { t := [(0, a), (1, b), (2, c), (3, d)] }

/-- Operands of a tensor instruction of tile 0 with token 9, the modifiers and the immediate. -/
def tx (td ta tb tc : Fin 16) (mods : BitVec 24) (wide : Option Word) : TArgs :=
  { tile := 0, td := td, ta := ta, tb := tb, tc := tc, k := 9, mods := mods, wide := wide }

/-- Four tensors of 2 × 1 elements of `n` bytes and format `fmt`. -/
def tiny (fmt n : Nat) : Tile := withT (tdesc 0x1000 fmt 2 1 n) (tdesc 0x2000 fmt 2 1 n) (tdesc 0x3000 fmt 2 1 n) (tdesc 0x4000 fmt 2 1 n)

/-- A device whose memories take the operands, when the checks pass and no byte is lost. -/
theorem runs_of {c : Core} {x : TArgs} {ops : List Operand} {shape inPlace : Bool}
    (h : (c.atUnit x.tile.val).issueChecks (c.who x.tile.val).2 (c.who x.tile.val).1 ops shape inPlace = 0)
    (m : ((c.atUnit x.tile.val).memFaults (c.who x.tile.val).2 (c.who x.tile.val).1 ops x.env).1 = 0) : ∃ b, c.runsFrom b x ops shape inPlace :=
  ⟨_, h, Prod.ext m rfl⟩

end Sys2Proof.Machine

theorem witness_TensorIssue :
    let x := tx 0 1 2 0 0 none
    let r := tx 0 1 0 0 0x800000 none
    (Instr.gather x, TOp.GATHER, Core.flushSlow, fun (c : Core) l p => c.opRows x l p true) ∈ tensorRows x ∧
    (running (tiny 2 4)).takesT x .GATHER = true ∧ (running (tiny 2 4)).takesT r .VCVT = true ∧ r.isRec .VCVT = true :=
  ⟨.tail _ (.tail _ (.head _)), by decide, by decide, by decide⟩

theorem witness_TensorValues :
    let c := running (tiny 2 4)
    let y := c.tile 0
    let x := tx 0 1 2 3 0 none
    let r := tx 0 1 0 0 0 none
    (y.desc 0).empty = false ∧
    (c.takesT x .VFMA = true ∧ c.recordOk x .VFMA ∧ ∃ b, c.runsFrom b x (unitOps (y.desc 0) [y.desc 1, y.desc 2, y.desc 3] spUnit)
      ((y.desc 0).isFP && ((y.desc 1).isFP && (y.desc 1).fits (y.desc 0) && ((y.desc 2).isFP && (y.desc 2).fits (y.desc 0) &&
        ((y.desc 3).isFP && (y.desc 3).fits (y.desc 0))))) true) ∧
    (c.takesT r .VSOFTMAX = true ∧ ∃ b, c.runsFrom b r (unitOps (y.desc 0) [y.desc 1] spUnit) ((y.desc 0).isFP && (y.desc 1).isFP && (y.desc 0).sameExt (y.desc 1)) true) ∧
    (c.takesT r .LSCALE = true ∧ ∃ b, c.runsFrom b r [{ d := y.desc 0, dest := true, spaces := spOwn }, { d := y.desc 1, spaces := spOwn }]
      ((y.desc 0).isFP32 && (y.desc 1).isFP32 && (y.desc 0).sameExt (y.desc 1)) false) :=
  ⟨by decide, ⟨by decide, .inl (by decide), runs_of (by decide) (by decide)⟩, ⟨by decide, runs_of (by decide) (by decide)⟩,
    ⟨by decide, runs_of (by decide) (by decide)⟩⟩

theorem witness_TensorValues_reduce :
    let c := running (withT (tdesc 0x1000 2 1 1 4) (tdesc 0x2000 2 2 1 4) 0 0)
    let y := c.tile 0
    let r := tx 0 1 0 0 0 none
    c.takesT r .VRSUM = true ∧ c.recordOk r .VRSUM ∧ (y.desc 0).empty = false ∧ (y.desc 1).empty = false ∧ ∃ b, c.runsFrom b r (unitOps (y.desc 0) [y.desc 1] spUnit)
      ((y.desc 0).isFP && (y.desc 1).isFP && (List.range 4).all (fun k => (y.desc 0).ext k == (if k = (y.desc 1).red then 1 else (y.desc 1).ext k))) false :=
  ⟨by decide, .inl (by decide), by decide, by decide, runs_of (by decide) (by decide)⟩

theorem witness_TensorValues_enc16 :
    let c := running (withT (tdesc 0x1000 1 2 1 2) (tdesc 0x2000 2 2 1 4) 0 0)
    let y := c.tile 0
    let r := tx 0 1 0 0 4 none
    c.takesT r .ENC16 = true ∧ ∃ b, c.runsFrom b r (unitOps (y.desc 0) [y.desc 1] spUnit)
      ((y.desc 1).isFP32 && (y.desc 0).isFP16 && (y.desc 1).sameExt (y.desc 0)) false :=
  ⟨by decide, runs_of (by decide) (by decide)⟩

theorem witness_TensorReadBack :
    let c := ((running (tiny 2 4)).setBankState 0 0 bkON)
    let d := (c.tile 0).desc 0
    d.isFP = true ∧ d.formOk true = true ∧ d.len = none ∧ [7, 2 ^ 32 + 1].length = d.indices.length ∧ d.mayCollide = false ∧ d.span = 8 ∧
      (∀ a, a < 8 → c.place 0 0 d.addr a = .scratch 0 (0x1000 + a) ∧ c.bankState 0 ((0x1000 + a) / bankBytes) ≠ bkOFF ∧
        c.bankState 0 ((0x1000 + a) / bankBytes) ≠ bkRETAIN) ∧
      (∀ a, a < 8 → ∀ b, b < 8 → c.place 0 0 d.addr a = c.place 0 0 d.addr b → a = b) ∧ (∀ a, a < 8 → c.place 0 0 d.addr a ≠ .scratch 1 0) := by
  decide

theorem witness_DataMovement :
    let c := running (tiny 2 4)
    let y := c.tile 0
    let z := running (withT (tdesc 0x1000 2 2 1 4) (tdesc 0x2000 2 2 1 4) (tdesc 0x3000 3 1 1 4) 0)
    let w := tx 0 0 0 0 0 (some 0xFFFFFFFF)
    let x := tx 0 1 0 0 0 none
    c.slowReqs = [] ∧ c.remoteOut = [] ∧
    (c.takesT w .FILL = true ∧ c.recordOk w .FILL ∧ ∃ b, c.runsFrom b w [{ d := y.desc 0, dest := true, spaces := spMove }]
      ((y.desc 0).isFP && ((y.desc 0).isFP32 || bits (0xFFFFFFFF : Word).toNat 31 16 == 0)) false) ∧
    (c.takesT x .COPY = true ∧ ∃ b, c.runsFrom b x [{ d := y.desc 0, dest := true, spaces := spMove }, { d := y.desc 1, spaces := spMove }]
      (copyShape (y.desc 0) (y.desc 1)) false) ∧
    (z.takesT (tx 0 1 2 0 0 none) .GATHER = true) :=
  ⟨rfl, rfl, ⟨by decide, .inl (by decide), runs_of (by decide) (by decide)⟩, ⟨by decide, runs_of (by decide) (by decide)⟩, by decide⟩

/-- The partition's phase is `ph`, tile 0 has `x` and a reservation of 4 pages of 4 KiB at its offset 0x10000. -/
def stashing (x : Tile) (ph : Nat) : Core :=
  let c := (running x).setPart 0 { (running x).part 0 with phase := ph }
  (c.wf Regs.TILE_STASH_RES_PAGES 0 4).wf Regs.TILE_STASH_RES_BASE 0 0x10000

theorem witness_StashAndGradients :
    let e : StashEnt := { name := 0x1FFFF, width := 1, count := 2, loc := .resident, addr := 0 }
    let f := stashing (tiny 2 4) 1
    let g := stashing { tiny 2 4 with stash := [e] } 2
    let y := f.tile 0
    let x := tx 0 1 0 0 0x1FFFF none
    let xx := tx 0 1 0 3 0 none
    let ok := (y.desc 0).isFP && (y.desc 1).isFP && (y.desc 1).sameExt (y.desc 0)
    (y.desc 0).empty = false ∧ (y.desc 0).mayCollide = false ∧
    (f.takesT x .SRELU = true ∧ f.recordOk x .SRELU ∧ ∃ b, f.runsFrom b x (unitOps (y.desc 0) [y.desc 1] spUnit) (ok && !false) true) ∧
    (f.stashEntry 0 0 7 1 2 [3] {}).2 = none ∧ (f.stashEntry 0 0 7 1 2 [3] {}).1.spillWritesLost 0 0 0 none {} = [] ∧ ((running {}).stashEntry 0 0 7 1 2 [3] {}).2.isSome = true ∧
    (g.takesT x .GRELU = true ∧ (g.tile 0).entry? 0x1FFFF = some e ∧ e.count = ((g.tile 0).desc 1).count ∧ (g.atUnit 0).entryLost 0 e {} = none ∧
      (g.atUnit 0).spillLost 0 0 e {} = none ∧ ∃ b, g.runsFrom b x (unitOps ((g.tile 0).desc 0) [(g.tile 0).desc 1] spUnit) ok true) ∧
    (g.takesT xx .GABSX = true ∧ ∃ b, g.runsFrom b xx (unitOps (y.desc 0) ([y.desc 1] ++ if true then [y.desc 3] else []) spUnit)
      (ok && (!true || ((y.desc 3).isFP && (y.desc 3).sameExt (y.desc 0))) && !false) true) ∧ [1, 0, 3][2]? = some 3 :=
  ⟨by decide, by decide, ⟨by decide, .inl (by decide), runs_of (by decide) (by decide)⟩, by decide, by decide, by decide,
    ⟨by decide, by decide, by decide, by decide, by decide, runs_of (by decide) (by decide)⟩, ⟨by decide, runs_of (by decide) (by decide)⟩, by decide⟩

/-- A blocked FP32 tensor of one element at `addr`. -/
def dot (addr : Nat) : BitVec 256 := BitVec.ofNat 256 (addr + 2 * 2 ^ 64 + 2 ^ 76 + 2 ^ 80 + 2 ^ 104 + 2 ^ 128 + 2 ^ 152)

theorem witness_MatrixResults :
    let c := running (withT (dot 0x1000) (dot 0x2000) (dot 0x3000) 0)
    let y := c.tile 0
    let x := tx 0 1 2 0 0 none
    c.takesT x .MM32 = true ∧ c.recordOk x .MM32 ∧ (∃ b, c.runsFrom b x (unitOps (y.desc 0) [y.desc 1, y.desc 2] spUnit)
      (matShape .m32 8 (y.desc 0) (y.desc 1) (y.desc 2) (y.desc 0)) false) ∧ (y.desc 0).empty = false ∧ (y.desc 0).mayCollide = false ∧
    (y.desc 1).isBlock = false ∧
    (∀ bl ∈ matBlocks (matMode .m32 false) 1 1 1 1, MatView.blockBad ⟨fun m k n => c.matEl 0 0 (y.desc 1) none ((y.desc 1).matIndex k m n),
      fun k n m => c.matB 0 0 .m32 (y.desc 2) (y.desc 0) none 8 k n m, fun _ _ _ => none, .fp32, 1, matMode .m32 false⟩ bl = false) :=
  ⟨by decide, .inl (by decide), runs_of (by decide) (by decide), by decide, by decide, by decide, by decide⟩

theorem witness_Routing : (0, Num.nan) ∈ rankLogits ([0x7E00].map (decodeF .fp16)) ∧ [(0, 5)].foldl (routeOne 0 1 false []) {} = {} := by
  decide

/-- A linear 4-bit codebook: M 0, S 0, entries ±n × 2^-24. -/
def bookBytes : List Byte :=
  leBytes 8 2 ++ List.replicate 56 0 ++ (List.range 8).flatMap (fun n => leBytes 2 n) ++ (List.range 8).flatMap (fun n => leBytes 2 (0x8000 + n))

theorem witness_CodecRecords :
    let c := ((running (withT 0 (tdesc 0x2000 1 48 1 2) 0 0)).setBankState 0 0 bkON).writeAt 0 0 0x2000 0 bookBytes
    let y := c.tile 0
    let x := tx 0 1 0 0 15 none
    let ta := y.desc 1
    c.takesT x .CBLOAD = true ∧ c.recordOk x .CBLOAD ∧ ta.addr % 64 = 0 ∧ (∃ b, c.runsFrom b x [{ d := ta, spaces := spOwn }]
      (ta.raw16 && (ta.e0 == 48 || ta.e0 == 288) && ta.e1 == 1 && ta.e2 == 1 && ta.e3 == 1) false) ∧
    (parseCodebook (((c.atUnit 0).memFaults 0 0 [{ d := ta, spaces := spOwn }] {}).2.readAt 0 0 0x2000 0 96)).isSome = true := 
  ⟨by decide, .inl (by decide), by decide, runs_of (by decide) (by decide), by decide⟩

theorem witness_TensorNotIssued :
    let c := running ((tiny 2 4).setToken 9 { count := 255 })
    let x := tx 0 1 0 0 0 none
    (c.slowReqs = [] ∧ c.remoteOut = [] ∧ c.collEnds = [] ∧ c.canIssue 0 = true ∧ c.fetchFault 0 = none ∧ (x.ins .VEXP).reason = none ∧
      (c.tile 0).guardTrue 7 false = true ∧ ((c.tile 0).token 9).count = 255) ∧
    ((running {}).canOpen 0 = true ∧ (({} : Core).wf Regs.PART_STATE_STATE 0 0).canOpen 0 = false) ∧
    (phaseOk TOp.SRELU.uses.phase ((running {}).part 0).phase = false ∧ ((tx 0 1 0 0 0 none).ins .SRELU).reason = none) ∧
    (c.tile 0).guardTrue 0 false = false := by
  decide

theorem witness_OperationComplete :
    let o : AOp := { id := 5, part := 0, ltile := 0, tok := 9, major := 0x60, unit := 0, item := some 2 }
    let c := { running {} with ops := [o], items := [{ id := 2, part := 0, kind := .op }] }
    c.op? 5 = some o ∧ o.wait = false ∧ c.phys 0 = some 0 ∧ (c.tile 0).stall = none ∧ (o.status ≠ St.STASH_FULL ∨ isStash o.major = false) ∧
      c.item? 2 = some { id := 2, part := 0, kind := .op } := by
  decide
/-! ### Witnesses: registers and transactions -/

namespace Sys2Proof.Machine

/-- The row of the register at a BAR0 offset, or that of DEV.ID. -/
def rowAt (off : Nat) : RegRow := match findReg off with | some (row, _) => row | none => ⟨"", Regs.DEV_ID, []⟩

/-- Queue 0 is active at host address 0x10000 with 64 records, `h` and `t` its HEAD and TAIL. -/
def queued (h t : Nat) : Core :=
  let c := ((({} : Core).wf Regs.EVT_Q_STATUS_ACTIVE 0 1).wf Regs.EVT_Q_HEAD_HEAD 0 h).wf Regs.EVT_Q_TAIL_TAIL 0 t
  (c.wf Regs.EVT_Q_CTRL_CLASS_MAX 0 3).setEvq 0 { base := 0x10000, size := 64 }

end Sys2Proof.Machine

theorem witness_ReadClear :
    let c := ({} : Core)
    let f := Regs.EVT_LOG_LOST_LOST
    c.answers = true ∧ c.fnOn 0 = true ∧ (0x10048 : BitVec 32).toNat % 8 = 0 ∧ c.regPlace 0 (0x10048 : BitVec 32).toNat = .reg (rowAt 0x10048) 0 ∧
      f ∈ (rowAt 0x10048).fields ∧ f.access = .RC := by
  decide

theorem witness_Reads :
    let c := ({} : Core)
    (c.regPlace 0 ((0x1004C : BitVec 32).toNat / 8 * 8) = .reg (rowAt 0x10048) 0 ∧ (rowAt 0x10048).spans = true ∧ (0x1004C : BitVec 32).toNat % 8 = 4) ∧
    (c.regPlace 0 0x108 = .reg (rowAt 0x108) 0 ∧ (rowAt 0x108).mask [.RC] = 0 ∧
      (derived.find? (fun d => d.1.base == (rowAt 0x108).reg.base)).isNone = true ∧ (rowAt 0x108).reg.size = 8) ∧
    (c.fnOn 0 = true ∧ c.regPlace 0 0x9FFFF8 = .nothing) ∧ aligned 2 4 = false ∧ c.fnOn 1 = false := by
  decide

theorem witness_RegisterStops :
    let c := ({} : Core)
    c.answers = true ∧ (aligned (Config.bar0Bytes + 8) 8 = true ∧ Config.bar0Bytes ≤ (Config.bar0Bytes + 8) / 8 * 8) ∧
    (aligned debugBase 4 = true ∧ debugBase ≤ debugBase / 8 * 8 ∧ debugBase / 8 * 8 < Config.bar0Bytes ∧ c.flag Regs.FW_FW_STATUS_RECOVERY = false) := by
  decide

theorem witness_PlainWrites :
    let c := ({} : Core)
    c.answers = true ∧ c.fnOn 0 = true ∧
    (aligned 0x204 4 = true ∧ c.regPlace 0 0x200 = .reg (rowAt 0x200) 0 ∧ (rowAt 0x200).plain = true ∧ c.writes 0 0x200 (rowAt 0x200) = true) ∧
    (c.regPlace 0 0x700080 = .reg (rowAt 0x700080) 0 ∨ c.regPlace 0 0x9FFFF8 = .nothing) ∧ aligned 0x202 4 = false := by
  decide

/-- VF1 sees QP_RANGE of its partition but may not write it. -/
theorem witness_PlainWrites_refused :
    let c := ((running {}).wf Regs.HIF_PF_WIN_EN 0 1)
    c.regPlace 1 Regs.RMA_QP_RANGE.base = .reg (rowAt Regs.RMA_QP_RANGE.base) 0 ∧
      c.writes 1 Regs.RMA_QP_RANGE.base (rowAt Regs.RMA_QP_RANGE.base) = false ∧ c.fnOn 1 = true := by
  decide

theorem witness_W1cRace :
    let c := ({} : Core)
    let f := Regs.DEV_GPIO_EDGE_FALL
    c.answers = true ∧ c.fnOn 0 = true ∧ (528 : BitVec 32).toNat % 8 = 0 ∧ c.regPlace 0 (528 : BitVec 32).toNat = .reg (rowAt 528) 0 ∧ f ∈ (rowAt 528).fields ∧
      f.access = .W1C ∧ f.lo ≤ f.hi ∧ (BitVec.ofNat 64 (2 ^ f.hi)).getLsbD f.hi = true := by
  decide

theorem witness_Transactions :
    let c := (running {}).txSet 1 Regs.CFG_TXN_STATUS_OPEN Regs.CFG_P_TXN_STATUS_OPEN 1
    let w := fun (o : Nat) (v : Word) => ({ c with txns := [(1, { writes := [(o, v)] })] } : Core)
    let full : Core := { c with txns := [(1, { excess := some 0x40300 })] }
    ((running {}).txOpen 0 = false ∧ (running {}).txOpen 1 = false ∧ (running {}).tick < 2 ^ 64) ∧
    (c.txOpen 1 = true ∧ (c.txn 1).excess = none ∧ c.txJudge true (c.txn 1).list = none) ∧
    ((w Regs.UPD_SCHED_KIND.base 4).txOpen 1 = true ∧ (w Regs.UPD_SCHED_KIND.base 4).txJudge true ((w Regs.UPD_SCHED_KIND.base 4).txn 1).list = none) ∧
    (((w Regs.UPD_SCHED_KIND.base 5).txJudge true ((w Regs.UPD_SCHED_KIND.base 5).txn 1).list).map (fun e => (e.1, e.2.1)) =
      some (Regs.UPD_SCHED_KIND.base, St.PROTECTION) ∧ 0x40000 ≤ Regs.UPD_STEP_STATUS.base) ∧
    (full.txn 1).excess = some 0x40300 ∧ (c.txOpen 1 = true ∧ (c.txF 1).2.2.2.2 + 2500000 ≤ ({ c with tick := 2500000 } : Core).tick) ∧
    c.tick < (c.txF 1).2.2.2.2 + 2500000 := by
  decide

theorem witness_ConfigInstructions :
    let c := (running {}).txSet 1 Regs.CFG_TXN_STATUS_OPEN Regs.CFG_P_TXN_STATUS_OPEN 1
    let x := tx 0 0 0 0 0 none
    let kind := Regs.UPD_SCHED_KIND.base
    let w : TArgs := { tx 0 0 0 0 (BitVec.ofNat 24 (kind / 8)) (some 4) with k := 15 }
    let bad : Core := { c with txns := [(1, { writes := [(kind, 5)] })] }
    let lic : Core := { c with txns := [(1, { writes := [(Regs.PWR_JOB_TAG.base, 5)] })] }
    ((running {}).who 0).2 < 16 ∧ ((running {}).takesT x .CFGBEGIN = true ∧ ((running {}).atUnit 0).txOpen 1 = false) ∧
    (c.takesT x .CFGBEGIN = true ∧ (c.atUnit 0).txOpen 1 = true) ∧
    (c.takesT w .CFGWR = true ∧ 8 * bits w.mods.toNat 22 0 = kind ∧ (c.atUnit 0).regPlace 1 kind = .reg (rowAt kind) 0 ∧ (rowAt kind).txnKind = .part ∧
      (c.atUnit 0).writes 1 kind (rowAt kind) = true ∧ (rowAt kind).writable ≠ 0 ∧ ((c.atUnit 0).txn 1).writes.length < 1024) ∧
    (c.atUnit 0).regPlace 1 0x9FFFF8 = .nothing ∧ c.takesT x .CFGRBACK = true ∧ (c.takesT x .CFGCOMMIT = true ∧ ((c.atUnit 0).txn 1).list = []) ∧
    ((bad.atUnit 0).txJudge true ((bad.atUnit 0).txn 1).list).isSome = true ∧
    (lic.takesT x .CFGCOMMIT = true ∧ ((lic.atUnit 0).txJudge true ((lic.atUnit 0).txn 1).list).isSome = false) := by
  decide

/-! ### Witnesses: time, events and the device's own commands -/

theorem witness_ClampsAndTimestamp :
    let e : Nat × Nat × Nat × Bool := (3, 0, 2 ^ 64 - 1, false)
    let c : Core := { clamps := [e] }
    let on := (({} : Core).wf Regs.EVT_TS_CTRL_SRC 0 1).wf Regs.EVT_TS_CTRL_SLEW_EN 0 1
    c.clamps.find? (fun e => e.1 == 3) = some e ∧ (c.clamps.find? (fun e => e.1 == 3 && !e.2.2.2) = some e ∧ e.2.2.1 < 2 ^ 64) ∧
    (∀ e ∈ ({} : Core).clamps, e.1 ≠ 3) ∧ (on.rf Regs.EVT_TS_CTRL_SRC ≠ 0 ∧ on.flag Regs.EVT_TS_CTRL_SLEW_EN = true) ∧
    ({} : Core).rf Regs.EVT_TS_CTRL_SRC = 0 ∧ (100000 < (100001 : Word).toInt ∧ ¬ 100000 < (100000 : Word).toInt) ∧
    (0 < (BitVec.ofNat 64 (2 ^ 40 - 1)).toNat ∧ (BitVec.ofNat 64 (2 ^ 40 - 1)).toNat < 2 ^ 40 ∧ 2 ^ 40 ≤ (BitVec.ofNat 64 (2 ^ 40)).toNat) := by
  decide

theorem witness_EventQueues :
    let c := ({} : Core).wf Regs.EVT_Q_SIZE_SIZE 16 65536
    let b := ({} : Core).wf Regs.EVT_Q_SIZE_SIZE 16 63
    let w := queued 5 6
    let m := (w.wf Regs.EVT_Q_MOD_TIMER 0 1).setEvq 0 { base := 0x10000, size := 64, unsignalled := 1 }
    let l : Core := { log := [(0, { logDefault 0 with valid := true })] }
    ((1 : Word).getLsbD 0 = true ∧ c.flag Regs.EVT_Q_CTRL_ENABLE 16 = false ∧ isPow2 (c.rf Regs.EVT_Q_SIZE_SIZE 16) = true ∧ 64 ≤ c.rf Regs.EVT_Q_SIZE_SIZE 16 ∧
      c.rf Regs.EVT_Q_SIZE_SIZE 16 ≤ 65536) ∧
    (b.flag Regs.EVT_Q_CTRL_ENABLE 16 = false ∧ (isPow2 (b.rf Regs.EVT_Q_SIZE_SIZE 16) = false ∨ b.rf Regs.EVT_Q_SIZE_SIZE 16 < 64)) ∧
    (0 : Word).getLsbD 0 = false ∧ (w.flag Regs.EVT_Q_STATUS_ACTIVE 0 = true ∧ (63 : Word).toNat < (w.evq? 0).size ∧ (w.evq? 0).size ≤ (64 : Word).toNat) ∧
    (w.evUnread 0 ≠ 0 ∧ 0 < w.rf Regs.EVT_Q_TAIL_TAIL 0) ∧
    (m.rf Regs.EVT_Q_MOD_TIMER 0 ≠ 0 ∧ (m.evq? 0).unsignalled ≠ 0 ∧ (m.evq? 0).firstTick + m.rf Regs.EVT_Q_MOD_TIMER 0 ≤ ({ m with tick := 1 } : Core).tick) ∧
    (l.log.get logDefault (l.rf Regs.EVT_LOG_INDEX_INDEX)).valid = true := by
  decide

theorem witness_EventRecords :
    let e : Evt := ⟨3, 0, 0, 0, 0, 0⟩
    let room := queued 2 63
    let last := queued 2 0
    (room.lost = false ∧ e.cls ≤ room.rf Regs.EVT_Q_CTRL_CLASS_MAX 0 ∧ room.flag Regs.EVT_Q_STATUS_ACTIVE 0 = true ∧ room.evUnread 0 + 2 < (room.evq? 0).size ∧
      (room.evq? 0).size ≤ 65536 ∧ room.rf Regs.EVT_Q_TAIL_TAIL 0 < (room.evq? 0).size) ∧
    (e.cls ≤ last.rf Regs.EVT_Q_CTRL_CLASS_MAX 0 ∧ last.flag Regs.EVT_Q_STATUS_ACTIVE 0 = true ∧ last.evUnread 0 + 2 = (last.evq? 0).size) ∧
    ({} : Core).flag Regs.EVT_Q_STATUS_ACTIVE 16 = false ∧ (queued 1 0).evUnread 0 + 1 = ((queued 1 0).evq? 0).size := by
  decide

/-- Partition 0 is ACTIVE, runs no program, owns granule 0 at its offset 0, and has a state header of version 1 there. -/
def withHeader : Core :=
  let c := (running {}).setPart 0 { key := 1 }
  (c.wf Regs.MEM_GRANULE_OWNER_PART 0 0).writeView 0 0 (leBytes 64 1)

theorem witness_DeviceCommands :
    (0x800 : Word).getLsbD 11 = true ∧ (0x10 : Word).getLsbD 4 = true ∧ ((running {}).part 0).prog.isSome = true ∧ ({} : Core).pstate 15 ≠ pACTIVE ∧
    (withHeader.tstate (bits (0x10 : Word).toNat 3 0)).1 = 0 := by
  decide
/-! ### Witnesses: tiles, banks, channels and the slow tier -/

theorem witness_TileSparing :
    let c := ({} : Core)
    let w : TileSwap := { ltile := 255, step := 4, trigger := 0 }
    let v : Core := { tileSwaps := [w] }
    let none_ : Core := { outTiles := [16] }
    let op : Core := { ops := [{ id := 0, part := 0, ltile := 5, tok := 0, major := 0x60, unit := 0 }] }
    (c.fwHold = false ∧ ({ fwHold := true } : Core).fwHold = true) ∧ (c.phys 255 = some 270 ∧ c.tileSwaps.any (fun w => groupOfLogical w.ltile == 15) = false ∧ (c.spareTile 15).isSome = true) ∧
    v.tileSwaps.any (fun w => groupOfLogical w.ltile == 15) = true ∧
    (none_.phys 0 = some 0 ∧ none_.tileSwaps.any (fun w => groupOfLogical w.ltile == 0) = false ∧ (none_.spareTile 0).isNone = true) ∧
    (c.ops.any (fun o => o.ltile == 5) = false ∧ op.ops.any (fun o => o.ltile == 5) = true) ∧
    (v.tileSwaps.find? (fun w => w.ltile == 255 && w.step == 4) = some w ∧ v.phys 255 = some 270 ∧ v.spareTile 15 = some 271 ∧ w.lost = [] ∧
      Memory.wf v.scratch = true) := by
  decide

/-- R633: a trigger while an activation holds waits, and acts when it is released. -/
theorem test_held_swap :
    (({ fwHold := true } : Core).startTileSwap 0 1).heldSwaps = [.tile 0 1] ∧
    (({ heldSwaps := [.tile 0 1] } : Core).releaseSwaps).tileSwaps = [{ ltile := 0, step := 1, trigger := 1 }] := by
  decide

theorem witness_BankPower :
    let c := ({} : Core).wf Regs.TILE_BANK_CFG_TX1_COMPAT 0 1
    let r : BankReq := { tile := 0, bank := 22, retain := false }
    let q : Core := { running {} with bankReqs := [r] }
    let code := q.setPart 0 { (q.part 0) with prog := some { item := 0, tiles := [0], code := [(0, 22 * 131072, 8)] } }
    let on := ({} : Core).setBankState 0 23
    ((({} : Core).logical 16).isNone = true ∧ c.logical 0 = some 0) ∧ (({} : Core).flag Regs.TILE_BANK_CFG_TX1_COMPAT 0 = false ∧ c.flag Regs.TILE_BANK_CFG_TX1_COMPAT 0 = true) ∧
    (bitsIn 24 (0x3FFFFF : BitVec 24).toNat).any (isUmbra 0) = false ∧
    (q.bankReqs.find? (fun r => r.tile == 0 && r.bank == 22) = some r ∧ q.bankSwaps.any (fun w => w.tile == 0 && w.bank == 22) = false ∧
      q.ops.any (fun o => o.banks.contains (0, 22)) = false ∧ q.bankHeld 0 22 = false ∧ code.bankHeld 0 22 = true) ∧
    (∀ r ∈ q.bankReqs, r.tile ≠ 0 ∨ r.bank ≠ 23) ∧
    ((on bkRETAIN).bankState 0 23 = bkRETAIN ∧ (on bkOFF).bankState 0 23 = bkOFF ∧ (on bkON).bankState 0 23 = bkON ∧
      ((on bkCLEARING).bankState 0 23 = bkCLEARING ∧ (on bkCLEARING).wiping 0 23 = false) ∧ (on bkON).bankState 0 23 ≠ bkCLEARING) ∧
    ((running {}).partOfGroup 0 = some 0 ∧ ((running {}).part 0).prog.isSome = true ∧ ({} : Core).partOfGroup 0 = none) := by
  decide

theorem witness_BankSwaps :
    let c := ({} : Core)
    let used := c.wf Regs.TILE_BANK_MAP_SPARE_USED 0 1
    let v : BankSwap := { tile := 0, bank := 23, trigger := 2, words := [131068] }
    let s : Core := { bankSwaps := [v] }
    let w : Wipe := { groups := 1, trigger := 2, part := 0, status := 0 }
    let k : Core := { wipes := [w] }
    (c.fwHold = false ∧ ({ fwHold := true } : Core).fwHold = true) ∧ ((0x37 : Word).getLsbD 5 = true ∧ bits (0x37 : Word).toNat 4 0 < 24 ∧ c.flag Regs.TILE_BANK_MAP_SPARE_USED 0 = false ∧ c.bankSwaps.any (fun v => v.tile == 0) = false) ∧
    ((0x38 : Word).getLsbD 5 = true ∧ 23 < bits (0x38 : Word).toNat 4 0 ∧ used.flag Regs.TILE_BANK_MAP_SPARE_USED 0 = true) ∧ (0x17 : Word).getLsbD 5 = false ∧
    (s.bankSwaps.find? (fun w => w.tile == 0) = some v ∧ s.flag Regs.TILE_BANK_MAP_SPARE_USED 0 = false ∧ Memory.wf s.scratch = true) ∧
    (∀ w ∈ s.bankSwaps, w.tile ≠ 1) ∧
    (k.wipes[0]? = some w ∧ (∀ v ∈ k.wipes.erase w, k.umbraOf v = []) ∧ (∀ e ∈ k.umbraOf w, e.1 < 272) ∧ (0, 22) ∈ k.umbraOf w) ∧ k.wipes[1]? = none := by
  decide

theorem witness_Channels :
    let c := ({} : Core)
    let q : Core := { retireQ := [(47, 1)] }
    let full := q.wf Regs.MEM_MEM_STATUS_RETIRED_COUNT 0 8
    let m := (c.wf Regs.MEM_MIG_STATUS_STEP 0 1).wf Regs.MEM_GRANULE_OWNER_PART 371 0
    let m := m.wf Regs.PART_STATE_STATE 0 pACTIVE
    let d := (c.wf Regs.MEM_MIG_STATUS_STEP 0 2).wf Regs.MEM_MIG_STATUS_CHANNEL 0 47
    let r := c.wf Regs.MEM_MEM_STATUS_ACTIVE 0 0x7FFFFFFFFFFF
    (c.activeChannels.contains 47 = true ∧ r.activeChannels.contains 47 = false) ∧
    (q.retireQ = (47, 1) :: [] ∧ q.rf Regs.MEM_MIG_STATUS_STEP = 0 ∧ q.activeChannels.contains 47 = true ∧ 8 ≤ full.rf Regs.MEM_MEM_STATUS_RETIRED_COUNT ∧
      ¬ 8 ≤ q.rf Regs.MEM_MEM_STATUS_RETIRED_COUNT ∧ ¬ usableOf (q.activeChannels.length - 1) < q.ownedGranules.length ∧ q.fwStaged = false) ∧
    (c.retireQ = [] ∧ m.rf Regs.MEM_MIG_STATUS_STEP = 1 ∧ m.nextGranule = some 371 ∧
      (List.range (usableOf (m.activeChannels.length - 1))).find? (fun g => m.rf Regs.MEM_GRANULE_OWNER_PART g == 0x1F) = some 0) ∧
    (d.rf Regs.MEM_MIG_STATUS_STEP = 2 ∧ d.rf Regs.MEM_MIG_STATUS_CHANNEL < 48) ∧ c.rf Regs.MEM_MIG_STATUS_STEP ≠ 1 := by
  decide

/-- With one channel left, one owned granule is more than none can hold. -/
theorem witness_Channels_space :
    let c : Core := { retireQ := [(47, 1)] }
    let c := (c.wf Regs.MEM_MEM_STATUS_ACTIVE 0 (2 ^ 47)).wf Regs.MEM_GRANULE_OWNER_PART 0 0
    c.activeChannels.contains 47 = true ∧ usableOf (c.activeChannels.length - 1) < c.ownedGranules.length := by
  decide

theorem witness_SlowTier :
    let n : NvCmd := { id := 9, slot := 7, kind := 0, block := 1, owner := .op 3, issued := 0 }
    let w : NvCmd := { n with id := 10, kind := 1, owner := .writeback 0 }
    let i : NvCmd := { n with id := 11, owner := .item 2 }
    let c : Core := { nvcmds := [n, w, i], items := [{ id := 2, part := 0, kind := .copy }] }
    let d := (c.wf Regs.SLOW_DIR_RANGE_COUNT 1 1)
    (c.nvcmds.find? (fun n => n.id == 9) = some n ∧ n.slot < 8 ∧ (0x81 : BitVec 16) ≠ 0 ∧ n.tries < 2 ∧ 2 ≤ { n with tries := 2 }.tries) ∧
    ((c.nvcmds.map (·.id)).Nodup ∧ c.qps = [] ∧ c.slowReqs = []) ∧
    (c.nvcmds.find? (fun n => n.id == 11) = some i ∧ c.item? 2 = some { id := 2, part := 0, kind := .copy } ∧ (c.part 0).revoked = false) ∧
    (c.nvcmds.find? (fun n => n.id == 10) = some w ∧ Memory.wf c.flash = true ∧ c.staged.wf (fun _ => none) = true) ∧
    c.nvcmds.find? (fun n => n.id == 12) = none ∧
    (c.tick < n.issued + max 1 (c.rf Regs.SLOW_NVME_TIMEOUT_MS) * Config.ticksPerMs ∧
      n.issued + max 1 (c.rf Regs.SLOW_NVME_TIMEOUT_MS) * Config.ticksPerMs ≤ ({ c with tick := 10 ^ 12 } : Core).tick) ∧
    ((c.dirBusy 1 = true ∨ c.rf Regs.SLOW_DIR_RANGE_COUNT 1 ≤ 0) ∧ ¬(d.dirBusy 1 = true ∨ d.rf Regs.SLOW_DIR_RANGE_COUNT 1 ≤ d.rf Regs.SLOW_DIR_INDEX_INDEX 1)) ∧
    (c.slowBusy 3 false = true ∧ c.nvcmds.any (fun m => m.owner == .op 3 && decide (c.tick < m.began + c.deadlineTicks 0)) = true ∧
      ({ c with tick := 10 ^ 9 } : Core).nvcmds.any (fun m => m.owner == .op 3 && decide (10 ^ 9 < m.began + c.deadlineTicks 0)) = false) := by
  decide

/-- Partition 0 owns granule 0 at its offset 0, with an empty row table there, and room for one pending row. -/
def rowed (q : StepSt) (pend : List PendRow) : Core :=
  let c := running {}
  let c := c.setPart 0 { (c.part 0) with step := q, pend := pend }
  ((c.wf Regs.MEM_GRANULE_OWNER_PART 0 0).wf Regs.SLOW_PEND_ROWS_ROWS 0 1).writeView 0 0 (leBytes 32 0)
 
theorem witness_RowPath :
    let i : StepItem := { op := 4, layer := 0, eng := 0, ltile := 0, table := some 0, rows := [7], todo := [0] }
    let q : StepSt := { items := [i] }
    let r : PendRow := { slot := 0, table := 0, row := 7, acc := [0], count := 4194302, present := true }
    let o : PendRow := { r with row := 8 }
    let b : StageBlk := { part := 0, slot := 2, block := 3, table := 0, fetching := false, dirty := true }
    let g : Core := { rowed {} [] with stageBlks := [b] }
    let h : Core := { g with stageBlks := [{ b with writing := true, dirty := false }] }
    (((rowed q [r]).part 0).step.items.find? (fun i => i.op == 4 && i.open_ && !i.todo.isEmpty) = some i ∧ (rowed q [r]).fwHold = false ∧ q.committed = false ∧
      (rowed q [r]).slowReqs = [] ∧ [r].find? (fun r => r.table == 0 && r.row == 7) = some r ∧ r.count < 4194303) ∧
    ([o].find? (fun r => r.table == 0 && r.row == 7) = none ∧ (rowed q [o]).rf Regs.SLOW_PEND_ROWS_ROWS 0 ≤ [o].length ∧
      ([] : List PendRow).length < (rowed q []).rf Regs.SLOW_PEND_ROWS_ROWS 0 ∧ (rowed q []).rowAddr 0 0 7 = .scratch 0 0) ∧
    ((rowed {} [r]).stageBlks = [] ∧ r.waits = false) ∧
    (g.stageBlks.find? (fun b => b.slot == 2 && b.block == 3) = some b ∧ g.stageBlks.find? (fun b => b.slot == 2 && b.block == 4) = none ∧ g.fwHold = false ∧
      g.ssdOk 2 = false ∧ (g.wf Regs.SLOW_SSD_STATUS_ACTIVE 2 1).ssdOk 2 = true) ∧
    (h.nvcmds.any (fun m => m.slot == 2) = false ∧ ((h.part 0).pend = []) ∧ (h.part 0).step.items = []) ∧
    (({ q with committed := true, decideTick := 0 } : StepSt).decideTick + (rowed q [r]).deadlineTicks 0 ≤ 10 ^ 9 ∧ ([r] : List PendRow) ≠ []) ∧
    ((g.flag Regs.TILE_STASH_STATUS_SPILLING 0 = false) ∧ (g.wf Regs.TILE_STASH_STATUS_SPILLING 0 1).flag Regs.TILE_STASH_STATUS_SPILLING 0 = true) := by
  decide
/-! ### Witnesses: training and programs -/

namespace Sys2Proof.Machine

/-- Partition 0 runs a program of tile 0, which has halted, and its step is `q`. -/
def stepping (q : StepSt) : Core :=
  let c := running {}
  (c.setTile 0 { run := 3 }).setPart 0 { (c.part 0) with step := q }

/-- A held UPDATE of layer 0 with an engine of its own. -/
def held : StepItem := { op := 4, layer := 0, eng := 0, ltile := 0 }

end Sys2Proof.Machine

theorem witness_TrainingStep :
    let c := stepping { items := [held] }
    let n := stepping { items := [{ held with nf := true }] }
    let a := c.setPart 0 { c.part 0 with cfg := { agree := some 0 } }
    let w := stepping { items := [held], closed := true, agree := some 0 }
    let d := stepping { items := [held], closed := true, decided := true, committed := true }
    let z := stepping { items := [{ held with open_ := false }], closed := true, decided := true }
    let k := stepping { items := [{ held with open_ := false }], closed := true, decided := true, committed := true }
    ((running {}).canClose 0 = false ∧ c.canClose 0 = true ∧ n.canClose 0 = true) ∧
    (a.canClose 0 = true ∧ (a.part 0).cfg.agree = some 0 ∧ (a.ring 0 0).isNone = true) ∧
    ((c.part 0).cfg.agree = none ∧ (c.part 0).cfg.clip = 0 ∧ ((n.part 0).step.items.any (·.nf) = true) ∧ (c.part 0).step.nf = false ∧ c.slowReqs = []) ∧
    ((w.part 0).step.closed = true ∧ (w.part 0).step.agree.isSome = true ∧ (w.part 0).step.decided = false ∧ (w.part 0).step.closeTick + max 1 (w.part 0).cfg.timeout * Config.ticksPerMs ≤ ({ w with tick := 25000 } : Core).tick ∧
      ¬ (w.part 0).step.closeTick + max 1 (w.part 0).cfg.timeout * Config.ticksPerMs ≤ w.tick) ∧
    (d.nextApply 0 4 = some held ∧ d.nextApply 0 5 = none ∧ held.user = false) ∧
    (d.canBoundary 0 = false ∧ z.canBoundary 0 = true ∧ (z.part 0).step.committed = false ∧ k.canBoundary 0 = true ∧ (k.part 0).step.committed = true) := by
  decide

theorem witness_ProgramLife :
    let pr : Prog := { item := 2, tiles := [0] }
    let c := running {}
    let c := c.setPart 0 { (c.part 0) with prog := some pr }
    let e : Core := { stepping {} with items := [{ id := 0, part := 0, kind := .program }] }
    ((({} : Core).part 0).prog.isNone = true) ∧ ((c.part 0).prog = some pr ∧ (pr.started || pr.stopping || c.fwWaits) = false) ∧
    ((running {}).part 0).prog.any (fun r => r.started) = true ∧
    ((e.part 0).prog = some { item := 0, tiles := [0], started := true } ∧ e.programDone 0 { item := 0, tiles := [0], started := true } = true ∧
      e.item? 0 = some { id := 0, part := 0, kind := .program } ∧ (running {}).programDone 0 { item := 0, tiles := [0], started := true } = false) := by
  decide

/-! ### Witnesses: the fabric -/

theorem witness_LanesAndLinks :
    let w : LaneSwap := { engine := 3, lane := 7, rx := false, trigger := 2, running := true }
    let c : Core := { laneSwaps := [w] }
    let p : Core := { laneSwaps := [{ w with paused := true }] }
    let used := ({} : Core).wf Regs.FAB_OE_SPARE_RX_USED 3 1
    let on := ({} : Core).wf Regs.FAB_PORT_CTRL_ENABLE 14 1
    let lock := on.wf Regs.FAB_PORT_STATUS_PCS_LOCK 14 1
    let up := (lock.wf Regs.FAB_PORT_STATUS_LINK_UP 14 1).wf Regs.FAB_PORT_STATUS_REMOTE_FAULT 14 1
    (c.laneSwaps.any (fun x => x.engine == 3 && x.lane == 7 && x.rx == false) = true ∧ c.laneSwaps.any (fun x => x.engine == 3 && x.lane == 6 && x.rx == false) = false ∧
      c.laneSwaps.any (fun x => x.engine == 3 && x.running) = true) ∧
    (({} : Core).laneSwaps = [] ∧ ({} : Core).fwHold = false ∧ ({ fwHold := true } : Core).fwHold = true ∧ ({} : Core).spareUsed 3 true = false ∧ used.spareUsed 3 true = true) ∧ (0x17 : Word).getLsbD 4 = true ∧
    (c.laneSwaps.find? (fun w => w.engine == 3 && w.running && !w.rx && !w.paused) = some w ∧ c.laneSwaps.find? (fun w => w.engine == 2 && w.running) = none) ∧
    (p.laneSwaps.find? (fun w => w.engine == 3 && w.running && (w.rx || w.paused || !true)) = some { w with paused := true } ∧
      c.laneSwaps.find? (fun w => w.engine == 3 && w.running && (w.rx || w.paused || !false)) = some w ∧ (c.laneSwaps.erase w) = [] ∧ w.lane < 8 ∧ w.trigger < 4 ∧
      c.qps = [] ∧ c.collEnds = [] ∧ c.slowReqs = [] ∧ c.remoteOut = [] ∧ c.flag Regs.FAB_RAW_TX_SIZE_ENABLE (c.laneUnit 3 7) = false) ∧
    (bits (3 : Word).toNat 1 1 ≠ on.rf Regs.FAB_PORT_CTRL_SPLIT 14 ∧ on.flag Regs.FAB_PORT_CTRL_ENABLE 14 = true ∧ ({} : Core).flag Regs.FAB_PORT_CTRL_ENABLE 15 = false) ∧
    (on.unitExists 14 = true ∧ on.unitExists 15 = false) ∧ ((on.flag Regs.FAB_PORT_CTRL_ENABLE 14 && on.unitExists 14 && !on.lost) = true) ∧
    ((lock.flag Regs.FAB_PORT_STATUS_PCS_LOCK 14 && !lock.flag Regs.FAB_PORT_STATUS_LINK_UP 14 && !lock.flag Regs.FAB_PORT_STATUS_LOCAL_FAULT 14 &&
      !lock.flag Regs.FAB_PORT_STATUS_REMOTE_FAULT 14) = true ∧ lock.flag Regs.FAB_RAW_TX_SIZE_ENABLE 14 = false) ∧
    ((up.flag Regs.FAB_PORT_STATUS_LINK_UP 14 && (up.flag Regs.FAB_PORT_STATUS_LOCAL_FAULT 14 || up.flag Regs.FAB_PORT_STATUS_REMOTE_FAULT 14)) = true ∧
      (({} : Core).flag Regs.FAB_PORT_STATUS_LINK_UP 14) = false) := by
  decide

theorem witness_FramesAndRings :
    let up := ((({} : Core).wf Regs.FAB_PORT_STATUS_LINK_UP 0 1).wf Regs.FAB_PORT_CTRL_PROMISC 0 1).wf Regs.FAB_APONG_CFG_UDP_PORT 0 7
    let up := (up.wf Regs.FAB_VC_CFG_CELLS 14 36).wf Regs.FAB_VC_CFG_CELLS 0 36
    let g : RxGrant := { unit := 0, vc := 14, dev := 1, limit := 36 }
    let k : Pkt := { port := 0, vc := 14, srcDev := 1, key := 0, dstDev := 0, dstQp := 0, srcQp := 0, msn := 0 }
    let f : Frame := { port := 0, len := 9216, dst := 2, etherType := 0x0800, udpPort := some 7, apong := some (4, k) }
    let r : Frame := { f with udpPort := none, apong := none }
    let c : Core := { up with rxGrants := [g] }
    let ring := (up.wf Regs.FAB_RAW_RX_SIZE_ENABLE 0 1).wf Regs.FAB_RAW_RX_SIZE_SLOTS 0 16
    let tx := ((up.wf Regs.FAB_RAW_TX_SIZE_ENABLE 0 1).wf Regs.FAB_RAW_TX_SIZE_SLOTS 0 16).writeHost 0 (leBytes 32 60)
    (({} : Core).linkUp 0 = false ∧ up.linkUp 0 = true ∧ (64 : BitVec 16).toNat = 64 ∧ f.len.toNat ≤ 9216 ∧ f.fcsOk = true) ∧
    (({} : Core).accepts 0 2 = false ∧ up.accepts 0 2 = true) ∧
    (c.frameRule 0 f = 0 ∧ f.apong = some (4, k) ∧ ceilDiv f.len.toNat 256 ≤ c.rf Regs.FAB_VC_CFG_CELLS 14 - c.heldCells 0 14 ∧
      ceilDiv f.len.toNat 256 ≤ g.limit - g.consumed ∧ c.rxGrants.find? (fun g => g.unit == 0 && g.vc == 14 && g.dev == 1) = some g) ∧
    (up.frameRule 0 r = 2 ∧ ceilDiv r.len.toNat 256 ≤ up.rf Regs.FAB_VC_CFG_CELLS 0 - up.heldCells 0 0 ∧ up.flag Regs.FAB_RAW_RX_SIZE_ENABLE 0 = false) ∧
    (ring.frameRule 0 r = 2 ∧ ring.flag Regs.FAB_RAW_RX_SIZE_ENABLE 0 = true ∧ rawSlots (ring.rf Regs.FAB_RAW_RX_SIZE_SLOTS 0) = true ∧
      (0 + 1) % 16 ≠ ring.rf Regs.FAB_RAW_RX_HEAD_HEAD 0 ∧ (0 + 1) % 16 = (ring.wf Regs.FAB_RAW_RX_HEAD_HEAD 0 1).rf Regs.FAB_RAW_RX_HEAD_HEAD 0) ∧
    (c.creditReqs = [] ∧ g.freed = 0 ∧ 0 < { g with freed := 1 }.freed ∧ up.rxGrants = []) ∧
    (rawSlots (tx.rf Regs.FAB_RAW_TX_SIZE_SLOTS 0) = true ∧ tx.rf Regs.FAB_RAW_TX_SIZE_SLOTS 0 ≤ (16 : BitVec 12).toNat ∧
      ¬(tx.flag Regs.FAB_RAW_TX_SIZE_ENABLE 0 = false ∨ tx.rf Regs.FAB_RAW_TX_HEAD_HEAD 0 = 1 ∨ tx.linkUp 0 = false ∨ tx.flag Regs.FAB_PORT_STATUS_PAUSED 0 = true) ∧
      (tx.rf Regs.FAB_RAW_TX_HEAD_HEAD 0 + 1) % 16 = (1 : BitVec 12).toNat ∧ leNat ((tx.readHost 0 32).take 2) = 60 ∧
      (∀ k, k < 32 → 2 ≤ k → (tx.readHost 0 32)[k]? = some 0)) := by
  decide
/-! ### Witnesses: the transport -/

namespace Sys2Proof.Machine

/-- Partition 0 has queue pairs 0 to 63, keys 0 to 3, protection domain 0, key identifier 1 and granule 0, whose first bytes are region 0: all rights,
64 bytes at its offset 4096; interface 0 is up, and queue pair 5 is `q`. -/
def wired (q : QP) : Core :=
  let c := ((running {}).wf Regs.RMA_QP_RANGE_COUNT 0 64).wf Regs.RMA_KEY_RANGE_COUNT 0 4
  let c := (c.wf Regs.RMA_PD_RANGE_COUNT 0 1).wf Regs.SEC_KEYID_MAP_PART 0 0
  let c := (c.wf Regs.FAB_PORT_STATUS_LINK_UP 0 1).wf Regs.MEM_GRANULE_OWNER_PART 0 0
  let c := (c.wf Regs.COL_HERD_CFG_SIZE 0 4).wf Regs.RMA_REGION_BASE_ADDR 0 (2 * 2 ^ 60)
  let c := (c.writeView 0 0 (leBytes 32 (0xF + (2 * 2 ^ 60 + 4096) * 2 ^ 64 + 64 * 2 ^ 128))).writeView 0 4096 (leBytes 64 7)
  { c with qps := [q], epochCur := some (1, 1), epochPrev := none }

/-- A queue pair of partition 0 with queue pair 6 of device 1, over interface 0. -/
def pair5 : QP :=
  { num := 5, part := 0, state := qREADY, remoteQp := 6, remoteDev := 1, vc := 1, key := 1, paths := [(0, 0)], cached := true }

/-- A packet of one message for it. -/
def pkt5 (total : BitVec 32) (payload : List Byte) : Pkt :=
  { port := 0, vc := 1, key := 1, dstDev := 0, srcDev := 1, dstQp := 5, srcQp := 6, msn := 0, total := total, payload := payload }

/-- Packet `k` of OPCODE `o` reaches queue pair 5, `q`, and nothing else waits. -/
def heard (c : Core) (o : Nat) (k : Pkt) (q : QP) : Bool :=
  decide (c.frontChecks o k = (c, true) ∧ c.qp? 5 = some q ∧ (c.qpOwner 5).isSome = true ∧ q.cached = true ∧ q.peerOk k = true ∧ c.collEnds = [] ∧
    c.slowReqs = [] ∧ c.remoteOut = [])

end Sys2Proof.Machine

theorem witness_Packets_checks :
    let c := wired pair5
    let k := pkt5 8 (leBytes 8 1)
    (c.collEnds = [] ∧ c.slowReqs = [] ∧ c.remoteOut = []) ∧ c.probe = none ∧ (c.frontChecks 1 { k with dstDev := 1 }).2 = false ∧
    (c.frontChecks 1 k = (c, true) ∧ (wired { pair5 with num := 4 }).qp? 5 = none ∧ c.keyUsable 1 = true) := by
  decide

theorem witness_Packets :
    let w := pkt5 8 (leBytes 8 1)
    let a := pkt5 8 (leBytes 16 1)
    let g : Region := { r := true, w := true, a := true, pd := 0, base := 2 * 2 ^ 60 + 4096, len := 64 }
    let b : RecvBuf := { op := 3, ltile := 0, desc := 0, len := 8 }
    let hears := fun (o : Nat) (k : Pkt) (q : QP) => heard (wired q) o k q
    let inRegion := fun (kind : Nat) (k : Pkt) => decide ((wired pair5).regionCache = [] ∧ ((wired pair5).region pair5 kind k.rkey.toNat).1 = some g ∧
      k.roff.toNat + k.total.toNat ≤ g.len ∧ 0 < k.total.toNat)
    let fresh := fun (q : QP) (k : Pkt) =>
      decide (q.rx = [] ∧ q.refused = [] ∧ q.atomics = [] ∧ k.msn.toNat = q.rxLow ∧ k.offset = 0 ∧ k.total.toNat ≤ q.pmtu)
    let posted := { pair5 with bufs := [b] }
    (hears 1 w pair5 ∧ fresh pair5 w ∧ inRegion 1 w ∧ w.payload.length = w.total.toNat) ∧
    (hears 2 w posted ∧ fresh posted w ∧ w.rkey = 0 ∧ w.total.toNat ≤ b.len) ∧
    (hears 3 (pkt5 64 []) pair5 ∧ fresh pair5 (pkt5 64 []) ∧ inRegion 3 (pkt5 64 [])) ∧
    (hears 5 a pair5 ∧ inRegion 5 a ∧ (g.base + a.roff.toNat) % 8 = 0 ∧ a.payload.length = 16) := by
  decide

theorem witness_Packets_answers :
    let k := pkt5 8 (leBytes 8 1)
    let m := fun (kind : Nat) => ({ msn := 0, kind := kind, vc := 1, total := 8, owner := .op 3, next := 1 } : TxMsg)
    let q := fun (kind : Nat) => ({ pair5 with tx := [m kind] } : QP)
    let c := fun (q : QP) => ({ wired q with ops := [{ id := 3, part := 0, ltile := 0, tok := 0, major := 0xA0, unit := 0, wait := true }] } : Core)
    let hears := fun (o : Nat) (k : Pkt) (q : QP) => heard (c q) o k q
    (hears 4 k (q 3) ∧ ((c (q 3)).op? 3).isSome = true ∧ k.total.toNat = (m 3).total ∧ k.offset = 0 ∧ (m 3).total ≤ (q 3).pmtu ∧ k.payload.length = (m 3).total) ∧
    hears 6 k (q 5) ∧ (hears 8 k (q 1) ∧ (m 1).next = (q 1).packets (m 1).total) ∧
    (hears 9 { k with payload := leBytes 2 St.PROTECTION } (q 1) ∧ leNat ((leBytes 2 St.PROTECTION).take 2) ≠ St.TIMEOUT ∧ St.PROTECTION ≠ St.CONTEXT) ∧
    (hears 9 { k with payload := leBytes 2 St.CONTEXT } (q 1) ∧ leNat ((leBytes 2 St.CONTEXT).take 2) = St.CONTEXT) ∧ hears 10 k (q 1) ∧
    (hears 11 k { pair5 with rx := [{ msn := 0, kind := 1, vc := 1, total := 8, roff := 0, rkey := 0 }] }) ∧
    hears 11 k { pair5 with refused := [(0, St.PROTECTION)] } ∧ hears 15 k (q 1) := by
  decide

theorem witness_Packets_credit :
    let c := ({} : Core)
    let k : Pkt := { pkt5 0 (leBytes 4 (14 + 7 * 2 ^ 8)) with vc := 0, key := 0 }
    let r := (({} : Core).wf Regs.FAB_VC_CFG_CELLS 14 9)
    k.payload = leBytes 4 ((14 : Fin 16).val + (7 : BitVec 24).toNat * 2 ^ 8) ∧ k.vc = 0 ∧
    (c.frontChecks 0x0C k = (c, true) ∧ c.qps = [] ∧ c.probe = none) ∧ (c.frontChecks 0x0D k = (c, true) ∧ c.unallotted 0 14 = 0) ∧
    (r.frontChecks 0x0D k = (r, true) ∧ 0 < r.unallotted 0 14 ∧ r.rxGrants.any (fun g => g.unit == 0 && g.vc == 14 && g.dev == 1) = false) ∧
    (c.frontChecks 0x0E k = (c, true) ∧ c.creditReqs = [] ∧ c.rxGrants = []) := by
  decide

theorem witness_TransportUpkeep :
    let m : TxMsg := { msn := 9, kind := 1, vc := 1, total := 8, owner := .op 3, next := 1 }
    let q := { pair5 with tx := [m] }
    let w := { pair5 with tx := [{ m with waiting := true }] }
    let c := wired q
    let r : RxRec := { msn := 4, kind := 2, vc := 1, total := 9000, roff := 0, rkey := 0 }
    let x := ({} : Core)
    let granted : Core := { x with txCredit := [(creditKey 0 1 2, { limit := 3, granted := true })] }
    let asked : Core := { wired pair5 with txCredit := [(creditKey 0 1 2, { requested := true })] }
    let g : RxGrant := { unit := 0, vc := 1, dev := 2, changed := true }
    (x.qp? 5 = none ∧ c.qp? 5 = some q ∧ q.msg? 8 false = none) ∧
    (q.msg? 9 false = some m ∧ (m.waiting || m.next == 0 || q.state != qREADY) = false ∧ m.rounds < c.retryLimit 0 ∧
      c.retryLimit 0 ≤ { m with rounds := 255 }.rounds ∧ q.bufs = [] ∧ q.rx = []) ∧
    (w.msg? 9 false = some { m with waiting := true } ∧ m.tries < (wired w).retryLimit 0 ∧ (wired w).collEnds = [] ∧ (wired w).slowReqs = [] ∧ (wired w).remoteOut = []) ∧
    ({ pair5 with rx := [r] }.rx.find? (fun r => r.msn == 4 && r.done.isNone) = some r) ∧
    ((x.credit 0 1 2).granted = false ∧ (granted.credit 0 1 2).granted = true) ∧
    (((asked.credit 0 1 2).requested && !(asked.credit 0 1 2).granted && asked.linkUp 0) = true) ∧
    ({ x with rxGrants := [g] } : Core).rxGrants.find? (fun g => g.unit == 0 && g.vc == 1 && g.dev == 2) = some g ∧
    (x.invals.any (fun e => e.1 == 0 && x.keyBusy e.1 e.2) = false) ∧
    (({ wired q with invals := [(0, 1)] } : Core).invals.any (fun e => e.1 == 0) = true) := by
  decide

/-- A context of 176 bytes for queue pair 6 of device 1: VC 1, key 1, one path over port 0, addresses that are not used. -/
def ctxBytes : List Byte := leBytes 2 6 ++ leBytes 2 1 ++ leBytes 2 0 ++ leBytes 1 1 ++ leBytes 1 1 ++ leBytes 1 1 ++ leBytes 1 2 ++ leBytes 166 0

theorem witness_TransportUpkeep_create :
    let c := ({ wired pair5 with qps := [] } : Core)
    let y := c.parseContext 0 5 ctxBytes
    let f : QP := { pair5 with cached := false, fetching := true }
    c.flag Regs.RMA_QP_CMD_STATUS_BUSY 0 = false ∧ (c.wf Regs.RMA_QP_CMD_STATUS_BUSY 0 1).flag Regs.RMA_QP_CMD_STATUS_BUSY 0 = true ∧
    c.qpOwner 5 = some 0 ∧ c.qpOwner 64 = none ∧ c.qp? 5 = none ∧ y.2 = true ∧ (c.parseContext 0 5 (leBytes 176 0)).2 = false ∧
    (c.rf Regs.RMA_PD_RANGE_FIRST 0 ≤ y.1.pd ∧ y.1.pd < c.rf Regs.RMA_PD_RANGE_FIRST 0 + c.rf Regs.RMA_PD_RANGE_COUNT 0 ∧
      c.rf Regs.SEC_KEYID_MAP_PART (y.1.key - 1) = 0 ∧ y.1.paths.any (fun a => c.vcForeign 0 (unitOfPort a.1 a.2) y.1.vc) = false ∧
      y.1.remoteDev ≠ c.rf Regs.COL_HERD_CFG_DEV_ID ∧ y.1.remoteDev < c.rf Regs.COL_HERD_CFG_SIZE) ∧
    ((wired pair5).qp? 5 = some pair5 ∧ pair5.state ≠ qRESET) ∧
    ((wired f).qp? 5 = some f ∧ f.fetching = true ∧ f.destroying = false ∧ f.waiting = [] ∧ ((wired f).qps.filter (·.cached)).length < 4096 ∧ pair5.fetching = false) := by
  decide
/-! ### Witnesses: collectives -/

namespace Sys2Proof.Machine

/-- Partition 0 is ACTIVE without a program on a herd of one; its granule holds the descriptor of a group of one at its offset 0 and the member at 64. -/
def herdOne : Core :=
  let c := ((running {}).setPart 0 { key := 1 }).wf Regs.MEM_GRANULE_OWNER_PART 0 0
  let c := (c.wf Regs.COL_HERD_CFG_VALID 0 1).wf Regs.COL_HERD_CFG_SIZE 0 1
  let c := c.wf Regs.COL_GROUP_DESC_ADDR 0 (2 * 2 ^ 60)
  (c.writeView 0 0 (leBytes 64 (0x77 + 1 * 2 ^ 16 + 0x21 * 2 ^ 32 + 1024 * 2 ^ 64 + (2 * 2 ^ 60 + 64) * 2 ^ 128))).writeView 0 64 (leBytes 8 (0xFFFF * 2 ^ 32))

/-- Group 0 of partition 0, with tag 0x77, is formed of this device and one more, which queue pair 5 reaches; `ks` have been issued. -/
def ringed (ks : List Coll) : Core :=
  let c := (wired pair5).wr Regs.COL_GRP_INFO 0 0
  let c := (((c.wf Regs.COL_GRP_INFO_FORMED 0 1).wf Regs.COL_GRP_INFO_COUNT 0 2).wf Regs.COL_GRP_TAG_TAG 0 0x77).wf Regs.COL_GRP_TAG_CHUNK_ELEMS 0 1024
  { c with colls := ks, colMembers := [(0, [(0, 0, 0xFFFF), (1, 1, 5)])] }

/-- A collective of kind `kind` of two elements of tile 0. -/
def collOf (kind : Nat) : Coll := { op := 3, part := 0, group := 0, ltile := 0, seq := 0, kind := kind, e := 2, td := (tdesc 0x1000 2 2 1 4).toNat }

/-- A packet that carries a collective header of tag `tag`, KIND `kind`, E 2, SHARD `shard`, STATUS `status`, and a body. -/
def collPkt (tag kind shard status : Nat) (body : List Byte) : Pkt :=
  pkt5 (BitVec.ofNat 32 (64 + body.length)) (leBytes 52 (tag + kind * 2 ^ 16 + 2 * 2 ^ 64 + shard * 2 ^ 128) ++ leBytes 12 status ++ body)

end Sys2Proof.Machine

theorem witness_Collectives_groups :
    let c := herdOne
    let a := c.rf Regs.COL_GROUP_DESC_ADDR 0
    let d := c.readAt 0 0 a 0 64
    let f := fun (lo n : Nat) => leNat ((d.drop lo).take n)
    let r := ringed []
    ((running {}).part 0).prog.isSome = true ∧ ((c.part 0).prog.isNone = true ∧ c.flag Regs.COL_GRP_INFO_FORMED 0 = false ∧ c.flag Regs.COL_HERD_CFG_VALID = true ∧
      bits a 63 60 = 2 ∧ c.boundsOk 0 a 0 64 = true) ∧
    (f 2 2 = 1 ∧ f 5 3 = 0 ∧ f 12 4 = 0 ∧ f 24 40 = 0 ∧ f 4 1 % 16 = 1 ∧ f 4 1 / 16 = 2 ∧ isPow2 (f 8 4) = true ∧ 1024 ≤ f 8 4 ∧ f 8 4 ≤ 262144) ∧
    (bits (f 16 8) 63 60 = 2 ∧ c.boundsOk 0 (f 16 8) 0 8 = true ∧ leNat (c.readAt 0 0 (f 16 8) 0 8) = 0xFFFF * 2 ^ 32 ∧ c.rf Regs.COL_HERD_CFG_ORDINAL = 0 ∧
      c.rf Regs.COL_HERD_CFG_DEV_ID = 0 ∧ c.qp? 0xFFFF = none ∧ (∀ j, j < 16 → c.flag Regs.COL_GRP_INFO_FORMED j = false)) ∧
    ((({} : Core).part 0).prog.isNone = true ∧ bits (({} : Core).rf Regs.COL_GROUP_DESC_ADDR 0) 63 60 ≠ 2) ∧
    ((c.ring 0 0).isNone = true ∧ c.collEnds = [] ∧ (r.ring 0 0).isSome = true ∧ r.colls = []) := by
  decide

theorem witness_Collectives_fields : ¬ isPow2 1025 = true ∧ ¬ 1 ≤ 0x20 % 16 := by decide

theorem witness_Collectives :
    let whole := fun (c : Core) (o : Nat) (k : Pkt) => heard c o k pair5 && decide (k.msn.toNat = pair5.rxLow ∧ k.offset = 0 ∧ k.total.toNat ≤ pair5.pmtu ∧
      k.payload.length = k.total.toNat ∧ 64 ≤ k.total.toNat ∧ pair5.rx = [] ∧ pair5.refused = [] ∧ pair5.atomics = [])
    let found := fun (c : Core) (k : Pkt) => c.colls.find? (fun x => x.part == 0 && x.group == 0 && x.ltile == (CollHdr.parse k.payload).tile &&
      x.seq == (CollHdr.parse k.payload).seq && x.kind != kCKPT)
    let fits := fun (k : Pkt) (x : Coll) => decide ((CollHdr.parse k.payload).kind = x.kind ∧ (CollHdr.parse k.payload).e = x.e ∧
      (CollHdr.parse k.payload).compact = x.compact ∧ (CollHdr.parse k.payload).digest = 0)
    let has := fun (kind : Nat) => ringed [collOf kind]
    (whole (ringed []) 0x11 (collPkt 0x78 kRSCAT 1 0 []) = true ∧ ((ringed []).ringOfTag 0 0x78).isNone = true) ∧
    (whole (ringed []) 0x10 (collPkt 0x77 kRSCAT 1 0 []) = true ∧ ((ringed []).ringOfTag 0 0x77).isSome = true ∧ (found (ringed []) (collPkt 0x77 kRSCAT 1 0 [])).isNone = true) ∧
    (whole (ringed []) 0x10 (collPkt 0x77 kAGREE 1 0 []) = true ∧ (CollHdr.parse (collPkt 0x77 kAGREE 1 0 []).payload).e ≠ (ringed []).stepOf 0) ∧
    (whole (has kAGATH) 0x10 (collPkt 0x77 kAGATH 1 0 (leBytes 4 1)) = true ∧ found (has kAGATH) (collPkt 0x77 kAGATH 1 0 (leBytes 4 1)) = some (collOf kAGATH) ∧
      fits (collPkt 0x77 kAGATH 1 0 (leBytes 4 1)) (collOf kAGATH) = true) ∧
    (whole (has kA2A) 0x10 (collPkt 0x77 kA2A 1 0 []) = true ∧ fits (collPkt 0x77 kA2A 1 0 []) (collOf kA2A) = true ∧
      ((ringed []).ringOfTag 0 0x77).map (fun r => ((has kA2A).a2aTake (collOf kA2A) r 1 []).isSome) = some true) ∧
    (whole (has kRING) 0x10 (collPkt 0x77 kRING 0 0 (leBytes 8 1)) = true ∧ fits (collPkt 0x77 kRING 0 0 (leBytes 8 1)) (collOf kRING) = true ∧
      (descOf (collOf kRING).td).bytes = 8 ∧ (collOf kRING).sent ≤ (collOf kRING).confirmed) ∧
    (whole (has kRSCAT) 0x11 (collPkt 0x77 kRSCAT 1 0 []) = true ∧ fits (collPkt 0x77 kRSCAT 1 0 []) (collOf kRSCAT) = true ∧ (collOf kRSCAT).outcomes = []) ∧
    (whole (has kAGATH) 0x12 (collPkt 0x77 kAGATH 1 0 []) = true ∧ whole (has kRSCAT) 0x13 (collPkt 0x77 kRSCAT 1 9 []) = true) := by
  decide

theorem witness_Collectives_ring :
    ((ringed []).ringOfTag 0 0x77).map (fun r => (r.pos, r.n, r.next, r.prev)) = some (0, 2, 1, 1) ∧
    ((ringed []).ringOfTag 0 0x77).map (fun r => chunkShape (collOf kAGATH) r (CollHdr.parse (collPkt 0x77 kAGATH 1 0 (leBytes 4 1)).payload)
      (descOf (collOf kAGATH).td) (leBytes 4 1)) = some true ∧ ((ringed [collOf kAGATH]).colls.map (·.op)).Nodup := by
  decide

/-- An owner's first of two chunks of a reduce-scatter of four elements in chunks of one: the sum agrees with its check. -/
theorem witness_Collectives_chunk :
    let x : Coll := { collOf kRSCAT with e := 4, ta := (tdesc 0x2000 1 4 1 2).toNat }
    let c := ((ringed [x]).wf Regs.COL_GRP_TAG_CHUNK_ELEMS 0 1).setBankState 0 0 bkON
    let k := pkt5 68 (leBytes 64 (0x77 + kRSCAT * 2 ^ 16 + 4 * 2 ^ 64) ++ leBytes 4 0)
    let h := CollHdr.parse k.payload
    heard c 0x10 k pair5 = true ∧ x.owned = [] ∧ (h.kind = x.kind ∧ h.e = x.e ∧ h.compact = x.compact) ∧
    (c.ringOfTag 0 0x77).map (fun r => let y := addChunk h (some (splitElems 4 (leBytes 4 0))) (c.rsPart x r h.shard h.chunk)
      decide (h.shard = r.pos ∧ r.pos < r.n ∧ h.chunk < chunkCount (shardCount x.e r.n h.shard) r.chunk ∧
        4 = chunkLen (shardCount x.e r.n h.shard) r.chunk h.chunk * 4 ∧ 0 + 1 < chunkCount (shardCount x.e r.n r.pos) r.chunk ∧ chunkOk y.1 y.2 = true)) = some true := by
  decide

theorem witness_Collectives_probes :
    let c := wired pair5
    let b : Probe := { part := 0, qp := 5, path := 0, kib := 0 }
    let p : Core := { c with probe := some b }
    let w : Word := BitVec.ofNat 64 (5 * 2 ^ 4 + 2 ^ 23)
    let x : Core := { c with colls := [collOf kRING] }
    (heard c 0x14 (pkt5 64 (leBytes 64 0)) pair5 = true ∧ heard c 0x15 (pkt5 0 []) pair5 = true ∧ c.probe = none ∧ p.probe = some b ∧ b.qp = 5 ∧
      (p.tick + 1 - b.started) * Config.tickNs < 2 ^ 32) ∧
    (x.coll? 3 = some (collOf kRING) ∧ x.coll? 4 = none ∧ (x.colls.map (·.op)).Nodup ∧ x.collEnds = []) ∧
    ((0 : Word).getLsbD 23 = false ∧ w.getLsbD 23 = true ∧ c.flag Regs.COL_PROBE_STATUS_BUSY = false ∧ c.qpIssue 0 5 none = 0 ∧ c.qpIssue 0 6 none ≠ 0 ∧
      c.qpIssue 0 6 none < 2 ^ 16 ∧ pair5.paths[bits w.toNat 22 20]? = some (0, 0) ∧ c.linkUp (unitOfPort 0 0) = true ∧
      frameCells pair5.form 64 ≤ (({ c with txCredit := [(creditKey 0 1 1, { limit := 9, granted := true })] } : Core).credit 0 1 1).left) := by
  decide
/-! ### Witnesses: partitions, keys and the life cycle -/

namespace Sys2Proof.Machine

/-- A partition 0 in state `st` with the hidden state `x`, on tile group 0. -/
def parted (st : Nat) (x : Part) : Core :=
  let c := (({} : Core).wf Regs.DEV_STATUS_READY 0 1).wf Regs.PART_STATE_STATE 0 st
  (c.wf Regs.PART_TILE_GROUPS_GROUPS 0 1).setPart 0 x

end Sys2Proof.Machine

theorem witness_PartitionLife :
    let c := parted pFREE {}
    let a := parted pACTIVE { key := 1 }
    let d := parted pDRAINING { key := 1 }
    let z := parted pDRAINING { revoked := true }
    (c.answers = true ∧ c.txOpen 0 = false ∧ ({ c with lost := true } : Core).answers = false) ∧
    (c.pstate 0 = pFREE ∧ ({} : Perm).lc ≠ 3 ∧ ({} : Perm).tamper = false ∧ c.flag Regs.DEV_STATUS_READY = true ∧ (0x8000 : BitVec 16) ≠ 0 ∧
      (∀ g, g < 16 → (0x8000 : BitVec 16).getLsbD g = true → (∀ q, q < 16 → q ≠ 0 → c.ownsGroup q g = false) ∧ 255 / 16 = g ∧ (c.phys 255).isSome = true)) ∧
    (a.answers = true ∧ a.txOpen 0 = false ∧ a.pstate 0 = pACTIVE ∧ c.pstate 0 ≠ pACTIVE) ∧ (d.pstate 0 = pDRAINING ∧ (d.part 0).revoked = false) ∧
    (z.pstate 0 = pDRAINING ∧ (z.part 0).revoked = true ∧ z.items = [] ∧ z.recs = []) := by
  decide

theorem witness_PartitionLife_times :
    let c := parted pFREE {}
    let a := parted pACTIVE { key := 1 }
    let d := parted pDRAINING { key := 1 }
    let g := parted pSCRUBBING { revoked := true, freed := true, scrub := [371] }
    let f := parted pSCRUBBING { revoked := true, scrub := [370, 371] }
    (d.tick < (d.part 0).removeTick + 250000 ∧ (d.part 0).removeTick + 250000 ≤ ({ d with tick := 250000 } : Core).tick ∧ (d.items.map (·.id)).Nodup) ∧
    ((c.part 0).scrub = [] ∧ (g.part 0).scrub = [371] ∧ (g.part 0).freed = true ∧ (f.part 0).scrub = 370 :: [371] ∧ 370 ∉ [371]) ∧
    ((a.part 0).resetting = false ∧ (parted pACTIVE { resetting := true }).pstate 0 = pACTIVE) ∧
    ((0x200 + 271 : Word).getLsbD 9 = true ∧ c.flag Regs.DEV_TILE_RESET_STATUS_BUSY = false ∧ 271 < bits (0x200 + 272 : Word).toNat 8 0 ∧ bits (0x200 + 271 : Word).toNat 8 0 < 272) ∧
    (((running {}).logical 0).isSome = true ∧ ((running {}).tile 0).run = 1 ∧ ¬((c.logical 271).isSome = true ∧ (c.tile 271).run = 1)) := by
  decide

/-- A device with no sparing record has a map of the logical tiles that keeps to the rows of the grid. -/
theorem witness_rows (l u : Nat) (h : ({} : Core).phys l = some u) : u / 17 = l / 16 := by
  have h : some (17 * (l / 16) + l % 16) = some u := h
  cases h
  omega

/-- A device of an ACTIVE partition 0 with the link up, whose key registers name host memory. -/
def Sys2Proof.Machine.keyed : Core :=
  let c := (({} : Core).wf Regs.HIF_LINK_STATUS_UP 0 1).wr Regs.SEC_EPOCH_ARG 0 (3 * 2 ^ 60)
  { ((c.wf Regs.MEM_GRANULE_OWNER_PART 0 0).wf Regs.PART_STATE_STATE 0 pACTIVE).setPart 0 { key := 1 } with busMaster := [0] }

/-- A stored tensor-data key with the label 9. -/
def Sys2Proof.Machine.slot9 : KeySlot := { model := false, label := 9, bind := leBytes 64 5, key := 4 }

theorem witness_KeyStore_epoch :
    let c := keyed
    let n : Core := { c with epochNext := some (2 ^ 32 - 1, 65535) }
    (({} : Core).flag Regs.HIF_LINK_STATUS_UP = false ∧ c.flag Regs.HIF_LINK_STATUS_UP = true ∧ 0 ∈ c.busMaster ∧ bits (c.rd Regs.SEC_EPOCH_ARG) 63 60 = 3 ∧
      (0x10 : BitVec 16) ≠ 0 ∧ field (c.readHost 0 1328) 0 4 ≠ 0x4C424B57) ∧
    (c.epochNext = none ∧ n.epochNext = some (2 ^ 32 - 1, 65535) ∧ ({ tamper := true } : Perm).tamper = true) := by
  decide

theorem witness_KeyStore_grace :
    let c := keyed
    c.tick < ({ c with switchTick := 1 } : Core).switchTick + c.rf Regs.SEC_EPOCH_GRACE_MS * Config.ticksPerMs ∧
      c.switchTick + c.rf Regs.SEC_EPOCH_GRACE_MS * Config.ticksPerMs ≤ ({ c with tick := 10 ^ 9 } : Core).tick := by
  decide

theorem witness_KeyStore_access :
    let r := (parted pDRAINING { revoked := true })
    (r.part 0).revoked = true ∧ (keyed.part 0).revoked = false ∧ (keyed.itemAccess 0 [viewRange 0 1328 false] {}).1 = 0 ∧
      (keyed.itemAccess 0 [viewRange (2 ^ 40 - 4) 1328 false] {}).1 ≠ 0 ∧ (keyed.itemAccess 0 [viewRange (2 ^ 40 - 4) 1328 false] {}).1 < 2 ^ 16 := by
  decide

theorem witness_KeyStore_slots :
    let b : Core := { keyed with slots := [(15, some slot9)] }
    (keyed.slot 0 15).isNone = true ∧ b.slot 0 15 = some slot9 ∧ slot9.bind.length = 64 ∧ 0 + 128 + 16 + 16 * ceilDiv 16 65536 ≤ 2 ^ 40 := by
  decide

theorem witness_KeyStore_seal :
    (keyed.itemAccess 0 [viewRange 4096 (128 + 16 + 16 * ceilDiv 16 65536) true, viewRange 0 16 false] {}).1 = 0 := by
  decide

/-- A sealed object of 16 bytes under that key. -/
def Sys2Proof.Machine.sealed16 : List Byte := leBytes 4 0x4C534C44 ++ leBytes 4 0x0101 ++ leBytes 8 9 ++ leBytes 64 5 ++ leBytes 8 16 ++ leBytes 40 0

theorem witness_KeyStore_unseal_head :
    field sealed16 0 4 = 0x4C534C44 ∧ field sealed16 4 1 ≤ 1 ∧ 1 ≤ field sealed16 5 1 ∧ field sealed16 6 2 = 0 ∧ field sealed16 8 8 = slot9.label := by
  decide

theorem witness_KeyStore_unseal_length : field sealed16 80 8 = 16 := by rfl

theorem witness_KeyStore_unseal_rest : field sealed16 96 32 = 0 := by decide

theorem witness_KeyStore_unseal_bind : (sealed16.drop 16).take 64 = slot9.bind := by rfl

theorem witness_KeyStore_measured :
    (∀ e ∈ ([9, 10] : List Nat), ((st keyed).measured 0 e).isSome = true) ∧ ((st keyed).measured 0 0x10).isNone = true := by
  decide

/-- The first 16 bytes of a blob of INSTALL_MODEL: its magic number, version 1.0, KIND 2 and LABEL 9. -/
def blobHead : List Byte := leBytes 4 0x4C424B57 ++ leBytes 2 0x0100 ++ leBytes 2 2 ++ leBytes 8 9

/-- A field of the head is read from the head. -/
theorem blobHead_field (x : List Byte) (o n : Nat) (h : o + n ≤ 16) : field (blobHead ++ x) o n = field blobHead o n := by
  have l : blobHead.length = 16 := by decide
  simp only [field]
  rw [List.drop_append_of_le_length (by omega), List.take_append_of_le_length (by rw [List.length_drop]; omega)]

/-- A blob is good for an OWNED device when its bytes hold the device's hash and the partition's nonce and its key opens; whether it opens is a free
value of the model, so it is a hypothesis here. -/
theorem witness_KeyStore_blob (key rest : List Byte) (hash : (Config.deviceHash 7).length = 64) :
    let s : State := { core := {}, perm := { lc := 2, seed := some 7 }, pending := [] }
    let bs := blobHead ++ (Config.deviceHash 7 ++ (s.core.nonce 1 ++ (List.replicate 80 0 ++ rest)))
    Config.openBlob 7 (bs.take 192) (bs.drop 192) = some key → s.goodBlob bs 2 1 key := by
  intro s bs h
  have l : blobHead.length = 16 := by decide
  have nl : (s.core.nonce 1).length = 32 := rfl
  have d : ∀ n, bs.drop (80 + n) = (s.core.nonce 1 ++ (List.replicate 80 0 ++ rest)).drop n := by
    intro n
    simp only [bs]
    rw [← List.append_assoc, ← List.drop_drop, List.drop_left' (by simp [l, hash])]
  have z : field bs 176 16 = 0 := by
    show leNat ((bs.drop (80 + 96)).take 16) = 0
    rw [d, List.drop_append, List.drop_eq_nil_of_le (by omega), nl, List.nil_append, List.drop_append_of_le_length (by simp),
      List.take_append_of_le_length (by simp), List.drop_replicate, List.take_replicate]
    decide
  refine ⟨?_, ?_, ?_, ?_, ?_, z, fun e => absurd e (by decide), rfl, rfl, ?_, 7, rfl, ?_, h⟩
  iterate 5
    simp only [bs]
    rw [blobHead_field _ _ _ (by decide)]
    decide
  · have := d 0
    rw [Nat.add_zero, List.drop_zero] at this
    rw [this, List.take_left' nl]
  · simp only [bs]
    rw [List.drop_left' l, List.take_left' hash]

theorem witness_LifeCycle :
    let c := ((({} : Core).wf Regs.HIF_LINK_STATUS_UP 0 1).wr Regs.SEC_LC_ARG 0 (3 * 2 ^ 60))
    let c : Core := { c with busMaster := [0] }
    let t := (c.wf Regs.SEC_TAMPER_CFG_SENSOR_EN 0 0).wf Regs.PART_STATE_STATE 15 pACTIVE
    ((∀ p, p < 16 → c.pstate p = pFREE ∧ c.flag Regs.PART_STATUS_OWNER_LOCK p = false) ∧ ({} : Perm).tamper = false ∧ ¬ 32 ≤ ({} : Perm).ownSteps) ∧
    (t.pstate 15 ≠ pFREE ∧ (c.wf Regs.PART_STATUS_OWNER_LOCK 15 1).flag Regs.PART_STATUS_OWNER_LOCK 15 = true) ∧
    (c.flag Regs.HIF_LINK_STATUS_UP = true ∧ 0 ∈ c.busMaster ∧ bits (c.rd Regs.SEC_LC_ARG) 63 60 = 3 ∧ ({} : Core).flag Regs.HIF_LINK_STATUS_UP = false) ∧
    (State.ownerSigned { core := c, perm := { lc := 2 }, pending := [] } [] = false) ∧
    (t.flag Regs.SEC_TAMPER_CFG_PIN_EN = true ∧ t.flag Regs.SEC_TAMPER_CFG_SENSOR_EN = false ∧ (t.part 15).revoked = false) := by
  decide

/-- A request is signed when its key has the owner's hash and its signature verifies, which is a free value of the model. -/
theorem witness_LifeCycle_signed (bs : List Byte) (h : Config.mldsaVerify (bs.take mldsaKeyBytes) (Config.deviceHash 7 ++ ({} : Core).nonce 0) (bs.drop mldsaKeyBytes) = true) :
    State.ownerSigned { core := {}, perm := { lc := 2, seed := some 7, ownerHash := Config.shake256 (bs.take mldsaKeyBytes) }, pending := [] } bs = true := by
  simp [State.ownerSigned, h]

/-! ### Witnesses: queues and items -/

namespace Sys2Proof.Machine

/-- An entry of 64 bytes: its kind, its addresses and its length. -/
def entryOf (kind a0 a1 len : Nat) : List Byte :=
  leBytes 1 kind ++ leBytes 15 0 ++ leBytes 8 a0 ++ leBytes 8 a1 ++ leBytes 8 len ++ leBytes 24 0

/-- Submission queue 0 of partition 0, enabled with 16 entries in the partition's memory, one of them to fetch: the bytes `bs`. -/
def sqWith (bs : List Byte) : Core :=
  let c := ((keyed.wr Regs.HIF_SQ_BASE 0 (2 * 2 ^ 60 + 4096)).wf Regs.HIF_SQ_CFG_SIZE 0 16).wf Regs.HIF_SQ_CFG_ENABLE 0 1
  ((c.wf Regs.HIF_SQ_PTR_TAIL 0 1).wf Regs.PWR_PWR_STATUS_VSAVE_CHARGED 0 1).writeView 0 4096 bs

/-- Completion queue 0 of partition 0 with 16 slots, its tail at `t`, and a record that waits. -/
def cqAt (t : Nat) : Core :=
  let c := ((keyed.wf Regs.HIF_CQ_CFG_ENABLE 0 1).wf Regs.HIF_CQ_PTR_TAIL 0 t).wf Regs.HIF_CQ_CFG_SIZE 0 16
  let r : Rec := { part := 0, cq := 0, tag := 7, status := 0, sq := 0, origin := 0, ltile := 0, entry := 0, info := 0, ts := 5 }
  { c.setCqh 0 { base := 8192, size := 16 } with recs := [r] }

/-- The device with one open item. -/
def itemOf (i : Item) : Core := { sqWith (leBytes 64 0) with items := [i] }

end Sys2Proof.Machine

theorem witness_Queues_enable :
    let c := keyed.wr Regs.HIF_SQ_BASE 0 (2 * 2 ^ 60 + 4096)
    let on := c.wf Regs.HIF_SQ_CFG_ENABLE 0 1
    let busy : Core := { on with items := [{ id := 0, part := 0, kind := .copy }] }
    ((0x800010 : Word).getLsbD 23 = true ∧ (0x800010 : Word).toNat % 2 ^ 24 % 2 ^ 17 = 2 ^ 4 ∧ (0x810000 : Word).toNat % 2 ^ 24 % 2 ^ 17 = 2 ^ 16) ∧
    (c.rd Regs.HIF_SQ_BASE 0 % 4096 = 0 ∧ c.rd Regs.HIF_SQ_BASE 0 / 2 ^ 60 = 2 ∧ keyed.rd Regs.HIF_SQ_BASE 0 / 2 ^ 60 = 0) ∧
    (c.flag Regs.HIF_SQ_CFG_ENABLE 0 = false ∧ on.flag Regs.HIF_SQ_CFG_ENABLE 0 = true ∧ (0x10 : Word).getLsbD 23 = false) ∧
    (∃ j ∈ busy.items, j.part = 0 ∧ j.sq = 0 ∧ j.kind ≠ .op) ∧ on.items = [] ∧
    ((0x20010 : Word).getLsbD 17 = true ∧ c.flag Regs.HIF_CQ_CFG_ENABLE 0 = false ∧ (0x20010 : Word).toNat % 2 ^ 31 / 2 ^ 18 % 2 ^ 11 < 112 ∧
      ¬ (0x20010 + 2 ^ 18 * 112 : Word).toNat % 2 ^ 31 / 2 ^ 18 % 2 ^ 11 < 112) := by
  decide

theorem witness_Queues_doorbells :
    let c := sqWith (entryOf 3 0 0 0)
    let d := c.wf Regs.PART_STATE_STATE 0 pDRAINING
    (({} : Core).vfOn 0 = false ∧ c.vfOn 0 = true ∧ (c.part 0).resetting = false ∧ d.vfOn 0 = true ∧ d.pstate 0 ≠ pACTIVE ∧ c.pstate 0 = pACTIVE) ∧
    (c.flag Regs.HIF_SQ_CFG_ENABLE 0 = true ∧ (15 : BitVec 16).toNat < c.rf Regs.HIF_SQ_CFG_SIZE 0 ∧ c.rf Regs.HIF_SQ_CFG_SIZE 0 ≤ (16 : BitVec 16).toNat) ∧
    ((cqAt 0).flag Regs.HIF_CQ_CFG_ENABLE 0 = true ∧ (15 : BitVec 16).toNat < ((cqAt 0).cqh? 0).size ∧ c.flag Regs.HIF_CQ_CFG_ENABLE 0 = false) := by
  decide

theorem witness_Queues_fetch :
    let c := sqWith (entryOf 3 0 0 0)
    let r := c.itemAccess 0 [{ d := Desc.range (2 * 2 ^ 60 + 4096) 64, spaces := 0b1100 }] {}
    (keyed.sqNext 0 = none ∧ c.sqNext 0 = some 0 ∧ c.lost = false ∧ c.canOpen 0 = true) ∧
    (r.1 = 0 ∧ 0 < r.2.rf Regs.HIF_SQ_CFG_SIZE 0 ∧ r.2.rf Regs.HIF_SQ_CFG_SIZE 0 ≤ 65536 ∧ ∀ e ∈ r.2.items, e.id ≠ r.2.nextItem) ∧
    (c.itemAccess 0 [{ d := Desc.range (2 * 2 ^ 60 + 2 ^ 40 - 4) 64, spaces := 0b1100 }] {}).1 ≠ 0 := by
  decide

theorem witness_Queues_entry :
    let c := sqWith (entryOf 3 0 0 0)
    let r := c.itemAccess 0 [{ d := Desc.range (2 * 2 ^ 60 + 4096) 64, spaces := 0b1100 }] {}
    entryCheck (r.2.readAt 0 0 (2 * 2 ^ 60 + 4096) 0 64) = 0 := by
  decide

theorem witness_Queues_checks :
    (field (entryOf 0 0 0 0) 0 1 = 0 ∧ 3 < field (entryOf 4 0 0 0) 0 1) ∧
    (∀ k ∈ ([1, 2, 3] : List Nat), field (entryOf k 0 0 (2 ^ 40)) 1 1 ≤ 1 ∧ field (entryOf k 0 0 (2 ^ 40)) 2 6 = 0 ∧ field (entryOf k 0 0 (2 ^ 40)) 44 20 = 0 ∧
      field (entryOf k 0 0 (2 ^ 40)) 0 1 = k ∧ 2 ^ 40 ≤ field (entryOf k 0 0 (2 ^ 40)) 32 8) ∧
    (let e := entryOf 2 (2 ^ 60) (5 * 2 ^ 60) (2 ^ 40 - 1)
     field e 32 8 < 2 ^ 40 ∧ field e 16 8 / 2 ^ 60 ∈ [1, 2, 3, 5] ∧ field e 24 8 / 2 ^ 60 ∈ [1, 2, 3, 5] ∧ field (entryOf 2 (6 * 2 ^ 60) 0 0) 16 8 / 2 ^ 60 ∉ [1, 2, 3, 5]) := by
  decide

theorem witness_Queues_records :
    let c := cqAt 15
    let d := (c.wf Regs.HIF_CQ_MOD_TIMER 0 1).setCqh 0 { base := 8192, size := 16, unsignalled := 1, firstTick := 0 }
    (keyed.nextRec 0 0 = none ∧ (c.nextRec 0 0).isSome = true ∧ c.cqOpen 0 0 = true ∧ (cqAt 0).cqOpen 0 0 = true) ∧
    (c.rf Regs.HIF_CQ_PTR_TAIL 0 < (c.cqh? 0).size ∧ (c.cqh? 0).size ≤ 65536 ∧ c.rf Regs.HIF_CQ_PTR_TAIL 0 + 1 = (c.cqh? 0).size) ∧
    (c.rf Regs.HIF_CQ_MOD_TIMER 0 = 0 ∧ d.rf Regs.HIF_CQ_MOD_TIMER 0 ≠ 0 ∧ (d.cqh? 0).unsignalled ≠ 0 ∧
      (d.cqh? 0).firstTick + d.rf Regs.HIF_CQ_MOD_TIMER 0 ≤ ({ d with tick := 1 } : Core).tick) := by
  decide

theorem witness_Items_program :
    let i : Item := { id := 0, part := 0, kind := .program, len := 64, addr0 := 2 * 2 ^ 60 + 4096 }
    let c := itemOf i
    let r := (c.updItem 0 (fun i => { i with started := true })).fetchImage 0 i 64 {}
    (c.items.map (·.id)).Nodup ∧ keyed.item? 0 = none ∧ c.item? 0 = some i ∧
    (i.started = false ∧ i.order = false ∧ (c.part 0).resetting = false ∧ c.lost = false ∧ c.pstate 0 = pACTIVE ∧
      (∀ j ∈ c.items, j.part = 0 → j.sq = i.sq → j.kind ≠ .op → j.id < 0 → j.started = true) ∧ c.fwWaits = false ∧ (c.part 0).prog = none) ∧
    (64 ≤ i.len % 2 ^ 32 ∧ 63 % 2 ^ 32 < 64 ∧ r.1 = 0 ∧ field (r.2.readAt 0 0 i.addr0 0 64) 8 4 < 64 ∧ (c.fetchImage 0 { i with addr0 := 2 * 2 ^ 60 + 2 ^ 40 } 64 {}).1 ≠ 0) := by
  decide

theorem witness_Items_copy :
    let i : Item := { id := 0, part := 0, kind := .copy, len := 4, addr0 := 2 * 2 ^ 60, addr1 := 2 * 2 ^ 60 + 64 }
    let ops : List Operand := [{ d := Desc.range i.addr1 4, dest := true, spaces := 0b101110 }, { d := Desc.range i.addr0 4, spaces := 0b101110 }]
    let r := ((itemOf i).updItem 0 (fun i => { i with started := true, source := Src.dme 0 })).itemAccess 0 ops {}
    (itemOf i).item? 0 = some i ∧ (itemOf i).fwHold = false ∧ (5 * 2 ^ 60) / 2 ^ 60 = 5 ∧ r.1 = 0 ∧ ((r.2.updItem 0 (fun i => { i with info := 4 })).slowAccess 0 ops (.item 0)).1 = false ∧ (r.2.item? 0).isSome = true := by
  decide

theorem witness_Items_ends :
    let f : Item := { id := 0, part := 0, kind := .fence, started := true, limit := 1 }
    let g : Item := { id := 1, part := 0, kind := .fence, order := true }
    let two : Core := { itemOf f with items := [f, g] }
    let run : Core := { running {} with items := [{ id := 0, part := 0, kind := .program, started := true }] }
    ((itemOf f).item? 0 = some f ∧ (∀ j ∈ two.items, j.part = 0 → j.kind ≠ .op → 0 ≤ j.id) ∧ (∃ j ∈ two.items, j.part = 0 ∧ j.sq = 0 ∧ j.kind ≠ .op ∧ j.id < 1)) ∧
    (f.kind ≠ .op ∧ f.limit ≠ 0 ∧ f.openTick + f.limit * Config.ticksPerMs ≤ ({ two with tick := 25000 } : Core).tick ∧ ¬ f.openTick + f.limit * Config.ticksPerMs ≤ 24999) ∧
    ((0x800000 : Word).getLsbD 23 = true ∧ (0xC00000 : Word).getLsbD 22 = true ∧ f ∈ two.items ∧ (two.part 0).prog = none) ∧
    (∃ pr, (run.part 0).prog = some pr ∧ pr.item = 0 ∧ pr.started = true ∧ pr.stopping = false) := by
  refine ⟨by decide, by decide, by decide, ⟨{ item := 0, tiles := [0], started := true }, by decide⟩⟩

/-! ### Witnesses: resets, the host link, power and firmware -/

namespace Sys2Proof.Machine

/-- A save that waits for its commit, with the reset `k` after it. -/
def saving (k : Option Nat) : Core :=
  { lost := true, saveReset := k, savePend := some { cause := 3, tick := 0, ts := 0, items := [], parts := [], mig := none, log := [] } }

/-- The device whose reference has been lost. -/
def noRef : Core := ({} : Core).wf Regs.EVT_TS_STATUS_REF_NOW_ABSENT 0 1

end Sys2Proof.Machine

theorem witness_Resets :
    let c : Core := {}
    let a := c.wf Regs.PART_STATE_STATE 15 pACTIVE
    (c.lost = false ∧ c.inReset = false ∧ (∀ p, p < 16 → c.pstate p = pFREE) ∧ a.pstate 15 ≠ pFREE ∧ c.flag Regs.EVT_TS_STATUS_REF_NOW_ABSENT = false) ∧
    (({ inReset := true } : Core).inReset = true ∧ (saving none).lost = true ∧ (saving none).inReset = false ∧ noRef.flag Regs.EVT_TS_STATUS_REF_NOW_ABSENT = true) ∧
    (c.savePend = none ∧ (saving none).saveReset = none ∧ (saving none).savePend.isSome = true ∧
      ({ saving (some 3) with perstLow := true } : Core).saveReset = some 3 ∧ (saving (some 2)).saveReset = some 2 ∧ 2 ≠ 3 ∧
      ((saving (some 2)).perstLow = false ∧ (saving (some 2)).pfailLow = false ∧ (saving (some 2)).flag Regs.EVT_TS_STATUS_REF_NOW_ABSENT = false)) ∧
    (let h : Core := { inReset := true, perstLow := true }
     h.inReset = true ∧ h.pfailLow = false ∧ h.savePend = none ∧ h.flag Regs.EVT_TS_STATUS_REF_NOW_ABSENT = false ∧ h.perstLow = true) ∧
    (let h : Core := { inReset := true, pfailLow := true }
     h.inReset = true ∧ h.perstLow = false ∧ h.savePend = none ∧ h.flag Regs.EVT_TS_STATUS_REF_NOW_ABSENT = false) ∧
    (let h : Core := { noRef with inReset := true }
     h.inReset = true ∧ h.perstLow = false ∧ h.pfailLow = false ∧ h.savePend = none) ∧
    (c.flag Regs.DEV_STATUS_READY = false ∧ c.flag Regs.FW_FW_STATUS_RECOVERY = false ∧ c.migDue = none ∧ ({ migDue := some 47 } : Core).migDue = some 47 ∧
      (running {}).flag Regs.DEV_STATUS_READY = true) := by
  decide

theorem witness_HostLink :
    let c := keyed
    let id0 : Item := { id := 0, part := 0, kind := .copy, started := true }
    let n : NvCmd := { id := 0, slot := 0, kind := 0, block := 0, owner := .item 0 }
    let w : Core := { c with nvcmds := [n], items := [id0] }
    (c.flag Regs.HIF_LINK_STATUS_UP = true ∧ c.perstLow = false ∧ c.lost = false ∧ c.nvcmds = [] ∧ ({} : Core).flag Regs.HIF_LINK_STATUS_UP = false ∧
      ({} : Core).inReset = false) ∧
    (w.nvcmds = [n] ∧ n.owner = .item 0 ∧ w.item? 0 = some id0 ∧ id0.status = 0 ∧ w.slowReqs = [] ∧ w.qps = []) ∧
    (∃ r, Reg.at r 0 ≠ Regs.HIF_LINK_STATUS.at 0) ∧ (c.vfOn 0 = true ∧ c.vfOn 1 = false) := by
  refine ⟨by decide, by decide, ⟨Regs.HIF_SQ_CFG, by decide⟩, by decide⟩

theorem witness_HostLink_bar4 :
    let c := keyed
    let e := (c.wf Regs.HIF_PF_WIN_EN 0 1).wf Regs.HIF_PF_WIN_PART 0 0
    (4096 ≤ c.bar4 0 ∧ c.bar4 0 - 0x200000 ≤ c.bar4 0 - 4096 ∧ 0 < c.bar4 0 - 0x4000000 ∧ c.bar4 0 - 0x4000000 < c.bar4 0 - 0x200000) ∧
    (c.flag Regs.HIF_PF_WIN_EN = false ∧ e.flag Regs.HIF_PF_WIN_EN = true ∧ 0 + 8 ≤ e.bar4 0 - 0x4000000) ∧
    (e.pstate 0 = pACTIVE ∧ e.viewOk 0 0 8 = true ∧ e.backing 0 = [] ∧ e.inLicensed 0 0 8 = false ∧ ({} : Core).pstate 0 ≠ pACTIVE ∧ (leBytes 8 5).length = 8) ∧
    (c.flag Regs.DEV_STATUS_READY = false ∧ c.flag Regs.FW_FW_STATUS_RECOVERY = false ∧ (running {}).inReset = false ∧ (running {}).lost = false ∧
      (running {}).flag Regs.DEV_STATUS_READY = true ∧ 27 < 28 ∧ 28 ≤ 37) := by
  decide

theorem witness_PowerControl :
    let c : Core := {}
    let p : Perm := {}
    let t := c.wf Regs.PWR_PWR_STATUS_THROTTLE 0 1
    (c.lost = false ∧ c.inReset = false ∧ c.beaconDown = false ∧ 1 ≤ c.duty ∧ c.duty ≤ 8 ∧ (∀ q, q < 4 → max 600 (p.vminOf q + p.margin q) ≤ 900)) ∧
    (10 * c.rf Regs.PWR_CAP_EFF_WATTS < 65535 ∧ 10 * 0 < c.rf Regs.PWR_CAP_EFF_WATTS * (100 - c.rf Regs.PWR_CAP_CFG_UP_PCT)) ∧
    (let d : Core := { c with notch := c.notches p, duty := 1 }
     min d.notch (d.notches p) = d.notches p ∧ d.duty = 1 ∧ d.flag Regs.PWR_PWR_STATUS_CAP_UNMET = false ∧
     ({ d.wf Regs.PWR_PWR_STATUS_CAP_UNMET 0 1 with metSteps := 99 } : Core).flag Regs.PWR_PWR_STATUS_CAP_UNMET = true) ∧
    ((∀ q, q < 4 → ∀ r, r < 4 → max 600 (p.vminOf q + p.margin q) ≤ max 600 (p.vminOf r + p.margin r) + 150) ∧
      (∀ q, q < 4 → c.throttled q = false ∧ c.thermOf q = (0, 0)) ∧ t.throttled 0 = true) ∧
    ((249 < 250 ∧ 700 < 701 ∧ (250 : Word).toNat % 2 ^ 10 = 250) ∧ c.rf Regs.PWR_RAIL_LIMIT_AMPS < 65535 ∧
      (40 ≤ 65535 ∧ 30 < p.margin 0 ∧ p.margin 0 < 90) ∧ (7 : BitVec 8).toNat < 8) ∧
    (let l : Int := 10 * c.rf Regs.PWR_THERM_CFG_THROTTLE
     l ≤ (1150 : BitVec 12).toInt ∧ (0 : BitVec 12).toInt < l ∧ (0 : BitVec 12).toInt < l - 10 * c.rf Regs.PWR_THERM_CFG_HYST) ∧
    (c.flag Regs.PWR_TEMP_FAILED 31 = false ∧ (c.wf Regs.PWR_TEMP_FAILED 31 1).flag Regs.PWR_TEMP_FAILED 31 = true ∧ (c.wf Regs.PWR_TEMP_FAILED 31 1).flag Regs.PWR_TEMP_FAILED 30 = false ∧ c.tripped = false ∧
      1150 ≤ (1150 : BitVec 12).toInt ∧ ({ tripped := true, tick := 200000 } : Core).tripTick + 200000 ≤ 200000) := by
  decide

theorem witness_Supply :
    let c : Core := {}
    let w := c.wf Regs.PWR_PWR_STATUS_SUPPLY_WARN 0 1
    (c.lost = false ∧ (1 : BitVec 8) ≠ 0 ∧ c.flag Regs.PWR_PWR_STATUS_SUPPLY_WARN = false ∧ w.flag Regs.PWR_PWR_STATUS_SUPPLY_WARN = true ∧ c.fwState ≠ 3 ∧
      (c.setFwState 3).fwState = 3) ∧
    ((0x20000 : Word).getLsbD 17 = true ∧ (0 : Word).getLsbD 17 = false) ∧
    (let x : SavedPart := { part := 0, state := 1, scrub := [], step := 1, ls := 1, hist := 0, schedN := 0, slots := [], buddy := 0, stepA := 0, stepB := 0 }
     let m : Perm := { image := some { cause := 0, tick := 0, ts := 0, items := [], parts := [x], mig := none, log := [] } }
     (0x100 : Word).getLsbD 8 = true ∧ m.image.bind (fun img => img.parts.find? (fun x => x.part == 0)) = some x ∧ m.saveMark = 0 ∧
     keyed.pstate 0 = pACTIVE ∧ (keyed.part 0).prog = none ∧ keyed.viewOk 0 (keyed.layerAt 0 0) 65536 = true ∧
     (parted pACTIVE {}).viewOk 0 ((parted pACTIVE {}).layerAt 0 0) 65536 = false ∧ ({} : Perm).image.isNone = true) := by
  decide

theorem witness_SupplyAndBudget :
    let c := (({} : Core).wf Regs.PWR_HERD_PWR_EN 0 1).wf Regs.PWR_HERD_ORG_COUNT 0 2
    let c := (((c.wf Regs.PWR_HERD_MEMBER_DEV 1 1).wf Regs.PWR_CAP_EFF_WATTS 0 600).wf Regs.PWR_CAP_WATTS 0 600).wf Regs.PWR_HERD_PWR_HYST 0 0
    let full : Core := { c with reports := [⟨0, 9, 500, 600, 0, 0⟩, ⟨1, 9, 10, 600, 0, 0⟩] }
    let lone : Core := { c with reports := [⟨0, 9, 500, 600, 0, 0⟩] }
    (c.lost = false ∧ c.inReset = false ∧ c.beaconDown = false ∧ c.flag Regs.PWR_HERD_PWR_EN = true ∧ ({} : Core).flag Regs.PWR_HERD_PWR_EN = false) ∧
    ((0 : BitVec 16).toNat = c.rf Regs.PWR_HERD_PWR_GROUP_TAG ∧ (1 : BitVec 14).toNat ∈ c.members ∧ (2 : BitVec 14).toNat ∉ c.members ∧
      ({ c with raise_ := some (1, 590) } : Core).raise_ = some (1, 590)) ∧
    (c.ts / c.periodNs % 2 ^ 32 ≠ 9 ∧ ¬({ c with ts := 900000000 } : Core).ts / c.periodNs % 2 ^ 32 ≠ 9 ∧ ¬c.periodNs ≤ 2 * (900000000 % c.periodNs)) ∧
    (c.rf Regs.COL_HERD_CFG_DEV_ID = 0 ∧ full.reports.reverse.find? (fun r => r.dev == 0) = some ⟨0, 9, 500, 600, 0, 0⟩ ∧
      (∀ d ∈ full.members, (full.report d 9).isSome = true) ∧ lone.members.find? (fun d => (lone.report d 9).isNone) = some 1) ∧
    (c.rf Regs.PWR_CAP_RANGE_MIN + c.rf Regs.PWR_HERD_PWR_STEP_W ≤ 600 ∧ 600 + c.rf Regs.PWR_HERD_PWR_STEP_W ≤ c.rf Regs.PWR_CAP_RANGE_MAX ∧
      10 + c.rf Regs.PWR_HERD_PWR_HYST < 500) := by
  decide

theorem witness_FirmwareUpdate :
    let c := (({} : Core).wf Regs.FW_FW_LEN_BYTES 0 8192).wf Regs.PWR_PWR_STATUS_VSAVE_CHARGED 0 1
    let hostUp : Core := { (c.wf Regs.HIF_LINK_STATUS_UP 0 1).wr Regs.FW_FW_ARG 0 (3 * 2 ^ 60) with busMaster := [0] }
    (({} : Perm).activeArea ≤ 1 ∧ (∀ n, n < 8 → (c.setFwState n).fwState = n) ∧ c.flag Regs.FW_FW_STATUS_RECOVERY = false ∧ hostUp.rf Regs.FW_FW_LEN_BYTES = 8192 ∧
      c.fwState = 0 ∧ ({} : Core).rf Regs.FW_FW_LEN_BYTES < 8192) ∧
    ((∀ p, p < 16 → c.flag Regs.PART_STATUS_OWNER_LOCK p = false ∧ c.flag Regs.FW_P_MOTION_MOTION p = false ∧ c.pstate p ≠ pDRAINING ∧ (c.part p).prog = none ∧
        (c.part p).barrierHeld = false) ∧
      c.flag Regs.PWR_PWR_STATUS_VSAVE_CHARGED = true ∧ c.flag Regs.PWR_PWR_STATUS_SUPPLY_WARN = false ∧ c.tileSwaps = [] ∧ c.bankSwaps = [] ∧ c.laneSwaps = [] ∧
      c.rf Regs.MEM_MIG_STATUS_STEP = 0 ∧ c.nvcmds = [] ∧ c.slowReqs = [] ∧ c.qps = [] ∧ c.colls = [] ∧ c.heldSwaps = [] ∧ (c.wf Regs.PART_STATUS_OWNER_LOCK 15 1).flag Regs.PART_STATUS_OWNER_LOCK 15 = true) ∧
    (c.fwStart + max 1 (c.rf Regs.FW_FW_CFG_ACT_TIMEOUT_MS) * 25000 ≤ 10 ^ 12 ∧ (running {}).fwForce = false ∧ ({ fwForce := true } : Core).fwForce = true) ∧
    (c.beaconDown = false ∧ c.tick ≤ c.fwTrialTick + 500 * 25000 ∧ (1 : BitVec 7) ≠ 0 ∧ c.inReset = false ∧ c.lost = false ∧ ({ beaconDown := true } : Core).beaconDown = true) ∧
    ((∀ i ∈ compIds, (({} : Perm).areaA.comp i).svn ≤ 127) ∧ compIds.filter (fun i => decide (({} : Perm).counter i < (({} : Perm).areaA.comp i).svn)) = [] ∧
      (c.wf Regs.FW_SETTINGS_MIGRATING 0 1).flag Regs.FW_SETTINGS_MIGRATING = true) := by
  decide

namespace Sys2Proof.Machine

/-- The start of a manifest: its magic number, version 1.0 and seven entries that name no bytes. -/
def manifestHead : List Byte :=
  leBytes 4 0x4C46574D ++ leBytes 2 0x0100 ++ List.replicate 58 0 ++ compIds.flatMap (fun i => leBytes 1 i ++ List.replicate 127 0)

end Sys2Proof.Machine

/-- Fields past the head of a package of zeros are zero. -/
theorem manifest_past (o n : Nat) (h : 960 ≤ o) : field (manifestHead ++ List.replicate 7232 0) o n = 0 := by
  have l : manifestHead.length = 960 := by decide
  have z : ∀ k, leNat (List.replicate k (0 : Byte)) = 0 := by
    intro k
    induction k with
    | zero => rfl
    | succ k ih =>
      show (0 : Byte).toNat + 256 * leNat (List.replicate k (0 : Byte)) = 0
      rw [ih]; rfl
  simp only [field, List.drop_append, List.drop_eq_nil_of_le (show manifestHead.length ≤ o by omega), List.nil_append, List.drop_replicate, List.take_replicate, z]

/-- Fields within the head are read from the head. -/
theorem manifest_head (o n : Nat) (h : o + n ≤ 960) : field (manifestHead ++ List.replicate 7232 0) o n = field manifestHead o n := by
  have l : manifestHead.length = 960 := by decide
  simp only [field]
  rw [List.drop_append_of_le_length (by omega), List.take_append_of_le_length (by rw [List.length_drop]; omega)]

/-- A package whose format check passes, with a settings range of the new part. Whether its signature verifies is a free value of the model. -/
theorem witness_FirmwareUpdate_package :
    let bs := manifestHead ++ List.replicate 7232 0
    manifestOk bs = true ∧ (areaOf bs).setMin ≤ ({} : Perm).settings ∧ ({} : Perm).settings ≤ (areaOf bs).setMax := by
  have l : (manifestHead ++ List.replicate 7232 (0 : Byte)).length = 8192 := by
    rw [List.length_append, List.length_replicate]; decide
  simp only [manifestOk, zeroAt, entryOk, areaOf, compPlace, compSvn, compAt, compIds, List.all_cons, List.all_nil, l, manifest_past _ _ (show 960 ≤ 960 by decide),
    manifest_past _ _ (show 960 ≤ 964 by decide), manifest_past _ _ (show 960 ≤ 7586 by decide), manifest_past _ _ (show 960 ≤ 4277 by decide)]
  simp (disch := decide) only [manifest_head]
  decide

/-! ### Witnesses: the whole machine -/

theorem witness_StepKeepsPerm : State.reset.permOk = true ∧ ∃ t, step State.reset = .next t := ⟨by decide, _, rfl⟩

theorem witness_StepRunsFront : State.reset.pending = [] ∧ State.reset.core.slew = 0 := by decide

/-! ### Ill-formed commands are refused by WellFormed -/

namespace Sys2Proof.Machine

/-- A packet with a payload. -/
def pktOf (bs : List Byte) : Pkt := pkt5 1 bs

/-- A frame of `len` bytes that carries the bytes `bs`. -/
def frameOf (len : BitVec 16) (bs : List Byte) : Frame := { port := 0, len := len, dst := 0, etherType := 0x0800, bytes := bs }

end Sys2Proof.Machine

theorem smoke_lost_bytes :
    Instr.wf (.add { tile := 0, env := { scratchLost := [272 * 25 * 131072] } }) = false ∧ Instr.wf (.add { tile := 0, env := { scratchLost := [272 * 25 * 131072 - 1] } }) = true ∧
    Instr.wf (.copy { tile := 0, env := { dramLost := [372 * 0x10000000] } }) = false ∧ Instr.wf (.copy { tile := 0, env := { dramLost := [372 * 0x10000000 - 1] } }) = true ∧
    Instr.wf (.sqCopy 0 { hostStatus := 0x12 }) = false ∧ Instr.wf (.sqCopy 0 { hostStatus := 0x11 }) = true := by
  decide

/-- A payload longer than the largest PMTU is no packet. -/
theorem smoke_packet (bs : List Byte) (h : 8192 < bs.length) : Instr.wf (.write (pktOf bs)) = false ∧ Instr.wf (.write (pktOf [])) = true := by
  refine ⟨?_, by decide⟩
  exact decide_eq_false (show ¬bs.length ≤ 8192 by omega)

theorem smoke_frame :
    Instr.wf (.frameReceive (frameOf 1 [1, 2]) false) = false ∧ Instr.wf (.frameReceive (frameOf 2 [1, 2]) false) = true := by decide

theorem smoke_link :
    Instr.wf (.hostLinkUp 0 16 false) = false ∧ Instr.wf (.hostLinkUp 1 2 false) = false ∧ Instr.wf (.hostLinkChanged 3 5 true) = false ∧
    Instr.wf (.hostLinkUp 3 16 true) = true := by decide

theorem smoke_bar4 :
    Instr.wf (.bar4Access 0 0 2 (some [1])) = false ∧ Instr.wf (.bar4Access 0 0 2 (some [1, 2])) = true ∧ Instr.wf (.bar4Access 0 0 2 none) = true := by decide

/-! ### Words of Dioth instructions, written out from R132 and the opcode tables -/

namespace Sys2Proof.Machine

/-- A scalar instruction under p7. -/
def si (op : SOp) (d a b : BitVec 5) (imm : BitVec 37) (wide : Option Word) : SIns :=
  { op := op, guard := 7, neg := false, d := d, a := a, b := b, imm := imm, wide := wide }

/-- A tensor instruction under p7. -/
def ti (op : TOp) (td ta tb tc k : BitVec 4) (mods : BitVec 24) (wide : Option Word) : TIns :=
  { op := op, guard := 7, neg := false, td := td, ta := ta, tb := tb, tc := tc, k := k, mods := mods, wide := wide }

end Sys2Proof.Machine

/-- The two words that the spec itself writes out, and HALT. -/
theorem word_control :
    decodeDioth 0x01E2_9400_0000_0040 0 = .ins (.s (si .ADD 5 5 0 64 none)) 1 ∧
    decodeDioth 0x1920_001F_FFFF_FFFD 0 = .ins (.s { si .BR 0 0 0 (-3) none with guard := 1 }) 1 ∧
    decodeDioth 0x1FE0_0000_0000_0000 0 = .ins (.s (si .HALT 0 0 0 0 none)) 1 := by decide

theorem word_scalar_wide :
    decodeDioth 0xF031_90A0_C000_0000 0x8000_0000_0000_0001 =
      .ins (.s { si .AND 3 4 5 0 (some 0x8000_0000_0000_0001) with guard := 1, neg := true }) 2 := by decide

theorem word_memory :
    decodeDioth 0x28E7_8800_0000_0040 0 = .ins (.s (si .LDT 15 2 0 64 none)) 1 ∧
    decodeDioth 0x27E0_7BBF_FFFF_FFF8 0 = .ins (.s (si .ST8 0 30 29 (-8) none)) 1 ∧ decodeDioth 0x27EF_FBBF_FFFF_FFF8 0 = .illegal 2 1 ∧
    decodeDioth 0x30E1_2003_0000_0000 0 = .ins (.t (ti .COPY 1 2 0 0 3 0 none)) 1 ∧
    decodeDioth 0xF1E1_0003_3100_0000 0x3C00 = .ins (.t (ti .FILL 1 0 0 0 3 0 (some 0x3C00))) 2 := by decide

theorem word_tensor :
    decodeDioth 0x40E1_2304_0000_0000 0 = .ins (.t (ti .MM 1 2 3 0 4 0 none)) 1 ∧
    decodeDioth 0x63E1_234F_0000_0000 0 = .ins (.t (ti .VFMA 1 2 3 4 15 0 none)) 1 ∧
    decodeDioth 0x67E1_2001_0000_07F8 0 = .ins (.t (ti .VSCALE 1 2 0 0 1 0x7F8 none)) 1 ∧
    decodeDioth 0x83E1_2000_0000_002C 0 = .ins (.t (ti .ENC16 1 2 0 0 0 0x2C none)) 1 ∧
    decodeDioth 0x30E1_2000_00FE_0000 0 = .ins (.t (ti .COPY 1 2 0 0 0 0xFE0000 none)) 1 ∧ decodeDioth 0x30E1_2000_007E_0000 0 = .illegal 2 1 := by decide

theorem word_units :
    decodeDioth 0xF1E1_2000_9100_0000 7 = .ins (.t (ti .SDROP 1 2 0 0 0 0 (some 7))) 2 ∧ decodeDioth 0x91E1_2000_0000_0000 0 = .illegal 1 1 ∧
    decodeDioth 0xF1E1_2006_A000_0000 5 = .ins (.t (ti .RPUT 1 2 0 0 6 0 (some 5))) 2 ∧
    decodeDioth 0xB0E1_2307_0000_03FF 0 = .ins (.t (ti .UPDATE 1 2 3 0 7 1023 none)) 1 := by decide

theorem word_synchronisation :
    decodeDioth 0xC0E0_0000_0000_FFFF 0 = .ins (.s (si .WAIT 0 0 0 0xFFFF none)) 1 ∧
    decodeDioth 0xC8E3_0000_0000_0005 0 = .ins (.s (si .STEST 6 0 0 5 none)) 1 ∧
    decodeDioth 0xF1E0_0002_D100_1234 9 = .ins (.t (ti .CFGWR 0 0 0 0 2 0x1234 (some 9))) 2 := by decide

theorem word_illegal :
    decodeDioth 0xF2E0_0000_0000_0000 0 = .illegal 1 2 ∧ decodeDioth 0x1CE0_0000_0000_0000 0 = .illegal 1 1 ∧ decodeDioth 0xE0E0_0000_0000_0000 0 = .illegal 1 1 ∧
    decodeDioth 0x0FE0_0000_0000_0000 0 = .ins (.s (si .SYSV 0 0 0 0 none)) 1 := by decide

/-- A first word and the one after it meet the premises of the round trip. -/
theorem witness_DiothRoundTrip :
    (si .ADD 5 5 0 64 none).wf = true ∧ (ti .FILL 1 0 0 0 3 0 (some 0x3C00)).wf = true ∧ decodeDioth 0x01E2_9400_0000_0040 0 = .ins (.s (si .ADD 5 5 0 64 none)) 1 ∧
    decodeDioth 0xF1E1_0003_3100_0000 0x3C00 = .ins (.t (ti .FILL 1 0 0 0 3 0 (some 0x3C00))) 2 := by decide

/-! ### One step each -/

namespace Sys2Proof.Machine

/-- Register `n` of tile 0 after one step that runs `i` with g5 = `v` and g6 = `w` before it. -/
def after (i : Instr) (v w : Word) (n : Nat) : Option Word :=
  match step { st (running ((withG 5 v).setGr 6 w)) with pending := [i] } with
  | .next t => some ((t.core.tile 0).gr n)
  | _ => none

/-- Where tile 0 stands after that step. -/
def pcAfter (i : Instr) (v w : Word) : Option Nat :=
  match step { st (running ((withG 5 v).setGr 6 w)) with pending := [i] } with
  | .next t => some (t.core.tile 0).pc
  | _ => none

/-- Predicate `n` of tile 0 after that step. -/
def predAfter (i : Instr) (v w : Word) (n : Nat) : Option Bool :=
  match step { st (running ((withG 5 v).setGr 6 w)) with pending := [i] } with
  | .next t => some ((t.core.tile 0).pr n)
  | _ => none

end Sys2Proof.Machine

theorem test_reset_pending : State.reset.pending = [] := by decide
theorem test_add_wraps : after (.add (sx 4 5 6 1)) (-1) 5 4 = some 5 := by decide
theorem test_sub_source_is_destination : after (.sub (sx 5 5 6 0)) 3 5 5 = some (-2) := by decide
theorem test_g0_discards : after (.add (sx 0 5 6 0)) 3 5 0 = some 0 := by decide
theorem test_mul_low : after (.mul (sx 4 5 6 0)) 0x8000000000000001 2 4 = some 2 := by decide
theorem test_divu_by_zero : after (.divu (sx 4 5 6 0)) 7 0 4 = some (-1) := by decide
theorem test_remu_by_zero : after (.remu (sx 4 5 6 0)) 7 0 4 = some 7 := by decide
theorem test_divu_unsigned : after (.divu (sx 4 5 6 0)) (-1) 2 4 = some 0x7FFFFFFFFFFFFFFF := by decide
theorem test_shl_by_64_is_by_0 : after (.shl (sx 4 5 6 0)) 3 64 4 = some 3 := by decide
theorem test_sar_fills_sign : after (.sar (sx 4 5 6 0)) (-8) 1 4 = some (-4) := by decide
theorem test_shr_fills_zero : after (.shr (sx 4 5 6 0)) (-8) 63 4 = some 1 := by decide
theorem test_mins_signed : after (.mins (sx 4 5 6 0)) (-1) 1 4 = some (-1) := by decide
theorem test_maxs_signed : after (.maxs (sx 4 5 6 0)) (-1) 1 4 = some 1 := by decide
theorem test_imm_sign_extends : after (.or (sx 4 5 0 0x1FFFFFFFFF)) 0 0 4 = some (-1) := by decide
theorem test_cmpltu : predAfter (.cmpltu (sx 2 5 6 0)) 1 (-1) 2 = some true := by decide
theorem test_cmplt : predAfter (.cmplt (sx 2 5 6 0)) 1 (-1) 2 = some false := by decide
theorem test_bri : pcAfter (.bri (sx 0 5 0 8)) 0x100 0 = some 0x108 := by decide
theorem test_call_links : after (.call (sx 1 0 0 4)) 0 0 1 = some 8 ∧ pcAfter (.call (sx 1 0 0 4)) 0 0 = some 32 := by decide
theorem test_add_advances : pcAfter (.add (sx 4 5 6 0)) 0 0 = some 8 ∧ pcAfter (.add { sx 4 5 6 0 with wide := some 1 }) 0 0 = some 16 := by decide
theorem test_never : after (.add { sx 5 5 6 0 with neg := true }) 3 5 5 = some 3 ∧ pcAfter (.add { sx 5 5 6 0 with neg := true }) 3 5 = some 8 := by decide

/-- CRC-32 of the digits 1 to 9, the check value of the Ethernet CRC. -/
theorem test_crc32 : crc32 (leBytes 9 0x393837363534333231) = 0xCBF43926 := by decide
end

section
/-! PROOFS. Threads and bits; the register map: every row's fields lie in its register and share no bit, what the masks hold, and what a
register shows. -/

namespace Sys2Proof

/-- What a function keeps on the inputs of a thread, the thread keeps. -/
theorem threadAll_inv_mem {α β : Type} {P : α → Prop} {f : α → β → α} {l : List β} (h : ∀ a, ∀ b ∈ l, P a → P (f a b)) (a : α)
    (ha : P a) : P (threadAll f a l) := by
  induction l generalizing a with
  | nil => exact ha
  | cons b r ih =>
    exact ih (fun a c hc => h a c (List.mem_cons_of_mem _ hc)) _ (h a b List.mem_cons_self ha)

/-- What one step of a thread brings about, and every step keeps, stands at its end; `P` holds all along. -/
theorem threadAll_reach {α β : Type} {P Q : α → Prop} {f : α → β → α} {l : List β}
    (hP : ∀ a, ∀ b ∈ l, P a → P (f a b)) (hQ : ∀ a, ∀ b ∈ l, P a → Q a → Q (f a b))
    {x : β} (hx : x ∈ l) (hfx : ∀ a, P a → Q (f a x)) (a : α) (ha : P a) : Q (threadAll f a l) := by
  induction l generalizing a with
  | nil => cases hx
  | cons b r ih =>
    have hPr := fun a c (hc : c ∈ r) => hP a c (List.mem_cons_of_mem _ hc)
    have hQr := fun a c (hc : c ∈ r) => hQ a c (List.mem_cons_of_mem _ hc)
    have hb := hP a b List.mem_cons_self ha
    rcases List.mem_cons.mp hx with rfl | hr
    · exact (threadAll_inv_mem (P := fun a => P a ∧ Q a) (fun a c hc h => ⟨hPr a c hc h.1, hQr a c hc h.1 h.2⟩) _ ⟨hb, hfx a ha⟩).2
    · exact ih hPr hQr hr _ hb

/-- Taking from a number the bits it shares with another clears those bits. -/
theorem testBit_sub_and (n m b : Nat) : (n - (n &&& m)).testBit b = (n.testBit b && !m.testBit b) := by
  have hle : n &&& m ≤ n := Nat.and_le_left
  have hlow : (n &&& m) % 2 = (n % 2) &&& (m % 2) := Nat.and_mod_two_pow (n := 1)
  induction b generalizing n m with
  | zero =>
    simp only [Nat.testBit_zero]
    rcases Nat.mod_two_eq_zero_or_one n with hn | hn <;> rcases Nat.mod_two_eq_zero_or_one m with hm | hm <;>
      simp only [hn, hm, Nat.reduceAnd, Nat.zero_and] at hlow <;> simp [hn, hm] <;> omega
  | succ b ih =>
    have hlow_le : (n &&& m) % 2 ≤ n % 2 := hlow ▸ Nat.and_le_left
    have hhalf : (n - (n &&& m)) / 2 = n / 2 - (n / 2 &&& m / 2) := by
      rw [← Nat.and_div_two]
      omega
    rw [Nat.testBit_succ, hhalf, ih _ _ Nat.and_le_left (Nat.and_mod_two_pow (n := 1)), Nat.testBit_succ, Nat.testBit_succ]

theorem bits_and_of_testBit {n m hi lo : Nat} (h : ∀ b, lo ≤ b → b ≤ hi → m.testBit b = true) :
    bits (n &&& m) hi lo = bits n hi lo := by
  apply Nat.eq_of_testBit_eq
  intro j
  rw [testBit_bits, testBit_bits]
  by_cases hj : j < hi + 1 - lo
  · simp [h (lo + j) (by omega) (by omega)]
  · simp [hj]

namespace Machine

/-! ### Rows -/

/-- The fields of a row are fields of its register, lie in 64 bits and share no bit. -/
def RegRow.tidy (row : RegRow) : Bool :=
  row.fields.all (fun f => f.reg == row.reg && f.ok) && decide (row.fields.Pairwise (fun f g => f.hi < g.lo ∨ g.hi < f.lo))

/-- A row with an RC field has no word of another home, and its read draws nothing. -/
def RegRow.rcPlain (row : RegRow) : Bool :=
  !row.fields.any (fun f => f.access == .RC) ||
    (derived.all (fun d => d.1.base != row.reg.base) && row.reg.base != Regs.FAB_LANE_MON.base && row.reg.base != Regs.FAB_TX_TS_TAG.base)

theorem Regs.all_tidy : Regs.all.all RegRow.tidy = true := by decide +kernel

theorem Regs.all_rcPlain : Regs.all.all RegRow.rcPlain = true := by decide +kernel

theorem RegRow.fld_of_tidy {row : RegRow} (h : row.tidy = true) {f : Fld} (hf : f ∈ row.fields) : f.reg = row.reg ∧ f.ok = true := by
  simp only [RegRow.tidy, Bool.and_eq_true, List.all_eq_true, beq_iff_eq] at h
  exact h.1 f hf

theorem RegRow.disjoint_of_tidy {row : RegRow} (h : row.tidy = true) {f g : Fld} (hf : f ∈ row.fields) (hg : g ∈ row.fields)
    (hne : f ≠ g) : f.hi < g.lo ∨ g.hi < f.lo := by
  simp only [RegRow.tidy, Bool.and_eq_true, decide_eq_true_eq] at h
  have : Std.Symm (fun f g : Fld => f.hi < g.lo ∨ g.hi < f.lo) := ⟨fun _ _ => Or.symm⟩
  exact h.2.forall hf hg hne

theorem Fld.lt_of_ok {f : Fld} (h : f.ok = true) : f.lo ≤ f.hi ∧ f.hi < 64 := by
  simpa [Fld.ok] using h

theorem mem_all_of_findReg {off i : Nat} {row : RegRow} (h : findReg off = some (row, i)) : row ∈ Regs.all := by
  obtain ⟨r, hr, hi⟩ := List.exists_of_findSome?_eq_some h
  obtain ⟨j, -, he⟩ := Option.map_eq_some_iff.mp hi
  exact (Prod.mk.inj he).1 ▸ hr

/-- A place that is a register is a row of the register map. -/
theorem Core.mem_all_of_regPlace {c : Core} {fn off i : Nat} {row : RegRow} (h : c.regPlace fn off = .reg row i) : row ∈ Regs.all := by
  unfold Core.regPlace at h
  split at h
  · cases h
  split at h
  · split at h <;> cases h
  split at h
  · cases h
  split at h
  next r j hf => cases h; exact mem_all_of_findReg hf
  next => cases h

theorem Core.tidy_of_regPlace {c : Core} {fn off i : Nat} {row : RegRow} (h : c.regPlace fn off = .reg row i) : row.tidy = true :=
  List.all_eq_true.mp Regs.all_tidy row (Core.mem_all_of_regPlace h)

/-- The word of a register with an RC field is its own, and its read draws none. -/
theorem Core.rcPlain_of_regPlace {c : Core} {fn off i : Nat} {row : RegRow} (h : c.regPlace fn off = .reg row i) {f : Fld}
    (hf : f ∈ row.fields) (hrc : f.access = .RC) :
    (∀ d ∈ derived, d.1.base ≠ row.reg.base) ∧ row.reg.base ≠ Regs.FAB_LANE_MON.base ∧ row.reg.base ≠ Regs.FAB_TX_TS_TAG.base := by
  have hp := List.all_eq_true.mp Regs.all_rcPlain row (Core.mem_all_of_regPlace h)
  have hany : row.fields.any (fun f => f.access == .RC) = true := List.any_eq_true.mpr ⟨f, hf, by simp [hrc]⟩
  simp only [RegRow.rcPlain, hany, Bool.not_true, Bool.false_or, Bool.and_eq_true, List.all_eq_true, bne_iff_ne] at hp
  exact ⟨hp.1.1, hp.1.2, hp.2⟩

/-! ### Masks -/

theorem testBit_foldl_or (l : List Nat) (a b : Nat) : (l.foldl (· ||| ·) a).testBit b = (a.testBit b || l.any (·.testBit b)) := by
  induction l generalizing a with
  | nil => simp
  | cons x r ih => simp [ih, Bool.or_assoc]

/-- A mask holds the bits of the fields of its access types. -/
theorem RegRow.testBit_mask (row : RegRow) (accs : List Access) (b : Nat) :
    (row.mask accs).testBit b = true ↔ ∃ f ∈ row.fields, f.access ∈ accs ∧ f.lo ≤ b ∧ b ≤ f.hi := by
  have hfld : ∀ f : Fld, ((2 ^ (f.hi + 1 - f.lo) - 1) * 2 ^ f.lo).testBit b = true ↔ f.lo ≤ b ∧ b ≤ f.hi := by
    intro f
    rw [Nat.testBit_mul_two_pow, Nat.testBit_two_pow_sub_one]
    simp only [Bool.and_eq_true, decide_eq_true_eq]
    omega
  simp only [RegRow.mask, testBit_foldl_or, Nat.zero_testBit, Bool.false_or, List.any_map, List.any_eq_true, Function.comp,
    hfld, List.mem_filter, List.contains_iff_mem, and_assoc]

/-- No bit is in two masks that share no access type. -/
theorem RegRow.testBit_mask_disjoint {row : RegRow} (h : row.tidy = true) {as bs : List Access} (hd : ∀ a ∈ as, a ∉ bs) {b : Nat}
    (ha : (row.mask as).testBit b = true) : (row.mask bs).testBit b = false := by
  by_contra hb
  obtain ⟨f, hf, hfa, hfl, hfh⟩ := (row.testBit_mask as b).mp ha
  obtain ⟨g, hg, hgb, hgl, hgh⟩ := (row.testBit_mask bs b).mp (by simpa using hb)
  have hne : f ≠ g := fun e => hd _ hfa (e ▸ hgb)
  have := RegRow.disjoint_of_tidy h hf hg hne
  omega

theorem RegRow.testBit_mask_mono (row : RegRow) {as bs : List Access} (h : ∀ a ∈ as, a ∈ bs) {b : Nat}
    (ha : (row.mask as).testBit b = true) : (row.mask bs).testBit b = true := by
  obtain ⟨f, hf, hfa, hb⟩ := (row.testBit_mask as b).mp ha
  exact (row.testBit_mask bs b).mpr ⟨f, hf, h _ hfa, hb⟩

/-! ### The word that a register shows -/

section
variable {s : State} {row : RegRow} {i : Nat}

theorem derived_find?_none (h : ∀ d ∈ derived, d.1.base ≠ row.reg.base) : derived.find? (fun d => d.1.base == row.reg.base) = none := by
  simpa using h

theorem State.shown_lt (hd : derived.find? (fun d => d.1.base == row.reg.base) = none) : s.shown row i < 2 ^ 64 := by
  rw [State.shown, hd]
  exact lt_of_le_of_lt Nat.and_le_left (s.core.rd_lt _ _)

/-- A register whose word is its own shows its readable bits. -/
theorem State.testBit_shown (hd : derived.find? (fun d => d.1.base == row.reg.base) = none) {b : Nat}
    (hb : row.readable.testBit b = true) : (s.shown row i).testBit b = (s.core.rd row.reg i).testBit b := by
  rw [State.shown, hd]
  dsimp only
  split
  · rw [Nat.and_two_pow_sub_one_of_lt_two_pow (s.core.rd_lt _ _)]
  · simp [hb]

/-- A readable field reads from the word shown as from the register. -/
theorem State.bits_shown (ht : row.tidy = true) (hd : derived.find? (fun d => d.1.base == row.reg.base) = none) {f : Fld}
    (hf : f ∈ row.fields) (ha : f.access ∈ [Access.RO, .RW, .W1C, .RC, .RWL]) : bits (s.shown row i) f.hi f.lo = s.core.rf f i := by
  rw [Core.rf, (RegRow.fld_of_tidy ht hf).1]
  apply Nat.eq_of_testBit_eq
  intro j
  rw [testBit_bits, testBit_bits]
  by_cases hj : j < f.hi + 1 - f.lo
  · rw [State.testBit_shown hd ((row.testBit_mask _ _).mpr ⟨f, hf, ha, by omega, by omega⟩)]
  · simp [hj]

end

end Machine

end Sys2Proof
end

section
/-! PROOFS. Reads of registers: the fields that a read clears, what each kind of read answers, O22 and O23. -/

namespace Sys2Proof.Machine

/-! ### Fields cleared by a read -/

/-- An RC field that a read covers takes the increment of the read's tick (R13). -/
theorem Core.rf_clearRc (c : Core) {row : RegRow} (ht : row.tidy = true) {f : Fld} (hf : f ∈ row.fields) (hrc : f.access = .RC)
    (i inc : Nat) : (c.clearRc row i 0 1 inc).rf f i = min inc f.top := by
  obtain ⟨-, hok⟩ := RegRow.fld_of_tidy ht hf
  have hlt := Fld.lt_of_ok hok
  have hset : ∀ d : Core, (d.wf f i (min inc f.top)).rf f i = min inc f.top := by
    intro d
    have hpos := Nat.two_pow_pos (f.hi + 1 - f.lo)
    rw [d.rf_wf_same f i _ hok, Nat.mod_eq_of_lt]
    unfold Fld.top
    omega
  refine threadAll_reach (f := fun d (g : Fld) => d.wf g i (min inc g.top)) (P := fun _ => True)
    (Q := fun d => d.rf f i = min inc f.top) (x := f) (fun _ _ _ _ => trivial) (fun d g hg _ hd => ?_) ?_ (fun d _ => hset d) c trivial
  · have hgm := (List.mem_filter.mp hg).1
    by_cases hgf : g = f
    · subst hgf; exact hset d
    · obtain ⟨hreg, hgok⟩ := RegRow.fld_of_tidy ht hgm
      rw [d.rf_wf_beside i _ hgok ((RegRow.fld_of_tidy ht hf).1.trans hreg.symm) (RegRow.disjoint_of_tidy ht hf hgm (Ne.symm hgf))]
      exact hd
  · simp only [List.mem_filter, hf, hrc, Bool.and_eq_true, decide_eq_true_eq, true_and]
    refine ⟨⟨by simp, by omega⟩, by omega⟩

/-- Clearing RC fields writes registers alone. -/
@[simp] theorem Core.clearRc_others (c : Core) (row : RegRow) (i lo hi inc : Nat) : (c.clearRc row i lo hi inc).others = c.others :=
  threadAll_view Core.others (fun d f => d.wf_others f i (min inc f.top)) _ _

/-- Without RC fields a read clears nothing. -/
theorem Core.clearRc_of_mask (c : Core) {row : RegRow} (ht : row.tidy = true) (h : row.mask [.RC] = 0) (i lo hi inc : Nat) :
    c.clearRc row i lo hi inc = c := by
  have hnone : row.fields.filter (fun f => f.access == .RC && decide (32 * lo ≤ f.lo) && decide (f.hi < 32 * (hi + 1))) = [] := by
    refine List.filter_eq_nil_iff.mpr (fun f hf hrc => ?_)
    simp only [Bool.and_eq_true, beq_iff_eq] at hrc
    have hle := (Fld.lt_of_ok (RegRow.fld_of_tidy ht hf).2).1
    have := (row.testBit_mask [.RC] f.lo).mpr ⟨f, hf, by simp [hrc.1.1], le_refl _, hle⟩
    simp [h] at this
  rw [Core.clearRc, hnone, threadAll]

/-! ### Reads, case by case (R552, R674, R678) -/

theorem aligned_four {off : Nat} (h : off % 4 = 0) : aligned off 4 = true := by simp [aligned, h]

theorem aligned_eight {off : Nat} (h : off % 8 = 0) : aligned off 8 = true := by simp [aligned, h]

section
variable {s : State} {fn off n inc : Nat}

theorem State.read_off (ha : s.core.answers = true) (hf : s.core.fnOn fn = false) : s.read fn off n inc = .next (s.answer .unsupported) := by
  simp [State.read, ha, hf]

theorem State.read_unaligned (ha : s.core.answers = true) (hf : s.core.fnOn fn = true) (hn : aligned off n = false) :
    s.read fn off n inc = .next (s.answer (.data 0)) := by
  simp [State.read, ha, hf, hn]

theorem State.read_nothing (ha : s.core.answers = true) (hf : s.core.fnOn fn = true) (hp : s.core.regPlace fn (off / 8 * 8) = .nothing) :
    s.read fn off n inc = .next (s.answer (.data 0)) := by
  cases hn : aligned off n
  · exact State.read_unaligned ha hf hn
  · simp [State.read, ha, hf, hn, hp]

theorem State.read_reg {row : RegRow} {i : Nat} (ha : s.core.answers = true) (hf : s.core.fnOn fn = true) (hn : aligned off n = true)
    (hp : s.core.regPlace fn (off / 8 * 8) = .reg row i) : s.read fn off n inc = .next (s.readReg fn row i n (off % 8 / 4) inc) := by
  simp [State.read, ha, hf, hn, hp]

end

section
variable {s : State} {row : RegRow} {fn i inc : Nat}

theorem State.drawn_of_ne (hl : row.reg.base ≠ Regs.FAB_LANE_MON.base) (ht : row.reg.base ≠ Regs.FAB_TX_TS_TAG.base) :
    s.drawn row i = (s.shown row i, s) := by
  rw [State.drawn, if_neg hl, if_neg ht]

/-- The read of a register other than LOG_DATA takes its RC fields and nothing else. -/
theorem State.readEffect_of_derived (hd : derived.find? (fun d => d.1.base == row.reg.base) = none) (lo hi : Nat) :
    s.readEffect row i lo hi inc = { s with core := s.core.clearRc row i lo hi inc } := by
  refine if_neg (fun e => ?_)
  rw [e] at hd
  revert hd
  decide

theorem State.readReg_eight (hl : row.reg.base ≠ Regs.FAB_LANE_MON.base) (ht : row.reg.base ≠ Regs.FAB_TX_TS_TAG.base)
    (hd : derived.find? (fun d => d.1.base == row.reg.base) = none) (upper : Nat) :
    s.readReg fn row i 8 upper inc =
      { s with core := { s.core.clearRc row i 0 1 inc with resp := .data (BitVec.ofNat 64 (s.shown row i)) } } := by
  simp [State.readReg, State.drawn_of_ne hl ht, State.readEffect_of_derived hd, State.answer]

/-- The lower word of a wide counter: the upper one goes to the function's hold (R674). -/
theorem State.readReg_lower (hl : row.reg.base ≠ Regs.FAB_LANE_MON.base) (ht : row.reg.base ≠ Regs.FAB_TX_TS_TAG.base)
    (hd : derived.find? (fun d => d.1.base == row.reg.base) = none) (hs : row.spans = true) :
    s.readReg fn row i 4 0 inc =
      { s with core := { s.core.clearRc row i 0 1 inc with
          hold := (s.core.clearRc row i 0 1 inc).hold.put (fun _ => 0) fn (BitVec.ofNat 64 (bits (s.shown row i) 63 32))
          resp := .data (BitVec.ofNat 64 (bits (s.shown row i) 31 0)) } } := by
  simp [State.readReg, State.drawn_of_ne hl ht, State.readEffect_of_derived hd, State.answer, hs]

theorem State.readReg_upper (hs : row.spans = true) :
    s.readReg fn row i 4 1 inc = s.answer (.data (BitVec.ofNat 64 (s.core.holdOf fn))) := by
  simp [State.readReg, hs]

end

/-- An 8-byte read of a register with an RC field: the word before the read's tick is the answer, and the RC fields take the increment. -/
theorem exec_rcRead_eight {fn : FnId} {off : BitVec 32} {inc : Word} {s : State} {row : RegRow} {i : Nat} (ha : s.core.answers = true)
    (hf : s.core.fnOn fn.val = true) (h8 : off.toNat % 8 = 0) (hp : s.core.regPlace fn.val (off.toNat / 8 * 8) = .reg row i)
    (hl : row.reg.base ≠ Regs.FAB_LANE_MON.base) (ht : row.reg.base ≠ Regs.FAB_TX_TS_TAG.base)
    (hd : derived.find? (fun d => d.1.base == row.reg.base) = none) :
    exec (.rcRead fn off 8 inc) s =
      .next { s with core := { s.core.clearRc row i 0 1 inc.toNat with resp := .data (BitVec.ofNat 64 (s.shown row i)) } } := by
  rw [show exec (.rcRead fn off 8 inc) s = s.read fn.val off.toNat 8 inc.toNat from rfl, State.read_reg ha hf (aligned_eight h8) hp,
    State.readReg_eight hl ht hd]

/-- Settles O22: the fields of a row share no bit, so each RC field takes the increment whatever the order of the clears. -/
theorem readClear : Obligations.ReadClear := by
  intro fn off inc s row i f ha hfn h8 hp hf hrc
  have hal : off.toNat / 8 * 8 = off.toNat := by omega
  have ht := Core.tidy_of_regPlace hp
  obtain ⟨hder, hl, htag⟩ := Core.rcPlain_of_regPlace hp hf hrc
  have hd := derived_find?_none hder
  refine ⟨_, _, exec_rcRead_eight ha hfn h8 (by rw [hal]; exact hp) hl htag hd, rfl, ?_, ?_⟩
  · rw [BitVec.toNat_ofNat, Nat.mod_eq_of_lt (State.shown_lt hd), State.bits_shown ht hd hf (by simp [hrc])]
  · exact Core.rf_clearRc s.core ht hf hrc i inc.toNat

/-- A 4-byte read of the lower word of a wide counter. -/
theorem exec_rcLowerWordRead {fn : FnId} {off : BitVec 32} {inc : Word} {s : State} {row : RegRow} {i : Nat} (ha : s.core.answers = true)
    (hf : s.core.fnOn fn.val = true) (hp : s.core.regPlace fn.val (off.toNat / 8 * 8) = .reg row i)
    (hl : row.reg.base ≠ Regs.FAB_LANE_MON.base) (ht : row.reg.base ≠ Regs.FAB_TX_TS_TAG.base)
    (hd : derived.find? (fun d => d.1.base == row.reg.base) = none) (hs : row.spans = true) :
    exec (.rcLowerWordRead fn off inc) s =
      .next { s with core := { s.core.clearRc row i 0 1 inc.toNat with
          hold := (s.core.clearRc row i 0 1 inc.toNat).hold.put (fun _ => 0) fn.val (BitVec.ofNat 64 (bits (s.shown row i) 63 32))
          resp := .data (BitVec.ofNat 64 (bits (s.shown row i) 31 0)) } } := by
  have hal : aligned (off.toNat / 8 * 8) 4 = true := aligned_four (by omega)
  have hp' : s.core.regPlace fn.val (off.toNat / 8 * 8 / 8 * 8) = .reg row i := by rw [Nat.mul_div_cancel _ (by decide)]; exact hp
  rw [show exec (.rcLowerWordRead fn off inc) s = s.read fn.val (off.toNat / 8 * 8) 4 inc.toNat from rfl, State.read_reg ha hf hal hp',
    show off.toNat / 8 * 8 % 8 / 4 = 0 by omega, State.readReg_lower hl ht hd hs]

/-- Settles O23, one clause for each kind of place. -/
theorem reads : Obligations.Reads := by
  intro fn off inc s ha
  refine ⟨fun row i f hfn hp hs hf hrc => ⟨?_, fun h4 => ?_⟩, fun row i hfn hp h8 hm hd hl htag hsize => ?_, fun hfn hp n => ?_,
    fun hfn n hn => ?_, fun hfn n => ?_⟩
  · obtain ⟨hder, hl, htag⟩ := Core.rcPlain_of_regPlace hp hf hrc
    refine ⟨_, exec_rcLowerWordRead ha hfn hp hl htag (derived_find?_none hder) hs, rfl, ?_, ?_, rfl, ?_⟩
    · have hlt : bits (s.shown row i) 63 32 < 2 ^ 32 := bits_lt _ 63 32
      simp only [Core.holdOf, SMap.get_put_same, BitVec.toNat_ofNat]
      omega
    · exact Core.rf_clearRc s.core (Core.tidy_of_regPlace hp) hf hrc i inc.toNat
    · rw [← Core.clearRc_others s.core row i 0 1 inc.toNat]
      rfl
  · have hal : aligned off.toNat 4 = true := aligned_four (by omega)
    rw [show exec (.rcRead fn off 4 inc) s = s.read fn.val off.toNat 4 inc.toNat from rfl, State.read_reg ha hfn hal hp,
      show off.toNat % 8 / 4 = 1 by omega, State.readReg_upper hs]
  · rw [exec_rcRead_eight ha hfn h8 hp hl htag hd, Core.clearRc_of_mask s.core (Core.tidy_of_regPlace hp) hm]
    simp [State.answer, State.shown, hd, hsize]
  · exact State.read_nothing ha hfn hp
  · exact State.read_unaligned ha hfn hn
  · exact State.read_off ha hfn

end Sys2Proof.Machine
end

section
/-! PROOFS. Register writes: the word that a write stores bit by bit (R9, R11), and the registers without rules of their own. -/

namespace Sys2Proof.Machine

/-! ### The word written -/

/-- Bits outside the mask are those that the register shows. -/
theorem RegRow.testBit_merge (row : RegRow) (cur w mask b : Nat) :
    (row.merge cur w mask).testBit b =
      if mask.testBit b then w.testBit b else cur.testBit b && (row.mask [.RW, .RWL]).testBit b := by
  simp only [RegRow.merge, Nat.testBit_or, testBit_sub_and, Nat.testBit_and]
  cases mask.testBit b <;> simp

/-- A written word bit by bit (R11). -/
theorem RegRow.testBit_stored {row : RegRow} (h : row.tidy = true) (old v b : Nat) :
    (row.stored old v false).testBit b =
      if (row.mask [.RW, .RWL]).testBit b then v.testBit b
      else if (row.mask [.W1C]).testBit b then old.testBit b && !v.testBit b
      else old.testBit b := by
  simp only [RegRow.stored, Bool.false_eq_true, if_false, testBit_sub_and, Nat.testBit_or, Nat.testBit_and]
  by_cases hrw : (row.mask [.RW, .RWL]).testBit b = true
  · have hw1c := RegRow.testBit_mask_disjoint h (bs := [.W1C]) (by decide) hrw
    simp [hrw, hw1c]
  · cases hw1c : (row.mask [.W1C]).testBit b <;> simp [hrw]

/-- The bits that a write of the merged word leaves in a register whose word is its own. -/
theorem State.testBit_stored_merge {s : State} {row : RegRow} {i : Nat} (h : row.tidy = true)
    (hd : derived.find? (fun d => d.1.base == row.reg.base) = none) (w mask b : Nat) :
    (row.stored (s.core.rd row.reg i) (row.merge (s.shown row i) w mask) false).testBit b =
      if mask.testBit b ∧ (row.mask [.RW, .RWL]).testBit b then w.testBit b
      else if mask.testBit b ∧ (row.mask [.W1C]).testBit b then (s.core.rd row.reg i).testBit b && !w.testBit b
      else (s.core.rd row.reg i).testBit b := by
  rw [RegRow.testBit_stored h, RegRow.testBit_merge]
  by_cases hrw : (row.mask [.RW, .RWL]).testBit b = true
  · have hshown := State.testBit_shown (s := s) (i := i) hd (row.testBit_mask_mono (bs := [.RO, .RW, .W1C, .RC, .RWL]) (by decide) hrw)
    have hw1c := RegRow.testBit_mask_disjoint h (bs := [.W1C]) (by decide) hrw
    cases mask.testBit b <;> simp [hrw, hw1c, hshown]
  · cases mask.testBit b <;> simp [hrw]

/-! ### Registers without rules of their own -/

/-- Registers that a rule, a command or a transaction of their own covers. -/
def ownRuled : List Reg :=
  devOnlyRegs ++ devRegs ++ partRegs ++
  [Regs.DEV_STATUS, Regs.EVT_Q_CTRL, Regs.EVT_Q_HEAD, Regs.EVT_TS_CTRL, Regs.EVT_TS_STEP, Regs.SEC_KEYID_MAP, Regs.FW_P_MOTION, Regs.HIF_SQ_CFG,
   Regs.HIF_CQ_CFG, Regs.PART_STATUS, Regs.TILE_BANK_CFG, Regs.SLOW_DIR_DATA, Regs.FAB_PORT_CTRL, Regs.FAB_RAW_RX_SIZE, Regs.FAB_RAW_TX_SIZE,
   Regs.FAB_RAW_TX_TAIL, Regs.RMA_GRANT_CFG, Regs.SEC_TAMPER_STATUS, Regs.SEC_TAMPER_CFG, Regs.FW_FW_CFG, Regs.TILE_STASH_SPILL_BASE,
   Regs.TILE_STASH_SPILL_PAGES, Regs.DEV_TSTATE_CMD, Regs.DEV_SPARE_CLEAR, Regs.SEC_EPOCH_CMD, Regs.SEC_KEY_CMD, Regs.SEC_LC_CMD, Regs.FW_FW_CMD,
   Regs.TILE_BANK_SWAP_REQ, Regs.FAB_SNAP, Regs.FAB_OE_SPARE_REQ, Regs.MEM_RETIRE_REQ, Regs.RMA_QP_CMD, Regs.RMA_REGION_INVAL, Regs.COL_PROBE_CMD,
   Regs.COL_GROUP_CMD, Regs.CFG_TXN_CMD, Regs.CFG_P_TXN_CMD, Regs.HIF_P_CANCEL, Regs.DEV_TILE_RESET, Regs.DEV_RESET_CMD, Regs.DEV_HELD_CLEAR,
   Regs.SLOW_SSD_CTRL, Regs.PWR_CAP, Regs.PWR_TAG_SLOT, Regs.PWR_HERD_PWR, Regs.PWR_SAVE_CMD]

theorem RegRow.txnKind_none {row : RegRow} (h : row.txnKind = .none) :
    hasBase devOnlyRegs row.reg.base = false ∧ hasBase devRegs row.reg.base = false ∧ hasBase partRegs row.reg.base = false := by
  simp only [RegRow.txnKind] at h
  split at h
  · cases h
  split at h
  · cases h
  split at h
  · cases h
  simp_all

/-- A plain register is in no transaction, in neither the PWR nor the UPD block, holds its own word and has no rule of its own. -/
theorem RegRow.plain_parts {row : RegRow} (h : row.plain = true) :
    row.txnKind = .none ∧ ¬(0x40000 ≤ row.reg.base ∧ row.reg.base < 0x60000) ∧ ¬(0x900100 ≤ row.reg.base ∧ row.reg.base < 0x901000) ∧
      derived.find? (fun d => d.1.base == row.reg.base) = none ∧ ∀ r ∈ ownRuled, row.reg.base ≠ r.base := by
  simp only [RegRow.plain, Bool.and_eq_true, Bool.not_eq_true', beq_iff_eq, decide_eq_false_iff_not] at h
  obtain ⟨⟨⟨⟨⟨hk, -⟩, hpwr⟩, hupd⟩, hlist⟩, hder⟩ := h
  obtain ⟨hdevOnly, hdev, hpart⟩ := RegRow.txnKind_none hk
  refine ⟨hk, hpwr, hupd, ?_, ?_⟩
  · simpa using hder
  · intro r hr e
    rw [e] at hpwr hlist hdevOnly hdev hpart
    clear e hk hupd hder row
    revert hpwr hlist hdevOnly hdev hpart
    revert hr
    revert r
    decide

theorem hasBase_eq_false {rs : List Reg} {b : Nat} (h : ∀ r ∈ rs, b ≠ r.base) : hasBase rs b = false := by
  simpa [hasBase] using fun r hr e => h r hr e.symm

/-- No rule judges a plain register. -/
theorem Core.judge_plain {row : RegRow} (h : row.plain = true) (c d : Core) (sealed_ : Bool) (creates : List Nat) (i v : Nat) :
    c.judge d sealed_ creates row i v = none := by
  obtain ⟨-, hpwr, hupd, -, hne⟩ := RegRow.plain_parts h
  have hslow := hasBase_eq_false (rs := slowRegs) (fun r hr => hne r (by simp [ownRuled, partRegs, hr]))
  have hrma := hasBase_eq_false (rs := rmaRegs) (fun r hr => hne r (by simp [ownRuled, partRegs, hr]))
  have hcol := hasBase_eq_false (rs := colRegs) (fun r hr => hne r (by simp [ownRuled, partRegs, hr]))
  simp (disch := decide) only [Core.judge, hslow, hrma, hcol, hpwr, hupd, hne, if_false, or_false, Bool.false_eq_true]

/-- A write of a plain register stores its word. -/
theorem State.act_plain {row : RegRow} (h : row.plain = true) (s : State) (i v : Nat) :
    s.act row i v = { s with core := s.core.storeReg row i v } := by
  obtain ⟨-, -, -, -, hne⟩ := RegRow.plain_parts h
  simp (disch := decide) only [State.act, Core.act, hne, if_false, or_false]

/-! ### The access -/

/-- The bits of a register that a write of n bytes at an offset covers. -/
def writeMask (off n : Nat) : Nat := if n = 8 then 2 ^ 64 - 1 else (2 ^ 32 - 1) * 2 ^ (32 * (off % 8 / 4))

/-- The word written, in its place in the register. -/
def writeWord (off n w : Nat) : Nat := if n = 8 then w else w % 2 ^ 32 * 2 ^ (32 * (off % 8 / 4))

theorem testBit_writeMask (off n : Nat) {b : Nat} (hb : b < 64) :
    (writeMask off n).testBit b = true ↔ n = 8 ∨ off % 8 / 4 = b / 32 := by
  by_cases hn : n = 8
  · simp only [writeMask, hn, if_true, Nat.testBit_two_pow_sub_one, hb, decide_true, true_or]
  · simp only [writeMask, hn, if_false, Nat.testBit_mul_two_pow, Nat.testBit_two_pow_sub_one, Bool.and_eq_true, decide_eq_true_eq, false_or]
    omega

theorem testBit_writeWord (off n : Nat) (w : Word) {b : Nat} (hm : n = 8 ∨ off % 8 / 4 = b / 32) :
    (writeWord off n w.toNat).testBit b = if n = 8 then w.getLsbD b else w.getLsbD (b % 32) := by
  by_cases hn : n = 8
  · simp only [writeWord, hn, if_true, BitVec.testBit_toNat]
  · have hhi : off % 8 / 4 = b / 32 := hm.resolve_left hn
    have hle : 32 * (b / 32) ≤ b := by omega
    have hlow : b - 32 * (b / 32) = b % 32 := by omega
    simp only [writeWord, hn, if_false, hhi, Nat.testBit_mul_two_pow, hle, hlow, Nat.testBit_mod_two_pow, BitVec.testBit_toNat]
    simp [Nat.mod_lt]

section
variable {s : State} {fn off n w set : Nat}

theorem State.write_unaligned (hn : aligned off n = false) : s.write fn off n w set = .next s := by
  simp [State.write, hn]

theorem State.write_nothing (hp : s.core.regPlace fn (off / 8 * 8) = .nothing) : s.write fn off n w set = .next s := by
  simp [State.write, hp]

theorem State.write_reg {row : RegRow} {i : Nat} (ha : s.core.answers = true) (hf : s.core.fnOn fn = true) (hn : aligned off n = true)
    (hp : s.core.regPlace fn (off / 8 * 8) = .reg row i) (hs : set ≠ 0) :
    s.write fn off n w set =
      .next ((s.writeReg fn (off / 8 * 8) row i (writeWord off n w) (writeMask off n)).hardwareSets row i set) := by
  simp [State.write, ha, hf, hn, hp, hs, writeWord, writeMask]

theorem State.write_reg_quiet {row : RegRow} {i : Nat} (ha : s.core.answers = true) (hf : s.core.fnOn fn = true)
    (hn : aligned off n = true) (hp : s.core.regPlace fn (off / 8 * 8) = .reg row i) :
    s.write fn off n w 0 = .next (s.writeReg fn (off / 8 * 8) row i (writeWord off n w) (writeMask off n)) := by
  simp [State.write, ha, hf, hn, hp, writeWord, writeMask]

theorem State.writeReg_refused {row : RegRow} {i mask : Nat} (h : s.core.writes fn off row = false) :
    s.writeReg fn off row i w mask = s := by
  simp [State.writeReg, h]

end

/-- A write of a register without rules of its own stores the merged word. -/
theorem State.writeReg_plain {s : State} {row : RegRow} {fn off i w mask : Nat} (h : row.plain = true)
    (hw : s.core.writes fn off row = true) (hm : row.writable &&& mask ≠ 0) :
    s.writeReg fn off row i w mask = { s with core := s.core.storeReg row i (row.merge (s.shown row i) w mask) } := by
  obtain ⟨hk, -, -, -, hne⟩ := RegRow.plain_parts h
  have hdev := hne Regs.CFG_TXN_CMD (by decide)
  have hpart := hne Regs.CFG_P_TXN_CMD (by decide)
  have htake : s.core.takes fn off row = none := by simp [Core.takes, hk]
  simp [State.writeReg, hw, hm, hdev, hpart, htake, hk, State.writeNow, Core.judge_plain h, State.act_plain h]

theorem Core.onlyRegs_refl (c : Core) (ok : Nat → Prop) : c.onlyRegs c ok := ⟨rfl, rfl, rfl, rfl, rfl, fun _ _ _ => rfl⟩

theorem Core.onlyRegs_wr (c : Core) (r : Reg) (i v : Nat) : c.onlyRegs (c.wr r i v) (fun k => k = r.at i) :=
  ⟨rfl, rfl, rfl, rfl, rfl, fun _ _ h => c.rd_wr_other v h⟩

/-- A write of a plain register changes that register alone, and there the bits of the mask as their access types say. -/
theorem State.writeReg_plain_bits {s : State} {row : RegRow} {fn off i : Nat} (w mask : Nat) (ht : row.tidy = true) (h : row.plain = true)
    (hw : s.core.writes fn off row = true) :
    ∃ c, s.writeReg fn off row i w mask = { s with core := c } ∧ s.core.onlyRegs c (fun k => k = row.reg.at i) ∧
      ∀ b, b < 64 → (c.rd row.reg i).testBit b =
        if mask.testBit b ∧ (row.mask [.RW, .RWL]).testBit b then w.testBit b
        else if mask.testBit b ∧ (row.mask [.W1C]).testBit b then (s.core.rd row.reg i).testBit b && !w.testBit b
        else (s.core.rd row.reg i).testBit b := by
  by_cases hm : row.writable &&& mask = 0
  · have hout : ∀ as : List Access, (∀ a ∈ as, a ∈ [Access.RW, .RWL, .W1C, .WO]) → ∀ b, ¬(mask.testBit b ∧ (row.mask as).testBit b) := by
      rintro as has b ⟨hmask, hrow⟩
      have hbit := congrArg (fun x => x.testBit b) hm
      simp [RegRow.writable, hmask, row.testBit_mask_mono has hrow] at hbit
    refine ⟨s.core, ?_, s.core.onlyRegs_refl _, fun b _ => ?_⟩
    · simp [State.writeReg, hm]
    · rw [if_neg (hout _ (by decide) b), if_neg (hout _ (by decide) b)]
  · obtain ⟨-, -, -, hd, -⟩ := RegRow.plain_parts h
    refine ⟨_, State.writeReg_plain h hw hm, s.core.onlyRegs_wr _ _ _, fun b hb => ?_⟩
    rw [Core.storeReg, Core.rd_wr_same, Nat.testBit_mod_two_pow, State.testBit_stored_merge ht hd]
    simp [hb]

/-- Settles O25: the merged word stores the bits of the mask and leaves the others. -/
theorem plainWrites : Obligations.PlainWrites := by
  intro fn off n w s ha hf
  refine ⟨fun row i hn hp hplain hw => ?_, fun row i hp hw => ?_, fun hp => State.write_nothing hp, fun hn => State.write_unaligned hn⟩
  · obtain ⟨c, hc, honly, hbits⟩ := State.writeReg_plain_bits (i := i) (writeWord off.toNat n.val w.toNat) (writeMask off.toNat n.val)
      (Core.tidy_of_regPlace hp) hplain hw
    refine ⟨{ s with core := c }, ?_, rfl, rfl, honly, fun b hb => ?_⟩
    · rw [← hc]
      exact State.write_reg_quiet ha hf hn hp
    · have hmask := testBit_writeMask off.toNat n.val hb
      rw [hbits b hb]
      by_cases hm : n.val = 8 ∨ off.toNat % 8 / 4 = b / 32
      · simp only [hmask.mpr hm, hm, testBit_writeWord _ _ w hm, true_and]
      · simp only [hmask, hm, false_and, if_false]
  · cases hn : aligned off.toNat n.val
    · exact State.write_unaligned hn
    · exact (State.write_reg_quiet ha hf hn hp).trans (congrArg _ (State.writeReg_refused hw))

/-- A W1C bit that hardware sets reads set. -/
theorem State.testBit_hardwareSets (s : State) {row : RegRow} (ht : row.tidy = true) {f : Fld} (hf : f ∈ row.fields)
    (hw1c : f.access = .W1C) (i : Nat) {set b : Nat} (hlo : f.lo ≤ b) (hhi : b ≤ f.hi) (hset : set.testBit b = true) :
    ((s.hardwareSets row i set).core.rd row.reg i).testBit b = true := by
  have hb : b < 64 := lt_of_le_of_lt hhi (Fld.lt_of_ok (RegRow.fld_of_tidy ht hf).2).2
  have hmask := (row.testBit_mask [.W1C] b).mpr ⟨f, hf, by simp [hw1c], hlo, hhi⟩
  simp only [State.hardwareSets, Core.rd_wr_same, Nat.testBit_mod_two_pow, Nat.testBit_or, Nat.testBit_and]
  simp [hb, hmask, hset]

/-- Settles O26: hardware's bits are set after the write, whatever it did. -/
theorem w1cRace : Obligations.W1cRace := by
  intro fn off w set s row i f b ha hfn h8 hp hf hw1c hlo hhi _ hset
  have hoff : off.toNat / 8 * 8 = off.toNat := by omega
  have hal : aligned off.toNat 8 = true := aligned_eight h8
  have hbit : set.toNat.testBit b = true := hset
  have hne : set.toNat ≠ 0 := fun e => by simp [e] at hbit
  exact ⟨_, State.write_reg ha hfn hal (by rw [hoff]; exact hp) hne,
    State.testBit_hardwareSets _ (Core.tidy_of_regPlace hp) hf hw1c i hlo hhi hbit⟩

end Sys2Proof.Machine
end

section
/-! PROOFS. The state after reset (R577, R618). -/

namespace Sys2Proof.Machine

/-- After reset a register that fits in a word reads its reset value. -/
theorem State.reset_rd (r : Reg) (i : Nat) (h : r.reset < 2 ^ 64) : State.reset.core.rd r i = r.reset :=
  (BitVec.toNat_ofNat r.reset 64).trans (Nat.mod_eq_of_lt h)

theorem State.reset_tile (t : Nat) : State.reset.core.tile t = {} := rfl

theorem State.reset_part (p : Nat) : State.reset.core.part p = {} := rfl

theorem State.reset_pstate (p : Nat) : State.reset.core.pstate p = pFREE := by
  rw [Core.pstate, Core.rf, State.reset_rd _ _ (by decide)]
  decide

/-- Settles O58, field by field: the state after reset has every field at its default. -/
theorem resetValues : Obligations.ResetValues := by
  refine ⟨rfl, rfl, rfl, rfl, rfl, rfl, rfl, rfl, rfl, fun r j h => State.reset_rd r j h, fun p _ => ⟨State.reset_pstate p, State.reset_part p⟩,
    ?_, rfl, rfl, fun t _ => ?_, fun l _ => rfl, State.reset_memWf, by decide⟩
  · rw [Core.flag, Core.rf, State.reset_rd _ _ (by decide)]
    decide
  · rw [State.reset_tile]
    exact ⟨rfl, fun n => by simp [Tile.gr, SMap.get], fun k => rfl⟩

end Sys2Proof.Machine
end

section
/-! PROOFS. Bytes of a tensor in scratchpads whose banks are on: a write puts its bytes and leaves every other byte. -/

namespace Sys2Proof

/-! ### Little-endian bytes -/

theorem length_leBytes (n v : Nat) : (leBytes n v).length = n := by
  induction n generalizing v with
  | zero => rfl
  | succ n ih => simp [leBytes, ih]

/-- The bytes of a number hold it modulo their width. -/
theorem leNat_leBytes (n v : Nat) : leNat (leBytes n v) = v % 2 ^ (8 * n) := by
  induction n generalizing v with
  | zero => simp [leBytes, leNat, Nat.mod_one]
  | succ n ih =>
    have hpow : 2 ^ (8 * (n + 1)) = 256 * 2 ^ (8 * n) := by rw [Nat.mul_add, Nat.pow_add]; omega
    rw [leBytes, leNat, ih, hpow, Nat.mod_mul]
    simp

theorem upFrom_succ (a n : Nat) : upFrom a (n + 1) = a :: upFrom (a + 1) n := by
  simp only [upFrom, List.range_succ_eq_map, List.map_cons, List.map_map, Nat.add_zero]
  congr 1
  exact List.map_congr_left (fun k _ => by simp; omega)

namespace Machine

/-! ### Keys of scratchpad bytes -/

theorem Core.physBank_le (c : Core) (t : Nat) {b : Nat} (hb : b < 24) : c.physBank t b ≤ 24 := by
  unfold Core.physBank
  split <;> omega

/-- Two logical banks of a tile have two physical banks (R328). -/
theorem Core.physBank_inj (c : Core) (t : Nat) {b b' : Nat} (hb : b < 24) (hb' : b' < 24) (h : c.physBank t b = c.physBank t b') : b = b' := by
  unfold Core.physBank at h
  split at h
  next hs =>
    split at h
    next hs' =>
      simp only [Bool.and_eq_true, beq_iff_eq] at hs hs'
      exact hs.2.symm.trans hs'.2
    next => omega
  next =>
    split at h <;> omega

/-- Two bytes of the scratchpads have two keys. -/
theorem Core.scratchKey_inj (c : Core) {t o t' o' : Nat} (ho : o < 0x300000) (ho' : o' < 0x300000)
    (h : c.scratchKey t o = c.scratchKey t' o') : t = t' ∧ o = o' := by
  have hb : o / bankBytes < 24 := Nat.div_lt_of_lt_mul ho
  have hb' : o' / bankBytes < 24 := Nat.div_lt_of_lt_mul ho'
  have hk := c.physBank_le t hb
  have hk' := c.physBank_le t' hb'
  have hm : o % bankBytes < 131072 := Nat.mod_lt _ (by decide)
  have hm' : o' % bankBytes < 131072 := Nat.mod_lt _ (by decide)
  simp only [Core.scratchKey, bankKey, show bankBytes = 131072 from rfl] at h hk hk' hm hm' hb hb'
  have ht : t = t' := by omega
  subst ht
  have hbank := c.physBank_inj t hb hb' (by omega)
  exact ⟨rfl, by omega⟩

/-! ### Devices that differ in scratchpad contents -/

/-- `b` is `c` with other scratchpad contents and another count of free values. -/
def Core.storesAs (c b : Core) : Prop := ∃ m f, b = { c with scratch := m, free := f }

theorem Core.storesAs_refl (c : Core) : c.storesAs c := ⟨c.scratch, c.free, rfl⟩

theorem Core.storesAs.place {c b : Core} (h : c.storesAs b) (p l addr o : Nat) : b.place p l addr o = c.place p l addr o := by
  obtain ⟨m, f, rfl⟩ := h
  rfl

theorem Core.storesAs.bankState {c b : Core} (h : c.storesAs b) (t k : Nat) : b.bankState t k = c.bankState t k := by
  obtain ⟨m, f, rfl⟩ := h
  rfl

/-- A store in a bank that is on wakes nothing. -/
theorem Core.writePlace_scratch (c : Core) (v : Byte) {t o : Nat} (hoff : c.bankState t (o / bankBytes) ≠ bkOFF)
    (hret : c.bankState t (o / bankBytes) ≠ bkRETAIN) :
    c.writePlace v (.scratch t o) = { c with scratch := c.scratch.put zeroByte (c.scratchKey t o) v } := by
  have hwake : c.wakeRange t o 1 = c := by
    simp [Core.wakeRange, upFrom, threadAll, Core.wakeBank, hoff, hret]
  simp [Core.writePlace, Core.writeScratch, hwake, upFrom, threadAll]

section
variable {c b : Core} {p l n : Nat} {d : Desc}

/-- The byte of a plain tensor at a displacement. -/
theorem Core.plain.byte (h : c.plain p l d n) {a : Nat} (ha : a < n) :
    ∃ t o, c.place p l d.addr a = .scratch t o ∧ t < 272 ∧ o < 0x300000 ∧ c.bankState t (o / bankBytes) ≠ bkOFF ∧
      c.bankState t (o / bankBytes) ≠ bkRETAIN := h.1 a ha

theorem Core.plain.writePlace_storesAs (h : c.plain p l d n) (hb : c.storesAs b) {a : Nat} (ha : a < n) (v : Byte) :
    c.storesAs (b.writePlace v (c.place p l d.addr a)) := by
  obtain ⟨t, o, hpl, -, -, hoff, hret⟩ := h.byte ha
  rw [hpl, b.writePlace_scratch v (by rwa [hb.bankState]) (by rwa [hb.bankState])]
  obtain ⟨m, f, rfl⟩ := hb
  exact ⟨_, _, rfl⟩

/-- The byte written is read. -/
theorem Core.plain.readPlace_writePlace_same (h : c.plain p l d n) (hb : c.storesAs b) {a : Nat} (ha : a < n) (v : Byte) :
    (b.writePlace v (c.place p l d.addr a)).readPlace (c.place p l d.addr a) = v := by
  obtain ⟨t, o, hpl, -, -, hoff, hret⟩ := h.byte ha
  rw [hpl, b.writePlace_scratch v (by rwa [hb.bankState]) (by rwa [hb.bankState])]
  exact SMap.get_put_same _ _ _ _

/-- Every other scratchpad byte reads as before. -/
theorem Core.plain.readPlace_writePlace_other (h : c.plain p l d n) (hb : c.storesAs b) {a : Nat} (ha : a < n) (v : Byte) {t o : Nat}
    (ho : o < 0x300000) (hne : c.place p l d.addr a ≠ .scratch t o) :
    (b.writePlace v (c.place p l d.addr a)).readPlace (.scratch t o) = b.readPlace (.scratch t o) := by
  obtain ⟨t', o', hpl, -, ho', hoff, hret⟩ := h.byte ha
  rw [hpl] at hne
  rw [hpl, b.writePlace_scratch v (by rwa [hb.bankState]) (by rwa [hb.bankState])]
  refine SMap.get_put_other _ _ _ (fun e => hne ?_)
  obtain ⟨rfl, rfl⟩ := b.scratchKey_inj ho ho' e
  rfl

/-! ### Runs of bytes -/

theorem Core.storesAs.writeAt_cons (hb : c.storesAs b) (off : Nat) (x : Byte) (r : List Byte) :
    b.writeAt p l d.addr off (x :: r) = (b.writePlace x (c.place p l d.addr off)).writeAt p l d.addr (off + 1) r := by
  simp [Core.writeAt, upFrom_succ, threadAll, hb.place]

theorem Core.plain.writeAt_storesAs (h : c.plain p l d n) (hb : c.storesAs b) {off : Nat} {bs : List Byte} (hn : off + bs.length ≤ n) :
    c.storesAs (b.writeAt p l d.addr off bs) := by
  induction bs generalizing b off with
  | nil => exact hb
  | cons x r ih =>
    rw [List.length_cons] at hn
    rw [hb.writeAt_cons]
    exact ih (h.writePlace_storesAs hb (by omega) x) (by omega)

/-- A run of bytes leaves the bytes beside it. -/
theorem Core.plain.readPlace_writeAt_other (h : c.plain p l d n) (hb : c.storesAs b) {off : Nat} {bs : List Byte} (hn : off + bs.length ≤ n)
    {t o : Nat} (ho : o < 0x300000) (hne : ∀ a, off ≤ a → a < off + bs.length → c.place p l d.addr a ≠ .scratch t o) :
    (b.writeAt p l d.addr off bs).readPlace (.scratch t o) = b.readPlace (.scratch t o) := by
  induction bs generalizing b off with
  | nil => rfl
  | cons x r ih =>
    rw [List.length_cons] at hn hne
    rw [hb.writeAt_cons, ih (h.writePlace_storesAs hb (by omega) x) (by omega) (fun a h1 h2 => hne a (by omega) (by omega)),
      h.readPlace_writePlace_other hb (by omega) x ho (hne off (le_refl _) (by omega))]

theorem Core.plain.readPlace_writeAt_beside (h : c.plain p l d n) (hb : c.storesAs b) {off a : Nat} {bs : List Byte}
    (hn : off + bs.length ≤ n) (ha : a < n) (hd : a < off ∨ off + bs.length ≤ a) :
    (b.writeAt p l d.addr off bs).readPlace (c.place p l d.addr a) = b.readPlace (c.place p l d.addr a) := by
  obtain ⟨t, o, hpl, -, ho, -⟩ := h.byte ha
  rw [hpl]
  refine h.readPlace_writeAt_other hb hn ho (fun a' h1 h2 e => ?_)
  have := h.2 a' a (by omega) ha (e.trans hpl.symm)
  omega

theorem Core.storesAs.readAt_succ (hb : c.storesAs b) (off k : Nat) :
    b.readAt p l d.addr off (k + 1) = b.readPlace (c.place p l d.addr off) :: b.readAt p l d.addr (off + 1) k := by
  simp [Core.readAt, upFrom_succ, hb.place]

/-- The run written is read. -/
theorem Core.plain.readAt_writeAt_same (h : c.plain p l d n) (hb : c.storesAs b) {off : Nat} {bs : List Byte} (hn : off + bs.length ≤ n) :
    (b.writeAt p l d.addr off bs).readAt p l d.addr off bs.length = bs := by
  induction bs generalizing b off with
  | nil => rfl
  | cons x r ih =>
    have hall := h.writeAt_storesAs hb hn
    rw [List.length_cons] at hn
    have hx := h.writePlace_storesAs hb (show off < n by omega) x
    rw [List.length_cons, hall.readAt_succ, hb.writeAt_cons, ih hx (by omega),
      h.readPlace_writeAt_beside hx (by omega) (by omega) (by omega), h.readPlace_writePlace_same hb (by omega)]

/-- A run apart from the one written reads as before. -/
theorem Core.plain.readAt_writeAt_beside (h : c.plain p l d n) (hb : c.storesAs b) {off off' k : Nat} {bs : List Byte}
    (hn : off + bs.length ≤ n) (hk : off' + k ≤ n) (hd : off' + k ≤ off ∨ off + bs.length ≤ off') :
    (b.writeAt p l d.addr off bs).readAt p l d.addr off' k = b.readAt p l d.addr off' k := by
  have hall := h.writeAt_storesAs hb hn
  refine List.map_congr_left (fun a ha => ?_)
  have hr : off' ≤ a ∧ a < off' + k := by
    simp only [upFrom, List.mem_map, List.mem_range] at ha
    omega
  rw [hall.place, hb.place, h.readPlace_writeAt_beside hb hn (by omega) (by omega)]

end

end Machine

end Sys2Proof
end

section
/-! PROOFS. Where the elements of an FP16 or FP32 tensor lie: within its span, at multiples of the element size, and at offsets of their
own where none may collide (R149, R150). -/

namespace Sys2Proof

theorem le_foldl_max {l : List Nat} {a x : Nat} (h : x ≤ a ∨ x ∈ l) : x ≤ l.foldl max a := by
  induction l generalizing a with
  | nil => simpa using h
  | cons y r ih =>
    refine ih ?_
    rcases h with h | h
    · exact .inl (le_trans h (le_max_left _ _))
    · rcases List.mem_cons.mp h with rfl | h
      · exact .inl (le_max_right _ _)
      · exact .inr h

theorem le_alignUp (a : Nat) {b : Nat} (hb : 0 < b) : a ≤ alignUp a b := by
  have h := Nat.div_add_mod (a + b - 1) b
  have hm := Nat.mod_lt (a + b - 1) hb
  rw [alignUp, ceilDiv, if_neg (by omega), Nat.mul_comm]
  omega

theorem alignUp_zero (b : Nat) : alignUp 0 b = 0 := by
  by_cases hb : b = 0
  · simp [alignUp, ceilDiv, hb]
  · rw [alignUp, ceilDiv, if_neg hb, Nat.div_eq_of_lt (by omega), Nat.zero_mul]

/-- A number below a base and a multiple of the base are known from their sum. -/
theorem digit_unique {S x x' j j' : Nat} (hx : x < S) (hx' : x' < S) (h : x + S * j = x' + S * j') : x = x' ∧ j = j' := by
  have hm := congrArg (· % S) h
  simp only [Nat.add_mul_mod_self_left, Nat.mod_eq_of_lt hx, Nat.mod_eq_of_lt hx'] at hm
  subst hm
  exact ⟨rfl, Nat.eq_of_mul_eq_mul_left (by omega) (Nat.add_left_cancel h)⟩

namespace Machine

/-! ### Sizes -/

theorem Desc.isFP_sizes {d : Desc} (h : d.isFP = true) : (d.esize = 2 ∧ d.squareW = 32) ∨ (d.esize = 4 ∧ d.squareW = 16) := by
  simp only [Desc.isFP, Bool.or_eq_true, beq_iff_eq] at h
  rcases h with h | h
  · exact .inl ⟨by simp [Desc.esize, Desc.ffmt, h, FFmt.bytes], by simp [Desc.squareW, h]⟩
  · exact .inr ⟨by simp [Desc.esize, Desc.ffmt, h, FFmt.bytes], by simp [Desc.squareW, h]⟩

/-- The displacement of the element at an index. -/
def Desc.offAt (d : Desc) (i : Nat × Nat × Nat × Nat) : Nat := d.elemOff i.1 i.2.1 i.2.2.1 i.2.2.2

/-- The displacement of a position within its plane of a blocked tensor (R150). -/
def Desc.planeOff (d : Desc) (i0 i1 : Nat) : Nat := 2048 * (i1 / 32 * d.sq + i0 / d.squareW) + 64 * (i1 % 32) + d.esize * (i0 % d.squareW)

theorem Desc.offAt_blocked {d : Desc} (h : d.blocked = true) (i0 i1 i2 i3 : Nat) :
    d.offAt (i0, i1, i2, i3) = d.planeOff i0 i1 + 16 * (d.s2 * i2 + d.s3 * i3) := by
  simp [Desc.offAt, Desc.elemOff, Desc.planeOff, h]

theorem Desc.offAt_linear {d : Desc} (h : d.blocked = false) (i0 i1 i2 i3 : Nat) :
    d.offAt (i0, i1, i2, i3) = d.esize * i0 + 16 * (d.s1 * i1 + d.s2 * i2 + d.s3 * i3) := by
  simp [Desc.offAt, Desc.elemOff, h]

/-- Elements stand at multiples of their size. -/
theorem Desc.offAt_mod {d : Desc} (h : d.isFP = true) (i : Nat × Nat × Nat × Nat) : d.offAt i % d.esize = 0 := by
  obtain ⟨i0, i1, i2, i3⟩ := i
  cases hb : d.blocked
  · rw [Desc.offAt_linear hb]
    rcases Desc.isFP_sizes h with ⟨he, -⟩ | ⟨he, -⟩ <;> rw [he] <;> omega
  · rw [Desc.offAt_blocked hb, Desc.planeOff]
    rcases Desc.isFP_sizes h with ⟨he, -⟩ | ⟨he, -⟩ <;> rw [he] <;> omega

/-- Two elements stand at one displacement or apart. -/
theorem Desc.offAt_apart {d : Desc} (h : d.isFP = true) {i j : Nat × Nat × Nat × Nat} (hne : d.offAt i ≠ d.offAt j) :
    d.offAt i + d.esize ≤ d.offAt j ∨ d.offAt j + d.esize ≤ d.offAt i := by
  have hi := Desc.offAt_mod h i
  have hj := Desc.offAt_mod h j
  rcases Desc.isFP_sizes h with ⟨he, -⟩ | ⟨he, -⟩ <;> rw [he] at hi hj ⊢ <;> omega

/-! ### The span -/

theorem Desc.mem_indices {d : Desc} {i0 i1 i2 i3 : Nat} :
    (i0, i1, i2, i3) ∈ d.indices ↔ i0 < d.e0 ∧ i1 < d.e1 ∧ i2 < d.e2 ∧ i3 < d.e3 := by
  simp only [Desc.indices, List.mem_flatMap, List.mem_map, List.mem_range, Prod.mk.injEq]
  constructor
  · rintro ⟨a, ha, b, hb, c, hc, e, he, rfl, rfl, rfl, rfl⟩
    exact ⟨he, hc, hb, ha⟩
  · rintro ⟨h0, h1, h2, h3⟩
    exact ⟨i3, h3, i2, h2, i1, h1, i0, h0, rfl, rfl, rfl, rfl⟩

/-- Every run of a tensor with elements ends within the span. -/
theorem Desc.run_le_span {d : Desc} (hl : d.len = none) (he : d.empty = false) {r : Nat × Nat} (hr : r ∈ d.runs) : r.1 + r.2 ≤ d.span := by
  simp only [Desc.span, hl, he, Bool.false_eq_true, if_false]
  exact le_foldl_max (.inr (List.mem_map.mpr ⟨r, hr, rfl⟩))

theorem Desc.empty_eq_false {d : Desc} (h0 : 0 < d.e0) (h1 : 0 < d.e1) (h2 : 0 < d.e2) (h3 : 0 < d.e3) : d.empty = false := by
  have : 0 < d.e0 * d.e1 * d.e2 * d.e3 := by positivity
  simp only [Desc.empty, Desc.count, beq_eq_false_iff_ne]
  omega

theorem Desc.isBlock_eq_false {d : Desc} (h : d.isFP = true) : d.isBlock = false := by
  simp only [Desc.isFP, Bool.or_eq_true, beq_iff_eq] at h
  rcases h with h | h <;> simp [Desc.isBlock, h]

/-- A position within a square lies in the square's 2,048 bytes. -/
theorem Desc.squareOff_lt {d : Desc} (h : d.isFP = true) (i0 i1 : Nat) :
    64 * (i1 % 32) + d.esize * (i0 % d.squareW) + d.esize ≤ 2048 := by
  rcases Desc.isFP_sizes h with ⟨he, hw⟩ | ⟨he, hw⟩ <;> rw [he, hw] <;> omega

theorem Desc.squareW_pos {d : Desc} (hfp : d.isFP = true) : 0 < d.squareW := by
  rcases Desc.isFP_sizes hfp with ⟨-, hw⟩ | ⟨-, hw⟩ <;> omega

theorem Desc.esize_pos {d : Desc} (hfp : d.isFP = true) : 0 < d.esize := by
  rcases Desc.isFP_sizes hfp with ⟨he, -⟩ | ⟨he, -⟩ <;> omega

/-- A column, padding included, stands in one of the squares of its square-row. -/
theorem Desc.col_lt_sq {d : Desc} {i0 : Nat} (h0 : i0 < alignUp d.e0 d.squareW) : i0 / d.squareW < d.sq :=
  Nat.div_lt_of_lt_mul (by rw [Nat.mul_comm]; exact h0)

/-- A position of a plane, padding included, lies within the squares of the plane. -/
theorem Desc.planeOff_le_plane {d : Desc} (hfp : d.isFP = true) {i0 i1 : Nat} (h0 : i0 < alignUp d.e0 d.squareW)
    (h1 : i1 < alignUp d.e1 32) : d.planeOff i0 i1 + d.esize ≤ 2048 * d.sq * ceilDiv d.e1 32 := by
  have hcol := Desc.col_lt_sq h0
  have hrow : i1 / 32 < ceilDiv d.e1 32 := Nat.div_lt_of_lt_mul (by rw [Nat.mul_comm]; exact h1)
  have hsq : i1 / 32 * d.sq + i0 / d.squareW + 1 ≤ d.sq * ceilDiv d.e1 32 :=
    calc i1 / 32 * d.sq + i0 / d.squareW + 1 ≤ i1 / 32 * d.sq + d.sq := by omega
      _ = d.sq * (i1 / 32 + 1) := by ring
      _ ≤ _ := Nat.mul_le_mul_left _ hrow
  have hin := Desc.squareOff_lt hfp i0 i1
  rw [Desc.planeOff, Nat.mul_assoc]
  omega

/-- A position of a blocked tensor, padding included, lies in its span. -/
theorem Desc.offAt_blocked_le_span {d : Desc} (hfp : d.isFP = true) (hl : d.len = none) (hb : d.blocked = true) {i0 i1 i2 i3 : Nat}
    (h0 : i0 < alignUp d.e0 d.squareW) (h1 : i1 < alignUp d.e1 32) (h2 : i2 < d.e2) (h3 : i3 < d.e3) :
    d.offAt (i0, i1, i2, i3) + d.esize ≤ d.span := by
  have hpos0 : 0 < d.e0 := Nat.pos_of_ne_zero (fun e => by rw [e, alignUp_zero] at h0; omega)
  have hpos1 : 0 < d.e1 := Nat.pos_of_ne_zero (fun e => by rw [e, alignUp_zero] at h1; omega)
  have hmem : (16 * (d.s2 * i2 + d.s3 * i3), 2048 * d.sq * ceilDiv d.e1 32) ∈ d.runs := by
    simp only [Desc.runs, hl, Desc.empty_eq_false hpos0 hpos1 (by omega) (by omega), Desc.isBlock_eq_false hfp, hb, Bool.false_eq_true,
      if_false, if_true, List.mem_flatMap, List.mem_map, List.mem_range]
    exact ⟨i3, h3, i2, h2, rfl⟩
  have hspan := Desc.run_le_span hl (Desc.empty_eq_false hpos0 hpos1 (by omega) (by omega)) hmem
  have hplane := Desc.planeOff_le_plane hfp h0 h1
  rw [Desc.offAt_blocked hb]
  omega

/-- Every element lies in the span. -/
theorem Desc.offAt_le_span {d : Desc} (hfp : d.isFP = true) (hl : d.len = none) {i : Nat × Nat × Nat × Nat} (hi : i ∈ d.indices) :
    d.offAt i + d.esize ≤ d.span := by
  obtain ⟨i0, i1, i2, i3⟩ := i
  obtain ⟨h0, h1, h2, h3⟩ := Desc.mem_indices.mp hi
  cases hb : d.blocked
  · have he := Desc.empty_eq_false (d := d) (by omega) (by omega) (by omega) (by omega)
    have hmem : (16 * (d.s1 * i1 + d.s2 * i2 + d.s3 * i3), d.esize * d.e0) ∈ d.runs := by
      simp only [Desc.runs, hl, he, Desc.isBlock_eq_false hfp, hb, Bool.false_eq_true, if_false, List.mem_flatMap, List.mem_map, List.mem_range]
      exact ⟨i3, h3, i2, h2, i1, h1, rfl⟩
    have hspan := Desc.run_le_span hl he hmem
    have hrow : d.esize * i0 + d.esize ≤ d.esize * d.e0 := Nat.mul_le_mul_left d.esize h0
    rw [Desc.offAt_linear hb]
    omega
  · exact Desc.offAt_blocked_le_span hfp hl hb (lt_of_lt_of_le h0 (le_alignUp _ (Desc.squareW_pos hfp)))
      (lt_of_lt_of_le h1 (le_alignUp _ (by decide))) h2 h3

/-! ### Elements that cannot collide -/

/-- One dimension of the collision rule: the bytes below it, and whether a used dimension steps less than they span. -/
def collideStep (acc : Nat × Bool) (es : Nat × Nat) : Nat × Bool :=
  if 1 < es.1 then (max acc.1 (16 * es.2 * es.1), acc.2 || decide (16 * es.2 < acc.1)) else acc

theorem Desc.mayCollide_eq (d : Desc) :
    d.mayCollide =
      if d.blocked then (collideStep (collideStep (2048 * d.sq * ceilDiv d.e1 32, false) (d.e2, d.s2)) (d.e3, d.s3)).2
      else (collideStep (collideStep (collideStep (d.esize * d.e0, false) (d.e1, d.s1)) (d.e2, d.s2)) (d.e3, d.s3)).2 := rfl

theorem collideStep_eq {acc : Nat × Bool} {e s : Nat} (h : (collideStep acc (e, s)).2 = false) :
    acc.2 = false ∧ (1 < e → acc.1 ≤ 16 * s) ∧ (collideStep acc (e, s)).1 = if 1 < e then max acc.1 (16 * s * e) else acc.1 := by
  by_cases he : 1 < e
  · simp only [collideStep, he, if_true, Bool.or_eq_false_iff, decide_eq_false_iff_not, not_lt] at h ⊢
    exact ⟨h.1, fun _ => h.2, trivial⟩
  · simp only [collideStep, he, if_false] at h ⊢
    exact ⟨h, fun h => h.elim, trivial⟩

/-- An offset below a dimension that does not collide, with an index of it, stays below the next dimension. -/
theorem collideStep_lt {acc : Nat × Bool} {e s : Nat} (h : (collideStep acc (e, s)).2 = false) {x j : Nat} (hx : x < acc.1) (hj : j < e) :
    x + 16 * s * j < (collideStep acc (e, s)).1 := by
  obtain ⟨-, hstep, htop⟩ := collideStep_eq h
  rw [htop]
  split
  next he =>
    have hle : 16 * s * j + 16 * s ≤ 16 * s * e := Nat.mul_le_mul_left (16 * s) hj
    exact lt_of_lt_of_le (by have := hstep he; omega) (le_max_right _ _)
  next he =>
    have hj0 : j = 0 := by omega
    simpa [hj0] using hx

/-- Where a dimension does not collide, an offset below it and an index of it are known from their sum. -/
theorem collideStep_unique {acc : Nat × Bool} {e s : Nat} (h : (collideStep acc (e, s)).2 = false) {x x' j j' : Nat}
    (hx : x < acc.1) (hx' : x' < acc.1) (hj : j < e) (hj' : j' < e) (heq : x + 16 * s * j = x' + 16 * s * j') : x = x' ∧ j = j' := by
  obtain ⟨-, hstep, -⟩ := collideStep_eq h
  by_cases he : 1 < e
  · exact digit_unique (lt_of_lt_of_le hx (hstep he)) (lt_of_lt_of_le hx' (hstep he)) heq
  · have hj0 : j = 0 := by omega
    have hj0' : j' = 0 := by omega
    subst hj0 hj0'
    exact ⟨by simpa using heq, rfl⟩

/-- A square of a plane and a position in it are known from their displacement (R150). -/
theorem Desc.planeOff_unique {d : Desc} (hfp : d.isFP = true) {i0 i1 i0' i1' : Nat} (h0 : i0 / d.squareW < d.sq) (h0' : i0' / d.squareW < d.sq)
    (h : d.planeOff i0 i1 = d.planeOff i0' i1') : i0 = i0' ∧ i1 = i1' := by
  simp only [Desc.planeOff] at h
  have hin := Desc.squareOff_lt hfp i0 i1
  have hin' := Desc.squareOff_lt hfp i0' i1'
  have hpos := Desc.esize_pos hfp
  obtain ⟨hpart, hsq⟩ := digit_unique (S := 2048) (x := 64 * (i1 % 32) + d.esize * (i0 % d.squareW))
    (x' := 64 * (i1' % 32) + d.esize * (i0' % d.squareW)) (j := i1 / 32 * d.sq + i0 / d.squareW)
    (j' := i1' / 32 * d.sq + i0' / d.squareW) (by omega) (by omega) (by omega)
  obtain ⟨hcol, hrow⟩ := digit_unique (S := d.sq) (x := i0 / d.squareW) (x' := i0' / d.squareW) (j := i1 / 32) (j' := i1' / 32) h0 h0'
    (by rw [Nat.mul_comm d.sq, Nat.mul_comm d.sq]; omega)
  rcases Desc.isFP_sizes hfp with ⟨he, hw⟩ | ⟨he, hw⟩ <;> rw [he, hw] at hpart <;> rw [hw] at hcol <;> omega

/-- Where no two elements may collide, an element's displacement tells its index. -/
theorem Desc.offAt_inj {d : Desc} (hfp : d.isFP = true) (hc : d.mayCollide = false) {i j : Nat × Nat × Nat × Nat} (hi : i ∈ d.indices)
    (hj : j ∈ d.indices) (h : d.offAt i = d.offAt j) : i = j := by
  obtain ⟨i0, i1, i2, i3⟩ := i
  obtain ⟨j0, j1, j2, j3⟩ := j
  obtain ⟨hi0, hi1, hi2, hi3⟩ := Desc.mem_indices.mp hi
  obtain ⟨hj0, hj1, hj2, hj3⟩ := Desc.mem_indices.mp hj
  rw [Desc.mayCollide_eq] at hc
  cases hb : d.blocked
  · rw [hb, if_neg (by decide)] at hc
    obtain ⟨hc2, -⟩ := collideStep_eq hc
    obtain ⟨hc1, -⟩ := collideStep_eq hc2
    have hpos := Desc.esize_pos hfp
    have hx : d.esize * i0 < d.esize * d.e0 := Nat.mul_lt_mul_of_pos_left hi0 hpos
    have hy : d.esize * j0 < d.esize * d.e0 := Nat.mul_lt_mul_of_pos_left hj0 hpos
    have hx1 := collideStep_lt hc1 hx hi1
    have hy1 := collideStep_lt hc1 hy hj1
    rw [Desc.offAt_linear hb, Desc.offAt_linear hb] at h
    obtain ⟨h2, rfl⟩ := collideStep_unique hc (collideStep_lt hc2 hx1 hi2) (collideStep_lt hc2 hy1 hj2) hi3 hj3 (by linarith)
    obtain ⟨h1, rfl⟩ := collideStep_unique hc2 hx1 hy1 hi2 hj2 h2
    obtain ⟨h0, rfl⟩ := collideStep_unique hc1 hx hy hi1 hj1 h1
    rw [Nat.eq_of_mul_eq_mul_left hpos h0]
  · rw [hb, if_pos rfl] at hc
    obtain ⟨hc2, -⟩ := collideStep_eq hc
    have hw := le_alignUp d.e0 (Desc.squareW_pos hfp)
    have hh := le_alignUp d.e1 (show 0 < 32 by decide)
    have hpos := Desc.esize_pos hfp
    have hx := lt_of_lt_of_le (Nat.lt_add_of_pos_right hpos) (Desc.planeOff_le_plane hfp (hi0.trans_le hw) (hi1.trans_le hh))
    have hy := lt_of_lt_of_le (Nat.lt_add_of_pos_right hpos) (Desc.planeOff_le_plane hfp (hj0.trans_le hw) (hj1.trans_le hh))
    rw [Desc.offAt_blocked hb, Desc.offAt_blocked hb] at h
    obtain ⟨h2, rfl⟩ := collideStep_unique hc (collideStep_lt hc2 hx hi2) (collideStep_lt hc2 hy hj2) hi3 hj3 (by linarith)
    obtain ⟨h1, rfl⟩ := collideStep_unique hc2 hx hy hi2 hj2 h2
    obtain ⟨rfl, rfl⟩ := Desc.planeOff_unique hfp (Desc.col_lt_sq (hi0.trans_le hw)) (Desc.col_lt_sq (hj0.trans_le hw)) h1
    rfl

end Machine

end Sys2Proof
end

section
/-! PROOFS. A tensor written reads back as the values written (R8, R149, R150, R151). -/

namespace Sys2Proof

/-- Lists whose members tell which input they come from, joined over distinct inputs, repeat nothing. -/
theorem nodup_flatMap_range {α : Type} {n : Nat} {f : Nat → List α} (hf : ∀ x, (f x).Nodup) (key : α → Nat)
    (hkey : ∀ x, ∀ z ∈ f x, key z = x) : ((List.range n).flatMap f).Nodup := by
  refine List.nodup_flatMap.mpr ⟨fun x _ => hf x, List.nodup_range.imp (fun hne z hz hz' => hne ?_)⟩
  exact (hkey _ z hz).symm.trans (hkey _ z hz')

/-- Pairs of a list without repetition with values: the first member tells the pair. -/
theorem eq_of_mem_zip {α β : Type} {l : List α} {vs : List β} (hl : l.Nodup) {e e' : α × β} (h : e ∈ l.zip vs) (h' : e' ∈ l.zip vs)
    (heq : e.1 = e'.1) : e = e' := by
  obtain ⟨k, hk, rfl⟩ := List.mem_iff_getElem.mp h
  obtain ⟨k', hk', rfl⟩ := List.mem_iff_getElem.mp h'
  simp only [List.getElem_zip] at heq ⊢
  obtain rfl := (hl.getElem_inj_iff).mp heq
  rfl

theorem exists_mem_zip {α β : Type} {l : List α} {vs : List β} (hlen : vs.length = l.length) {x : α} (hx : x ∈ l) :
    ∃ e ∈ l.zip vs, e.1 = x := by
  obtain ⟨k, hk, rfl⟩ := List.mem_iff_getElem.mp hx
  exact ⟨(l[k], vs[k]), List.mem_iff_getElem.mpr ⟨k, by simp [hlen, hk], by simp⟩, rfl⟩

namespace Machine

/-- No index of a tensor comes twice. -/
theorem Desc.nodup_indices (d : Desc) : d.indices.Nodup := by
  refine nodup_flatMap_range (fun i3 => nodup_flatMap_range (fun i2 => nodup_flatMap_range (fun i1 => ?_) (·.2.1) ?_) (·.2.2.1) ?_) (·.2.2.2) ?_
  · exact List.nodup_range.map (fun a b h => (Prod.mk.inj h).1)
  all_goals
    simp only [List.mem_flatMap, List.mem_map]
  · rintro x _ ⟨_, _, rfl⟩
    rfl
  · rintro x _ ⟨_, _, _, _, rfl⟩
    rfl
  · rintro x _ ⟨_, _, _, _, _, _, rfl⟩
    rfl

section
variable {c b : Core} {p l : Nat} {d : Desc}

/-- The element at an index, by its displacement. -/
theorem Core.elem_eq (c : Core) (p l : Nat) (d : Desc) (i : Nat × Nat × Nat × Nat) :
    c.elem p l d i.1 i.2.1 i.2.2.1 i.2.2.2 = leNat (c.readAt p l d.addr (d.offAt i) d.esize) := rfl

/-- An element written to a plain tensor. -/
def Core.putElem (c : Core) (p l : Nat) (d : Desc) (e : (Nat × Nat × Nat × Nat) × Nat) : Core :=
  c.writeAt p l d.addr (d.offAt e.1) (leBytes d.esize e.2)

theorem Core.putElems_eq (c : Core) (p l : Nat) (d : Desc) (es : List ((Nat × Nat × Nat × Nat) × Nat)) :
    c.putElems p l d es = threadAll (fun c e => c.putElem p l d e) c es := rfl

/-- Elements that lie in the span are put into scratchpad bytes alone. -/
theorem Core.plain.putElems_storesAs (h : c.plain p l d d.span) (hb : c.storesAs b) {es : List ((Nat × Nat × Nat × Nat) × Nat)}
    (hes : ∀ e ∈ es, d.offAt e.1 + d.esize ≤ d.span) : c.storesAs (b.putElems p l d es) :=
  threadAll_inv_mem (P := c.storesAs)
    (fun _ e he hb => h.writeAt_storesAs hb (by rw [length_leBytes]; exact hes e he)) b hb

/-- Bytes outside the span read as before. -/
theorem Core.plain.readPlace_putElems (h : c.plain p l d d.span) (hb : c.storesAs b) {es : List ((Nat × Nat × Nat × Nat) × Nat)}
    (hes : ∀ e ∈ es, d.offAt e.1 + d.esize ≤ d.span) {t o : Nat} (ho : o < 0x300000)
    (hout : ∀ a, a < d.span → c.place p l d.addr a ≠ .scratch t o) :
    (b.putElems p l d es).readPlace (.scratch t o) = b.readPlace (.scratch t o) := by
  refine (threadAll_inv_mem (P := fun x => c.storesAs x ∧ x.readPlace (.scratch t o) = b.readPlace (.scratch t o))
    (fun x e he hx => ?_) b ⟨hb, rfl⟩).2
  have hlen : d.offAt e.1 + (leBytes d.esize e.2).length ≤ d.span := by rw [length_leBytes]; exact hes e he
  exact ⟨h.writeAt_storesAs hx.1 hlen, (h.readPlace_writeAt_other hx.1 hlen ho (fun a _ ha => hout a (by omega))).trans hx.2⟩

/-- An element at a displacement that is written reads one of the values written there. -/
theorem Core.plain.elem_putElems (h : c.plain p l d d.span) (hfp : d.isFP = true) (hb : c.storesAs b)
    {es : List ((Nat × Nat × Nat × Nat) × Nat)} (hes : ∀ e ∈ es, d.offAt e.1 + d.esize ≤ d.span) {i : Nat × Nat × Nat × Nat}
    {e : (Nat × Nat × Nat × Nat) × Nat} (he : e ∈ es) (hoff : d.offAt e.1 = d.offAt i) :
    ∃ e ∈ es, d.offAt e.1 = d.offAt i ∧ (b.putElems p l d es).elem p l d i.1 i.2.1 i.2.2.1 i.2.2.2 = e.2 % 2 ^ (8 * d.esize) := by
  have hlen : ∀ e ∈ es, d.offAt e.1 + (leBytes d.esize e.2).length ≤ d.span := fun e he => by rw [length_leBytes]; exact hes e he
  have hput : ∀ x, ∀ e ∈ es, c.storesAs x → d.offAt e.1 = d.offAt i →
      (x.putElem p l d e).elem p l d i.1 i.2.1 i.2.2.1 i.2.2.2 = e.2 % 2 ^ (8 * d.esize) := by
    intro x e he hx hoff
    have hsame := h.readAt_writeAt_same hx (hlen e he)
    rw [length_leBytes] at hsame
    rw [Core.elem_eq, ← hoff, Core.putElem, hsame, leNat_leBytes]
  refine threadAll_reach (P := c.storesAs)
    (Q := fun x => ∃ e ∈ es, d.offAt e.1 = d.offAt i ∧ x.elem p l d i.1 i.2.1 i.2.2.1 i.2.2.2 = e.2 % 2 ^ (8 * d.esize))
    (fun x e he hx => h.writeAt_storesAs hx (hlen e he)) (fun x e' he' hx hq => ?_) he (fun x hx => ⟨e, he, hoff, hput x e he hx hoff⟩) b hb
  by_cases hoff' : d.offAt e'.1 = d.offAt i
  · exact ⟨e', he', hoff', hput x e' he' hx hoff'⟩
  · obtain ⟨e₁, he₁, hoff₁, hval⟩ := hq
    have hi : d.offAt i + d.esize ≤ d.span := hoff ▸ hes e he
    refine ⟨e₁, he₁, hoff₁, ?_⟩
    rw [← hval, Core.elem_eq, Core.elem_eq, h.readAt_writeAt_beside hx (hlen e' he') hi]
    rw [length_leBytes]
    exact (Desc.offAt_apart hfp hoff').symm

/-! ### Padding, and colliding elements -/

/-- The padding of a blocked tensor is put within its span. -/
theorem Core.zeroPadding_eq (hfp : d.isFP = true) (hl : d.len = none) (c : Core) (p l : Nat) :
    ∃ es : List ((Nat × Nat × Nat × Nat) × Nat), c.zeroPadding p l d = c.putElems p l d es ∧
      ∀ e ∈ es, d.offAt e.1 + d.esize ≤ d.span := by
  unfold Core.zeroPadding
  split
  · exact ⟨[], rfl, by simp⟩
  next hb =>
    dsimp only
    split
    · exact ⟨[], rfl, by simp⟩
    · refine ⟨_, rfl, fun e he => ?_⟩
      simp only [List.mem_map, List.mem_flatMap, List.mem_filterMap, List.mem_range, Option.ite_none_left_eq_some, Option.some.injEq] at he
      obtain ⟨_, ⟨i3, h3, i2, h2, i1, h1, i0, h0, -, rfl⟩, rfl⟩ := he
      exact Desc.offAt_blocked_le_span hfp hl (by simpa using hb) h0 h1 h2 h3

/-- Of elements at one displacement the choice takes the value of one of them for each. -/
theorem Core.mem_chooseColliding {es : List ((Nat × Nat × Nat × Nat) × Nat)} {e : (Nat × Nat × Nat × Nat) × Nat}
    (he : e ∈ (c.chooseColliding d es).1) :
    (∃ e₀ ∈ es, e.1 = e₀.1) ∧ ∃ e' ∈ es, d.offAt e'.1 = d.offAt e.1 ∧ e.2 = e'.2 := by
  simp only [Core.chooseColliding, List.mem_map] at he
  obtain ⟨e₀, he₀, rfl⟩ := he
  refine ⟨⟨e₀, he₀, rfl⟩, ?_⟩
  dsimp only
  generalize (Config.freeWord _).toNat % _ = k
  cases hk : (es.filter (fun f => d.elemOff f.1.1 f.1.2.1 f.1.2.2.1 f.1.2.2.2 == d.elemOff e₀.1.1 e₀.1.2.1 e₀.1.2.2.1 e₀.1.2.2.2))[k]? with
  | none => exact ⟨e₀, he₀, rfl, rfl⟩
  | some e' =>
    obtain ⟨hmem, hoff⟩ := List.mem_filter.mp (List.mem_of_getElem? hk)
    exact ⟨e', hmem, beq_iff_eq.mp hoff, rfl⟩

theorem Core.exists_mem_chooseColliding {es : List ((Nat × Nat × Nat × Nat) × Nat)} {e : (Nat × Nat × Nat × Nat) × Nat} (he : e ∈ es) :
    ∃ e₁ ∈ (c.chooseColliding d es).1, e₁.1 = e.1 :=
  ⟨_, List.mem_map.mpr ⟨e, he, rfl⟩, rfl⟩

/-- What is put where a whole tensor is written: values of its elements, each at its own index or at one of the same displacement, on a
device that differs in the scratchpads alone and reads outside the span as before. -/
theorem Core.plain.putTensor_eq (h : c.plain p l d d.span) (hfp : d.isFP = true) (hl : d.len = none) {vs : List Nat}
    (hlen : vs.length = d.indices.length) :
    ∃ b es, c.putTensor p l d vs = b.putElems p l d es ∧ c.storesAs b ∧ (∀ e ∈ es, d.offAt e.1 + d.esize ≤ d.span) ∧
      (∀ t o, o < 0x300000 → (∀ a, a < d.span → c.place p l d.addr a ≠ .scratch t o) →
        b.readPlace (.scratch t o) = c.readPlace (.scratch t o)) ∧
      (∀ i ∈ d.indices, ∃ e ∈ es, e.1 = i) ∧
      ∀ e ∈ es, ∃ e' ∈ d.indices.zip vs, d.offAt e'.1 = d.offAt e.1 ∧ e.2 = e'.2 := by
  obtain ⟨pads, hpads, hin⟩ := Core.zeroPadding_eq hfp hl c p l
  have hstores := h.putElems_storesAs c.storesAs_refl hin
  have hread := fun t o ho hout => h.readPlace_putElems c.storesAs_refl hin (t := t) (o := o) ho hout
  have hzip : ∀ e ∈ d.indices.zip vs, d.offAt e.1 + d.esize ≤ d.span := fun e he => Desc.offAt_le_span hfp hl (List.of_mem_zip he).1
  unfold Core.putTensor
  rw [hpads]
  cases hc : d.mayCollide
  · exact ⟨_, _, rfl, hstores, hzip, hread, fun i hi => exists_mem_zip hlen hi, fun e he => ⟨e, he, rfl, rfl⟩⟩
  · refine ⟨_, _, rfl, ?_, ?_, hread, ?_, ?_⟩
    · obtain ⟨m, f, hm⟩ := hstores
      rw [hm]
      exact ⟨_, _, rfl⟩
    · intro e he
      obtain ⟨⟨e₀, he₀, heq⟩, -⟩ := Core.mem_chooseColliding he
      rw [heq]
      exact hzip e₀ he₀
    · intro i hi
      obtain ⟨e₀, he₀, rfl⟩ := exists_mem_zip hlen hi
      exact Core.exists_mem_chooseColliding he₀
    · exact fun e he => (Core.mem_chooseColliding he).2

/-- An element of a tensor written reads a value written to an index of its displacement. -/
theorem Core.plain.elem_putTensor (h : c.plain p l d d.span) (hfp : d.isFP = true) (hl : d.len = none) {vs : List Nat}
    (hlen : vs.length = d.indices.length) {i : Nat × Nat × Nat × Nat} (hi : i ∈ d.indices) :
    ∃ e ∈ d.indices.zip vs, d.offAt e.1 = d.offAt i ∧
      (c.putTensor p l d vs).elem p l d i.1 i.2.1 i.2.2.1 i.2.2.2 = e.2 % 2 ^ (8 * d.esize) := by
  obtain ⟨b, es, heq, hb, hin, -, hall, hvals⟩ := h.putTensor_eq hfp hl hlen
  obtain ⟨e₀, he₀, rfl⟩ := hall i hi
  obtain ⟨e, he, hoff, hval⟩ := h.elem_putElems hfp hb hin he₀ rfl
  obtain ⟨e', he', hoff', hval'⟩ := hvals e he
  exact ⟨e', he', hoff'.trans hoff, by rw [heq, hval, hval']⟩

/-- Every scratchpad byte outside the span of a tensor written reads as before. -/
theorem Core.plain.readPlace_putTensor (h : c.plain p l d d.span) (hfp : d.isFP = true) (hl : d.len = none) {vs : List Nat}
    (hlen : vs.length = d.indices.length) {t o : Nat} (ho : o < 0x300000)
    (hout : ∀ a, a < d.span → c.place p l d.addr a ≠ .scratch t o) :
    (c.putTensor p l d vs).readPlace (.scratch t o) = c.readPlace (.scratch t o) := by
  obtain ⟨b, es, heq, hb, hin, hread, -⟩ := h.putTensor_eq hfp hl hlen
  rw [heq, h.readPlace_putElems hb hin ho hout, hread t o ho hout]

end

/-- Settles O14: elements stand at one displacement or apart, so the last value put at a displacement is the one read there. -/
theorem tensorReadBack : Obligations.TensorReadBack := by
  intro c p l d vs hfp _ hl hlen h
  refine ⟨fun i hi => h.elem_putTensor hfp hl hlen hi, fun hc e he => ?_, fun t o _ ho hout => h.readPlace_putTensor hfp hl hlen ho hout⟩
  have hi : e.1 ∈ d.indices := (List.of_mem_zip he).1
  obtain ⟨e', he', hoff, hval⟩ := h.elem_putTensor hfp hl hlen hi
  have hsame := eq_of_mem_zip d.nodup_indices he' he (Desc.offAt_inj hfp hc (List.of_mem_zip he').1 hi hoff)
  rw [← hsame] at hval ⊢
  exact hval

end Machine

end Sys2Proof
end

section
/-! PROOFS. The copy of a tile to its spare (R34 step 4): what the spare's scratchpad, its bank map and its sequencer read afterwards, and
what every other tile keeps. -/

namespace Sys2Proof

/-! ### Sparse arrays that a thread of insertions builds -/

namespace SMap

variable {α : Type} (d : Nat → α)

/-- Every key listed above a bound is above it. -/
theorem lt_of_sortedAbove {n : Nat} {m : SMap α} (h : sortedAbove n m = true) {e : Nat × α} (he : e ∈ m) : n < e.1 := by
  induction m generalizing n with
  | nil => cases he
  | cons x r ih =>
    simp only [sortedAbove, Bool.and_eq_true, decide_eq_true_eq] at h
    rcases List.mem_cons.mp he with rfl | hr
    · exact h.1
    · exact h.1.trans (ih h.2 hr)

/-- In a list of rising keys a listed pair is what its key reads. -/
theorem get_of_mem {m : SMap α} (h : sorted m = true) {e : Nat × α} (he : e ∈ m) : get d m e.1 = e.2 := by
  induction m with
  | nil => cases he
  | cons x r ih =>
    rcases List.mem_cons.mp he with rfl | hr
    · simp [get]
    · have hne : x.1 ≠ e.1 := (lt_of_sortedAbove h hr).ne
      simp only [get, hne, if_false]
      exact ih (sorted_of_above h) hr

/-- A key that no pair lists reads as unlisted. -/
theorem get_of_not_mem {m : SMap α} {k : Nat} (h : ∀ e ∈ m, e.1 ≠ k) : get d m k = d k := by
  induction m with
  | nil => rfl
  | cons x r ih =>
    simp only [get, h x List.mem_cons_self, if_false]
    exact ih (fun e he => h e (List.mem_cons_of_mem _ he))

variable {β : Type} {key : β → Nat} {val : β → α} {l : List β}

/-- A thread of insertions leaves every key that none of them names. -/
theorem get_threadAll_ins_other (m : SMap α) {k : Nat} (h : ∀ e ∈ l, key e ≠ k) :
    get d (threadAll (fun (m : SMap α) e => m.ins (key e) (val e)) m l) k = get d m k :=
  threadAll_inv_mem (P := fun m' => get d m' k = get d m k)
    (fun _ e he hm => (get_ins_other d _ _ (Ne.symm (h e he))).trans hm) m rfl

/-- A key that a thread of insertions names reads the value inserted there, if all insertions of the key agree. -/
theorem get_threadAll_ins_mem (m : SMap α) {e : β} (he : e ∈ l) (h : ∀ e' ∈ l, key e' = key e → val e' = val e) :
    get d (threadAll (fun (m : SMap α) e => m.ins (key e) (val e)) m l) (key e) = val e := by
  refine threadAll_reach (P := fun _ => True) (Q := fun m' => get d m' (key e) = val e) (x := e) (fun _ _ _ _ => trivial)
    (fun m' e' he' _ hq => ?_) he (fun m' _ => get_ins_same d m' _ _) m trivial
  by_cases hk : key e' = key e
  · rw [hk, get_ins_same]
    exact h e' he' hk
  · rw [get_ins_other d _ _ (Ne.symm hk)]
    exact hq

end SMap

namespace Machine

/-! ### Copies of banks -/

/-- `m` with the bytes of physical bank `dst` replaced by those that `src` holds in `s`; banks are numbered through the device, 25 to a tile. -/
def bankCopied (s m : SMap Byte) (src dst : Nat) : SMap Byte :=
  threadAll (fun (m : SMap Byte) (e : Nat × Byte) => m.ins (dst * bankBytes + e.1 % bankBytes) e.2)
    (m.keepIf (fun k => k / bankBytes != dst)) (s.filter (fun e => e.1 / bankBytes == src))

theorem bankAddr_div {n o : Nat} (ho : o < bankBytes) : (n * bankBytes + o) / bankBytes = n := by
  simp only [bankBytes] at ho ⊢
  omega

theorem bankAddr_mod {n o : Nat} (ho : o < bankBytes) : (n * bankBytes + o) % bankBytes = o := by
  simp only [bankBytes] at ho ⊢
  omega

/-- Bytes of the other banks stay. -/
theorem get_bankCopied_other (s m : SMap Byte) (src : Nat) {dst n o : Nat} (ho : o < bankBytes) (h : n ≠ dst) :
    (bankCopied s m src dst).get zeroByte (n * bankBytes + o) = m.get zeroByte (n * bankBytes + o) := by
  have hout : ∀ e ∈ s.filter (fun e => e.1 / bankBytes == src), dst * bankBytes + e.1 % bankBytes ≠ n * bankBytes + o := by
    intro e _ heq
    have hdiv := congrArg (· / bankBytes) heq
    simp only [bankAddr_div ho, bankAddr_div (Nat.mod_lt e.1 (show 0 < bankBytes by decide))] at hdiv
    exact h hdiv.symm
  rw [bankCopied, SMap.get_threadAll_ins_other zeroByte _ hout, SMap.get_keepIf, bankAddr_div ho, if_pos (by simpa using h)]

theorem Memory.sorted_of_wf {s : SMap Byte} (hs : Memory.wf s = true) : s.sorted = true := by
  simp only [Memory.wf, SMap.wf, Bool.and_eq_true] at hs
  exact hs.1

/-- Of the bytes copied from a bank, the one that lands on an offset stood at that offset. -/
theorem bankAddr_of_copied {s : SMap Byte} {src dst o : Nat} {e : Nat × Byte} (he : e ∈ s.filter (fun e => e.1 / bankBytes == src))
    (heq : dst * bankBytes + e.1 % bankBytes = dst * bankBytes + o) : e ∈ s ∧ e.1 = src * bankBytes + o := by
  obtain ⟨hmem, hbank⟩ := List.mem_filter.mp he
  have hdm := Nat.div_add_mod e.1 bankBytes
  rw [show e.1 / bankBytes = src by simpa using hbank, Nat.mul_comm] at hdm
  exact ⟨hmem, by omega⟩

/-- The bank copied to reads the bytes of the bank copied from. -/
theorem get_bankCopied_same {s : SMap Byte} (hs : Memory.wf s = true) (m : SMap Byte) (src dst : Nat) {o : Nat} (ho : o < bankBytes) :
    (bankCopied s m src dst).get zeroByte (dst * bankBytes + o) = s.get zeroByte (src * bankBytes + o) := by
  have hread : ∀ e ∈ s, s.get zeroByte e.1 = e.2 := fun e he => SMap.get_of_mem zeroByte (Memory.sorted_of_wf hs) he
  by_cases hex : ∃ e ∈ s, e.1 = src * bankBytes + o
  · obtain ⟨e, he, hk⟩ := hex
    have hin : e ∈ s.filter (fun e => e.1 / bankBytes == src) := List.mem_filter.mpr ⟨he, by rw [hk, bankAddr_div ho]; simp⟩
    have hko : dst * bankBytes + e.1 % bankBytes = dst * bankBytes + o := by rw [hk, bankAddr_mod ho]
    have hval : ∀ e' ∈ s.filter (fun e => e.1 / bankBytes == src),
        dst * bankBytes + e'.1 % bankBytes = dst * bankBytes + e.1 % bankBytes → e'.2 = e.2 := by
      intro e' he' heq
      obtain ⟨hm', hk'⟩ := bankAddr_of_copied he' (heq.trans hko)
      rw [← hread e' hm', ← hread e he, hk', hk]
    rw [← hko, ← hk, hread e he]
    exact SMap.get_threadAll_ins_mem zeroByte (key := fun e : Nat × Byte => dst * bankBytes + e.1 % bankBytes)
      (val := fun e => e.2) (m.keepIf (fun k => k / bankBytes != dst)) hin hval
  · have hnone : ∀ e ∈ s.filter (fun e => e.1 / bankBytes == src), dst * bankBytes + e.1 % bankBytes ≠ dst * bankBytes + o :=
      fun e he heq => hex ⟨e, bankAddr_of_copied he heq⟩
    rw [bankCopied, SMap.get_threadAll_ins_other zeroByte _ hnone, SMap.get_keepIf, bankAddr_div ho, if_neg (by simp),
      SMap.get_of_not_mem zeroByte (fun e he hk => hex ⟨e, he, hk⟩)]
    simp only [zeroByte]

/-! ### The scratchpads after the copy -/

/-- The scratchpads with the logical banks of tile `a` copied to tile `b`. -/
def Core.copiedBanks (c : Core) (a b : Nat) : SMap Byte :=
  threadAll (fun m lb => bankCopied c.scratch m (a * 25 + c.physBank a lb) (b * 25 + c.physBank b lb)) c.scratch (List.range 24)

theorem Core.copyTile_scratch (c : Core) (a b : Nat) :
    (c.copyTile a b).scratch = (c.copiedBanks a b).keepIf (fun k => k / bankBytes / 25 != a) := rfl

/-- Tiles other than the spare keep their bytes. -/
theorem Core.get_copiedBanks_other (c : Core) {a b u pb o : Nat} (hu : u ≠ b) (hpb : pb ≤ 24) (ho : o < bankBytes) :
    (c.copiedBanks a b).get zeroByte ((u * 25 + pb) * bankBytes + o) = c.scratch.get zeroByte ((u * 25 + pb) * bankBytes + o) := by
  refine threadAll_inv_mem (P := fun m => SMap.get zeroByte m ((u * 25 + pb) * bankBytes + o) = _) (fun m lb hlb hm => ?_) _ rfl
  have hle := c.physBank_le b (List.mem_range.mp hlb)
  rw [get_bankCopied_other _ _ _ ho (by omega)]
  exact hm

/-- A logical bank of the spare reads the bytes of that bank of the old tile. -/
theorem Core.get_copiedBanks_new (c : Core) (a b : Nat) (hs : Memory.wf c.scratch = true) {lb o : Nat} (hlb : lb < 24) (ho : o < bankBytes) :
    (c.copiedBanks a b).get zeroByte ((b * 25 + c.physBank b lb) * bankBytes + o) =
      c.scratch.get zeroByte ((a * 25 + c.physBank a lb) * bankBytes + o) := by
  refine threadAll_reach (P := fun _ => True) (Q := fun m => SMap.get zeroByte m ((b * 25 + c.physBank b lb) * bankBytes + o) = _) (x := lb)
    (fun _ _ _ _ => trivial) (fun m lb' hlb' _ hm => ?_) (List.mem_range.mpr hlb)
    (fun m _ => get_bankCopied_same hs m (a * 25 + c.physBank a lb) (b * 25 + c.physBank b lb) ho) c.scratch trivial
  by_cases heq : lb' = lb
  · subst heq
    exact get_bankCopied_same hs m _ _ ho
  · have hne : c.physBank b lb ≠ c.physBank b lb' := fun h => heq (c.physBank_inj b hlb (List.mem_range.mp hlb') h).symm
    rw [get_bankCopied_other _ _ _ ho (by omega)]
    exact hm

/-! ### The registers and the tiles after the copy -/

/-- The bank map of every tile stays with the physical tile (R328). -/
theorem Core.copyTile_bankMap (c : Core) (a b : Nat) {u : Nat} (hu : u < 272) :
    (c.copyTile a b).rd Regs.TILE_BANK_MAP u = c.rd Regs.TILE_BANK_MAP u := by
  have hat : Regs.TILE_BANK_MAP.at u = 0x200700 + 0x1000 * u := by
    simp only [Reg.at, Reg.offsetOf, Regs.TILE_BANK_MAP, Nat.mod_eq_of_lt hu]
    omega
  unfold Core.rd
  rw [hat]
  congr 1
  refine (SMap.get_threadAll_ins_other _ _ ?_).trans ((SMap.get_keepIf _ _ _ _).trans (if_pos ?_))
  · intro e he heq
    obtain ⟨-, hin⟩ := List.mem_filter.mp he
    simp only [staysPhysical, Bool.and_eq_true, decide_eq_true_eq, Bool.not_eq_true', Bool.or_eq_false_iff, beq_eq_false_iff_ne] at hin
    dsimp only at heq
    omega
  · simp only [staysPhysical, Bool.not_eq_true', Bool.or_eq_false_iff, Bool.and_eq_false_iff, decide_eq_false_iff_not,
      Bool.not_eq_false', Bool.or_eq_true, beq_iff_eq]
    omega

/-- The spare's sequencer is the old tile's. -/
theorem Core.copyTile_tile_new (c : Core) {a b : Nat} (h : a ≠ b) : (c.copyTile a b).tile b = c.tile a :=
  (Core.tile_setTile_other _ _ (Ne.symm h)).trans (Core.tile_setTile_same _ _ _)

theorem Core.copyTile_tile_other (c : Core) {a b u : Nat} (ha : u ≠ a) (hb : u ≠ b) : (c.copyTile a b).tile u = c.tile u :=
  (Core.tile_setTile_other _ _ ha).trans (Core.tile_setTile_other _ _ hb)

/-! ### What space 0x0 reads after the copy -/

/-- The key of a byte depends on the bank map of its tile alone. -/
theorem Core.scratchKey_congr {c c' : Core} {t : Nat} (h : c'.rd Regs.TILE_BANK_MAP t = c.rd Regs.TILE_BANK_MAP t) (o : Nat) :
    c'.scratchKey t o = c.scratchKey t o := by
  have hbank : ∀ lb, c'.physBank t lb = c.physBank t lb := fun lb => by
    have hf : ∀ f : Fld, f.reg = Regs.TILE_BANK_MAP → c'.rf f t = c.rf f t := fun f hr => by rw [Core.rf, Core.rf, hr, h]
    rw [Core.physBank, Core.physBank, Core.flag, Core.flag, hf _ rfl, hf _ rfl]
  rw [Core.scratchKey, Core.scratchKey, hbank]

/-- Bytes of bank memory read through the key of their place. -/
theorem Core.scratchKey_eq (c : Core) (t o : Nat) :
    c.scratchKey t o = (t * 25 + c.physBank t (o / bankBytes)) * bankBytes + o % bankBytes := rfl

theorem Core.scratchKey_tile (c : Core) {t o : Nat} (ho : o < 0x300000) : c.scratchKey t o / bankBytes / 25 = t := by
  have hb := c.physBank_le t (show o / bankBytes < 24 from Nat.div_lt_of_lt_mul ho)
  rw [Core.scratchKey_eq, bankAddr_div (Nat.mod_lt _ (by decide))]
  omega

/-- A byte of a tile that the copy does not power off reads what its key reads among the copied banks. -/
theorem Core.readPlace_copyTile (c : Core) {a b u o : Nat} (hu : u ≠ a) (hlt : u < 272) (ho : o < 0x300000) :
    (c.copyTile a b).readPlace (.scratch u o) = (c.copiedBanks a b).get zeroByte (c.scratchKey u o) := by
  rw [Core.readPlace, Core.scratchKey_congr (c.copyTile_bankMap a b hlt), Core.copyTile_scratch, SMap.get_keepIf, c.scratchKey_tile ho,
    if_pos (by simpa using hu)]

/-- Every byte of the spare's space 0x0 is the old tile's (R34). -/
theorem Core.readPlace_copyTile_new (c : Core) {a b o : Nat} (hs : Memory.wf c.scratch = true) (hab : a ≠ b) (hb : b < 272)
    (ho : o < 0x300000) : (c.copyTile a b).readPlace (.scratch b o) = c.readPlace (.scratch a o) := by
  rw [c.readPlace_copyTile (Ne.symm hab) hb ho, Core.scratchKey_eq]
  exact c.get_copiedBanks_new a b hs (Nat.div_lt_of_lt_mul ho) (Nat.mod_lt _ (by decide))

/-- Every byte of a third tile's space 0x0 stays. -/
theorem Core.readPlace_copyTile_other (c : Core) {a b u o : Nat} (ha : u ≠ a) (hb : u ≠ b) (hu : u < 272) (ho : o < 0x300000) :
    (c.copyTile a b).readPlace (.scratch u o) = c.readPlace (.scratch u o) := by
  rw [c.readPlace_copyTile ha hu ho, Core.scratchKey_eq]
  exact c.get_copiedBanks_other hb (c.physBank_le u (Nat.div_lt_of_lt_mul ho)) (Nat.mod_lt _ (by decide))

end Machine
end Sys2Proof
end

section
/-! PROOFS. Tile sparing (R33 to R39): what ends with a tile that has no spare, what the commands of a swap answer, O34. -/

namespace Sys2Proof.Machine

/-! ### What leaves the map, the tiles and the swaps alone -/

/-- The tile map, the tiles out of service, the sparing records that wait and the tile swaps. -/
def Core.sparing (c : Core) : SMap (Option Nat) × List Nat × List SpareRec × List TileSwap := (c.map, c.outTiles, c.spareQ, c.tileSwaps)

/-- `c'` has the sparing state of `c`, and every event of `c` still waits at its collector. -/
def Core.keepsSparing (c c' : Core) : Prop := c'.sparing = c.sparing ∧ c.evtBuf ⊆ c'.evtBuf

theorem Core.keepsSparing.of_eq {c c' : Core} (hs : c'.sparing = c.sparing) (he : c'.evtBuf = c.evtBuf) : c.keepsSparing c' :=
  ⟨hs, he ▸ List.Subset.refl _⟩

theorem Core.keepsSparing.refl (c : Core) : c.keepsSparing c := .of_eq rfl rfl

theorem Core.keepsSparing.trans {a b c : Core} (h : a.keepsSparing b) (h' : b.keepsSparing c) : a.keepsSparing c :=
  ⟨h'.1.trans h.1, List.Subset.trans h.2 h'.2⟩

theorem Core.keepsSparing.ite {a b c : Core} {P : Prop} [Decidable P] (h : c.keepsSparing a) (h' : c.keepsSparing b) :
    c.keepsSparing (if P then a else b) := by
  split
  · exact h
  · exact h'

theorem Core.keepsSparing_threadAll {β : Type} {f : Core → β → Core} (h : ∀ c x, Core.keepsSparing c (f c x)) (l : List β) (c : Core) :
    c.keepsSparing (threadAll f c l) :=
  threadAll_inv (fun a => c.keepsSparing a) (fun a x ha => ha.trans (h a x)) l c (.refl c)

theorem Core.keepsSparing_wr (c : Core) (r : Reg) (i v : Nat) : c.keepsSparing (c.wr r i v) := .of_eq rfl rfl

theorem Core.keepsSparing_wf (c : Core) (f : Fld) (i v : Nat) : c.keepsSparing (c.wf f i v) := c.keepsSparing_wr _ _ _

theorem Core.keepsSparing_count (c : Core) (f : Fld) (i n : Nat) : c.keepsSparing (c.count f i n) := c.keepsSparing_wf _ _ _

theorem Core.keepsSparing_setPart (c : Core) (p : Nat) (x : Part) : c.keepsSparing (c.setPart p x) := .of_eq rfl rfl

theorem Core.keepsSparing_clearBank (c : Core) (t pb : Nat) : c.keepsSparing (c.clearBank t pb) := .of_eq rfl rfl

theorem Core.keepsSparing_evt (c : Core) (a b d e f g : Nat) : c.keepsSparing (c.evt a b d e f g) :=
  ⟨rfl, List.subset_append_left _ _⟩

/-! ### Writes of memory -/

theorem Core.keepsSparing_wakeBank (c : Core) (t b : Nat) : c.keepsSparing (c.wakeBank t b) :=
  .ite ((((c.keepsSparing_clearBank _ _).trans (Core.keepsSparing_wf _ _ _ _)).trans (Core.keepsSparing_count _ _ _ _)).trans
      (Core.keepsSparing_wr _ _ _ _))
    (.ite ((c.keepsSparing_wf _ _ _).trans (Core.keepsSparing_count _ _ _ _)) (.refl c))

theorem Core.keepsSparing_wakeRange (c : Core) (t o n : Nat) : c.keepsSparing (c.wakeRange t o n) :=
  .ite (.refl c) (Core.keepsSparing_threadAll (fun c b => c.keepsSparing_wakeBank t b) _ c)

theorem Core.keepsSparing_writeView (c : Core) (p o : Nat) (bs : List Byte) : c.keepsSparing (c.writeView p o bs) := by
  refine Core.keepsSparing_threadAll (fun c e => ?_) _ c
  split
  · exact .of_eq rfl rfl
  · exact .refl c

theorem Core.keepsSparing_writePlace (c : Core) (b : Byte) (x : Place) : c.keepsSparing (c.writePlace b x) := by
  cases x with
  | scratch t o => exact (c.keepsSparing_wakeRange t o 1).trans (.of_eq rfl rfl)
  | view p o => exact c.keepsSparing_writeView p o [b]
  | host a => exact .of_eq rfl rfl
  | flash a => exact .of_eq rfl rfl
  | remote dev key o => exact .of_eq rfl rfl
  | nowhere => exact .refl c

theorem Core.keepsSparing_fresh (c : Core) : c.keepsSparing c.fresh.2 := .of_eq rfl rfl

theorem Core.keepsSparing_spoil (c : Core) (x : Span) : c.keepsSparing (c.spoil x) := by
  refine Core.keepsSparing_threadAll (fun c k => ?_) _ c
  split
  · exact .refl c
  · exact c.keepsSparing_fresh.trans (Core.keepsSparing_writePlace _ _ _)

theorem Core.keepsSparing_cutOp (c : Core) (o : AOp) : c.keepsSparing (c.cutOp o) :=
  .ite (Core.keepsSparing_threadAll (fun c x => c.keepsSparing_spoil x) _ c) (.refl c)

/-! ### Ends of items -/

theorem Core.keepsSparing_sqClear (c : Core) (p q : Nat) : c.keepsSparing (c.sqClear p q) :=
  .ite (Core.keepsSparing.trans (.of_eq rfl rfl) (Core.keepsSparing_wf _ _ _ _)) (.refl c)

theorem Core.keepsSparing_updOp (c : Core) (id : Nat) (f : AOp → AOp) : c.keepsSparing (c.updOp id f) := .of_eq rfl rfl

/-- The end of an item writes its record and may post its completion. -/
theorem Core.keepsSparing_endItem (c : Core) (id status : Nat) (own : Bool) : c.keepsSparing (c.endItem id status own) := by
  unfold Core.endItem
  split
  · exact .refl c
  · refine Core.keepsSparing.trans ?_ (.ite (Core.keepsSparing_evt _ _ _ _ _ _ _) (.refl _))
    refine Core.keepsSparing.trans ?_ (Core.keepsSparing_sqClear _ _ _)
    refine Core.keepsSparing.trans ?_ (.ite (Core.keepsSparing_setPart _ _ _) (.refl _))
    exact .of_eq rfl rfl

/-! ### The stop of a program -/

theorem Core.sparing_of_others {c c' : Core} (h : c'.others = c.others) : c'.sparing = c.sparing := by
  have hs := congrArg Core.sparing h
  exact hs

theorem Core.mems_of_others {c c' : Core} (h : c'.others = c.others) : c'.mems = c.mems := by
  have hm := congrArg Core.mems h
  exact hm

theorem Core.stopProgram_others (c : Core) (p status : Nat) (f : Option (Nat × Nat × Nat × Nat)) :
    (c.stopProgram p status f).others = c.others ∧ (c.stopProgram p status f).evtBuf = c.evtBuf := by
  unfold Core.stopProgram
  split
  · exact ⟨rfl, rfl⟩
  next pr _ =>
    split
    · exact ⟨rfl, rfl⟩
    · obtain ⟨-, hevt, -, hoth⟩ := Core.stopTiles_view
        (c.setPart p { c.part p with prog := some { pr with stopping := true, endStatus := status, fault := f } }) pr.tiles
      exact ⟨hoth, hevt⟩

theorem Core.keepsSparing_stopProgram (c : Core) (p status : Nat) (f : Option (Nat × Nat × Nat × Nat)) :
    c.keepsSparing (c.stopProgram p status f) :=
  .of_eq (c := c) (Core.sparing_of_others (c.stopProgram_others p status f).1) (c.stopProgram_others p status f).2

/-! ### The end of a tile's items -/

theorem Core.keepsSparing_endTileItems (c : Core) (p l status : Nat) : c.keepsSparing (c.endTileItems p l status) :=
  (Core.keepsSparing_threadAll
      (fun c o => ((c.keepsSparing_cutOp o).trans (Core.keepsSparing_endItem _ _ _ _)).trans (Core.keepsSparing_updOp _ _ _)) _ c).trans
    (Core.keepsSparing_stopProgram _ _ _ _)

/-- Without an operation of the tile that has an item no memory is written. -/
theorem Core.mems_endTileItems (c : Core) (p l status : Nat) (h : ∀ o ∈ c.ops, o.ltile = l → o.item = none) :
    (c.endTileItems p l status).mems = c.mems := by
  have hnone : c.ops.filter (fun o => o.part == p && o.ltile == l && o.item.isSome) = [] := by
    refine List.filter_eq_nil_iff.mpr (fun o ho hmine => ?_)
    simp only [Bool.and_eq_true, beq_iff_eq] at hmine
    obtain ⟨⟨-, hl⟩, hitem⟩ := hmine
    simp [h o ho hl] at hitem
  rw [Core.endTileItems, hnone]
  exact Core.mems_of_others (c.stopProgram_others p status none).1

/-! ### What a request does (R33, R37, R39, R633) -/

theorem Core.mem_holdSwap (c : Core) (x : HeldSwap) : x ∈ (c.holdSwap x).heldSwaps := by
  unfold Core.holdSwap
  split
  next h => simpa using h
  next => simp

theorem Core.holdSwap_eq (c : Core) (x : HeldSwap) : c.holdSwap x = { c with heldSwaps := (c.holdSwap x).heldSwaps } := by
  unfold Core.holdSwap
  split <;> rfl

section
variable {c : Core} {l k t : Nat}

theorem Core.startTileSwap_held (h : c.fwHold = true) : c.startTileSwap l k = c.holdSwap (.tile l k) := by
  rw [Core.startTileSwap, if_pos h]

theorem Core.startTileSwap_unmapped (h : c.fwHold = false) (hp : c.phys l = none) : c.startTileSwap l k = c := by
  simp [Core.startTileSwap, h, hp]

theorem Core.startTileSwap_busy (h : c.fwHold = false) (hs : c.tileSwaps.any (fun w => groupOfLogical w.ltile == groupOfLogical l) = true) :
    c.startTileSwap l k = c := by
  cases hp : c.phys l with
  | none => exact Core.startTileSwap_unmapped h hp
  | some t => simp only [Core.startTileSwap, h, hp, hs, if_true, Bool.false_eq_true, if_false]

/-- The event of a failing tile without a spare, and the end of its items (R36, R37). -/
def Core.endLostTile (c : Core) (l t : Nat) : Core :=
  let g := groupOfLogical l
  let p := (c.partOfGroup g).getD devPart
  (c.evt Cls.item (Src.tile t) p 0x1002 (g + l * 2 ^ 4)).endTileItems p l St.PARITY

/-- The device without logical tile `l`, whose physical tile `t` goes out of service (R37). -/
def Core.dropTile (c : Core) (l t : Nat) : Core :=
  let d := c.endLostTile l t
  { d with
    map := d.map.put mapDefault l none
    outTiles := d.outTiles ++ [t]
    spareQ := d.spareQ ++ [{ kind := 0, unit := t, sub := 0 }] }

theorem Core.keepsSparing_endLostTile (c : Core) (l t : Nat) : c.keepsSparing (c.endLostTile l t) :=
  (c.keepsSparing_evt _ _ _ _ _ _).trans (Core.keepsSparing_endTileItems _ _ _ _)

/-- A request in a group that does not swap and has no spare: PF0's changes nothing, a failure takes the tile out of service. -/
theorem Core.startTileSwap_noSpare (h : c.fwHold = false) (hp : c.phys l = some t)
    (hs : c.tileSwaps.any (fun w => groupOfLogical w.ltile == groupOfLogical l) = false) (hn : (c.spareTile (groupOfLogical l)).isNone = true) :
    c.startTileSwap l k = if k = 2 then c else c.dropTile l t := by
  simp only [Core.startTileSwap, h, hp, hs, hn, if_true, Bool.false_eq_true, if_false]
  rfl

theorem Core.startTileSwap_spare (h : c.fwHold = false) (hp : c.phys l = some t)
    (hs : c.tileSwaps.any (fun w => groupOfLogical w.ltile == groupOfLogical l) = false) (hn : (c.spareTile (groupOfLogical l)).isNone = false) :
    c.startTileSwap l k =
      { (c.evt Cls.info (Src.tile t) ((c.partOfGroup (groupOfLogical l)).getD devPart) 0x1000 (swapInfo l t k)).wf
          Regs.TILE_BANK_STATUS_SWAPPING t 0 with
        bankSwaps := c.bankSwaps.filter (fun b => b.tile != t)
        tileSwaps := c.tileSwaps ++ [{ ltile := l, step := 1, trigger := k }] } := by
  simp only [Core.startTileSwap, h, hp, hs, hn, Bool.false_eq_true, if_false]
  rfl

end

/-! ### The commands -/

/-- A command whose function leaves the device as it is. -/
theorem State.on_of_fixed {s : State} {f : Core → Core} (h : f s.core = s.core) : s.on f = .next s := by
  rw [State.on, h]

theorem exec_tileSpareRequest (l : Fin 256) (k : Fin 3) (s : State) :
    exec (.tileSpareRequest l k) s = s.on (fun c => c.startTileSwap l.val k.val) := rfl

theorem exec_tileSwapDrained (l : Fin 256) (lost : List Nat) (s : State) :
    exec (.tileSwapDrained l lost) s = s.on (fun c => if c.ops.any (fun o => o.ltile == l.val) then c else
      { c with tileSwaps := c.tileSwaps.map (fun w => if w.ltile = l.val ∧ w.step = 1 then { w with step := 4, lost := lost } else w) }) := rfl

/-- The device after TILE_SPARED of a swap of logical tile `l` from tile `a` to tile `b` that lost no word. -/
def Core.spareIn (c : Core) (l a b trigger : Nat) : Core :=
  let d := (c.copyTile a b).wf Regs.TILE_BANK_STATUS_SWAPPING b 0
  let d : Core :=
    { d with
      map := d.map.put mapDefault l (some b)
      outTiles := d.outTiles ++ [a]
      spareQ := d.spareQ ++ [{ kind := 0, unit := a, sub := 0 }]
      bankSwaps := d.bankSwaps.filter (fun w => w.tile != a)
      tileSwaps := d.tileSwaps.filter (fun w => w.ltile != l)
      free := d.free + 1 }
  d.evt Cls.info (Src.tile a) ((c.partOfGroup (groupOfLogical l)).getD devPart) 0x1001 (swapInfo l a trigger) (Config.freeWord c.free).toNat

theorem exec_tileSpared (l : Fin 256) {s : State} {w : TileSwap} {a b : Nat}
    (hw : s.core.tileSwaps.find? (fun w => w.ltile == l.val && w.step == 4) = some w) (ha : s.core.phys l.val = some a)
    (hb : s.core.spareTile (groupOfLogical l.val) = some b) (hlost : w.lost = []) :
    exec (.tileSpared l) s = s.on (fun c => c.spareIn l.val a b w.trigger) := by
  show execTileSpared l s = _
  simp only [execTileSpared, State.on, hw, ha, hb, hlost, threadAll, List.isEmpty_nil, if_true]
  rfl

/-- The bytes of space 0x0 after the swap are those after the copy: the swap's registers are not the bank map. -/
theorem Core.readPlace_spareIn (c : Core) (l a b k u o : Nat) :
    (c.spareIn l a b k).readPlace (.scratch u o) = (c.copyTile a b).readPlace (.scratch u o) := by
  have hmap : (c.spareIn l a b k).rd Regs.TILE_BANK_MAP u = (c.copyTile a b).rd Regs.TILE_BANK_MAP u := by
    refine Core.rd_wf_other (c.copyTile a b) (f := Regs.TILE_BANK_STATUS_SWAPPING) (i := b) 0 ?_
    simp only [Reg.at, Reg.offsetOf, Regs.TILE_BANK_MAP, Regs.TILE_BANK_STATUS_SWAPPING, Regs.TILE_BANK_STATUS]
    omega
  rw [Core.readPlace, Core.readPlace, Core.scratchKey_congr hmap]
  rfl

/-- The map after a write of one entry. -/
theorem Core.phys_of_map {c c' : Core} {l : Nat} {x : Option Nat} (h : c'.map = c.map.put mapDefault l x) :
    c'.phys l = x ∧ ∀ m, m ≠ l → c'.phys m = c.phys m := by
  simp only [Core.phys, h]
  exact ⟨SMap.get_put_same _ _ _ _, fun m hm => SMap.get_put_other _ _ _ hm⟩

/-! ### The clauses of O34 -/

section
variable {l : Fin 256} {s : State}

theorem tileSpareRequest_held (k : Fin 3) (h : s.core.fwHold = true) :
    Answers s (.tileSpareRequest l k)
      (fun c => c = { s.core with heldSwaps := c.heldSwaps } ∧ HeldSwap.tile l.val k.val ∈ c.heldSwaps) := by
  refine answers_on (exec_tileSpareRequest l k s) ?_
  rw [Core.startTileSwap_held h]
  exact ⟨s.core.holdSwap_eq _, s.core.mem_holdSwap _⟩

theorem tileSpareRequest_starts (k : Fin 3) {t : Nat} (h : s.core.fwHold = false) (hp : s.core.phys l.val = some t)
    (hs : s.core.tileSwaps.any (fun w => groupOfLogical w.ltile == l.val / 16) = false) (hsp : (s.core.spareTile (l.val / 16)).isSome = true) :
    Answers s (.tileSpareRequest l k) (fun c =>
      c.tileSwaps = s.core.tileSwaps ++ [{ ltile := l.val, step := 1, trigger := k.val }] ∧ c.map = s.core.map ∧
      c.evtBuf = s.core.evtBuf ++ [⟨Cls.info, Src.tile t, (s.core.partOfGroup (l.val / 16)).getD devPart, 0x1000,
        swapInfo l.val t k.val % 2 ^ 64, 0⟩] ∧
      c.tiles = s.core.tiles ∧ c.parts = s.core.parts ∧ c.mems = s.core.mems ∧ c.items = s.core.items) := by
  refine answers_on (exec_tileSpareRequest l k s) ?_
  rw [Core.startTileSwap_spare h hp hs (Option.isNone_eq_false_iff.mpr hsp)]
  exact ⟨rfl, rfl, rfl, rfl, rfl, rfl, rfl⟩

theorem tileSpareRequest_refused (k : Fin 3) (h : s.core.fwHold = false)
    (hno : s.core.tileSwaps.any (fun w => groupOfLogical w.ltile == l.val / 16) = true ∨ s.core.phys l.val = none ∨
      (k = 2 ∧ (s.core.spareTile (l.val / 16)).isNone = true)) :
    exec (.tileSpareRequest l k) s = .next s := by
  refine (exec_tileSpareRequest l k s).trans (State.on_of_fixed ?_)
  rcases hno with hs | hp | ⟨rfl, hn⟩
  · exact Core.startTileSwap_busy h hs
  · exact Core.startTileSwap_unmapped h hp
  · cases hp : s.core.phys l.val with
    | none => exact Core.startTileSwap_unmapped h hp
    | some t =>
      cases hs : s.core.tileSwaps.any (fun w => groupOfLogical w.ltile == groupOfLogical l.val) with
      | true => exact Core.startTileSwap_busy h hs
      | false => exact (Core.startTileSwap_noSpare h hp hs hn).trans (if_pos rfl)

theorem tileSpareRequest_degrades (k : Fin 3) {t : Nat} (h : s.core.fwHold = false) (hp : s.core.phys l.val = some t)
    (hs : s.core.tileSwaps.any (fun w => groupOfLogical w.ltile == l.val / 16) = false) (hn : (s.core.spareTile (l.val / 16)).isNone = true)
    (hk : k ≠ 2) :
    Answers s (.tileSpareRequest l k) (fun c => c.phys l.val = none ∧ (∀ m, m ≠ l.val → c.phys m = s.core.phys m) ∧
      c.outTiles = s.core.outTiles ++ [t] ∧ c.spareQ = s.core.spareQ ++ [{ kind := 0, unit := t, sub := 0 }] ∧ c.tileSwaps = s.core.tileSwaps ∧
      ((∀ o ∈ s.core.ops, o.ltile = l.val → o.item = none) → c.mems = s.core.mems) ∧
      ⟨Cls.item, Src.tile t, (s.core.partOfGroup (l.val / 16)).getD devPart, 0x1002, (l.val / 16 + l.val * 2 ^ 4) % 2 ^ 64, 0⟩ ∈ c.evtBuf) := by
  refine answers_on (exec_tileSpareRequest l k s) ?_
  have hk' : k.val ≠ 2 := fun e => hk (Fin.ext e)
  rw [Core.startTileSwap_noSpare h hp hs hn, if_neg hk']
  obtain ⟨hkept, -⟩ := s.core.keepsSparing_endLostTile l.val t
  simp only [Core.sparing, Prod.mk.injEq] at hkept
  obtain ⟨hmap, hout, hq, hsw⟩ := hkept
  obtain ⟨hnone, hothers⟩ := Core.phys_of_map (c' := s.core.dropTile l.val t) (congrArg (fun m => SMap.put mapDefault m l.val none) hmap)
  refine ⟨hnone, hothers, congrArg (· ++ [t]) hout, congrArg (· ++ [_]) hq, hsw, fun hops => ?_, ?_⟩
  · exact Core.mems_endTileItems _ _ _ _ hops
  · exact (Core.keepsSparing_endTileItems _ _ _ _).2 (List.mem_append_right _ List.mem_cons_self)

theorem tileSwapDrained_copies (lost : List Nat) (h : s.core.ops.any (fun o => o.ltile == l.val) = false) :
    Answers s (.tileSwapDrained l lost) (fun c => c = { s.core with tileSwaps := c.tileSwaps } ∧
      c.tileSwaps = s.core.tileSwaps.map (fun w => if w.ltile = l.val ∧ w.step = 1 then { w with step := 4, lost := lost } else w)) := by
  refine answers_on (exec_tileSwapDrained l lost s) ?_
  rw [h]
  exact ⟨rfl, rfl⟩

theorem tileSwapDrained_waits (lost : List Nat) (h : s.core.ops.any (fun o => o.ltile == l.val) = true) :
    exec (.tileSwapDrained l lost) s = .next s :=
  (exec_tileSwapDrained l lost s).trans (State.on_of_fixed (if_pos h))

theorem tileSpared_spareIn {w : TileSwap} {a b : Nat}
    (hw : s.core.tileSwaps.find? (fun w => w.ltile == l.val && w.step == 4) = some w) (ha : s.core.phys l.val = some a)
    (hb : s.core.spareTile (l.val / 16) = some b) (hlost : w.lost = []) (hblt : b < 272) (hab : a ≠ b)
    (hmem : Memory.wf s.core.scratch = true) :
    Answers s (.tileSpared l) (fun c => c.phys l.val = some b ∧ (∀ m, m ≠ l.val → c.phys m = s.core.phys m) ∧ c.tile b = s.core.tile a ∧
      (∀ u, u ≠ a → u ≠ b → c.tile u = s.core.tile u) ∧
      (∀ o, o < 0x300000 → c.readPlace (.scratch b o) = s.core.readPlace (.scratch a o)) ∧
      (∀ u o, u ≠ a → u ≠ b → u < 272 → o < 0x300000 → c.readPlace (.scratch u o) = s.core.readPlace (.scratch u o)) ∧
      c.outTiles = s.core.outTiles ++ [a] ∧ c.spareQ = s.core.spareQ ++ [{ kind := 0, unit := a, sub := 0 }] ∧
      c.tileSwaps = s.core.tileSwaps.filter (fun v => v.ltile != l.val) ∧ c.items = s.core.items ∧ c.ops = s.core.ops) := by
  refine answers_on (exec_tileSpared l hw ha hb hlost) ?_
  obtain ⟨hnew, hothers⟩ := Core.phys_of_map (c := s.core) (c' := s.core.spareIn l.val a b w.trigger) (l := l.val) (x := some b) rfl
  refine ⟨hnew, hothers, s.core.copyTile_tile_new hab, fun u hua hub => s.core.copyTile_tile_other hua hub, fun o ho => ?_,
    fun u o hua hub hu ho => ?_, rfl, rfl, rfl, rfl, rfl⟩
  · rw [Core.readPlace_spareIn, s.core.readPlace_copyTile_new hmem hab hblt ho]
  · rw [Core.readPlace_spareIn, s.core.readPlace_copyTile_other hua hub hu ho]

end

/-- Settles O34, clause by clause: the request by the branches of its trigger, the drain by the operations in progress, and the end of the
swap by what the copy of a tile reads. -/
theorem tileSparing : Obligations.TileSparing := by
  intro l s
  exact ⟨fun k h => tileSpareRequest_held k h,
    fun h => ⟨fun k t hp hs hsp => tileSpareRequest_starts k h hp hs hsp, fun k hno => tileSpareRequest_refused k h hno,
      fun k t hp hs hn hk => tileSpareRequest_degrades k h hp hs hn hk⟩,
    fun lost h => tileSwapDrained_copies lost h, fun lost h => tileSwapDrained_waits lost h,
    fun w a b hw ha hb hlost _ hblt hab hmem => tileSpared_spareIn hw ha hb hlost hblt hab hmem⟩

end Sys2Proof.Machine
end

section
/-! PROOFS. The collector (R55, R56): a tick takes the first event of each source, and orders the taken ones by class and source, O30. -/

namespace Sys2Proof.Machine

/-- One event at the collector: the first of its source is taken, a later one waits. -/
def collect (acc : List Evt × List Evt) (e : Evt) : List Evt × List Evt :=
  if acc.1.any (fun x => x.source == e.source) then (acc.1, acc.2 ++ [e]) else (acc.1 ++ [e], acc.2)

theorem onePerSource_eq (es : List Evt) : onePerSource es = es.foldl collect ([], []) := rfl

/-- How many more events of a source the collector takes. -/
def openings (now : List Evt) (src : Nat) : Nat := if now.any (fun x => x.source == src) then 0 else 1

section
variable {acc : List Evt × List Evt} {e : Evt}

theorem collect_waits (h : acc.1.any (fun x => x.source == e.source) = true) : collect acc e = (acc.1, acc.2 ++ [e]) := if_pos h

theorem collect_takes (h : acc.1.any (fun x => x.source == e.source) = false) : collect acc e = (acc.1 ++ [e], acc.2) := by
  rw [collect, h]
  rfl

end

/-- Of the events of a source the collector takes the first and leaves the others in their order. -/
theorem foldl_collect_source (src : Nat) (es : List Evt) (acc : List Evt × List Evt) :
    (es.foldl collect acc).1.filter (fun e => e.source == src) =
        acc.1.filter (fun e => e.source == src) ++ (es.filter (fun e => e.source == src)).take (openings acc.1 src) ∧
      (es.foldl collect acc).2.filter (fun e => e.source == src) =
        acc.2.filter (fun e => e.source == src) ++ (es.filter (fun e => e.source == src)).drop (openings acc.1 src) := by
  induction es generalizing acc with
  | nil => simp
  | cons e r ih =>
    obtain ⟨hnow, hlater⟩ := ih (collect acc e)
    rw [List.foldl_cons, hnow, hlater]
    by_cases hsrc : e.source = src
    · subst hsrc
      cases hany : acc.1.any (fun x => x.source == e.source) with
      | true => simp [collect_waits hany, openings, hany]
      | false => simp [collect_takes hany, openings, hany]
    · cases hany : acc.1.any (fun x => x.source == e.source) with
      | true => simp [collect_waits hany, hsrc]
      | false => simp [collect_takes hany, openings, hsrc]

theorem foldl_collect_sublist (es : List Evt) (acc : List Evt × List Evt) : (es.foldl collect acc).2.Sublist (acc.2 ++ es) := by
  induction es generalizing acc with
  | nil => simp
  | cons e r ih =>
    refine (ih (collect acc e)).trans ?_
    cases hany : acc.1.any (fun x => x.source == e.source) with
    | true => simp [collect_waits hany]
    | false =>
      rw [collect_takes hany]
      exact (List.sublist_cons_self e r).append_left acc.2

theorem evtLe_iff (a b : Evt) : evtLe a b = true ↔ a.cls < b.cls ∨ (a.cls = b.cls ∧ a.source ≤ b.source) := by
  simp [evtLe]

theorem evtLe_trans (a b c : Evt) (hab : evtLe a b = true) (hbc : evtLe b c = true) : evtLe a c = true := by
  rw [evtLe_iff] at *
  omega

theorem evtLe_total (a b : Evt) : (evtLe a b || evtLe b a) = true := by
  rw [Bool.or_eq_true, evtLe_iff, evtLe_iff]
  omega

/-- Settles O30: the split by the fold over what waits, the order by the sort, whose relation is total and transitive. -/
theorem eventOrder : Obligations.EventOrder := by
  intro es
  dsimp only
  rw [onePerSource_eq]
  refine ⟨fun src => (foldl_collect_source src es _).1, fun src => (foldl_collect_source src es _).2, foldl_collect_sublist es _, ?_,
    List.mergeSort_perm _ _⟩
  exact (List.pairwise_mergeSort evtLe_trans evtLe_total _).imp (fun h => (evtLe_iff _ _).mp h)

end Sys2Proof.Machine
end

section
/-! PROOFS. A tick while a firmware activation holds (R633): the bank swaps that are due stay due, against O57. -/

namespace Sys2Proof.Machine

/-- Nothing is sampled where no event waits. -/
theorem Core.sampleAll_of_noEvents {c : Core} (h : c.evtBuf = []) : c.sampleAll = c := by
  have hsplit : onePerSource c.evtBuf = ([], c.evtBuf) := by rw [h]; rfl
  simp [Core.sampleAll, hsplit, threadAll]

/-- While an activation holds, a swap that is due waits. -/
theorem Core.startDueSwaps_of_hold {c : Core} (h : c.fwHold = true) : c.startDueSwaps = c := by
  simp [Core.startDueSwaps, h]

/-- The device after reset, but that an activation holds and a swap of bank 0 of tile 0 is due. -/
def heldDue : State := { State.reset with core := { fwHold := true, swapDue := [(0, 0)] } }

/-- What passes at the tick of that device before its swaps. -/
def heldDueWaits : Core := heldDue.core.advanceTime.takeSnaps.countTiles.countWaits.countPower

theorem heldDue_tick_swapDue : heldDue.tick.core.swapDue = [(0, 0)] := by
  have hhold : heldDueWaits.fwHold = true := by decide
  have hevents : heldDueWaits.evtBuf = [] := by decide
  have hdue : heldDueWaits.swapDue = [(0, 0)] := by decide
  show heldDueWaits.startDueSwaps.sampleAll.swapDue = _
  rw [Core.startDueSwaps_of_hold hhold, Core.sampleAll_of_noEvents hevents, hdue]

/-- Refutes O57: the tick of a device that an activation holds leaves the bank swaps that are due in their list. -/
theorem not_stepRunsFront : ¬ Obligations.StepRunsFront := by
  rintro ⟨-, hidle⟩
  obtain ⟨t, hstep, -, -, -, -, -, -, hdue, -⟩ := hidle heldDue rfl
  have htick : step heldDue = .next heldDue.tick := rfl
  rw [htick] at hstep
  cases hstep
  rw [heldDue_tick_swapDue] at hdue
  cases hdue

end Sys2Proof.Machine
end

section
/-! PROOFS. Registers apart: two registers whose bases differ modulo every stride share no address, so a write of one leaves the other. And the
rules of host memory: what is written is read, every byte beside it stays. -/

namespace Sys2Proof.Machine

/-! ### Registers at different addresses -/

/-- The greatest common divisor of the strides of two registers. -/
def Reg.pitch (r q : Reg) : Nat := (r.dims ++ q.dims).foldl (fun g d => Nat.gcd g d.2) 0

/-- The bases of two registers differ modulo their pitch. -/
def Reg.apart (r q : Reg) : Bool := r.base % r.pitch q != q.base % r.pitch q

theorem foldl_gcd_dvd (l : List (Nat × Nat)) (a : Nat) :
    l.foldl (fun g d => Nat.gcd g d.2) a ∣ a ∧ ∀ d ∈ l, l.foldl (fun g d => Nat.gcd g d.2) a ∣ d.2 := by
  induction l generalizing a with
  | nil => simp
  | cons e r ih =>
    obtain ⟨hacc, hall⟩ := ih (Nat.gcd a e.2)
    refine ⟨hacc.trans (Nat.gcd_dvd_left _ _), fun d hd => ?_⟩
    rcases List.mem_cons.mp hd with rfl | hr
    · exact hacc.trans (Nat.gcd_dvd_right _ _)
    · exact hall d hr

theorem Reg.dvd_offsetOf {m : Nat} {dims : List (Nat × Nat)} (h : ∀ d ∈ dims, m ∣ d.2) (i : Nat) : m ∣ Reg.offsetOf dims i := by
  induction dims generalizing i with
  | nil => exact Nat.dvd_zero m
  | cons e r ih =>
    exact Nat.dvd_add ((h e List.mem_cons_self).mul_left _) (ih (fun d hd => h d (List.mem_cons_of_mem _ hd)) _)

theorem Reg.at_mod {m : Nat} {r : Reg} (h : ∀ d ∈ r.dims, m ∣ d.2) (i : Nat) : r.at i % m = r.base % m := by
  obtain ⟨k, hk⟩ := Reg.dvd_offsetOf h i
  rw [Reg.at, hk, Nat.add_mul_mod_self_left]

theorem Reg.pitch_dvd (r q : Reg) : ∀ d ∈ r.dims ++ q.dims, r.pitch q ∣ d.2 := (foldl_gcd_dvd (r.dims ++ q.dims) 0).2

/-- Registers apart share no address, whichever their instances. -/
theorem Reg.at_ne_of_apart {r q : Reg} (h : r.apart q = true) (i j : Nat) : r.at i ≠ q.at j := by
  intro heq
  have hr := Reg.at_mod (fun d hd => r.pitch_dvd q d (List.mem_append_left _ hd)) i
  have hq := Reg.at_mod (fun d hd => r.pitch_dvd q d (List.mem_append_right _ hd)) j
  rw [Reg.apart, ← hr, ← hq, heq, bne_self_eq_false] at h
  cases h

section
variable (c : Core) {r q : Reg} {f g : Fld} (i j v n : Nat)

theorem Core.rd_wr_apart (h : q.apart r = true) : (c.wr r i v).rd q j = c.rd q j := c.rd_wr_other v (Reg.at_ne_of_apart h j i)

theorem Core.rd_wf_apart (h : q.apart f.reg = true) : (c.wf f i v).rd q j = c.rd q j := c.rd_wr_apart i j _ h

theorem Core.rf_wr_apart (h : g.reg.apart r = true) : (c.wr r i v).rf g j = c.rf g j := by
  rw [Core.rf, c.rd_wr_apart i j v h, Core.rf]

theorem Core.rf_wf_apart (h : g.reg.apart f.reg = true) : (c.wf f i v).rf g j = c.rf g j := c.rf_wr_apart i j _ h

theorem Core.rf_count_apart (h : g.reg.apart f.reg = true) : (c.count f i n).rf g j = c.rf g j := c.rf_wf_apart i j _ h

/-- A field of a register written reads its bits of the word. -/
theorem Core.rf_wr_same (hr : f.reg = r) (h : f.ok = true) : (c.wr r i v).rf f i = bits v f.hi f.lo := by
  subst hr
  obtain ⟨-, h64⟩ := Fld.lt_of_ok h
  rw [Core.rf, Core.rd_wr_same]
  apply Nat.eq_of_testBit_eq
  intro b
  rw [testBit_bits, testBit_bits, Nat.testBit_mod_two_pow]
  by_cases hb : b < f.hi + 1 - f.lo
  · simp [show f.lo + b < 64 by omega]
  · simp [hb]

/-- A field written a value that it holds reads that value. -/
theorem Core.rf_wf_fits (h : f.ok = true) (hv : v ≤ f.top) : (c.wf f i v).rf f i = v := by
  have hpos := Nat.two_pow_pos (f.hi + 1 - f.lo)
  rw [Fld.top] at hv
  rw [c.rf_wf_same f i v h, Nat.mod_eq_of_lt (by omega)]

theorem Core.rf_le_top : c.rf f i ≤ f.top := Nat.le_sub_one_of_lt (bits_lt _ _ _)

theorem Core.flag_eq_true : c.flag f i = true ↔ c.rf f i = 1 := beq_iff_eq

end

theorem bitOf_toNat (w : Word) (k : Nat) : bitOf w.toNat k = w.getLsbD k := rfl

/-! ### Host memory -/

section
variable (c : Core) (a : Nat)

theorem Core.writeHost_cons (b : Byte) (bs : List Byte) :
    c.writeHost a (b :: bs) = ({ c with host := c.host.put zeroByte a b } : Core).writeHost (a + 1) bs := by
  simp [Core.writeHost, upFrom_succ, threadAll]

theorem Core.readHost_succ (n : Nat) : c.readHost a (n + 1) = c.host.get zeroByte a :: c.readHost (a + 1) n := by
  simp [Core.readHost, upFrom_succ]

theorem Core.readHost_of_host {c c' : Core} (h : c'.host = c.host) (a n : Nat) : c'.readHost a n = c.readHost a n := by
  rw [Core.readHost, Core.readHost, h]

@[simp] theorem Core.wf_readHost (f : Fld) (i v n : Nat) : (c.wf f i v).readHost a n = c.readHost a n := rfl

@[simp] theorem Core.count_readHost (f : Fld) (i k n : Nat) : (c.count f i k).readHost a n = c.readHost a n := rfl

/-- A write of host memory leaves the bytes beside it. -/
theorem Core.get_writeHost_beside (bs : List Byte) {x : Nat} (h : x < a ∨ a + bs.length ≤ x) :
    (c.writeHost a bs).host.get zeroByte x = c.host.get zeroByte x := by
  induction bs generalizing c a with
  | nil => rfl
  | cons b r ih =>
    rw [List.length_cons] at h
    rw [Core.writeHost_cons, ih _ _ (by omega)]
    exact SMap.get_put_other _ _ _ (by omega)

/-- What is written to host memory is read. -/
theorem Core.readHost_writeHost (bs : List Byte) : (c.writeHost a bs).readHost a bs.length = bs := by
  induction bs generalizing c a with
  | nil => rfl
  | cons b r ih =>
    rw [List.length_cons, Core.readHost_succ, Core.writeHost_cons, ih, Core.get_writeHost_beside _ _ _ (by omega)]
    exact congrArg (· :: r) (SMap.get_put_same _ _ _ _)

/-- What a failed write of four words leaves: free bytes (assumption 39). -/
def Core.junk (c : Core) (a : Nat) : Core :=
  threadAll (fun (c : Core) k => c.fresh.2.writeHost (a + 8 * k) (leBytes 8 c.fresh.1.toNat)) c [0, 1, 2, 3]

theorem Core.get_junk_beside {x : Nat} (h : x < a ∨ a + 32 ≤ x) : (c.junk a).host.get zeroByte x = c.host.get zeroByte x := by
  refine threadAll_inv_mem (P := fun d : Core => d.host.get zeroByte x = c.host.get zeroByte x) (fun d k hk hd => ?_) c rfl
  have hlt : k < 4 := by
    simp only [List.mem_cons, List.not_mem_nil, or_false] at hk
    omega
  rw [Core.get_writeHost_beside _ _ _ (by rw [length_leBytes]; omega)]
  exact hd

/-- A failed write changes 32 bytes of host memory and the count of free values alone. -/
theorem Core.junk_eq : ∃ m f, c.junk a = { c with host := m, free := f } ∧
    ∀ x, x < a ∨ a + 32 ≤ x → m.get zeroByte x = c.host.get zeroByte x := by
  have honly : ∃ m f, c.junk a = { c with host := m, free := f } := by
    refine threadAll_inv (fun d : Core => ∃ m f, d = { c with host := m, free := f }) ?_ _ c ⟨c.host, c.free, rfl⟩
    rintro d k ⟨m, f, rfl⟩
    exact ⟨_, _, rfl⟩
  obtain ⟨m, f, hm⟩ := honly
  refine ⟨m, f, hm, fun x hx => ?_⟩
  rw [← c.get_junk_beside a hx, hm]

@[simp] theorem Core.junk_rf (f : Fld) (i : Nat) : (c.junk a).rf f i = c.rf f i := by
  obtain ⟨m, k, hjunk, -⟩ := c.junk_eq a
  rw [hjunk]
  rfl

end

end Sys2Proof.Machine
end

section
/-! PROOFS. Event queues (R69, R72 to R76): enabling, the head, a failed write, moderation, the log, O31. -/

namespace Sys2Proof.Machine

section
variable (c : Core) (n : Nat)

@[simp] theorem Core.setEvq_rf (q : QHid) (f : Fld) (i : Nat) : (c.setEvq n q).rf f i = c.rf f i := rfl

@[simp] theorem Core.wr_evq? (r : Reg) (i v : Nat) : (c.wr r i v).evq? n = c.evq? n := rfl

@[simp] theorem Core.wf_evq? (f : Fld) (i v : Nat) : (c.wf f i v).evq? n = c.evq? n := rfl

@[simp] theorem Core.count_evq? (f : Fld) (i k : Nat) : (c.count f i k).evq? n = c.evq? n := rfl

@[simp] theorem Core.evq?_setEvq_same (q : QHid) : (c.setEvq n q).evq? n = q := SMap.get_put_same _ _ _ _

/-- A queue whose pointers are both 0 has no unread record. -/
theorem Core.evUnread_of_zero {c : Core} {n : Nat} (ht : c.rf Regs.EVT_Q_TAIL_TAIL n = 0) (hh : c.rf Regs.EVT_Q_HEAD_HEAD n = 0) :
    c.evUnread n = 0 := by
  simp [Core.evUnread, ht, hh]

/-! ### Writes of Q_CTRL -/

/-- What a write of Q_CTRL stores beside ENABLE. -/
def qRest (n w : Nat) : Nat := (if n = 0 then bits w 1 1 else 0) * 2 + bits w 7 4 * 16 + bits w 26 16 * 2 ^ 16

/-- The fields of the word that a write of Q_CTRL stores. -/
theorem bits_qRest (n w : Nat) {e : Nat} (he : e ≤ 1) :
    bits (qRest n w + e) 0 0 = e ∧ bits (qRest n w + e) 7 4 = bits w 7 4 ∧ bits (qRest n w + e) 26 16 = bits w 26 16 := by
  have hcopy : (if n = 0 then bits w 1 1 else 0) < 2 := by
    split
    · exact bits_lt w 1 1
    · decide
  have hcls : bits w 7 4 < 16 := bits_lt w 7 4
  have hvec : bits w 26 16 < 2048 := bits_lt w 26 16
  rw [qRest]
  generalize (if n = 0 then bits w 1 1 else 0) = copy at *
  generalize bits w 7 4 = cls at *
  generalize bits w 26 16 = vec at *
  simp only [bits, Nat.shiftRight_eq_div_pow]
  omega

/-- Whether a queue may have a size (R76). -/
def qSizeOk (size : Nat) : Bool := isPow2 size && decide (64 ≤ size) && decide (size ≤ 65536)

/-- The device with queue `n` enabled and empty. -/
def Core.qEnabled (w : Nat) : Core :=
  let q : QHid := { base := c.rf Regs.EVT_Q_BASE_BASE n * 4096, size := c.rf Regs.EVT_Q_SIZE_SIZE n }
  ((((c.setEvq n q).wf Regs.EVT_Q_TAIL_TAIL n 0).wf Regs.EVT_Q_HEAD_HEAD n 0).wr Regs.EVT_Q_CTRL n (qRest n w + 1)).wf Regs.EVT_Q_STATUS_ACTIVE n 1

theorem Core.qCtrl_eq (w : Nat) : c.qCtrl n w =
    if bitOf w 0 && !c.flag Regs.EVT_Q_CTRL_ENABLE n then
      if qSizeOk (c.rf Regs.EVT_Q_SIZE_SIZE n) then c.qEnabled n w
      else (c.wr Regs.EVT_Q_CTRL n (qRest n w)).wf Regs.EVT_Q_STATUS_CFG_ERR n 1
    else if bitOf w 0 then c.wr Regs.EVT_Q_CTRL n (qRest n w + b2n (bitOf w 0))
    else (c.wr Regs.EVT_Q_CTRL n (qRest n w + b2n (bitOf w 0))).wf Regs.EVT_Q_STATUS_ACTIVE n 0 := rfl

/-- What commands of an event queue leave: tiles, partitions, items, waiting events, scratchpad and device memory. -/
def Core.keepsUnits (c c' : Core) : Prop :=
  c'.tiles = c.tiles ∧ c'.parts = c.parts ∧ c'.items = c.items ∧ c'.evtBuf = c.evtBuf ∧ c'.scratch = c.scratch ∧ c'.dram = c.dram

theorem Core.keepsUnits.refl : c.keepsUnits c := ⟨rfl, rfl, rfl, rfl, rfl, rfl⟩

theorem Core.keepsUnits_junk (a : Nat) : c.keepsUnits (c.junk a) := by
  obtain ⟨m, f, hjunk, -⟩ := c.junk_eq a
  rw [hjunk]
  exact ⟨rfl, rfl, rfl, rfl, rfl, rfl⟩

section
variable {c} {d : Core} (h : c.keepsUnits d)
include h

theorem Core.keepsUnits.wr (r : Reg) (i v : Nat) : c.keepsUnits (d.wr r i v) := h

theorem Core.keepsUnits.wf (f : Fld) (i v : Nat) : c.keepsUnits (d.wf f i v) := h

theorem Core.keepsUnits.count (f : Fld) (i k : Nat) : c.keepsUnits (d.count f i k) := h

theorem Core.keepsUnits.setEvq (i : Nat) (q : QHid) : c.keepsUnits (d.setEvq i q) := h

end

theorem Core.keepsUnits_qEnabled (w : Nat) : c.keepsUnits (c.qEnabled n w) :=
  (((((Core.keepsUnits.refl c).setEvq n _).wf _ _ _).wf _ _ _).wr _ _ _).wf _ _ _

end

section
variable {n : FnId} {w : Word} {s : State}

theorem evtQEnable_enables (hw : w.getLsbD 0 = true) (hoff : s.core.flag Regs.EVT_Q_CTRL_ENABLE n.val = false)
    (hok : qSizeOk (s.core.rf Regs.EVT_Q_SIZE_SIZE n.val) = true) :
    Answers s (.evtQEnable n w) (fun c => c.rf Regs.EVT_Q_STATUS_ACTIVE n.val = 1 ∧ c.rf Regs.EVT_Q_CTRL_ENABLE n.val = 1 ∧
      c.evUnread n.val = 0 ∧ c.rf Regs.EVT_Q_CTRL_CLASS_MAX n.val = bits w.toNat 7 4 ∧ c.rf Regs.EVT_Q_CTRL_VECTOR n.val = bits w.toNat 26 16 ∧
      (c.evq? n.val).base = s.core.rf Regs.EVT_Q_BASE_BASE n.val * 4096 ∧ (c.evq? n.val).size = s.core.rf Regs.EVT_Q_SIZE_SIZE n.val ∧
      s.core.keepsUnits c) := by
  refine answers_on (f := fun c => c.qCtrl n.val w.toNat) rfl ?_
  rw [Core.qCtrl_eq, bitOf_toNat, hw, hoff, hok]
  obtain ⟨henable, hcls, hvec⟩ := bits_qRest n.val w.toNat (le_refl 1)
  simp only [Bool.not_false, Bool.and_self, if_true]
  refine ⟨?_, ?_, Core.evUnread_of_zero ?_ ?_, ?_, ?_, ?_, ?_, s.core.keepsUnits_qEnabled _ _⟩
  · exact Core.rf_wf_fits _ _ _ (by decide) (by decide)
  · simp (disch := decide) only [Core.qEnabled, Core.rf_wf_apart, Core.rf_wr_same]
    exact henable
  · simp (disch := decide) only [Core.qEnabled, Core.rf_wf_apart, Core.rf_wr_apart, Core.rf_wf_fits]
  · simp (disch := decide) only [Core.qEnabled, Core.rf_wf_apart, Core.rf_wr_apart, Core.rf_wf_fits]
  · simp (disch := decide) only [Core.qEnabled, Core.rf_wf_apart, Core.rf_wr_same]
    exact hcls
  · simp (disch := decide) only [Core.qEnabled, Core.rf_wf_apart, Core.rf_wr_same]
    exact hvec
  · simp only [Core.qEnabled, Core.wf_evq?, Core.wr_evq?, Core.evq?_setEvq_same]
  · simp only [Core.qEnabled, Core.wf_evq?, Core.wr_evq?, Core.evq?_setEvq_same]

theorem evtQEnable_refuses (hw : w.getLsbD 0 = true) (hoff : s.core.flag Regs.EVT_Q_CTRL_ENABLE n.val = false)
    (hbad : qSizeOk (s.core.rf Regs.EVT_Q_SIZE_SIZE n.val) = false) :
    Answers s (.evtQEnable n w) (fun c => c.rf Regs.EVT_Q_STATUS_CFG_ERR n.val = 1 ∧ c.rf Regs.EVT_Q_CTRL_ENABLE n.val = 0 ∧
      c.rf Regs.EVT_Q_STATUS_ACTIVE n.val = s.core.rf Regs.EVT_Q_STATUS_ACTIVE n.val ∧ s.core.keepsUnits c) := by
  refine answers_on (f := fun c => c.qCtrl n.val w.toNat) rfl ?_
  rw [Core.qCtrl_eq, bitOf_toNat, hw, hoff, hbad]
  obtain ⟨hdisable, -⟩ := bits_qRest n.val w.toNat (Nat.zero_le 1)
  simp only [Bool.not_false, Bool.and_self, if_true, Bool.false_eq_true, if_false]
  refine ⟨Core.rf_wf_fits _ _ _ (by decide) (by decide), ?_, ?_, ((Core.keepsUnits.refl _).wr _ _ _).wf _ _ _⟩
  · simp (disch := decide) only [Core.rf_wf_apart, Core.rf_wr_same]
    exact hdisable
  · simp (disch := decide) only [Core.rf_wf_beside, Core.rf_wr_apart]

theorem evtQEnable_disables (hw : w.getLsbD 0 = false) :
    Answers s (.evtQEnable n w) (fun c => c.rf Regs.EVT_Q_STATUS_ACTIVE n.val = 0 ∧ c.rf Regs.EVT_Q_CTRL_ENABLE n.val = 0 ∧
      s.core.keepsUnits c) := by
  refine answers_on (f := fun c => c.qCtrl n.val w.toNat) rfl ?_
  rw [Core.qCtrl_eq, bitOf_toNat, hw]
  obtain ⟨hdisable, -⟩ := bits_qRest n.val w.toNat (Nat.zero_le 1)
  simp only [Bool.false_and, Bool.false_eq_true, if_false]
  refine ⟨Core.rf_wf_fits _ _ _ (by decide) (by decide), ?_, ((Core.keepsUnits.refl _).wr _ _ _).wf _ _ _⟩
  simp (disch := decide) only [Core.rf_wf_apart, Core.rf_wr_same]
  exact hdisable

/-! ### Writes of Q_HEAD -/

theorem evtQHeadWrite_moves
    (h : w.toNat < if s.core.flag Regs.EVT_Q_STATUS_ACTIVE n.val then (s.core.evq? n.val).size else s.core.rf Regs.EVT_Q_SIZE_SIZE n.val) :
    Answers s (.evtQHeadWrite n w) (fun c => c.rf Regs.EVT_Q_HEAD_HEAD n.val = w.toNat % 65536 ∧
      c.rf Regs.EVT_Q_STATUS_CFG_ERR n.val = s.core.rf Regs.EVT_Q_STATUS_CFG_ERR n.val ∧ s.core.keepsUnits c) := by
  refine answers_on (f := fun c => c.qHead n.val w.toNat) rfl ?_
  rw [Core.qHead, if_neg (not_le.mpr h)]
  exact ⟨Core.rf_wf_same _ _ _ _ (by decide), Core.rf_wf_apart _ _ _ _ (by decide), (Core.keepsUnits.refl _).wf _ _ _⟩

theorem evtQHeadWrite_refuses
    (h : (if s.core.flag Regs.EVT_Q_STATUS_ACTIVE n.val then (s.core.evq? n.val).size else s.core.rf Regs.EVT_Q_SIZE_SIZE n.val) ≤ w.toNat) :
    Answers s (.evtQHeadWrite n w) (fun c => c.rf Regs.EVT_Q_STATUS_CFG_ERR n.val = 1 ∧
      c.rf Regs.EVT_Q_HEAD_HEAD n.val = s.core.rf Regs.EVT_Q_HEAD_HEAD n.val ∧ s.core.keepsUnits c) := by
  refine answers_on (f := fun c => c.qHead n.val w.toNat) rfl ?_
  rw [Core.qHead, if_pos h]
  exact ⟨Core.rf_wf_fits _ _ _ (by decide) (by decide), Core.rf_wf_apart _ _ _ _ (by decide), (Core.keepsUnits.refl _).wf _ _ _⟩

/-! ### A failed write -/

/-- The device after the failed write of the newest record of queue `n`, whose slot is `t` (R73). -/
def Core.evWriteFailed (c : Core) (n t : Nat) : Core :=
  let q := c.evq? n
  let d := ((c.junk (q.base + 32 * t)).setEvq n { q with unsignalled := q.unsignalled - 1 }).wf Regs.EVT_Q_TAIL_TAIL n t
  (((d.count Regs.EVT_Q_DROPPED_DROPPED n).wf Regs.EVT_Q_CTRL_ENABLE n 0).wf Regs.EVT_Q_STATUS_ACTIVE n 0).wf Regs.EVT_Q_STATUS_WRITE_ERR n 1

theorem exec_evtQueueWriteFail (hact : s.core.flag Regs.EVT_Q_STATUS_ACTIVE n.val = true) (hun : s.core.evUnread n.val ≠ 0)
    (ht : 0 < s.core.rf Regs.EVT_Q_TAIL_TAIL n.val) :
    exec (.evtQueueWriteFail n) s = s.on (fun c => c.evWriteFailed n.val (s.core.rf Regs.EVT_Q_TAIL_TAIL n.val - 1)) := by
  show execEvtQueueWriteFail n s = _
  simp only [execEvtQueueWriteFail, State.on, hact, beq_eq_false_iff_ne.mpr hun, Nat.pos_iff_ne_zero.mp ht, Bool.not_true, Bool.or_self,
    Bool.false_eq_true, if_false]
  rfl

theorem evtQueueWriteFail_stops (hact : s.core.flag Regs.EVT_Q_STATUS_ACTIVE n.val = true) (hun : s.core.evUnread n.val ≠ 0)
    (ht : 0 < s.core.rf Regs.EVT_Q_TAIL_TAIL n.val) :
    Answers s (.evtQueueWriteFail n) (fun c => c.rf Regs.EVT_Q_STATUS_ACTIVE n.val = 0 ∧ c.rf Regs.EVT_Q_CTRL_ENABLE n.val = 0 ∧
      c.rf Regs.EVT_Q_STATUS_WRITE_ERR n.val = 1 ∧ c.rf Regs.EVT_Q_TAIL_TAIL n.val = s.core.rf Regs.EVT_Q_TAIL_TAIL n.val - 1 ∧
      c.rf Regs.EVT_Q_DROPPED_DROPPED n.val = min (s.core.rf Regs.EVT_Q_DROPPED_DROPPED n.val + 1) (2 ^ 64 - 1) ∧ s.core.keepsUnits c) := by
  refine answers_on (exec_evtQueueWriteFail hact hun ht) ?_
  have htop : s.core.rf Regs.EVT_Q_TAIL_TAIL n.val - 1 ≤ Regs.EVT_Q_TAIL_TAIL.top := (Nat.sub_le _ _).trans (Core.rf_le_top _ _)
  refine ⟨?_, ?_, Core.rf_wf_fits _ _ _ (by decide) (by decide), ?_, ?_, ?_⟩
  · simp (disch := decide) only [Core.evWriteFailed, Core.rf_wf_beside, Core.rf_wf_fits]
  · simp (disch := decide) only [Core.evWriteFailed, Core.rf_wf_apart, Core.rf_wf_fits]
  · simp (disch := decide) only [Core.evWriteFailed, Core.rf_wf_apart, Core.rf_count_apart]
    exact Core.rf_wf_fits _ _ _ (by decide) htop
  · simp (disch := decide) only [Core.evWriteFailed, Core.rf_wf_apart, Core.rf_count_same, Core.setEvq_rf, Core.junk_rf]
    rfl
  · exact ((((((s.core.keepsUnits_junk _).setEvq _ _).wf _ _ _).count _ _ _).wf _ _ _).wf _ _ _).wf _ _ _

/-! ### Moderation and the log -/

theorem evtQModTimer_raises (htimer : s.core.rf Regs.EVT_Q_MOD_TIMER n.val ≠ 0) (hun : (s.core.evq? n.val).unsignalled ≠ 0)
    (hdue : (s.core.evq? n.val).firstTick + s.core.rf Regs.EVT_Q_MOD_TIMER n.val ≤ s.core.tick) :
    Answers s (.evtQModTimer n) (fun c => c.out = s.core.out ++ [⟨0, [n.val, s.core.rf Regs.EVT_Q_CTRL_VECTOR n.val]⟩] ∧
      (c.evq? n.val).unsignalled = 0 ∧ c.regs = s.core.regs ∧ s.core.keepsUnits c) := by
  have hexec : exec (.evtQModTimer n) s = s.on (fun c => c.evVector n.val) := by
    show execEvtQModTimer n s = _
    simp only [execEvtQModTimer, State.on, beq_eq_false_iff_ne.mpr htimer, beq_eq_false_iff_ne.mpr hun, decide_eq_false (not_lt.mpr hdue),
      Bool.or_self, Bool.false_eq_true, if_false]
  refine answers_on hexec ⟨rfl, ?_, rfl, rfl, rfl, rfl, rfl, rfl, rfl⟩
  exact congrArg QHid.unsignalled (s.core.evq?_setEvq_same n.val _)

/-- The last word of an event record is INFO1. -/
theorem leNat_drop_evtBytes (ts seq : Nat) (e : Evt) (phase : Bool) : leNat ((evtBytes ts seq e phase).drop 24) = e.info1 % 2 ^ 64 := by
  rw [evtBytes, List.drop_left' (by simp [length_leBytes]), leNat_leBytes]

theorem logDataRead_marks (hv : (s.core.log.get logDefault (s.core.rf Regs.EVT_LOG_INDEX_INDEX)).valid = true) :
    Answers s .logDataRead (fun c =>
      c.resp = .data (BitVec.ofNat 64 (s.core.log.get logDefault (s.core.rf Regs.EVT_LOG_INDEX_INDEX)).evt.info1) ∧
      (∀ j, c.log.get logDefault j = if j = s.core.rf Regs.EVT_LOG_INDEX_INDEX
        then { s.core.log.get logDefault (s.core.rf Regs.EVT_LOG_INDEX_INDEX) with read := true } else s.core.log.get logDefault j) ∧
      c.regs = s.core.regs ∧ s.core.keepsUnits c) := by
  refine ⟨_, rfl, ?_, fun j => ?_, rfl, rfl, rfl, rfl, rfl, rfl, rfl⟩
  · simp only [Core.logBytes, hv, if_true, leNat_drop_evtBytes]
    exact congrArg Resp.data (BitVec.eq_of_toNat_eq (by simp))
  · simp only [hv, if_true, SMap.get_put]

end

/-- Settles O31, one clause for each command and outcome. -/
theorem eventQueues : Obligations.EventQueues := by
  intro n w s
  refine ⟨fun hw hoff hp hlo hhi => evtQEnable_enables hw hoff ?_, fun hw hoff hbad => evtQEnable_refuses hw hoff ?_,
    fun hw => evtQEnable_disables hw, ⟨fun h => evtQHeadWrite_moves h, fun h => evtQHeadWrite_refuses h⟩,
    fun hact hun ht => evtQueueWriteFail_stops hact hun ht, fun htimer hun hdue => evtQModTimer_raises htimer hun hdue,
    fun hv => logDataRead_marks hv⟩
  · simp [qSizeOk, hp, hlo, hhi]
  · rcases hbad with hp | hlo | hhi
    · simp [qSizeOk, hp]
    · simp [qSizeOk, hlo]
    · simp [qSizeOk, hhi]

end Sys2Proof.Machine
end

section
/-! PROOFS. The record of an event in its queue (R67, R71 to R74): its bytes, the queue's pointers and phase, what is dropped, O32. -/

namespace Sys2Proof.Machine

@[simp] theorem Core.writeHost_rf (c : Core) (a : Nat) (bs : List Byte) (f : Fld) (j : Nat) : (c.writeHost a bs).rf f j = c.rf f j := rfl

theorem length_evtBytes (ts seq : Nat) (e : Evt) (phase : Bool) : (evtBytes ts seq e phase).length = 32 := by
  simp [evtBytes, length_leBytes]

section
variable (c : Core) (n seq : Nat) (e : Evt)

/-- The device with the record of an event in the next slot of queue `n`, before its vector. -/
def Core.evRecord : Core :=
  let q := c.evq? n
  let t := c.rf Regs.EVT_Q_TAIL_TAIL n
  let d := (c.writeHost (q.base + 32 * t) (evtBytes c.ts seq e q.phase)).setEvq n { q with
    phase := if t + 1 == q.size then !q.phase else q.phase
    unsignalled := q.unsignalled + 1
    firstTick := if q.unsignalled = 0 then c.tick else q.firstTick }
  d.wf Regs.EVT_Q_TAIL_TAIL n (if t + 1 == q.size then 0 else t + 1)

theorem Core.evPut_eq : c.evPut n seq e =
    if e.cls ≤ 4 ∨ max 1 ((c.evRecord n seq e).rf Regs.EVT_Q_MOD_COUNT n) ≤ (c.evRecord n seq e).evUnread n
    then (c.evRecord n seq e).evVector n else c.evRecord n seq e := rfl

theorem Core.evq?_evVector : (c.evVector n).evq? n = { c.evq? n with unsignalled := 0 } := c.evq?_setEvq_same n _

theorem Core.evVector_view : (c.evVector n).regs = c.regs ∧ (c.evVector n).host = c.host := ⟨rfl, rfl⟩

/-- Raising the vector leaves the registers, host memory and the phase. -/
theorem Core.evPut_view : (c.evPut n seq e).regs = (c.evRecord n seq e).regs ∧ (c.evPut n seq e).host = (c.evRecord n seq e).host ∧
    ((c.evPut n seq e).evq? n).phase = ((c.evRecord n seq e).evq? n).phase := by
  rw [Core.evPut_eq]
  split
  · obtain ⟨hregs, hhost⟩ := (c.evRecord n seq e).evVector_view n
    exact ⟨hregs, hhost, by rw [Core.evq?_evVector]⟩
  · exact ⟨rfl, rfl, rfl⟩

theorem Core.rf_evPut (f : Fld) (i : Nat) : (c.evPut n seq e).rf f i = (c.evRecord n seq e).rf f i :=
  Core.rf_of_regs (c.evPut_view n seq e).1 f i

theorem Core.host_evPut : (c.evPut n seq e).host =
    (c.writeHost ((c.evq? n).base + 32 * c.rf Regs.EVT_Q_TAIL_TAIL n) (evtBytes c.ts seq e (c.evq? n).phase)).host :=
  (c.evPut_view n seq e).2.1

theorem Core.phase_evPut : ((c.evPut n seq e).evq? n).phase =
    if c.rf Regs.EVT_Q_TAIL_TAIL n + 1 = (c.evq? n).size then !(c.evq? n).phase else (c.evq? n).phase := by
  rw [(c.evPut_view n seq e).2.2, Core.evRecord]
  simp only [Core.wf_evq?, Core.evq?_setEvq_same, beq_iff_eq]

/-- The slot holds the record's bytes. -/
theorem Core.readHost_evPut : (c.evPut n seq e).readHost ((c.evq? n).base + 32 * c.rf Regs.EVT_Q_TAIL_TAIL n) 32 =
    evtBytes c.ts seq e (c.evq? n).phase := by
  rw [Core.readHost_of_host (c.host_evPut n seq e)]
  have hread := c.readHost_writeHost ((c.evq? n).base + 32 * c.rf Regs.EVT_Q_TAIL_TAIL n) (evtBytes c.ts seq e (c.evq? n).phase)
  rwa [length_evtBytes] at hread

/-- Every byte beside the slot stays. -/
theorem Core.readHost_evPut_beside {a : Nat} (h : a < (c.evq? n).base + 32 * c.rf Regs.EVT_Q_TAIL_TAIL n ∨
    (c.evq? n).base + 32 * c.rf Regs.EVT_Q_TAIL_TAIL n + 32 ≤ a) : (c.evPut n seq e).readHost a 1 = c.readHost a 1 := by
  rw [Core.readHost_of_host (c.host_evPut n seq e), Core.readHost_succ, Core.readHost_succ,
    Core.get_writeHost_beside _ _ _ (by rw [length_evtBytes]; exact h)]
  rfl

/-- TAIL moves to the next slot, or back to the first (R72). -/
theorem Core.rf_tail_evPut (hs : (c.evq? n).size ≤ 65536) (ht : c.rf Regs.EVT_Q_TAIL_TAIL n < (c.evq? n).size) :
    (c.evPut n seq e).rf Regs.EVT_Q_TAIL_TAIL n =
      if c.rf Regs.EVT_Q_TAIL_TAIL n + 1 = (c.evq? n).size then 0 else c.rf Regs.EVT_Q_TAIL_TAIL n + 1 := by
  have hfits : (if c.rf Regs.EVT_Q_TAIL_TAIL n + 1 = (c.evq? n).size then 0 else c.rf Regs.EVT_Q_TAIL_TAIL n + 1) ≤ 65535 := by
    split <;> omega
  rw [Core.rf_evPut, Core.evRecord]
  simp only [beq_iff_eq]
  exact Core.rf_wf_fits _ _ _ (by decide) hfits

/-- Registers beside TAIL stay. -/
theorem Core.rf_evPut_apart {f : Fld} (h : f.reg.apart Regs.EVT_Q_TAIL = true) (i : Nat) : (c.evPut n seq e).rf f i = c.rf f i := by
  rw [Core.rf_evPut, Core.evRecord, Core.rf_wf_apart _ _ _ _ h, Core.setEvq_rf, Core.writeHost_rf]

/-- The event that stands in for one that would fill the queue (R72). -/
def overflowEvt (n : Nat) : Evt := ⟨Cls.info, Src.timebase, if n = 0 then devPart else n - 1, 0x0105, n, 0⟩

section
variable {c n e} (hlost : c.lost = false) (hcls : e.cls ≤ c.rf Regs.EVT_Q_CTRL_CLASS_MAX n)
include hlost hcls

theorem Core.evJudge_room (hact : c.flag Regs.EVT_Q_STATUS_ACTIVE n = true) (hroom : c.evUnread n + 2 < (c.evq? n).size) :
    c.evJudge n seq e = c.evPut n seq e := by
  simp only [Core.evJudge, hlost, decide_eq_false (not_lt.mpr hcls), hact, show ¬(c.evq? n).size ≤ c.evUnread n + 1 by omega, hroom.ne,
    Bool.or_self, Bool.not_true, Bool.false_eq_true, if_false]

theorem Core.evJudge_last (hact : c.flag Regs.EVT_Q_STATUS_ACTIVE n = true) (hlast : c.evUnread n + 2 = (c.evq? n).size) :
    c.evJudge n seq e = ((c.evPut n seq (overflowEvt n)).wf Regs.EVT_Q_STATUS_OVERFLOW n 1).count Regs.EVT_Q_DROPPED_DROPPED n := by
  simp only [Core.evJudge, hlost, decide_eq_false (not_lt.mpr hcls), hact, show ¬(c.evq? n).size ≤ c.evUnread n + 1 by omega, hlast,
    Bool.or_self, Bool.not_true, Bool.false_eq_true, if_false, if_true]
  rfl

theorem Core.evJudge_drops (h : c.flag Regs.EVT_Q_STATUS_ACTIVE n = false ∨ (c.evq? n).size ≤ c.evUnread n + 1) :
    c.evJudge n seq e = c.count Regs.EVT_Q_DROPPED_DROPPED n := by
  cases hact : c.flag Regs.EVT_Q_STATUS_ACTIVE n with
  | false => simp [Core.evJudge, hlost, not_lt.mpr hcls, hact]
  | true => simp [Core.evJudge, hlost, not_lt.mpr hcls, hact, h.resolve_left (by simp [hact])]

end

end

/-- Settles O32: with room the event's record is put, with one slot left the overflow's, else the event is counted alone. -/
theorem eventRecords : Obligations.EventRecords := by
  intro c n seq e _ hlost hcls
  refine ⟨fun hact hroom hs ht => ?_, fun hact hlast hs ht => ?_, fun h => ?_⟩
  · rw [Core.evJudge_room seq hlost hcls hact hroom]
    exact ⟨⟨c.readHost_evPut n seq e, fun a ha => c.readHost_evPut_beside n seq e ha, c.rf_tail_evPut n seq e hs ht, c.phase_evPut n seq e⟩,
      c.rf_evPut_apart n seq e (by decide) n⟩
  · rw [Core.evJudge_last seq hlost hcls hact hlast]
    simp only [Core.count_readHost, Core.wf_readHost, Core.count_evq?, Core.wf_evq?]
    refine ⟨⟨c.readHost_evPut n seq _, fun a ha => c.readHost_evPut_beside n seq _ ha, ?_, c.phase_evPut n seq _⟩, ?_, ?_⟩
    · simp (disch := decide) only [Core.rf_count_apart, Core.rf_wf_apart]
      exact c.rf_tail_evPut n seq _ hs ht
    · simp (disch := decide) only [Core.rf_count_apart, Core.rf_wf_fits]
    · simp (disch := decide) only [Core.rf_count_same, Core.rf_wf_apart, Core.rf_evPut_apart]
      rfl
  · rw [Core.evJudge_drops seq hlost hcls h]
    exact ⟨c.rf_count_same _ _ _ (by decide), rfl⟩

end Sys2Proof.Machine
end

section
/-! PROOFS. Region skew (R47 to R52): what a sample clamps, what the end and the age of a clamp do. -/

namespace Sys2Proof

/-- A thread of steps that each may set a bit sets it exactly where one of them does. -/
theorem threadAll_any {α β : Type} (v : α → Bool) (p : β → Bool) {f : α → β → α} {l : List β} (h : ∀ a, ∀ b ∈ l, v (f a b) = (v a || p b)) (a : α) :
    v (threadAll f a l) = (v a || l.any p) := by
  induction l generalizing a with
  | nil => simp [threadAll]
  | cons b r ih =>
    rw [threadAll, ih (fun a c hc => h a c (List.mem_cons_of_mem _ hc)), h a b List.mem_cons_self, List.any_cons, Bool.or_assoc]

namespace Machine

/-! ### The clamp -/

theorem Core.clamped_of_rf {c c' : Core} (h : c'.rf Regs.EVT_SKEW_STATUS_CLAMPED = c.rf Regs.EVT_SKEW_STATUS_CLAMPED) (q : Nat) :
    c'.clamped q = c.clamped q := by
  rw [Core.clamped, Core.clamped, h]

/-- The clamps read the low bits of the value written. -/
theorem Core.clamped_wf (c : Core) (v : Nat) {q : Nat} (hq : q < 4) : (c.wf Regs.EVT_SKEW_STATUS_CLAMPED 0 v).clamped q = v.testBit q := by
  have hrf : (c.wf Regs.EVT_SKEW_STATUS_CLAMPED 0 v).rf Regs.EVT_SKEW_STATUS_CLAMPED 0 = v % 2 ^ 4 := c.rf_wf_same _ 0 v (by decide)
  rw [Core.clamped, hrf, bitOf, Nat.testBit_mod_two_pow]
  simp [hq]

theorem Core.clamped_count (c : Core) (i n q : Nat) : (c.count Regs.EVT_SKEW_CLAMPS_COUNT i n).clamped q = c.clamped q := by
  refine Core.clamped_of_rf (c.rf_count_other n ?_) q
  simp only [Reg.at, Reg.offsetOf, Regs.EVT_SKEW_STATUS_CLAMPED, Regs.EVT_SKEW_STATUS, Regs.EVT_SKEW_CLAMPS_COUNT, Regs.EVT_SKEW_CLAMPS]
  omega

theorem Core.clamped_evt (c : Core) (a b d e f g q : Nat) : (c.evt a b d e f g).clamped q = c.clamped q := rfl

/-- A quadrant clamped is clamped; the others are as they were. -/
theorem Core.clamped_clampQuad (c : Core) (x : QuadSample) {w : Nat} (other : Nat) {q : Nat} (hq : q < 4) :
    (c.clampQuad x w other).clamped q = (c.clamped q || w == q) := by
  unfold Core.clampQuad
  split
  next hw =>
    by_cases hwq : w = q
    · subst hwq
      simp [hw]
    · simp [hwq]
  next =>
    rw [Core.clamped_evt, Core.clamped_count, Core.clamped_wf _ _ hq, Nat.testBit_or, Nat.testBit_two_pow]
    rfl

/-- What a pair of quadrants does at a sample (R49). -/
def clampPair (x : QuadSample) (c : Core) (e : Nat × Nat) : Core :=
  if !QuadSample.beyond x e.1 e.2 then c
  else
    if QuadSample.worse x e.1 e.2 = QuadSample.free x then c
    else c.clampQuad x (QuadSample.worse x e.1 e.2) (if QuadSample.worse x e.1 e.2 = e.1 then e.2 else e.1)

theorem exec_regionSkewClamp (x : QuadSample) (s : State) :
    exec (.regionSkewClamp x) s = s.on (fun c => threadAll (clampPair x) c quadPairs) := rfl

theorem clamped_clampPair (x : QuadSample) (c : Core) (e : Nat × Nat) {q : Nat} (hq : q < 4) :
    (clampPair x c e).clamped q =
      (c.clamped q || (QuadSample.beyond x e.1 e.2 && QuadSample.worse x e.1 e.2 == q && q != QuadSample.free x)) := by
  unfold clampPair
  split
  next hb => simp [show QuadSample.beyond x e.1 e.2 = false by simpa using hb]
  next hb =>
    have hbeyond : QuadSample.beyond x e.1 e.2 = true := by simpa using hb
    split
    next hfree =>
      by_cases hw : QuadSample.worse x e.1 e.2 = q
      · simp [← hfree, hw]
      · simp [hw]
    next hfree =>
      rw [Core.clamped_clampQuad _ _ _ hq]
      by_cases hw : QuadSample.worse x e.1 e.2 = q
      · subst hw
        simp [hbeyond, hfree]
      · simp only [beq_eq_false_iff_ne.mpr hw, Bool.and_false, Bool.false_and, Bool.or_false]

/-- A clamp writes registers, its list and an event. -/
theorem clampPair_view (x : QuadSample) (c : Core) (e : Nat × Nat) :
    ((clampPair x c e).tiles, (clampPair x c e).parts, (clampPair x c e).mems) = (c.tiles, c.parts, c.mems) := by
  unfold clampPair Core.clampQuad
  split
  · rfl
  · split
    · rfl
    · split <;> rfl

theorem QuadSample.free_lt (x : QuadSample) : QuadSample.free x < 4 := by
  simp only [QuadSample.free, List.foldl]
  split_ifs <;> decide

theorem regionSkewClamp_clamps (x : QuadSample) (s : State) : Answers s (.regionSkewClamp x) (fun c =>
    (∀ q, q < 4 → c.clamped q = (s.core.clamped q || quadPairs.any (fun e =>
      QuadSample.beyond x e.1 e.2 && QuadSample.worse x e.1 e.2 == q && q != QuadSample.free x))) ∧
    c.clamped (QuadSample.free x) = s.core.clamped (QuadSample.free x) ∧ c.tiles = s.core.tiles ∧ c.parts = s.core.parts ∧
    c.mems = s.core.mems) := by
  refine answers_on (exec_regionSkewClamp x s) ?_
  have hclamped : ∀ q, q < 4 → (threadAll (clampPair x) s.core quadPairs).clamped q = (s.core.clamped q || quadPairs.any (fun e =>
      QuadSample.beyond x e.1 e.2 && QuadSample.worse x e.1 e.2 == q && q != QuadSample.free x)) := fun q hq =>
    threadAll_any (fun c : Core => c.clamped q) _ (fun c e _ => clamped_clampPair x c e hq) s.core
  have hview := threadAll_view (fun c : Core => (c.tiles, c.parts, c.mems)) (fun c e => clampPair_view x c e) quadPairs s.core
  simp only [Prod.mk.injEq] at hview
  refine ⟨hclamped, ?_, hview⟩
  rw [hclamped _ (QuadSample.free_lt x)]
  simp

/-! ### What a barrier leaves of the clamps -/

/-- `c'` has the clamps and the memories of `c`, and the events of `c` stand first among its own. -/
def Core.keepsClamps (c c' : Core) : Prop :=
  c'.rd Regs.EVT_SKEW_STATUS = c.rd Regs.EVT_SKEW_STATUS ∧ c'.clamps = c.clamps ∧ c'.mems = c.mems ∧ c.evtBuf <+: c'.evtBuf

theorem Core.keepsClamps.refl (c : Core) : c.keepsClamps c := ⟨rfl, rfl, rfl, List.prefix_refl _⟩

theorem Core.keepsClamps.trans {a b c : Core} (h : a.keepsClamps b) (h' : b.keepsClamps c) : a.keepsClamps c := by
  obtain ⟨hr, hc, hm, he⟩ := h
  obtain ⟨hr', hc', hm', he'⟩ := h'
  exact ⟨hr'.trans hr, hc'.trans hc, hm'.trans hm, he.trans he'⟩

theorem Core.keepsClamps.ite {a b c : Core} {P : Prop} [Decidable P] (h : c.keepsClamps a) (h' : c.keepsClamps b) :
    c.keepsClamps (if P then a else b) := by
  split
  · exact h
  · exact h'

theorem Core.keepsClamps_threadAll {β : Type} {f : Core → β → Core} (h : ∀ c x, Core.keepsClamps c (f c x)) (l : List β) (c : Core) :
    c.keepsClamps (threadAll f c l) :=
  threadAll_inv (fun a => c.keepsClamps a) (fun a x ha => ha.trans (h a x)) l c (.refl c)

section
variable (c : Core)

theorem Core.keepsClamps_setPart (p : Nat) (x : Part) : c.keepsClamps (c.setPart p x) := ⟨rfl, rfl, rfl, List.prefix_refl _⟩

theorem Core.keepsClamps_setTile (t : Nat) (x : Tile) : c.keepsClamps (c.setTile t x) := ⟨rfl, rfl, rfl, List.prefix_refl _⟩

theorem Core.keepsClamps_evt (a b d e f g : Nat) : c.keepsClamps (c.evt a b d e f g) := ⟨rfl, rfl, rfl, List.prefix_append _ _⟩

/-- Registers of the tiles stand elsewhere than the clamps. -/
theorem Core.keepsClamps_wr {r : Reg} (h : 0x200000 ≤ r.base) (i v : Nat) : c.keepsClamps (c.wr r i v) := by
  refine ⟨c.rd_wr_other v ?_, rfl, rfl, List.prefix_refl _⟩
  simp only [Reg.at, Reg.offsetOf, Regs.EVT_SKEW_STATUS]
  omega

theorem Core.keepsClamps_emptyStash (t : Nat) : c.keepsClamps (c.emptyStash t) :=
  (((((c.keepsClamps_setTile t _).trans (Core.keepsClamps_wr _ (by decide) _ _)).trans (Core.keepsClamps_wr _ (by decide) _ _)).trans
    (Core.keepsClamps_wr _ (by decide) _ _)).trans (Core.keepsClamps_wr _ (by decide) _ _)).trans (Core.keepsClamps_wr _ (by decide) _ _)

/-- A barrier writes its partition and its tiles, and may post the new phase. -/
theorem Core.keepsClamps_tryBarrier (p : Nat) (boundary : Bool) : c.keepsClamps (c.tryBarrier p boundary) := by
  unfold Core.tryBarrier
  extract_lets st boundary
  split
  · exact .refl c
  next pr _ =>
    extract_lets stalls go
    have hgo : ∀ bwd, c.keepsClamps (go bwd) := by
      intro bwd
      dsimp only [go]
      refine .ite (.ite (c.keepsClamps_setPart _ _) (.ite (c.keepsClamps_setPart _ _) ?_)) (.refl c)
      refine .ite ?_ (Core.keepsClamps.trans ?_ (Core.keepsClamps_evt _ _ _ _ _ _ _))
      all_goals
        refine (c.keepsClamps_setPart _ _).trans (Core.keepsClamps_threadAll (fun a l => ?_) _ _)
        split
        · exact .ite ((a.keepsClamps_setTile _ _).trans (Core.keepsClamps_emptyStash _ _)) (a.keepsClamps_setTile _ _)
        · exact .refl a
    exact .ite (.refl c) (.ite (hgo true) (hgo false))

end

/-! ### The end and the age of a clamp -/

section
variable (c : Core)

/-- The event of a clamp's end, INFO0 its quadrant and its ticks (R51). -/
def skewEnd (c : Core) (q since : Nat) : Nat := q + satAt 32 (c.tick - since) * 2 ^ 32

/-- The device without the clamp of quadrant `q`, before its barriers go on. -/
def Core.unclamped (q since : Nat) : Core :=
  (({ c with clamps := c.clamps.filter (fun e => e.1 != q) } : Core).wf Regs.EVT_SKEW_STATUS_CLAMPED 0
    (setBits (c.rf Regs.EVT_SKEW_STATUS_CLAMPED) q q 0)).evt Cls.info (Src.region q) devPart 0x0101 (skewEnd c q since)

theorem Core.clamped_unclamped (q since : Nat) {u : Nat} (hu : u < 4) : (c.unclamped q since).clamped u = (c.clamped u && u != q) := by
  rw [Core.unclamped, Core.clamped_evt, Core.clamped_wf _ _ hu, testBit_setBits _ _ _ _ _ (le_refl q)]
  by_cases huq : u = q
  · simp [huq]
  · rw [if_neg (by omega)]
    simp [huq, Core.clamped, bitOf]

/-- Every event of a clamp's end fits its word. -/
theorem skewEnd_lt {q : Nat} (hq : q < 4) (since : Nat) : skewEnd c q since < 2 ^ 64 := by
  have hsat : satAt 32 (c.tick - since) ≤ 2 ^ 32 - 1 := min_le_right _ _
  rw [skewEnd]
  omega

end

section
variable {q : Fin 4} {s : State} {e : Nat × Nat × Nat × Bool}

theorem exec_regionSkewRelease (h : s.core.clamps.find? (fun e => e.1 == q.val) = some e) :
    exec (.regionSkewRelease q) s =
      s.on (fun c => threadAll (fun c p => c.tryBarrier p false) (c.unclamped q.val e.2.1) (List.range 16)) := by
  show execRegionSkewRelease q s = _
  simp only [execRegionSkewRelease, State.on, h]
  rfl

theorem regionSkewRelease_releases (h : s.core.clamps.find? (fun e => e.1 == q.val) = some e) :
    Answers s (.regionSkewRelease q) (fun c => (∀ u, u < 4 → c.clamped u = (s.core.clamped u && u != q.val)) ∧
      c.clamps = s.core.clamps.filter (fun e => e.1 != q.val) ∧ c.mems = s.core.mems ∧
      ∃ es, c.evtBuf =
        s.core.evtBuf ++ [⟨Cls.info, Src.region q.val, devPart, 0x0101, q.val + satAt 32 (s.core.tick - e.2.1) * 2 ^ 32, 0⟩] ++ es) := by
  refine answers_on (exec_regionSkewRelease h) ?_
  obtain ⟨hreg, hclamps, hmems, es, hevents⟩ :=
    Core.keepsClamps_threadAll (fun c p => c.keepsClamps_tryBarrier p false) (List.range 16) (s.core.unclamped q.val e.2.1)
  have hrf := congrArg (fun w => bits w 3 0) hreg
  have hpost : (s.core.unclamped q.val e.2.1).evtBuf =
      s.core.evtBuf ++ [⟨Cls.info, Src.region q.val, devPart, 0x0101, skewEnd s.core q.val e.2.1 % 2 ^ 64, 0⟩] := rfl
  rw [Nat.mod_eq_of_lt (skewEnd_lt s.core q.isLt e.2.1)] at hpost
  refine ⟨fun u hu => ?_, hclamps, hmems, es, ?_⟩
  · rw [Core.clamped_of_rf hrf, Core.clamped_unclamped _ _ _ hu]
  · rw [← hevents, hpost]
    rfl

/-- A clamp once reported (R52). -/
def reported (q : Nat) (x : Nat × Nat × Nat × Bool) : Nat × Nat × Nat × Bool := if x.1 = q then (x.1, x.2.1, x.2.2.1, true) else x

theorem find?_reported (l : List (Nat × Nat × Nat × Bool)) (q : Nat) : (l.map (reported q)).find? (fun e => e.1 == q && !e.2.2.2) = none := by
  refine List.find?_eq_none.mpr (fun x hx => ?_)
  obtain ⟨y, -, rfl⟩ := List.mem_map.mp hx
  by_cases hy : y.1 = q
  · simp [reported, hy]
  · simp [reported, hy]

theorem regionSkewPersist_reports (h : s.core.clamps.find? (fun e => e.1 == q.val && !e.2.2.2) = some e) (hinfo : e.2.2.1 < 2 ^ 64) :
    Answers s (.regionSkewPersist q) (fun c => c.regs = s.core.regs ∧ c.tiles = s.core.tiles ∧
      c.evtBuf = s.core.evtBuf ++ [⟨Cls.info, Src.region q.val, devPart, 0x0102, e.2.2.1, 0⟩] ∧
      c.clamps.find? (fun e => e.1 == q.val && !e.2.2.2) = none) := by
  have hexec : exec (.regionSkewPersist q) s = s.on (fun c =>
      ({ c with clamps := c.clamps.map (reported q.val) } : Core).evt Cls.info (Src.region q.val) devPart 0x0102 e.2.2.1) := by
    show execRegionSkewPersist q s = _
    simp only [execRegionSkewPersist, State.on, h]
    rfl
  refine answers_on hexec ⟨rfl, rfl, ?_, find?_reported _ _⟩
  simp only [Core.evt, Core.post, Nat.mod_eq_of_lt hinfo, Nat.zero_mod]

theorem regionSkew_unclamped (h : ∀ e ∈ s.core.clamps, e.1 ≠ q.val) :
    exec (.regionSkewRelease q) s = .next s ∧ exec (.regionSkewPersist q) s = .next s := by
  have hnone : s.core.clamps.find? (fun e => e.1 == q.val) = none := by simpa using h
  have hnone' : s.core.clamps.find? (fun e => e.1 == q.val && !e.2.2.2) = none :=
    List.find?_eq_none.mpr (fun e he => by simp [h e he])
  constructor
  · show execRegionSkewRelease q s = _
    exact State.on_of_fixed (by simp only [hnone])
  · show execRegionSkewPersist q s = _
    exact State.on_of_fixed (by simp only [hnone'])

end

end Machine
end Sys2Proof
end

section
/-! PROOFS. The timestamp's servo, the values written to TS_STEP and the loss of the source (R62 to R65, R76), O29. -/

namespace Sys2Proof.Machine

/-- What a command of the timebase leaves: tiles, partitions, memories, the tick, and every register but TS_OFFSET and TS_STATUS. -/
def Core.keepsButTs (c c' : Core) : Prop :=
  c'.tiles = c.tiles ∧ c'.parts = c.parts ∧ c'.mems = c.mems ∧ c'.tick = c.tick ∧
    ∀ r j, r.base ≠ Regs.EVT_TS_OFFSET.base → r.base ≠ Regs.EVT_TS_STATUS.base → Reg.at r j ≠ Regs.EVT_TS_OFFSET.base →
      Reg.at r j ≠ Regs.EVT_TS_STATUS.base → c'.rd r j = c.rd r j

section
variable (c : Core)

theorem Core.keepsButTs.refl : c.keepsButTs c := ⟨rfl, rfl, rfl, rfl, fun _ _ _ _ _ _ => rfl⟩

section
variable {c} {d : Core} (h : c.keepsButTs d)
include h

theorem Core.keepsButTs.status {f : Fld} (hf : f.reg = Regs.EVT_TS_STATUS) (v : Nat) : c.keepsButTs (d.wf f 0 v) := by
  obtain ⟨ht, hp, hm, hk, hr⟩ := h
  exact ⟨ht, hp, hm, hk, fun r j hb hb' ho hs => (d.rd_wf_other v (by rw [hf]; exact hs)).trans (hr r j hb hb' ho hs)⟩

theorem Core.keepsButTs.offset (v : Nat) : c.keepsButTs (d.wr Regs.EVT_TS_OFFSET 0 v) := by
  obtain ⟨ht, hp, hm, hk, hr⟩ := h
  exact ⟨ht, hp, hm, hk, fun r j hb hb' ho hs => (d.rd_wr_other v ho).trans (hr r j hb hb' ho hs)⟩

theorem Core.keepsButTs.evt (a b e f g k : Nat) : c.keepsButTs (d.evt a b e f g k) := h

theorem Core.keepsButTs.timed (ts : Nat) (slew : Int) : c.keepsButTs { d with ts := ts, slew := slew } := h

end

/-- The device with an offset measured (R63): TS_OFFSET and LOCKED. -/
def Core.measured (w : Word) : Core :=
  (c.wr Regs.EVT_TS_OFFSET 0 w.toNat).wf Regs.EVT_TS_STATUS_LOCKED 0 (b2n (decide (w.toInt.natAbs ≤ 1000)))

theorem b2n_le_one (b : Bool) : b2n b ≤ 1 := by
  cases b <;> decide

theorem Core.rd_offset_measured (w : Word) : (c.measured w).rd Regs.EVT_TS_OFFSET = w.toNat := by
  rw [Core.measured, Core.rd_wf_apart _ _ _ _ (by decide), Core.rd_wr_same, Nat.mod_eq_of_lt w.isLt]

theorem Core.rf_locked_measured (w : Word) :
    (c.measured w).rf Regs.EVT_TS_STATUS_LOCKED = b2n (decide (w.toInt.natAbs ≤ 1000)) :=
  Core.rf_wf_fits _ _ _ (by decide) (b2n_le_one _)

theorem Core.keepsButTs_measured (w : Word) : c.keepsButTs (c.measured w) :=
  ((Core.keepsButTs.refl c).offset _).status rfl _

end

section
variable {s : State} {w : Word}

/-- The servo runs: a source is selected and SLEW_EN is set (R62). -/
def Core.servoOn (c : Core) : Prop := c.rf Regs.EVT_TS_CTRL_SRC ≠ 0 ∧ c.flag Regs.EVT_TS_CTRL_SLEW_EN = true

theorem exec_tsServoMeasure_far (h : s.core.servoOn) (hfar : 100000 < w.toInt) : exec (.tsServoMeasure w) s = s.on (fun c =>
    ({ c.measured w with ts := (c.ts + w.toInt.toNat) % 2 ^ 64, slew := 0 } : Core).evt Cls.info Src.timebase devPart 0x0104 w.toInt.toNat) := by
  obtain ⟨hsrc, hen⟩ := h
  show execTsServoMeasure w s = _
  simp only [execTsServoMeasure, State.on, hsrc, hen, Bool.not_true, Bool.false_eq_true, or_self, if_false, hfar, if_true]
  rfl

theorem exec_tsServoMeasure_near (h : s.core.servoOn) (hnear : ¬100000 < w.toInt) :
    exec (.tsServoMeasure w) s = s.on (fun c => { c.measured w with ts := c.ts, slew := w.toInt }) := by
  obtain ⟨hsrc, hen⟩ := h
  show execTsServoMeasure w s = _
  simp only [execTsServoMeasure, State.on, hsrc, hen, Bool.not_true, Bool.false_eq_true, or_self, if_false, hnear]
  rfl

theorem exec_tsServoMeasure_off (h : ¬s.core.servoOn) : exec (.tsServoMeasure w) s = .next s := by
  show execTsServoMeasure w s = _
  refine State.on_of_fixed (if_pos ?_)
  by_contra hno
  simp only [not_or, Bool.not_eq_true', Bool.not_eq_false] at hno
  exact h hno

/-- A positive offset is the number its word holds. -/
theorem toNat_toInt_of_pos (h : 0 < w.toInt) : w.toInt.toNat = w.toNat := by
  have hcond := BitVec.toInt_eq_toNat_cond w
  have hlt := w.isLt
  split at hcond <;> omega

theorem tsServoMeasure_measures (h : s.core.servoOn) : Answers s (.tsServoMeasure w) (fun c =>
    c.rd Regs.EVT_TS_OFFSET = w.toNat ∧ c.rf Regs.EVT_TS_STATUS_LOCKED = b2n (decide (w.toInt.natAbs ≤ 1000)) ∧ s.core.keepsButTs c ∧
    if 100000 < w.toInt then c.ts = (s.core.ts + w.toNat) % 2 ^ 64 ∧ c.slew = 0 ∧
      c.evtBuf = s.core.evtBuf ++ [⟨Cls.info, Src.timebase, devPart, 0x0104, w.toNat, 0⟩]
    else c.ts = s.core.ts ∧ c.slew = w.toInt ∧ c.evtBuf = s.core.evtBuf) := by
  have hoff := s.core.rd_offset_measured w
  have hlock := s.core.rf_locked_measured w
  have hkeep := s.core.keepsButTs_measured w
  by_cases hfar : 100000 < w.toInt
  · refine answers_on (exec_tsServoMeasure_far h hfar) ?_
    rw [toNat_toInt_of_pos (by omega : 0 < w.toInt), if_pos hfar]
    refine ⟨hoff, hlock, (hkeep.timed _ _).evt _ _ _ _ _ _, rfl, rfl, ?_⟩
    rw [Core.evt, Nat.mod_eq_of_lt w.isLt]
    rfl
  · refine answers_on (exec_tsServoMeasure_near h hfar) ?_
    rw [if_neg hfar]
    exact ⟨hoff, hlock, hkeep.timed _ _, rfl, rfl, rfl⟩

/-! ### TS_STEP and the loss of the source -/

theorem tsStep_waits (h0 : 0 < w.toNat) (h : w.toNat < 2 ^ 40) :
    Answers s (.tsStep w) (fun c => c = { s.core with tsSteps := s.core.tsSteps ++ [w.toNat] }) := by
  refine answers_on (f := fun c => c.tsStepWrite w.toNat) rfl ?_
  rw [Core.tsStepWrite, if_neg (not_le.mpr h), if_neg (Nat.pos_iff_ne_zero.mp h0)]

theorem tsStep_zero : exec (.tsStep 0) s = .next s := State.on_of_fixed (f := fun c => c.tsStepWrite 0) rfl

theorem tsStep_refused (h : 2 ^ 40 ≤ w.toNat) : Answers s (.tsStep w) (fun c =>
    c.rf Regs.EVT_TS_STATUS_STEP_ERR = 1 ∧ c.tsSteps = s.core.tsSteps ∧ c.ts = s.core.ts ∧ s.core.keepsButTs c) := by
  refine answers_on (f := fun c => c.tsStepWrite w.toNat) rfl ?_
  rw [Core.tsStepWrite, if_pos h]
  exact ⟨Core.rf_wf_fits _ _ _ (by decide) (by decide), rfl, rfl, (Core.keepsButTs.refl s.core).status rfl 1⟩

theorem tsSourceLost_unlocks (h : s.core.rf Regs.EVT_TS_CTRL_SRC ≠ 0) : Answers s .tsSourceLost (fun c =>
    c.rf Regs.EVT_TS_STATUS_LOCKED = 0 ∧ c.slew = 0 ∧ c.ts = s.core.ts ∧ s.core.keepsButTs c ∧
    c.evtBuf = s.core.evtBuf ++ [⟨Cls.info, Src.timebase, devPart, 0x0103, s.core.rf Regs.EVT_TS_CTRL_SRC, 0⟩]) := by
  have hexec : exec .tsSourceLost s = s.on (fun c => (({ c with ts := c.ts, slew := 0 } : Core).wf Regs.EVT_TS_STATUS_LOCKED 0 0).evt Cls.info Src.timebase
      devPart 0x0103 (c.rf Regs.EVT_TS_CTRL_SRC)) := by
    show execTsSourceLost s = _
    simp only [execTsSourceLost, State.on, h, if_false]
  refine answers_on hexec ⟨?_, rfl, rfl, ?_, ?_⟩
  · rw [Core.evt_rf]
    exact Core.rf_wf_fits _ _ _ (by decide) (by decide)
  · exact (((Core.keepsButTs.refl s.core).timed _ _).status rfl _).evt _ _ _ _ _ _
  · have hlt : s.core.rf Regs.EVT_TS_CTRL_SRC < 4 := bits_lt _ 1 0
    rw [Core.evt, Nat.mod_eq_of_lt (by omega)]
    rfl

theorem tsSourceLost_none (h : s.core.rf Regs.EVT_TS_CTRL_SRC = 0) : exec .tsSourceLost s = .next s :=
  (show exec .tsSourceLost s = execTsSourceLost s from rfl).trans (State.on_of_fixed (if_pos h))

end

/-- Settles O29, one clause for each command and outcome. -/
theorem clampsAndTimestamp : Obligations.ClampsAndTimestamp := by
  refine ⟨⟨regionSkewClamp_clamps, fun q s e h => regionSkewRelease_releases h, fun q s e h hinfo => regionSkewPersist_reports h hinfo,
    fun q s h => regionSkew_unclamped h⟩, fun s w => ?_⟩
  exact ⟨fun h => tsServoMeasure_measures h, fun h => exec_tsServoMeasure_off h, fun h0 h => tsStep_waits h0 h, tsStep_zero,
    fun h => tsStep_refused h, fun h => tsSourceLost_unlocks h, fun h => tsSourceLost_none h⟩

end Sys2Proof.Machine
end

section
/-! PROOFS. Submission queues: what a write of SQ_CFG and a doorbell do (R562, R563, R540, R678). -/

namespace Sys2Proof

/-- The sizes that a queue may have: the powers of two from 16 to 65,536. -/
theorem isPow2_and_le_iff {n : Nat} (h : n < 2 ^ 17) : (isPow2 n && decide (16 ≤ n)) = true ↔ ∃ k, 4 ≤ k ∧ k ≤ 16 ∧ n = 2 ^ k := by
  simp only [isPow2, Bool.and_eq_true, bne_iff_ne, ne_eq, beq_iff_eq, decide_eq_true_eq]
  constructor
  · rintro ⟨⟨hn, hand⟩, hle⟩
    obtain ⟨k, rfl⟩ := (Nat.and_sub_one_eq_zero_iff_isPowerOfTwo hn).mp hand
    exact ⟨k, (Nat.pow_le_pow_iff_right one_lt_two).mp (show 2 ^ 4 ≤ 2 ^ k from hle), Nat.le_of_lt_succ ((Nat.pow_lt_pow_iff_right one_lt_two).mp h), rfl⟩
  · rintro ⟨k, hlo, -, rfl⟩
    have hn : 2 ^ k ≠ 0 := (Nat.two_pow_pos k).ne'
    exact ⟨⟨hn, (Nat.and_sub_one_eq_zero_iff_isPowerOfTwo hn).mpr ⟨k, rfl⟩⟩, Nat.pow_le_pow_right two_pos hlo⟩

theorem bits_low (n hi : Nat) : bits n hi 0 = n % 2 ^ (hi + 1) := by
  simp [bits]

namespace Machine

/-! ### Registers alone -/

section
variable {c d : Core} {ok : Nat → Prop} (h : c.onlyRegs d ok)
include h

theorem Core.onlyRegs.wr {r : Reg} {i : Nat} (hok : ok (r.at i)) (v : Nat) : c.onlyRegs (d.wr r i v) ok := by
  obtain ⟨ho, ht, hp, he, hm, hr⟩ := h
  exact ⟨ho, ht, hp, he, hm, fun q j hn => (d.rd_wr_other v (fun e => hn (by rw [e]; exact hok))).trans (hr q j hn)⟩

theorem Core.onlyRegs.wf {f : Fld} {i : Nat} (hok : ok (f.reg.at i)) (v : Nat) : c.onlyRegs (d.wf f i v) ok := h.wr hok _

end

/-- What commands of the queues leave: tiles, partitions, items, device memory and scratchpad. -/
def Core.keepsWork (c c' : Core) : Prop :=
  c'.tiles = c.tiles ∧ c'.parts = c.parts ∧ c'.items = c.items ∧ c'.dram = c.dram ∧ c'.scratch = c.scratch

theorem Core.keepsWork.refl (c : Core) : c.keepsWork c := ⟨rfl, rfl, rfl, rfl, rfl⟩

section
variable {c d : Core} (h : c.keepsWork d)
include h

theorem Core.keepsWork.wr (r : Reg) (i v : Nat) : c.keepsWork (d.wr r i v) := h

theorem Core.keepsWork.wf (f : Fld) (i v : Nat) : c.keepsWork (d.wf f i v) := h

theorem Core.keepsWork.count (f : Fld) (i k : Nat) : c.keepsWork (d.count f i k) := h

theorem Core.keepsWork.evt (a b e f g k : Nat) : c.keepsWork (d.evt a b e f g k) := h

theorem Core.keepsWork.setCqh (i : Nat) (q : QHid) : c.keepsWork (d.setCqh i q) := h

theorem Core.keepsWork.recs (l : List Rec) : c.keepsWork { d with recs := l } := h

theorem Core.keepsWork.sqOff (l : List Nat) : c.keepsWork { d with sqOff := l } := h

theorem Core.keepsWork.writeHost (a : Nat) (bs : List Byte) : c.keepsWork (d.writeHost a bs) := h

theorem Core.keepsWork.send (k : Nat) (l : List Nat) : c.keepsWork (d.send k l) := h

end

theorem Core.keepsWork_junk (c : Core) (a : Nat) : c.keepsWork (c.junk a) := by
  obtain ⟨m, f, hjunk, -⟩ := c.junk_eq a
  rw [hjunk]
  exact ⟨rfl, rfl, rfl, rfl, rfl⟩

/-! ### Writes of SQ_CFG -/

theorem bitOf_mod (w : Nat) {n b : Nat} (h : b < n) : bitOf (w % 2 ^ n) b = bitOf w b := by
  simp [bitOf, Nat.testBit_mod_two_pow, h]

section
variable (c : Core) (p q w : Nat)

/-- Whether a submission queue may be enabled with the word `v` (R562): its size and its base. -/
def Core.sqOk (v : Nat) : Bool :=
  isPow2 (bits v 16 0) && decide (16 ≤ bits v 16 0) && c.rd Regs.HIF_SQ_BASE (qi p q) % 4096 == 0 &&
    (c.rd Regs.HIF_SQ_BASE (qi p q) / 2 ^ 60 == 2 || c.rd Regs.HIF_SQ_BASE (qi p q) / 2 ^ 60 == 3)

theorem Core.sqOk_iff (v : Nat) : c.sqOk p q v = true ↔ (∃ k, 4 ≤ k ∧ k ≤ 16 ∧ v % 2 ^ 17 = 2 ^ k) ∧
    c.rd Regs.HIF_SQ_BASE (qi p q) % 4096 = 0 ∧
    (c.rd Regs.HIF_SQ_BASE (qi p q) / 2 ^ 60 = 2 ∨ c.rd Regs.HIF_SQ_BASE (qi p q) / 2 ^ 60 = 3) := by
  have hsize := isPow2_and_le_iff (n := v % 2 ^ 17) (Nat.mod_lt _ (by decide))
  rw [Core.sqOk, bits_low, Bool.and_eq_true, Bool.and_eq_true, Bool.or_eq_true, beq_iff_eq, beq_iff_eq, beq_iff_eq, hsize, and_assoc]

theorem Core.sqCfgWrite_set (hw : bitOf w 23 = true) : c.sqCfgWrite p q w =
    if c.flag Regs.HIF_SQ_CFG_ENABLE (qi p q) then c.wf Regs.HIF_SQ_STATUS_CFG_ERR (qi p q) 1
    else if !c.sqOk p q (w % 2 ^ 24) then
      (c.wr Regs.HIF_SQ_CFG (qi p q) (w % 2 ^ 24 % 2 ^ 23)).wf Regs.HIF_SQ_STATUS_CFG_ERR (qi p q) 1
    else c.wr Regs.HIF_SQ_CFG (qi p q) (w % 2 ^ 24) := by
  have hbit : bitOf (w % 2 ^ 24) 23 = true := by rw [bitOf_mod _ (by decide), hw]
  rw [Core.sqCfgWrite, if_pos hbit]
  rfl

/-- A list with a number added once. -/
def addOnce (l : List Nat) (i : Nat) : List Nat := if l.contains i then l else l ++ [i]

theorem mem_addOnce (l : List Nat) (i : Nat) : i ∈ addOnce l i := by
  unfold addOnce
  split
  next h => simpa using h
  next => simp

/-- A queue whose ENABLE a write has cleared: it fetches no more and stays enabled (assumptions 42 and 47). -/
def Core.sqClearing (v : Nat) : Core := { c.wr Regs.HIF_SQ_CFG (qi p q) v with sqOff := addOnce c.sqOff (qi p q) }

/-- The clear takes effect. -/
def Core.sqCleared (i : Nat) : Core := ({ c with sqOff := c.sqOff.filter (· != i) } : Core).wf Regs.HIF_SQ_CFG_ENABLE i 0

theorem Core.keepsWork.sqCleared {d : Core} (h : c.keepsWork d) (i : Nat) : c.keepsWork (d.sqCleared i) :=
  (h.sqOff _).wf _ _ _

theorem Core.keepsWork_sqClearing (v : Nat) : c.keepsWork (c.sqClearing p q v) := ⟨rfl, rfl, rfl, rfl, rfl⟩

theorem Core.sqCfgWrite_clear (hw : bitOf w 23 = false) : c.sqCfgWrite p q w =
    if c.flag Regs.HIF_SQ_CFG_ENABLE (qi p q) then
      (c.sqClearing p q (w % 2 ^ 24 + 2 ^ 23)).sqClear p q
    else c.wr Regs.HIF_SQ_CFG (qi p q) (w % 2 ^ 24) := by
  have hbit : bitOf (w % 2 ^ 24) 23 = false := by rw [bitOf_mod _ (by decide), hw]
  rw [Core.sqCfgWrite, if_neg (by rw [hbit]; decide)]
  obtain ⟨m, hm⟩ : ∃ m, m = 2 ^ 23 := ⟨_, rfl⟩
  rw [← hm]
  cases hon : c.flag Regs.HIF_SQ_CFG_ENABLE (qi p q)
  · rw [show b2n false * m = 0 from Nat.zero_mul _]
    rfl
  · rw [show b2n true * m = m from Nat.one_mul _]
    rfl

/-- A word whose bit 23 is clear fits below it. -/
theorem mod_lt_of_bit (hw : bitOf w 23 = false) : w % 2 ^ 24 < 2 ^ 23 := by
  have hbit : w / 2 ^ 23 % 2 = 0 := by
    simpa [bitOf, Nat.testBit_eq_decide_div_mod_eq] using hw
  omega

/-- Whether a queue has an open item. -/
def Core.sqBusy : Bool := c.items.any (fun i => i.part == p && i.sq == q && i.kind != .op)

theorem Core.sqBusy_iff : c.sqBusy p q = true ↔ ∃ j ∈ c.items, j.part = p ∧ j.sq = q ∧ j.kind ≠ .op := by
  simp [Core.sqBusy, and_assoc]

/-- The clear of a queue waits while the queue has an open item. -/
theorem Core.sqClear_busy (h : c.sqBusy p q = true) : c.sqClear p q = c := by
  refine if_neg ?_
  rw [show c.items.any (fun i => i.part == p && i.sq == q && i.kind != .op) = true from h]
  simp

theorem Core.sqClear_idle (hoff : qi p q ∈ c.sqOff) (h : c.sqBusy p q = false) :
    c.sqClear p q = c.sqCleared (qi p q) := by
  refine if_pos ?_
  rw [show c.items.any (fun i => i.part == p && i.sq == q && i.kind != .op) = false from h]
  simpa using hoff

theorem Core.sqClear_sqClearing_busy (v : Nat) (hbusy : c.sqBusy p q = true) (hbit : bits v 23 23 = 1) :
    ((c.sqClearing p q v).sqClear p q).flag Regs.HIF_SQ_CFG_ENABLE (qi p q) = true ∧
      qi p q ∈ ((c.sqClearing p q v).sqClear p q).sqOff ∧ c.keepsWork ((c.sqClearing p q v).sqClear p q) := by
  rw [(c.sqClearing p q v).sqClear_busy p q hbusy]
  exact ⟨(Core.flag_eq_true _ _).mpr ((c.rf_wr_same _ v rfl (by decide)).trans hbit), mem_addOnce _ _, c.keepsWork_sqClearing p q v⟩

theorem Core.sqClear_sqClearing_idle (v : Nat) (hidle : c.sqBusy p q = false) :
    ((c.sqClearing p q v).sqClear p q).flag Regs.HIF_SQ_CFG_ENABLE (qi p q) = false ∧
      qi p q ∉ ((c.sqClearing p q v).sqClear p q).sqOff ∧ c.keepsWork ((c.sqClearing p q v).sqClear p q) := by
  rw [(c.sqClearing p q v).sqClear_idle p q (mem_addOnce _ _) hidle]
  refine ⟨?_, ?_, (c.keepsWork_sqClearing p q v).sqCleared _ _⟩
  · rw [Core.flag, Core.sqCleared, Core.rf_wf_fits _ _ _ (by decide) (by decide)]
    rfl
  · rw [Core.sqCleared, Core.wf_sqOff]
    simp

end

section
variable {p : PartId} {q : Fin 64} {w : Word} {s : State}

theorem sqEnable_enables (hw : w.getLsbD 23 = true) (hoff : ¬s.core.flag Regs.HIF_SQ_CFG_ENABLE (qi p.val q.val) = true)
    (hok : s.core.sqOk p.val q.val (w.toNat % 2 ^ 24) = true) :
    Answers s (.sqEnable p q w) (fun c => c.rd Regs.HIF_SQ_CFG (qi p.val q.val) = w.toNat % 2 ^ 24 ∧
      s.core.onlyRegs c (fun r => r = Regs.HIF_SQ_CFG.at (qi p.val q.val))) := by
  refine answers_on (f := fun c => c.sqCfgWrite p.val q.val w.toNat) rfl ?_
  rw [Core.sqCfgWrite_set _ _ _ _ hw, if_neg hoff, hok, if_neg (by decide)]
  refine ⟨?_, s.core.onlyRegs_wr _ _ _⟩
  exact (Core.rd_wr_same _ _ _ _).trans (Nat.mod_eq_of_lt (by omega))

theorem sqEnable_refuses (hw : w.getLsbD 23 = true) (hoff : ¬s.core.flag Regs.HIF_SQ_CFG_ENABLE (qi p.val q.val) = true)
    (hbad : ¬s.core.sqOk p.val q.val (w.toNat % 2 ^ 24) = true) :
    Answers s (.sqEnable p q w) (fun c => c.rf Regs.HIF_SQ_STATUS_CFG_ERR (qi p.val q.val) = 1 ∧
      c.flag Regs.HIF_SQ_CFG_ENABLE (qi p.val q.val) = false ∧
      s.core.onlyRegs c (fun r => r = Regs.HIF_SQ_CFG.at (qi p.val q.val) ∨ r = Regs.HIF_SQ_STATUS.at (qi p.val q.val))) := by
  refine answers_on (f := fun c => c.sqCfgWrite p.val q.val w.toNat) rfl ?_
  rw [Core.sqCfgWrite_set _ _ _ _ hw, if_neg hoff, Bool.eq_false_iff.mpr hbad, Bool.not_false, if_pos rfl]
  refine ⟨Core.rf_wf_fits _ _ _ (by decide) (by decide), ?_, ((s.core.onlyRegs_refl _).wr (.inl rfl) _).wf (.inr rfl) _⟩
  have hbit : bits (w.toNat % 2 ^ 24 % 2 ^ 23) 23 23 = 0 := by
    rw [bits, Nat.shiftRight_eq_div_pow]
    omega
  simp (disch := decide) only [Core.flag, Core.rf_wf_apart, Core.rf_wr_same]
  exact beq_eq_false_iff_ne.mpr (by rw [show Regs.HIF_SQ_CFG_ENABLE.hi = 23 from rfl, show Regs.HIF_SQ_CFG_ENABLE.lo = 23 from rfl, hbit]; decide)

theorem sqEnable_again (hw : w.getLsbD 23 = true) (hon : s.core.flag Regs.HIF_SQ_CFG_ENABLE (qi p.val q.val) = true) :
    Answers s (.sqEnable p q w) (fun c => c.rf Regs.HIF_SQ_STATUS_CFG_ERR (qi p.val q.val) = 1 ∧
      s.core.onlyRegs c (fun r => r = Regs.HIF_SQ_STATUS.at (qi p.val q.val))) := by
  refine answers_on (f := fun c => c.sqCfgWrite p.val q.val w.toNat) rfl ?_
  rw [Core.sqCfgWrite_set _ _ _ _ hw, if_pos hon]
  exact ⟨Core.rf_wf_fits _ _ _ (by decide) (by decide), s.core.onlyRegs_wr _ _ _⟩

theorem sqEnable_off (hw : w.getLsbD 23 = false) (hoff : ¬s.core.flag Regs.HIF_SQ_CFG_ENABLE (qi p.val q.val) = true) :
    Answers s (.sqEnable p q w) (fun c => c.rd Regs.HIF_SQ_CFG (qi p.val q.val) = w.toNat % 2 ^ 24 ∧
      s.core.onlyRegs c (fun r => r = Regs.HIF_SQ_CFG.at (qi p.val q.val))) := by
  refine answers_on (f := fun c => c.sqCfgWrite p.val q.val w.toNat) rfl ?_
  rw [Core.sqCfgWrite_clear _ _ _ _ hw, if_neg hoff]
  exact ⟨(Core.rd_wr_same _ _ _ _).trans (Nat.mod_eq_of_lt (by omega)), s.core.onlyRegs_wr _ _ _⟩

theorem sqEnable_clear_busy (hw : w.getLsbD 23 = false) (hon : s.core.flag Regs.HIF_SQ_CFG_ENABLE (qi p.val q.val) = true)
    (hbusy : s.core.sqBusy p.val q.val = true) :
    Answers s (.sqEnable p q w) (fun c => c.flag Regs.HIF_SQ_CFG_ENABLE (qi p.val q.val) = true ∧ qi p.val q.val ∈ c.sqOff ∧
      s.core.keepsWork c) := by
  refine answers_on (f := fun c => c.sqCfgWrite p.val q.val w.toNat) rfl ?_
  rw [Core.sqCfgWrite_clear _ _ _ _ hw, if_pos hon]
  have hlt := mod_lt_of_bit w.toNat hw
  refine Core.sqClear_sqClearing_busy _ _ _ _ hbusy ?_
  rw [bits, Nat.shiftRight_eq_div_pow]
  omega

theorem sqEnable_clear_idle (hw : w.getLsbD 23 = false) (hon : s.core.flag Regs.HIF_SQ_CFG_ENABLE (qi p.val q.val) = true)
    (hidle : s.core.sqBusy p.val q.val = false) :
    Answers s (.sqEnable p q w) (fun c => c.flag Regs.HIF_SQ_CFG_ENABLE (qi p.val q.val) = false ∧ qi p.val q.val ∉ c.sqOff ∧
      s.core.keepsWork c) := by
  refine answers_on (f := fun c => c.sqCfgWrite p.val q.val w.toNat) rfl ?_
  rw [Core.sqCfgWrite_clear _ _ _ _ hw, if_pos hon]
  exact Core.sqClear_sqClearing_idle _ _ _ _ hidle

/-! ### Doorbells of submission queues -/

variable {v : BitVec 16}

theorem Core.doorOpen_iff (c : Core) (p : Nat) : c.doorOpen p = true ↔ c.vfOn p = true ∧ (c.part p).resetting = false := by
  simp [Core.doorOpen]

theorem sqDoorbell_shut (h : ¬s.core.doorOpen p.val = true) : exec (.sqDoorbell p q v) s = .next s := by
  show execSqDoorbell p q v s = _
  exact State.on_of_fixed (by simp [h])

theorem sqDoorbell_drops (h : s.core.doorOpen p.val = true) (hp : s.core.pstate p.val ≠ pACTIVE) : Answers s (.sqDoorbell p q v) (fun c =>
    c.rf Regs.PART_DOORBELL_DROPS_COUNT p.val = min (s.core.rf Regs.PART_DOORBELL_DROPS_COUNT p.val + 1) Regs.PART_DOORBELL_DROPS_COUNT.top ∧
    s.core.onlyRegs c (fun r => r = Regs.PART_DOORBELL_DROPS.at p.val)) := by
  have hexec : exec (.sqDoorbell p q v) s = s.on (fun c => c.count Regs.PART_DOORBELL_DROPS_COUNT p.val) := by
    show execSqDoorbell p q v s = _
    simp [execSqDoorbell, State.on, h, hp]
  exact answers_on hexec ⟨Core.rf_count_same _ _ _ _ (by decide), s.core.onlyRegs_wr _ _ _⟩

theorem sqDoorbell_refuses (h : s.core.doorOpen p.val = true) (hp : s.core.pstate p.val = pACTIVE)
    (hbad : s.core.flag Regs.HIF_SQ_CFG_ENABLE (qi p.val q.val) = false ∨ s.core.rf Regs.HIF_SQ_CFG_SIZE (qi p.val q.val) ≤ v.toNat) :
    Answers s (.sqDoorbell p q v) (fun c => c.rf Regs.HIF_SQ_STATUS_DB_ERR (qi p.val q.val) = 1 ∧
      s.core.onlyRegs c (fun r => r = Regs.HIF_SQ_STATUS.at (qi p.val q.val))) := by
  have hexec : exec (.sqDoorbell p q v) s = s.on (fun c => c.wf Regs.HIF_SQ_STATUS_DB_ERR (qi p.val q.val) 1) := by
    show execSqDoorbell p q v s = _
    simp [execSqDoorbell, State.on, h, hp, hbad]
  exact answers_on hexec ⟨Core.rf_wf_fits _ _ _ (by decide) (by decide), s.core.onlyRegs_wr _ _ _⟩

theorem sqDoorbell_moves (h : s.core.doorOpen p.val = true) (hp : s.core.pstate p.val = pACTIVE)
    (hon : s.core.flag Regs.HIF_SQ_CFG_ENABLE (qi p.val q.val) = true) (hv : v.toNat < s.core.rf Regs.HIF_SQ_CFG_SIZE (qi p.val q.val)) :
    Answers s (.sqDoorbell p q v) (fun c => c.rf Regs.HIF_SQ_PTR_TAIL (qi p.val q.val) = v.toNat ∧
      c.rf Regs.HIF_SQ_PTR_HEAD (qi p.val q.val) = s.core.rf Regs.HIF_SQ_PTR_HEAD (qi p.val q.val) ∧
      s.core.onlyRegs c (fun r => r = Regs.HIF_SQ_PTR.at (qi p.val q.val))) := by
  have hexec : exec (.sqDoorbell p q v) s = s.on (fun c => c.wf Regs.HIF_SQ_PTR_TAIL (qi p.val q.val) v.toNat) := by
    show execSqDoorbell p q v s = _
    simp [execSqDoorbell, State.on, h, hp, hon, hv]
  exact answers_on hexec ⟨Core.rf_wf_fits _ _ _ (by decide) (Nat.le_of_lt_succ v.isLt),
    Core.rf_wf_beside _ _ _ (by decide) rfl (by decide), s.core.onlyRegs_wr _ _ _⟩

end

end Machine

end Sys2Proof
end

section
/-! PROOFS. Completion queues: what a write of CQ_CFG, a doorbell, a failed write and the timer do (R563, R569, R571, R578, R74). -/

namespace Sys2Proof.Machine

section
variable (c : Core) (i : Nat)

@[simp] theorem Core.setCqh_rf (q : QHid) (f : Fld) (j : Nat) : (c.setCqh i q).rf f j = c.rf f j := rfl

@[simp] theorem Core.wr_cqh? (r : Reg) (j v : Nat) : (c.wr r j v).cqh? i = c.cqh? i := rfl

@[simp] theorem Core.wf_cqh? (f : Fld) (j v : Nat) : (c.wf f j v).cqh? i = c.cqh? i := rfl

@[simp] theorem Core.count_cqh? (f : Fld) (j k : Nat) : (c.count f j k).cqh? i = c.cqh? i := rfl

@[simp] theorem Core.cqh?_setCqh_same (q : QHid) : (c.setCqh i q).cqh? i = q := SMap.get_put_same _ _ _ _

/-- The unread records of a queue with slots: from HEAD to TAIL around the ring (R569). -/
theorem Core.cqUnread_eq (h : 0 < (c.cqh? i).size) : c.cqUnread i =
    (c.rf Regs.HIF_CQ_PTR_TAIL i + (c.cqh? i).size - c.rf Regs.HIF_CQ_PTR_HEAD i % (c.cqh? i).size) % (c.cqh? i).size := by
  simp only [Core.cqUnread, Nat.max_eq_left h]

end

/-! ### Writes of CQ_CFG -/

section
variable (c : Core) (p q v : Nat)

/-- Whether a completion queue may be enabled with the word `v` (R569): its size and its vector. -/
def cqOk (v : Nat) : Bool :=
  isPow2 (bits v 16 0) && decide (16 ≤ bits v 16 0) && decide (bits v 28 18 < (if bitOf v 29 then 256 else 112))

theorem cqOk_iff : cqOk v = true ↔
    (∃ k, 4 ≤ k ∧ k ≤ 16 ∧ v % 2 ^ 17 = 2 ^ k) ∧ v / 2 ^ 18 % 2 ^ 11 < (if bitOf v 29 then 256 else 112) := by
  have hsize := isPow2_and_le_iff (n := v % 2 ^ 17) (Nat.mod_lt _ (by decide))
  rw [cqOk, bits_low, Bool.and_eq_true, hsize, decide_eq_true_eq, bits, Nat.shiftRight_eq_div_pow]

/-- Queue `q` takes the held records of its partition (R578). -/
def Core.takeHeld : Core :=
  { c with recs := c.recs.map (fun r => if r.part = p ∧ r.held then { r with held := false, cq := q } else r) }

theorem Core.takeHeld_rd (r : Reg) (i : Nat) : (c.takeHeld p q).rd r i = c.rd r i := rfl

theorem Core.takeHeld_rf (f : Fld) (i : Nat) : (c.takeHeld p q).rf f i = c.rf f i := rfl

theorem Core.takeHeld_cqh? (i : Nat) : (c.takeHeld p q).cqh? i = c.cqh? i := rfl

/-- A completion queue enabled with the word `v`: empty, its slots at BASE, the held records in it (R569, R578). -/
def Core.cqEnabled : Core :=
  ((((c.setCqh (qi p q) { base := c.rf Regs.HIF_CQ_BASE_BASE (qi p q) * 4096, size := bits v 16 0 }).wr Regs.HIF_CQ_CFG (qi p q) v).wr
    Regs.HIF_CQ_PTR (qi p q) 0).wf Regs.HIF_CQ_STATUS_FULL (qi p q) 0).takeHeld p q

theorem Core.cqCfgWrite_eq (w : Nat) : c.cqCfgWrite p q w =
    if bitOf (w % 2 ^ 31) 17 && !c.flag Regs.HIF_CQ_CFG_ENABLE (qi p q) then
      if !cqOk (w % 2 ^ 31) then
        (c.wr Regs.HIF_CQ_CFG (qi p q) (setBits (w % 2 ^ 31) 17 17 0)).wf Regs.HIF_CQ_STATUS_CFG_ERR (qi p q) 1
      else c.cqEnabled p q (w % 2 ^ 31)
    else c.wr Regs.HIF_CQ_CFG (qi p q) (w % 2 ^ 31) := rfl

theorem Core.keepsWork_cqEnabled : c.keepsWork (c.cqEnabled p q v) :=
  (((((Core.keepsWork.refl c).setCqh _ _).wr _ _ _).wr _ _ _).wf _ _ _).recs _

theorem Core.recs_cqEnabled : (c.cqEnabled p q v).recs =
    c.recs.map (fun r => if r.part = p ∧ r.held then { r with held := false, cq := q } else r) := rfl

theorem Core.rd_cfg_cqEnabled (h : v < 2 ^ 64) : (c.cqEnabled p q v).rd Regs.HIF_CQ_CFG (qi p q) = v := by
  rw [Core.cqEnabled, Core.takeHeld_rd, Core.rd_wf_apart _ _ _ _ (by decide), Core.rd_wr_apart _ _ _ _ (by decide), Core.rd_wr_same,
    Nat.mod_eq_of_lt h]

theorem Core.rd_ptr_cqEnabled : (c.cqEnabled p q v).rd Regs.HIF_CQ_PTR (qi p q) = 0 := by
  rw [Core.cqEnabled, Core.takeHeld_rd, Core.rd_wf_apart _ _ _ _ (by decide), Core.rd_wr_same, Nat.zero_mod]

theorem Core.rf_full_cqEnabled : (c.cqEnabled p q v).rf Regs.HIF_CQ_STATUS_FULL (qi p q) = 0 := by
  rw [Core.cqEnabled, Core.takeHeld_rf, Core.rf_wf_fits _ _ _ (by decide) (by decide)]

theorem Core.cqh?_cqEnabled : (c.cqEnabled p q v).cqh? (qi p q) =
    { base := c.rf Regs.HIF_CQ_BASE_BASE (qi p q) * 4096, size := v % 2 ^ 17 } := by
  rw [Core.cqEnabled, Core.takeHeld_cqh?, Core.wf_cqh?, Core.wr_cqh?, Core.wr_cqh?, Core.cqh?_setCqh_same, bits_low]

end

section
variable {p : PartId} {q : Fin 64} {w : Word} {s : State}

theorem cqEnable_enables (hw : bitOf (w.toNat % 2 ^ 31) 17 = true) (hoff : s.core.flag Regs.HIF_CQ_CFG_ENABLE (qi p.val q.val) = false)
    (hok : cqOk (w.toNat % 2 ^ 31) = true) :
    Answers s (.cqEnable p q w) (fun c => c.rd Regs.HIF_CQ_CFG (qi p.val q.val) = w.toNat % 2 ^ 31 ∧ c.rd Regs.HIF_CQ_PTR (qi p.val q.val) = 0 ∧
      c.rf Regs.HIF_CQ_STATUS_FULL (qi p.val q.val) = 0 ∧
      c.cqh? (qi p.val q.val) = { base := s.core.rf Regs.HIF_CQ_BASE_BASE (qi p.val q.val) * 4096, size := w.toNat % 2 ^ 31 % 2 ^ 17 } ∧
      s.core.keepsWork c ∧ c.recs = s.core.recs.map (fun r => if r.part = p.val ∧ r.held then { r with held := false, cq := q.val } else r)) := by
  refine answers_on (f := fun c => c.cqCfgWrite p.val q.val w.toNat) rfl ?_
  have hlt : w.toNat % 2 ^ 31 < 2 ^ 64 := by omega
  rw [Core.cqCfgWrite_eq, hw, hoff, hok]
  simp only [Bool.not_false, Bool.not_true, Bool.and_self, if_true, Bool.false_eq_true, if_false]
  exact ⟨Core.rd_cfg_cqEnabled _ _ _ _ hlt, Core.rd_ptr_cqEnabled _ _ _ _, Core.rf_full_cqEnabled _ _ _ _,
    Core.cqh?_cqEnabled _ _ _ _, Core.keepsWork_cqEnabled _ _ _ _, Core.recs_cqEnabled _ _ _ _⟩

theorem cqEnable_refuses (hw : bitOf (w.toNat % 2 ^ 31) 17 = true) (hoff : s.core.flag Regs.HIF_CQ_CFG_ENABLE (qi p.val q.val) = false)
    (hbad : cqOk (w.toNat % 2 ^ 31) = false) :
    Answers s (.cqEnable p q w) (fun c => c.rf Regs.HIF_CQ_STATUS_CFG_ERR (qi p.val q.val) = 1 ∧
      c.flag Regs.HIF_CQ_CFG_ENABLE (qi p.val q.val) = false ∧
      s.core.onlyRegs c (fun r => r = Regs.HIF_CQ_CFG.at (qi p.val q.val) ∨ r = Regs.HIF_CQ_STATUS.at (qi p.val q.val))) := by
  refine answers_on (f := fun c => c.cqCfgWrite p.val q.val w.toNat) rfl ?_
  rw [Core.cqCfgWrite_eq, hw, hoff, hbad]
  simp only [Bool.not_false, Bool.and_self, if_true]
  refine ⟨Core.rf_wf_fits _ _ _ (by decide) (by decide), ?_, ((s.core.onlyRegs_refl _).wr (.inl rfl) _).wf (.inr rfl) _⟩
  simp (disch := decide) only [Core.flag, Core.rf_wf_apart, Core.rf_wr_same]
  exact beq_eq_false_iff_ne.mpr (by rw [show Regs.HIF_CQ_CFG_ENABLE.hi = 17 from rfl, show Regs.HIF_CQ_CFG_ENABLE.lo = 17 from rfl,
    bits_setBits_same _ _ _ _ le_rfl]; decide)

theorem cqEnable_writes (h : ¬(bitOf (w.toNat % 2 ^ 31) 17 = true ∧ s.core.flag Regs.HIF_CQ_CFG_ENABLE (qi p.val q.val) = false)) :
    Answers s (.cqEnable p q w) (fun c => c.rd Regs.HIF_CQ_CFG (qi p.val q.val) = w.toNat % 2 ^ 31 ∧
      s.core.onlyRegs c (fun r => r = Regs.HIF_CQ_CFG.at (qi p.val q.val))) := by
  refine answers_on (f := fun c => c.cqCfgWrite p.val q.val w.toNat) rfl ?_
  rw [Core.cqCfgWrite_eq, if_neg (by rwa [Bool.and_eq_true, Bool.not_eq_true'])]
  exact ⟨(Core.rd_wr_same _ _ _ _).trans (Nat.mod_eq_of_lt (by omega)), s.core.onlyRegs_wr _ _ _⟩

/-! ### Doorbells of completion queues -/

variable {v : BitVec 16}

theorem cqDoorbell_shut (h : ¬s.core.doorOpen p.val = true) : exec (.cqDoorbell p q v) s = .next s := by
  show execCqDoorbell p q v s = _
  exact State.on_of_fixed (by simp [h])

theorem cqDoorbell_refuses (h : s.core.doorOpen p.val = true)
    (hbad : s.core.flag Regs.HIF_CQ_CFG_ENABLE (qi p.val q.val) = false ∨ (s.core.cqh? (qi p.val q.val)).size ≤ v.toNat) :
    Answers s (.cqDoorbell p q v) (fun c => c.rf Regs.HIF_SQ_STATUS_DB_ERR (qi p.val q.val) = 1 ∧
      s.core.onlyRegs c (fun r => r = Regs.HIF_SQ_STATUS.at (qi p.val q.val))) := by
  have hexec : exec (.cqDoorbell p q v) s = s.on (fun c => c.wf Regs.HIF_SQ_STATUS_DB_ERR (qi p.val q.val) 1) := by
    show execCqDoorbell p q v s = _
    simp [execCqDoorbell, State.on, h, hbad]
  exact answers_on hexec ⟨Core.rf_wf_fits _ _ _ (by decide) (by decide), s.core.onlyRegs_wr _ _ _⟩

/-- A completion queue whose HEAD a doorbell has moved (R563, R569). -/
def Core.cqTaken (c : Core) (i v : Nat) : Core :=
  let d := c.wf Regs.HIF_CQ_PTR_HEAD i v
  d.wf Regs.HIF_CQ_STATUS_FULL i (b2n (d.cqUnread i + 1 == (d.cqh? i).size))

theorem cqDoorbell_moves (h : s.core.doorOpen p.val = true) (hon : s.core.flag Regs.HIF_CQ_CFG_ENABLE (qi p.val q.val) = true)
    (hv : v.toNat < (s.core.cqh? (qi p.val q.val)).size) :
    Answers s (.cqDoorbell p q v) (fun c => c.rf Regs.HIF_CQ_PTR_HEAD (qi p.val q.val) = v.toNat ∧
      c.rf Regs.HIF_CQ_PTR_TAIL (qi p.val q.val) = s.core.rf Regs.HIF_CQ_PTR_TAIL (qi p.val q.val) ∧
      c.rf Regs.HIF_CQ_STATUS_FULL (qi p.val q.val) = b2n (decide ((s.core.rf Regs.HIF_CQ_PTR_TAIL (qi p.val q.val) +
        (s.core.cqh? (qi p.val q.val)).size - v.toNat) % (s.core.cqh? (qi p.val q.val)).size + 1 = (s.core.cqh? (qi p.val q.val)).size)) ∧
      s.core.onlyRegs c (fun r => r = Regs.HIF_CQ_PTR.at (qi p.val q.val) ∨ r = Regs.HIF_CQ_STATUS.at (qi p.val q.val))) := by
  have hexec : exec (.cqDoorbell p q v) s = s.on (fun c => c.cqTaken (qi p.val q.val) v.toNat) := by
    show execCqDoorbell p q v s = _
    simp only [execCqDoorbell, State.on, h, hon, decide_eq_false (not_le.mpr hv), Bool.not_true, Bool.or_self, Bool.false_eq_true, if_false]
    rfl
  generalize qi p.val q.val = i at *
  have hvle : v.toNat ≤ Regs.HIF_CQ_PTR_HEAD.top := Nat.le_of_lt_succ v.isLt
  have hhead : ∀ j w, ((s.core.wf Regs.HIF_CQ_PTR_HEAD i v.toNat).wf Regs.HIF_CQ_STATUS_FULL j w).rf Regs.HIF_CQ_PTR_HEAD i = v.toNat :=
    fun j w => (Core.rf_wf_apart _ _ _ _ (by decide)).trans (Core.rf_wf_fits _ _ _ (by decide) hvle)
  have htail : (s.core.wf Regs.HIF_CQ_PTR_HEAD i v.toNat).rf Regs.HIF_CQ_PTR_TAIL i = s.core.rf Regs.HIF_CQ_PTR_TAIL i :=
    Core.rf_wf_beside _ _ _ (by decide) rfl (by decide)
  refine answers_on hexec ⟨hhead _ _, (Core.rf_wf_apart _ _ _ _ (by decide)).trans htail, ?_,
    ((s.core.onlyRegs_refl _).wf (.inl rfl) _).wf (.inr rfl) _⟩
  refine (Core.rf_wf_fits _ _ _ (by decide) (b2n_le_one _)).trans ?_
  rw [Core.cqUnread_eq _ _ (by rw [Core.wf_cqh?]; omega), htail, Core.rf_wf_fits _ _ _ (by decide) hvle, Core.wf_cqh?, Nat.mod_eq_of_lt hv, beq_eq_decide]

/-! ### A failed write, and the timer -/

section
variable (c : Core) (p q : Nat)

/-- A completion queue whose write has failed: it is off, its slot holds free bytes (R571, assumption 39). -/
def Core.cqWriteFailed : Core :=
  (((c.junk ((c.cqh? (qi p q)).base + 32 * c.rf Regs.HIF_CQ_PTR_TAIL (qi p q))).wf Regs.HIF_CQ_CFG_ENABLE (qi p q) 0).wf
    Regs.HIF_CQ_STATUS_WRITE_ERR (qi p q) 1).evt Cls.item Src.pcie p 0x0D03 q

theorem Core.recs_junk (a : Nat) : (c.junk a).recs = c.recs := by
  obtain ⟨m, f, hjunk, -⟩ := c.junk_eq a
  rw [hjunk]

theorem Core.evtBuf_junk (a : Nat) : (c.junk a).evtBuf = c.evtBuf := by
  obtain ⟨m, f, hjunk, -⟩ := c.junk_eq a
  rw [hjunk]

theorem Core.recs_cqWriteFailed : (c.cqWriteFailed p q).recs = c.recs := by
  rw [Core.cqWriteFailed, Core.evt_recs, Core.wf_recs, Core.wf_recs, Core.recs_junk]

theorem Core.evtBuf_evt (a b d e f g : Nat) : (c.evt a b d e f g).evtBuf = c.evtBuf ++ [⟨a, b, d, e, f % 2 ^ 64, g % 2 ^ 64⟩] := rfl

theorem Core.evtBuf_cqWriteFailed : (c.cqWriteFailed p q).evtBuf = c.evtBuf ++ [⟨Cls.item, Src.pcie, p, 0x0D03, q % 2 ^ 64, 0⟩] := by
  rw [Core.cqWriteFailed, Core.evtBuf_evt, Core.wf_evtBuf, Core.wf_evtBuf, Core.evtBuf_junk, Nat.zero_mod]

theorem Core.keepsWork_cqWriteFailed : c.keepsWork (c.cqWriteFailed p q) :=
  (((c.keepsWork_junk _).wf _ _ _).wf _ _ _).evt _ _ _ _ _ _

theorem Core.get_cqWriteFailed_beside (a : Nat) (h : a < (c.cqh? (qi p q)).base + 32 * c.rf Regs.HIF_CQ_PTR_TAIL (qi p q) ∨
    (c.cqh? (qi p q)).base + 32 * c.rf Regs.HIF_CQ_PTR_TAIL (qi p q) + 32 ≤ a) :
    (c.cqWriteFailed p q).host.get zeroByte a = c.host.get zeroByte a := by
  rw [Core.cqWriteFailed, Core.evt_host, Core.wf_host, Core.wf_host, c.get_junk_beside _ h]

end

theorem cqWriteError_idle (h : s.core.nextRec p.val q.val = none ∨ s.core.cqOpen p.val q.val = false) :
    exec (.cqWriteError p q) s = .next s := by
  show execCqWriteError p q s = _
  apply State.on_of_fixed
  rcases hr : s.core.nextRec p.val q.val with - | r
  · rfl
  · simp [h.resolve_left (by simp [hr])]

theorem cqWriteError_stops {r : Rec} (hr : s.core.nextRec p.val q.val = some r) (hopen : s.core.cqOpen p.val q.val = true) :
    Answers s (.cqWriteError p q) (fun c => c.recs = s.core.recs ∧ s.core.keepsWork c ∧ c.flag Regs.HIF_CQ_CFG_ENABLE (qi p.val q.val) = false ∧
      c.rf Regs.HIF_CQ_STATUS_WRITE_ERR (qi p.val q.val) = 1 ∧
      c.rf Regs.HIF_CQ_PTR_TAIL (qi p.val q.val) = s.core.rf Regs.HIF_CQ_PTR_TAIL (qi p.val q.val) ∧
      (∀ a, a < (s.core.cqh? (qi p.val q.val)).base + 32 * s.core.rf Regs.HIF_CQ_PTR_TAIL (qi p.val q.val) ∨
        (s.core.cqh? (qi p.val q.val)).base + 32 * s.core.rf Regs.HIF_CQ_PTR_TAIL (qi p.val q.val) + 32 ≤ a →
        c.host.get zeroByte a = s.core.host.get zeroByte a) ∧
      c.evtBuf = s.core.evtBuf ++ [⟨Cls.item, Src.pcie, p.val, 0x0D03, q.val, 0⟩]) := by
  have hexec : exec (.cqWriteError p q) s = s.on (fun c => c.cqWriteFailed p.val q.val) := by
    show execCqWriteError p q s = _
    simp only [execCqWriteError, State.on, hr, hopen, Bool.not_true, Bool.false_eq_true, if_false, Core.cqWriteFailed, Core.junk]
  refine answers_on hexec ⟨s.core.recs_cqWriteFailed _ _, s.core.keepsWork_cqWriteFailed _ _, ?_, ?_, ?_, s.core.get_cqWriteFailed_beside _ _, ?_⟩
  · simp (disch := decide) only [Core.flag, Core.cqWriteFailed, Core.evt_rf, Core.rf_wf_apart, Core.rf_wf_fits]
    rfl
  · rw [Core.cqWriteFailed, Core.evt_rf, Core.rf_wf_fits _ _ _ (by decide) (by decide)]
  · simp (disch := decide) only [Core.cqWriteFailed, Core.evt_rf, Core.rf_wf_apart, Core.junk_rf]
  · rw [s.core.evtBuf_cqWriteFailed, Nat.mod_eq_of_lt (q.isLt.trans (by decide))]

theorem cqModTimer_waits (h : ¬(s.core.rf Regs.HIF_CQ_MOD_TIMER (qi p.val q.val) ≠ 0 ∧ (s.core.cqh? (qi p.val q.val)).unsignalled ≠ 0 ∧
    (s.core.cqh? (qi p.val q.val)).firstTick + s.core.rf Regs.HIF_CQ_MOD_TIMER (qi p.val q.val) ≤ s.core.tick)) :
    exec (.cqModTimer p q) s = .next s := by
  show execCqModTimer p q s = _
  refine State.on_of_fixed (if_pos ?_)
  simp only [Bool.or_eq_true, beq_iff_eq, decide_eq_true_eq]
  omega

/-- The message of a completion queue's vector (R569). -/
def Core.cqMsg (c : Core) (p q : Nat) : OutMsg :=
  ⟨0, [if c.flag Regs.HIF_CQ_CFG_FN (qi p q) then 0 else p + 1, c.rf Regs.HIF_CQ_CFG_VECTOR (qi p q)]⟩

theorem cqModTimer_raises (htimer : s.core.rf Regs.HIF_CQ_MOD_TIMER (qi p.val q.val) ≠ 0) (hun : (s.core.cqh? (qi p.val q.val)).unsignalled ≠ 0)
    (hdue : (s.core.cqh? (qi p.val q.val)).firstTick + s.core.rf Regs.HIF_CQ_MOD_TIMER (qi p.val q.val) ≤ s.core.tick) :
    Answers s (.cqModTimer p q) (fun c => c.out = s.core.out ++ [s.core.cqMsg p.val q.val] ∧ (c.cqh? (qi p.val q.val)).unsignalled = 0 ∧
      s.core.keepsWork c ∧ c.regs = s.core.regs ∧ c.recs = s.core.recs ∧ c.evtBuf = s.core.evtBuf) := by
  have hexec : exec (.cqModTimer p q) s = s.on (fun c => c.cqVector p.val q.val) := by
    show execCqModTimer p q s = _
    simp only [execCqModTimer, State.on, beq_eq_false_iff_ne.mpr htimer, beq_eq_false_iff_ne.mpr hun, decide_eq_false (not_lt.mpr hdue),
      Bool.or_self, Bool.false_eq_true, if_false]
  refine answers_on hexec ⟨rfl, ?_, ((Core.keepsWork.refl _).setCqh _ _).send _ _, rfl, rfl, rfl⟩
  exact congrArg QHid.unsignalled (s.core.cqh?_setCqh_same _ _)

end

end Sys2Proof.Machine
end

section
/-! PROOFS. The record of an item in its completion queue (R568, R569, R571): its bytes, the queue's pointers and phase, CQ_FULL, the vector. -/

namespace Sys2Proof.Machine

/-- A record's bytes by its ORIGIN (R568). -/
theorem Rec.bytes_norm (r : Rec) (head : Nat) (phase : Bool) : r.norm.bytes head phase = leBytes 8 r.tag ++
    leBytes 8 (r.status + (if r.origin = 0 then r.sq * 2 ^ 16 + r.entry * 2 ^ 32 else r.ltile * 2 ^ 24) + r.origin * 2 ^ 22 + head * 2 ^ 48) ++
    leBytes 8 r.info ++ leBytes 8 (r.ts % 2 ^ 63 + b2n phase * 2 ^ 63) := by
  have hword : ∀ a b, a = b → leBytes 8 r.tag ++ leBytes 8 a ++ leBytes 8 r.info ++ leBytes 8 (r.ts % 2 ^ 63 + b2n phase * 2 ^ 63) =
      leBytes 8 r.tag ++ leBytes 8 b ++ leBytes 8 r.info ++ leBytes 8 (r.ts % 2 ^ 63 + b2n phase * 2 ^ 63) := fun _ _ h => by rw [h]
  rw [Rec.norm]
  by_cases h : r.origin = 0
  · rw [if_pos h, if_pos h, Rec.bytes]
    exact hword _ _ (by dsimp only; omega)
  · rw [if_neg h, if_neg h, Rec.bytes]
    exact hword _ _ (by dsimp only; omega)

section
variable (c : Core) (p q : Nat) (r : Rec)

/-- The slot of TAIL. -/
def Core.cqSlot : Nat := (c.cqh? (qi p q)).base + 32 * c.rf Regs.HIF_CQ_PTR_TAIL (qi p q)

/-- The slot after TAIL (R569). -/
def Core.cqNext : Nat :=
  if c.rf Regs.HIF_CQ_PTR_TAIL (qi p q) + 1 == (c.cqh? (qi p q)).size then 0 else c.rf Regs.HIF_CQ_PTR_TAIL (qi p q) + 1

/-- The bytes that a record takes in its queue: with the head of the queue of its item, and the queue's phase. -/
def Core.recBytes : List Byte :=
  r.norm.bytes (if r.origin = 0 then c.rf Regs.HIF_SQ_PTR_HEAD (qi p r.sq) else 0) (c.cqh? (qi p q)).phase

/-- What a record written at a tick leaves of a queue's hidden state. -/
def Core.cqhAfter (tick : Nat) : QHid :=
  let h := c.cqh? (qi p q)
  { h with
    phase := if c.rf Regs.HIF_CQ_PTR_TAIL (qi p q) + 1 == h.size then !h.phase else h.phase
    unsignalled := h.unsignalled + 1
    firstTick := if h.unsignalled = 0 then tick else h.firstTick }

/-- A record leaves its slot. -/
def Core.dropRec : Core := { c with recs := c.recs.erase r }

/-- The device with a record in the next slot of its queue, before CQ_FULL and the vector. -/
def Core.recPut : Core :=
  let d := c.writeHost (c.cqSlot p q) (c.recBytes p q r)
  (((d.setCqh (qi p q) (c.cqhAfter p q d.tick)).wf Regs.HIF_CQ_PTR_TAIL (qi p q) (c.cqNext p q)).dropRec r).count
    Regs.HIF_ITEMS_ENDED_COUNT p

/-- CQ_FULL of a queue of `n` slots without a free one (R569). -/
def Core.cqFull (n : Nat) : Core :=
  if c.cqUnread (qi p q) + 1 = n then (c.wf Regs.HIF_CQ_STATUS_FULL (qi p q) 1).evt Cls.info Src.pcie p 0x0D02 q else c

/-- The vector of a queue with COUNT records unread, or more (R569). -/
def Core.cqSignal : Core :=
  if max 1 (c.rf Regs.HIF_CQ_MOD_COUNT (qi p q)) ≤ c.cqUnread (qi p q) then c.cqVector p q else c

theorem Core.putRec_eq : c.putRec p q r = ((c.recPut p q r).cqFull p q (c.cqh? (qi p q)).size).cqSignal p q := rfl

/-! ### The record put -/

@[simp] theorem Core.writeHost_tick (a : Nat) (bs : List Byte) : (c.writeHost a bs).tick = c.tick := rfl

@[simp] theorem Core.dropRec_rf (f : Fld) (j : Nat) : (c.dropRec r).rf f j = c.rf f j := rfl

@[simp] theorem Core.dropRec_cqh? (i : Nat) : (c.dropRec r).cqh? i = c.cqh? i := rfl

theorem Core.keepsWork.dropRec {d : Core} (h : c.keepsWork d) : c.keepsWork (d.dropRec r) := h

/-- Where the record of a queue stands, and what the host sees of it. -/
def Core.recView (c : Core) : List Rec × SMap Byte × List Evt × List OutMsg := (c.recs, c.host, c.evtBuf, c.out)

theorem Core.recView_wf (f : Fld) (i v : Nat) : (c.wf f i v).recView = c.recView := rfl

theorem Core.recView_count (f : Fld) (i k : Nat) : (c.count f i k).recView = c.recView := rfl

theorem Core.recView_setCqh (i : Nat) (h : QHid) : (c.setCqh i h).recView = c.recView := rfl

theorem Core.recView_dropRec : (c.dropRec r).recView = (c.recView.1.erase r, c.recView.2) := rfl

theorem Core.recView_writeHost (a : Nat) (bs : List Byte) :
    (c.writeHost a bs).recView = (c.recs, (c.writeHost a bs).host, c.evtBuf, c.out) := rfl

theorem Core.recView_recPut : (c.recPut p q r).recView =
    (c.recs.erase r, (c.writeHost (c.cqSlot p q) (c.recBytes p q r)).host, c.evtBuf, c.out) := by
  rw [Core.recPut, Core.recView_count, Core.recView_dropRec, Core.recView_wf, Core.recView_setCqh, Core.recView_writeHost]

theorem Core.keepsWork_recPut : c.keepsWork (c.recPut p q r) :=
  (((((Core.keepsWork.refl c).writeHost _ _).setCqh _ _).wf _ _ _).dropRec _ _).count _ _ _

/-- The registers of the queues but its pointers stay. -/
theorem Core.rf_recPut {f : Fld} (hptr : f.reg.apart Regs.HIF_CQ_PTR = true) (hended : f.reg.apart Regs.HIF_ITEMS_ENDED = true) (j : Nat) :
    (c.recPut p q r).rf f j = c.rf f j := by
  rw [Core.recPut, Core.rf_count_apart _ _ _ _ hended, Core.dropRec_rf, Core.rf_wf_apart _ _ _ _ hptr, Core.setCqh_rf, Core.writeHost_rf]

theorem Core.rf_ended_recPut : (c.recPut p q r).rf Regs.HIF_ITEMS_ENDED_COUNT p =
    min (c.rf Regs.HIF_ITEMS_ENDED_COUNT p + 1) Regs.HIF_ITEMS_ENDED_COUNT.top := by
  rw [Core.recPut, Core.rf_count_same _ _ _ _ (by decide), Core.dropRec_rf, Core.rf_wf_apart _ _ _ _ (by decide),
    Core.setCqh_rf, Core.writeHost_rf]

theorem Core.rf_head_recPut : (c.recPut p q r).rf Regs.HIF_CQ_PTR_HEAD (qi p q) = c.rf Regs.HIF_CQ_PTR_HEAD (qi p q) := by
  rw [Core.recPut, Core.rf_count_apart _ _ _ _ (by decide), Core.dropRec_rf,
    Core.rf_wf_beside (f := Regs.HIF_CQ_PTR_TAIL) (g := Regs.HIF_CQ_PTR_HEAD) _ _ _ (by decide) rfl (by decide), Core.setCqh_rf, Core.writeHost_rf]

theorem Core.cqNext_lt (ht : c.rf Regs.HIF_CQ_PTR_TAIL (qi p q) < (c.cqh? (qi p q)).size) : c.cqNext p q < (c.cqh? (qi p q)).size := by
  simp only [Core.cqNext, beq_iff_eq]
  split <;> omega

/-- TAIL moves to the next slot, or back to the first (R569). -/
theorem Core.rf_tail_recPut (ht : c.rf Regs.HIF_CQ_PTR_TAIL (qi p q) < (c.cqh? (qi p q)).size) (hs : (c.cqh? (qi p q)).size ≤ 65536) :
    (c.recPut p q r).rf Regs.HIF_CQ_PTR_TAIL (qi p q) = c.cqNext p q := by
  have htop : Regs.HIF_CQ_PTR_TAIL.top = 65535 := by decide
  have hlt := c.cqNext_lt p q ht
  rw [Core.recPut, Core.rf_count_apart _ _ _ _ (by decide), Core.dropRec_rf, Core.rf_wf_fits _ _ _ (by decide) (by rw [htop]; omega)]

theorem Core.cqh?_recPut : (c.recPut p q r).cqh? (qi p q) = c.cqhAfter p q c.tick := by
  rw [Core.recPut, Core.count_cqh?, Core.dropRec_cqh?, Core.wf_cqh?, Core.cqh?_setCqh_same, Core.writeHost_tick]

theorem Core.cqUnread_recPut (ht : c.rf Regs.HIF_CQ_PTR_TAIL (qi p q) < (c.cqh? (qi p q)).size) (hs : (c.cqh? (qi p q)).size ≤ 65536) :
    (c.recPut p q r).cqUnread (qi p q) =
      (c.cqNext p q + (c.cqh? (qi p q)).size - c.rf Regs.HIF_CQ_PTR_HEAD (qi p q) % (c.cqh? (qi p q)).size) % (c.cqh? (qi p q)).size := by
  have hsize : ((c.recPut p q r).cqh? (qi p q)).size = (c.cqh? (qi p q)).size := by rw [Core.cqh?_recPut]; rfl
  rw [Core.cqUnread_eq _ _ (by omega), hsize, c.rf_tail_recPut p q r ht hs, Core.rf_head_recPut]

/-! ### CQ_FULL and the vector -/

variable (n : Nat)

theorem Core.cqFull_view : (c.cqFull p q n).recs = c.recs ∧ (c.cqFull p q n).host = c.host ∧ (c.cqFull p q n).out = c.out ∧
    (c.cqFull p q n).cqh? (qi p q) = c.cqh? (qi p q) := by
  rw [Core.cqFull]
  split <;> exact ⟨rfl, rfl, rfl, rfl⟩

theorem Core.keepsWork.cqFull {d : Core} (h : c.keepsWork d) : c.keepsWork (d.cqFull p q n) := by
  rw [Core.cqFull]
  split
  · exact (h.wf _ _ _).evt _ _ _ _ _ _
  · exact h

theorem Core.rf_cqFull {f : Fld} (h : f.reg.apart Regs.HIF_CQ_STATUS = true) (j : Nat) : (c.cqFull p q n).rf f j = c.rf f j := by
  rw [Core.cqFull]
  split
  · rw [Core.evt_rf, Core.rf_wf_apart _ _ _ _ h]
  · rfl

theorem Core.cqUnread_cqFull : (c.cqFull p q n).cqUnread (qi p q) = c.cqUnread (qi p q) := by
  obtain ⟨-, -, -, hq⟩ := c.cqFull_view p q n
  rw [Core.cqUnread, Core.cqUnread, hq, c.rf_cqFull p q n (by decide), c.rf_cqFull p q n (by decide)]

theorem Core.rf_full_cqFull (h : c.rf Regs.HIF_CQ_STATUS_FULL (qi p q) = 0) :
    (c.cqFull p q n).rf Regs.HIF_CQ_STATUS_FULL (qi p q) = b2n (decide (c.cqUnread (qi p q) + 1 = n)) := by
  rw [Core.cqFull]
  split
  next hfull =>
    rw [decide_eq_true hfull, Core.evt_rf, Core.rf_wf_fits _ _ _ (by decide) (by decide)]
    rfl
  next hroom =>
    rw [decide_eq_false hroom, h]
    rfl

theorem Core.evtBuf_cqFull (hq : q < 2 ^ 64) : (c.cqFull p q n).evtBuf =
    c.evtBuf ++ if c.cqUnread (qi p q) + 1 = n then [⟨Cls.info, Src.pcie, p, 0x0D02, q, 0⟩] else [] := by
  rw [Core.cqFull]
  split
  · conv_rhs => rw [← Nat.mod_eq_of_lt hq]
    rfl
  · exact (List.append_nil _).symm

/-- The vector leaves registers, records, host memory and events. -/
theorem Core.cqSignal_view : (c.cqSignal p q).regs = c.regs ∧ (c.cqSignal p q).recs = c.recs ∧ (c.cqSignal p q).host = c.host ∧
    (c.cqSignal p q).evtBuf = c.evtBuf := by
  rw [Core.cqSignal]
  split <;> exact ⟨rfl, rfl, rfl, rfl⟩

theorem Core.rf_cqSignal (f : Fld) (j : Nat) : (c.cqSignal p q).rf f j = c.rf f j := Core.rf_of_regs (c.cqSignal_view p q).1 f j

theorem Core.keepsWork.cqSignal {d : Core} (h : c.keepsWork d) : c.keepsWork (d.cqSignal p q) := by
  rw [Core.cqSignal]
  split
  · exact (h.setCqh _ _).send _ _
  · exact h

theorem Core.cqh?_cqVector : (c.cqVector p q).cqh? (qi p q) = { c.cqh? (qi p q) with unsignalled := 0 } := c.cqh?_setCqh_same _ _

theorem Core.phase_cqSignal : ((c.cqSignal p q).cqh? (qi p q)).phase = (c.cqh? (qi p q)).phase := by
  rw [Core.cqSignal]
  split
  · rw [Core.cqh?_cqVector]
  · rfl

theorem Core.out_cqSignal : if max 1 (c.rf Regs.HIF_CQ_MOD_COUNT (qi p q)) ≤ c.cqUnread (qi p q)
    then (c.cqSignal p q).out = c.out ++ [c.cqMsg p q] ∧ ((c.cqSignal p q).cqh? (qi p q)).unsignalled = 0
    else (c.cqSignal p q).out = c.out ∧ ((c.cqSignal p q).cqh? (qi p q)).unsignalled = (c.cqh? (qi p q)).unsignalled := by
  rw [Core.cqSignal]
  split
  · exact ⟨rfl, congrArg QHid.unsignalled (c.cqh?_cqVector p q)⟩
  · exact ⟨rfl, rfl⟩

end

end Sys2Proof.Machine
end

section
/-! PROOFS. RECORD_WRITE: the oldest waiting record goes to the next slot of its queue (R568, R569, R571). -/

namespace Sys2Proof.Machine

section
variable (c : Core) (p q : Nat) (r : Rec)

/-- The records unread once one more is written. -/
def Core.cqUnreadNext : Nat :=
  (c.cqNext p q + (c.cqh? (qi p q)).size - c.rf Regs.HIF_CQ_PTR_HEAD (qi p q) % (c.cqh? (qi p q)).size) % (c.cqh? (qi p q)).size

theorem Core.cqNext_eq : c.cqNext p q =
    if c.rf Regs.HIF_CQ_PTR_TAIL (qi p q) + 1 = (c.cqh? (qi p q)).size then 0 else c.rf Regs.HIF_CQ_PTR_TAIL (qi p q) + 1 := by
  simp only [Core.cqNext, beq_iff_eq]

theorem Core.rf_putRec {f : Fld} (h : f.reg.apart Regs.HIF_CQ_STATUS = true) (j : Nat) : (c.putRec p q r).rf f j = (c.recPut p q r).rf f j := by
  rw [Core.putRec_eq, Core.rf_cqSignal, Core.rf_cqFull _ _ _ _ h]

theorem Core.keepsWork_putRec : c.keepsWork (c.putRec p q r) := by
  rw [Core.putRec_eq]
  exact ((c.keepsWork_recPut p q r).cqFull _ _ _ _).cqSignal _ _ _

theorem Core.recs_putRec : (c.putRec p q r).recs = c.recs.erase r := by
  obtain ⟨-, hsignal, -, -⟩ := ((c.recPut p q r).cqFull p q (c.cqh? (qi p q)).size).cqSignal_view p q
  obtain ⟨hrecs, -, -, -⟩ := (c.recPut p q r).cqFull_view p q (c.cqh? (qi p q)).size
  rw [Core.putRec_eq, hsignal, hrecs]
  exact congrArg Prod.fst (c.recView_recPut p q r)

theorem Core.host_putRec : (c.putRec p q r).host = (c.writeHost (c.cqSlot p q) (c.recBytes p q r)).host := by
  obtain ⟨-, -, hsignal, -⟩ := ((c.recPut p q r).cqFull p q (c.cqh? (qi p q)).size).cqSignal_view p q
  obtain ⟨-, hhost, -, -⟩ := (c.recPut p q r).cqFull_view p q (c.cqh? (qi p q)).size
  rw [Core.putRec_eq, hsignal, hhost]
  exact congrArg (·.2.1) (c.recView_recPut p q r)

theorem Core.phase_putRec : ((c.putRec p q r).cqh? (qi p q)).phase =
    if c.rf Regs.HIF_CQ_PTR_TAIL (qi p q) + 1 = (c.cqh? (qi p q)).size then !(c.cqh? (qi p q)).phase else (c.cqh? (qi p q)).phase := by
  obtain ⟨-, -, -, hcqh⟩ := (c.recPut p q r).cqFull_view p q (c.cqh? (qi p q)).size
  rw [Core.putRec_eq, Core.phase_cqSignal, hcqh, Core.cqh?_recPut]
  simp only [Core.cqhAfter, beq_iff_eq]

section
variable (ht : c.rf Regs.HIF_CQ_PTR_TAIL (qi p q) < (c.cqh? (qi p q)).size) (hs : (c.cqh? (qi p q)).size ≤ 65536)
include ht hs

theorem Core.full_putRec (hroom : c.rf Regs.HIF_CQ_STATUS_FULL (qi p q) = 0) : (c.putRec p q r).rf Regs.HIF_CQ_STATUS_FULL (qi p q) =
    b2n (decide (c.cqUnreadNext p q + 1 = (c.cqh? (qi p q)).size)) := by
  have hfull : (c.recPut p q r).rf Regs.HIF_CQ_STATUS_FULL (qi p q) = 0 :=
    (c.rf_recPut p q r (by decide) (by decide) _).trans hroom
  rw [Core.putRec_eq, Core.rf_cqSignal, Core.rf_full_cqFull _ _ _ _ hfull, Core.cqUnread_recPut _ _ _ _ ht hs, Core.cqUnreadNext]

theorem Core.evtBuf_putRec (hq : q < 2 ^ 64) : (c.putRec p q r).evtBuf =
    c.evtBuf ++ if c.cqUnreadNext p q + 1 = (c.cqh? (qi p q)).size then [⟨Cls.info, Src.pcie, p, 0x0D02, q, 0⟩] else [] := by
  obtain ⟨-, -, -, hsignal⟩ := ((c.recPut p q r).cqFull p q (c.cqh? (qi p q)).size).cqSignal_view p q
  rw [Core.putRec_eq, hsignal, Core.evtBuf_cqFull _ _ _ _ hq, Core.cqUnread_recPut _ _ _ _ ht hs, Core.cqUnreadNext,
    show (c.recPut p q r).evtBuf = c.evtBuf from congrArg (·.2.2.1) (c.recView_recPut p q r)]

theorem Core.out_putRec : if max 1 (c.rf Regs.HIF_CQ_MOD_COUNT (qi p q)) ≤ c.cqUnreadNext p q
    then (c.putRec p q r).out = c.out ++ [c.cqMsg p q] ∧ ((c.putRec p q r).cqh? (qi p q)).unsignalled = 0
    else (c.putRec p q r).out = c.out ∧ ((c.putRec p q r).cqh? (qi p q)).unsignalled = (c.cqh? (qi p q)).unsignalled + 1 := by
  obtain ⟨-, -, hout, hcqh⟩ := (c.recPut p q r).cqFull_view p q (c.cqh? (qi p q)).size
  have hrf : ∀ f : Fld, f.reg.apart Regs.HIF_CQ_STATUS = true → f.reg.apart Regs.HIF_CQ_PTR = true → f.reg.apart Regs.HIF_ITEMS_ENDED = true →
      ∀ j, ((c.recPut p q r).cqFull p q (c.cqh? (qi p q)).size).rf f j = c.rf f j := fun f h₁ h₂ h₃ j =>
    (Core.rf_cqFull _ _ _ _ h₁ j).trans (c.rf_recPut p q r h₂ h₃ j)
  have hsignal := ((c.recPut p q r).cqFull p q (c.cqh? (qi p q)).size).out_cqSignal p q
  rw [Core.cqUnread_cqFull, Core.cqUnread_recPut _ _ _ _ ht hs, hcqh, hout, Core.cqh?_recPut, Core.cqMsg, Core.flag,
    hrf _ (by decide) (by decide) (by decide), hrf _ (by decide) (by decide) (by decide), hrf _ (by decide) (by decide) (by decide),
    show (c.recPut p q r).out = c.out from congrArg (·.2.2.2) (c.recView_recPut p q r), ← Core.putRec_eq] at hsignal
  exact hsignal

end

end

section
variable {p : PartId} {q : Fin 64} {s : State}

theorem recordWrite_idle (h : s.core.nextRec p.val q.val = none ∨ s.core.cqOpen p.val q.val = false) :
    exec (.recordWrite p q) s = .next s := by
  show execRecordWrite p q s = _
  apply State.on_of_fixed
  rcases hr : s.core.nextRec p.val q.val with - | r
  · rfl
  · simp [h.resolve_left (by simp [hr])]

theorem exec_recordWrite {r : Rec} (hr : s.core.nextRec p.val q.val = some r) (hopen : s.core.cqOpen p.val q.val = true) :
    exec (.recordWrite p q) s = s.on (fun c => c.putRec p.val q.val r) := by
  show execRecordWrite p q s = _
  simp only [execRecordWrite, State.on, hr, hopen, if_true]

/-- A queue that takes records is not full. -/
theorem Core.rf_full_of_cqOpen {c : Core} {p q : Nat} (h : c.cqOpen p q = true) : c.rf Regs.HIF_CQ_STATUS_FULL (qi p q) = 0 := by
  have hflag : c.flag Regs.HIF_CQ_STATUS_FULL (qi p q) = false := by
    simp only [Core.cqOpen, Bool.and_eq_true, Bool.not_eq_true'] at h
    obtain ⟨⟨-, hroom⟩, -⟩ := h
    exact hroom
  have hle : c.rf Regs.HIF_CQ_STATUS_FULL (qi p q) ≤ 1 := Core.rf_le_top _ _
  have hne : c.rf Regs.HIF_CQ_STATUS_FULL (qi p q) ≠ 1 := beq_eq_false_iff_ne.mp hflag
  omega

theorem recordWrite_puts {r : Rec} (hr : s.core.nextRec p.val q.val = some r) (hopen : s.core.cqOpen p.val q.val = true)
    (ht : s.core.rf Regs.HIF_CQ_PTR_TAIL (qi p.val q.val) < (s.core.cqh? (qi p.val q.val)).size)
    (hs : (s.core.cqh? (qi p.val q.val)).size ≤ 65536) :
    Answers s (.recordWrite p q) (fun c => c.recs = s.core.recs.erase r ∧
      c.host = (s.core.writeHost (s.core.cqSlot p.val q.val) (s.core.recBytes p.val q.val r)).host ∧
      c.rf Regs.HIF_CQ_PTR_TAIL (qi p.val q.val) = s.core.cqNext p.val q.val ∧
      c.rf Regs.HIF_CQ_PTR_HEAD (qi p.val q.val) = s.core.rf Regs.HIF_CQ_PTR_HEAD (qi p.val q.val) ∧
      (c.cqh? (qi p.val q.val)).phase = (if s.core.rf Regs.HIF_CQ_PTR_TAIL (qi p.val q.val) + 1 = (s.core.cqh? (qi p.val q.val)).size
        then !(s.core.cqh? (qi p.val q.val)).phase else (s.core.cqh? (qi p.val q.val)).phase) ∧
      s.core.keepsWork c ∧
      c.rf Regs.HIF_ITEMS_ENDED_COUNT p.val = min (s.core.rf Regs.HIF_ITEMS_ENDED_COUNT p.val + 1) Regs.HIF_ITEMS_ENDED_COUNT.top ∧
      c.rf Regs.HIF_CQ_STATUS_FULL (qi p.val q.val) =
        b2n (decide (s.core.cqUnreadNext p.val q.val + 1 = (s.core.cqh? (qi p.val q.val)).size)) ∧
      c.evtBuf = s.core.evtBuf ++ (if s.core.cqUnreadNext p.val q.val + 1 = (s.core.cqh? (qi p.val q.val)).size
        then [⟨Cls.info, Src.pcie, p.val, 0x0D02, q.val, 0⟩] else []) ∧
      if max 1 (s.core.rf Regs.HIF_CQ_MOD_COUNT (qi p.val q.val)) ≤ s.core.cqUnreadNext p.val q.val
        then c.out = s.core.out ++ [s.core.cqMsg p.val q.val] ∧ (c.cqh? (qi p.val q.val)).unsignalled = 0
        else c.out = s.core.out ∧ (c.cqh? (qi p.val q.val)).unsignalled = (s.core.cqh? (qi p.val q.val)).unsignalled + 1) :=
  answers_on (exec_recordWrite hr hopen) ⟨s.core.recs_putRec _ _ r, s.core.host_putRec _ _ r,
    (s.core.rf_putRec _ _ r (by decide) _).trans (s.core.rf_tail_recPut _ _ r ht hs),
    (s.core.rf_putRec _ _ r (by decide) _).trans (s.core.rf_head_recPut _ _ r), s.core.phase_putRec _ _ r, s.core.keepsWork_putRec _ _ r,
    (s.core.rf_putRec _ _ r (by decide) _).trans (s.core.rf_ended_recPut _ _ r),
    s.core.full_putRec _ _ r ht hs (Core.rf_full_of_cqOpen hopen), s.core.evtBuf_putRec _ _ r ht hs (q.isLt.trans (by decide)),
    s.core.out_putRec _ _ r ht hs⟩

end

end Sys2Proof.Machine
end

section
/-! PROOFS. The checks of an entry of a submission queue (R566). -/

namespace Sys2Proof.Machine

section
variable {bs : List Byte}

/-- An entry whose reserved bytes are zero and whose flags are ORDER alone (R566). -/
def EntryClean (bs : List Byte) : Prop := field bs 1 1 ≤ 1 ∧ field bs 2 6 = 0 ∧ field bs 44 20 = 0

/-- What `entryCheck` answers to the address of a copy. -/
def copyCheck (a : Nat) : Nat := if a / 2 ^ 60 = 6 then St.PROTECTION else if [1, 2, 3, 5].contains (a / 2 ^ 60) then 0 else St.BOUNDS

/-- The checks of a clean entry by its kind. -/
def kindCheck (bs : List Byte) : Nat :=
  if field bs 0 1 = 1 then
    if field bs 24 8 ≠ 0 ∨ 2 ^ 32 ≤ field bs 32 8 then St.LENGTH
    else if field bs 16 8 / 2 ^ 60 ≠ 2 ∧ field bs 16 8 / 2 ^ 60 ≠ 3 then St.BOUNDS else 0
  else if field bs 0 1 = 2 then
    if 2 ^ 40 ≤ field bs 32 8 then St.LENGTH
    else if copyCheck (field bs 16 8) ≠ 0 then copyCheck (field bs 16 8) else copyCheck (field bs 24 8)
  else if field bs 16 8 ≠ 0 ∨ field bs 24 8 ≠ 0 ∨ field bs 32 8 ≠ 0 ∨ !(field bs 40 4 == 0) then St.LENGTH else 0

theorem entryCheck_eq : entryCheck bs =
    if field bs 0 1 = 0 ∨ 3 < field bs 0 1 then St.LENGTH
    else if 1 < field bs 1 1 || !(field bs 2 6 == 0) || !(field bs 44 20 == 0) then St.LENGTH else kindCheck bs := rfl

theorem dirty_iff : (decide (1 < field bs 1 1) || !(field bs 2 6 == 0) || !(field bs 44 20 == 0)) = true ↔ ¬EntryClean bs := by
  simp only [EntryClean, Bool.or_eq_true, decide_eq_true_eq, Bool.not_eq_true', beq_eq_false_iff_ne]
  omega

theorem entryCheck_refuses (h : field bs 0 1 = 0 ∨ 3 < field bs 0 1 ∨ ¬EntryClean bs) : entryCheck bs = St.LENGTH := by
  rw [entryCheck_eq]
  split
  · rfl
  · exact if_pos (dirty_iff.mpr (by tauto))

theorem entryCheck_clean (hclean : EntryClean bs) (h0 : field bs 0 1 ≠ 0) (h3 : field bs 0 1 ≤ 3) : entryCheck bs = kindCheck bs := by
  rw [entryCheck_eq, if_neg (by omega), if_neg (fun h => dirty_iff.mp h hclean)]

theorem entryCheck_program (hclean : EntryClean bs) (hk : field bs 0 1 = 1) : entryCheck bs =
    if field bs 24 8 ≠ 0 ∨ 2 ^ 32 ≤ field bs 32 8 then St.LENGTH
    else if field bs 16 8 / 2 ^ 60 = 2 ∨ field bs 16 8 / 2 ^ 60 = 3 then 0 else St.BOUNDS := by
  rw [entryCheck_clean hclean (by omega) (by omega), kindCheck, if_pos hk]
  generalize field bs 16 8 / 2 ^ 60 = x
  by_cases h : x = 2 ∨ x = 3
  · rw [if_pos h, if_neg (show ¬(x ≠ 2 ∧ x ≠ 3) by tauto)]
  · rw [if_neg h, if_pos (show x ≠ 2 ∧ x ≠ 3 by tauto)]

theorem entryCheck_copy (hclean : EntryClean bs) (hk : field bs 0 1 = 2) : entryCheck bs =
    if 2 ^ 40 ≤ field bs 32 8 then St.LENGTH
    else if copyCheck (field bs 16 8) ≠ 0 then copyCheck (field bs 16 8) else copyCheck (field bs 24 8) := by
  rw [entryCheck_clean hclean (by omega) (by omega), kindCheck, if_neg (by omega), if_pos hk]

theorem copyCheck_of_mem {a : Nat} (h : a / 2 ^ 60 ∈ [1, 2, 3, 5]) : copyCheck a = 0 := by
  rw [copyCheck, if_neg (by rintro h6; rw [h6] at h; exact absurd h (by decide)), if_pos (List.contains_iff_mem.mpr h)]

theorem copyCheck_of_not_mem {a : Nat} (h : a / 2 ^ 60 ∉ [1, 2, 3, 5]) :
    copyCheck a = if a / 2 ^ 60 = 6 then St.PROTECTION else St.BOUNDS := by
  rw [copyCheck, if_neg (fun hc => h (List.contains_iff_mem.mp hc))]

theorem entryCheck_copy_takes (hclean : EntryClean bs) (hk : field bs 0 1 = 2) (hlen : field bs 32 8 < 2 ^ 40)
    (h0 : field bs 16 8 / 2 ^ 60 ∈ [1, 2, 3, 5]) (h1 : field bs 24 8 / 2 ^ 60 ∈ [1, 2, 3, 5]) : entryCheck bs = 0 := by
  rw [entryCheck_copy hclean hk, if_neg (not_le.mpr hlen), copyCheck_of_mem h0, copyCheck_of_mem h1, ite_self]

theorem entryCheck_copy_refuses (hclean : EntryClean bs) (hk : field bs 0 1 = 2) (hlen : field bs 32 8 < 2 ^ 40)
    (h0 : field bs 16 8 / 2 ^ 60 ∉ [1, 2, 3, 5]) :
    entryCheck bs = if field bs 16 8 / 2 ^ 60 = 6 then St.PROTECTION else St.BOUNDS := by
  rw [entryCheck_copy hclean hk, if_neg (not_le.mpr hlen), copyCheck_of_not_mem h0, if_pos]
  split <;> decide

theorem entryCheck_fence (hclean : EntryClean bs) (hk : field bs 0 1 = 3) : entryCheck bs =
    if field bs 16 8 = 0 ∧ field bs 24 8 = 0 ∧ field bs 32 8 = 0 ∧ field bs 40 4 = 0 then 0 else St.LENGTH := by
  rw [entryCheck_clean hclean (by omega) (by omega), kindCheck, if_neg (by omega), if_neg (by omega)]
  simp only [Bool.not_eq_true', beq_eq_false_iff_ne]
  by_cases h : field bs 16 8 = 0 ∧ field bs 24 8 = 0 ∧ field bs 32 8 = 0 ∧ field bs 40 4 = 0
  · rw [if_pos h, if_neg (by tauto)]
  · rw [if_neg h, if_pos (by tauto)]

end

end Sys2Proof.Machine
end

section
/-! PROOFS. Fetching: the next entry of a submission queue becomes an item, which its checks may end at once; a failed fetch (R564 to R566, R571). -/

namespace Sys2Proof.Machine

/-! ### The end of an item -/

/-- What the end of an item leaves: the heads of the submission queues, the turn of a partition, the item numbers and the memories. -/
def Core.keepsTurns (c d : Core) (p : Nat) : Prop :=
  (∀ j, d.rf Regs.HIF_SQ_PTR_HEAD j = c.rf Regs.HIF_SQ_PTR_HEAD j) ∧ (d.part p).sqTurn = (c.part p).sqTurn ∧ d.nextItem = c.nextItem ∧ d.mems = c.mems

section
variable {c d : Core} {p : Nat}

theorem Core.keepsTurns.refl (c : Core) (p : Nat) : c.keepsTurns c p := ⟨fun _ => rfl, rfl, rfl, rfl⟩

section
variable (h : c.keepsTurns d p)
include h

theorem Core.keepsTurns.evt (a b e f g k : Nat) : c.keepsTurns (d.evt a b e f g k) p := h

theorem Core.keepsTurns.sqOff (l : List Nat) : c.keepsTurns { d with sqOff := l } p := h

theorem Core.keepsTurns.wf (f : Fld) (hf : Regs.HIF_SQ_PTR.apart f.reg = true) (i v : Nat) : c.keepsTurns (d.wf f i v) p := by
  obtain ⟨hhead, hturn, hitem, hmem⟩ := h
  exact ⟨fun j => (Core.rf_wf_apart _ _ _ _ hf).trans (hhead j), hturn, hitem, hmem⟩

theorem Core.keepsTurns.sqClear (q n : Nat) : c.keepsTurns (d.sqClear q n) p := by
  rw [Core.sqClear]
  split
  · exact (h.sqOff _).wf _ (by decide) _ _
  · exact h

end

/-- An item leaves the list and its record waits. -/
def Core.takeRec (c : Core) (id : Nat) (r : Rec) : Core := { c with items := c.items.filter (fun j => j.id != id), recs := c.recs ++ [r] }

/-- The end of an item of a draining partition counts. -/
def Core.countDrain (c : Core) (p : Nat) : Core :=
  if c.pstate p = pDRAINING then c.setPart p { c.part p with drainEnded := (c.part p).drainEnded + 1 } else c

theorem Core.keepsTurns.takeRec (h : c.keepsTurns d p) (id : Nat) (r : Rec) : c.keepsTurns (d.takeRec id r) p := h

theorem Core.keepsTurns.countDrain (h : c.keepsTurns d p) (n : Nat) : c.keepsTurns (d.countDrain n) p := by
  obtain ⟨hhead, hturn, hitem, hmem⟩ := h
  rw [Core.countDrain]
  split
  · refine ⟨hhead, ?_, hitem, hmem⟩
    by_cases hp : p = n
    · subst hp
      rw [Core.part_setPart_same]
      exact hturn
    · rw [Core.part_setPart_other _ _ hp]
      exact hturn
  · exact ⟨hhead, hturn, hitem, hmem⟩

/-- The record of an item that ends with a status (R568); the status is KEY_REVOKED once the keys are revoked (R542). -/
def Core.recOf (c : Core) (i : Item) (status : Nat) : Rec :=
  { part := i.part, cq := i.cq, tag := i.tag, status := if (c.part i.part).revoked then St.KEY_REVOKED else status, sq := i.sq
    origin := if i.kind = .op then 1 else 0, ltile := i.ltile, entry := i.entry, info := i.info, ts := c.ts }

/-- An item's end before its completion event. -/
def Core.itemEnded (c : Core) (i : Item) (id status : Nat) : Core := ((c.takeRec id (c.recOf i status)).countDrain i.part).sqClear i.part i.sq

/-- The completion event of an item whose own completion ends it, for a queue that asks for it (R569). -/
def Core.postEnd (c : Core) (i : Item) (r : Rec) (own : Bool) : Core :=
  if own && c.flag Regs.HIF_CQ_CFG_EVT (qi i.part i.cq) then
    c.evt Cls.completion i.source i.part 0x0D0A (r.status + i.cq * 2 ^ 16 + r.origin * 2 ^ 22) i.tag
  else c

theorem Core.keepsTurns.postEnd (h : c.keepsTurns d p) (i : Item) (r : Rec) (own : Bool) : c.keepsTurns (d.postEnd i r own) p := by
  rw [Core.postEnd]
  split
  · exact h.evt _ _ _ _ _ _
  · exact h

theorem Core.endItem_eq {i : Item} {id : Nat} (h : c.item? id = some i) (status : Nat) (own : Bool) :
    c.endItem id status own = (c.itemEnded i id status).postEnd i (c.recOf i status) (own && !(c.part i.part).revoked) := by
  rw [Core.endItem, h, Core.itemEnded]
  rfl

/-- Where the items and their records stand. -/
def Core.itemView (c : Core) : List Item × List Rec := (c.items, c.recs)

theorem Core.itemView_wf (c : Core) (f : Fld) (i v : Nat) : (c.wf f i v).itemView = c.itemView := rfl

theorem Core.itemView_sqClear (c : Core) (q n : Nat) : (c.sqClear q n).itemView = c.itemView := by
  rw [Core.sqClear]
  split
  · rw [Core.itemView_wf, Core.itemView, Core.itemView]
  · rfl

theorem Core.itemView_countDrain (c : Core) (n : Nat) : (c.countDrain n).itemView = c.itemView := by
  rw [Core.countDrain]
  split <;> rfl

theorem Core.itemView_postEnd (c : Core) (i : Item) (r : Rec) (own : Bool) : (c.postEnd i r own).itemView = c.itemView := by
  rw [Core.postEnd]
  split <;> rfl

theorem Core.itemView_endItem {i : Item} {id : Nat} (h : c.item? id = some i) (status : Nat) (own : Bool) :
    (c.endItem id status own).itemView = (c.items.filter (fun j => j.id != id), c.recs ++ [c.recOf i status]) := by
  rw [Core.endItem_eq h, Core.itemView_postEnd, Core.itemEnded, Core.itemView_sqClear, Core.itemView_countDrain]
  rfl

theorem Core.keepsTurns_endItem {i : Item} {id : Nat} (h : c.item? id = some i) (status : Nat) (own : Bool) :
    c.keepsTurns (c.endItem id status own) p := by
  rw [Core.endItem_eq h]
  exact ((((Core.keepsTurns.refl c p).takeRec _ _).countDrain _).sqClear _ _).postEnd _ _ _

end

/-! ### The entry taken -/

section
variable (c : Core) (p q head : Nat) (bs : List Byte)

/-- The head of a queue moves past an entry, and the turn passes to the next queue (R563, R564). -/
def Core.sqAdvance : Core :=
  let d := c.wf Regs.HIF_SQ_PTR_HEAD (qi p q) ((head + 1) % c.rf Regs.HIF_SQ_CFG_SIZE (qi p q))
  d.setPart p { d.part p with sqTurn := (q + 1) % 64 }

/-- The item of an entry (R565, R566). -/
def entryItem (cq : Nat) : Item :=
  { id := 0, part := p, kind := (match field bs 0 1 with | 1 => .program | 2 => .copy | _ => .fence), sq := q, entry := head, tag := field bs 8 8
    cq := cq, order := bitOf (field bs 1 1) 0, limit := field bs 40 4, addr0 := field bs 16 8, addr1 := field bs 24 8
    len := field bs 32 8, source := Src.pcie }

/-- The entry at the head of a queue as an open item. -/
def Core.entryTaken : Core :=
  (c.sqAdvance p q head).openItem (entryItem p q head bs ((c.sqAdvance p q head).rf Regs.HIF_SQ_CFG_CQ (qi p q)))

theorem Core.sqFetch_eq (env : MemEnv) : c.sqFetch p q env =
    let head := c.rf Regs.HIF_SQ_PTR_HEAD (qi p q)
    let addr := c.rd Regs.HIF_SQ_BASE (qi p q) + 64 * head
    let r := c.itemAccess p [{ d := Desc.range addr 64, spaces := 0b1100 }] env
    let bs := r.2.readAt p 0 addr 0 64
    if r.1 ≠ 0 then r.2.sqFetchFailed p q r.1
    else if entryCheck bs ≠ 0 then (r.2.entryTaken p q head bs).endItem r.2.nextItem (entryCheck bs) true
    else r.2.entryTaken p q head bs := rfl

/-- The register of record slots is none of the heads of the submission queues. -/
theorem at_records_ne (i j : Nat) : Regs.HIF_SQ_PTR.at j ≠ Regs.HIF_RECORDS.at i := by
  simp only [Reg.at, Reg.offsetOf, Regs.HIF_SQ_PTR, Regs.HIF_RECORDS]
  omega

end

end Sys2Proof.Machine
end

section
/-! PROOFS. SQ_ENTRY_FETCH and SQ_FETCH_ERROR (R564 to R566, R571). -/

namespace Sys2Proof.Machine

section
variable (c : Core) (p q head : Nat) (bs : List Byte)

/-! ### The open item -/

/-- An item at the end of the list takes the next number. -/
def Core.addItem (j : Item) : Core := { c with items := c.items ++ [j], nextItem := c.nextItem + 1 }

theorem Core.addItem_rf (j : Item) (f : Fld) (i : Nat) : (c.addItem j).rf f i = c.rf f i := rfl

/-- An item under the number and the tick of its opening. -/
def Core.numbered (i : Item) : Item := { i with id := c.nextItem, openTick := c.tick }

theorem Core.openItem_eq (i : Item) :
    c.openItem i = (c.addItem (c.numbered i)).peak Regs.HIF_RECORDS_PEAK i.part ((c.addItem (c.numbered i)).slotsUsed i.part) := rfl

theorem Core.rf_head_openItem (i : Item) (j : Nat) : (c.openItem i).rf Regs.HIF_SQ_PTR_HEAD j = c.rf Regs.HIF_SQ_PTR_HEAD j := by
  have hne : Regs.HIF_SQ_PTR_HEAD.reg.at j ≠ Regs.HIF_RECORDS_PEAK.reg.at i.part := at_records_ne _ _
  rw [Core.openItem_eq, Core.peak, Core.rf, Core.wf, Core.rd_wr_other _ _ hne, ← Core.rf, Core.addItem_rf]

theorem Core.itemView_openItem (i : Item) : (c.openItem i).itemView = (c.items ++ [c.numbered i], c.recs) := by
  rw [Core.openItem_eq, Core.peak, Core.itemView_wf]
  rfl

theorem Core.wf_mems (f : Fld) (i v : Nat) : (c.wf f i v).mems = c.mems := rfl

theorem Core.openItem_view (i : Item) : (c.openItem i).nextItem = c.nextItem + 1 ∧ (c.openItem i).parts = c.parts ∧ (c.openItem i).mems = c.mems := by
  rw [Core.openItem_eq, Core.peak, Core.wf_nextItem, Core.wf_parts, Core.wf_mems]
  exact ⟨rfl, rfl, rfl⟩

/-! ### The entry taken -/

theorem Core.rf_head_sqAdvance (h0 : 0 < c.rf Regs.HIF_SQ_CFG_SIZE (qi p q)) (hs : c.rf Regs.HIF_SQ_CFG_SIZE (qi p q) ≤ 65536) :
    (c.sqAdvance p q head).rf Regs.HIF_SQ_PTR_HEAD (qi p q) = (head + 1) % c.rf Regs.HIF_SQ_CFG_SIZE (qi p q) := by
  have htop : Regs.HIF_SQ_PTR_HEAD.top = 65535 := by decide
  have hlt := Nat.mod_lt (head + 1) h0
  rw [Core.sqAdvance, Core.setPart_rf, Core.rf_wf_fits _ _ _ (by decide) (by rw [htop]; omega)]

theorem Core.rf_cq_sqAdvance : (c.sqAdvance p q head).rf Regs.HIF_SQ_CFG_CQ (qi p q) = c.rf Regs.HIF_SQ_CFG_CQ (qi p q) := by
  rw [Core.sqAdvance, Core.setPart_rf, Core.rf_wf_apart _ _ _ _ (by decide)]

theorem Core.sqTurn_sqAdvance : ((c.sqAdvance p q head).part p).sqTurn = (q + 1) % 64 := by
  rw [Core.sqAdvance, Core.part_setPart_same]

theorem Core.sqAdvance_view : (c.sqAdvance p q head).nextItem = c.nextItem ∧ (c.sqAdvance p q head).tick = c.tick ∧
    (c.sqAdvance p q head).itemView = c.itemView ∧ (c.sqAdvance p q head).mems = c.mems := by
  rw [Core.sqAdvance]
  exact ⟨rfl, rfl, rfl, rfl⟩

theorem Core.revoked_sqAdvance : ((c.sqAdvance p q head).part p).revoked = (c.part p).revoked := by
  rw [Core.sqAdvance, Core.part_setPart_same]
  rfl

/-- The item that an entry becomes: with the number and the tick of its fetch. -/
def Core.entryOpen : Item :=
  { entryItem p q head bs (c.rf Regs.HIF_SQ_CFG_CQ (qi p q)) with id := c.nextItem, openTick := c.tick }

theorem Core.itemView_entryTaken : (c.entryTaken p q head bs).itemView = (c.items ++ [c.entryOpen p q head bs], c.recs) := by
  obtain ⟨hnext, htick, hview, -⟩ := c.sqAdvance_view p q head
  have hitems : (c.sqAdvance p q head).items = c.items := congrArg Prod.fst hview
  have hrecs : (c.sqAdvance p q head).recs = c.recs := congrArg Prod.snd hview
  rw [Core.entryTaken, Core.itemView_openItem, hitems, hrecs, Core.numbered, hnext, htick, Core.rf_cq_sqAdvance, Core.entryOpen]

/-- A device in which the queue's head and the turn have moved past an entry, and an item has its number. -/
def Core.movedPast (d : Core) : Prop :=
  d.rf Regs.HIF_SQ_PTR_HEAD (qi p q) = (head + 1) % c.rf Regs.HIF_SQ_CFG_SIZE (qi p q) ∧ (d.part p).sqTurn = (q + 1) % 64 ∧
    d.nextItem = c.nextItem + 1 ∧ d.mems = c.mems

theorem Core.movedPast_entryTaken (h0 : 0 < c.rf Regs.HIF_SQ_CFG_SIZE (qi p q)) (hs : c.rf Regs.HIF_SQ_CFG_SIZE (qi p q) ≤ 65536) :
    c.movedPast p q head (c.entryTaken p q head bs) := by
  obtain ⟨hnext, -, -, hmems⟩ := c.sqAdvance_view p q head
  obtain ⟨hopen, hparts, hmem⟩ := (c.sqAdvance p q head).openItem_view
    (entryItem p q head bs ((c.sqAdvance p q head).rf Regs.HIF_SQ_CFG_CQ (qi p q)))
  rw [Core.entryTaken]
  refine ⟨(Core.rf_head_openItem _ _ _).trans (c.rf_head_sqAdvance p q head h0 hs), ?_, hopen.trans (by rw [hnext]), hmem.trans hmems⟩
  rw [Core.part_of_parts hparts, Core.sqTurn_sqAdvance]

theorem Core.movedPast.of_keepsTurns {d e : Core} (h : c.movedPast p q head d) (hk : d.keepsTurns e p) : c.movedPast p q head e := by
  obtain ⟨hhead, hturn, hnext, hmems⟩ := h
  obtain ⟨hhead', hturn', hnext', hmems'⟩ := hk
  exact ⟨(hhead' _).trans hhead, hturn'.trans hturn, hnext'.trans hnext, hmems'.trans hmems⟩

theorem Core.revoked_entryTaken : ((c.entryTaken p q head bs).part p).revoked = (c.part p).revoked := by
  obtain ⟨-, hparts, -⟩ := (c.sqAdvance p q head).openItem_view
    (entryItem p q head bs ((c.sqAdvance p q head).rf Regs.HIF_SQ_CFG_CQ (qi p q)))
  rw [Core.entryTaken, Core.part_of_parts hparts, Core.revoked_sqAdvance]

theorem Core.status_recOf_entryTaken (st : Nat) : ((c.entryTaken p q head bs).recOf (c.entryOpen p q head bs) st).status =
    if (c.part p).revoked then St.KEY_REVOKED else st := by
  rw [← c.revoked_entryTaken p q head bs]
  rfl

theorem Core.origin_recOf_entryTaken (st : Nat) : ((c.entryTaken p q head bs).recOf (c.entryOpen p q head bs) st).origin = 0 := by
  refine if_neg ?_
  show (match field bs 0 1 with | 1 => ItemKind.program | 2 => ItemKind.copy | _ => ItemKind.fence) ≠ ItemKind.op
  split <;> decide

section
variable (hnew : ∀ e ∈ c.items, e.id ≠ c.nextItem)
include hnew

theorem Core.item?_entryTaken : (c.entryTaken p q head bs).item? c.nextItem = some (c.entryOpen p q head bs) := by
  have hitems : (c.entryTaken p q head bs).items = c.items ++ [c.entryOpen p q head bs] :=
    congrArg Prod.fst (c.itemView_entryTaken p q head bs)
  rw [Core.item?, hitems, List.find?_append, List.find?_eq_none.mpr (by simpa using hnew)]
  simp [Core.entryOpen]

theorem Core.itemView_refused (st : Nat) : ((c.entryTaken p q head bs).endItem c.nextItem st true).itemView =
    (c.items, c.recs ++ [(c.entryTaken p q head bs).recOf (c.entryOpen p q head bs) st]) := by
  have hitems : (c.entryTaken p q head bs).items = c.items ++ [c.entryOpen p q head bs] :=
    congrArg Prod.fst (c.itemView_entryTaken p q head bs)
  have hrecs : (c.entryTaken p q head bs).recs = c.recs := congrArg Prod.snd (c.itemView_entryTaken p q head bs)
  have hkeep : c.items.filter (fun j => j.id != c.nextItem) = c.items := List.filter_eq_self.mpr (fun e he => by simpa using hnew e he)
  rw [Core.itemView_endItem (c.item?_entryTaken p q head bs hnew), hitems, hrecs, List.filter_append, hkeep]
  simp [Core.entryOpen]

end

end

end Sys2Proof.Machine
end

section
/-! PROOFS. SQ_ENTRY_FETCH and SQ_FETCH_ERROR as commands (R564, R566, R571). -/

namespace Sys2Proof.Machine

section
variable (c : Core) (p q st : Nat)

/-! ### A failed fetch -/

/-- What the event of a failed fetch reports: the queue, the status, the head and the tail. -/
def Core.fetchInfo : Nat :=
  q + st * 2 ^ 16 + c.rf Regs.HIF_SQ_PTR_HEAD (qi p q) * 2 ^ 32 + c.rf Regs.HIF_SQ_PTR_TAIL (qi p q) * 2 ^ 48

theorem Core.sqFetchFailed_eq : c.sqFetchFailed p q st =
    (c.wf Regs.HIF_SQ_STATUS_FETCH_ERR (qi p q) 1).evt Cls.item Src.pcie p 0x0D04 (c.fetchInfo p q st) := rfl

theorem Core.rf_err_sqFetchFailed : (c.sqFetchFailed p q st).rf Regs.HIF_SQ_STATUS_FETCH_ERR (qi p q) = 1 := by
  rw [Core.sqFetchFailed_eq, Core.evt_rf, Core.rf_wf_fits _ _ _ (by decide) (by decide)]

theorem Core.rf_head_sqFetchFailed : (c.sqFetchFailed p q st).rf Regs.HIF_SQ_PTR_HEAD (qi p q) = c.rf Regs.HIF_SQ_PTR_HEAD (qi p q) := by
  rw [Core.sqFetchFailed_eq, Core.evt_rf, Core.rf_wf_apart _ _ _ _ (by decide)]

theorem Core.evtBuf_sqFetchFailed : (c.sqFetchFailed p q st).evtBuf =
    c.evtBuf ++ [⟨Cls.item, Src.pcie, p, 0x0D04, c.fetchInfo p q st % 2 ^ 64, 0⟩] := by
  rw [Core.sqFetchFailed_eq]
  rfl

theorem Core.itemView_evt (a b d e f g : Nat) : (c.evt a b d e f g).itemView = c.itemView := rfl

theorem Core.itemView_sqFetchFailed : (c.sqFetchFailed p q st).itemView = c.itemView := by
  rw [Core.sqFetchFailed_eq, Core.itemView_evt, Core.itemView_wf]

theorem Core.keepsWork_sqFetchFailed : c.keepsWork (c.sqFetchFailed p q st) := by
  rw [Core.sqFetchFailed_eq]
  exact ((Core.keepsWork.refl c).wf _ _ _).evt _ _ _ _ _ _

/-! ### The outcomes of a fetch -/

variable (env : MemEnv)

/-- The address of the entry at the head of a queue (R563). -/
def Core.entryAddr : Nat := c.rd Regs.HIF_SQ_BASE (qi p q) + 64 * c.rf Regs.HIF_SQ_PTR_HEAD (qi p q)

/-- The read of the entry at the head of a queue: its status, and the device after it. -/
def Core.entryAccess : Nat × Core := c.itemAccess p [{ d := Desc.range (c.entryAddr p q) 64, spaces := 0b1100 }] env

/-- The bytes of the entry at the head of a queue. -/
def Core.entryBytes : List Byte := (c.entryAccess p q env).2.readAt p 0 (c.entryAddr p q) 0 64

/-- The entry at the head of a queue, read and taken. -/
def Core.fetchTaken : Core := (c.entryAccess p q env).2.entryTaken p q (c.rf Regs.HIF_SQ_PTR_HEAD (qi p q)) (c.entryBytes p q env)

theorem Core.sqFetch_cases : c.sqFetch p q env =
    if (c.entryAccess p q env).1 ≠ 0 then (c.entryAccess p q env).2.sqFetchFailed p q (c.entryAccess p q env).1
    else if entryCheck (c.entryBytes p q env) ≠ 0 then
      (c.fetchTaken p q env).endItem (c.entryAccess p q env).2.nextItem (entryCheck (c.entryBytes p q env)) true
    else c.fetchTaken p q env := c.sqFetch_eq p q env

end

/-! ### The commands -/

section
variable {p : PartId} {s : State} {env : MemEnv} {n : Nat}

theorem sqFetchError_idle {st : BitVec 16} (h : s.core.sqNext p.val = none ∨ s.core.pstate p.val ≠ pACTIVE) :
    exec (.sqFetchError p st) s = .next s := by
  show execSqFetchError p st s = _
  apply State.on_of_fixed
  rcases hn : s.core.sqNext p.val with - | n
  · rfl
  · exact if_neg (h.resolve_left (by simp [hn]))

theorem sqFetchError_stops {st : BitVec 16} (hn : s.core.sqNext p.val = some n) (hact : s.core.pstate p.val = pACTIVE) :
    Answers s (.sqFetchError p st) (fun c => c.rf Regs.HIF_SQ_STATUS_FETCH_ERR (qi p.val n) = 1 ∧ s.core.keepsWork c ∧
      c.rf Regs.HIF_SQ_PTR_HEAD (qi p.val n) = s.core.rf Regs.HIF_SQ_PTR_HEAD (qi p.val n) ∧
      c.evtBuf = s.core.evtBuf ++ [⟨Cls.item, Src.pcie, p.val, 0x0D04, s.core.fetchInfo p.val n st.toNat % 2 ^ 64, 0⟩]) := by
  have hexec : exec (.sqFetchError p st) s = s.on (fun c => c.sqFetchFailed p.val n st.toNat) := by
    show execSqFetchError p st s = _
    simp only [execSqFetchError, State.on, hn, hact, if_true]
  exact answers_on hexec ⟨Core.rf_err_sqFetchFailed _ _ _ _, Core.keepsWork_sqFetchFailed _ _ _ _, Core.rf_head_sqFetchFailed _ _ _ _,
    Core.evtBuf_sqFetchFailed _ _ _ _⟩

/-- What keeps a partition from fetching (R564, R570, R607). -/
def Core.sqShut (c : Core) (p : Nat) : Prop :=
  c.pstate p ≠ pACTIVE ∨ (c.part p).resetting = true ∨ c.lost = true ∨ c.canOpen p = false ∨ c.sqNext p = none

theorem sqEntryFetch_shut (h : s.core.sqShut p.val) : exec (.sqEntryFetch p env) s = .next s := by
  show execSqEntryFetch p env s = _
  apply State.on_of_fixed
  split
  · rfl
  next hopen =>
    have hnone : s.core.sqNext p.val = none := by
      simp only [Bool.or_eq_true, decide_eq_true_eq, Bool.not_eq_true'] at hopen
      unfold Core.sqShut at h
      tauto
    rw [hnone]

theorem exec_sqEntryFetch (h : ¬s.core.sqShut p.val) (hn : s.core.sqNext p.val = some n) :
    exec (.sqEntryFetch p env) s = s.on (fun c => c.sqFetch p.val n env) := by
  have hopen : (decide (s.core.pstate p.val ≠ pACTIVE) || (s.core.part p.val).resetting || s.core.lost || !s.core.canOpen p.val) = false := by
    rw [← Bool.not_eq_true]
    simp only [Bool.or_eq_true, decide_eq_true_eq, Bool.not_eq_true']
    unfold Core.sqShut at h
    tauto
  show execSqEntryFetch p env s = _
  rw [execSqEntryFetch, State.on, State.on, hopen, hn]
  rfl

section
variable (h : ¬s.core.sqShut p.val) (hn : s.core.sqNext p.val = some n)
include h hn

theorem sqEntryFetch_fails (hr : (s.core.entryAccess p.val n env).1 ≠ 0) :
    let r := s.core.entryAccess p.val n env
    Answers s (.sqEntryFetch p env) (fun c => c.rf Regs.HIF_SQ_STATUS_FETCH_ERR (qi p.val n) = 1 ∧ c.items = r.2.items ∧ c.recs = r.2.recs ∧
      c.evtBuf = r.2.evtBuf ++ [⟨Cls.item, Src.pcie, p.val, 0x0D04, r.2.fetchInfo p.val n r.1 % 2 ^ 64, 0⟩]) := by
  refine answers_on (exec_sqEntryFetch h hn) ?_
  rw [Core.sqFetch_cases, if_pos hr]
  have hview := Core.itemView_sqFetchFailed (s.core.entryAccess p.val n env).2 p.val n (s.core.entryAccess p.val n env).1
  exact ⟨Core.rf_err_sqFetchFailed _ _ _ _, congrArg Prod.fst hview, congrArg Prod.snd hview, Core.evtBuf_sqFetchFailed _ _ _ _⟩

variable (hr : (s.core.entryAccess p.val n env).1 = 0) (h0 : 0 < (s.core.entryAccess p.val n env).2.rf Regs.HIF_SQ_CFG_SIZE (qi p.val n))
  (hs : (s.core.entryAccess p.val n env).2.rf Regs.HIF_SQ_CFG_SIZE (qi p.val n) ≤ 65536)
include hr h0 hs

theorem sqEntryFetch_opens (hok : entryCheck (s.core.entryBytes p.val n env) = 0) :
    let r := s.core.entryAccess p.val n env
    let head := s.core.rf Regs.HIF_SQ_PTR_HEAD (qi p.val n)
    Answers s (.sqEntryFetch p env) (fun c => r.2.movedPast p.val n head c ∧ c.recs = r.2.recs ∧
      c.items = r.2.items ++ [r.2.entryOpen p.val n head (s.core.entryBytes p.val n env)]) := by
  refine answers_on (exec_sqEntryFetch h hn) ?_
  rw [Core.sqFetch_cases, if_neg (not_not.mpr hr), if_neg (not_not.mpr hok), Core.fetchTaken]
  have hview := Core.itemView_entryTaken (s.core.entryAccess p.val n env).2 p.val n (s.core.rf Regs.HIF_SQ_PTR_HEAD (qi p.val n))
    (s.core.entryBytes p.val n env)
  exact ⟨Core.movedPast_entryTaken _ _ _ _ _ h0 hs, congrArg Prod.snd hview, congrArg Prod.fst hview⟩

theorem sqEntryFetch_ends (hbad : entryCheck (s.core.entryBytes p.val n env) ≠ 0)
    (hnew : ∀ e ∈ (s.core.entryAccess p.val n env).2.items, e.id ≠ (s.core.entryAccess p.val n env).2.nextItem) :
    let r := s.core.entryAccess p.val n env
    let head := s.core.rf Regs.HIF_SQ_PTR_HEAD (qi p.val n)
    Answers s (.sqEntryFetch p env) (fun c => r.2.movedPast p.val n head c ∧ c.items = r.2.items ∧
      c.recs = r.2.recs ++ [(s.core.fetchTaken p.val n env).recOf (r.2.entryOpen p.val n head (s.core.entryBytes p.val n env))
        (entryCheck (s.core.entryBytes p.val n env))]) := by
  refine answers_on (exec_sqEntryFetch h hn) ?_
  rw [Core.sqFetch_cases, if_neg (not_not.mpr hr), if_pos hbad, Core.fetchTaken]
  have hview := Core.itemView_refused _ p.val n (s.core.rf Regs.HIF_SQ_PTR_HEAD (qi p.val n)) (s.core.entryBytes p.val n env) hnew
    (entryCheck (s.core.entryBytes p.val n env))
  exact ⟨(Core.movedPast_entryTaken _ _ _ _ _ h0 hs).of_keepsTurns _ _ _ _ (Core.keepsTurns_endItem (Core.item?_entryTaken _ _ _ _ _ hnew) _ _),
    congrArg Prod.fst hview, congrArg Prod.snd hview⟩

end

end

end Sys2Proof.Machine
end

section
/-! PROOFS. O50 from its parts. -/

namespace Sys2Proof.Machine

/-- Settles O50: each clause is the outcome of one command on a queue, and the record's clause is `putRec` seen through its three stages. -/
theorem queues : Obligations.Queues := by
  unfold Obligations.Queues
  intro p q s
  refine ⟨fun w => ?_, fun v => ?_, fun env => ?_, fun bs => ?_, fun st => ?_, fun w => ?_, ?_⟩
  · refine ⟨fun hw hoff hok => sqEnable_enables hw hoff ((Core.sqOk_iff _ _ _ _).mpr hok),
      fun hw hoff hbad => sqEnable_refuses hw hoff (fun h => hbad ((Core.sqOk_iff _ _ _ _).mp h)), fun hw hon => sqEnable_again hw hon,
      fun hw hoff => sqEnable_off hw hoff, fun hw hon hbusy => sqEnable_clear_busy hw hon ((Core.sqBusy_iff _ _ _).mpr hbusy),
      fun hw hon hidle => sqEnable_clear_idle hw hon (Bool.eq_false_iff.mpr (fun h => hidle ((Core.sqBusy_iff _ _ _).mp h)))⟩
  · have hopen := s.core.doorOpen_iff p.val
    refine ⟨fun h => ⟨sqDoorbell_shut (fun hd => h (hopen.mp hd)), cqDoorbell_shut (fun hd => h (hopen.mp hd))⟩,
      fun h hp => sqDoorbell_drops (hopen.mpr h) hp, fun h hp hbad => sqDoorbell_refuses (hopen.mpr h) hp hbad,
      fun h hp hon hv => sqDoorbell_moves (hopen.mpr h) hp hon hv, fun h hbad => cqDoorbell_refuses (hopen.mpr h) hbad,
      fun h hon hv => cqDoorbell_moves (hopen.mpr h) hon hv⟩
  · refine ⟨sqEntryFetch_shut, fun n h hn => ⟨fun hr _ => sqEntryFetch_fails h hn hr, fun hr h0 hs hok => ?_, fun hr h0 hs hbad hnew => ?_⟩⟩
    · exact sqEntryFetch_opens h hn hr h0 hs hok
    · obtain ⟨c, hexec, hpast, hitems, hrecs⟩ := sqEntryFetch_ends h hn hr h0 hs hbad hnew
      exact ⟨c, hexec, hpast, hitems, _, hrecs, rfl, rfl, rfl, rfl, rfl, Core.origin_recOf_entryTaken _ _ _ _ _ _, rfl,
        Core.status_recOf_entryTaken _ _ _ _ _ _⟩
  · exact ⟨entryCheck_refuses, entryCheck_program, fun hclean hk hlen => (entryCheck_copy hclean hk).trans (if_pos hlen),
      entryCheck_copy_takes, entryCheck_copy_refuses, entryCheck_fence⟩
  · exact ⟨sqFetchError_idle, fun n hn hact => sqFetchError_stops hn hact⟩
  · have hbit : bitOf (w.toNat % 2 ^ 31) 17 = w.getLsbD 17 := bitOf_mod _ (by decide)
    have hok := cqOk_iff (w.toNat % 2 ^ 31)
    rw [show bitOf (w.toNat % 2 ^ 31) 29 = w.getLsbD 29 from bitOf_mod _ (by decide)] at hok
    refine ⟨fun ⟨hw, hoff⟩ h => cqEnable_enables (hbit.trans hw) hoff (hok.mpr h),
      fun ⟨hw, hoff⟩ h => cqEnable_refuses (hbit.trans hw) hoff (Bool.eq_false_iff.mpr (fun hc => h (hok.mp hc))),
      fun h => cqEnable_writes (by rwa [hbit])⟩
  · refine ⟨fun h => ⟨recordWrite_idle h, cqWriteError_idle h⟩, fun r hr hopen ht hs => ?_, fun h => ?_, ?_⟩
    · have hputs := recordWrite_puts hr hopen ht hs
      rw [Core.recBytes, Rec.bytes_norm, Core.cqUnreadNext, Core.cqNext_eq] at hputs
      exact hputs
    · obtain ⟨r, hr⟩ := Option.ne_none_iff_exists'.mp (fun hn => h (.inl hn))
      exact cqWriteError_stops hr (by simpa using fun hc => h (.inr hc))
    · exact ⟨cqModTimer_waits, fun ⟨htimer, hun, hdue⟩ => cqModTimer_raises htimer hun hdue⟩

end Sys2Proof.Machine
end

section
/-! PROOFS. What an operation that starts leaves of the sequencers, the partitions and the other operations, and where its effect stands
(R155, R160). -/

namespace Sys2Proof.Machine

/-- The sequencers, the partitions, the operations in progress and the number of the next one. -/
def Core.seqView (c : Core) : SMap Tile × SMap Part × List AOp × Nat := (c.tiles, c.parts, c.ops, c.nextOp)

theorem Core.seqView_eq_iff {b c : Core} :
    b.seqView = c.seqView ↔ b.tiles = c.tiles ∧ b.parts = c.parts ∧ b.ops = c.ops ∧ b.nextOp = c.nextOp := by
  simp only [Core.seqView, Prod.mk.injEq]

theorem Core.tile_of_seqView {b c : Core} (h : b.seqView = c.seqView) (t : Nat) : b.tile t = c.tile t :=
  Core.tile_of_tiles (Core.seqView_eq_iff.mp h).1 t

theorem Core.seqView_ite {P : Prop} [Decidable P] {a b c : Core} (ha : a.seqView = c.seqView) (hb : b.seqView = c.seqView) :
    (if P then a else b).seqView = c.seqView := by
  split
  · exact ha
  · exact hb

/-! ### Writes of memory -/

section
variable (c : Core) (p l : Nat) (d : Desc)

@[simp] theorem Core.seqView_wr (r : Reg) (i v : Nat) : (c.wr r i v).seqView = c.seqView := rfl
@[simp] theorem Core.seqView_wf (f : Fld) (i v : Nat) : (c.wf f i v).seqView = c.seqView := rfl
@[simp] theorem Core.seqView_count (f : Fld) (i n : Nat) : (c.count f i n).seqView = c.seqView := rfl
@[simp] theorem Core.seqView_clearBank (t b : Nat) : (c.clearBank t b).seqView = c.seqView := rfl
@[simp] theorem Core.seqView_setBankState (t b v : Nat) : (c.setBankState t b v).seqView = c.seqView := rfl

theorem Core.seqView_wakeBank (t b : Nat) : (c.wakeBank t b).seqView = c.seqView :=
  Core.seqView_ite (by simp) (Core.seqView_ite (by simp) rfl)

theorem Core.seqView_wakeRange (t o n : Nat) : (c.wakeRange t o n).seqView = c.seqView :=
  Core.seqView_ite rfl (threadAll_view _ (fun c b => c.seqView_wakeBank t b) _ c)

theorem Core.seqView_writeView (o : Nat) (bs : List Byte) : (c.writeView p o bs).seqView = c.seqView := by
  refine threadAll_view _ (fun c e => ?_) _ c
  split <;> rfl

theorem Core.seqView_writePlace (v : Byte) (a : Place) : (c.writePlace v a).seqView = c.seqView := by
  cases a with
  | scratch t o => exact c.seqView_wakeRange t o 1
  | view p o => exact c.seqView_writeView p o [v]
  | host a => rfl
  | flash a => rfl
  | remote dev key o => rfl
  | nowhere => rfl

theorem Core.seqView_writeAt (addr o : Nat) (bs : List Byte) : (c.writeAt p l addr o bs).seqView = c.seqView :=
  threadAll_view _ (fun c e => c.seqView_writePlace e.2 (c.place p l addr e.1)) _ c

theorem Core.seqView_putElems (es : List ((Nat × Nat × Nat × Nat) × Nat)) : (c.putElems p l d es).seqView = c.seqView :=
  threadAll_view _ (fun c _ => c.seqView_writeAt p l _ _ _) _ c

theorem Core.seqView_zeroPadding : (c.zeroPadding p l d).seqView = c.seqView :=
  Core.seqView_ite rfl (Core.seqView_ite rfl (c.seqView_putElems p l d _))

theorem Core.seqView_putTensor (vs : List Nat) : (c.putTensor p l d vs).seqView = c.seqView :=
  Core.seqView_ite ((Core.seqView_putElems _ p l d _).trans (c.seqView_zeroPadding p l d))
    ((Core.seqView_putElems _ p l d _).trans (c.seqView_zeroPadding p l d))

/-- Counting non-finite elements writes registers alone. -/
theorem Core.noteNF_view (t i o : Nat) : (c.noteNF t i o).seqView = c.seqView ∧ (c.noteNF t i o).mems = c.mems := by
  unfold Core.noteNF
  dsimp only
  split <;> split <;> exact ⟨rfl, rfl⟩

/-! ### The memories give the operands -/

theorem Core.seqView_wakeOperand (o : Operand) : (c.wakeOperand p l o).seqView = c.seqView := by
  refine threadAll_view _ (fun c k => ?_) _ c
  split
  next t a _ =>
    refine Eq.trans ?_ (c.seqView_wakeBank t (a / bankBytes))
    exact Core.seqView_ite rfl rfl
  next => rfl

theorem Core.seqView_swapDue (q : List (Nat × Nat)) : ({ c with swapDue := q } : Core).seqView = c.seqView := rfl

theorem Core.seqView_corrTicks (m : SMap (List Nat)) : ({ c with corrTicks := m } : Core).seqView = c.seqView := rfl

/-- The counters of a scratchpad read that replays corrected (R332, R335). -/
def Core.wordCounted (t o n : Nat) : Core :=
  (((c.bankErr t (o / bankBytes)).2.count Regs.TILE_PAR_REPLAYS_COUNT t n).count Regs.TILE_PAR_CORRECTED_COUNT t).wr
    Regs.TILE_LAST_ERR t (o / 4 * 4 + n * 2 ^ 22)

theorem Core.wordCorrected_eq (t o n : Nat) : c.wordCorrected t o n =
    if 0 < (c.wordCounted t o n).rf Regs.TILE_BANK_CFG_SWAP_THRESH t ∧
        (c.wordCounted t o n).rf Regs.TILE_BANK_CFG_SWAP_THRESH t ≤ (c.bankErr t (o / bankBytes)).1
      then { c.wordCounted t o n with swapDue := (c.wordCounted t o n).swapDue ++ [(t, o / bankBytes)] }
    else c.wordCounted t o n := rfl

theorem Core.seqView_wordCounted (t o n : Nat) : (c.wordCounted t o n).seqView = c.seqView := by
  unfold Core.wordCounted
  rw [Core.seqView_wr, Core.seqView_count, Core.seqView_count]
  exact c.seqView_wr _ _ _

theorem Core.seqView_wordCorrected (t o n : Nat) : (c.wordCorrected t o n).seqView = c.seqView := by
  rw [Core.wordCorrected_eq]
  exact Core.seqView_ite ((Core.seqView_swapDue _ _).trans (c.seqView_wordCounted t o n)) (c.seqView_wordCounted t o n)

theorem Core.seqView_askRetire (h k : Nat) : (c.askRetire h k).seqView = c.seqView := Core.seqView_ite rfl rfl

theorem Core.seqView_countReplays (h edc par : Nat) : (c.countReplays h edc par).seqView = c.seqView := by
  simp [Core.countReplays]

theorem Core.seqView_lineCorrected (a edc par : Nat) : (c.lineCorrected a edc par).seqView = c.seqView := by
  have hcount : ∀ w, (((c.fresh.2.countReplays (c.serves a).1 edc par).count Regs.MEM_CORRECTED_COUNT (c.serves a).1).wr
      Regs.MEM_LAST_ERR (c.serves a).1 w).seqView = c.seqView := fun w => by
    simp only [Core.seqView_wr, Core.seqView_count, Core.seqView_countReplays]
    rfl
  exact Core.seqView_ite ((Core.seqView_askRetire _ _ _).trans ((Core.seqView_corrTicks _ _).trans (hcount _)))
    ((Core.seqView_corrTicks _ _).trans (hcount _))

theorem Core.seqView_replayed (acc : List (Place × Nat)) (env : MemEnv) : (c.replayed acc env).seqView = c.seqView := by
  refine (threadAll_view _ (fun c e => ?_) _ _).trans (threadAll_view _ (fun c e => ?_) _ c)
  · exact Core.seqView_ite (c.seqView_lineCorrected _ _ _) rfl
  · dsimp only
    split
    · exact c.seqView_wordCorrected _ _ _
    · rfl

/-- Memories that give every operand stop no program and end no operation. -/
theorem Core.seqView_memFaults {c b : Core} {p l : Nat} {ops : List Operand} {env : MemEnv} (h : c.memFaults p l ops env = (0, b)) :
    b.seqView = c.seqView := by
  have hwoken := threadAll_view Core.seqView (fun c o => c.seqView_wakeOperand p l o) ops c
  unfold Core.memFaults at h
  dsimp only at h
  split at h
  next o ho =>
    have hne := List.find?_some ho
    exact absurd (Prod.mk.inj h).1 (by simpa using hne)
  next =>
    obtain ⟨-, rfl⟩ := Prod.mk.inj h
    split
    · exact (Core.seqView_replayed _ _ _).trans hwoken
    · exact hwoken

end

/-! ### The start of an operation -/

section
variable (c : Core) (x : TArgs) (op : TOp) (l p : Nat) (body : Core → Nat → Nat → OpRes)

/-- A sequencer past a tensor instruction: the pc has moved, the token counts one more operation (R132, R155). -/
def Tile.issued (y : Tile) (x : TArgs) : Tile :=
  ({ y with pc := (y.pc + wideLen x.wide) % 2 ^ 22 } : Tile).setToken x.k.val { y.token x.k.val with count := (y.token x.k.val).count + 1 }

theorem Tile.token_issued (y : Tile) (j : Nat) :
    (y.issued x).token j = if j = x.k.val then { y.token j with count := (y.token j).count + 1 } else y.token j := by
  unfold Tile.issued
  split
  next h => subst h; exact Tile.token_setToken_same _ _ _
  next h => exact Tile.token_setToken_other _ _ h

/-- The device after an operation has run, with its tile's sequencer past the instruction (R132, R155). -/
def Core.pastIssue (c : Core) : Core :=
  let c := ({ c with touched := [], dests := [], rowAccess := false } : Core).advance x.tile.val (wideLen x.wide)
  c.setTile x.tile.val
    ((c.tile x.tile.val).setToken x.k.val { (c.tile x.tile.val).token x.k.val with count := ((c.tile x.tile.val).token x.k.val).count + 1 })

theorem Core.tile_pastIssue_same : (c.pastIssue x).tile x.tile.val = (c.tile x.tile.val).issued x := by
  unfold Core.pastIssue
  rw [Core.tile_setTile_same, Core.tile_advance]
  rfl

theorem Core.tile_pastIssue_other {u : Nat} (h : u ≠ x.tile.val) : (c.pastIssue x).tile u = c.tile u :=
  (Core.tile_setTile_other _ _ h).trans (Core.tile_advance_other _ _ h)

/-- `e` is `c` but for its registers and its items. -/
def Core.opensAs (c e : Core) : Prop := e.mems = c.mems ∧ e.seqView = c.seqView

theorem Core.opensAs_wf (f : Fld) (i v : Nat) : c.opensAs (c.wf f i v) := ⟨rfl, rfl⟩

theorem Core.opensAs_items (is : List Item) (n : Nat) : c.opensAs { c with items := is, nextItem := n } := ⟨rfl, rfl⟩

theorem Core.opensAs.trans {a b c : Core} (h : a.opensAs b) (h' : b.opensAs c) : a.opensAs c := ⟨h'.1.trans h.1, h'.2.trans h.2⟩

theorem Core.opensAs_openItem (i : Item) : c.opensAs (c.openItem i) := (c.opensAs_items _ _).trans (Core.opensAs_wf _ _ _ _)

theorem Core.opensAs_ite {P : Prop} [Decidable P] (i : Item) : c.opensAs (if P then c.openItem i else c) := by
  split
  · exact c.opensAs_openItem i
  · exact ⟨rfl, rfl⟩

/-- What starting an operation makes of the device: the operation has run, its sequencer is past the instruction, an item may have been opened,
and the operation is in progress (R155, R160, R190). -/
theorem Core.beginOp_view : ∃ (e : Core) (unit pc : Nat) (item : Option Nat), ((c.runOp x op l p body).c.pastIssue x).opensAs e ∧
    c.beginOp x op l p body =
      { e with ops := e.ops ++ [AOp.issued x op e.nextOp l p unit pc item (c.runOp x op l p body)], nextOp := e.nextOp + 1 } :=
  ⟨_, _, _, _, Core.opensAs_ite _ _, rfl⟩

end

section
variable {s : State} {x : TArgs} {i : Instr} {op : TOp} {body : Core → Nat → Nat → OpRes} {r : OpRes}

/-- Counting an instruction leaves the queues of records enabled as they are. -/
theorem Core.flag_cqEnable_atIssue (c : Core) (t q : Nat) :
    (c.atIssue t).flag Regs.HIF_CQ_CFG_ENABLE q = c.flag Regs.HIF_CQ_CFG_ENABLE q :=
  congrArg (· == 1) (c.rf_count_apart t q 1 (by decide))

/-- An operation whose record has its queue runs on the device as its unit finds it (R191). -/
theorem Core.runOp_atIssue {c : Core} (h : c.recordOk x op) (l : Nat) :
    (c.atIssue x.tile.val).runOp x op l (c.who x.tile.val).2 body = body (c.atUnit x.tile.val) l (c.who x.tile.val).2 := by
  have hrec : ¬(x.isRec op && !(c.atUnit x.tile.val).flag Regs.HIF_CQ_CFG_ENABLE (qi (c.who x.tile.val).2 x.cq)) = true := by
    rw [show (c.atUnit x.tile.val).flag Regs.HIF_CQ_CFG_ENABLE _ = _ from c.flag_cqEnable_atIssue _ _]
    rcases h with h | h <;> simp [h]
  exact if_neg hrec

/-- A tensor instruction that is taken answers the device in which its operation is in progress, on the device as its unit finds it. -/
theorem answers_tensor (hexec : exec i s = s.on (fun c => c.tensorIns x op body)) (ht : s.core.takesT x op = true)
    (hrec : s.core.recordOk x op)
    (hbody : body (s.core.atUnit x.tile.val) (s.core.who x.tile.val).1 (s.core.who x.tile.val).2 = r) {P : Core → Prop}
    (hP : ∀ c : Core, c.mems = r.c.mems → c.parts = r.c.parts → c.tile x.tile.val = (r.c.tile x.tile.val).issued x →
      (∀ u, u ≠ x.tile.val → c.tile u = r.c.tile u) →
      (∃ unit pc item, c.ops = r.c.ops ++ [AOp.issued x op r.c.nextOp (s.core.who x.tile.val).1 (s.core.who x.tile.val).2 unit pc item r]) →
      P c) : Answers s i P := by
  have hr := (Core.runOp_atIssue (body := body) hrec (s.core.who x.tile.val).1).trans hbody
  refine answers_on hexec ?_
  rw [s.core.tensorIns_takes ht]
  obtain ⟨e, unit, pc, item, ⟨hmems, hview⟩, heq⟩ :=
    (s.core.atIssue x.tile.val).beginOp_view x op (s.core.who x.tile.val).1 (s.core.who x.tile.val).2 body
  rw [hr] at hmems hview heq
  obtain ⟨-, hparts, hops, hnext⟩ := Core.seqView_eq_iff.mp hview
  rw [show s.core.count Regs.TILE_INSTR_COUNT_COUNT x.tile.val = s.core.atIssue x.tile.val from rfl, heq]
  refine hP _ hmems hparts ?_ (fun u hu => ?_) ⟨unit, pc, item, ?_⟩
  · exact (Core.tile_of_seqView hview _).trans (Core.tile_pastIssue_same _ _)
  · exact (Core.tile_of_seqView hview _).trans (Core.tile_pastIssue_other _ _ hu)
  · show e.ops ++ _ = _
    rw [hops, hnext]
    rfl

/-- An operation that leaves the sequencers alone is in progress with what running it gave. -/
theorem answers_started (hexec : exec i s = s.on (fun c => c.tensorIns x op body)) (ht : s.core.takesT x op = true)
    (hrec : s.core.recordOk x op)
    (hbody : body (s.core.atUnit x.tile.val) (s.core.who x.tile.val).1 (s.core.who x.tile.val).2 = r)
    (hview : r.c.seqView = s.core.seqView) :
    Answers s i (fun c => c.mems = r.c.mems ∧ s.core.started c x op r.st r.wait) := by
  obtain ⟨-, hparts, hops, -⟩ := Core.seqView_eq_iff.mp hview
  refine answers_tensor hexec ht hrec hbody (fun c hm hp hsame hother ⟨unit, pc, item, ho⟩ => ⟨hm, ?_⟩)
  rw [Core.tile_of_seqView hview] at hsame
  refine ⟨by rw [hsame]; rfl, fun j => by rw [hsame, Tile.token_issued], fun u hu => (hother u hu).trans (Core.tile_of_seqView hview u),
    hp.trans hparts, _, by rw [ho, hops], rfl, rfl, rfl, rfl, rfl, rfl⟩

end

end Sys2Proof.Machine
end

section
/-! PROOFS. The values of the elementwise instructions, the reductions, VSOFTMAX, ENC16 and LSCALE (R203, R211 to R216, R307, R83). -/

namespace Sys2Proof.Machine

section
variable {c b : Core} {x : TArgs} {p l : Nat} {td ta : Desc}

/-- An operation has written the elements `vs` of a tensor on device `b` and noted the non-finite ones, with SUCCESS. -/
def OpRes.puts (r : OpRes) (b : Core) (t p l : Nat) (td : Desc) (vs : List Nat) : Prop :=
  ∃ i o, r = { c := (b.putTensor p l td vs).noteNF t i o }

theorem Core.opElementwise_puts {srcs : List Desc} (f : RMode → List Num → Num) (htd : (c.tile x.tile.val).desc x.td.val = td)
    (hchecks : c.issueChecks p l (unitOps td srcs spUnit) (td.isFP && srcs.all (fun d => d.isFP && d.fits td)) true = 0)
    (hmem : c.memFaults p l (unitOps td srcs spUnit) x.env = (0, b)) (he : td.empty = false) :
    (c.opElementwise x l p srcs f).puts b x.tile.val p l td (td.indices.map (fun i =>
      roundNum td.ffmt (TArgs.rnd x) (f (TArgs.rnd x) (srcs.map (fun d => b.vecEl p l d i))))) := by
  subst htd
  unfold unitOps at hchecks hmem
  simp only [Core.opElementwise, hchecks, hmem, he, ne_eq, not_true, if_false, Bool.false_eq_true]
  exact ⟨_, _, rfl⟩

theorem Core.opReduce_puts (f : List Nat → Nat) (htd : (c.tile x.tile.val).desc x.td.val = td)
    (hta : (c.tile x.tile.val).desc x.ta.val = ta)
    (hchecks : c.issueChecks p l (unitOps td [ta] spUnit)
      (td.isFP && ta.isFP && (List.range 4).all (fun k => td.ext k == (if k = ta.red then 1 else ta.ext k))) false = 0)
    (hmem : c.memFaults p l (unitOps td [ta] spUnit) x.env = (0, b)) (he : td.empty = false) (hea : ta.empty = false) :
    (c.opReduce x l p f).puts b x.tile.val p l td (td.indices.map (fun j =>
      roundNum td.ffmt (TArgs.rnd x) (decodeF .fp32 (f (b.line p l ta j))))) := by
  subst htd hta
  simp only [unitOps, List.map_cons, List.map_nil] at hchecks hmem
  simp only [Core.opReduce, hchecks, hmem, he, hea, ne_eq, not_true, if_false, Bool.false_eq_true, Bool.or_self]
  exact ⟨_, _, rfl⟩

/-- The coordinate of an index along the reduction dimension. -/
def Desc.redCoord (d : Desc) (j : Nat × Nat × Nat × Nat) : Nat := match d.red with | 0 => j.1 | 1 => j.2.1 | 2 => j.2.2.1 | _ => j.2.2.2

theorem Core.opSoftmax_puts (htd : (c.tile x.tile.val).desc x.td.val = td) (hta : (c.tile x.tile.val).desc x.ta.val = ta)
    (hchecks : c.issueChecks p l (unitOps td [ta] spUnit) (td.isFP && ta.isFP && td.sameExt ta) true = 0)
    (hmem : c.memFaults p l (unitOps td [ta] spUnit) x.env = (0, b)) (he : td.empty = false) :
    (c.opSoftmax x l p).puts b x.tile.val p l td (td.indices.map (fun j =>
      roundNum td.ffmt (TArgs.rnd x) (((softmaxLine (b.line p l ta j))[ta.redCoord j]?).getD .nan))) := by
  subst htd hta
  simp only [unitOps, List.map_cons, List.map_nil] at hchecks hmem
  simp only [Core.opSoftmax, hchecks, hmem, he, ne_eq, not_true, if_false, Bool.false_eq_true]
  exact ⟨_, _, rfl⟩

theorem Core.opEnc16_puts (htd : (c.tile x.tile.val).desc x.td.val = td) (hta : (c.tile x.tile.val).desc x.ta.val = ta)
    (hchecks : c.issueChecks p l (unitOps td [ta] spUnit) (ta.isFP32 && td.isFP16 && ta.sameExt td) false = 0)
    (hmem : c.memFaults p l (unitOps td [ta] spUnit) x.env = (0, b)) (he : td.empty = false) :
    (c.opEnc16 x l p).puts b x.tile.val p l td ((ta.indices.zip (b.elems p l ta)).map (fun e =>
      roundNum .fp16 (TArgs.rnd x) (decodeF .fp32 e.2)
        (draw16 ((c.tile x.tile.val).gr (bits x.mods.toNat 7 3)).toNat (b.stepOf p) (ta.linear e.1)))) := by
  rw [← Core.tile_of_seqView (Core.seqView_memFaults hmem)]
  subst htd hta
  simp only [unitOps, List.map_cons, List.map_nil] at hchecks hmem
  simp only [Core.opEnc16, hchecks, hmem, he, ne_eq, not_true, if_false, Bool.false_eq_true]
  exact ⟨_, _, rfl⟩

theorem Core.opLscale_puts (htd : (c.tile x.tile.val).desc x.td.val = td) (hta : (c.tile x.tile.val).desc x.ta.val = ta)
    (hchecks : c.issueChecks p l [{ d := td, dest := true, spaces := spOwn }, { d := ta, spaces := spOwn }]
      (td.isFP32 && ta.isFP32 && td.sameExt ta) false = 0)
    (hmem : c.memFaults p l [{ d := td, dest := true, spaces := spOwn }, { d := ta, spaces := spOwn }] x.env = (0, b))
    (he : td.empty = false) :
    (c.opLscale x l p).puts b x.tile.val p l td ((b.elems p l ta).map (fun e =>
      roundNum .fp32 .nearest (mulNum (decodeF .fp32 e) (.ofQ (Q.pow2 (b.lossE p)))))) := by
  subst htd hta
  simp only [Core.opLscale, hchecks, hmem, he, ne_eq, not_true, if_false, Bool.false_eq_true]
  exact ⟨_, _, rfl⟩

end

/-- The instruction answers the device in which tensor `td` has been written over device `b`, and its operation is in progress with SUCCESS. -/
abbrev State.writes (s : State) (x : TArgs) (i : Instr) (op : TOp) (b : Core) (td : Desc) (vs : List Nat) : Prop :=
  Answers s i (fun c => c.mems = (b.putTensor (s.core.who x.tile.val).2 (s.core.who x.tile.val).1 td vs).mems ∧ s.core.started c x op 0 false)

section
variable {s : State} {x : TArgs} {i : Instr} {op : TOp} {body : Core → Nat → Nat → OpRes} {b : Core} {ops : List Operand} {shape inPlace : Bool}
  {td ta : Desc}

/-- An operation that writes a tensor once the memories have given its operands: the memories differ by the tensor alone. -/
theorem writes_of_puts {vs : List Nat} (hexec : exec i s = s.on (fun c => c.tensorIns x op body)) (ht : s.core.takesT x op = true)
    (hrec : s.core.recordOk x op) (hruns : s.core.runsFrom b x ops shape inPlace)
    (hbody : (body (s.core.atUnit x.tile.val) (s.core.who x.tile.val).1 (s.core.who x.tile.val).2).puts b x.tile.val
      (s.core.who x.tile.val).2 (s.core.who x.tile.val).1 td vs) : s.writes x i op b td vs := by
  obtain ⟨m, n, hr⟩ := hbody
  have hnote := (b.putTensor (s.core.who x.tile.val).2 (s.core.who x.tile.val).1 td vs).noteNF_view x.tile.val m n
  have hview : b.seqView = (s.core.atUnit x.tile.val).seqView := Core.seqView_memFaults hruns.2
  have h := answers_started hexec ht hrec hr (hnote.1.trans ((b.seqView_putTensor _ _ _ _).trans hview))
  rw [hnote.2] at h
  exact h

/-- An elementwise instruction writes the rounded function of its sources' elements at each index (R211, R212, R213). -/
theorem elementwise_writes {srcsOf : Core → List Desc} {srcs : List Desc} {f : RMode → List Num → Num}
    (hexec : exec i s = s.on (fun c => c.tensorIns x op (fun c l p => c.opElementwise x l p (srcsOf c) f)))
    (hsrcs : srcsOf (s.core.atUnit x.tile.val) = srcs) (htd : (s.core.tile x.tile.val).desc x.td.val = td) (he : td.empty = false)
    (ht : s.core.takesT x op = true) (hrec : s.core.recordOk x op)
    (hshape : shape = (td.isFP && srcs.all (fun d => d.isFP && d.fits td)))
    (hruns : s.core.runsFrom b x (unitOps td srcs spUnit) shape true) :
    s.writes x i op b td (td.indices.map (fun j => roundNum td.ffmt (TArgs.rnd x)
      (f (TArgs.rnd x) (srcs.map (fun d => b.vecEl (s.core.who x.tile.val).2 (s.core.who x.tile.val).1 d j))))) := by
  subst hshape hsrcs
  exact writes_of_puts hexec ht hrec hruns (Core.opElementwise_puts f htd hruns.1 hruns.2 he)

/-- The rows of the elementwise instructions. -/
theorem valueRows_write {f : Nat × Nat × Nat × Nat → Nat} (htd : (s.core.tile x.tile.val).desc x.td.val = td) (he : td.empty = false)
    (hrow : (i, op, ops, shape, inPlace, f) ∈ valueRows b x (s.core.tile x.tile.val) (s.core.who x.tile.val).2 (s.core.who x.tile.val).1)
    (ht : s.core.takesT x op = true) (hrec : s.core.recordOk x op) (hruns : s.core.runsFrom b x ops shape inPlace) :
    s.writes x i op b td (td.indices.map f) := by
  have hone : ∀ a : Desc, (td.isFP && (a.isFP && a.fits td)) = (td.isFP && [a].all (fun d => d.isFP && d.fits td)) := by simp
  have htwo : ∀ a a' : Desc, (td.isFP && (a.isFP && a.fits td && (a'.isFP && a'.fits td))) =
      (td.isFP && [a, a'].all (fun d => d.isFP && d.fits td)) := by simp
  have hthree : ∀ a a' a'' : Desc, (td.isFP && (a.isFP && a.fits td && (a'.isFP && a'.fits td && (a''.isFP && a''.fits td)))) =
      (td.isFP && [a, a', a''].all (fun d => d.isFP && d.fits td)) := by simp
  simp only [valueRows, htd, List.mem_cons, Prod.mk.injEq, List.not_mem_nil, or_false] at hrow
  rcases hrow with h | h | h | h | h | h | h | h | h | h | h <;> obtain ⟨rfl, rfl, rfl, rfl, rfl, rfl⟩ := h
  · exact (elementwise_writes (i := .vadd x) (srcsOf := fun c => c.src2 x) rfl rfl htd he ht hrec (htwo _ _) hruns :)
  · exact (elementwise_writes (i := .vsub x) (srcsOf := fun c => c.src2 x) rfl rfl htd he ht hrec (htwo _ _) hruns :)
  · exact (elementwise_writes (i := .vmul x) (srcsOf := fun c => c.src2 x) rfl rfl htd he ht hrec (htwo _ _) hruns :)
  · exact (elementwise_writes (i := .vfma x) (srcsOf := fun c => c.src3 x) rfl rfl htd he ht hrec (hthree _ _ _) hruns :)
  · exact (elementwise_writes (i := .vmax x) (srcsOf := fun c => c.src2 x) rfl rfl htd he ht hrec (htwo _ _) hruns :)
  · exact (elementwise_writes (i := .vmin x) (srcsOf := fun c => c.src2 x) rfl rfl htd he ht hrec (htwo _ _) hruns :)
  · exact (elementwise_writes (i := .vcvt x) (srcsOf := fun c => c.src1 x) rfl rfl htd he ht hrec (hone _) hruns :)
  · exact (elementwise_writes (i := .vscale x) (srcsOf := fun c => c.src1 x) rfl rfl htd he ht hrec (hone _) hruns :)
  · exact (elementwise_writes (i := .vexp x) (srcsOf := fun c => c.src1 x) rfl rfl htd he ht hrec (hone _) hruns :)
  · exact (elementwise_writes (i := .vrecip x) (srcsOf := fun c => c.src1 x) rfl rfl htd he ht hrec (hone _) hruns :)
  · exact (elementwise_writes (i := .vrsqrt x) (srcsOf := fun c => c.src1 x) rfl rfl htd he ht hrec (hone _) hruns :)

/-- The rows of the reductions along RED (R213, R214). -/
theorem reduceRows_write {f : List Nat → Nat} (htd : (s.core.tile x.tile.val).desc x.td.val = td)
    (hta : (s.core.tile x.tile.val).desc x.ta.val = ta) (he : td.empty = false) (hea : ta.empty = false) (hrow : (i, op, f) ∈ reduceRows x)
    (ht : s.core.takesT x op = true) (hrec : s.core.recordOk x op)
    (hruns : s.core.runsFrom b x (unitOps td [ta] spUnit)
      (td.isFP && ta.isFP && (List.range 4).all (fun k => td.ext k == (if k = ta.red then 1 else ta.ext k))) false) :
    s.writes x i op b td (td.indices.map (fun j => roundNum td.ffmt (TArgs.rnd x)
      (decodeF .fp32 (f (b.line (s.core.who x.tile.val).2 (s.core.who x.tile.val).1 ta j))))) := by
  have hputs := Core.opReduce_puts (c := s.core.atUnit x.tile.val) f htd hta hruns.1 hruns.2 he hea
  simp only [reduceRows, List.mem_cons, Prod.mk.injEq, List.not_mem_nil, or_false] at hrow
  rcases hrow with h | h | h <;> obtain ⟨rfl, rfl, rfl⟩ := h
  · exact writes_of_puts (body := fun c l p => c.opReduce x l p (reduce64 add32)) rfl ht hrec hruns hputs
  · exact writes_of_puts (body := fun c l p => c.opReduce x l p (reduce64 max32)) rfl ht hrec hruns hputs
  · exact writes_of_puts (body := fun c l p => c.opReduce x l p (fun xs => reduce64 add32 (xs.map (fun e => mul32 e e)))) rfl ht hrec hruns
      hputs

end

/-- Settles O13: each operation writes its tensor on the device whose banks are awake, and what follows its issue touches no memory. -/
theorem tensorValues : Obligations.TensorValues := by
  intro x s b y l p td ta writes he
  refine ⟨fun i op ops shape inPlace f hrow ht hrec hruns => valueRows_write rfl he hrow ht hrec hruns,
    fun i op f hrow ht hrec hea hruns => reduceRows_write rfl rfl he hea hrow ht hrec hruns, fun ht hrec hruns => ?_, fun ht hrec hruns => ?_,
    fun ht hrec hruns => ?_⟩
  · exact writes_of_puts (body := fun c l p => c.opSoftmax x l p) rfl ht hrec hruns (Core.opSoftmax_puts rfl rfl hruns.1 hruns.2 he)
  · exact writes_of_puts (body := fun c l p => c.opEnc16 x l p) rfl ht hrec hruns (Core.opEnc16_puts rfl rfl hruns.1 hruns.2 he)
  · exact writes_of_puts (body := fun c l p => c.opLscale x l p) rfl ht hrec hruns (Core.opLscale_puts rfl rfl hruns.1 hruns.2 he)

end Sys2Proof.Machine
end

section
/-! PROOFS. Strings of little-endian fields, and numbers by their digits (R8). -/

namespace Sys2Proof

/-! ### Fields of a byte string -/

/-- The bytes of fields, each a width in bytes with a value. -/
def fieldBytes (fs : List (Nat × Nat)) : List Byte := fs.flatMap (fun e => leBytes e.1 e.2)

/-- The bytes that fields take. -/
def fieldWidth (fs : List (Nat × Nat)) : Nat := (fs.map Prod.fst).sum

theorem fieldBytes_append (fs gs : List (Nat × Nat)) : fieldBytes (fs ++ gs) = fieldBytes fs ++ fieldBytes gs := List.flatMap_append

theorem fieldWidth_append (fs gs : List (Nat × Nat)) : fieldWidth (fs ++ gs) = fieldWidth fs + fieldWidth gs := by
  simp [fieldWidth]

/-- The width of fields of one width. -/
theorem fieldWidth_map (n : Nat) (vs : List Nat) : fieldWidth (vs.map (fun v => (n, v))) = n * vs.length := by
  simp [fieldWidth, Function.comp_def, Nat.mul_comm]

theorem length_fieldBytes (fs : List (Nat × Nat)) : (fieldBytes fs).length = fieldWidth fs := by
  induction fs with
  | nil => rfl
  | cons e r ih =>
    rw [fieldBytes, List.flatMap_cons, List.length_append, length_leBytes, ← fieldBytes, ih]
    rfl

theorem drop_fieldBytes {fs : List (Nat × Nat)} (bs : List Byte) {k : Nat} (hk : fieldWidth fs = k) : (fieldBytes fs ++ bs).drop k = bs :=
  List.drop_left' ((length_fieldBytes fs).trans hk)

/-- A field stands after the fields before it and reads modulo its width. -/
theorem leNat_field (as cs : List (Nat × Nat)) (bs : List Byte) {k n : Nat} (v : Nat) (hk : fieldWidth as = k) :
    leNat (((fieldBytes (as ++ (n, v) :: cs) ++ bs).drop k).take n) = v % 2 ^ (8 * n) := by
  have hsplit : fieldBytes (as ++ (n, v) :: cs) ++ bs = fieldBytes as ++ (leBytes n v ++ (fieldBytes cs ++ bs)) := by simp [fieldBytes]
  rw [hsplit, drop_fieldBytes _ hk, List.take_left' (length_leBytes n v), leNat_leBytes]

theorem leNat_field_getElem {fs : List (Nat × Nat)} (bs : List Byte) {i k n v : Nat} (h : fs[i]? = some (n, v))
    (hk : fieldWidth (fs.take i) = k) : leNat (((fieldBytes fs ++ bs).drop k).take n) = v % 2 ^ (8 * n) := by
  obtain ⟨hi, hv⟩ := List.getElem?_eq_some_iff.mp h
  have hsplit : fs = fs.take i ++ (n, v) :: fs.drop (i + 1) := by rw [← hv, ← List.drop_eq_getElem_cons hi, List.take_append_drop]
  rw [hsplit]
  exact leNat_field _ _ bs v hk

/-- The two's complement in a byte reads as the integer (R8). -/
theorem signed_toTwos {e : Int} (hlo : -128 ≤ e) (hhi : e < 128) : signed 8 (toTwos 8 e % 256) = e := by
  unfold signed toTwos
  dsimp only
  split <;> omega

/-! ### Digits -/

/-- Adding up digits by their places gives the number of the digits. -/
theorem foldl_zipIdx_digits {α : Type} (b : Nat) (f : α → Nat) (l : List α) (n a : Nat) :
    (l.zipIdx n).foldl (fun a e => a + f e.1 * b ^ e.2) a = a + b ^ n * Nat.ofDigits b (l.map f) := by
  induction l generalizing n a with
  | nil => simp
  | cons x r ih =>
    rw [List.zipIdx_cons, List.foldl_cons, ih, List.map_cons, Nat.ofDigits_cons, Nat.pow_succ]
    ring

/-- A digit of a number of digits. -/
theorem ofDigits_digit {b i v : Nat} {L : List Nat} (hL : ∀ x ∈ L, x < b) (h : L[i]? = some v) : Nat.ofDigits b L / b ^ i % b = v := by
  obtain ⟨hi, hv⟩ := List.getElem?_eq_some_iff.mp h
  have hlt : v < b := hL v (hv ▸ List.getElem_mem hi)
  rw [Nat.ofDigits_div_pow_eq_ofDigits_drop i (by omega) L hL, List.drop_eq_getElem_cons hi, hv, Nat.ofDigits_cons,
    Nat.add_mul_mod_self_left]
  exact Nat.mod_eq_of_lt hlt

/-- How many positions below i satisfy a test that tells of the members of a list. -/
theorem length_filter_range {α : Type} {l : List α} {q : Nat → Bool} {r : α → Bool} (h : ∀ j x, l[j]? = some x → q j = r x) {i : Nat}
    (hi : i ≤ l.length) : ((List.range i).filter q).length = (l.take i).countP r := by
  induction i with
  | zero => rfl
  | succ i ih =>
    have hx : l[i]? = some l[i] := List.getElem?_eq_getElem hi
    rw [List.range_succ, List.filter_append, List.length_append, ih (by omega), List.take_add_one, List.countP_append, hx]
    cases hr : r l[i] <;> simp [h i _ hx, hr]

/-- Where the members that count give `m` values each and the others none, the values of one stand after those of the members before it. -/
theorem getElem?_flatMap_countP {α β : Type} {l : List α} {f : α → List β} {r : α → Bool} {m : Nat}
    (hf : ∀ x ∈ l, (f x).length = if r x then m else 0) {i : Nat} {x : α} (h : l[i]? = some x) {j : Nat} (hj : j < (f x).length) :
    (l.flatMap f)[(l.take i).countP r * m + j]? = (f x)[j]? := by
  induction l generalizing i with
  | nil => cases h
  | cons y s ih =>
    rw [List.flatMap_cons]
    cases i with
    | zero =>
      obtain rfl : y = x := by simpa using h
      rw [List.take_zero, List.countP_nil, Nat.zero_mul, Nat.zero_add, List.getElem?_append_left hj]
    | succ i =>
      have hy := hf y List.mem_cons_self
      have hplace : (((y :: s).take (i + 1)).countP r) * m + j = (f y).length + ((s.take i).countP r * m + j) := by
        rw [hy, List.take_succ_cons, List.countP_cons]
        split <;> ring
      rw [hplace, List.getElem?_append_right (by omega), Nat.add_sub_cancel_left]
      exact ih (fun z hz => hf z (List.mem_cons_of_mem _ hz)) (by simpa using h)

end Sys2Proof
end

section
/-! PROOFS. A scale record reads back as it was written (R113). -/

namespace Sys2Proof.Machine

/-- The fields of a scale record before its history: SEED to FLUSH (R113). -/
def ScaleRec.head (r : ScaleRec) : List (Nat × Nat) :=
  [(8, r.seed), (1, toTwos 8 r.e2), (1, r.flags), (1, r.histCount), (1, r.run), (4, 0), (8, r.step), (4, r.amax), (4, r.sat), (4, r.flush),
    (4, 0)]

/-- The history's fields. -/
def ScaleRec.past (r : ScaleRec) : List (Nat × Nat) := r.hist.map (fun h => (4, h))

section
variable (r : ScaleRec)

theorem ScaleRec.bytes_eq : r.bytes = fieldBytes (r.head ++ r.past ++ [(8, r.satTotal), (8, 0), (8, 0)]) ++ [] := by
  have hzero : leBytes 16 0 = leBytes 8 0 ++ leBytes 8 0 := rfl
  simp [ScaleRec.bytes, ScaleRec.head, ScaleRec.past, fieldBytes, List.flatMap_map, hzero]

/-- A field before the history. -/
theorem ScaleRec.leNat_head {i k n v : Nat} (h : r.head[i]? = some (n, v)) (hk : fieldWidth (r.head.take i) = k) :
    leNat ((r.bytes.drop k).take n) = v % 2 ^ (8 * n) := by
  rw [r.bytes_eq, List.append_assoc, fieldBytes_append, List.append_assoc]
  exact leNat_field_getElem _ h hk

/-- A maximum of the history. -/
theorem ScaleRec.leNat_past {j v : Nat} (h : r.hist[j]? = some v) : leNat ((r.bytes.drop (40 + 4 * j)).take 4) = v % 2 ^ 32 := by
  obtain ⟨hj, hv⟩ := List.getElem?_eq_some_iff.mp h
  have hsplit : r.past = (r.hist.take j).map (fun h => (4, h)) ++ (4, v) :: (r.hist.drop (j + 1)).map (fun h => (4, h)) := by
    rw [ScaleRec.past, ← List.map_cons (f := fun h => ((4, h) : Nat × Nat)), ← hv, ← List.drop_eq_getElem_cons hj, ← List.map_append,
      List.take_append_drop]
  rw [r.bytes_eq, hsplit, ← List.append_assoc, List.append_assoc _ (_ :: _), List.cons_append]
  refine leNat_field _ _ _ v ?_
  rw [fieldWidth_append, fieldWidth_map, List.length_take, Nat.min_eq_left (by omega)]
  rfl

/-- SATTOTAL and the reserved bytes after it. -/
theorem ScaleRec.leNat_tail (hlen : r.hist.length = 16) :
    leNat ((r.bytes.drop 104).take 8) = r.satTotal % 2 ^ 64 ∧ leNat ((r.bytes.drop 112).take 8) = 0 ∧ leNat ((r.bytes.drop 120).take 8) = 0 := by
  have hw : fieldWidth (r.head ++ r.past) = 104 := by rw [fieldWidth_append, ScaleRec.past, fieldWidth_map, hlen]; rfl
  rw [r.bytes_eq]
  refine ⟨leNat_field _ _ _ r.satTotal hw, ?_, ?_⟩
  · rw [List.append_cons]
    exact leNat_field _ _ _ 0 (by rw [fieldWidth_append, hw]; rfl)
  · rw [List.append_cons, List.append_cons]
    exact leNat_field _ [] _ 0 (by rw [fieldWidth_append, fieldWidth_append, hw]; rfl)

end

/-- The bytes of a scale record whose fields fit read back as that record. -/
theorem parseScale_bytes {r : ScaleRec} (hres : r.reserved = false) (hseed : r.seed < 2 ^ 64) (hlo : -128 ≤ r.e2) (hhi : r.e2 < 128)
    (hflags : r.flags < 16) (hcount : r.histCount < 256) (hrun : r.run < 256) (hstep : r.step < 2 ^ 64) (hamax : r.amax < 2 ^ 32)
    (hsat : r.sat < 2 ^ 32) (hflush : r.flush < 2 ^ 32) (hlen : r.hist.length = 16) (hhist : ∀ h ∈ r.hist, h < 2 ^ 32)
    (htotal : r.satTotal < 2 ^ 64) : parseScale r.bytes = r := by
  have hpast : (List.range 16).map (fun j => leNat ((r.bytes.drop (40 + 4 * j)).take 4)) = r.hist := by
    refine List.ext_getElem (by simp [hlen]) (fun j _ hj => ?_)
    rw [List.getElem_map, List.getElem_range, r.leNat_past (List.getElem?_eq_getElem hj), Nat.mod_eq_of_lt (hhist _ (List.getElem_mem hj))]
  obtain ⟨htail, hzero, hzero'⟩ := r.leNat_tail hlen
  unfold parseScale
  dsimp only
  rw [hpast, htail, hzero, hzero', r.leNat_head (i := 0) (k := 0) rfl rfl, r.leNat_head (i := 1) (k := 8) rfl rfl,
    r.leNat_head (i := 2) (k := 9) rfl rfl, r.leNat_head (i := 3) (k := 10) rfl rfl, r.leNat_head (i := 4) (k := 11) rfl rfl,
    r.leNat_head (i := 5) (k := 12) rfl rfl, r.leNat_head (i := 6) (k := 16) rfl rfl, r.leNat_head (i := 7) (k := 24) rfl rfl,
    r.leNat_head (i := 8) (k := 28) rfl rfl, r.leNat_head (i := 9) (k := 32) rfl rfl, r.leNat_head (i := 10) (k := 36) rfl rfl]
  have hsigned : signed 8 (toTwos 8 r.e2 % 2 ^ (8 * 1)) = r.e2 := signed_toTwos hlo hhi
  rw [hsigned]
  simp (disch := omega) only [Nat.mod_eq_of_lt, Nat.div_eq_of_lt]
  obtain ⟨seed, e2, flags, histCount, run, step, amax, sat, flush, hist, satTotal, reserved⟩ := r
  simp only [ScaleRec.mk.injEq, true_and]
  exact hres.symm

end Sys2Proof.Machine
end

section
/-! PROOFS. A group record reads back as it was encoded (R98, R99, R100). -/

namespace Sys2Proof.Machine

/-- A block of a group: its offset and its codes, or none for a zero block. -/
abbrev CodeBlock := Option (Nat × List Nat)

/-- The offset field of a block (R98). -/
def blockExp (o : CodeBlock) : Nat := match o with | some (e, _) => e | none => 15

/-- The stored codes of a block (R99). -/
def blockCodes (d : Desc) (o : CodeBlock) : List Byte := match o with | some (_, cs) => packCodes d cs | none => []

/-- The occupancy bitmap of blocks (R98). -/
def occBits (blocks : List CodeBlock) : Nat := Nat.ofDigits 2 (blocks.map (fun o => b2n o.isSome))

/-- The offset fields of blocks (R98). -/
def expBits (blocks : List CodeBlock) : Nat := Nat.ofDigits 16 (blocks.map blockExp)

theorem groupBytes_eq (d : Desc) (e2 : Int) (affine : Bool) (blocks : List CodeBlock) : groupBytes d e2 affine blocks =
    fieldBytes [(8, occBits blocks), (32, expBits blocks), (1, toTwos 8 e2), (1, b2n affine), (22, 0)] ++ blocks.flatMap (blockCodes d) := by
  have hocc : blocks.zipIdx.foldl (fun a b => if b.1.isSome then a + 2 ^ b.2 else a) 0 = occBits blocks := by
    have hstep : (fun (a : Nat) (b : CodeBlock × Nat) => if b.1.isSome then a + 2 ^ b.2 else a) =
        fun a b => a + b2n b.1.isSome * 2 ^ b.2 := by
      funext a b
      cases b.1 <;> simp [b2n]
    rw [hstep, foldl_zipIdx_digits 2 (fun o : CodeBlock => b2n o.isSome), Nat.zero_add, Nat.pow_zero, Nat.one_mul, occBits]
  have hexp : blocks.zipIdx.foldl (fun a b => a + blockExp b.1 * 2 ^ (4 * b.2)) 0 = expBits blocks := by
    have hstep : (fun (a : Nat) (b : CodeBlock × Nat) => a + blockExp b.1 * 2 ^ (4 * b.2)) = fun a b => a + blockExp b.1 * 16 ^ b.2 := by
      funext a b
      rw [Nat.pow_mul]
    rw [hstep, foldl_zipIdx_digits 16 blockExp, Nat.zero_add, Nat.pow_zero, Nat.one_mul, expBits]
  rw [← hocc, ← hexp]
  simp only [fieldBytes, List.flatMap_cons, List.flatMap_nil, List.append_nil, ← List.append_assoc]
  rfl

/-- The header and the code area of a group record as a decode reads them. -/
def readBytes (bs : List Byte) (affine : Bool) : Group :=
  { occ := leNat (bs.take 8), exps := leNat ((bs.drop 8).take 32), e2 := 0, affine := affine, reserved := false, codes := bs.drop 64 }

section
variable {d : Desc} {e2 : Int} {affine : Bool} {blocks : List CodeBlock}

theorem occBits_lt (hlen : blocks.length = 64) : occBits blocks < 2 ^ 64 := by
  have hlt := Nat.ofDigits_lt_base_pow_length (b := 2) (l := blocks.map (fun o => b2n o.isSome)) (by decide) (by
    simp only [List.mem_map]
    rintro v ⟨o, -, rfl⟩
    cases o.isSome <;> decide)
  rwa [List.length_map, hlen] at hlt

theorem blockExp_lt (hexp : ∀ o ∈ blocks, ∀ q, o = some q → q.1 < 15) : ∀ v ∈ blocks.map blockExp, v < 16 := by
  simp only [List.mem_map]
  rintro v ⟨o, ho, rfl⟩
  cases o with
  | none => decide
  | some q => exact (hexp _ ho q rfl).trans (by decide)

theorem expBits_lt (hlen : blocks.length = 64) (hexp : ∀ o ∈ blocks, ∀ q, o = some q → q.1 < 15) : expBits blocks < 16 ^ 64 := by
  have hlt := Nat.ofDigits_lt_base_pow_length (by decide) (blockExp_lt hexp)
  rwa [List.length_map, hlen] at hlt

theorem readBytes_occ (hlen : blocks.length = 64) : (readBytes (groupBytes d e2 affine blocks) affine).occ = occBits blocks := by
  have hread := leNat_field_getElem (i := 0) (k := 0) (blocks.flatMap (blockCodes d))
    (fs := [(8, occBits blocks), (32, expBits blocks), (1, toTwos 8 e2), (1, b2n affine), (22, 0)]) rfl rfl
  rw [← groupBytes_eq, Nat.mod_eq_of_lt (occBits_lt hlen)] at hread
  exact hread

theorem readBytes_exps (hlen : blocks.length = 64) (hexp : ∀ o ∈ blocks, ∀ q, o = some q → q.1 < 15) :
    (readBytes (groupBytes d e2 affine blocks) affine).exps = expBits blocks := by
  have hread := leNat_field_getElem (i := 1) (k := 8) (blocks.flatMap (blockCodes d))
    (fs := [(8, occBits blocks), (32, expBits blocks), (1, toTwos 8 e2), (1, b2n affine), (22, 0)]) rfl rfl
  rw [← groupBytes_eq, Nat.mod_eq_of_lt ((expBits_lt hlen hexp).trans_eq (by decide))] at hread
  exact hread

theorem readBytes_codes : (readBytes (groupBytes d e2 affine blocks) affine).codes = blocks.flatMap (blockCodes d) := by
  rw [readBytes, groupBytes_eq]
  exact drop_fieldBytes _ rfl

/-- A block is occupied exactly when it is present (R98). -/
theorem bitOf_occBits {i : Nat} {o : CodeBlock} (h : blocks[i]? = some o) : bitOf (occBits blocks) i = o.isSome := by
  have hdigit := ofDigits_digit (b := 2) (i := i) (v := b2n o.isSome) (L := blocks.map (fun o => b2n o.isSome)) (by
    simp only [List.mem_map]
    rintro v ⟨o, -, rfl⟩
    cases o.isSome <;> decide) (by rw [List.getElem?_map, h]; rfl)
  rw [bitOf, Nat.testBit_eq_decide_div_mod_eq, occBits, hdigit]
  cases o.isSome <;> rfl

/-- The offset field of a block (R98). -/
theorem bits_expBits (hexp : ∀ o ∈ blocks, ∀ q, o = some q → q.1 < 15) {i : Nat} {o : CodeBlock} (h : blocks[i]? = some o) :
    bits (expBits blocks) (4 * i + 3) (4 * i) = blockExp o := by
  have hdigit := ofDigits_digit (i := i) (v := blockExp o) (blockExp_lt hexp) (by rw [List.getElem?_map, h]; rfl)
  rw [bits, Nat.shiftRight_eq_div_pow, show 4 * i + 3 + 1 - 4 * i = 4 by omega, Nat.pow_mul]
  exact hdigit

end

/-! ### Codes -/

theorem Desc.code_sizes (d : Desc) :
    (d.codeBits = 4 ∧ 2 * d.codeBytes = d.blockB) ∨ (d.codeBits = 8 ∧ d.codeBytes = d.blockB) := by
  unfold Desc.codeBytes Desc.codeBits Desc.blockB
  split <;> split <;> decide

theorem length_packCodes {d : Desc} {cs : List Nat} (hlen : cs.length = d.blockB) : (packCodes d cs).length = d.codeBytes := by
  unfold packCodes
  rcases d.code_sizes with ⟨hbits, hsize⟩ | ⟨hbits, hsize⟩
  · rw [if_pos hbits, List.length_map, List.length_range]
    omega
  · rw [if_neg (by omega), List.length_map, hlen, hsize]

/-- The byte of the packed codes that holds code k (R100). -/
def codeByte (d : Desc) (k : Nat) : Nat := if d.codeBits = 4 then k / 2 else k

/-- Code k of its byte (R100). -/
def codeOf (d : Desc) (k : Nat) (b : Byte) : Nat := if d.codeBits = 4 then if k % 2 = 0 then b.toNat % 16 else b.toNat / 16 else b.toNat

theorem codeByte_lt {d : Desc} {k : Nat} (hk : k < d.blockB) : codeByte d k < d.codeBytes := by
  unfold codeByte
  rcases d.code_sizes with ⟨hbits, hsize⟩ | ⟨hbits, hsize⟩
  · rw [if_pos hbits]
    omega
  · rwa [if_neg (by omega), hsize]

theorem Group.code_eq (g : Group) (d : Desc) (i k : Nat) :
    g.code d i k = codeOf d k ((g.codes[g.rank i * d.codeBytes + codeByte d k]?).getD 0) := by
  unfold Group.code codeOf codeByte
  dsimp only
  split <;> rfl

/-- A code of a block is read from its byte (R100). -/
theorem codeOf_packCodes {d : Desc} {cs : List Nat} (hlen : cs.length = d.blockB) (hlt : ∀ v ∈ cs, v < 2 ^ d.codeBits) {k : Nat}
    (hk : k < d.blockB) : cs[k]? = some (codeOf d k (((packCodes d cs)[codeByte d k]?).getD 0)) := by
  obtain ⟨v, hv⟩ : ∃ v, cs[k]? = some v := ⟨_, List.getElem?_eq_getElem (by omega)⟩
  have hvlt := hlt v (List.mem_of_getElem? hv)
  rw [hv]
  unfold codeOf packCodes codeByte
  rcases d.code_sizes with ⟨hbits, hsize⟩ | ⟨hbits, hsize⟩
  · have hnib : ∀ j : Nat, (cs[j]?).getD 0 < 16 := fun j => by
      cases hj : cs[j]? with
      | none => decide
      | some u => exact (hlt u (List.mem_of_getElem? hj)).trans_eq (by rw [hbits]; rfl)
    have hbyte : (BitVec.ofNat 8 ((cs[2 * (k / 2)]?).getD 0 + 16 * (cs[2 * (k / 2) + 1]?).getD 0)).toNat =
        (cs[2 * (k / 2)]?).getD 0 + 16 * (cs[2 * (k / 2) + 1]?).getD 0 := by
      have hlow := hnib (2 * (k / 2))
      have hhigh := hnib (2 * (k / 2) + 1)
      rw [BitVec.toNat_ofNat, Nat.mod_eq_of_lt (by omega)]
    rw [if_pos hbits, if_pos hbits, if_pos hbits, List.getElem?_map, List.getElem?_range (by omega), Option.map_some, Option.getD_some, hbyte]
    rcases Nat.mod_two_eq_zero_or_one k with hpar | hpar
    · rw [if_pos hpar, Nat.add_mul_mod_self_left, Nat.mod_eq_of_lt (hnib _), show 2 * (k / 2) = k by omega, hv, Option.getD_some]
    · rw [if_neg (by omega), Nat.add_mul_div_left _ _ (by decide), Nat.div_eq_of_lt (hnib _), Nat.zero_add,
        show 2 * (k / 2) + 1 = k by omega, hv, Option.getD_some]
  · have hne : ¬d.codeBits = 4 := by omega
    rw [hbits] at hvlt
    rw [if_neg hne, if_neg hne, if_neg hne, List.getElem?_map, hv, Option.map_some, Option.getD_some, BitVec.toNat_ofNat,
      Nat.mod_eq_of_lt hvlt]

section
variable {d : Desc} {e2 : Int} {affine : Bool} {blocks : List CodeBlock}

/-- A present block's codes are packed in full, an absent one stores nothing (R99). -/
theorem length_blockCodes (hq : ∀ o ∈ blocks, ∀ q, o = some q → q.2.length = d.blockB) :
    ∀ o ∈ blocks, (blockCodes d o).length = if o.isSome then d.codeBytes else 0 := by
  intro o ho
  cases o with
  | none => rfl
  | some q => exact length_packCodes (hq _ ho q rfl)

/-- The codes of a present block stand after those of the present blocks before it (R99, R100). -/
theorem readBytes_code (hlen : blocks.length = 64)
    (hq : ∀ o ∈ blocks, ∀ q, o = some q → q.1 < 15 ∧ q.2.length = d.blockB ∧ ∀ v ∈ q.2, v < 2 ^ d.codeBits) {i k : Nat}
    {q : Nat × List Nat} (h : blocks[i]? = some (some q)) (hk : k < d.blockB) :
    q.2[k]? = some ((readBytes (groupBytes d e2 affine blocks) affine).code d i k) := by
  obtain ⟨-, hcodes, hlt⟩ := hq _ (List.mem_of_getElem? h) q rfl
  have hi := (List.getElem?_eq_some_iff.mp h).1
  have hrank : (readBytes (groupBytes d e2 affine blocks) affine).rank i = (blocks.take i).countP Option.isSome := by
    rw [Group.rank, readBytes_occ hlen]
    exact length_filter_range (fun j o hj => bitOf_occBits hj) hi.le
  have hat := getElem?_flatMap_countP (length_blockCodes (fun o ho q h => (hq o ho q h).2.1)) h
    (j := codeByte d k) ((codeByte_lt hk).trans_eq (length_packCodes hcodes).symm)
  rw [Group.code_eq, readBytes_codes, hrank, hat]
  exact codeOf_packCodes hcodes hlt hk

end

end Sys2Proof.Machine
end

section
/-! PROOFS. CBLOAD fills its slot (R90 to R94, R218), and O19. -/

namespace Sys2Proof.Machine

/-- A codebook in a slot of a tile's codec unit. -/
def Tile.loadBook (y : Tile) (slot : Nat) (cb : Codebook) : Tile := { y with cb := y.cb.put (fun _ => none) slot (some cb) }

theorem Tile.book_loadBook (y : Tile) (slot : Nat) (cb : Codebook) (n : Nat) :
    (y.loadBook slot cb).book n = if n = slot then some cb else y.book n := 
  SMap.get_put (fun _ => none) y.cb slot n (some cb)

/-- CBLOAD of an image that passes R91 loads it into its slot. -/
theorem Core.opCbload_loads {c b : Core} {x : TArgs} {l p : Nat} {ta : Desc} {cb : Codebook} (hta : (c.tile x.tile.val).desc x.ta.val = ta)
    (hchecks : c.issueChecks p l [{ d := ta, spaces := spOwn }]
      (ta.raw16 && (ta.e0 == 48 || ta.e0 == 288) && ta.e1 == 1 && ta.e2 == 1 && ta.e3 == 1) false = 0)
    (halign : ta.addr % 64 = 0) (hmem : c.memFaults p l [{ d := ta, spaces := spOwn }] x.env = (0, b))
    (hparse : parseCodebook (b.readAt p l ta.addr 0 (2 * ta.e0)) = some cb) :
    c.opCbload x l p = { c := b.setTile x.tile.val ((b.tile x.tile.val).loadBook (bits x.mods.toNat 3 0) cb)
                         slots := [bits x.mods.toNat 3 0] } := by
  subst hta
  simp only [Core.opCbload, hchecks, halign, hmem, hparse, ne_eq, not_true, if_false]
  rfl

/-- The codebook stands in its slot once CBLOAD has issued; the memories are as the awake banks show them. -/
theorem cbload_answers {x : TArgs} {s : State} {b : Core} {ta : Desc} {cb : Codebook} (hta : (s.core.tile x.tile.val).desc x.ta.val = ta)
    (ht : s.core.takesT x .CBLOAD = true) (hrec : s.core.recordOk x .CBLOAD) (halign : ta.addr % 64 = 0)
    (hruns : s.core.runsFrom b x [{ d := ta, spaces := spOwn }]
      (ta.raw16 && (ta.e0 == 48 || ta.e0 == 288) && ta.e1 == 1 && ta.e2 == 1 && ta.e3 == 1) false)
    (hparse : parseCodebook (b.readAt (s.core.who x.tile.val).2 (s.core.who x.tile.val).1 ta.addr 0 (2 * ta.e0)) = some cb) :
    Answers s (.cbload x) (fun c =>
      (∀ n, (c.tile x.tile.val).book n = if n = bits x.mods.toNat 3 0 then some cb else (s.core.tile x.tile.val).book n) ∧ c.mems = b.mems ∧
        ∃ o ∈ c.ops, o.id = s.core.nextOp ∧ o.status = 0 ∧ o.slots = [bits x.mods.toNat 3 0]) := by
  have hview : b.seqView = (s.core.atUnit x.tile.val).seqView := Core.seqView_memFaults hruns.2
  have htile : b.tile x.tile.val = s.core.tile x.tile.val := Core.tile_of_seqView hview _
  obtain ⟨-, -, -, hnext⟩ := Core.seqView_eq_iff.mp hview
  refine answers_tensor (body := fun c l p => c.opCbload x l p) rfl ht hrec (Core.opCbload_loads hta hruns.1 halign hruns.2 hparse)
    (fun c hm _ hsame _ ⟨unit, pc, item, ho⟩ =>
      ⟨fun n => ?_, hm, _, ho ▸ List.mem_append_right _ (List.mem_singleton_self _), hnext, rfl, rfl⟩)
  rw [hsame, Core.tile_setTile_same, htile]
  exact Tile.book_loadBook _ _ _ n

/-- Settles O19: CBLOAD by what its operation makes of the tile, the records field by field and digit by digit. -/
theorem codecRecords : Obligations.CodecRecords := by
  refine ⟨?_, ?_, fun _ => parseScale_bytes⟩
  · intro x s b cb y ta w ht hrec halign hruns hparse
    exact cbload_answers rfl ht hrec halign hruns hparse
  · intro d e2 affine blocks i k o _ hlen hq ho hk bs g
    have hexp : ∀ o ∈ blocks, ∀ q, o = some q → q.1 < 15 := fun o ho q h => (hq o ho q h).1
    have hocc : g.occ = occBits blocks := readBytes_occ hlen
    have hexps : g.exps = expBits blocks := readBytes_exps hlen hexp
    refine ⟨by rw [hocc, bitOf_occBits ho], ?_, fun q hsome => readBytes_code hlen hq (hsome ▸ ho) hk⟩
    rw [Group.exp, hexps, bits_expBits hexp ho]
    cases o <;> rfl

end Sys2Proof.Machine
end

section
/-! PROOFS. The words of Dioth instructions (R132 to R136, R190, R197, R233): every field stands at its place, a word is its fields put
together, what the decoder answers, and O59. -/

namespace Sys2Proof.Machine

/-! ### Opcodes -/

theorem SOp.ofMajor_major (o : SOp) : SOp.ofMajor o.major = some o := by cases o <;> rfl

theorem TOp.ofMajor_major (o : TOp) : TOp.ofMajor o.uses.major = some o := by cases o <;> rfl

/-- No tensor-format opcode is a scalar-format one. -/
theorem SOp.ofMajor_tensor (o : TOp) : SOp.ofMajor o.uses.major = none := by cases o <;> rfl

theorem SOp.major_of_ofMajor {m : Nat} {o : SOp} (h : SOp.ofMajor m = some o) : o.major = m := by
  simpa using List.find?_some h

theorem TOp.major_of_ofMajor {m : Nat} {o : TOp} (h : TOp.ofMajor m = some o) : o.uses.major = m := by
  simpa using List.find?_some h

/-- The opcodes lie below those of the wide forms and the reserved ones (R132, R134). -/
theorem SOp.major_lt (o : SOp) : o.major < 0xF0 := by cases o <;> decide

theorem TOp.major_lt (o : TOp) : o.uses.major < 0xF0 := by cases o <;> decide

theorem toNat_major {m : Nat} (h : m < 0xF0) : (BitVec.ofNat 8 m).toNat = m := by
  rw [BitVec.toNat_ofNat]; omega

/-! ### Words by their fields (R132) -/

/-- The first word of an ordinary scalar-format instruction by its fields. -/
abbrev scalarWord (m : BitVec 8) (guard : BitVec 3) (n : BitVec 1) (d a b : BitVec 5) (imm : BitVec 37) :
    BitVec (8 + 3 + 1 + 5 + 5 + 5 + 37) :=
  m ++ guard ++ n ++ d ++ a ++ b ++ imm

/-- The first word of a scalar-wide form: the BASE opcode and 29 reserved bits stand in the place of the immediate. -/
abbrev scalarWideWord (m : BitVec 8) (guard : BitVec 3) (n : BitVec 1) (d a b : BitVec 5) (base : BitVec 8) (low : BitVec 29) :
    BitVec (8 + 3 + 1 + 5 + 5 + 5 + 8 + 29) :=
  m ++ guard ++ n ++ d ++ a ++ b ++ base ++ low

/-- The first word of a tensor-format instruction by its fields. -/
abbrev tensorWord (m : BitVec 8) (guard : BitVec 3) (n : BitVec 1) (td ta tb tc k : BitVec 4) (base : BitVec 8) (mods : BitVec 24) :
    BitVec (8 + 3 + 1 + 4 + 4 + 4 + 4 + 4 + 8 + 24) :=
  m ++ guard ++ n ++ td ++ ta ++ tb ++ tc ++ k ++ base ++ mods

section
variable (m : BitVec 8) (guard : BitVec 3) (n : BitVec 1) (d a b : BitVec 5) (imm : BitVec 37) (td ta tb tc k : BitVec 4) (base : BitVec 8)
  (low : BitVec 29) (mods : BitVec 24)

theorem scalarWord_fields :
    let w := scalarWord m guard n d a b imm
    w.extractLsb' 56 8 = m ∧ w.extractLsb' 53 3 = guard ∧ w.extractLsb' 52 1 = n ∧ w.extractLsb' 47 5 = d ∧ w.extractLsb' 42 5 = a ∧
      w.extractLsb' 37 5 = b ∧ w.extractLsb' 0 37 = imm := by
  simp (disch := decide) [-Nat.reduceAdd, scalarWord, BitVec.extractLsb'_append_eq_of_le, BitVec.extractLsb'_append_eq_of_add_le]

theorem scalarWideWord_fields :
    let w := scalarWideWord m guard n d a b base low
    w.extractLsb' 56 8 = m ∧ w.extractLsb' 53 3 = guard ∧ w.extractLsb' 52 1 = n ∧ w.extractLsb' 47 5 = d ∧ w.extractLsb' 42 5 = a ∧
      w.extractLsb' 37 5 = b ∧ w.extractLsb' 29 8 = base ∧ w.extractLsb' 0 29 = low := by
  simp (disch := decide) [-Nat.reduceAdd, scalarWideWord, BitVec.extractLsb'_append_eq_of_le, BitVec.extractLsb'_append_eq_of_add_le]

theorem tensorWord_fields :
    let w := tensorWord m guard n td ta tb tc k base mods
    w.extractLsb' 56 8 = m ∧ w.extractLsb' 53 3 = guard ∧ w.extractLsb' 52 1 = n ∧ w.extractLsb' 48 4 = td ∧ w.extractLsb' 44 4 = ta ∧
      w.extractLsb' 40 4 = tb ∧ w.extractLsb' 36 4 = tc ∧ w.extractLsb' 32 4 = k ∧ w.extractLsb' 24 8 = base ∧ w.extractLsb' 0 24 = mods := by
  simp (disch := decide) [-Nat.reduceAdd, tensorWord, BitVec.extractLsb'_append_eq_of_le, BitVec.extractLsb'_append_eq_of_add_le]

end

/-- Every word is its fields put together. -/
theorem scalarWord_extract (w : Word) :
    scalarWord (w.extractLsb' 56 8) (w.extractLsb' 53 3) (w.extractLsb' 52 1) (w.extractLsb' 47 5) (w.extractLsb' 42 5)
      (w.extractLsb' 37 5) (w.extractLsb' 0 37) = w := by
  simp (disch := decide) only [-Nat.reduceAdd, scalarWord, BitVec.extractLsb'_append_extractLsb'_eq_extractLsb']
  exact BitVec.extractLsb'_eq_self

theorem scalarWideWord_extract (w : Word) :
    scalarWideWord (w.extractLsb' 56 8) (w.extractLsb' 53 3) (w.extractLsb' 52 1) (w.extractLsb' 47 5) (w.extractLsb' 42 5)
      (w.extractLsb' 37 5) (w.extractLsb' 29 8) (w.extractLsb' 0 29) = w := by
  simp (disch := decide) only [-Nat.reduceAdd, scalarWideWord, BitVec.extractLsb'_append_extractLsb'_eq_extractLsb']
  exact BitVec.extractLsb'_eq_self

theorem tensorWord_extract (w : Word) :
    tensorWord (w.extractLsb' 56 8) (w.extractLsb' 53 3) (w.extractLsb' 52 1) (w.extractLsb' 48 4) (w.extractLsb' 44 4)
      (w.extractLsb' 40 4) (w.extractLsb' 36 4) (w.extractLsb' 32 4) (w.extractLsb' 24 8) (w.extractLsb' 0 24) = w := by
  simp (disch := decide) only [-Nat.reduceAdd, tensorWord, BitVec.extractLsb'_append_extractLsb'_eq_extractLsb']
  exact BitVec.extractLsb'_eq_self

/-- A bit and the field of that one bit. -/
theorem ofBool_getLsbD (w : Word) (i : Nat) : BitVec.ofBool (w.getLsbD i) = w.extractLsb' i 1 := by
  refine BitVec.eq_of_getLsbD_eq fun j hj => ?_
  obtain rfl : j = 0 := by omega
  simp

theorem getLsbD_of_field {w : Word} {i : Nat} {b : Bool} (h : w.extractLsb' i 1 = BitVec.ofBool b) : w.getLsbD i = b := by
  have := congrArg (fun v => v.getLsbD 0) ((ofBool_getLsbD w i).trans h)
  simpa using this

/-! ### The words of an instruction and the fields of its words -/

/-- The words of an ordinary scalar-format instruction give its fields. -/
theorem SIns.fields_ordinary {i : SIns} (h : i.wide = none) :
    i.word.extractLsb' 56 8 = BitVec.ofNat 8 i.op.major ∧ sFields i.op i.word none = i := by
  obtain ⟨op, guard, neg, d, a, b, imm, wide⟩ := i
  obtain rfl : wide = none := h
  obtain ⟨hm, hg, hn, hd, ha, hb, hi⟩ := scalarWord_fields (BitVec.ofNat 8 op.major) guard (BitVec.ofBool neg) d a b imm
  refine ⟨hm, ?_⟩
  rw [sFields, SIns.mk.injEq]
  exact ⟨rfl, hg, getLsbD_of_field hn, hd, ha, hb, hi, rfl⟩

theorem SIns.fields_wide {i : SIns} {v : Word} (h : i.wide = some v) (hz : i.imm = 0) :
    i.word.extractLsb' 56 8 = 0xF0 ∧ i.word.extractLsb' 29 8 = BitVec.ofNat 8 i.op.major ∧ i.word.extractLsb' 0 29 = 0 ∧
      sFields i.op i.word (some v) = i := by
  obtain ⟨op, guard, neg, d, a, b, imm, wide⟩ := i
  obtain rfl : wide = some v := h
  obtain rfl : imm = 0 := hz
  obtain ⟨hm, hg, hn, hd, ha, hb, hbase, hlow⟩ := scalarWideWord_fields 0xF0 guard (BitVec.ofBool neg) d a b (BitVec.ofNat 8 op.major) 0
  refine ⟨hm, hbase, hlow, ?_⟩
  rw [sFields, SIns.mk.injEq]
  exact ⟨rfl, hg, getLsbD_of_field hn, hd, ha, hb, rfl, rfl⟩

theorem TIns.fields_ordinary {i : TIns} (h : i.wide = none) :
    i.word.extractLsb' 56 8 = BitVec.ofNat 8 i.op.uses.major ∧ i.word.extractLsb' 24 8 = 0 ∧ tFields i.op i.word none = i := by
  obtain ⟨op, guard, neg, td, ta, tb, tc, k, mods, wide⟩ := i
  obtain rfl : wide = none := h
  obtain ⟨hm, hg, hn, hd, ha, hb, hc, hk, hbase, hmods⟩ :=
    tensorWord_fields (BitVec.ofNat 8 op.uses.major) guard (BitVec.ofBool neg) td ta tb tc k 0 mods
  refine ⟨hm, hbase, ?_⟩
  rw [tFields, TIns.mk.injEq]
  exact ⟨rfl, hg, getLsbD_of_field hn, hd, ha, hb, hc, hk, hmods, rfl⟩

theorem TIns.fields_wide {i : TIns} {v : Word} (h : i.wide = some v) :
    i.word.extractLsb' 56 8 = 0xF1 ∧ i.word.extractLsb' 24 8 = BitVec.ofNat 8 i.op.uses.major ∧ tFields i.op i.word (some v) = i := by
  obtain ⟨op, guard, neg, td, ta, tb, tc, k, mods, wide⟩ := i
  obtain rfl : wide = some v := h
  obtain ⟨hm, hg, hn, hd, ha, hb, hc, hk, hbase, hmods⟩ :=
    tensorWord_fields 0xF1 guard (BitVec.ofBool neg) td ta tb tc k (BitVec.ofNat 8 op.uses.major) mods
  refine ⟨hm, hbase, ?_⟩
  rw [tFields, TIns.mk.injEq]
  exact ⟨rfl, hg, getLsbD_of_field hn, hd, ha, hb, hc, hk, hmods, rfl⟩

/-- A field that holds a number. -/
theorem field_eq_ofNat {w : BitVec 8} {m : Nat} (h : m = w.toNat) : BitVec.ofNat 8 m = w := by
  rw [h, BitVec.ofNat_toNat, BitVec.setWidth_eq]

/-- The fields of a word give the word again. -/
theorem word_sFields_ordinary {op : SOp} {w : Word} (h : op.major = (w.extractLsb' 56 8).toNat) : (sFields op w none).word = w := by
  simp only [SIns.word, sFields, field_eq_ofNat h, ofBool_getLsbD]
  exact scalarWord_extract w

theorem word_sFields_wide {op : SOp} {w v : Word} (hm : w.extractLsb' 56 8 = 0xF0) (h : op.major = (w.extractLsb' 29 8).toNat)
    (hlow : w.extractLsb' 0 29 = 0) : (sFields op w (some v)).word = w := by
  simp only [SIns.word, sFields, field_eq_ofNat h, ofBool_getLsbD, ← hm, ← hlow]
  exact scalarWideWord_extract w

theorem word_tFields_ordinary {op : TOp} {w : Word} (h : op.uses.major = (w.extractLsb' 56 8).toNat) (hz : w.extractLsb' 24 8 = 0) :
    (tFields op w none).word = w := by
  simp only [TIns.word, tFields, field_eq_ofNat h, ofBool_getLsbD, ← hz]
  exact tensorWord_extract w

theorem word_tFields_wide {op : TOp} {w v : Word} (hm : w.extractLsb' 56 8 = 0xF1) (h : op.uses.major = (w.extractLsb' 24 8).toNat) :
    (tFields op w (some v)).word = w := by
  simp only [TIns.word, tFields, field_eq_ofNat h, ofBool_getLsbD, ← hm]
  exact tensorWord_extract w

/-! ### What the decoder answers -/

theorem checkS_eq_ins {i : SIns} {len n : Nat} {j : Ins} : checkS i len = .ins j n ↔ i.wf = true ∧ j = .s i ∧ n = len := by
  cases hform : i.formOk <;> cases hfields : i.fieldsOk <;> simp [checkS, SIns.wf, hform, hfields, eq_comm]

theorem checkT_eq_ins {i : TIns} {len n : Nat} {j : Ins} : checkT i len = .ins j n ↔ i.wf = true ∧ j = .t i ∧ n = len := by
  cases hform : i.formOk <;> cases hfields : i.fieldsOk <;> simp [checkT, TIns.wf, hform, hfields, eq_comm]

/-- A word whose top byte is an ordinary scalar opcode. -/
theorem decodeDioth_scalar {op : SOp} {w : Word} (next : Word) (h : (w.extractLsb' 56 8).toNat = op.major) :
    decodeDioth w next = checkS (sFields op w none) 1 := by
  have hlt := op.major_lt
  have : ¬(0xF2 ≤ op.major ∧ op.major ≤ 0xF7) := by omega
  simp only [decodeDioth, h, SOp.ofMajor_major, if_neg this, if_neg (show op.major ≠ 0xF0 by omega), if_neg (show op.major ≠ 0xF1 by omega)]

theorem decodeDioth_scalarWide {op : SOp} {w : Word} (next : Word) (hm : w.extractLsb' 56 8 = 0xF0)
    (h : (w.extractLsb' 29 8).toNat = op.major) (hok : op.wideOk = true) (hlow : w.extractLsb' 0 29 = 0) :
    decodeDioth w next = checkS (sFields op w (some next)) 2 := by
  simp [decodeDioth, hm, h, SOp.ofMajor_major, hok, hlow]

theorem decodeDioth_tensor {op : TOp} {w : Word} (next : Word) (h : (w.extractLsb' 56 8).toNat = op.uses.major) (hw : op.uses.wide ≠ 2)
    (hz : w.extractLsb' 24 8 = 0) : decodeDioth w next = checkT (tFields op w none) 1 := by
  have hlt := op.major_lt
  have : ¬(0xF2 ≤ op.uses.major ∧ op.uses.major ≤ 0xF7) := by omega
  simp only [decodeDioth, h, TOp.ofMajor_major, SOp.ofMajor_tensor, if_neg this, if_neg (show op.uses.major ≠ 0xF0 by omega),
    if_neg (show op.uses.major ≠ 0xF1 by omega), if_neg hw, hz, ne_eq, not_true, if_false]

theorem decodeDioth_tensorWide {op : TOp} {w : Word} (next : Word) (hm : w.extractLsb' 56 8 = 0xF1)
    (h : (w.extractLsb' 24 8).toNat = op.uses.major) : decodeDioth w next = checkT (tFields op w (some next)) 2 := by
  simp [decodeDioth, hm, h, TOp.ofMajor_major]

/-- A word that decodes to an instruction spells it in one of the four formats. -/
inductive Spells (w next : Word) : Ins → Nat → Prop where
  | scalar (op : SOp) (h : op.major = (w.extractLsb' 56 8).toNat) (hwf : (sFields op w none).wf = true) :
      Spells w next (.s (sFields op w none)) 1
  | scalarWide (op : SOp) (hm : w.extractLsb' 56 8 = 0xF0) (h : op.major = (w.extractLsb' 29 8).toNat) (hlow : w.extractLsb' 0 29 = 0)
      (hwf : (sFields op w (some next)).wf = true) : Spells w next (.s (sFields op w (some next))) 2
  | tensor (op : TOp) (h : op.uses.major = (w.extractLsb' 56 8).toNat) (hz : w.extractLsb' 24 8 = 0) (hwf : (tFields op w none).wf = true) :
      Spells w next (.t (tFields op w none)) 1
  | tensorWide (op : TOp) (hm : w.extractLsb' 56 8 = 0xF1) (h : op.uses.major = (w.extractLsb' 24 8).toNat)
      (hwf : (tFields op w (some next)).wf = true) : Spells w next (.t (tFields op w (some next))) 2

theorem spells_of_decodeDioth {w next : Word} {i : Ins} {len : Nat} (hdec : decodeDioth w next = .ins i len) : Spells w next i len := by
  unfold decodeDioth at hdec
  dsimp only at hdec
  split at hdec
  · rename_i hF0
    split at hdec
    · rename_i op hop
      split at hdec
      · cases hdec
      · split at hdec
        · cases hdec
        · rename_i hlow
          obtain ⟨hwf, rfl, rfl⟩ := checkS_eq_ins.mp hdec
          exact .scalarWide op (BitVec.eq_of_toNat_eq hF0) (SOp.major_of_ofMajor hop) (not_not.mp hlow) hwf
    · cases hdec
  · split at hdec
    · rename_i hF1
      split at hdec
      · rename_i op hop
        obtain ⟨hwf, rfl, rfl⟩ := checkT_eq_ins.mp hdec
        exact .tensorWide op (BitVec.eq_of_toNat_eq hF1) (TOp.major_of_ofMajor hop) hwf
      · cases hdec
    · split at hdec
      · cases hdec
      · split at hdec
        · rename_i op hop
          obtain ⟨hwf, rfl, rfl⟩ := checkS_eq_ins.mp hdec
          exact .scalar op (SOp.major_of_ofMajor hop) hwf
        · rename_i op _ hop
          split at hdec
          · cases hdec
          · split at hdec
            · cases hdec
            · rename_i hz
              obtain ⟨hwf, rfl, rfl⟩ := checkT_eq_ins.mp hdec
              exact .tensor op (TOp.major_of_ofMajor hop) (not_not.mp hz) hwf
        · cases hdec

/-! ### There and back -/

theorem SIns.wf_wide {i : SIns} {v : Word} (hw : i.wide = some v) (h : i.wf = true) : i.op.wideOk = true ∧ i.imm = 0 := by
  simp only [SIns.wf, SIns.formOk, SIns.fieldsOk, hw, Option.isNone_some, Bool.false_or, Bool.and_eq_true, beq_iff_eq] at h
  exact ⟨h.1, h.2.2⟩

theorem decodeDioth_word_scalar {i : SIns} (next : Word) (h : i.wf = true) :
    decodeDioth i.word (i.wide.getD next) = .ins (.s i) (Ins.words (.s i)).length := by
  cases hw : i.wide with
  | none =>
    obtain ⟨hm, hf⟩ := SIns.fields_ordinary hw
    have hlen : (Ins.words (.s i)).length = 1 := by simp only [Ins.words, hw]; rfl
    rw [decodeDioth_scalar (op := i.op) _ (by rw [hm, toNat_major i.op.major_lt]), hf, hlen]
    exact checkS_eq_ins.mpr ⟨h, rfl, rfl⟩
  | some v =>
    obtain ⟨hok, hz⟩ := SIns.wf_wide hw h
    obtain ⟨hm, hbase, hlow, hf⟩ := SIns.fields_wide hw hz
    have hlen : (Ins.words (.s i)).length = 2 := by simp only [Ins.words, hw]; rfl
    rw [decodeDioth_scalarWide (op := i.op) _ hm (by rw [hbase, toNat_major i.op.major_lt]) hok hlow, Option.getD_some, hf, hlen]
    exact checkS_eq_ins.mpr ⟨h, rfl, rfl⟩

theorem decodeDioth_word_tensor {i : TIns} (next : Word) (h : i.wf = true) :
    decodeDioth i.word (i.wide.getD next) = .ins (.t i) (Ins.words (.t i)).length := by
  cases hw : i.wide with
  | none =>
    obtain ⟨hm, hz, hf⟩ := TIns.fields_ordinary hw
    have hform : i.op.uses.wide ≠ 2 := by
      simp only [TIns.wf, TIns.formOk, hw, Bool.and_eq_true, bne_iff_ne] at h
      exact h.1
    have hlen : (Ins.words (.t i)).length = 1 := by simp only [Ins.words, hw]; rfl
    rw [decodeDioth_tensor (op := i.op) _ (by rw [hm, toNat_major i.op.major_lt]) hform hz, hf, hlen]
    exact checkT_eq_ins.mpr ⟨h, rfl, rfl⟩
  | some v =>
    obtain ⟨hm, hbase, hf⟩ := TIns.fields_wide hw
    have hlen : (Ins.words (.t i)).length = 2 := by simp only [Ins.words, hw]; rfl
    rw [decodeDioth_tensorWide (op := i.op) _ hm (by rw [hbase, toNat_major i.op.major_lt]), Option.getD_some, hf, hlen]
    exact checkT_eq_ins.mpr ⟨h, rfl, rfl⟩

/-- Settles O59: the fields of a word and the word of the fields undo each other, format by format. -/
theorem diothRoundTrip : Obligations.DiothRoundTrip := by
  refine ⟨fun i next h => decodeDioth_word_scalar next h, fun i next h => decodeDioth_word_tensor next h, ?_, ?_⟩
  · intro w next i len hdec
    cases spells_of_decodeDioth hdec with
    | scalar op h hwf => exact ⟨hwf, word_sFields_ordinary h, rfl, nofun⟩
    | scalarWide op hm h hlow hwf => exact ⟨hwf, word_sFields_wide hm h hlow, rfl, fun _ => rfl⟩
  · intro w next i len hdec
    cases spells_of_decodeDioth hdec with
    | tensor op h hz hwf => exact ⟨hwf, word_tFields_ordinary h hz, rfl, nofun⟩
    | tensorWide op hm h hwf => exact ⟨hwf, word_tFields_wide hm h, rfl, fun _ => rfl⟩

end Sys2Proof.Machine
end

section
/-! PROOFS. The rules of a tile's sequencer: what one update of it leaves, the move of its pc, its faults, its stalls (R132, R133, R157,
R158, R171, R183, R189). -/

namespace Sys2Proof.Machine

/-! ### One tile's sequencer -/

section
variable {c c' : Core} {t : Nat} {y z : Tile}

/-- A tile that takes an instruction stands as it was when its effect begins (R189). -/
theorem Core.seqTo_atIssue (c : Core) (t : Nat) : c.seqTo (c.atIssue t) t (c.tile t) :=
  ⟨c.onlySeq_count t, c.rf_count_same _ _ _ (by decide), rfl⟩

theorem Core.seqTo.setTile (h : c.seqTo c' t y) (z : Tile) : c.seqTo (c'.setTile t z) t z := by
  obtain ⟨honly, hcount, -⟩ := h
  exact ⟨honly.setTile z, hcount, Core.tile_setTile_same _ _ _⟩

theorem Core.seqTo.advance (h : c.seqTo c' t y) (len : Nat) :
    c.seqTo (c'.advance t len) t { y with pc := (y.pc + len) % 2 ^ 22 } := by
  obtain ⟨-, -, htile⟩ := id h
  subst htile
  exact h.setTile _

theorem Core.seqTo.retired {len : Nat} (h : c.seqTo c' t y) (hpc : y.pc = ((c.tile t).pc + len) % 2 ^ 22) : c.retired c' t len := by
  obtain ⟨-, hcount, htile⟩ := h
  exact ⟨hcount, by rw [htile, hpc]⟩

/-- An update of one sequencer leaves every register but its count of instructions. -/
theorem Core.seqTo.rf (h : c.seqTo c' t y) {f : Fld} (hf : f.reg.apart Regs.TILE_INSTR_COUNT = true) (i : Nat) : c'.rf f i = c.rf f i := by
  obtain ⟨⟨-, -, -, -, -, hregs⟩, -, -⟩ := h
  rw [Core.rf, Core.rf, hregs _ _ (Reg.at_ne_of_apart hf i t)]

/-- The tile map, the clock and the parts of a device that its other fields hold. -/
theorem Core.map_of_others (h : c'.others = c.others) : c'.map = c.map :=
  show c'.others.map = c.others.map by rw [h]

theorem Core.seqTo.owners (h : c.seqTo c' t y) : c.sameOwners c' := by
  obtain ⟨⟨-, -, -, -, -, hregs⟩, -, -⟩ := h
  exact fun p => ⟨hregs _ _ (Reg.at_ne_of_apart (by decide) p t), hregs _ _ (Reg.at_ne_of_apart (by decide) p t)⟩

theorem Core.seqTo.map (h : c.seqTo c' t y) : c'.map = c.map := Core.map_of_others h.1.1

theorem Core.seqTo.who (h : c.seqTo c' t y) (u : Nat) : c'.who u = c.who u := h.owners.who h.map u

theorem Core.seqTo.part (h : c.seqTo c' t y) (p : Nat) : c'.part p = c.part p := Core.part_of_parts h.1.2.1 p

/-- A program fault of a tile that could issue, from a device in which only its sequencer differs. -/
theorem Core.seqTo.faults (h : c.seqTo c' t y) (hcan : c.canIssue t = true) (hpc : y.pc = (c.tile t).pc)
    (himage : y.imageTile = (c.tile t).imageTile) (reason st major : Nat) :
    c.faults (c'.programFault t reason st major) t reason st major := by
  obtain ⟨pr, hprog, hstop⟩ := c.canIssue_prog hcan
  obtain ⟨⟨-, -, hevt, -⟩, -, htile⟩ := id h
  have := c'.faults_programFault (t := t) (pr := pr) (by rw [h.who, h.part, hprog]) hstop reason st major
  simpa only [Core.faults, h.who, htile, hpc, himage, hevt] using this

/-- A program fault leaves the count of instructions as it was. -/
theorem Core.rf_instrCount_programFault (c : Core) (t reason st major : Nat) :
    (c.programFault t reason st major).rf Regs.TILE_INSTR_COUNT_COUNT t = c.rf Regs.TILE_INSTR_COUNT_COUNT t := by
  have hnote : ∀ w, (c.noteFault t w).rf Regs.TILE_INSTR_COUNT_COUNT t = c.rf Regs.TILE_INSTR_COUNT_COUNT t := fun w =>
    c.rf_wr_apart t t w (by decide)
  have hstop : ∀ (b : Core) (p : Nat) f, (b.stopProgram p st f).regs = b.regs := by
    intro b p f
    unfold Core.stopProgram
    split
    · rfl
    · split
      · rfl
      · exact (Core.stopTiles_view _ _).1
  rw [Core.programFault, Core.rf_of_regs (hstop _ _ _), hnote]

end

/-! ### Instructions that are taken -/

section
variable {s : State} {x : SArgs} {i : Instr} {op : SOp} {body : Core → Core}

theorem Core.canIssue_of_takesS {c : Core} (h : c.takesS x op = true) : c.canIssue x.tile.val = true := by
  simp only [Core.takesS, Core.takes_, Bool.and_eq_true] at h
  exact h.1.1.1

theorem Core.stall_of_takesS {c : Core} (h : c.takesS x op = true) : (c.tile x.tile.val).stall = none :=
  (c.canIssue_tile (Core.canIssue_of_takesS h)).2

/-- A taken instruction is legal: its form exists and its reserved fields are zero (R136). -/
theorem Core.wf_of_takesS {c : Core} (h : c.takesS x op = true) : (x.ins op).formOk = true ∧ (x.ins op).fieldsOk = true := by
  simp only [Core.takesS, Core.takes_, Bool.and_eq_true, Option.isNone_iff_eq_none, SIns.reason] at h
  obtain ⟨⟨-, hreason⟩, -⟩ := h
  cases hform : (x.ins op).formOk <;> cases hfields : (x.ins op).fieldsOk <;> simp [hform, hfields] at hreason ⊢

/-- An opcode without a wide form is taken in its ordinary form (R233). -/
theorem Core.wide_of_takesS {c : Core} (h : c.takesS x op = true) (hop : op.wideOk = false) : x.wide = none := by
  obtain ⟨hform, -⟩ := Core.wf_of_takesS h
  simpa [SIns.formOk, SArgs.ins, hop] using hform

/-- A taken instruction whose effect is one update of its tile's sequencer. -/
theorem answers_seqTo (hexec : exec i s = s.on (fun c => c.scalarIns x op body)) (ht : s.core.takesS x op = true) {c : Core} {y : Tile}
    (hbody : body (s.core.atIssue x.tile.val) = c) (hseq : s.core.seqTo c x.tile.val y) {P : Core → Prop}
    (hP : ∀ c, s.core.seqTo c x.tile.val y → P c) : Answers s i P :=
  answers_on hexec (by rw [Core.scalarIns_takes _ ht]; exact hP _ (hbody ▸ hseq))

theorem answers_scalar (hexec : exec i s = s.on (fun c => c.scalarIns x op body)) (ht : s.core.takesS x op = true) {P : Core → Prop}
    (hP : P (body (s.core.atIssue x.tile.val))) : Answers s i P :=
  answers_on hexec (by rw [Core.scalarIns_takes _ ht]; exact hP)

end

end Sys2Proof.Machine
end

section
/-! PROOFS. TADDR, SYSV and NOP, O2. -/

namespace Sys2Proof.Machine

/-- A scalar register after a write: a write to g0 is discarded (R130). -/
theorem Tile.gr_setGr (y : Tile) (d n : Nat) (v : Word) : (y.setGr d v).gr n = if n = d ∧ n ≠ 0 then v else y.gr n := by
  by_cases h : n = d
  · subst h
    by_cases h0 : n = 0
    · subst h0; simp
    · simp [Tile.gr_setGr_same _ _ h0, h0]
  · simp [Tile.gr_setGr_other _ _ h, h]

/-- What a write of a scalar register leaves of a sequencer. -/
theorem Tile.setGr_others (y : Tile) (d : Nat) (v : Word) : { y.setGr d v with g := y.g } = y := by
  unfold Tile.setGr
  split <;> rfl

/-- A sequencer whose descriptor t[d] has a new ADDR (R200). -/
def Tile.setAddr (y : Tile) (d : Nat) (v : Word) : Tile :=
  let new : BitVec 256 := (y.t.get (fun _ => 0) d).extractLsb' 64 192 ++ v
  { y with t := y.t.put (fun _ => 0) d new }

theorem Tile.get_setAddr (y : Tile) (d n : Nat) (v : Word) :
    (y.setAddr d v).t.get (fun _ => 0) n = if n = d then (y.t.get (fun _ => 0) n).extractLsb' 64 192 ++ v else y.t.get (fun _ => 0) n := by
  refine (SMap.get_put _ _ _ _ _).trans ?_
  by_cases hn : n = d
  · subst hn; rfl
  · rw [if_neg hn, if_neg hn]

theorem Tile.setAddr_others (y : Tile) (d : Nat) (v : Word) : { y.setAddr d v with t := y.t } = y := rfl

/-- The system values that the statement lists are those that SYSV reads (R131). -/
theorem Core.systemValue_of_mem {c : Core} {t n v : Nat} (h : (n, v) ∈ systemValues c t) : c.systemValue t n = some v := by
  have hherd : ∀ f : Fld, (if c.flag Regs.COL_HERD_CFG_VALID = true then c.rf f else 0x3FFF) =
      if c.rf Regs.COL_HERD_CFG_VALID = 1 then c.rf f else 0x3FFF := fun f => by simp only [Core.flag_eq_true]
  simp only [systemValues, List.mem_cons, Prod.mk.injEq, List.not_mem_nil, or_false] at h
  rcases h with ⟨rfl, rfl⟩ | ⟨rfl, rfl⟩ | ⟨rfl, rfl⟩ | ⟨rfl, rfl⟩ | ⟨rfl, rfl⟩ | ⟨rfl, rfl⟩ | ⟨rfl, rfl⟩ | ⟨rfl, rfl⟩ | ⟨rfl, rfl⟩
  case inr.inr.inr.inl => cases hp : (c.part (c.who t).2).prog <;> simp [Core.systemValue, hp]
  case inr.inr.inr.inr.inl => exact congrArg some (hherd _)
  case inr.inr.inr.inr.inr.inl => exact congrArg some (hherd _)
  all_goals rfl

/-- Counting an instruction changes no system value. -/
theorem Core.systemValue_atIssue (c : Core) (t n : Nat) : (c.atIssue t).systemValue t n = c.systemValue t n := by
  have hseq := c.seqTo_atIssue t
  have hrf : ∀ (f : Fld) i, f.reg.apart Regs.TILE_INSTR_COUNT = true → (c.atIssue t).rf f i = c.rf f i := fun f i hf => hseq.rf hf i
  have hts : (c.atIssue t).ts = c.ts := rfl
  unfold Core.systemValue
  simp only [hseq.who, hseq.part, hseq.2.2, hts, Core.flag, Core.stepOf, hseq.owners.lead, hrf Regs.COL_HERD_CFG_VALID _ (by decide),
    hrf Regs.COL_HERD_CFG_DEV_ID _ (by decide), hrf Regs.COL_HERD_CFG_ORDINAL _ (by decide), hrf Regs.UPD_STEP_STEP _ (by decide)]
  rfl

/-- Settles O2: each command is one update of its tile's sequencer. -/
theorem taddrSysvNop : Obligations.TaddrSysvNop := by
  refine ⟨fun x s ht => ?_, fun x s v ht hv => ?_, fun x s ht => ?_⟩
  · refine answers_seqTo rfl ht rfl (((s.core.seqTo_atIssue x.tile.val).setTile ((s.core.tile x.tile.val).setAddr x.d.val
      ((s.core.tile x.tile.val).gr x.a.val + ((s.core.tile x.tile.val).gr x.b.val + x.immWord)))).advance (wideLen x.wide)) ?_
    intro c hseq
    refine ⟨hseq.1, hseq.retired rfl, fun n => ?_, ?_⟩
    · rw [hseq.2.2]
      exact Tile.get_setAddr (s.core.tile x.tile.val) x.d.val n _
    · rw [hseq.2.2]
      exact congrArg (fun y : Tile => { y with pc := (s.core.tile x.tile.val).pc }) (Tile.setAddr_others (s.core.tile x.tile.val) _ _)
  · have hbody : (s.core.atIssue x.tile.val).systemValue x.tile.val x.imm.toNat = some v := by
      rw [Core.systemValue_atIssue, Core.systemValue_of_mem hv]
    have hlen : wideLen x.wide = 8 := by rw [Core.wide_of_takesS ht rfl]; rfl
    refine answers_seqTo rfl ht (by rw [hbody]; rfl)
      (((s.core.seqTo_atIssue x.tile.val).setTile ((s.core.tile x.tile.val).setGr x.d.val (BitVec.ofNat 64 v))).advance 8) ?_
    intro c hseq
    refine ⟨hseq.1, hseq.retired (by rw [hlen, Tile.setGr_pc]), fun n => ?_, ?_⟩
    · rw [hseq.2.2]
      exact Tile.gr_setGr _ _ _ _
    · rw [hseq.2.2]
      exact congrArg (fun y : Tile => { y with pc := (s.core.tile x.tile.val).pc }) (Tile.setGr_others _ _ _)
  · refine answers_seqTo rfl ht rfl ((s.core.seqTo_atIssue x.tile.val).advance 8) fun c hseq => ⟨hseq.1, hseq.retired rfl, ?_⟩
    rw [hseq.2.2]

end Sys2Proof.Machine
end

section
/-! PROOFS. An illegal instruction word, O8. -/

namespace Sys2Proof.Machine

/-- A tile that can issue and fetches an instruction which decoding refuses: it is counted, and faults whatever its guard (R136). -/
theorem Core.sequence_illegal {c : Core} {t : Nat} (hcan : c.canIssue t = true) (hfetch : c.fetchFault t = none)
    (major len reason guard : Nat) (neg : Bool) (body : Core → Core) :
    c.sequence t major len (some reason) guard neg body = (c.atIssue t).programFault t reason St.ILLEGAL major := by
  simp only [Core.sequence, hcan, hfetch, Bool.not_true, Bool.false_eq_true, if_false]
  rfl

theorem toNat_topByte (w : Word) : (w.extractLsb' 56 8).toNat = w.toNat / 2 ^ 56 := by
  have := w.isLt
  rw [BitVec.extractLsb'_toNat, Nat.shiftRight_eq_div_pow, Nat.mod_eq_of_lt]
  omega

/-- Settles O8: the fault stands before the guard, and a word that decodes is not this command. -/
theorem illegalInstruction : Obligations.IllegalInstruction := by
  refine fun t w next s => ⟨fun reason len hdec hcan hfetch => ?_, fun i len hdec => ?_⟩
  · refine answers_on (f := fun c => c.sequence t.val (w.extractLsb' 56 8).toNat (8 * len) (some reason) 7 false id) ?_ ?_
    · show execIllegalInstruction t w next s = _
      simp only [execIllegalInstruction, hdec]
    · have hseq := s.core.seqTo_atIssue t.val
      rw [Core.sequence_illegal hcan hfetch, toNat_topByte]
      exact ⟨(Core.rf_instrCount_programFault _ _ _ _ _).trans hseq.2.1, hseq.faults hcan rfl rfl _ _ _⟩
  · show execIllegalInstruction t w next s = _
    simp only [execIllegalInstruction, hdec]
    rfl

end Sys2Proof.Machine
end

section
/-! PROOFS. Waiting for tokens and for flags (R157, R158, R170, R171), O4. -/

namespace Sys2Proof.Machine

/-! ### Tokens of a mask -/

theorem Tile.signalled_iff {y : Tile} {mask : Nat} : y.signalled mask = true ↔ y.allSignalled mask := by
  simp only [Tile.signalled, Tile.allSignalled, List.all_eq_true, List.mem_range, Bool.or_eq_true, Bool.not_eq_true', beq_iff_eq]
  refine forall₂_congr fun k _ => ?_
  unfold bitOf
  cases mask.testBit k <;> simp

theorem Tile.failedToken_eq_none {y : Tile} {mask : Nat} (h : y.noFailure mask) : y.failedToken mask = none := by
  rw [Tile.failedToken, Option.map_eq_none_iff, List.find?_eq_none]
  intro k hk hfail
  simp only [Bool.and_eq_true, bne_iff_ne] at hfail
  exact hfail.2 (h k (List.mem_range.mp hk) hfail.1)

theorem Tile.failedToken_eq_some {y : Tile} {mask st : Nat} (h : y.firstFailure mask st) : y.failedToken mask = some st := by
  obtain ⟨k, hk, hbit, hst, hne, hfirst⟩ := h
  have hfind : (List.range 16).find? (fun k => bitOf mask k && (y.token k).status != 0) = some k := by
    rw [List.find?_range_eq_some]
    refine ⟨?_, List.mem_range.mpr hk, fun j hj => ?_⟩
    · simp [bitOf, hbit, hst, hne]
    · cases hj' : mask.testBit j <;> simp [bitOf, hj', hfirst j hj]
  rw [Tile.failedToken, hfind, Option.map_some, hst]

/-- The status that WAITT gives: of the lowest-numbered failed token, or 0. -/
theorem Tile.failedToken_getD {y : Tile} {mask st : Nat} (h : y.firstFailure mask st ∨ (y.noFailure mask ∧ st = 0)) :
    (y.failedToken mask).getD 0 = st := by
  rcases h with h | ⟨h, rfl⟩
  · rw [Tile.failedToken_eq_some h]; rfl
  · rw [Tile.failedToken_eq_none h]; rfl

/-- Clear the status of a token that a mask names. -/
def Tile.clearToken (mask : Nat) (y : Tile) (k : Nat) : Tile := if bitOf mask k then y.setToken k { y.token k with status := 0 } else y

theorem Tile.token_clearToken (mask : Nat) (y : Tile) (k j : Nat) :
    (y.clearToken mask k).token j = if j = k ∧ bitOf mask j = true then { y.token j with status := 0 } else y.token j := by
  unfold Tile.clearToken
  by_cases hj : j = k
  · subst hj
    by_cases hb : bitOf mask j = true <;> simp [hb]
  · by_cases hb : bitOf mask k = true <;> simp [hb, hj, Tile.token_setToken_other]

/-- WAITT clears the statuses of its tokens. -/
theorem Tile.token_clearTokens (mask : Nat) (ks : List Nat) (y : Tile) (j : Nat) :
    (threadAll (Tile.clearToken mask) y ks).token j =
      if j ∈ ks ∧ bitOf mask j = true then { y.token j with status := 0 } else y.token j := by
  induction ks generalizing y with
  | nil => simp [threadAll]
  | cons k ks ih =>
    rw [threadAll, ih, Tile.token_clearToken]
    by_cases hk : j = k
    · subst hk
      by_cases hb : bitOf mask j = true <;> simp [hb]
    · simp [hk]

theorem Tile.clearTokens_others (mask : Nat) (ks : List Nat) (y : Tile) :
    { threadAll (Tile.clearToken mask) y ks with tok := y.tok } = y := by
  refine threadAll_view (fun z : Tile => { z with tok := y.tok }) (fun z k => ?_) ks y
  unfold Tile.clearToken
  split <;> rfl

/-! ### Stalls -/

/-- A sequencer in a stall, and one that has left its stall and passed its instruction. -/
def Tile.stalled (y : Tile) (st : Stall) : Tile := { y with stall := some st }
def Tile.past (y : Tile) (len : Nat) : Tile := { y with stall := none, pc := (y.pc + len) % 2 ^ 22 }

theorem Tile.past_stalled {y : Tile} (h : y.stall = none) (st : Stall) (len : Nat) :
    (y.stalled st).past len = { y with pc := (y.pc + len) % 2 ^ 22 } := by
  cases y
  cases h
  rfl

/-- A sequencer past WAITT: g[d] holds the status, the tokens of the mask none (R158). -/
def Tile.pastWaitt (y : Tile) (mask d len st : Nat) : Tile :=
  (threadAll (Tile.clearToken mask) (y.setGr d (BitVec.ofNat 64 st)) (List.range 16)).past len

/-- A sequencer past WAITF or WAITFC, which has taken the threshold from the flag (R171). -/
def Tile.pastFlag (y : Tile) (n thr : Nat) (consume : Bool) : Tile := (if consume then y.setFl n (y.fl n - thr) else y).past 8

theorem Tile.fl_setFl (y : Tile) (n m v : Nat) : (y.setFl n v).fl m = if m = n then v else y.fl m := SMap.get_put _ _ _ _ _

section
variable {c : Core} {t mask n thr : Nat} {y : Tile}

/-- Tokens that are outstanding keep a sequencer where it is. -/
theorem Core.wake_outstanding {tol : Option Nat} {len : Nat} (hs : (c.tile t).stall = some (.tokens mask tol len))
    (h : ¬(c.tile t).allSignalled mask) : c.wake t = c := by
  simp [Core.wake, hs, mt Tile.signalled_iff.mp h]

theorem Core.wake_tokens {len : Nat} (hs : (c.tile t).stall = some (.tokens mask none len)) (h : (c.tile t).allSignalled mask)
    (hok : (c.tile t).noFailure mask) : c.wake t = c.setTile t ((c.tile t).past len) := by
  simp only [Core.wake, hs, Tile.signalled_iff.mpr h, Tile.failedToken_eq_none hok, Bool.not_true, Bool.false_eq_true, if_false]
  rfl

theorem Core.wake_tokens_failed {len st : Nat} (hs : (c.tile t).stall = some (.tokens mask none len)) (h : (c.tile t).allSignalled mask)
    (hf : (c.tile t).firstFailure mask st) : c.wake t = c.programFault t 7 st 0xC0 := by
  simp [Core.wake, hs, Tile.signalled_iff.mpr h, Tile.failedToken_eq_some hf]

theorem Core.wake_tolerant {d len st : Nat} (hs : (c.tile t).stall = some (.tokens mask (some d) len)) (h : (c.tile t).allSignalled mask)
    (hst : (c.tile t).firstFailure mask st ∨ ((c.tile t).noFailure mask ∧ st = 0)) :
    c.wake t = c.setTile t ((c.tile t).pastWaitt mask d len st) := by
  simp only [Core.wake, hs, Tile.signalled_iff.mpr h, Tile.failedToken_getD hst, Bool.not_true, Bool.false_eq_true, if_false]
  rfl

/-- A flag below the threshold keeps a sequencer where it is. -/
theorem Core.wake_flag_below {consume : Bool} (hs : (c.tile t).stall = some (.flag n thr consume)) (h : (c.tile t).fl n < thr) :
    c.wake t = c := by
  simp [Core.wake, hs, h]

theorem Core.wake_flag {consume : Bool} (hs : (c.tile t).stall = some (.flag n thr consume)) (h : thr ≤ (c.tile t).fl n) :
    c.wake t = c.setTile t ((c.tile t).pastFlag n thr consume) := by
  simp only [Core.wake, hs, if_neg (Nat.not_lt.mpr h)]
  rfl

end

/-! ### The four instructions -/

section
variable {s : State} {x : SArgs} {i : Instr} {op : SOp} {st : Stall}

/-- A taken instruction that stalls: what follows is what wakes it. -/
theorem answers_stall (hexec : exec i s = s.on (fun c => c.scalarIns x op (fun c => c.stallOn x.tile.val st))) (ht : s.core.takesS x op = true)
    {P : Core → Prop}
    (hP : ∀ c, s.core.seqTo c x.tile.val ((s.core.tile x.tile.val).stalled st) → c.tile x.tile.val = (s.core.tile x.tile.val).stalled st →
      P (c.wake x.tile.val)) : Answers s i P :=
  answers_scalar hexec ht (hP _ ((s.core.seqTo_atIssue x.tile.val).setTile _) (Core.tile_setTile_same _ _ _))

/-- WAIT and WAITT while a token is outstanding. -/
theorem answers_outstanding {mask len : Nat} {tol : Option Nat}
    (hexec : exec i s = s.on (fun c => c.scalarIns x op (fun c => c.stallOn x.tile.val (.tokens mask tol len))))
    (ht : s.core.takesS x op = true) (h : ¬(s.core.tile x.tile.val).allSignalled mask) :
    Answers s i (fun c => s.core.seqTo c x.tile.val { s.core.tile x.tile.val with stall := some (.tokens mask tol len) }) := by
  refine answers_stall hexec ht fun c hseq htile => ?_
  rw [Core.wake_outstanding (by rw [htile]; rfl) (by rw [htile]; exact h)]
  exact hseq

/-- WAITF and WAITFC below their threshold. -/
theorem answers_flag_below {n thr : Nat} {consume : Bool}
    (hexec : exec i s = s.on (fun c => c.scalarIns x op (fun c => c.stallOn x.tile.val (.flag n thr consume))))
    (ht : s.core.takesS x op = true) (h : (s.core.tile x.tile.val).fl n < thr) :
    Answers s i (fun c => s.core.seqTo c x.tile.val { s.core.tile x.tile.val with stall := some (.flag n thr consume) }) := by
  refine answers_stall hexec ht fun c hseq htile => ?_
  rw [Core.wake_flag_below (by rw [htile]; rfl) (by rw [htile]; exact h)]
  exact hseq

/-- WAITF and WAITFC at or above their threshold. -/
theorem answers_flag {n thr : Nat} {consume : Bool}
    (hexec : exec i s = s.on (fun c => c.scalarIns x op (fun c => c.stallOn x.tile.val (.flag n thr consume))))
    (ht : s.core.takesS x op = true) (h : thr ≤ (s.core.tile x.tile.val).fl n) :
    Answers s i (fun c => s.core.seqTo c x.tile.val
      (((s.core.tile x.tile.val).stalled (.flag n thr consume)).pastFlag n thr consume)) := by
  refine answers_stall hexec ht fun c hseq htile => ?_
  rw [Core.wake_flag (by rw [htile]; rfl) (by rw [htile]; exact h), htile]
  exact hseq.setTile _

theorem Answers.mono {P Q : Core → Prop} (h : Answers s i P) (hPQ : ∀ c, P c → Q c) : Answers s i Q := by
  obtain ⟨c, hexec, hc⟩ := h
  exact ⟨c, hexec, hPQ c hc⟩

theorem wait_answers (ht : s.core.takesS x .WAIT = true) :
    let y := s.core.tile x.tile.val
    let mask := x.imm.toNat % 65536
    (y.allSignalled mask → y.noFailure mask →
      Answers s (.wait x) (fun c => s.core.seqTo c x.tile.val { y with pc := (y.pc + 8) % 2 ^ 22 })) ∧
    (∀ st, y.allSignalled mask → y.firstFailure mask st → Answers s (.wait x) (fun c => s.core.faults c x.tile.val 7 st 0xC0)) := by
  intro y mask
  refine ⟨fun hall hok => answers_stall rfl ht fun c hseq htile => ?_, fun st hall hfail => answers_stall rfl ht fun c hseq htile => ?_⟩
  · rw [Core.wake_tokens (by rw [htile]; rfl) (by rw [htile]; exact hall) (by rw [htile]; exact hok), htile,
      Tile.past_stalled (Core.stall_of_takesS ht)]
    exact hseq.setTile _
  · rw [Core.wake_tokens_failed (by rw [htile]; rfl) (by rw [htile]; exact hall) (by rw [htile]; exact hfail)]
    exact hseq.faults (Core.canIssue_of_takesS ht) rfl rfl _ _ _

theorem Tile.pastWaitt_fields {y : Tile} (h : y.stall = none) (stall : Stall) (mask d len st : Nat) :
    let z := (y.stalled stall).pastWaitt mask d len st
    z.pc = (y.pc + len) % 2 ^ 22 ∧ (∀ n, z.gr n = if n = d ∧ n ≠ 0 then BitVec.ofNat 64 st else y.gr n) ∧
      (∀ k, k < 16 → z.token k = if mask.testBit k then { y.token k with status := 0 } else y.token k) ∧
      { z with g := y.g, tok := y.tok, pc := y.pc } = y := by
  intro z
  have hothers := Tile.clearTokens_others mask (List.range 16) ((y.stalled stall).setGr d (BitVec.ofNat 64 st))
  have hg : z.g = ((y.stalled stall).setGr d (BitVec.ofNat 64 st)).g := by
    have e := congrArg Tile.g hothers
    exact e
  have hpc : z.pc = (((y.stalled stall).setGr d (BitVec.ofNat 64 st)).pc + len) % 2 ^ 22 := by
    have e := congrArg (fun w : Tile => (w.pc + len) % 2 ^ 22) hothers
    exact e
  have hrest : { z with g := y.g, tok := y.tok, pc := y.pc } = ({ y with stall := none } : Tile) := by
    have hset := (congrArg (fun w : Tile => { w with g := y.g }) hothers).trans (Tile.setGr_others (y.stalled stall) d (BitVec.ofNat 64 st))
    exact congrArg (fun w : Tile => { w with tok := y.tok, pc := y.pc, stall := none }) hset
  refine ⟨hpc.trans (by rw [Tile.setGr_pc]; rfl), fun n => ?_, fun k hk => ?_, hrest.trans (by rw [← h])⟩
  · refine Eq.trans ?_ (Tile.gr_setGr (y.stalled stall) d n (BitVec.ofNat 64 st))
    unfold Tile.gr
    rw [hg]
  · refine (Tile.token_clearTokens mask (List.range 16) _ k).trans ?_
    have htok : ((y.stalled stall).setGr d (BitVec.ofNat 64 st)).token k = y.token k := by
      unfold Tile.token
      rw [Tile.setGr_tok]
      rfl
    rw [htok]
    simp [bitOf, hk]

end

/-- Settles O4: each instruction stalls, and the rules of waking say when it goes on. -/
theorem waits : Obligations.Waits := by
  refine ⟨fun x s => ⟨fun ht => ?_, fun ht => ⟨fun h => answers_outstanding rfl ht h, fun st hall hst => ?_⟩⟩, fun x s => ⟨fun ht => ?_, fun ht => ?_⟩⟩
  · obtain ⟨hclean, hfail⟩ := wait_answers ht
    exact ⟨hclean, fun h => answers_outstanding rfl ht h, hfail⟩
  · refine answers_stall rfl ht fun c hseq htile => ?_
    rw [Core.wake_tolerant (by rw [htile]; rfl) (by rw [htile]; exact hall) (by rw [htile]; exact hst), htile]
    have hpast := hseq.setTile (((s.core.tile x.tile.val).stalled (.tokens (x.imm.toNat % 65536) (some x.d.val) 8)).pastWaitt
      (x.imm.toNat % 65536) x.d.val 8 st)
    obtain ⟨hpc, hgr, htok, hothers⟩ := Tile.pastWaitt_fields (Core.stall_of_takesS ht) (.tokens (x.imm.toNat % 65536) (some x.d.val) 8)
      (x.imm.toNat % 65536) x.d.val 8 st
    refine ⟨hpast.1, hpast.retired hpc, ?_⟩
    rw [hpast.2.2]
    exact ⟨hgr, htok, hothers⟩
  · refine ⟨fun h => (answers_flag rfl ht h).mono fun c hseq => ?_, fun h => answers_flag_below rfl ht h⟩
    rwa [Tile.pastFlag, if_neg (by simp), Tile.past_stalled (Core.stall_of_takesS ht)] at hseq
  · refine ⟨fun h => (answers_flag rfl ht h).mono fun c hseq => ⟨hseq.1, hseq.retired rfl, ?_⟩, fun h => answers_flag_below rfl ht h⟩
    rw [hseq.2.2]
    refine ⟨fun m => Tile.fl_setFl _ _ m _, ?_⟩
    have := Tile.past_stalled (Core.stall_of_takesS ht) (.flag (bits x.imm.toNat 4 0) (bits x.imm.toNat 36 5) true) 8
    exact congrArg (fun z : Tile => { z with pc := (s.core.tile x.tile.val).pc }) this

end Sys2Proof.Machine
end

section
/-! PROOFS. SIGNAL (R170, R171, R228, R229), O5. -/

namespace Sys2Proof.Machine

/-- A sequencer whose flag has been raised to `f`: one that waits for that much in WAITF or WAITFC goes on. -/
def Tile.raised (z : Tile) (n f : Nat) : Tile :=
  match z.stall with
  | some (.flag m thr consume) => if (z.setFl n f).fl m < thr then z.setFl n f else (z.setFl n f).pastFlag m thr consume
  | _ => z.setFl n f

/-- A stall that a raised flag does not end. -/
def Tile.waitsElsewhere (z : Tile) : Prop :=
  z.stall = none ∨ (∃ m thr k, z.stall = some (.flag m thr k)) ∨ (∃ b, z.stall = some (.barrier b)) ∨
    ∃ mask tol len, z.stall = some (.tokens mask tol len) ∧ ¬z.allSignalled mask

section
variable {c : Core} {u n f : Nat} {z : Tile}

theorem Core.wake_none (h : (c.tile u).stall = none) : c.wake u = c := by simp [Core.wake, h]

theorem Core.wake_barrier {b : Bool} (h : (c.tile u).stall = some (.barrier b)) : c.wake u = c := by simp [Core.wake, h]

/-- What a raised flag does to a device: its tile's sequencer alone may differ, and is as `Tile.raised` says. -/
theorem Core.wake_raised (hu : c.tile u = z.setFl n f) (hz : z.waitsElsewhere) :
    (c.wake u = c ∨ c.wake u = c.setTile u (z.raised n f)) ∧ (c.wake u).tile u = z.raised n f := by
  have hstall : (c.tile u).stall = z.stall := by rw [hu]; rfl
  rcases hz with h | ⟨m, thr, k, h⟩ | ⟨b, h⟩ | ⟨mask, tol, len, h, hout⟩
  · rw [Core.wake_none (hstall.trans h), hu]
    exact ⟨.inl rfl, by simp only [Tile.raised, h]⟩
  · by_cases hlt : (z.setFl n f).fl m < thr
    · rw [Core.wake_flag_below (hstall.trans h) (by rw [hu]; exact hlt), hu]
      exact ⟨.inl rfl, by simp only [Tile.raised, h, if_pos hlt]⟩
    · have hr : z.raised n f = (z.setFl n f).pastFlag m thr k := by simp only [Tile.raised, h, if_neg hlt]
      rw [Core.wake_flag (hstall.trans h) (by rw [hu]; exact Nat.not_lt.mp hlt), hu, hr]
      exact ⟨.inr rfl, Core.tile_setTile_same _ _ _⟩
  · rw [Core.wake_barrier (hstall.trans h), hu]
    exact ⟨.inl rfl, by simp only [Tile.raised, h]⟩
  · rw [Core.wake_outstanding (hstall.trans h) (by rw [hu]; exact hout), hu]
    exact ⟨.inl rfl, by simp only [Tile.raised, h]⟩

end

/-! ### What SIGNAL does when it is taken -/

/-- The device that SIGNAL makes before the other tile goes on. -/
def Core.signalled (c : Core) (t u n v : Nat) : Core :=
  ((c.atIssue t).setTile u ((c.tile u).setFl n (min ((c.tile u).fl n + v) (2 ^ 32 - 1)))).advance t 8

section
variable {s : State} {x : SArgs} {u st : Nat}

theorem signal_answers (ht : s.core.takesS x .SIGNAL = true) (hl : ((s.core.tile x.tile.val).gr x.a.val).toNat ≤ 255)
    (hphys : s.core.phys ((s.core.tile x.tile.val).gr x.a.val).toNat = some u)
    (hown : s.core.ownsGroup (s.core.who x.tile.val).2 (((s.core.tile x.tile.val).gr x.a.val).toNat / 16) = true) {P : Core → Prop}
    (hP : P ((s.core.signalled x.tile.val u (bits x.imm.toNat 4 0) (bits x.imm.toNat 20 5 + 1)).wake u)) : Answers s (.signal x) P := by
  have hseq := s.core.seqTo_atIssue x.tile.val
  refine answers_scalar rfl ht ?_
  have hphys' : (s.core.atIssue x.tile.val).phys ((s.core.tile x.tile.val).gr x.a.val).toNat = some u := hphys
  simp only [hseq.who, hseq.2.2, hphys', if_neg (Nat.not_lt.mpr hl), hseq.owners.ownsGroup, groupOfLogical, hown, Bool.not_true,
    Bool.false_eq_true, if_false]
  exact hP

/-- SIGNAL to a logical tile that it may not name ends in a program fault (R229). -/
theorem signal_faults (ht : s.core.takesS x .SIGNAL = true)
    (h : ((255 < ((s.core.tile x.tile.val).gr x.a.val).toNat ∨ s.core.phys ((s.core.tile x.tile.val).gr x.a.val).toNat = none) ∧
        st = St.BOUNDS) ∨
      (((s.core.tile x.tile.val).gr x.a.val).toNat ≤ 255 ∧ (s.core.phys ((s.core.tile x.tile.val).gr x.a.val).toNat).isSome = true ∧
        s.core.ownsGroup (s.core.who x.tile.val).2 (((s.core.tile x.tile.val).gr x.a.val).toNat / 16) = false ∧ st = St.PROTECTION)) :
    Answers s (.signal x) (fun c => s.core.faults c x.tile.val 5 st 0xC2) := by
  have hseq := s.core.seqTo_atIssue x.tile.val
  have hfault := hseq.faults (Core.canIssue_of_takesS ht) rfl rfl 5 st 0xC2
  have hphys : ∀ l, (s.core.atIssue x.tile.val).phys l = s.core.phys l := fun l => rfl
  refine answers_scalar rfl ht ?_
  simp only [hseq.who, hseq.2.2, hphys, hseq.owners.ownsGroup, groupOfLogical]
  rcases h with ⟨h | h, rfl⟩ | ⟨hl, hsome, hown, rfl⟩
  · rw [if_pos h]
    exact hfault
  · rw [h]
    split <;> exact hfault
  · obtain ⟨u, hu⟩ := Option.isSome_iff_exists.mp hsome
    rw [if_neg (Nat.not_lt.mpr hl), hu, hown]
    exact hfault

end

/-! ### Another tile of the partition -/

section
variable {c : Core} {t u n v : Nat}

/-- Two sequencers differ: the signalling tile has moved on, the other one is as `z`; nothing else differs. -/
structure Core.signals (c c' : Core) (t u : Nat) (z : Tile) : Prop where
  retired : c.retired c' t 8
  same : { c'.tile t with pc := (c.tile t).pc } = c.tile t
  others : ∀ w, w ≠ t → w ≠ u → c'.tile w = c.tile w
  view : c'.others = c.others ∧ c'.parts = c.parts ∧ c'.evtBuf = c.evtBuf
  tile : c'.tile u = z

theorem Core.signals_signalled (h : u ≠ t) :
    c.signals (c.signalled t u n v) t u ((c.tile u).setFl n (min ((c.tile u).fl n + v) (2 ^ 32 - 1))) := by
  have htile : (c.signalled t u n v).tile t = { c.tile t with pc := ((c.tile t).pc + 8) % 2 ^ 22 } := by
    rw [Core.signalled, Core.tile_advance, Core.tile_setTile_other _ _ h.symm]
    rfl
  refine ⟨⟨(c.seqTo_atIssue t).2.1, by rw [htile]⟩, by rw [htile], fun w hwt hwu => ?_, ⟨rfl, rfl, rfl⟩, ?_⟩
  · rw [Core.signalled, Core.tile_advance_other _ _ hwt, Core.tile_setTile_other _ _ hwu]
    rfl
  · rw [Core.signalled, Core.tile_advance_other _ _ h, Core.tile_setTile_same]

theorem Core.signals.setTile {c' : Core} {y z : Tile} (h : c.signals c' t u y) (hne : u ≠ t) : c.signals (c'.setTile u z) t u z := by
  have htile := c'.tile_setTile_other z hne.symm
  refine ⟨⟨h.retired.1, by rw [htile]; exact h.retired.2⟩, by rw [htile]; exact h.same, fun w hwt hwu => ?_, h.view, Core.tile_setTile_same _ _ _⟩
  rw [Core.tile_setTile_other _ _ hwu]
  exact h.others w hwt hwu

/-- SIGNAL to another tile: its flag is raised, and it goes on if it waited for that. -/
theorem Core.signals_wake (h : u ≠ t) (hz : (c.tile u).waitsElsewhere) :
    c.signals ((c.signalled t u n v).wake u) t u ((c.tile u).raised n (min ((c.tile u).fl n + v) (2 ^ 32 - 1))) := by
  have hsig := Core.signals_signalled (c := c) (n := n) (v := v) h
  obtain ⟨hwake, htile⟩ := Core.wake_raised hsig.tile hz
  rcases hwake with e | e
  · rw [e] at htile ⊢
    exact ⟨hsig.retired, hsig.same, hsig.others, hsig.view, htile⟩
  · rw [e]
    exact hsig.setTile h

end

/-! ### What a raised flag makes of a sequencer -/

section
variable {z : Tile} {n f thr : Nat} {consume : Bool}

theorem Tile.setFl_others (z : Tile) (n f : Nat) : { z.setFl n f with flags := z.flags } = z := rfl

theorem Tile.raised_elsewhere (h : ∀ m thr k, z.stall ≠ some (.flag m thr k)) : z.raised n f = z.setFl n f := by
  unfold Tile.raised
  split
  next m thr k hs => exact absurd hs (h m thr k)
  next => rfl

theorem Tile.raised_reached (h : z.stall = some (.flag n thr consume)) (hf : thr ≤ f) :
    z.raised n f = (z.setFl n f).pastFlag n thr consume := by
  simp only [Tile.raised, h, Tile.fl_setFl, if_true, if_neg (Nat.not_lt.mpr hf)]

theorem Tile.raised_below (h : z.stall = some (.flag n thr consume)) (hf : f < thr) : z.raised n f = z.setFl n f := by
  simp only [Tile.raised, h, Tile.fl_setFl, if_true, if_pos hf]

theorem Tile.pastFlag_fields (z : Tile) (n f thr : Nat) (consume : Bool) :
    let y := (z.setFl n f).pastFlag n thr consume
    y.stall = none ∧ y.pc = (z.pc + 8) % 2 ^ 22 ∧ ∀ m, y.fl m = if m = n then (if consume then f - thr else f) else z.fl m := by
  cases consume
  · exact ⟨rfl, rfl, fun m => Tile.fl_setFl z n m f⟩
  · refine ⟨rfl, rfl, fun m => ?_⟩
    refine (Tile.fl_setFl (z.setFl n f) n m _).trans ?_
    rw [Tile.fl_setFl, Tile.fl_setFl, if_pos rfl]
    split <;> rfl

end

/-- Settles O5: the signalling tile moves on, and the rules of a raised flag say what the other tile does. -/
theorem signal : Obligations.Signal := by
  intro x s ht t y l n v
  refine ⟨fun u z hl hphys hown hz hne hstall => ?_, fun hl hphys hown => ?_, fun h => signal_faults ht (.inl ⟨h, rfl⟩),
    fun hl hsome hown => signal_faults ht (.inr ⟨hl, hsome, hown, rfl⟩)⟩
  · subst hz
    intro f
    refine signal_answers ht hl hphys hown ?_
    obtain ⟨hret, hsame, hothers, ⟨hview, hparts, hevt⟩, htile⟩ := Core.signals_wake (n := n) (v := v) hne hstall
    refine ⟨hret, hsame, hothers, hview, hparts, hevt, fun hno => ?_, fun thr consume hs hf => ?_, fun thr consume hs hf => ?_⟩
    · rw [htile, Tile.raised_elsewhere hno]
      exact ⟨fun m => Tile.fl_setFl _ _ _ _, Tile.setFl_others _ _ _⟩
    · rw [htile, Tile.raised_reached hs hf]
      exact Tile.pastFlag_fields _ _ _ _ _
    · rw [htile, Tile.raised_below hs hf]
      exact ⟨rfl, rfl, fun m => Tile.fl_setFl _ _ _ _⟩
  · refine signal_answers ht hl hphys hown ?_
    have hseq := ((s.core.seqTo_atIssue t).setTile (y.setFl n (min (y.fl n + v) (2 ^ 32 - 1)))).advance 8
    rw [Core.signalled, Core.wake_none (by rw [hseq.2.2]; exact Core.stall_of_takesS ht)]
    refine ⟨hseq.1, hseq.retired rfl, ?_⟩
    rw [hseq.2.2]
    exact ⟨fun m => Tile.fl_setFl y n m _, rfl⟩

end Sys2Proof.Machine
end

section
/-! PROOFS. The completion of an operation (R157, R160), O21. -/

namespace Sys2Proof.Machine

/-! ### What the end of an item leaves -/

/-- The sequencers, the tile map, the operations in progress and the memories. -/
def Core.unitView (c : Core) :
    SMap Tile × SMap (Option Nat) × List AOp × SMap Byte × SMap Byte × SMap Nat × SMap Byte × SMap Byte × SMap (Option Byte) :=
  (c.tiles, c.map, c.ops, c.mems)

theorem Core.unitView_ite {P : Prop} [Decidable P] {a b c : Core} (ha : a.unitView = c.unitView) (hb : b.unitView = c.unitView) :
    (if P then a else b).unitView = c.unitView := by
  split
  · exact ha
  · exact hb

section
variable (c : Core)

theorem Core.unitView_wr (r : Reg) (i v : Nat) : (c.wr r i v).unitView = c.unitView := rfl
theorem Core.unitView_evt (a b d e f g : Nat) : (c.evt a b d e f g).unitView = c.unitView := rfl
theorem Core.unitView_setPart (p : Nat) (x : Part) : (c.setPart p x).unitView = c.unitView := rfl
theorem Core.unitView_updItem (id : Nat) (f : Item → Item) : (c.updItem id f).unitView = c.unitView := rfl

theorem Core.unitView_sqClear (p q : Nat) : (c.sqClear p q).unitView = c.unitView :=
  Core.unitView_ite (Core.unitView_wr { c with sqOff := c.sqOff.filter (· != qi p q) } _ _ _) rfl

theorem Core.unitView_endItem (id status : Nat) (own : Bool) : (c.endItem id status own).unitView = c.unitView := by
  cases h : c.item? id with
  | none => simp only [Core.endItem, h]
  | some i =>
    rw [Core.endItem_eq h, Core.itemEnded]
    refine (Core.unitView_ite (Core.unitView_evt _ _ _ _ _ _ _) rfl).trans ((Core.unitView_sqClear _ _ _).trans ?_)
    exact Core.unitView_ite (Core.unitView_setPart _ _ _) rfl

/-! ### An item that its operation ends -/

theorem Core.item?_updItem {id : Nat} {i : Item} (h : c.item? id = some i) (f : Item → Item) (hf : ∀ j, (f j).id = j.id) :
    (c.updItem id f).item? id = some (f i) := by
  have hi : i.id = id := by simpa using List.find?_some h
  have hp : ((fun j : Item => j.id == id) ∘ fun j => if j.id = id then f j else j) = fun j => j.id == id := by
    funext j
    simp only [Function.comp_apply]
    split
    · rw [hf]
    · rfl
  unfold Core.item? at h ⊢
  rw [Core.updItem, List.find?_map, hp, h, Option.map_some, if_pos hi]

theorem Core.items_updItem_filter (id : Nat) (f : Item → Item) (hf : ∀ j, (f j).id = j.id) :
    (c.updItem id f).items.filter (fun j => j.id != id) = c.items.filter (fun j => j.id != id) := by
  rw [Core.updItem]
  induction c.items with
  | nil => rfl
  | cons j r ih =>
    rw [List.map_cons]
    by_cases hj : j.id = id
    · rw [if_pos hj, List.filter_cons_of_neg (by simp [hf, hj]), List.filter_cons_of_neg (by simp [hj]), ih]
    · rw [if_neg hj, List.filter_cons_of_pos (by simp [hj]), List.filter_cons_of_pos (by simp [hj]), ih]

/-- An item that ends with what its operation reports. -/
theorem Core.itemView_reported {id : Nat} {i : Item} (h : c.item? id = some i) (info status : Nat) (own : Bool) :
    ((c.updItem id (fun j => { j with info := info })).endItem id status own).itemView =
      (c.items.filter (fun j => j.id != id), c.recs ++ [c.recOf { i with info := info } status]) := by
  rw [Core.itemView_endItem (c.item?_updItem h (fun j => { j with info := info }) fun _ => rfl),
    c.items_updItem_filter id (fun j => { j with info := info }) fun _ => rfl]
  rfl

end

/-! ### The steps of a completion -/

/-- The end of the item of an operation that reports one. -/
def Core.endReported (c : Core) (o : AOp) : Core :=
  match o.item with
  | some i => (c.updItem i (fun x => { x with info := o.info })).endItem i o.status true
  | none => c

theorem Core.unitView_endReported (c : Core) (o : AOp) : (c.endReported o).unitView = c.unitView := by
  unfold Core.endReported
  split
  · exact (Core.unitView_endItem _ _ _ _).trans (Core.unitView_updItem _ _ _)
  · rfl

/-- Everything of the device but its registers. -/
def Core.offRegs (c : Core) : Core := { c with regs := [] }

theorem Core.offRegs_ite {P : Prop} [Decidable P] {a b c : Core} (ha : a.offRegs = c.offRegs) (hb : b.offRegs = c.offRegs) :
    (if P then a else b).offRegs = c.offRegs := by
  split
  · exact ha
  · exact hb

/-- The counters of a completion are registers (R263). -/
theorem Core.offRegs_opCounters (c : Core) (t : Nat) (o : AOp) : (c.opCounters t o).offRegs = c.offRegs := by
  have hcount : ∀ (b : Core) (f : Fld) n, (b.count f t n).offRegs = b.offRegs := fun _ _ _ => rfl
  refine Core.offRegs_ite ?_ ?_
  · exact (Core.offRegs_ite (hcount _ _ _) rfl).trans (Core.offRegs_ite (hcount _ _ _) rfl)
  · exact (Core.offRegs_ite (hcount _ _ _) rfl).trans (Core.offRegs_ite (hcount _ _ _) rfl)

theorem Core.stashFull_none {c : Core} {t : Nat} {o : AOp} (h : o.status ≠ St.STASH_FULL ∨ isStash o.major = false) :
    c.stashFull t o = c := by
  refine if_neg fun ⟨hst, hlo, hhi⟩ => ?_
  rcases h with h | h
  · exact h hst
  · simp only [isStash, Bool.and_eq_false_iff, decide_eq_false_iff_not] at h
    omega

theorem Tile.token_signalToken (y : Tile) (tok status k : Nat) :
    (y.signalToken tok status).token k =
      if k = tok then { count := (y.token k).count - 1, status := if (y.token k).status = 0 then status else (y.token k).status }
      else y.token k := by
  by_cases h : k = tok
  · subst h
    rw [if_pos rfl]
    exact Tile.token_setToken_same _ _ _
  · rw [if_neg h]
    exact Tile.token_setToken_other _ _ h

theorem Tile.signalToken_others (y : Tile) (tok status : Nat) : { y.signalToken tok status with tok := y.tok } = y := rfl

section
variable {c : Core} {id t : Nat} {o : AOp}

/-- The device once an operation has left the list and its item has ended. -/
def Core.opEnded (c : Core) (id : Nat) (o : AOp) : Core := ({ c with ops := c.ops.filter (fun x => x.id != id) } : Core).endReported o

theorem Core.unitView_opEnded (c : Core) (id : Nat) (o : AOp) :
    (c.opEnded id o).unitView = (c.tiles, c.map, c.ops.filter (fun x => x.id != id), c.mems) := Core.unitView_endReported _ o

theorem Core.complete_eq (ho : c.op? id = some o) (ht : c.phys o.ltile = some t) :
    c.complete id =
      ((((c.opEnded id o).setTile t ((c.tile t).signalToken o.tok o.status)).opCounters t o).stashFull t o).wake t := by
  have hview := c.unitView_opEnded id o
  simp only [Core.unitView, Prod.mk.injEq] at hview
  obtain ⟨htiles, hmap, -⟩ := hview
  have hphys : (c.opEnded id o).phys o.ltile = some t := by rw [← ht, Core.phys, Core.phys, hmap]
  have hcomp : c.complete id = match (c.opEnded id o).phys o.ltile with
      | none => c.opEnded id o
      | some t => ((((c.opEnded id o).setTile t (((c.opEnded id o).tile t).signalToken o.tok o.status)).opCounters t o).stashFull t o).wake t := by
    rw [Core.complete, ho]
    rfl
  rw [hcomp, hphys]
  dsimp only
  rw [Core.tile_of_tiles htiles]

/-- A tile that does not wait: but for registers the operation's item has ended and its token has been signalled. -/
theorem Core.offRegs_complete (ho : c.op? id = some o) (ht : c.phys o.ltile = some t) (hstall : (c.tile t).stall = none)
    (hfull : o.status ≠ St.STASH_FULL ∨ isStash o.major = false) :
    (c.complete id).offRegs = ((c.opEnded id o).setTile t ((c.tile t).signalToken o.tok o.status)).offRegs := by
  have hregs := Core.offRegs_opCounters ((c.opEnded id o).setTile t ((c.tile t).signalToken o.tok o.status)) t o
  have htile := (congrArg (fun d : Core => d.tile t) hregs).trans (Core.tile_setTile_same (c.opEnded id o) t _)
  have hnone : ((((c.opEnded id o).setTile t ((c.tile t).signalToken o.tok o.status)).opCounters t o).tile t).stall = none :=
    (congrArg Tile.stall htile).trans hstall
  rw [Core.complete_eq ho ht, Core.stashFull_none hfull, Core.wake_none hnone, hregs]

end

/-- Settles O21: the operation leaves the list, its item ends, its token is signalled; its tile has nothing to go on to. -/
theorem operationComplete : Obligations.OperationComplete := by
  intro id s o t ho hwait ht hstall hfull y
  have hexec : exec (.operationComplete id) s = s.on (fun c => c.complete id) := by
    show execOperationComplete id s = _
    simp only [execOperationComplete, State.on, ho, hwait, Bool.false_eq_true, if_false]
  refine answers_on hexec ?_
  have hview := s.core.unitView_opEnded id o
  simp only [Core.unitView, Prod.mk.injEq] at hview
  obtain ⟨htiles, -, hops, hmems⟩ := hview
  have hoff := Core.offRegs_complete ho ht hstall hfull
  generalize s.core.complete id = c at hoff
  have htile : ∀ u, c.tile u = ((s.core.opEnded id o).setTile t (y.signalToken o.tok o.status)).tile u := fun u => by
    have e := congrArg (fun d : Core => d.tile u) hoff
    exact e
  have hitems : c.itemView = (s.core.opEnded id o).itemView := by
    have e := congrArg Core.itemView hoff
    exact e
  have ht' := htile t
  rw [Core.tile_setTile_same] at ht'
  refine ⟨(congrArg Core.ops hoff).trans hops, fun k => ?_, ?_, fun u hu => ?_, (congrArg Core.mems hoff).trans hmems, fun hnone => ?_,
    fun i it hitem hi => ?_⟩
  · rw [ht', Tile.token_signalToken]
  · rw [ht', Tile.signalToken_others]
  · rw [htile, Core.tile_setTile_other _ _ hu, Core.tile_of_tiles htiles]
  · have : c.itemView = s.core.itemView := by
      rw [hitems, Core.opEnded, Core.endReported, hnone]
      rfl
    exact Prod.mk.inj this
  · have : c.itemView = (s.core.items.filter (fun j => j.id != i), s.core.recs ++ [s.core.recOf { it with info := o.info } o.status]) := by
      rw [hitems, Core.opEnded, Core.endReported, hitem]
      exact Core.itemView_reported { s.core with ops := s.core.ops.filter (fun x => x.id != id) } hi _ _ _
    obtain ⟨hlist, hrecs⟩ := Prod.mk.inj this
    exact ⟨hlist, _, hrecs, rfl, rfl, rfl, rfl, rfl⟩

end Sys2Proof.Machine
end

section
/-! PROOFS. Every tensor instruction that is taken starts its operation (R155 to R157, R160, R190, R191), O12. -/

namespace Sys2Proof.Machine

/-! ### The commands and their rows -/

/-- The command of a row runs its operation through the issue of a tensor instruction. -/
def TRow.issues (x : TArgs) (s : State) (r : TRow) : Prop := exec r.1 s = s.on (fun c => r.2.2.1 (c.tensorIns x r.2.1 r.2.2.2))

section
variable (x : TArgs) (s : State)

theorem dataRows_issue : ∀ r ∈ dataRows x, TRow.issues x s r := List.forall_iff_forall_mem.mp ⟨rfl, rfl, rfl, rfl⟩

theorem matrixRows_issue : ∀ r ∈ matrixRows x, TRow.issues x s r :=
  List.forall_iff_forall_mem.mp ⟨rfl, rfl, rfl, rfl, rfl, rfl, rfl, rfl⟩

theorem codecRows_issue : ∀ r ∈ codecRows x, TRow.issues x s r := List.forall_iff_forall_mem.mp ⟨rfl, rfl, rfl, rfl⟩

theorem remoteRows_issue : ∀ r ∈ remoteRows x, TRow.issues x s r := List.forall_iff_forall_mem.mp ⟨rfl, rfl, rfl, rfl, rfl⟩

theorem collRows_issue : ∀ r ∈ collRows x, TRow.issues x s r := List.forall_iff_forall_mem.mp ⟨rfl, rfl, rfl, rfl, rfl, rfl⟩

theorem updateRows_issue : ∀ r ∈ updateRows x, TRow.issues x s r := List.forall_iff_forall_mem.mp ⟨rfl, rfl, rfl, rfl, rfl, rfl⟩

theorem elementRows_issue : ∀ r ∈ elementRows x, TRow.issues x s r :=
  List.forall_iff_forall_mem.mp ⟨rfl, rfl, rfl, rfl, rfl, rfl, rfl, rfl, rfl, rfl, rfl⟩

theorem saveRows_issue : ∀ r ∈ saveRows x, TRow.issues x s r := List.forall_iff_forall_mem.mp ⟨rfl, rfl, rfl, rfl⟩

theorem gradFormRows_issue : ∀ r ∈ gradFormRows x, TRow.issues x s r :=
  List.forall_iff_forall_mem.mp ⟨rfl, rfl, rfl, rfl, rfl, rfl, rfl, rfl⟩

theorem tensorRows_issue : ∀ r ∈ tensorRows x, TRow.issues x s r := by
  simp only [tensorRows, List.forall_mem_append]
  exact ⟨⟨⟨⟨⟨⟨⟨⟨dataRows_issue x s, matrixRows_issue x s⟩, codecRows_issue x s⟩, remoteRows_issue x s⟩, collRows_issue x s⟩,
    updateRows_issue x s⟩, elementRows_issue x s⟩, saveRows_issue x s⟩, gradFormRows_issue x s⟩

end

/-! ### The item of an operation with REC -/

section
variable (c : Core) (x : TArgs) (op : TOp) (l p : Nat) (body : Core → Nat → Nat → OpRes)

/-- Whether an instruction opens an item: it asks for a record and its completion queue is enabled (R190, R191). -/
def Core.opensRecord : Bool := x.isRec op && c.flag Regs.HIF_CQ_CFG_ENABLE (qi p x.cq)

/-- The item of an operation that reports (R160). -/
def Core.opItem (info : Nat) : Item :=
  { id := 0, part := p, kind := .op, tag := (c.tile x.tile.val).pc + x.k.val * 2 ^ 22 + op.uses.major * 2 ^ 26
    ltile := l, cq := x.cq, source := c.unitOf op x.tile.val l p, started := true, info := info }

/-- The device once its operation's item is open. -/
def Core.itemOpened : Core :=
  let r := c.runOp x op l p body
  if c.opensRecord x op p then (r.c.pastIssue x).openItem (c.opItem x op l p r.info) else r.c.pastIssue x

theorem Core.beginOp_eq : c.beginOp x op l p body =
    let r := c.runOp x op l p body
    let e := c.itemOpened x op l p body
    { e with ops := e.ops ++ [AOp.issued x op e.nextOp l p (c.unitOf op x.tile.val l p) (c.tile x.tile.val).pc
        (if c.opensRecord x op p then some r.c.nextItem else none) r], nextOp := e.nextOp + 1 } := rfl

theorem Core.itemOpened_opensAs : ((c.runOp x op l p body).c.pastIssue x).opensAs (c.itemOpened x op l p body) := Core.opensAs_ite _ _

theorem Core.pastIssue_view (d : Core) : (d.pastIssue x).mems = d.mems ∧ (d.pastIssue x).parts = d.parts := ⟨rfl, rfl⟩

theorem Tile.pc_issued (y : Tile) : (y.issued x).pc = (y.pc + wideLen x.wide) % 2 ^ 22 := rfl

/-- What moving a sequencer past its instruction leaves, and what opening an item leaves beside its list. -/
theorem Core.pastIssue_kept (d : Core) :
    (d.pastIssue x).items = d.items ∧ (d.pastIssue x).regs = d.regs ∧ (d.pastIssue x).evtBuf = d.evtBuf ∧ (d.pastIssue x).nextItem = d.nextItem :=
  ⟨rfl, rfl, rfl, rfl⟩

theorem Core.openItem_evtBuf (d : Core) (i : Item) : (d.openItem i).evtBuf = d.evtBuf := Core.wf_evtBuf _ _ _ _

theorem Core.openItem_items (d : Core) (i : Item) : (d.openItem i).items = d.items ++ [{ i with id := d.nextItem, openTick := d.tick }] :=
  Core.wf_items _ _ _ _

theorem Core.itemOpened_of_not (h : c.opensRecord x op p = false) : c.itemOpened x op l p body = (c.runOp x op l p body).c.pastIssue x :=
  if_neg (by simp [h])

theorem Core.itemOpened_of (h : c.opensRecord x op p = true) : c.itemOpened x op l p body =
    ((c.runOp x op l p body).c.pastIssue x).openItem (c.opItem x op l p (c.runOp x op l p body).info) := if_pos h

theorem Core.evtBuf_itemOpened : (c.itemOpened x op l p body).evtBuf = (c.runOp x op l p body).c.evtBuf := by
  obtain ⟨-, -, hevt, -⟩ := Core.pastIssue_kept x (c.runOp x op l p body).c
  cases h : c.opensRecord x op p with
  | false => rw [c.itemOpened_of_not _ _ _ _ _ h, hevt]
  | true => rw [c.itemOpened_of _ _ _ _ _ h, Core.openItem_evtBuf, hevt]

theorem Core.itemOpened_none (h : c.opensRecord x op p = false) :
    (c.itemOpened x op l p body).items = (c.runOp x op l p body).c.items ∧ (c.itemOpened x op l p body).regs = (c.runOp x op l p body).c.regs := by
  obtain ⟨hitems, hregs, -, -⟩ := Core.pastIssue_kept x (c.runOp x op l p body).c
  rw [c.itemOpened_of_not _ _ _ _ _ h]
  exact ⟨hitems, hregs⟩

theorem Core.itemOpened_some (h : c.opensRecord x op p = true) :
    ∃ j, (c.itemOpened x op l p body).items = (c.runOp x op l p body).c.items ++ [j] ∧ j.id = (c.runOp x op l p body).c.nextItem ∧ j.part = p ∧
      j.ltile = l ∧ j.cq = x.cq ∧ j.kind = .op := by
  obtain ⟨hitems, -, -, hnext⟩ := Core.pastIssue_kept x (c.runOp x op l p body).c
  rw [c.itemOpened_of _ _ _ _ _ h, Core.openItem_items, hitems, hnext]
  exact ⟨_, rfl, rfl, rfl, rfl, rfl, rfl⟩

/-- The operation that an instruction starts (R155, R160). -/
def Core.opStarted : AOp :=
  AOp.issued x op (c.runOp x op l p body).c.nextOp l p (c.unitOf op x.tile.val l p) (c.tile x.tile.val).pc
    (if c.opensRecord x op p then some (c.runOp x op l p body).c.nextItem else none) (c.runOp x op l p body)

theorem Core.opStarted_fields :
    let r := c.runOp x op l p body
    let o := c.opStarted x op l p body
    o.id = r.c.nextOp ∧ o.part = p ∧ o.ltile = l ∧ o.tok = x.k.val ∧ o.major = op.uses.major ∧ o.status = r.st ∧ o.wait = r.wait ∧
      o.info = r.info ∧ o.item = if c.opensRecord x op p then some r.c.nextItem else none :=
  ⟨rfl, rfl, rfl, rfl, rfl, rfl, rfl, rfl, rfl⟩

theorem Core.ops_beginOp : (c.beginOp x op l p body).ops = (c.runOp x op l p body).c.ops ++ [c.opStarted x op l p body] := by
  obtain ⟨-, hview⟩ := c.itemOpened_opensAs x op l p body
  obtain ⟨-, -, hops, hnext⟩ := Core.seqView_eq_iff.mp hview
  rw [c.beginOp_eq]
  dsimp only
  rw [hops, hnext]
  rfl

/-- Beside its operation, an instruction that starts makes of the device what opening its item does. -/
theorem Core.beginOp_kept :
    let c1 := c.beginOp x op l p body
    let e := c.itemOpened x op l p body
    c1.mems = e.mems ∧ c1.tiles = e.tiles ∧ c1.parts = e.parts ∧ c1.evtBuf = e.evtBuf ∧ c1.items = e.items ∧ c1.regs = e.regs :=
  ⟨rfl, rfl, rfl, rfl, rfl, rfl⟩

end

/-- Settles O12: the row's command starts its operation, and what follows the issue acts on the device in which it is in progress. -/
theorem tensorIssue : Obligations.TensorIssue := by
  intro x s i op post body hrow ht w r opens
  have hexec : exec i s = s.on (fun c => post (c.tensorIns x op body)) := tensorRows_issue x s _ hrow
  refine answers_on hexec ⟨_, rfl, ?_⟩
  rw [s.core.tensorIns_takes ht, show s.core.count Regs.TILE_INSTR_COUNT_COUNT x.tile.val = s.core.atIssue x.tile.val from rfl]
  obtain ⟨hmems, hview⟩ := (s.core.atIssue x.tile.val).itemOpened_opensAs x op w.1 w.2 body
  obtain ⟨-, hparts, -, -⟩ := Core.seqView_eq_iff.mp hview
  obtain ⟨kmems, ktiles, kparts, kevt, kitems, kregs⟩ := (s.core.atIssue x.tile.val).beginOp_kept x op w.1 w.2 body
  obtain ⟨pmems, pparts⟩ := Core.pastIssue_view x ((s.core.atIssue x.tile.val).runOp x op w.1 w.2 body).c
  have htile := fun u => (Core.tile_of_tiles ktiles u).trans (Core.tile_of_seqView hview u)
  have hsame := (htile x.tile.val).trans (Core.tile_pastIssue_same _ x)
  refine ⟨?_, ?_, fun j => ?_, fun u hu => ?_, ?_, ?_, ?_, fun hno => ?_, fun hyes => ?_⟩
  · exact kmems.trans (hmems.trans pmems)
  · exact (congrArg Tile.pc hsame).trans (Tile.pc_issued x _)
  · exact (congrArg (fun y : Tile => y.token j) hsame).trans (Tile.token_issued x _ j)
  · exact (htile u).trans (Core.tile_pastIssue_other _ x hu)
  · exact kparts.trans (hparts.trans pparts)
  · exact kevt.trans (Core.evtBuf_itemOpened _ _ _ _ _ _)
  · exact ⟨_, Core.ops_beginOp _ _ _ _ _ _, Core.opStarted_fields _ _ _ _ _ _⟩
  · obtain ⟨hitems, hregs⟩ := (s.core.atIssue x.tile.val).itemOpened_none x op w.1 w.2 body hno
    exact ⟨kitems.trans hitems, kregs.trans hregs⟩
  · obtain ⟨j, hitems, hj⟩ := (s.core.atIssue x.tile.val).itemOpened_some x op w.1 w.2 body hyes
    exact ⟨j, kitems.trans hitems, hj⟩

end Sys2Proof.Machine
end

section
/-! PROOFS. Commands that act on every tile of a program, and what the end of an item leaves of the partitions. -/

namespace Sys2Proof.Machine

/-- A thread of an action on the tiles of logical numbers: each tile that one of them names has the action's effect, every other tile
stays. -/
theorem Core.tile_threadAll {g : Core → Nat → Core} {f : Tile → Tile} (hmap : ∀ c l, (g c l).map = c.map)
    (hsome : ∀ c l t, Core.phys c l = some t → (g c l).tile t = f (c.tile t))
    (hother : ∀ c l t, Core.phys c l ≠ some t → (g c l).tile t = c.tile t) (hf : ∀ y, f (f y) = f y) (t : Nat) (ls : List Nat) (c : Core) :
    ((∃ l ∈ ls, c.phys l = some t) → (threadAll g c ls).tile t = f (c.tile t)) ∧
      ((∀ l ∈ ls, c.phys l ≠ some t) → (threadAll g c ls).tile t = c.tile t) := by
  induction ls generalizing c with
  | nil => exact ⟨fun ⟨l, hl, _⟩ => absurd hl List.not_mem_nil, fun _ => rfl⟩
  | cons l r ih =>
    have hphys : ∀ m, (g c l).phys m = c.phys m := fun m => by rw [Core.phys, Core.phys, hmap]
    obtain ⟨hin, hout⟩ := ih (g c l)
    simp only [hphys] at hin hout
    refine ⟨fun ⟨m, hm, ht⟩ => ?_, fun h => ?_⟩
    · have hl : (g c l).tile t = f (c.tile t) ∨ ((g c l).tile t = c.tile t ∧ c.phys l ≠ some t) := by
        by_cases hl : c.phys l = some t
        · exact .inl (hsome c l t hl)
        · exact .inr ⟨hother c l t hl, hl⟩
      by_cases hr : ∃ m ∈ r, c.phys m = some t
      · rw [threadAll, hin hr]
        rcases hl with hl | ⟨hl, -⟩
        · rw [hl, hf]
        · rw [hl]
      · rw [threadAll, hout fun m hm ht => hr ⟨m, hm, ht⟩]
        rcases hl with hl | ⟨-, hne⟩
        · exact hl
        · rcases List.mem_cons.mp hm with rfl | hm
          · exact absurd ht hne
          · exact absurd ⟨m, hm, ht⟩ hr
    · rw [threadAll, hout fun m hm => h m (List.mem_cons_of_mem _ hm), hother c l t (h l List.mem_cons_self)]

/-! ### What the end of an item leaves of the partitions -/

/-- A partition but for its count of items ended while it drains. -/
def Part.undrained (q : Part) : Part := { q with drainEnded := 0 }

theorem Core.parts_sqClear (c : Core) (p q : Nat) : (c.sqClear p q).parts = c.parts := by
  unfold Core.sqClear
  split
  · exact Core.wf_parts _ _ _ _
  · rfl

theorem Core.undrained_countDrain (c : Core) (p q : Nat) : ((c.countDrain p).part q).undrained = (c.part q).undrained := by
  unfold Core.countDrain
  split
  · by_cases h : q = p
    · subst h
      rw [Core.part_setPart_same]
      rfl
    · rw [Core.part_setPart_other _ _ h]
  · rfl

theorem Core.undrained_endItem (c : Core) (id status : Nat) (own : Bool) (q : Nat) :
    ((c.endItem id status own).part q).undrained = (c.part q).undrained := by
  cases h : c.item? id with
  | none => simp only [Core.endItem, h]
  | some i =>
    have hpost : ∀ (d : Core) r b, (d.postEnd i r b).parts = d.parts := fun d r b => by
      unfold Core.postEnd
      split <;> rfl
    have hparts := (hpost ((c.itemEnded i id status)) (c.recOf i status) (own && !(c.part i.part).revoked)).trans (Core.parts_sqClear _ _ _)
    rw [Core.endItem_eq h, Core.part_of_parts hparts, Core.undrained_countDrain]
    rfl

end Sys2Proof.Machine
end


section
/-! PROOFS. The start of a program (R182, R309). -/

namespace Sys2Proof.Machine

/-! ### What the start does before the tiles run -/

/-- The page of a mark wiped in the tile that the map gives it. -/
def Core.wipePage (c : Core) (k : Nat) : Core := match c.phys (k / 1024) with
  | some t => { c with scratch := threadAll (fun (m : SMap Byte) a => m.put zeroByte (c.scratchKey t a) 0) c.scratch (upFrom (k % 1024 * 4096) 4096) }
  | none => c

/-- Wiping pages changes scratchpads alone. -/
theorem Core.wipePages_eq (c : Core) (ks : List Nat) : ∃ m, threadAll Core.wipePage c ks = { c with scratch := m } := by
  refine threadAll_inv (fun d => ∃ m, d = { c with scratch := m }) (fun d k hd => ?_) ks c ⟨_, rfl⟩
  obtain ⟨m, rfl⟩ := hd
  unfold Core.wipePage
  split
  · exact ⟨_, rfl⟩
  · exact ⟨_, rfl⟩

/-- Dropping the marks of a licensed model changes scratchpads and marks alone (R533). -/
theorem Core.dropMarks_eq (c : Core) (p : Nat) : ∃ m k, c.dropMarks p = { c with scratch := m, marks := k } := by
  unfold Core.dropMarks
  dsimp only
  split
  · exact ⟨_, _, rfl⟩
  · obtain ⟨m, hm⟩ := c.wipePages_eq (c.marks.filter (fun k => c.ownsGroup p (k / 1024 / 16)))
    exact ⟨m, c.marks.filter (fun k => !(c.marks.filter (fun k => c.ownsGroup p (k / 1024 / 16))).contains k),
      congrArg (fun d : Core => { d with marks := c.marks.filter (fun k => !(c.marks.filter (fun k => c.ownsGroup p (k / 1024 / 16))).contains k) }) hm⟩

/-- The device with loss-scale state made valid for engine `e` of partition `p` (R309). -/
def Core.scaleSet (c : Core) (p e : Nat) : Core :=
  ((c.wr Regs.UPD_LS_STATE e (c.rf Regs.UPD_LS_CFG_RECOVERY_EXP e + 2 ^ 8 + 256 * 2 ^ 16)).wr Regs.UPD_LS_HIST e 0).evt Cls.info
    (Src.updEngine e) p 0x0603 (c.rf Regs.UPD_LS_CFG_RECOVERY_EXP e)

theorem Core.scaleInit_eq (c : Core) (p : Nat) :
    c.scaleInit p = if c.flag Regs.UPD_LS_STATE_VALID (c.lead p) then c else c.scaleSet p (c.lead p) := rfl

/-- The value that makes loss-scale state valid, with E at `r` and 256 recovery steps, has these fields. -/
theorem lossFields {r : Nat} (h : r < 2 ^ 8) :
    bits (r + 2 ^ 8 + 256 * 2 ^ 16) 8 8 = 1 ∧ bits (r + 2 ^ 8 + 256 * 2 ^ 16) 7 0 = r % 2 ^ 8 ∧ bits (r + 2 ^ 8 + 256 * 2 ^ 16) 24 16 = 256 ∧
      bits (r + 2 ^ 8 + 256 * 2 ^ 16) 63 32 = 0 := by
  simp only [bits, Nat.shiftRight_eq_div_pow]
  norm_num at h ⊢
  omega

theorem Core.evt_posts (c : Core) (cls source part code info0 info1 : Nat) :
    (c.evt cls source part code info0 info1).evtBuf = c.evtBuf ++ [⟨cls, source, part, code, info0 % 2 ^ 64, info1 % 2 ^ 64⟩] := rfl

/-- A field of the loss-scale state made valid. -/
theorem Core.scaleSet_rf (c : Core) (p e : Nat) {f : Fld} (hr : f.reg = Regs.UPD_LS_STATE) (hok : f.ok = true) :
    (c.scaleSet p e).rf f e = bits (c.rf Regs.UPD_LS_CFG_RECOVERY_EXP e + 2 ^ 8 + 256 * 2 ^ 16) f.hi f.lo := by
  have hap : f.reg.apart Regs.UPD_LS_HIST = true := by
    rw [hr]
    decide
  rw [Core.scaleSet, Core.evt_rf, Core.rf_wr_apart _ _ _ _ hap, Core.rf_wr_same _ _ _ hr hok]

/-- The fields of the loss-scale state made valid, and the event of that. -/
theorem Core.scaleSet_fields (c : Core) (p e : Nat) :
    (c.scaleSet p e).rf Regs.UPD_LS_STATE_VALID e = 1 ∧ (c.scaleSet p e).rf Regs.UPD_LS_STATE_E e = c.rf Regs.UPD_LS_CFG_RECOVERY_EXP e % 2 ^ 8 ∧
      (c.scaleSet p e).rf Regs.UPD_LS_STATE_RECOVERY_LEFT e = 256 ∧ (c.scaleSet p e).rf Regs.UPD_LS_STATE_CLEAN e = 0 ∧
      (c.scaleSet p e).rd Regs.UPD_LS_HIST e = 0 ∧
      (c.scaleSet p e).evtBuf = c.evtBuf ++ [⟨Cls.info, Src.updEngine e, p, 0x0603, c.rf Regs.UPD_LS_CFG_RECOVERY_EXP e, 0⟩] := by
  have hlt : c.rf Regs.UPD_LS_CFG_RECOVERY_EXP e < 2 ^ 8 := bits_lt _ _ _
  obtain ⟨hvalid, he, hleft, hclean⟩ := lossFields hlt
  refine ⟨?_, ?_, ?_, ?_, ?_, ?_⟩
  · exact (c.scaleSet_rf p e rfl (by decide)).trans hvalid
  · exact (c.scaleSet_rf p e rfl (by decide)).trans he
  · exact (c.scaleSet_rf p e rfl (by decide)).trans hleft
  · exact (c.scaleSet_rf p e rfl (by decide)).trans hclean
  · rw [Core.scaleSet, Core.evt_rd, Core.rd_wr_same]
    rfl
  · rw [Core.scaleSet, Core.evt_posts, Core.wr_evtBuf, Core.wr_evtBuf, Nat.mod_eq_of_lt (hlt.trans (by norm_num))]
    rfl

/-! ### What the settings of a step depend on -/

/-- The registers, but for the loss-scale state and history of an engine, the device memory and the partitions are as they were. -/
structure Core.scaleOnly (c c' : Core) (e : Nat) : Prop where
  rd : ∀ r j, r.at j ≠ Regs.UPD_LS_STATE.at e → r.at j ≠ Regs.UPD_LS_HIST.at e → c'.rd r j = c.rd r j
  dram : c'.dram = c.dram
  dramKey : c'.dramKey = c.dramKey
  parts : c'.parts = c.parts

section
variable {c c' : Core} {e : Nat}

theorem Core.scaleOnly.rf (h : c.scaleOnly c' e) {f : Fld} (hs : f.reg.apart Regs.UPD_LS_STATE = true) (hh : f.reg.apart Regs.UPD_LS_HIST = true)
    (j : Nat) : c'.rf f j = c.rf f j := by
  rw [Core.rf, Core.rf, h.rd _ _ (Reg.at_ne_of_apart hs j e) (Reg.at_ne_of_apart hh j e)]

theorem Core.scaleOnly.owners (h : c.scaleOnly c' e) : c.sameOwners c' := fun p =>
  ⟨h.rd _ _ (Reg.at_ne_of_apart (by decide) p e) (Reg.at_ne_of_apart (by decide) p e),
    h.rd _ _ (Reg.at_ne_of_apart (by decide) p e) (Reg.at_ne_of_apart (by decide) p e)⟩

/-- The granules' owners stand below the update engines' registers. -/
theorem Core.scaleOnly.granule (h : c.scaleOnly c' e) (i : Nat) : c'.rd Regs.MEM_GRANULE_OWNER i = c.rd Regs.MEM_GRANULE_OWNER i := by
  have hlt : Regs.MEM_GRANULE_OWNER.at i < 0x900000 := by
    simp only [Reg.at, Reg.offsetOf, Regs.MEM_GRANULE_OWNER]
    omega
  refine h.rd _ _ (Nat.ne_of_lt (hlt.trans_le ?_)) (Nat.ne_of_lt (hlt.trans_le ?_))
  · exact Nat.le_trans (by decide) (Nat.le_add_right Regs.UPD_LS_STATE.base _)
  · exact Nat.le_trans (by decide) (Nat.le_add_right Regs.UPD_LS_HIST.base _)

theorem Core.scaleOnly.readView (h : c.scaleOnly c' e) (p off n : Nat) : c'.readView p off n = c.readView p off n := by
  have hdpa : ∀ a, c'.viewToDpa p a = c.viewToDpa p a := fun a => by
    have hpart : ∀ i, c'.rf Regs.MEM_GRANULE_OWNER_PART i = c.rf Regs.MEM_GRANULE_OWNER_PART i := fun i => by
      rw [Core.rf, Core.rf, show Regs.MEM_GRANULE_OWNER_PART.reg = Regs.MEM_GRANULE_OWNER from rfl, h.granule]
    have hview : ∀ i, c'.rf Regs.MEM_GRANULE_OWNER_VIEW i = c.rf Regs.MEM_GRANULE_OWNER_VIEW i := fun i => by
      rw [Core.rf, Core.rf, show Regs.MEM_GRANULE_OWNER_VIEW.reg = Regs.MEM_GRANULE_OWNER from rfl, h.granule]
    simp only [Core.viewToDpa, hpart, hview]
  unfold Core.readView
  simp only [hdpa, Core.part_of_parts h.parts, Core.dramByte, h.dram, h.dramKey]

/-- The settings of the next step depend on neither (R296). -/
theorem Core.scaleOnly.takeCfg (h : c.scaleOnly c' e) (p : Nat) : c'.takeCfg p = c.takeCfg p := by
  have hrf : ∀ f : Fld, f.reg.apart Regs.UPD_LS_STATE = true → f.reg.apart Regs.UPD_LS_HIST = true → ∀ j, c'.rf f j = c.rf f j :=
    fun f hs hh j => h.rf hs hh j
  unfold Core.takeCfg
  simp only [h.owners.lead, h.readView, Core.flag, hrf Regs.UPD_SCHED_KIND_KIND (by decide) (by decide), hrf Regs.UPD_SCHED_LR_LR0 (by decide) (by decide),
    hrf Regs.UPD_SCHED_LR_LRMIN (by decide) (by decide), hrf Regs.UPD_SCHED_SPAN_WARMUP (by decide) (by decide),
    hrf Regs.UPD_SCHED_SPAN_TOTAL (by decide) (by decide), hrf Regs.UPD_SCHED_STEP_INTERVAL (by decide) (by decide),
    hrf Regs.UPD_SCHED_STEP_GAMMA (by decide) (by decide), hrf Regs.UPD_SCHED_STRIDE_STRIDE (by decide) (by decide),
    hrf Regs.UPD_SCHED_TABLE_BASE (by decide) (by decide), hrf Regs.UPD_CLIP_NORM (by decide) (by decide),
    hrf Regs.UPD_LS_CFG_GROW_INTERVAL (by decide) (by decide), hrf Regs.UPD_WATCH_CFG_UNDERFLOW_STEPS (by decide) (by decide),
    hrf Regs.UPD_LS_CFG_AGREE_EN (by decide) (by decide), hrf Regs.UPD_LS_CFG_AGREE_GROUP (by decide) (by decide),
    hrf Regs.UPD_AGREE_TIMEOUT_MS (by decide) (by decide), hrf Regs.UPD_LAYER_TABLE_BASE (by decide) (by decide)]
  rfl

end

theorem Core.scaleOnly_scaleSet (c : Core) (p e : Nat) : c.scaleOnly (c.scaleSet p e) e where
  rd r j hs hh := by rw [Core.scaleSet, Core.evt_rd, Core.rd_wr_other _ _ hh, Core.rd_wr_other _ _ hs]
  dram := by rw [Core.scaleSet, Core.evt_dram, Core.wr_dram, Core.wr_dram]
  dramKey := by rw [Core.scaleSet, Core.evt_dramKey, Core.wr_dramKey, Core.wr_dramKey]
  parts := by rw [Core.scaleSet, Core.evt_parts, Core.wr_parts, Core.wr_parts]

end Sys2Proof.Machine
end

section
/-! PROOFS. PROGRAM_START (R182, R309). -/

namespace Sys2Proof.Machine

/-- Whether a device's loss-scale state is ready for a program of partition `p` with engine `e`: it stays where it was valid, and is made valid
with its event otherwise (R309). -/
def Core.lossReady (c d : Core) (p e : Nat) : Prop :=
  d.rf Regs.UPD_LS_STATE_VALID e = 1 ∧ (c.flag Regs.UPD_LS_STATE_VALID e = true → d.regs = c.regs ∧ d.evtBuf = c.evtBuf) ∧
    (c.flag Regs.UPD_LS_STATE_VALID e = false → d.rf Regs.UPD_LS_STATE_E e = c.rf Regs.UPD_LS_CFG_RECOVERY_EXP e % 2 ^ 8 ∧
      d.rf Regs.UPD_LS_STATE_RECOVERY_LEFT e = 256 ∧ d.rf Regs.UPD_LS_STATE_CLEAN e = 0 ∧ d.rd Regs.UPD_LS_HIST e = 0 ∧
      d.evtBuf = c.evtBuf ++ [⟨Cls.info, Src.updEngine e, p, 0x0603, c.rf Regs.UPD_LS_CFG_RECOVERY_EXP e, 0⟩])

/-- Devices that agree on registers and events agree on whether loss-scale state is ready. -/
theorem Core.lossReady_congr {c d d' : Core} {p e : Nat} (hregs : d'.regs = d.regs) (hevt : d'.evtBuf = d.evtBuf) (h : c.lossReady d p e) :
    c.lossReady d' p e := by
  simp only [Core.lossReady, Core.rf_of_regs hregs, Core.rd_of_regs hregs, hregs, hevt]
  exact h

/-- What a program's start does before its tiles run: it makes loss-scale state ready and leaves the tiles, the items and the operations. -/
structure Core.startReady (c d : Core) (p e : Nat) : Prop where
  only : c.scaleOnly d e
  loss : c.lossReady d p e
  tiles : d.tiles = c.tiles
  map : d.map = c.map
  items : d.items = c.items
  ops : d.ops = c.ops

theorem Core.startReady_self {c : Core} {p e : Nat} (h : c.flag Regs.UPD_LS_STATE_VALID e = true) : c.startReady c p e where
  only := ⟨fun _ _ _ _ => rfl, rfl, rfl, rfl⟩
  loss := ⟨(Core.flag_eq_true _ _).mp h, fun _ => ⟨rfl, rfl⟩, fun h' => absurd (h.symm.trans h') (by decide)⟩
  tiles := rfl
  map := rfl
  items := rfl
  ops := rfl

theorem Core.startReady_scaleSet {c : Core} {p e : Nat} (h : c.flag Regs.UPD_LS_STATE_VALID e = false) : c.startReady (c.scaleSet p e) p e where
  only := c.scaleOnly_scaleSet p e
  loss := by
    obtain ⟨hvalid, hrest⟩ := c.scaleSet_fields p e
    exact ⟨hvalid, fun h' => absurd (h.symm.trans h') (by decide), fun _ => hrest⟩
  tiles := by rw [Core.scaleSet, Core.evt_tiles, Core.wr_tiles, Core.wr_tiles]
  map := by rw [Core.scaleSet, Core.evt_map, Core.wr_map, Core.wr_map]
  items := by rw [Core.scaleSet, Core.evt_items, Core.wr_items, Core.wr_items]
  ops := by rw [Core.scaleSet, Core.evt_ops, Core.wr_ops, Core.wr_ops]

theorem Core.startReady_scaleInit (c : Core) (p : Nat) : c.startReady (c.scaleInit p) p (c.lead p) := by
  rw [Core.scaleInit_eq]
  split
  next h => exact Core.startReady_self h
  next h => exact Core.startReady_scaleSet (Bool.not_eq_true _ ▸ h)

/-- Scratchpads and marks play no part in it. -/
theorem Core.startReady.of_marks {c d : Core} {m : SMap Byte} {k : List Nat} {p e : Nat}
    (h : ({ c with scratch := m, marks := k } : Core).startReady d p e) : c.startReady d p e :=
  ⟨⟨h.only.rd, h.only.dram, h.only.dramKey, h.only.parts⟩, h.loss, h.tiles, h.map, h.items, h.ops⟩

theorem Core.lead_withMarks (c : Core) (m : SMap Byte) (k : List Nat) (p : Nat) : ({ c with scratch := m, marks := k } : Core).lead p = c.lead p := rfl

theorem Core.startReady_start (c : Core) (p : Nat) : c.startReady ((c.dropMarks p).scaleInit p) p (c.lead p) := by
  obtain ⟨m, k, h⟩ := c.dropMarks_eq p
  rw [h, ← c.lead_withMarks m k]
  exact (Core.startReady_scaleInit _ p).of_marks

/-! ### The tiles of the program -/

/-- A running tile. -/
def Tile.running (y : Tile) : Tile := { y with run := 1 }

/-- The tile of a logical number made to run. -/
def Core.runTile (c : Core) (l : Nat) : Core := match c.phys l with
  | some t => c.setTile t (c.tile t).running
  | none => c

theorem Core.runTile_eq (c : Core) (l : Nat) : ∃ ts, c.runTile l = { c with tiles := ts } := by
  unfold Core.runTile
  split
  · exact ⟨_, rfl⟩
  · exact ⟨_, rfl⟩

theorem Core.runTile_some {c : Core} {l t : Nat} (h : c.phys l = some t) : c.runTile l = c.setTile t (c.tile t).running := by
  rw [Core.runTile, h]

theorem Core.runTile_other {c : Core} {l t : Nat} (h : c.phys l ≠ some t) : (c.runTile l).tile t = c.tile t := by
  unfold Core.runTile
  split
  next u hu => exact Core.tile_setTile_other _ _ fun htu => h (htu ▸ hu)
  next => rfl

/-- Setting tiles to run changes tiles alone. -/
theorem Core.runTiles_eq (c : Core) (ls : List Nat) : ∃ ts, threadAll Core.runTile c ls = { c with tiles := ts } := by
  refine threadAll_inv (fun d => ∃ ts, d = { c with tiles := ts }) (fun d l hd => ?_) ls c ⟨_, rfl⟩
  obtain ⟨ts, rfl⟩ := hd
  obtain ⟨ts', h⟩ := Core.runTile_eq { c with tiles := ts } l
  exact ⟨ts', h⟩

theorem Core.tile_runTiles (c : Core) (t : Nat) (ls : List Nat) :
    ((∃ l ∈ ls, c.phys l = some t) → (threadAll Core.runTile c ls).tile t = (c.tile t).running) ∧
      ((∀ l ∈ ls, c.phys l ≠ some t) → (threadAll Core.runTile c ls).tile t = c.tile t) := by
  refine Core.tile_threadAll (g := Core.runTile) (f := Tile.running) (fun d l => ?_) (fun d l u hu => ?_) (fun d l u hu => Core.runTile_other hu) (fun _ => rfl) t ls c
  · obtain ⟨ts, h⟩ := d.runTile_eq l
    rw [h]
  · rw [Core.runTile_some hu, Core.tile_setTile_same]

/-! ### The start -/

/-- The program of partition `p` started on a device that is ready for it. -/
def Core.startOn (c : Core) (p : Nat) (pr : Prog) : Core :=
  c.setPart p { c.part p with prog := some { pr with started := true }, accum := c.rf Regs.COL_ACCUM_COUNT p, cfg := c.takeCfg p }

theorem exec_programStart_none {p : PartId} {s : State} (h : (s.core.part p.val).prog = none) : exec (.programStart p) s = .next s := by
  show execProgramStart p s = _
  unfold execProgramStart
  refine State.on_of_fixed ?_
  simp only [h]

theorem exec_programStart {p : PartId} {s : State} {pr : Prog} (h : (s.core.part p.val).prog = some pr) :
    exec (.programStart p) s = if pr.started || pr.stopping || s.core.fwWaits then .next s
      else .next { s with core := (threadAll Core.runTile ((s.core.dropMarks p.val).scaleInit p.val) pr.tiles).startOn p.val pr } := by
  show execProgramStart p s = _
  unfold execProgramStart
  rw [State.on]
  simp only [h]
  split
  · rfl
  · rfl

/-- A started program's device: its tiles run, its partition has the settings of its first step, and nothing else differs but the loss-scale
state made ready. -/
def Core.startedFrom (c d : Core) (p : Nat) (pr : Prog) : Prop :=
  (∀ l ∈ pr.tiles, ∀ t, c.phys l = some t → d.tile t = { c.tile t with run := 1 }) ∧
    (∀ t, (∀ l ∈ pr.tiles, c.phys l ≠ some t) → d.tile t = c.tile t) ∧
    d.part p = { c.part p with prog := some { pr with started := true }, accum := c.rf Regs.COL_ACCUM_COUNT p, cfg := c.takeCfg p } ∧
    (∀ u, u ≠ p → d.part u = c.part u) ∧ d.dram = c.dram ∧ d.items = c.items ∧ d.ops = c.ops ∧ c.lossReady d p (c.lead p)

theorem Core.phys_of_sameMap {c d : Core} (h : d.map = c.map) (l : Nat) : d.phys l = c.phys l := by rw [Core.phys, Core.phys, h]

theorem Core.scaleOnly.accum {c d : Core} {e : Nat} (h : c.scaleOnly d e) (p : Nat) : d.rf Regs.COL_ACCUM_COUNT p = c.rf Regs.COL_ACCUM_COUNT p :=
  h.rf (by decide) (by decide) p

theorem Core.rf_withTiles (c : Core) (ts : SMap Tile) (f : Fld) (i : Nat) : ({ c with tiles := ts } : Core).rf f i = c.rf f i := rfl
theorem Core.part_withTiles (c : Core) (ts : SMap Tile) (p : Nat) : ({ c with tiles := ts } : Core).part p = c.part p := rfl
theorem Core.takeCfg_withTiles (c : Core) (ts : SMap Tile) (p : Nat) : ({ c with tiles := ts } : Core).takeCfg p = c.takeCfg p := rfl

/-- The tiles of a started program. -/
theorem Core.tile_startOn (c : Core) (p : Nat) (pr : Prog) (t : Nat) : (c.startOn p pr).tile t = c.tile t := rfl

theorem Core.startReady.started {c d : Core} {p : Nat} (h : c.startReady d p (c.lead p)) (pr : Prog) :
    c.startedFrom ((threadAll Core.runTile d pr.tiles).startOn p pr) p pr := by
  have htile := fun t => d.tile_runTiles t pr.tiles
  simp only [Core.phys_of_sameMap h.map, Core.tile_of_tiles h.tiles] at htile
  obtain ⟨ts, hts⟩ := d.runTiles_eq pr.tiles
  refine ⟨fun l hl t ht => ?_, fun t ht => ?_, ?_, fun u hu => ?_, ?_, ?_, ?_, ?_⟩
  · rw [Core.tile_startOn]
    exact (htile t).1 ⟨l, hl, ht⟩
  · rw [Core.tile_startOn]
    exact (htile t).2 ht
  · rw [Core.startOn, Core.part_setPart_same, hts, Core.rf_withTiles, Core.part_withTiles, Core.takeCfg_withTiles, Core.part_of_parts h.only.parts,
      h.only.accum, h.only.takeCfg]
  · rw [Core.startOn, Core.part_setPart_other _ _ hu, hts, Core.part_withTiles, Core.part_of_parts h.only.parts]
  · rw [hts]
    exact h.only.dram
  · rw [hts]
    exact h.items
  · rw [hts]
    exact h.ops
  · rw [hts]
    exact Core.lossReady_congr rfl rfl h.loss

theorem answers_programStart {p : PartId} {s : State} {pr : Prog} (h : (s.core.part p.val).prog = some pr)
    (hidle : (pr.started || pr.stopping || s.core.fwWaits) = false) : Answers s (.programStart p) (fun c => s.core.startedFrom c p.val pr) :=
  ⟨_, (exec_programStart h).trans (if_neg (by simp [hidle])), (s.core.startReady_start p.val).started pr⟩

end Sys2Proof.Machine
end

section
/-! PROOFS. PROGRAM_END (R183-R185, R275), and O41. -/

namespace Sys2Proof.Machine

/-! ### Emptying the stashes -/

/-- Whether a device is another but for its registers. -/
def Core.upToRegs (c d : Core) : Prop := ∃ rs, d = { c with regs := rs }

theorem Core.upToRegs.wr {c d : Core} (h : c.upToRegs d) (r : Reg) (i v : Nat) : c.upToRegs (d.wr r i v) := by
  obtain ⟨rs, rfl⟩ := h
  exact ⟨_, rfl⟩

theorem Core.upToRegs.wf {c d : Core} (h : c.upToRegs d) (f : Fld) (i v : Nat) : c.upToRegs (d.wf f i v) := h.wr _ _ _

/-- A tile with an empty stash. -/
def Tile.stashless (y : Tile) : Tile := { y with stash := [], ring := [], ringNext := 0, spillHead := 0, pairs := [] }

/-- Emptying a stash sets its tile and registers. -/
theorem Core.emptyStash_upToRegs (c : Core) (t : Nat) : (c.setTile t (c.tile t).stashless).upToRegs (c.emptyStash t) := by
  have h : (c.setTile t (c.tile t).stashless).upToRegs (c.setTile t (c.tile t).stashless) := ⟨_, rfl⟩
  exact ((((h.wr _ _ _).wf _ _ _).wf _ _ _).wf _ _ _).wf _ _ _

/-- The stash of the tile of a logical number emptied. -/
def Core.emptyTile (c : Core) (l : Nat) : Core := match c.phys l with
  | some t => c.emptyStash t
  | none => c

theorem Core.emptyTile_eq (c : Core) (l : Nat) : ∃ ts rs, c.emptyTile l = { c with tiles := ts, regs := rs } := by
  unfold Core.emptyTile
  split
  next t _ =>
    obtain ⟨rs, h⟩ := c.emptyStash_upToRegs t
    exact ⟨_, rs, h⟩
  next => exact ⟨_, _, rfl⟩

theorem Core.emptyTiles_eq (c : Core) (ls : List Nat) : ∃ ts rs, threadAll Core.emptyTile c ls = { c with tiles := ts, regs := rs } := by
  refine threadAll_inv (fun d => ∃ ts rs, d = { c with tiles := ts, regs := rs }) (fun d l hd => ?_) ls c ⟨_, _, rfl⟩
  obtain ⟨ts, rs, rfl⟩ := hd
  obtain ⟨ts', rs', h⟩ := Core.emptyTile_eq { c with tiles := ts, regs := rs } l
  exact ⟨ts', rs', h⟩

theorem Core.tile_withRegs (c : Core) (rs : SMap Word) (u : Nat) : ({ c with regs := rs } : Core).tile u = c.tile u := rfl

theorem Core.tile_emptyStash (c : Core) (t u : Nat) : (c.emptyStash t).tile u = (c.setTile t (c.tile t).stashless).tile u := by
  obtain ⟨rs, h⟩ := c.emptyStash_upToRegs t
  rw [h, Core.tile_withRegs]

theorem Core.tile_emptyTile_some {c : Core} {l t : Nat} (h : c.phys l = some t) : (c.emptyTile l).tile t = (c.tile t).stashless := by
  rw [Core.emptyTile, h]
  exact (c.tile_emptyStash t t).trans (Core.tile_setTile_same _ _ _)

theorem Core.tile_emptyTile_other {c : Core} {l t : Nat} (h : c.phys l ≠ some t) : (c.emptyTile l).tile t = c.tile t := by
  unfold Core.emptyTile
  split
  next u hu => exact (c.tile_emptyStash u t).trans (Core.tile_setTile_other _ _ fun htu => h (htu ▸ hu))
  next => rfl

theorem Core.tile_emptyTiles (c : Core) {t l : Nat} {ls : List Nat} (hl : l ∈ ls) (ht : c.phys l = some t) :
    (threadAll Core.emptyTile c ls).tile t = (c.tile t).stashless := by
  refine (Core.tile_threadAll (g := Core.emptyTile) (f := Tile.stashless) (fun d l => ?_) (fun d l u => Core.tile_emptyTile_some)
    (fun d l u => Core.tile_emptyTile_other) (fun _ => rfl) t ls c).1 ⟨l, hl, ht⟩
  obtain ⟨ts, rs, h⟩ := d.emptyTile_eq l
  rw [h]

/-! ### The end -/

/-- The device of an ended program before its item ends. -/
def Core.unloaded (c : Core) (p : Nat) (pr : Prog) : Core :=
  (threadAll Core.emptyTile c pr.tiles).setPart p { (threadAll Core.emptyTile c pr.tiles).part p with prog := none, boundaryWait := false }

theorem Core.endProgram_eq (c : Core) (p : Nat) (pr : Prog) :
    c.endProgram p pr = ((c.unloaded p pr).updItem pr.item (fun i => { i with info := pr.info })).endItem pr.item pr.endStatus (pr.endStatus == 0) := rfl

/-- What an ended program leaves: no program in its partition, no stash in its tiles, and the item's record (R185, R275). -/
def Core.endedFrom (c d : Core) (p : Nat) (pr : Prog) (i : Item) : Prop :=
  (d.part p).prog = none ∧ (d.part p).boundaryWait = false ∧ (d.part p).step = (c.part p).step ∧
    d.items = c.items.filter (fun j => j.id != pr.item) ∧ d.ops = c.ops ∧ d.scratch = c.scratch ∧ d.dram = c.dram ∧
    (∀ l ∈ pr.tiles, ∀ t, c.phys l = some t → (d.tile t).stash = [] ∧ (d.tile t).pc = (c.tile t).pc ∧ (d.tile t).run = (c.tile t).run) ∧
    ∃ r, d.recs = c.recs ++ [r] ∧ r.part = i.part ∧ r.cq = i.cq ∧ r.tag = i.tag ∧ r.info = pr.info ∧
      r.status = if (d.part i.part).revoked then St.KEY_REVOKED else pr.endStatus

theorem Core.itemView_unloaded (c : Core) (p : Nat) (pr : Prog) : (c.unloaded p pr).itemView = c.itemView := by
  obtain ⟨ts, rs, h⟩ := c.emptyTiles_eq pr.tiles
  rw [Core.unloaded, h]
  rfl

/-- The tiles, operations and memories of the device before the item ends. -/
theorem Core.unitView_unloaded (c : Core) (p : Nat) (pr : Prog) :
    (c.unloaded p pr).unitView = ((threadAll Core.emptyTile c pr.tiles).tiles, c.map, c.ops, c.mems) := by
  rw [Core.unloaded, Core.unitView_setPart]
  obtain ⟨ts, rs, h⟩ := c.emptyTiles_eq pr.tiles
  rw [h]
  rfl

theorem Core.part_emptyTiles (c : Core) (ls : List Nat) (p : Nat) : (threadAll Core.emptyTile c ls).part p = c.part p := by
  obtain ⟨ts, rs, h⟩ := c.emptyTiles_eq ls
  rw [h]
  rfl

theorem Core.part_unloaded (c : Core) (p : Nat) (pr : Prog) : (c.unloaded p pr).part p = { c.part p with prog := none, boundaryWait := false } := by
  rw [Core.unloaded, Core.part_setPart_same, Core.part_emptyTiles]

theorem Core.undrained_endProgram (c : Core) (p : Nat) (pr : Prog) (u : Nat) :
    ((c.endProgram p pr).part u).undrained = ((c.unloaded p pr).part u).undrained := by
  rw [Core.endProgram_eq, Core.undrained_endItem]
  rfl

theorem Core.unitView_endProgram (c : Core) (p : Nat) (pr : Prog) :
    (c.endProgram p pr).unitView = ((threadAll Core.emptyTile c pr.tiles).tiles, c.map, c.ops, c.mems) := by
  rw [Core.endProgram_eq, Core.unitView_endItem, Core.unitView_updItem, Core.unitView_unloaded]

theorem Core.itemView_endProgram {c : Core} {pr : Prog} {i : Item} (h : c.item? pr.item = some i) (p : Nat) :
    (c.endProgram p pr).itemView =
      (c.items.filter (fun j => j.id != pr.item), c.recs ++ [(c.unloaded p pr).recOf { i with info := pr.info } pr.endStatus]) := by
  obtain ⟨hitems, hrecs⟩ := Prod.mk.inj (c.itemView_unloaded p pr)
  have hi : (c.unloaded p pr).item? pr.item = some i := by rw [Core.item?, hitems, ← h, Core.item?]
  rw [Core.endProgram_eq, Core.itemView_reported _ hi, hitems, hrecs]

theorem Core.endedFrom_endProgram {c : Core} {pr : Prog} {i : Item} (h : c.item? pr.item = some i) (p : Nat) :
    c.endedFrom (c.endProgram p pr) p pr i := by
  have hpart := c.undrained_endProgram p pr p
  rw [Core.part_unloaded] at hpart
  have hview := c.unitView_endProgram p pr
  simp only [Core.unitView, Prod.mk.injEq] at hview
  obtain ⟨htiles, hmap, hops, hmems⟩ := hview
  obtain ⟨hitems, hrecs⟩ := Prod.mk.inj (Core.itemView_endProgram h p)
  refine ⟨(congrArg Part.prog hpart :), (congrArg Part.boundaryWait hpart :), (congrArg Part.step hpart :), hitems, hops, congrArg (·.1) hmems,
    congrArg (·.2.1) hmems, fun l hl t ht => ?_, _, hrecs, rfl, rfl, rfl, rfl, ?_⟩
  · rw [Core.tile_of_tiles htiles, c.tile_emptyTiles hl ht]
    exact ⟨rfl, rfl, rfl⟩
  · rw [show ((c.endProgram p pr).part i.part).revoked = ((c.unloaded p pr).part i.part).revoked from
      (congrArg Part.revoked (c.undrained_endProgram p pr i.part) :)]
    rfl

/-! ### The rules of PROGRAM_END -/

theorem exec_programEnd_none {p : PartId} {s : State} (h : (s.core.part p.val).prog = none) : exec (.programEnd p) s = .next s := by
  show execProgramEnd p s = _
  unfold execProgramEnd
  refine State.on_of_fixed ?_
  simp only [h]

/-- Whether the program of partition `p` can end: it has started or stops, its tiles and operations are done, and a removal that stopped it has
revoked the keys. -/
def Core.canEnd (c : Core) (p : Nat) (pr : Prog) : Bool :=
  (pr.started || pr.stopping) && c.programDone p pr && !(pr.stopping && pr.endStatus == St.KEY_REVOKED && !(c.part p).revoked)

/-- A program that does not stop, or whose step holds no item, ends no held item. -/
theorem Core.endStopped_eq {c : Core} {p : Nat} {pr : Prog} (h : pr.stopping = false ∨ (c.part p).step.items = []) : c.endStopped p pr = c := by
  rw [Core.endStopped, if_neg]
  rcases h with h | h
  · simp only [h, Bool.false_and, Bool.false_eq_true, not_false_eq_true]
  · simp only [h, List.isEmpty_nil, Bool.not_true, Bool.and_false, Bool.false_eq_true, not_false_eq_true]

theorem ite_ite_eq_ite_and_not {α : Type} (a b : Bool) (x y : α) : (if a then y else if b then x else y) = if b && !a then x else y := by
  cases a
  · rw [Bool.not_false, Bool.and_true, if_neg Bool.false_ne_true]
  · rw [Bool.not_true, Bool.and_false, if_pos rfl, if_neg Bool.false_ne_true]

theorem exec_programEnd {p : PartId} {s : State} {pr : Prog} (hprog : (s.core.part p.val).prog = some pr)
    (h : pr.stopping = false ∨ (s.core.part p.val).step.items = []) :
    exec (.programEnd p) s = s.on (fun c => if c.canEnd p.val pr then c.endProgram p.val pr else c) := by
  show execProgramEnd p s = _
  unfold execProgramEnd
  rw [State.on, State.on]
  simp only [hprog, Core.endStopped_eq h, ite_self, Core.canEnd]
  exact congrArg (fun d => Host.Outcome.next { s with core := d }) (ite_ite_eq_ite_and_not _ _ _ _)

theorem answers_programEnd {p : PartId} {s : State} {pr : Prog} {i : Item} (hprog : (s.core.part p.val).prog = some pr)
    (h : pr.stopping = false ∨ (s.core.part p.val).step.items = []) (hend : s.core.canEnd p.val pr = true) (hi : s.core.item? pr.item = some i) :
    Answers s (.programEnd p) (fun c => s.core.endedFrom c p.val pr i) := by
  refine answers_on (exec_programEnd hprog h) ?_
  rw [if_pos hend]
  exact Core.endedFrom_endProgram hi p.val

/-- Settles O41: a start makes the loss-scale state ready and then only sets tiles and the partition; an end empties stashes and ends one item. -/
theorem programLife : Obligations.ProgramLife := by
  intro p s c0 q e
  refine ⟨fun h => ⟨exec_programStart_none h, exec_programEnd_none h⟩, fun pr hprog => ⟨fun hidle => ?_, fun hidle => ?_, fun hheld => ⟨fun hready => ?_, ?_⟩⟩⟩
  · rw [exec_programStart hprog, if_pos hidle]
  · refine (answers_programStart hprog hidle).mono fun c h => ?_
    obtain ⟨hin, hout, hpart, hparts, hdram, hitems, hops, hvalid, hold, hnew⟩ := h
    exact ⟨hin, hout, hpart, hparts, hvalid, hdram, hitems, hops, hold, hnew⟩
  · rw [exec_programEnd hprog hheld]
    exact State.on_of_fixed (if_neg (Bool.not_eq_true _ ▸ hready))
  · intro i hready hi
    exact answers_programEnd hprog hheld hready hi

end Sys2Proof.Machine
end

section
/-! PROOFS. A copy whose time is over after its partition's keys are revoked (R542, R567), and O51. -/

namespace Sys2Proof.Machine

/-- Once the keys are revoked, a copy that something else ends writes nothing more and keeps its INFO (R542). -/
theorem Core.cutCopy_revoked {c : Core} {i : Item} (h : (c.part i.part).revoked = true) : c.cutCopy i = c := by
  rw [Core.cutCopy, h, Bool.not_true, Bool.and_false, if_neg Bool.false_ne_true]

/-- The record that ends a copy of a revoked partition has the INFO that the item holds. -/
theorem Core.itemView_cancelItem_revoked {c : Core} {i : Item} (hkind : i.kind = .copy) (hrev : (c.part i.part).revoked = true)
    (hi : c.item? i.id = some i) (st : Nat) :
    (c.cancelItem i st).itemView = (c.items.filter (fun j => j.id != i.id), c.recs ++ [c.recOf i st]) := by
  rw [Core.cancelItem]
  simp only [hkind]
  rw [Core.cutCopy_revoked hrev, Core.itemView_endItem hi]

theorem exec_itemTimeLimit_due {id : Nat} {i : Item} {s : State} (hi : s.core.item? id = some i) (hkind : i.kind ≠ .op) (hlimit : i.limit ≠ 0)
    (htick : i.openTick + i.limit * Config.ticksPerMs ≤ s.core.tick) :
    exec (.itemTimeLimit id) s = .next { s with
      core := (s.core.evt Cls.item Src.pcie i.part 0x0D09 (i.sq + i.entry * 2 ^ 6 + 2 ^ 23)).cancelItem i St.TIMEOUT } := by
  show execItemTimeLimit id s = _
  rw [execItemTimeLimit, State.on]
  simp only [hi]
  rw [if_neg]
  simp [hkind, hlimit, htick]

/-! ### The counterexample -/

/-- A copy of 100 bytes that runs, as SQ_COPY leaves one that waits for the slow tier: its INFO is its length. Its time limit is 1 ms. -/
def lateCopy : Item := { id := 0, part := 0, kind := .copy, started := true, limit := 1, len := 100, info := 100 }

/-- That copy 1 ms after its fetch, on a device whose partition 0 has its keys revoked. -/
def lateCopyState : State :=
  { State.reset with core := ({ tick := Config.ticksPerMs, items := [lateCopy] } : Core).setPart 0 { revoked := true } }

/-- The device after its time is over. -/
def lateCopyEnded : Core := (lateCopyState.core.evt Cls.item Src.pcie 0 0x0D09 (2 ^ 23)).cancelItem lateCopy St.TIMEOUT

theorem exec_lateCopy : exec (.itemTimeLimit 0) lateCopyState = .next { lateCopyState with core := lateCopyEnded } :=
  exec_itemTimeLimit_due (i := lateCopy) rfl (by decide) (by decide) (by decide)

/-- Its record reports 100 bytes, which is no multiple of 64. -/
theorem info_of_lateCopyEnded {r : Rec} (hr : r ∈ lateCopyEnded.recs) : r.info = 100 := by
  have hview := Core.itemView_cancelItem_revoked (c := lateCopyState.core.evt Cls.item Src.pcie 0 0x0D09 (2 ^ 23)) (i := lateCopy) rfl rfl rfl St.TIMEOUT
  have hrecs : lateCopyEnded.recs = [_] := congrArg Prod.snd hview
  rw [hrecs, List.mem_singleton] at hr
  rw [hr]
  rfl

/-- Refutes O51: a running copy whose partition's keys are revoked is left as it stands, so at its time limit its record reports its 100 bytes and
not a multiple of 64. -/
theorem not_items : ¬ Obligations.Items := by
  intro h
  obtain ⟨-, hitem, -⟩ := h lateCopyState (by decide)
  obtain ⟨-, -, -, -, -, -, -, -, -, htime⟩ := hitem 0 {} lateCopy rfl
  obtain ⟨c, hexec, -, -, -, -, hcopy⟩ := htime ⟨by decide, by decide, by decide⟩
  have hc : lateCopyEnded = c := congrArg State.core (Host.Outcome.next.inj (exec_lateCopy.symm.trans hexec))
  obtain ⟨n, -, hn, -, r, hr, -, -, -, -, -, -, hinfo, -⟩ := hcopy rfl rfl
  have hr100 := info_of_lateCopyEnded (hc.symm ▸ hr)
  omega

end Sys2Proof.Machine
end

section
/-! PROOFS. Scalar arithmetic, comparisons and predicates (R130, R195, R196, R198), O1. -/

namespace Sys2Proof.Machine

section
variable {s : State} {x : SArgs} {i : Instr} {op : SOp}

theorem Tile.setPr_others (y : Tile) (d : Nat) (v : Bool) : { y.setPr d v with p := y.p } = y := by
  unfold Tile.setPr
  split <;> rfl

/-- A sequencer past an instruction that writes g[d]. -/
theorem Core.seqTo.putsG {c c' : Core} {x : SArgs} {v : Word}
    (h : c.seqTo c' x.tile.val { (c.tile x.tile.val).setGr x.d.val v with pc := ((c.tile x.tile.val).pc + wideLen x.wide) % 2 ^ 22 }) :
    c.putsG c' x v := by
  refine ⟨h.retired rfl, ?_⟩
  rw [h.2.2]
  exact ⟨fun n => Tile.gr_setGr (c.tile x.tile.val) x.d.val n v,
    congrArg (fun y : Tile => { y with pc := (c.tile x.tile.val).pc }) (Tile.setGr_others (c.tile x.tile.val) x.d.val v)⟩

/-- A sequencer past an instruction that writes p[d]. -/
theorem Core.seqTo.putsP {c c' : Core} {x : SArgs} {v : Bool}
    (h : c.seqTo c' x.tile.val { (c.tile x.tile.val).setPr x.d.val v with pc := ((c.tile x.tile.val).pc + wideLen x.wide) % 2 ^ 22 }) :
    c.putsP c' x v := by
  refine ⟨h.retired rfl, ?_⟩
  rw [h.2.2]
  exact ⟨fun n hn => Tile.pr_setPr (c.tile x.tile.val) v hn,
    congrArg (fun y : Tile => { y with pc := (c.tile x.tile.val).pc }) (Tile.setPr_others (c.tile x.tile.val) x.d.val v)⟩

/-- An instruction of the scalar unit that is taken writes g[d]. -/
theorem alu_answers {f : Word → Word → Word} (hexec : exec i s = s.on (fun c => c.alu x op f)) (ht : s.core.takesS x op = true) :
    Answers s i (fun c => s.core.onlySeq c x.tile.val ∧
      s.core.putsG c x (f ((s.core.tile x.tile.val).gr x.a.val) ((s.core.tile x.tile.val).gr x.b.val + x.immWord))) := by
  have hseq := ((s.core.seqTo_atIssue x.tile.val).setTile ((s.core.tile x.tile.val).setGr x.d.val
    (f ((s.core.tile x.tile.val).gr x.a.val) (x.bOp (s.core.tile x.tile.val))))).advance (wideLen x.wide)
  rw [Tile.setGr_pc] at hseq
  exact answers_seqTo hexec ht rfl hseq fun c h => ⟨h.1, h.putsG⟩

/-- A comparison that is taken writes p[d]. -/
theorem compare_answers {f : Word → Word → Bool} (hexec : exec i s = s.on (fun c => c.compare x op f)) (ht : s.core.takesS x op = true) :
    Answers s i (fun c => s.core.onlySeq c x.tile.val ∧
      s.core.putsP c x (f ((s.core.tile x.tile.val).gr x.a.val) ((s.core.tile x.tile.val).gr x.b.val + x.immWord))) := by
  have hseq := ((s.core.seqTo_atIssue x.tile.val).setTile ((s.core.tile x.tile.val).setPr x.d.val
    (f ((s.core.tile x.tile.val).gr x.a.val) (x.bOp (s.core.tile x.tile.val))))).advance (wideLen x.wide)
  rw [Tile.setPr_pc] at hseq
  exact answers_seqTo hexec ht rfl hseq fun c h => ⟨h.1, h.putsP⟩

/-- A predicate instruction, which has no wide form, writes p[d]. -/
theorem predicate_answers {f : Bool → Bool → Bool} (hexec : exec i s = s.on (fun c => c.predicate x op f)) (ht : s.core.takesS x op = true)
    (hop : op.wideOk = false) :
    Answers s i (fun c => s.core.onlySeq c x.tile.val ∧
      s.core.putsP c x (f ((s.core.tile x.tile.val).pr x.a.val) ((s.core.tile x.tile.val).pr x.b.val))) := by
  have hlen : wideLen x.wide = 8 := by rw [Core.wide_of_takesS ht hop]; rfl
  have hseq := ((s.core.seqTo_atIssue x.tile.val).setTile ((s.core.tile x.tile.val).setPr x.d.val
    (f ((s.core.tile x.tile.val).pr x.a.val) ((s.core.tile x.tile.val).pr x.b.val)))).advance 8
  rw [Tile.setPr_pc, ← hlen] at hseq
  exact answers_seqTo hexec ht (by rw [hlen]; rfl) hseq fun c h => ⟨h.1, h.putsP⟩

end

/-! ### The rows -/

/-- The command of a row of the scalar unit runs the row's function through its unit. -/
theorem aluRows_exec (x : SArgs) (s : State) : ∀ r ∈ aluRows x, exec r.1 s = s.on (fun c => c.alu x r.2.1 r.2.2) := by
  have hmins : exec (.mins x) s = s.on (fun c => c.alu x .MINS (fun a b => if a.toInt < b.toInt then a else b)) := by
    show execMins x s = _
    simp only [execMins, BitVec.slt_iff_toInt_lt]
  have hmaxs : exec (.maxs x) s = s.on (fun c => c.alu x .MAXS (fun a b => if a.toInt < b.toInt then b else a)) := by
    show execMaxs x s = _
    simp only [execMaxs, BitVec.slt_iff_toInt_lt]
  exact List.forall_iff_forall_mem.mp ⟨rfl, rfl, rfl, rfl, rfl, rfl, rfl, rfl, rfl, rfl, rfl, hmins, hmaxs⟩

theorem compareRows_exec (x : SArgs) (s : State) : ∀ r ∈ compareRows x, exec r.1 s = s.on (fun c => c.compare x r.2.1 r.2.2) := by
  have hrel : ∀ {f g : Word → Word → Bool} (op : SOp), (∀ a b, f a b = g a b) →
      s.on (fun c => c.compare x op f) = s.on (fun c => c.compare x op g) := fun _ h => by rw [funext₂ h]
  refine List.forall_iff_forall_mem.mp ⟨hrel .CMPEQ fun a b => ?_, hrel .CMPNE fun a b => ?_, rfl, rfl, hrel .CMPGE fun a b => ?_,
    hrel .CMPGEU fun a b => ?_⟩
  · exact beq_eq_decide a b
  · rw [bne, beq_eq_decide]; exact decide_not.symm
  · simp [BitVec.slt, ← decide_not]
  · simp [BitVec.ult, ← decide_not]

theorem predicateRows_exec (x : SArgs) (s : State) :
    ∀ r ∈ predicateRows x, exec r.1 s = s.on (fun c => c.predicate x r.2.1 r.2.2) ∧ r.2.1.wideOk = false := by
  exact List.forall_iff_forall_mem.mp ⟨⟨rfl, rfl⟩, ⟨rfl, rfl⟩, ⟨rfl, rfl⟩⟩

/-- Settles O1: every row's command is one update of its tile's sequencer. -/
theorem scalarInstructions : Obligations.ScalarInstructions :=
  ⟨fun x s _ _ _ hrow ht => alu_answers (aluRows_exec x s _ hrow) ht,
    fun x s _ _ _ hrow ht => compare_answers (compareRows_exec x s _ hrow) ht,
    fun x s _ _ _ hrow ht => predicate_answers (predicateRows_exec x s _ hrow).1 ht (predicateRows_exec x s _ hrow).2⟩

end Sys2Proof.Machine
end

section
/-! PROOFS. EVENT and CQPOST (R228, R229, R568, R570), O6. -/

namespace Sys2Proof.Machine

/-- The record that CQPOST asks for (R228, R568). -/
def Core.cqpostRecord (c : Core) (x : SArgs) : Rec :=
  let y := c.tile x.tile.val
  { part := (c.who x.tile.val).2, cq := bits x.imm.toNat 5 0, tag := (y.gr x.b.val).toNat, status := (y.gr x.a.val).toNat % 65536, sq := 0
    origin := 2, ltile := (c.who x.tile.val).1, entry := 0, info := 0, ts := c.ts }

/-- The device once a record of partition p waits; the partition's peak follows (R568). -/
def Core.recWaits (c : Core) (p : Nat) (r : Rec) : Core :=
  let c : Core := { c with recs := c.recs ++ [r] }
  c.peak Regs.HIF_RECORDS_PEAK p (c.slotsUsed p)

section
variable {c : Core} {s : State} {x : SArgs} {t : Nat}

theorem Core.recWaits_view (c : Core) (p : Nat) (r : Rec) :
    (c.recWaits p r).recs = c.recs ++ [r] ∧ (c.recWaits p r).items = c.items ∧ (c.recWaits p r).evtBuf = c.evtBuf ∧
      (c.recWaits p r).parts = c.parts ∧ (c.recWaits p r).tiles = c.tiles :=
  ⟨Core.wf_recs _ _ _ _, Core.wf_items _ _ _ _, Core.wf_evtBuf _ _ _ _, Core.wf_parts _ _ _ _, Core.wf_tiles _ _ _ _⟩

theorem Core.rf_instrCount_recWaits (c : Core) (t p : Nat) (r : Rec) :
    (c.recWaits p r).rf Regs.TILE_INSTR_COUNT_COUNT t = c.rf Regs.TILE_INSTR_COUNT_COUNT t :=
  Core.rf_wf_apart (c := { c with recs := c.recs ++ [r] }) (f := Regs.HIF_RECORDS_PEAK) p t _ (by decide)

/-! ### The two instructions when they are taken -/

/-- EVENT with a code of the program's range posts it and moves on. -/
theorem event_posts (ht : s.core.takesS x .EVENT = true) (hv : 0x8000 ≤ ((s.core.tile x.tile.val).gr x.a.val).toNat % 65536) {P : Core → Prop}
    (hP : P (((s.core.atIssue x.tile.val).evt Cls.info (Src.part (s.core.who x.tile.val).2) (s.core.who x.tile.val).2
      (((s.core.tile x.tile.val).gr x.a.val).toNat % 65536) ((s.core.tile x.tile.val).gr x.b.val).toNat
      ((s.core.tile x.tile.val).gr x.d.val).toNat).advance x.tile.val 8)) : Answers s (.event x) P := by
  have hseq := s.core.seqTo_atIssue x.tile.val
  refine answers_scalar rfl ht ?_
  simp only [hseq.who, hseq.2.2, if_neg (Nat.not_lt.mpr hv)]
  exact hP

theorem event_faults (ht : s.core.takesS x .EVENT = true) (hv : ((s.core.tile x.tile.val).gr x.a.val).toNat % 65536 < 0x8000) :
    Answers s (.event x) (fun c => s.core.faults c x.tile.val 5 St.LENGTH 0xC6) := by
  have hseq := s.core.seqTo_atIssue x.tile.val
  refine answers_scalar rfl ht ?_
  simp only [hseq.who, hseq.2.2, if_pos hv]
  exact hseq.faults (Core.canIssue_of_takesS ht) rfl rfl 5 St.LENGTH 0xC6

/-- What CQPOST does once it is counted (R228, R229, R568, R570). -/
def Core.cqpost (c : Core) (x : SArgs) : Core :=
  let r := c.cqpostRecord x
  if r.status < 0x8000 then c.programFault x.tile.val 5 St.LENGTH 0xC7
  else if !c.flag Regs.HIF_CQ_CFG_ENABLE (qi r.part r.cq) then c.programFault x.tile.val 5 St.BOUNDS 0xC7
  else if c.slotsUsed r.part = 4096 then c
  else (c.recWaits r.part r).advance x.tile.val 8

/-- Counting the instruction changes no record that CQPOST asks for. -/
theorem Core.cqpostRecord_atIssue (c : Core) (x : SArgs) : (c.atIssue x.tile.val).cqpostRecord x = c.cqpostRecord x := by
  have hseq := c.seqTo_atIssue x.tile.val
  have hts : (c.atIssue x.tile.val).ts = c.ts := rfl
  simp only [Core.cqpostRecord, hseq.who, hseq.2.2, hts]

theorem Core.slotsUsed_atIssue (c : Core) (t p : Nat) : (c.atIssue t).slotsUsed p = c.slotsUsed p := rfl

/-- Moving the pc past an instruction that was counted, on a device that differs from the issue in no tile and no count. -/
theorem Core.retired_advance {d : Core} {len : Nat} (hcount : d.rf Regs.TILE_INSTR_COUNT_COUNT t = (c.atIssue t).rf Regs.TILE_INSTR_COUNT_COUNT t)
    (htiles : d.tiles = c.tiles) :
    c.retired (d.advance t len) t len ∧ { (d.advance t len).tile t with pc := (c.tile t).pc } = c.tile t ∧
      ∀ u, u ≠ t → (d.advance t len).tile u = c.tile u := by
  have htile := Core.tile_of_tiles htiles
  refine ⟨⟨?_, by rw [Core.tile_advance_pc, htile]⟩, by rw [Core.tile_advance, htile], fun u hu => by rw [Core.tile_advance_other _ _ hu, htile]⟩
  rw [Core.counted, Core.advance, Core.setTile_rf, hcount]
  exact (c.seqTo_atIssue t).2.1

section
variable {r : Rec} (ht : s.core.takesS x .CQPOST = true) (hr : s.core.cqpostRecord x = r)
include ht hr

/-- CQPOST when it is taken, by the record it asks for. -/
theorem answers_cqpost {P : Core → Prop}
    (hP : P (if r.status < 0x8000 then (s.core.atIssue x.tile.val).programFault x.tile.val 5 St.LENGTH 0xC7
      else if !s.core.flag Regs.HIF_CQ_CFG_ENABLE (qi r.part r.cq) then
        (s.core.atIssue x.tile.val).programFault x.tile.val 5 St.BOUNDS 0xC7
      else if s.core.slotsUsed r.part = 4096 then s.core.atIssue x.tile.val
      else ((s.core.atIssue x.tile.val).recWaits r.part r).advance x.tile.val 8)) : Answers s (.cqpost x) P := by
  refine answers_scalar (body := fun c => c.cqpost x) rfl ht ?_
  simpa only [Core.cqpost, Core.cqpostRecord_atIssue, Core.flag_cqEnable_atIssue, Core.slotsUsed_atIssue, hr] using hP

theorem cqpost_posts (hv : 0x8000 ≤ r.status) (hon : s.core.rf Regs.HIF_CQ_CFG_ENABLE (qi r.part r.cq) = 1)
    (hfree : s.core.slotsUsed r.part ≠ 4096) :
    Answers s (.cqpost x) (fun c => s.core.retired c x.tile.val 8 ∧
      { c.tile x.tile.val with pc := (s.core.tile x.tile.val).pc } = s.core.tile x.tile.val ∧ c.recs = s.core.recs ++ [r] ∧
      c.items = s.core.items ∧ c.evtBuf = s.core.evtBuf ∧ c.parts = s.core.parts ∧ ∀ u, u ≠ x.tile.val → c.tile u = s.core.tile u) := by
  have hflag : s.core.flag Regs.HIF_CQ_CFG_ENABLE (qi r.part r.cq) = true := (Core.flag_eq_true _ _).mpr hon
  refine answers_cqpost ht hr ?_
  rw [if_neg (Nat.not_lt.mpr hv), hflag, if_neg (by decide), if_neg hfree]
  obtain ⟨hrecs, hitems, hevt, hparts, htiles⟩ := (s.core.atIssue x.tile.val).recWaits_view r.part r
  have hcount := (s.core.atIssue x.tile.val).rf_instrCount_recWaits x.tile.val r.part r
  obtain ⟨hret, hsame, hothers⟩ := Core.retired_advance (len := 8) hcount htiles
  exact ⟨hret, hsame, hrecs, hitems, hevt, hparts, hothers⟩

theorem cqpost_faults {st : Nat} (h : (r.status < 0x8000 ∧ st = St.LENGTH) ∨
      (0x8000 ≤ r.status ∧ s.core.rf Regs.HIF_CQ_CFG_ENABLE (qi r.part r.cq) ≠ 1 ∧ st = St.BOUNDS)) :
    Answers s (.cqpost x) (fun c => s.core.faults c x.tile.val 5 st 0xC7) := by
  have hfault := (s.core.seqTo_atIssue x.tile.val).faults (Core.canIssue_of_takesS ht) rfl rfl 5 st 0xC7
  refine answers_cqpost ht hr ?_
  rcases h with ⟨hv, rfl⟩ | ⟨hv, hoff, rfl⟩
  · rw [if_pos hv]
    exact hfault
  · have hflag : s.core.flag Regs.HIF_CQ_CFG_ENABLE (qi r.part r.cq) = false := beq_eq_false_iff_ne.mpr hoff
    rw [if_neg (Nat.not_lt.mpr hv), hflag, if_pos (by decide)]
    exact hfault

end

end

/-- Settles O6: each outcome is one branch of the two instructions. -/
theorem eventAndCqpost : Obligations.EventAndCqpost := by
  intro x s t y l p v q
  refine ⟨fun ht => ⟨fun hv => event_posts ht hv ?_, event_faults ht⟩, fun ht => ⟨fun hv hon hfree => cqpost_posts ht rfl hv hon hfree,
    fun hv => cqpost_faults ht rfl (.inl ⟨hv, rfl⟩), fun hv hoff => cqpost_faults ht rfl (.inr ⟨hv, hoff, rfl⟩)⟩⟩
  obtain ⟨hret, hsame, hothers⟩ := Core.retired_advance (c := s.core) (d := (s.core.atIssue t).evt Cls.info (Src.part p) p v
    (y.gr x.b.val).toNat (y.gr x.d.val).toNat) (t := t) (len := 8) rfl rfl
  refine ⟨hret, hsame, ?_, rfl, rfl, hothers⟩
  show s.core.evtBuf ++ [_] = _
  rw [Nat.mod_eq_of_lt (BitVec.isLt _), Nat.mod_eq_of_lt (BitVec.isLt _)]

end Sys2Proof.Machine
end

section
/-! PROOFS. Registers of arrays with fine strides: the addresses of a register modulo a number lie in a window, and registers with windows
apart share no address. -/

namespace Sys2Proof.Machine

/-- How far the instances of an array reach past its first, strides that are multiples of `m` set aside. -/
def Reg.reach (m : Nat) (dims : List (Nat × Nat)) : Nat := (dims.map (fun d => if d.2 % m = 0 then 0 else (d.1 - 1) * d.2)).sum

/-- The addresses of a register modulo `m` do not pass `m`. -/
def Reg.windowed (m : Nat) (r : Reg) : Bool := r.dims.all (fun d => decide (0 < d.1)) && decide (r.base % m + Reg.reach m r.dims < m)

/-- Modulo `m` one of two registers lies below the other. -/
def Reg.clear (m : Nat) (r q : Reg) : Bool :=
  Reg.windowed m r && Reg.windowed m q &&
    (decide (r.base % m + Reg.reach m r.dims < q.base % m) || decide (q.base % m + Reg.reach m q.dims < r.base % m))

theorem Reg.offsetOf_reach (m : Nat) {dims : List (Nat × Nat)} (h : ∀ d ∈ dims, 0 < d.1) (i : Nat) :
    ∃ k e, Reg.offsetOf dims i = m * k + e ∧ e ≤ Reg.reach m dims := by
  induction dims generalizing i with
  | nil => exact ⟨0, 0, rfl, le_refl _⟩
  | cons d r ih =>
    obtain ⟨k, e, hk, he⟩ := ih (fun d hd => h d (List.mem_cons_of_mem _ hd)) (i / d.1)
    have hlt : i % d.1 ≤ d.1 - 1 := Nat.le_sub_one_of_lt (Nat.mod_lt _ (h d List.mem_cons_self))
    simp only [Reg.offsetOf, hk, Reg.reach, List.map_cons, List.sum_cons]
    by_cases hm : d.2 % m = 0
    · obtain ⟨s, hs⟩ := Nat.dvd_of_mod_eq_zero hm
      exact ⟨i % d.1 * s + k, e, by rw [hs]; ring, by rw [if_pos hm, Nat.zero_add]; exact he⟩
    · exact ⟨k, i % d.1 * d.2 + e, by ring, by rw [if_neg hm]; exact Nat.add_le_add (Nat.mul_le_mul_right _ hlt) he⟩

theorem Reg.at_window {m : Nat} {r : Reg} (h : Reg.windowed m r = true) (i : Nat) :
    r.base % m ≤ r.at i % m ∧ r.at i % m ≤ r.base % m + Reg.reach m r.dims := by
  simp only [Reg.windowed, Bool.and_eq_true, List.all_eq_true, decide_eq_true_eq] at h
  obtain ⟨hdims, hlt⟩ := h
  obtain ⟨k, e, hk, he⟩ := Reg.offsetOf_reach m hdims i
  have hmod : r.at i % m = r.base % m + e := by
    rw [Reg.at, hk, show r.base + (m * k + e) = r.base + e + m * k by ring, Nat.add_mul_mod_self_left, ← Nat.mod_add_mod]
    exact Nat.mod_eq_of_lt (by omega)
  omega

theorem Reg.at_ne_of_clear {m : Nat} {r q : Reg} (h : Reg.clear m r q = true) (i j : Nat) : r.at i ≠ q.at j := by
  simp only [Reg.clear, Bool.and_eq_true, Bool.or_eq_true, decide_eq_true_eq] at h
  obtain ⟨⟨hr, hq⟩, hdisj⟩ := h
  have hri := Reg.at_window hr i
  have hqj := Reg.at_window hq j
  intro heq
  rw [heq] at hri
  omega

end Sys2Proof.Machine
end

section
/-! PROOFS. What reaching bytes of memory leaves: banks wake, replays count (R332, R338, R362); the places of bytes, the sequencers, the items
and the events stay. -/

namespace Sys2Proof.Machine

/-- The registers that say where a byte of a space lies and who owns it, and the count of instructions. -/
def mapRegs : List Reg :=
  [Regs.PART_STATE, Regs.PART_TILE_GROUPS, Regs.MEM_GRANULE_OWNER, Regs.TILE_BANK_MAP, Regs.TILE_INSTR_COUNT]

/-- The counters of wakes and replays. -/
def replayRegs : List Reg :=
  [Regs.TILE_BANK_WAKES, Regs.TILE_BANK_ERRS, Regs.TILE_PAR_REPLAYS, Regs.TILE_PAR_CORRECTED, Regs.TILE_LAST_ERR, Regs.MEM_EDC_REPLAYS,
    Regs.MEM_PAR_REPLAYS, Regs.MEM_CORRECTED, Regs.MEM_LAST_ERR]

theorem replayRegs_clear : ∀ r ∈ replayRegs, ∀ q ∈ Regs.TILE_BANK_STATE :: mapRegs, ∃ m ∈ [0x1000, 0x10000, 0x800000], Reg.clear m q r = true := by
  decide

theorem bankState_clear : ∀ q ∈ mapRegs, ∃ m ∈ [0x1000, 0x800000], Reg.clear m q Regs.TILE_BANK_STATE = true := by decide

/-- A bank that an access finds powered. -/
def Core.awake (c : Core) (t b : Nat) : Prop := c.bankState t b ≠ bkOFF ∧ c.bankState t b ≠ bkRETAIN

/-- The tile map, the items and records, the events, the sequencers and the operations. -/
def Core.fixedView (c : Core) : SMap (Option Nat) × List Item × List Rec × List Evt × SMap Tile × SMap Part × List AOp × Nat :=
  (c.map, c.items, c.recs, c.evtBuf, c.seqView)

/-- From `c` to `c'` banks may have woken and replays may have counted. -/
def Core.reaches (c c' : Core) : Prop :=
  c'.fixedView = c.fixedView ∧ (∀ r ∈ mapRegs, ∀ i, c'.rd r i = c.rd r i) ∧ ∀ t b, b < 24 → c.awake t b → c'.awake t b

section
variable {a b c : Core}

theorem Core.reaches.refl (c : Core) : c.reaches c := ⟨rfl, fun _ _ _ => rfl, fun _ _ _ h => h⟩

theorem Core.reaches.trans (h : a.reaches b) (h' : b.reaches c) : a.reaches c :=
  ⟨h'.1.trans h.1, fun r hr i => (h'.2.1 r hr i).trans (h.2.1 r hr i), fun t k hk ha => h'.2.2 t k hk (h.2.2 t k hk ha)⟩

theorem Core.reaches.ite {P : Prop} [Decidable P] (h : c.reaches a) (h' : c.reaches b) : c.reaches (if P then a else b) := by
  split
  · exact h
  · exact h'

theorem Core.reaches_threadAll {β : Type} {f : Core → β → Core} (h : ∀ c x, Core.reaches c (f c x)) (l : List β) (c : Core) :
    c.reaches (threadAll f c l) :=
  threadAll_inv (fun a => c.reaches a) (fun a x ha => ha.trans (h a x)) l c (.refl c)

/-- A device with the registers of `c`. -/
theorem Core.reaches.of_regs (hv : a.fixedView = c.fixedView) (hr : a.regs = c.regs) : c.reaches a := by
  refine ⟨hv, fun r _ i => Core.rd_of_regs hr r i, fun t k _ h => ?_⟩
  rwa [Core.awake, Core.bankState, Core.rf_of_regs hr]

theorem Core.reaches_wr (c : Core) {r : Reg} (hr : r ∈ replayRegs) (i v : Nat) : c.reaches (c.wr r i v) := by
  have hrd : ∀ q ∈ Regs.TILE_BANK_STATE :: mapRegs, ∀ j, (c.wr r i v).rd q j = c.rd q j := fun q hq j => by
    obtain ⟨m, -, hclear⟩ := replayRegs_clear r hr q hq
    exact c.rd_wr_other v (Reg.at_ne_of_clear hclear j i)
  have hstate : ∀ t, (c.wr r i v).rf Regs.TILE_BANK_STATE_STATE t = c.rf Regs.TILE_BANK_STATE_STATE t := fun t =>
    congrArg (bits · _ _) (hrd _ List.mem_cons_self t)
  refine ⟨rfl, fun q hq j => hrd q (List.mem_cons_of_mem _ hq) j, fun t k _ h => ?_⟩
  rwa [Core.awake, Core.bankState, hstate]

theorem Core.reaches_wf (c : Core) {f : Fld} (hf : f.reg ∈ replayRegs) (i v : Nat) : c.reaches (c.wf f i v) := c.reaches_wr hf i _

theorem Core.reaches_count (c : Core) {f : Fld} (hf : f.reg ∈ replayRegs) (i n : Nat) : c.reaches (c.count f i n) := c.reaches_wf hf i _

/-! ### Bank states -/

theorem bits_mod {n hi lo k : Nat} (h : hi < k) : bits (n % 2 ^ k) hi lo = bits n hi lo := by
  apply Nat.eq_of_testBit_eq
  intro j
  rw [testBit_bits, testBit_bits, Nat.testBit_mod_two_pow]
  by_cases hj : j < hi + 1 - lo
  · simp [show lo + j < k by omega]
  · simp [hj]

theorem Core.rf_congr_at (c : Core) {f : Fld} {i j : Nat} (h : f.reg.at i = f.reg.at j) : c.rf f i = c.rf f j := by
  unfold Core.rf Core.rd
  rw [h]

theorem Core.bankState_setBankState (c : Core) {t b t' b' v : Nat} (hb : b < 24) :
    (c.setBankState t' b' v).bankState t b =
      if Regs.TILE_BANK_STATE.at t = Regs.TILE_BANK_STATE.at t' ∧ b = b' then v % 4 else c.bankState t b := by
  have hok : Regs.TILE_BANK_STATE_STATE.ok = true := by decide
  unfold Core.bankState Core.setBankState
  by_cases hat : Regs.TILE_BANK_STATE.at t = Regs.TILE_BANK_STATE.at t'
  · rw [Core.rf_congr_at _ (f := Regs.TILE_BANK_STATE_STATE) hat, c.rf_congr_at (f := Regs.TILE_BANK_STATE_STATE) hat, c.rf_wf_same _ _ _ hok,
      show Regs.TILE_BANK_STATE_STATE.hi + 1 - Regs.TILE_BANK_STATE_STATE.lo = 48 from rfl, bits_mod (by omega)]
    by_cases hbb : b = b'
    · subst hbb
      rw [if_pos ⟨hat, rfl⟩, bits_setBits_same _ _ _ _ (by omega), show 2 * b + 1 + 1 - 2 * b = 2 by omega, show 2 ^ 2 = 4 from rfl]
    · rw [if_neg (fun h => hbb h.2), bits_setBits_beside _ _ _ _ _ _ (by omega) (by omega)]
  · rw [if_neg (fun h => hat h.1), c.rf_wf_other _ hat]

/-- A bank written a state in which it is powered stays powered, as does every other. -/
theorem Core.awake_setBankState (c : Core) {t b t' b' v : Nat} (hb : b < 24) (hv : v = bkCLEARING ∨ v = bkON)
    (h : (t = t' ∧ b = b') ∨ c.awake t b) : (c.setBankState t' b' v).awake t b := by
  unfold Core.awake
  rw [c.bankState_setBankState hb]
  split
  · rcases hv with rfl | rfl <;> decide
  next hne =>
    rcases h with ⟨rfl, rfl⟩ | h
    · exact absurd ⟨rfl, rfl⟩ hne
    · exact h

theorem Core.reaches_setBankState (c : Core) (t b : Nat) {v : Nat} (hv : v = bkCLEARING ∨ v = bkON) : c.reaches (c.setBankState t b v) := by
  refine ⟨rfl, fun q hq j => ?_, fun u k hk h => c.awake_setBankState hk hv (.inr h)⟩
  obtain ⟨m, -, hclear⟩ := bankState_clear q hq
  exact c.rd_wr_other _ (Reg.at_ne_of_clear hclear j t)

/-- Waking a bank leaves it powered (R338, R341). -/
theorem Core.wakeBank_reaches (c : Core) (t b : Nat) : c.reaches (c.wakeBank t b) ∧ (b < 24 → (c.wakeBank t b).awake t b) := by
  unfold Core.wakeBank
  dsimp only
  split
  · have hset := (Core.reaches.of_regs rfl rfl).trans ((c.clearBank t (c.physBank t b)).reaches_setBankState t b (.inl rfl))
    have hrest := (((c.clearBank t (c.physBank t b)).setBankState t b bkCLEARING).reaches_count
      (f := Regs.TILE_BANK_WAKES_COUNT) (by decide) t 1).trans (Core.reaches_wr _ (r := Regs.TILE_BANK_ERRS) (by decide)
        (3 * t + b / 8) (setBits (c.rd Regs.TILE_BANK_ERRS (3 * t + b / 8)) (8 * (b % 8) + 7) (8 * (b % 8)) 0))
    exact ⟨hset.trans hrest, fun hb => hrest.2.2 t b hb (Core.awake_setBankState _ hb (.inl rfl) (.inl ⟨rfl, rfl⟩))⟩
  · split
    · have hrest := (c.setBankState t b bkON).reaches_count (f := Regs.TILE_BANK_WAKES_COUNT) (by decide) t 1
      exact ⟨(c.reaches_setBankState t b (.inr rfl)).trans hrest,
        fun hb => hrest.2.2 t b hb (c.awake_setBankState hb (.inr rfl) (.inl ⟨rfl, rfl⟩))⟩
    next hoff hret => exact ⟨.refl c, fun _ => ⟨hoff, hret⟩⟩

/-! ### Replays -/

theorem Core.reaches_bankErr (c : Core) (t b : Nat) : c.reaches (c.bankErr t b).2 := by
  unfold Core.bankErr
  exact c.reaches_wr (by decide) _ _

theorem Core.reaches_wordCounted (c : Core) (t o n : Nat) : c.reaches (c.wordCounted t o n) := by
  unfold Core.wordCounted
  refine Core.reaches.trans ?_ (Core.reaches_wr _ (by decide) _ _)
  refine Core.reaches.trans ?_ (Core.reaches_count _ (by decide) _ _)
  exact (c.reaches_bankErr _ _).trans (Core.reaches_count _ (by decide) _ _)

theorem Core.reaches_swapDue (c : Core) (q : List (Nat × Nat)) : c.reaches { c with swapDue := q } := .of_regs rfl rfl

theorem Core.reaches_wordCorrected (c : Core) (t o n : Nat) : c.reaches (c.wordCorrected t o n) := by
  rw [Core.wordCorrected_eq]
  exact .ite ((c.reaches_wordCounted t o n).trans (Core.reaches_swapDue _ _)) (c.reaches_wordCounted t o n)

theorem Core.reaches_askRetire (c : Core) (h k : Nat) : c.reaches (c.askRetire h k) := .ite (.refl c) (.of_regs rfl rfl)

theorem Core.reaches_fresh (c : Core) : c.reaches c.fresh.2 := .of_regs rfl rfl

theorem Core.reaches_corrTicks (c : Core) (m : SMap (List Nat)) : c.reaches { c with corrTicks := m } := .of_regs rfl rfl

theorem Core.reaches_countReplays (c : Core) (h edc par : Nat) : c.reaches (c.countReplays h edc par) :=
  (c.reaches_count (f := Regs.MEM_EDC_REPLAYS_COUNT) (by decide) h edc).trans
    (Core.reaches_count _ (f := Regs.MEM_PAR_REPLAYS_COUNT) (by decide) h par)

theorem Core.reaches_lineCorrected (c : Core) (a edc par : Nat) : c.reaches (c.lineCorrected a edc par) := by
  have hcount : ∀ w, c.reaches (((c.fresh.2.countReplays (c.serves a).1 edc par).count Regs.MEM_CORRECTED_COUNT (c.serves a).1).wr
      Regs.MEM_LAST_ERR (c.serves a).1 w) := fun w =>
    ((c.reaches_fresh.trans (Core.reaches_countReplays _ _ _ _)).trans
      (Core.reaches_count _ (f := Regs.MEM_CORRECTED_COUNT) (by decide) _ 1)).trans (Core.reaches_wr _ (r := Regs.MEM_LAST_ERR) (by decide) _ w)
  exact .ite (((hcount _).trans (Core.reaches_corrTicks _ _)).trans (Core.reaches_askRetire _ _ _))
    ((hcount _).trans (Core.reaches_corrTicks _ _))

theorem Core.reaches_replayed (c : Core) (acc : List (Place × Nat)) (env : MemEnv) : c.reaches (c.replayed acc env) := by
  refine (Core.reaches_threadAll (fun c e => ?_) env.scratchReplayed c).trans (Core.reaches_threadAll (fun c e => ?_) env.dramReplayed _)
  · dsimp only
    split
    · exact c.reaches_wordCorrected _ _ _
    · exact .refl c
  · exact .ite (c.reaches_lineCorrected _ _ _) (.refl c)

/-! ### The bytes of a scalar access -/

/-- Wake the bank of a scratchpad byte. -/
def Core.wakePlace (c : Core) (q : Place) : Core := match q with | .scratch t o => c.wakeBank t (o / bankBytes) | _ => c

theorem Core.wakePlaces_eq (c : Core) (ps : List Place) : c.wakePlaces ps = threadAll Core.wakePlace c ps := rfl

theorem Core.reaches_wakePlace (c : Core) (q : Place) : c.reaches (c.wakePlace q) := by
  cases q with
  | scratch t o => exact (c.wakeBank_reaches t (o / bankBytes)).1
  | view | host | flash | remote | nowhere => exact .refl c

/-- The places are woken one after the other, and each stays awake. -/
theorem Core.awake_wakePlaces (c : Core) {ps : List Place} {t o : Nat} (h : .scratch t o ∈ ps) (ho : o < 0x300000) :
    (c.wakePlaces ps).awake t (o / bankBytes) := by
  have hb : o / bankBytes < 24 := Nat.div_lt_of_lt_mul ho
  exact threadAll_reach (P := fun _ => True) (Q := fun b : Core => b.awake t (o / bankBytes)) (fun _ _ _ _ => trivial)
    (fun b q _ _ hq => (b.reaches_wakePlace q).2.2 _ _ hb hq) h (fun b _ => (b.wakeBank_reaches t (o / bankBytes)).2 hb) c trivial

section
variable (c : Core) (x : SArgs) (n : Nat) (write : Bool)

theorem Core.reaches_reached : c.reaches (c.reached x n write) :=
  (Core.reaches_threadAll (fun c q => c.reaches_wakePlace q) _ c).trans (Core.reaches_replayed _ _ _)

theorem Core.awake_reached {t o : Nat} (h : .scratch t o ∈ c.bytePlaces x n) (ho : o < 0x300000) :
    (c.reached x n write).awake t (o / bankBytes) :=
  (Core.reaches_replayed _ _ _).2.2 _ _ (Nat.div_lt_of_lt_mul ho) (c.awake_wakePlaces h ho)

end

/-! ### Where bytes lie -/

theorem Core.reaches.owners (h : a.reaches b) : a.sameOwners b := fun p => ⟨h.2.1 _ (by decide) p, h.2.1 _ (by decide) p⟩

theorem Core.reaches.map (h : a.reaches b) : b.map = a.map := congrArg (·.1) h.1

theorem Core.reaches.umbraPhys (h : a.reaches b) (p o : Nat) : b.umbraPhys p o = a.umbraPhys p o := by
  unfold Core.umbraPhys Core.umbraPlace Core.phys
  rw [h.owners.groups, h.map]

/-- Reaching bytes moves none, row tables aside, which lie in memory themselves. -/
theorem Core.reaches.place (h : a.reaches b) {addr : Nat} (h5 : bits addr 63 60 ≠ 5) (p l o : Nat) : b.place p l addr o = a.place p l addr o := by
  unfold Core.place Core.phys
  rw [h.map, h.umbraPhys]
  split
  case h_6 heq => exact absurd heq h5
  all_goals rfl

theorem Core.reaches.viewToDpa (h : a.reaches b) (p o : Nat) : b.viewToDpa p o = a.viewToDpa p o := by
  have hrf : ∀ f : Fld, f.reg = Regs.MEM_GRANULE_OWNER → ∀ i, b.rf f i = a.rf f i := fun f hf i => by
    rw [Core.rf, Core.rf, hf, h.2.1 _ (by decide)]
  unfold Core.viewToDpa
  simp only [hrf Regs.MEM_GRANULE_OWNER_PART rfl, hrf Regs.MEM_GRANULE_OWNER_VIEW rfl]

end

end Sys2Proof.Machine
end

section
/-! PROOFS. Bytes of the device's own memories: a store of bytes at places of their own puts them and leaves every other byte (R8, R327, R365). -/

namespace Sys2Proof.Machine

/-- An offset within a tile's space 0x0; places of other memories have any offset. -/
def Place.inTile : Place → Prop
  | .scratch _ o => o < 0x300000
  | _ => True

/-- A byte that the device holds: of a bank that is powered, or of a granule that the partition owns. -/
def Core.holds (c : Core) : Place → Prop
  | .scratch t o => o < 0x300000 ∧ c.awake t (o / bankBytes)
  | .view p o => (c.viewToDpa p o).isSome = true
  | _ => False

theorem Place.inTile_of_inDevice {q : Place} (h : q.inDevice) : q.inTile := by
  cases q with
  | scratch t o => exact h.2
  | view | host | flash | remote | nowhere => exact h

theorem Core.holds.inTile {c : Core} {q : Place} (h : c.holds q) : q.inTile := by
  cases q with
  | scratch t o => exact h.1
  | view | host | flash | remote | nowhere => trivial

/-- `b` is `c` with other contents of the scratchpads and of device memory. -/
def Core.storesIn (c b : Core) : Prop := ∃ m d k, b = { c with scratch := m, dram := d, dramKey := k }

theorem Core.storesIn.refl (c : Core) : c.storesIn c := ⟨c.scratch, c.dram, c.dramKey, rfl⟩

theorem Core.storesIn.trans {a b c : Core} (h : a.storesIn b) (h' : b.storesIn c) : a.storesIn c := by
  obtain ⟨m, d, k, rfl⟩ := h
  obtain ⟨m', d', k', rfl⟩ := h'
  exact ⟨m', d', k', rfl⟩

theorem Core.storesIn.reaches {c b : Core} (h : c.storesIn b) : c.reaches b := by
  obtain ⟨m, d, k, rfl⟩ := h
  exact .of_regs rfl rfl

section
variable {c b : Core} {p l addr : Nat} {q q' : Place}

theorem Core.storesIn.holds (h : c.storesIn b) : b.holds q ↔ c.holds q := by
  obtain ⟨m, d, k, rfl⟩ := h
  cases q <;> rfl

/-! ### One byte -/

/-- The granule and the view window of a device address tell which byte of which view lies there (R365). -/
theorem Core.viewToDpa_inj {p o p' o' d : Nat} (h : c.viewToDpa p o = some d) (h' : c.viewToDpa p' o' = some d) : p = p' ∧ o = o' := by
  have hfind : ∀ {p o}, c.viewToDpa p o = some d → c.rf Regs.MEM_GRANULE_OWNER_PART (d / granuleBytes) = p ∧
      c.rf Regs.MEM_GRANULE_OWNER_VIEW (d / granuleBytes) = o / granuleBytes ∧ d % granuleBytes = o % granuleBytes := by
    intro p o h
    unfold Core.viewToDpa at h
    split at h
    next i hi =>
      obtain rfl := Option.some.inj h
      have hp := List.find?_some hi
      simp only [Bool.and_eq_true, beq_iff_eq] at hp
      have hlt : o % granuleBytes < granuleBytes := Nat.mod_lt _ (by decide)
      have hdiv : (i * granuleBytes + o % granuleBytes) / granuleBytes = i := by
        rw [Nat.mul_comm, Nat.mul_add_div (by decide), Nat.div_eq_of_lt hlt, Nat.add_zero]
      have hmod : (i * granuleBytes + o % granuleBytes) % granuleBytes = o % granuleBytes := by
        rw [Nat.mul_comm, Nat.mul_add_mod, Nat.mod_mod]
      rw [hdiv]
      exact ⟨hp.1, hp.2, hmod⟩
    next => cases h
  obtain ⟨hp, hw, ho⟩ := hfind h
  obtain ⟨hp', hw', ho'⟩ := hfind h'
  refine ⟨hp.symm.trans hp', ?_⟩
  rw [← Nat.div_add_mod o granuleBytes, ← Nat.div_add_mod o' granuleBytes, ← hw, ← hw', ← ho, ← ho']

/-- Storing a byte of a view. -/
theorem Core.writePlace_view {p o d : Nat} (h : c.viewToDpa p o = some d) (v : Byte) :
    c.writePlace v (.view p o) = c.putDram (c.part p).key d v := by
  show (match c.viewToDpa p o with | some d => c.putDram (c.part p).key d v | none => c) = _
  rw [h]

theorem Core.readPlace_view {p o d : Nat} (h : c.viewToDpa p o = some d) : c.readPlace (.view p o) = c.dramByte (c.part p).key o d := by
  simp only [Core.readPlace, h]

theorem Core.readPlace_view_none {p o : Nat} (h : c.viewToDpa p o = none) : c.readPlace (.view p o) = 0 := by
  simp only [Core.readPlace, h]

theorem Core.dramByte_putDram_same (key d o : Nat) (v : Byte) : (c.putDram key d v).dramByte key o d = v := by
  simp [Core.dramByte, Core.putDram]

theorem Core.dramByte_putDram_other {d d' : Nat} (h : d' ≠ d) (key key' o : Nat) (v : Byte) :
    (c.putDram key d v).dramByte key' o d' = c.dramByte key' o d' := by
  simp only [Core.dramByte, Core.putDram, SMap.get_put_other _ _ _ h]

theorem Core.holds.writePlace_storesIn (h : c.holds q) (v : Byte) : c.storesIn (c.writePlace v q) := by
  cases q with
  | scratch t o => rw [c.writePlace_scratch v h.2.1 h.2.2]; exact ⟨_, _, _, rfl⟩
  | view p o =>
    obtain ⟨d, hd⟩ := Option.isSome_iff_exists.mp h
    rw [Core.writePlace_view hd]
    exact ⟨_, _, _, rfl⟩
  | host | flash | remote | nowhere => exact h.elim

/-- The byte stored is read. -/
theorem Core.holds.readPlace_writePlace_same (h : c.holds q) (v : Byte) : (c.writePlace v q).readPlace q = v := by
  cases q with
  | scratch t o => rw [c.writePlace_scratch v h.2.1 h.2.2]; exact SMap.get_put_same _ _ _ _
  | view p o =>
    obtain ⟨d, hd⟩ := Option.isSome_iff_exists.mp h
    have hput : (c.putDram (c.part p).key d v).viewToDpa p o = some d := hd
    rw [Core.writePlace_view hd, Core.readPlace_view hput]
    exact Core.dramByte_putDram_same _ _ _ _
  | host | flash | remote | nowhere => exact h.elim

/-- Every other byte reads as before. -/
theorem Core.holds.readPlace_writePlace_other (h : c.holds q) (v : Byte) (hq : q'.inTile) (hne : q' ≠ q) :
    (c.writePlace v q).readPlace q' = c.readPlace q' := by
  cases q with
  | scratch t o =>
    rw [c.writePlace_scratch v h.2.1 h.2.2]
    cases q' with
    | scratch t' o' =>
      refine SMap.get_put_other _ _ _ fun hkey => hne ?_
      obtain ⟨rfl, rfl⟩ := c.scratchKey_inj hq h.1 hkey
      rfl
    | view | host | flash | remote | nowhere => rfl
  | view p o =>
    obtain ⟨d, hd⟩ := Option.isSome_iff_exists.mp h
    rw [Core.writePlace_view hd]
    cases q' with
    | view p' o' =>
      cases hd' : c.viewToDpa p' o' with
      | none =>
        have hput : (c.putDram (c.part p).key d v).viewToDpa p' o' = none := hd'
        rw [Core.readPlace_view_none hput, Core.readPlace_view_none hd']
      | some d' =>
        have hput : (c.putDram (c.part p).key d v).viewToDpa p' o' = some d' := hd'
        have hdd : d' ≠ d := fun he => by
          subst he
          obtain ⟨rfl, rfl⟩ := Core.viewToDpa_inj hd' hd
          exact hne rfl
        rw [Core.readPlace_view hput, Core.readPlace_view hd']
        exact Core.dramByte_putDram_other hdd _ _ _ _
    | scratch | host | flash | remote | nowhere => rfl
  | host | flash | remote | nowhere => exact h.elim

/-! ### Runs of bytes -/

/-- Store bytes at places. -/
def Core.storeAll (c : Core) (es : List (Place × Byte)) : Core := threadAll (fun c e => c.writePlace e.2 e.1) c es

/-- Bytes stored at distinct places that the device holds are read there; every other byte reads as before. -/
theorem Core.storeAll_spec {es : List (Place × Byte)} (hh : ∀ e ∈ es, c.holds e.1) (hn : (es.map Prod.fst).Nodup) :
    c.storesIn (c.storeAll es) ∧ (∀ e ∈ es, (c.storeAll es).readPlace e.1 = e.2) ∧
      ∀ q : Place, q.inTile → q ∉ es.map Prod.fst → (c.storeAll es).readPlace q = c.readPlace q := by
  induction es generalizing c with
  | nil => exact ⟨.refl c, nofun, fun _ _ _ => rfl⟩
  | cons e r ih =>
    have he := hh e List.mem_cons_self
    have hstep := he.writePlace_storesIn e.2
    rw [List.map_cons, List.nodup_cons] at hn
    obtain ⟨hnot, hrest⟩ := hn
    obtain ⟨hs, hsame, hother⟩ := ih (c := c.writePlace e.2 e.1) (fun e' he' => hstep.holds.mpr (hh e' (List.mem_cons_of_mem _ he'))) hrest
    refine ⟨hstep.trans hs, fun e' he' => ?_, fun q hq hout => ?_⟩
    · rcases List.mem_cons.mp he' with rfl | hr
      · exact (hother _ he.inTile hnot).trans (he.readPlace_writePlace_same _)
      · exact hsame e' hr
    · rw [List.map_cons, List.mem_cons, not_or] at hout
      exact (hother q hq hout.2).trans (he.readPlace_writePlace_other _ hq hout.1)

/-- A write of bytes of an address stores them at their places. -/
theorem Core.writeAt_eq_storeAll (h5 : bits addr 63 60 ≠ 5) (off : Nat) (bs : List Byte)
    (hh : ∀ k ∈ upFrom off bs.length, c.holds (c.place p l addr k)) :
    c.writeAt p l addr off bs = c.storeAll (((upFrom off bs.length).map (c.place p l addr)).zip bs) := by
  rw [List.zip_map_left]
  have hall : ∀ e ∈ (upFrom off bs.length).zip bs, c.holds (c.place p l addr e.1) := fun e he => hh _ (List.of_mem_zip he).1
  unfold Core.writeAt
  clear hh
  generalize (upFrom off bs.length).zip bs = es at hall ⊢
  induction es generalizing c with
  | nil => rfl
  | cons e r ih =>
    have hstep := (hall e List.mem_cons_self).writePlace_storesIn e.2
    have hplace : ∀ k, (c.writePlace e.2 (c.place p l addr e.1)).place p l addr k = c.place p l addr k := hstep.reaches.place h5 p l
    have := ih (c := c.writePlace e.2 (c.place p l addr e.1)) fun e' he' => by
      rw [hplace, hstep.holds]
      exact hall e' (List.mem_cons_of_mem _ he')
    rw [List.map_cons, Core.storeAll, threadAll, threadAll]
    refine this.trans ?_
    rw [show (c.writePlace e.2 (c.place p l addr e.1)).place p l addr = c.place p l addr from funext hplace]
    rfl

end

end Sys2Proof.Machine
end

section
/-! PROOFS. The scalar stores (R140, R143, R201), O10. -/

namespace Sys2Proof.Machine

/-! ### The bytes of a scalar access -/

/-- The n bytes of an address are consecutive bytes of a scratchpad's space 0x0, or of a view in owned granules. -/
def Core.runAt (c : Core) (p l addr n : Nat) : Prop :=
  (∃ a, a + n ≤ 0x300000 ∧ ∀ k, k < n → ∃ t, c.place p l addr k = .scratch t (a + k)) ∨
    ∃ a, ∀ k, k < n → c.place p l addr k = .view p (a + k) ∧ (c.viewToDpa p (a + k)).isSome = true

theorem Core.runAt.place_inj {c : Core} {p l addr n k k' : Nat} (h : c.runAt p l addr n) (hk : k < n) (hk' : k' < n)
    (heq : c.place p l addr k = c.place p l addr k') : k = k' := by
  rcases h with ⟨a, -, h⟩ | ⟨a, h⟩
  · obtain ⟨t, ht⟩ := h k hk
    obtain ⟨t', ht'⟩ := h k' hk'
    rw [ht, ht'] at heq
    injection heq
    omega
  · rw [(h k hk).1, (h k' hk').1] at heq
    injection heq
    omega

theorem bits_eq_div_mod (n hi lo : Nat) : bits n hi lo = n / 2 ^ lo % 2 ^ (hi + 1 - lo) := by
  rw [bits, Nat.shiftRight_eq_div_pow]

/-- The spaces that a scalar store accepts. -/
theorem storeSpaces {spaces k : Nat} (hs : spaces = spScalar ∨ spaces = spOwn) (hk : k < 16) (h : bitOf spaces k = true) :
    k = 0 ∨ k = 1 ∨ k = 2 ∨ k = 6 := by
  have hall : ∀ k, k < 16 → (bitOf spScalar k = true ∨ bitOf spOwn k = true) → k = 0 ∨ k = 1 ∨ k = 2 ∨ k = 6 := by decide
  rcases hs with rfl | rfl
  · exact hall k hk (.inl h)
  · exact hall k hk (.inr h)

/-- What the checks of a scalar store say (R141 to R145). -/
theorem Core.scalarCheck_write {c : Core} {p l addr n spaces : Nat} (h : c.scalarCheck p l addr n spaces true = 0) :
    addr % n = 0 ∧ bitOf spaces (bits addr 63 60) = true ∧ c.boundsOk p addr 0 n = true := by
  unfold Core.scalarCheck at h
  split at h
  · cases h
  next halign =>
    split at h
    · cases h
    next hbounds =>
      simp only [not_or, not_not, Bool.not_eq_true', Bool.not_eq_false] at halign
      exact ⟨halign.1, halign.2, by simpa using hbounds⟩

section
variable {c : Core} {p l addr n : Nat}

theorem Core.runAt_own (hspace : bits addr 63 60 = 0) (hb : c.boundsOk p addr 0 n = true) (hl : (c.phys l).isSome = true) :
    c.runAt p l addr n := by
  obtain ⟨t, ht⟩ := Option.isSome_iff_exists.mp hl
  simp only [Core.boundsOk, hspace, Bool.and_eq_true, beq_iff_eq, decide_eq_true_eq, bits_eq_div_mod] at hb
  refine .inl ⟨bits addr 59 0, ?_, fun k _ => ⟨t, ?_⟩⟩
  · rw [bits_eq_div_mod]
    omega
  · simp only [Core.place, hspace, ht]

theorem Core.runAt_tile (hspace : bits addr 63 60 = 1) (hb : c.boundsOk p addr 0 n = true) : c.runAt p l addr n := by
  simp only [Core.boundsOk, hspace, Bool.and_eq_true, beq_iff_eq, decide_eq_true_eq] at hb
  obtain ⟨⟨⟨-, hhigh⟩, hend⟩, hl⟩ := hb
  obtain ⟨t, ht⟩ := Option.isSome_iff_exists.mp hl
  refine .inl ⟨bits addr 39 0, ?_, fun k _ => ⟨t, ?_⟩⟩
  · rw [bits_eq_div_mod] at hhigh hend ⊢
    omega
  · simp only [Core.place, hspace, ht]

/-- A view range whose windows are owned has a device address at each byte. -/
theorem Core.viewToDpa_of_viewOk {o k : Nat} (h : c.viewOk p o n = true) (hk : k < n) : (c.viewToDpa p (o + k)).isSome = true := by
  simp only [Core.viewOk, upFrom, List.all_eq_true, List.mem_map, List.mem_range, Bool.and_eq_true, decide_eq_true_eq, forall_exists_index,
    and_imp, forall_apply_eq_imp_iff₂] at h
  have hg : granuleBytes = 0x10000000 := rfl
  have hwin : o / granuleBytes + ((o + k) / granuleBytes - o / granuleBytes) = (o + k) / granuleBytes := by
    rw [hg]
    omega
  have hsome := (h ((o + k) / granuleBytes - o / granuleBytes) (by rw [hg]; omega)).2
  rw [hwin] at hsome
  unfold Core.viewToDpa at hsome ⊢
  rw [Nat.mul_div_cancel _ (by decide)] at hsome
  split at hsome
  next i hi => rfl
  next => cases hsome

theorem Core.runAt_view (hspace : bits addr 63 60 = 2) (hb : c.boundsOk p addr 0 n = true) : c.runAt p l addr n := by
  simp only [Core.boundsOk, hspace, Bool.and_eq_true, beq_iff_eq, decide_eq_true_eq, Nat.add_zero] at hb
  obtain ⟨⟨hhigh, -⟩, hview⟩ := hb
  have hoff : bits addr 59 0 = bits addr 39 0 := by
    rw [bits_eq_div_mod] at hhigh ⊢
    rw [bits_eq_div_mod]
    omega
  refine .inr ⟨bits addr 39 0, fun k hk => ⟨?_, ?_⟩⟩
  · simp only [Core.place, hspace, hoff]
  · exact Core.viewToDpa_of_viewOk hview (lt_of_lt_of_le hk (le_max_left _ _))

/-- The place of a byte of Umbra in its 256 KiB (R350). -/
theorem Core.umbraPhys_eq (c : Core) (p o : Nat) :
    c.umbraPhys p o = (c.umbraPhys p (o / 0x40000 * 0x40000)).map (fun e => (e.1, 0x2C0000 + o % 0x40000)) := by
  have hg : o / 0x40000 * 0x40000 / 0x200000 = o / 0x200000 := by omega
  have hl : bits (o / 0x40000 * 0x40000) 20 18 = bits o 20 18 := by
    rw [bits_eq_div_mod, bits_eq_div_mod]
    omega
  have ha : (22 + bits o 17 17) * bankBytes + o % bankBytes = 0x2C0000 + o % 0x40000 := by
    rw [bits_eq_div_mod, show bankBytes = 131072 from rfl]
    omega
  unfold Core.umbraPhys Core.umbraPlace
  rw [hg, hl, ha]
  cases (c.groups p)[o / 0x200000]? with
  | none => rfl
  | some g =>
    dsimp only
    rw [Option.map_map]
    rfl

theorem Core.runAt_umbra (hspace : bits addr 63 60 = 6) (hb : c.boundsOk p addr 0 n = true) (hn : n ∣ 0x40000) (halign : addr % n = 0) :
    c.runAt p l addr n := by
  simp only [Core.boundsOk, hspace, Bool.and_eq_true, beq_iff_eq, decide_eq_true_eq, Nat.add_zero] at hb
  obtain ⟨⟨hhigh, -⟩, hmapped⟩ := hb
  have hoff : bits addr 59 0 = bits addr 24 0 := by
    rw [bits_eq_div_mod] at hhigh ⊢
    rw [bits_eq_div_mod]
    omega
  have hpos : 0 < n := Nat.pos_of_dvd_of_pos hn (by decide)
  generalize ho : bits addr 24 0 = o at hoff hmapped
  have hblock : o % 0x40000 + n ≤ 0x40000 := by
    have hmod : o % 0x40000 = addr % 0x40000 := by
      rw [← ho, bits_eq_div_mod]
      omega
    obtain ⟨m, hm⟩ := hn
    have hdvd : n ∣ addr % 0x40000 := (Nat.dvd_mod_iff ⟨m, hm⟩).mpr (Nat.dvd_of_mod_eq_zero halign)
    obtain ⟨j, hj⟩ := hdvd
    have hlt : n * j < n * m := hj ▸ hm ▸ Nat.mod_lt _ (by decide)
    have hjm : j + 1 ≤ m := Nat.lt_of_mul_lt_mul_left hlt
    rw [hmod, hj, hm]
    calc n * j + n = n * (j + 1) := by ring
      _ ≤ n * m := Nat.mul_le_mul_left _ hjm
  have hsome : (c.umbraPhys p (o / 0x40000 * 0x40000)).isSome = true := by
    simp only [Core.umbraMapped, upFrom, List.all_eq_true, List.mem_map, List.mem_range, forall_exists_index, and_imp,
      forall_apply_eq_imp_iff₂] at hmapped
    have hfirst := hmapped 0 (by have := le_max_right n 1; omega)
    exact hfirst
  obtain ⟨⟨t, e⟩, hte⟩ := Option.isSome_iff_exists.mp hsome
  refine .inl ⟨0x2C0000 + o % 0x40000, by omega, fun k hk => ⟨t, ?_⟩⟩
  have hk' : c.umbraPhys p (o + k) = some (t, 0x2C0000 + o % 0x40000 + k) := by
    rw [Core.umbraPhys_eq, show (o + k) / 0x40000 = o / 0x40000 by omega, hte,
      show (o + k) % 0x40000 = o % 0x40000 + k by omega, Option.map_some, Nat.add_assoc]
  simp only [Core.place, hspace, hoff, hk']

/-- A scalar store that passes its checks writes a run of bytes that the device holds. -/
theorem Core.runAt_of_scalarCheck {spaces : Nat} (h : c.scalarCheck p l addr n spaces true = 0) (hs : spaces = spScalar ∨ spaces = spOwn)
    (hn : n ∣ 0x40000) (hl : (c.phys l).isSome = true) : c.runAt p l addr n ∧ bits addr 63 60 ≠ 5 := by
  obtain ⟨halign, hspace, hb⟩ := Core.scalarCheck_write h
  rcases storeSpaces hs (bits_lt addr 63 60) hspace with h0 | h0 | h0 | h0 <;> refine ⟨?_, by omega⟩
  · exact Core.runAt_own h0 hb hl
  · exact Core.runAt_tile h0 hb
  · exact Core.runAt_view h0 hb
  · exact Core.runAt_umbra h0 hb hn halign

end

/-! ### The stores -/

/-- A memory that gives a scalar access leaves the device as it is. -/
theorem Core.scalarFault_snd {c : Core} {p l addr n : Nat} {write : Bool} {env : MemEnv} (h : (c.scalarFault p l addr n write env).1 = 0) :
    (c.scalarFault p l addr n write env).2 = c := by
  unfold Core.scalarFault at h ⊢
  dsimp only at h ⊢
  generalize hr : List.findSome? _ _ = r at h ⊢
  cases r with
  | none => rfl
  | some e =>
    obtain ⟨st, c'⟩ := e
    obtain rfl : st = 0 := h
    obtain ⟨q, -, hq⟩ := List.exists_of_findSome?_eq_some hr
    cases q with
    | scratch t a =>
      dsimp only at hq
      split at hq
      · exact (congrArg Prod.snd (Option.some.inj hq)).symm
      · obtain ⟨o, -, ho⟩ := Option.map_eq_some_iff.mp hq
        exact absurd (congrArg Prod.fst ho) (show ¬ St.PARITY = 0 by decide)
    | view p o =>
      dsimp only at hq
      split at hq
      · split at hq
        · exact absurd (congrArg Prod.fst (Option.some.inj hq)) (show ¬ St.PARITY = 0 by decide)
        · cases hq
      · cases hq
    | host | flash | remote | nowhere => cases hq

/-- A tile that can issue serves a mapped logical tile. -/
theorem Core.phys_who_of_canIssue {c : Core} {t : Nat} (h : c.canIssue t = true) : (c.phys (c.who t).1).isSome = true := by
  unfold Core.canIssue at h
  simp only [Bool.and_eq_true] at h
  obtain ⟨-, h⟩ := h
  split at h
  next l p hl hp =>
    have hphys : c.phys l = some t := by simpa using List.find?_some hl
    rw [Core.who, hl, Option.getD_some, hphys]
    rfl
  next => cases h

/-- The command of a store, and the bytes it writes: of g[b] the low ones, of t[d] all. -/
theorem storeRows_exec (x : SArgs) (s : State) (y : Tile) : ∀ r ∈ storeRows x y, ∃ value : Tile → Nat,
    exec r.1 s = s.on (fun c => c.store x r.2.1 r.2.2.1 r.2.2.2.1 value) ∧ value y = r.2.2.2.2 ∧ r.2.2.1 ∣ 0x40000 ∧
      (r.2.2.2.1 = spScalar ∨ r.2.2.2.1 = spOwn) :=
  have hn : ∀ n ∈ [1, 2, 4, 8, 32], n ∣ 0x40000 := by decide
  List.forall_iff_forall_mem.mp ⟨⟨_, rfl, rfl, hn 1 (by decide), .inl rfl⟩, ⟨_, rfl, rfl, hn 2 (by decide), .inl rfl⟩,
    ⟨_, rfl, rfl, hn 4 (by decide), .inl rfl⟩, ⟨_, rfl, rfl, hn 8 (by decide), .inl rfl⟩, ⟨_, rfl, rfl, hn 32 (by decide), .inr rfl⟩⟩

/-- A store that is taken and whose access passes its checks writes its bytes on the device whose bytes are reached. -/
theorem answers_store {s : State} {x : SArgs} {i : Instr} {op : SOp} {n spaces : Nat} {value : Tile → Nat}
    (hexec : exec i s = s.on (fun c => c.store x op n spaces value)) (ht : s.core.takesS x op = true)
    (hok : (s.core.atIssue x.tile.val).accessOk x n spaces true) {P : Core → Prop}
    (hP : P ((((s.core.atIssue x.tile.val).reached x n true).writeAt (s.core.who x.tile.val).2 (s.core.who x.tile.val).1
      (SArgs.address x (s.core.tile x.tile.val)) 0 (leBytes n (value (s.core.tile x.tile.val)))).advance x.tile.val (wideLen x.wide))) :
    Answers s i P := by
  have hseq := s.core.seqTo_atIssue x.tile.val
  obtain ⟨hcheck, hfault⟩ := hok
  have hsnd := Core.scalarFault_snd hfault
  simp only [hseq.who, hseq.2.2] at hcheck hfault hsnd
  refine answers_scalar hexec ht ?_
  simp only [hseq.who, hseq.2.2, hcheck, hfault, hsnd, ne_eq, not_true, if_false]
  have hreach : (s.core.atIssue x.tile.val).reachBytes (s.core.who x.tile.val).2 (s.core.who x.tile.val).1
      (SArgs.address x (s.core.tile x.tile.val)) n true x.env = (s.core.atIssue x.tile.val).reached x n true := by
    simp only [Core.reached, Core.bytePlaces, hseq.who, hseq.2.2]
    rfl
  rw [hreach]
  exact hP

theorem mem_upFrom_zero {k n : Nat} : k ∈ upFrom 0 n ↔ k < n := by simp [upFrom]

/-- Reaching the bytes of an access leaves every one of them held. -/
theorem Core.holds_reached {c : Core} {x : SArgs} {n k : Nat} (write : Bool)
    (hrun : c.runAt (c.who x.tile.val).2 (c.who x.tile.val).1 (SArgs.address x (c.tile x.tile.val)) n) (hk : k < n) :
    (c.reached x n write).holds (c.place (c.who x.tile.val).2 (c.who x.tile.val).1 (SArgs.address x (c.tile x.tile.val)) k) := by
  have hmem : c.place (c.who x.tile.val).2 (c.who x.tile.val).1 (SArgs.address x (c.tile x.tile.val)) k ∈ c.bytePlaces x n :=
    List.mem_map_of_mem (mem_upFrom_zero.mpr hk)
  rcases hrun with ⟨a, hle, h⟩ | ⟨a, h⟩
  · obtain ⟨t, ht⟩ := h k hk
    rw [ht] at hmem ⊢
    have ho : a + k < 0x300000 := by omega
    exact ⟨ho, c.awake_reached x n write hmem ho⟩
  · obtain ⟨hplace, hown⟩ := h k hk
    rw [hplace, Core.holds, (c.reaches_reached x n write).viewToDpa]
    exact hown

theorem Core.bytePlaces_nodup {c : Core} {x : SArgs} {n : Nat}
    (hrun : c.runAt (c.who x.tile.val).2 (c.who x.tile.val).1 (SArgs.address x (c.tile x.tile.val)) n) : (c.bytePlaces x n).Nodup := by
  have hrange : (upFrom 0 n).Nodup := List.nodup_range.map (add_right_injective 0)
  exact hrange.map_on fun k hk k' hk' heq => hrun.place_inj (mem_upFrom_zero.mp hk) (mem_upFrom_zero.mp hk') heq

/-- Bytes written to the places of an access that are reached are read there, and every other byte reads as it did. -/
theorem Core.writeAt_reached {c : Core} {x : SArgs} {n : Nat} {bs : List Byte} {write : Bool} (hlen : bs.length = n)
    (hrun : c.runAt (c.who x.tile.val).2 (c.who x.tile.val).1 (SArgs.address x (c.tile x.tile.val)) n)
    (h5 : bits (SArgs.address x (c.tile x.tile.val)) 63 60 ≠ 5) {d : Core}
    (hd : (c.reached x n write).writeAt (c.who x.tile.val).2 (c.who x.tile.val).1 (SArgs.address x (c.tile x.tile.val)) 0 bs = d) :
    (c.reached x n write).storesIn d ∧ (c.bytePlaces x n).map d.readPlace = bs ∧
      ∀ q : Place, q.inTile → q ∉ c.bytePlaces x n → d.readPlace q = (c.reached x n write).readPlace q := by
  subst hlen
  have hplace := (c.reaches_reached x bs.length write).place h5 (c.who x.tile.val).2 (c.who x.tile.val).1
  have hheld : ∀ k ∈ upFrom 0 bs.length, (c.reached x bs.length write).holds
      ((c.reached x bs.length write).place (c.who x.tile.val).2 (c.who x.tile.val).1 (SArgs.address x (c.tile x.tile.val)) k) := fun k hk => by
    rw [hplace]
    exact Core.holds_reached write hrun (mem_upFrom_zero.mp hk)
  rw [Core.writeAt_eq_storeAll h5 0 bs hheld, List.map_congr_left (fun k _ => hplace k), ← Core.bytePlaces] at hd
  have hlen : (c.bytePlaces x bs.length).length = bs.length := by simp [Core.bytePlaces, upFrom]
  have hfst : ((c.bytePlaces x bs.length).zip bs).map Prod.fst = c.bytePlaces x bs.length := List.map_fst_zip hlen.le
  obtain ⟨hs, hsame, hother⟩ := Core.storeAll_spec (c := c.reached x bs.length write) (es := (c.bytePlaces x bs.length).zip bs)
    (fun e he => by
      obtain ⟨k, hk, hkq⟩ := List.mem_map.mp (List.of_mem_zip he).1
      rw [← hkq, ← hplace]
      exact hheld k hk)
    (hfst.symm ▸ Core.bytePlaces_nodup hrun)
  rw [hfst] at hother
  subst hd
  refine ⟨hs, ?_, hother⟩
  calc (c.bytePlaces x bs.length).map _ = (((c.bytePlaces x bs.length).zip bs).map Prod.fst).map _ := by rw [hfst]
    _ = ((c.bytePlaces x bs.length).zip bs).map Prod.snd := by
      rw [List.map_map]
      exact List.map_congr_left hsame
    _ = bs := List.map_snd_zip hlen.ge

/-- Settles O10: the bytes lie at places of their own, and reaching them moves none. -/
theorem stores : Obligations.Stores := by
  intro x s i op n spaces v hrow ht hok c0 c1
  obtain ⟨value, hexec, hvalue, hn, hs⟩ := storeRows_exec x s _ _ hrow
  dsimp only at hexec hvalue hn hs
  have hseq : s.core.seqTo c0 x.tile.val (s.core.tile x.tile.val) := s.core.seqTo_atIssue x.tile.val
  have hwho : c0.who x.tile.val = s.core.who x.tile.val := hseq.who _
  have htile : c0.tile x.tile.val = s.core.tile x.tile.val := hseq.2.2
  have hphys : (c0.phys (c0.who x.tile.val).1).isSome = true := by
    rw [hwho]
    have hcan := Core.phys_who_of_canIssue (Core.canIssue_of_takesS ht)
    exact hcan
  obtain ⟨hrun, h5⟩ := Core.runAt_of_scalarCheck hok.1 hs hn hphys
  have hreach : c0.reaches c1 := c0.reaches_reached x n true
  refine answers_store hexec ht hok ?_
  rw [hvalue, ← hwho, ← htile]
  generalize hd : (c0.reached x n true).writeAt _ _ _ 0 (leBytes n v) = d
  obtain ⟨hst, hbytes, hother⟩ := Core.writeAt_reached (length_leBytes n v) hrun h5 hd
  obtain ⟨hview, hregs, -⟩ := hreach.trans hst.reaches
  obtain ⟨-, hitems, hrecs, hevt, hsq⟩ : d.map = c0.map ∧ d.items = c0.items ∧ d.recs = c0.recs ∧ d.evtBuf = c0.evtBuf ∧ d.seqView = c0.seqView := by
    simpa only [Core.fixedView, Prod.mk.injEq] using hview
  obtain ⟨htiles, -, hops, -⟩ := Core.seqView_eq_iff.mp hsq
  have hcount : d.rf Regs.TILE_INSTR_COUNT_COUNT x.tile.val = c0.rf Regs.TILE_INSTR_COUNT_COUNT x.tile.val :=
    congrArg (bits · _ _) (hregs Regs.TILE_INSTR_COUNT (by decide) _)
  obtain ⟨hret, hsame, hothers⟩ := Core.retired_advance (c := s.core) (len := wideLen x.wide) hcount htiles
  exact ⟨hbytes, fun q hq hout => hother q (Place.inTile_of_inDevice hq) hout, hret, htile ▸ hsame, hothers, hitems, hrecs, hops, hevt⟩

end Sys2Proof.Machine
end

section
/-! PROOFS. What FILL leaves in the memories when its destination lies in space 0x4, which R145 accepts, O15. -/

namespace Sys2Proof.Machine

/-- The issue of a data-movement instruction ends with no bytes on their way to a remote device (R382). -/
theorem Core.remoteOut_flushSlow (c : Core) : c.flushSlow.remoteOut = [] := rfl

/-- FILL answers a device with no bytes on their way to a remote device. -/
theorem fill_remoteOut {s : State} {x : TArgs} {P : Core → Prop} (h : Answers s (.fill x) P) : ∃ c : Core, c.remoteOut = [] ∧ P c := by
  obtain ⟨c, hexec, hP⟩ := h
  have hissue : exec (.fill x) s = s.on (fun c => (c.tensorIns x .FILL (fun c l p => c.opFill x l p)).flushSlow) := rfl
  rw [hissue, State.on, Host.Outcome.next.injEq] at hexec
  obtain rfl : _ = c := congrArg State.core hexec
  exact ⟨_, Core.remoteOut_flushSlow _, hP⟩

/-- A device of a herd of 2 whose tile 0 has t0 on one FP32 element at offset 0 of device 1. -/
def herdFill : Core :=
  ((running (withT (tdesc (4 * 2 ^ 60 + 2 ^ 46) 2 1 1 4) 0 0 0)).wf Regs.COL_HERD_CFG_VALID 0 1).wf Regs.COL_HERD_CFG_SIZE 0 2

/-- FILL of t0, and the operand that it writes. -/
abbrev herdArgs : TArgs := tx 0 0 0 0 0 none
abbrev herdOps : List Operand := [{ d := (herdFill.tile 0).desc 0, dest := true, spaces := spMove }]

/-- Refutes O15: FILL of an element in space 0x4 puts its bytes in `remoteOut`, which the end of the issue empties. -/
theorem not_dataMovement : ¬ Obligations.DataMovement := by
  intro h
  obtain ⟨b, hruns⟩ : ∃ b, herdFill.runsFrom b herdArgs herdOps true false := runs_of (by decide) (by decide)
  have hfill := (h herdArgs (st herdFill) b (by decide) (by decide)).1 (by decide) (.inl (by decide)) (by decide) (by decide) (by decide) hruns
  obtain ⟨c, hempty, hmems, -⟩ := fill_remoteOut hfill
  have hout : c.remoteOut = (b.putTensor (herdFill.who 0).2 (herdFill.who 0).1 ((herdFill.tile 0).desc 0)
      (List.replicate ((herdFill.tile 0).desc 0).count 0)).remoteOut :=
    congrArg (fun m => m.2.2.2.2.2) hmems
  obtain rfl : ((herdFill.atUnit 0).memFaults (herdFill.who 0).2 (herdFill.who 0).1 herdOps {}).2 = b := congrArg Prod.snd hruns.2
  exact absurd (hout.symm.trans hempty) (by decide)

end Sys2Proof.Machine
end

section
/-! PROOFS. The matrix unit's results (R206 to R208, R237, R241, R250, R676), O17. -/

namespace Sys2Proof.Machine

/-! ### Operations that mark their own tile -/

/-- `d` is a device in which the sequencers stand as in `c`, as do the partitions and the operations; tile t's other fields may differ. -/
def Core.seqKept (c d : Core) (t : Nat) : Prop :=
  (d.tile t).pc = (c.tile t).pc ∧ (∀ j, (d.tile t).token j = (c.tile t).token j) ∧ (∀ u, u ≠ t → d.tile u = c.tile u) ∧ d.parts = c.parts ∧
    d.ops = c.ops

theorem Core.seqKept.trans {a b c : Core} {t : Nat} (h : a.seqKept b t) (h' : b.seqKept c t) : a.seqKept c t := by
  obtain ⟨hpc, htok, hothers, hparts, hops⟩ := h
  obtain ⟨hpc', htok', hothers', hparts', hops'⟩ := h'
  exact ⟨hpc'.trans hpc, fun j => (htok' j).trans (htok j), fun u hu => (hothers' u hu).trans (hothers u hu), hparts'.trans hparts,
    hops'.trans hops⟩

theorem Core.seqKept_of_view {c d : Core} (h : d.seqView = c.seqView) (t : Nat) : c.seqKept d t := by
  obtain ⟨-, hparts, hops, -⟩ := Core.seqView_eq_iff.mp h
  have htile := Core.tile_of_seqView h
  exact ⟨by rw [htile], fun j => by rw [htile], fun u _ => htile u, hparts, hops⟩

/-- An operation that leaves the sequencers in place is in progress with what running it gave. -/
theorem answers_began {s : State} {x : TArgs} {i : Instr} {op : TOp} {body : Core → Nat → Nat → OpRes} {r : OpRes}
    (hexec : exec i s = s.on (fun c => c.tensorIns x op body)) (ht : s.core.takesT x op = true) (hrec : s.core.recordOk x op)
    (hbody : body (s.core.atUnit x.tile.val) (s.core.who x.tile.val).1 (s.core.who x.tile.val).2 = r)
    (hkept : s.core.seqKept r.c x.tile.val) : Answers s i (fun c => c.mems = r.c.mems ∧ s.core.started c x op r.st r.wait) := by
  obtain ⟨hpc, htok, hothers, hparts, hops⟩ := hkept
  refine answers_tensor hexec ht hrec hbody (fun c hm hp hsame hother ⟨unit, pc, item, ho⟩ => ⟨hm, ?_⟩)
  refine ⟨?_, fun j => ?_, fun u hu => (hother u hu).trans (hothers u hu), hp.trans hparts, _, by rw [ho, hops], rfl, rfl, rfl, rfl, rfl, rfl⟩
  · rw [hsame, ← hpc]
    rfl
  · rw [hsame, Tile.token_issued, htok]

/-- Memories that give the operands leave the sequencers as they are. -/
theorem Core.runsFrom_view {c b : Core} {x : TArgs} {ops : List Operand} {shape inPlace : Bool} (h : c.runsFrom b x ops shape inPlace) :
    b.seqView = c.seqView := by
  have hview : b.seqView = (c.atUnit x.tile.val).seqView := Core.seqView_memFaults h.2
  exact hview

/-! ### What the unit does once its blocks are written -/

theorem Core.evt_kept (c : Core) (cls src p code i0 i1 : Nat) :
    (c.evt cls src p code i0 i1).mems = c.mems ∧ (c.evt cls src p code i0 i1).seqView = c.seqView := ⟨rfl, rfl⟩

/-- Another sequencer with the same pc and tokens. -/
theorem Core.seqKept_setTile (c : Core) {t : Nat} {y : Tile} (hpc : y.pc = (c.tile t).pc) (htok : ∀ j, y.token j = (c.tile t).token j) :
    c.seqKept (c.setTile t y) t := by
  have hsame := c.tile_setTile_same t y
  exact ⟨by rw [hsame, hpc], fun j => by rw [hsame, htok], fun u hu => c.tile_setTile_other y hu, rfl, rfl⟩

/-- A decode that gave an infinity marks its tile and posts an event (R102, R127). -/
theorem Core.decodeOverflow_kept (c : Core) (t p : Nat) : (c.decodeOverflow t p).mems = c.mems ∧ c.seqKept (c.decodeOverflow t p) t := by
  have hwf : c.seqKept (c.wf Regs.TILE_NUM_STATUS_DECODE_OVF t 1) t := Core.seqKept_of_view rfl t
  unfold Core.decodeOverflow
  dsimp only
  split
  · exact ⟨rfl, hwf⟩
  · have hm : (c.wf Regs.TILE_NUM_STATUS_DECODE_OVF t 1).mems = c.mems := rfl
    generalize c.wf Regs.TILE_NUM_STATUS_DECODE_OVF t 1 = d at hwf hm ⊢
    have hset := d.seqKept_setTile (y := { d.tile t with ovfStep := some (d.stepOf p) }) rfl fun _ => rfl
    have hmems : (d.setTile t { d.tile t with ovfStep := some (d.stepOf p) }).mems = c.mems := hm
    generalize d.setTile t { d.tile t with ovfStep := some (d.stepOf p) } = e at hset hmems ⊢
    have hevt := e.evt_kept Cls.info (Src.tile t) p 0x0201 (d.stepOf p) 0
    exact ⟨hevt.1.trans hmems, hwf.trans (hset.trans (Core.seqKept_of_view hevt.2 t))⟩

theorem Core.mems_count (c : Core) (f : Fld) (i n : Nat) : (c.count f i n).mems = c.mems := rfl

theorem Core.fresh_kept (c : Core) : c.fresh.2.mems = c.mems ∧ c.fresh.2.seqView = c.seqView := ⟨rfl, rfl⟩

/-- The counts of a matrix operation whose blocks are written (R250, R263). -/
def Core.matrixCounts (c : Core) (t rows skipped slices : Nat) : Core :=
  let c := c.count Regs.TILE_MM_CYCLES_COUNT t rows
  let c := c.count Regs.TILE_MM_SKIP_ROWS_COUNT t skipped
  let c := c.count Regs.TILE_MM_SKIP_SLICES_COUNT t slices
  let (stall, c) := c.fresh
  c.count Regs.TILE_MM_STALL_COUNT t stall.toNat

theorem Core.matrixCounts_kept (c : Core) (t rows skipped slices : Nat) :
    (c.matrixCounts t rows skipped slices).mems = c.mems ∧ (c.matrixCounts t rows skipped slices).seqView = c.seqView := by
  simp only [Core.matrixCounts, Core.mems_count, Core.seqView_count, Core.fresh_kept, and_self]

/-- What follows the blocks of a matrix operation: the non-finite elements are noted, an infinity of the decode is posted, the counts are
taken (R102, R128, R243, R250, R263). -/
def Core.matrixDone (c : Core) (t p inputs outputs : Nat) (ovf : Bool) (rows skipped slices : Nat) : Core :=
  let c := c.noteNF t inputs outputs
  (if ovf then c.decodeOverflow t p else c).matrixCounts t rows skipped slices

theorem Core.matrixDone_kept (c : Core) (t p inputs outputs : Nat) (ovf : Bool) (rows skipped slices : Nat) :
    (c.matrixDone t p inputs outputs ovf rows skipped slices).mems = c.mems ∧
      c.seqKept (c.matrixDone t p inputs outputs ovf rows skipped slices) t := by
  obtain ⟨hview, hmems⟩ := c.noteNF_view t inputs outputs
  obtain ⟨hmems', hkept⟩ := (c.noteNF t inputs outputs).decodeOverflow_kept t p
  unfold Core.matrixDone
  dsimp only
  split
  · have hcounts := ((c.noteNF t inputs outputs).decodeOverflow t p).matrixCounts_kept t rows skipped slices
    exact ⟨hcounts.1.trans (hmems'.trans hmems), ((Core.seqKept_of_view hview t).trans hkept).trans (Core.seqKept_of_view hcounts.2 t)⟩
  · have hcounts := (c.noteNF t inputs outputs).matrixCounts_kept t rows skipped slices
    exact ⟨hcounts.1.trans hmems, Core.seqKept_of_view (hcounts.2.trans hview) t⟩

/-- The array over the operands of an instruction of the tile: what `Core.opMatrix` reads. -/
def Core.matrixView (c : Core) (kind : MatKind) (x : TArgs) (l p : Nat) (y : Tile) : MatView :=
  let td := y.desc x.td.val
  let ta := y.desc x.ta.val
  let tb := y.desc x.tb.val
  let tc := y.desc x.tc.val
  let kk := if bitOf x.mods.toNat 4 then 4 else 8
  { a := fun m k n => c.matEl p l ta (y.bookFor ta) (ta.matIndex k m n)
    b := fun k n m => c.matB p l kind tb tc (y.bookFor tb) kk k n m
    prior := fun m n q => if bitOf x.mods.toNat 3 then some (roundNum .fp32 .nearest (decodeF td.ffmt (c.elem p l td n m q.1 q.2))) else none
    f := if kind = .m32 then .fp32 else .fp16
    k := ta.matK
    md := matMode kind (bitOf x.mods.toNat 4) }

/-- The stored bits of an element of the destination (R208, R241). -/
def MatView.stored (v : MatView) (td : Desc) (x : TArgs) (m n : Nat) (q : Batch) : Nat :=
  if td.isFP32 then v.result m n q else roundNum .fp16 (TArgs.rnd x) (decodeF .fp32 (v.result m n q))

/-- The output blocks of an instruction (R237), and their elements over device `c` (R208, R241). -/
def matrixBlocks (kind : MatKind) (x : TArgs) (td : Desc) : List MatBlock :=
  matBlocks (matMode kind (bitOf x.mods.toNat 4)) td.e2 td.e3 td.e1 td.e0

def Core.matrixElems (c : Core) (kind : MatKind) (x : TArgs) (l p : Nat) (y : Tile) : List ((Nat × Nat × Nat × Nat) × Nat) :=
  let td := y.desc x.td.val
  let v := c.matrixView kind x l p y
  (matrixBlocks kind x td).flatMap (fun bl => blockElems td bl (fun m n q =>
    if td.isFP32 then v.result m n q else roundNum .fp16 (TArgs.rnd x) (decodeF .fp32 (v.result m n q))))

/-- The operands of a matrix instruction, and their shape (R206, R207). -/
def matrixOps (kind : MatKind) (x : TArgs) (y : Tile) : List Operand :=
  unitOps (y.desc x.td.val) ([y.desc x.ta.val, y.desc x.tb.val] ++ if kind = .sp ∨ kind = .bs then [y.desc x.tc.val] else []) spUnit

def matrixShape (kind : MatKind) (x : TArgs) (y : Tile) : Bool :=
  matShape kind (if bitOf x.mods.toNat 4 then 4 else 8) (y.desc x.td.val) (y.desc x.ta.val) (y.desc x.tb.val) (y.desc x.tc.val)

/-- The device once every block is written; the choice of the blocks drained is taken all the same. -/
def Core.matrixPut (c : Core) (kind : MatKind) (x : TArgs) (l p : Nat) (y : Tile) : Core :=
  ({ c with free := c.free + 1 } : Core).putElems p l (y.desc x.td.val) (c.matrixElems kind x l p y)

section
variable {c b : Core} {x : TArgs} {l p : Nat} {kind : MatKind} {y : Tile}

theorem matrixOps_eq (kind : MatKind) (x : TArgs) (y : Tile) : matrixOps kind x y =
    [{ d := y.desc x.td.val, dest := true, spaces := spUnit }, { d := y.desc x.ta.val, spaces := spUnit, licensed := true },
      { d := y.desc x.tb.val, spaces := spUnit, licensed := true }] ++
      (if kind = .sp ∨ kind = .bs then [{ d := y.desc x.tc.val, spaces := spUnit, licensed := true }] else []) := by
  unfold matrixOps unitOps
  split <;> rfl

/-- The operation over operands that pass its checks and blocks of which none is refused writes every block. -/
theorem Core.opMatrix_writes (hy : c.tile x.tile.val = y) (hchecks : c.issueChecks p l (matrixOps kind x y) (matrixShape kind x y) false = 0)
    (hmem : c.memFaults p l (matrixOps kind x y) x.env = (0, b)) (he : (y.desc x.td.val).empty = false)
    (hcol : (y.desc x.td.val).mayCollide = false)
    (hbooks : ((y.desc x.ta.val).isBlock && (y.bookFor (y.desc x.ta.val)).isNone ||
      (y.desc x.tb.val).isBlock && (y.bookFor (y.desc x.tb.val)).isNone) = false)
    (hocc : kind = .bs → ∀ n, (y.desc x.tb.val).squares ≤ n → n < 16 * (y.desc x.tc.val).e0 →
      bitOf (c.elem p l (y.desc x.tc.val) (n / 16) 0 0 0) (n % 16) = false)
    (hgood : ∀ bl ∈ matrixBlocks kind x (y.desc x.td.val), (b.matrixView kind x l p y).blockBad bl = false) :
    ∃ inputs outputs ovf rows skipped slices slots note work, c.opMatrix kind x l p =
      { c := (b.matrixPut kind x l p y).matrixDone x.tile.val p inputs outputs ovf rows skipped slices
        slots := slots, note := note, work := work } := by
  have htake : (matrixBlocks kind x (y.desc x.td.val)).takeWhile (fun bl => !(b.matrixView kind x l p y).blockBad bl) =
      matrixBlocks kind x (y.desc x.td.val) := List.takeWhile_eq_self_iff.mpr fun bl hbl => by rw [hgood bl hbl]; rfl
  have hbits : ¬(kind = .bs ∧ (!(y.desc x.td.val).empty) = true ∧ (upFrom (y.desc x.tb.val).squares
      (16 * (y.desc x.tc.val).e0 - (y.desc x.tb.val).squares)).any
        (fun n => bitOf (c.elem p l (y.desc x.tc.val) (n / 16) 0 0 0) (n % 16)) = true) := by
    rintro ⟨hk, -, hany⟩
    obtain ⟨n, hn, hbit⟩ := List.any_eq_true.mp hany
    obtain ⟨k, hk', rfl⟩ := List.mem_map.mp hn
    have hlt := List.mem_range.mp hk'
    rw [hocc hk _ (Nat.le_add_right _ _) (by omega)] at hbit
    cases hbit
  rw [matrixOps_eq] at hchecks hmem
  subst hy
  unfold Core.opMatrix
  extract_lets t tl td ta tb tc ksel kk usesC ops st slots occBad
  have hst : st = 0 := hchecks
  have hocc' : ¬ occBad := hbits
  have hrun : c.memFaults p l ops x.env = (0, b) := hmem
  rw [if_neg (not_not.mpr hst), if_neg (by rw [hbooks]; decide), if_neg hocc', if_neg (by rw [he]; decide), hrun]
  dsimp -zeta only
  rw [if_neg (not_not.mpr rfl), show td.mayCollide = false from hcol]
  extract_lets v good ok
  have hall : good = matrixBlocks kind x td := htake
  have hok : ok = true := by
    show (good.length == _) = true
    rw [hall]
    exact beq_self_eq_true _
  clear_value ok good
  subst hok hall
  exact ⟨_, _, _, _, _, _, _, _, _, rfl⟩

theorem Core.matrixPut_view (c : Core) : (c.matrixPut kind x l p y).seqView = c.seqView := Core.seqView_putElems _ p l _ _

end

/-- The commands of the matrix instructions. -/
theorem matrix_exec {x : TArgs} {i : Instr} {op : TOp} {kind : MatKind}
    (hrow : (i, op, kind) ∈ [(.mm x, .MM, .mm), (.mmsp x, .MMSP, .sp), (.mmbs x, .MMBS, .bs), (.mm32 x, .MM32, MatKind.m32)]) (s : State) :
    exec i s = s.on (fun c => c.tensorIns x op (fun c l p => c.opMatrix kind x l p)) := by
  simp only [List.mem_cons, Prod.mk.injEq, List.not_mem_nil, or_false] at hrow
  rcases hrow with h | h | h | h <;> obtain ⟨rfl, rfl, rfl⟩ := h <;> rfl

/-- An operand that is block-coded only with its codebook lacks none. -/
theorem book_present {block : Bool} {book : Option Codebook} (h : block = true → book.isSome = true) : (block && book.isNone) = false := by
  cases block with
  | false => rfl
  | true => simpa [← Option.not_isSome] using h rfl

/-- Settles O17: the blocks drained are all blocks, and what follows them touches no memory. -/
theorem matrixResults : Obligations.MatrixResults := by
  intro x s b i op kind hrow ht hrec y l p td ta tb tc kk md v blocks el hruns he hcol hbookA hbookB hocc hgood
  have hbooks : (ta.isBlock && (y.bookFor ta).isNone || tb.isBlock && (y.bookFor tb).isNone) = false := by
    rw [book_present hbookA, book_present hbookB]
    rfl
  obtain ⟨inputs, outputs, ovf, rows, skipped, slices, slots, note, work, hbody⟩ := Core.opMatrix_writes (c := s.core.atUnit x.tile.val)
    (y := y) rfl hruns.1 hruns.2 he hcol hbooks hocc hgood
  have hput := (b.matrixPut kind x l p y).matrixDone_kept x.tile.val p inputs outputs ovf rows skipped slices
  have hview : (b.matrixPut kind x l p y).seqView = s.core.seqView := (Core.matrixPut_view b).trans (Core.runsFrom_view hruns)
  have h := answers_began (matrix_exec hrow s) ht hrec hbody ((Core.seqKept_of_view hview x.tile.val).trans hput.2)
  rw [hput.1] at h
  exact h

end Sys2Proof.Machine
end

section
/-! PROOFS. The Shadow store: packed values read back (R270, R271), and an entry that is taken has its record (R274), O16. -/

namespace Sys2Proof.Machine

/-! ### Packed values -/

/-- The values that byte j of a packed entry holds, as digits. -/
def packedDigits (width : Nat) (vs : List Nat) (j : Nat) : List Nat :=
  (List.range (8 / width)).map (fun i => ((vs[8 / width * j + i]?).getD 0) % 2 ^ width)

theorem packedDigits_sum (width : Nat) (vs : List Nat) (j : Nat) :
    ((List.range (8 / width)).map (fun i => ((vs[8 / width * j + i]?).getD 0) % 2 ^ width * 2 ^ (width * i))).foldl (· + ·) 0 =
      Nat.ofDigits (2 ^ width) (packedDigits width vs j) := by
  rw [← List.sum_eq_foldl, Nat.ofDigits_eq_sum_mapIdx]
  congr 1
  refine List.ext_getElem (by simp [packedDigits]) fun i hi hi' => ?_
  simp [packedDigits, Nat.pow_mul]

theorem packEntry_getElem? {width j : Nat} (vs : List Nat) (hj : j < 64 * entWords vs.length width) :
    (packEntry width vs)[j]? = some (BitVec.ofNat 8 (Nat.ofDigits (2 ^ width) (packedDigits width vs j))) := by
  have hrange : (List.range (64 * entWords vs.length width))[j]? = some j := List.getElem?_range hj
  rw [packEntry, List.getElem?_map, hrange, ← packedDigits_sum]
  rfl

/-- The words of an entry hold all its values. -/
theorem packed_byte_lt {width i n : Nat} (hw : width = 1 ∨ width = 2) (hi : i < n) : i / (8 / width) < 64 * entWords n width := by
  rw [entWords, ceilDiv, if_neg (by decide)]
  rcases hw with rfl | rfl <;> omega

/-- A value of an entry, packed, reads back modulo its width. -/
theorem unpackEntry_packEntry {width i v : Nat} {vs : List Nat} (hw : width = 1 ∨ width = 2) (h : vs[i]? = some v) :
    unpackEntry width (packEntry width vs) i = v % 2 ^ width := by
  obtain ⟨hi, -⟩ := List.getElem?_eq_some_iff.mp h
  have hper : 0 < 8 / width ∧ (2 ^ width) ^ (8 / width) = 2 ^ 8 ∧ 1 < 2 ^ width := by
    rcases hw with rfl | rfl <;> decide
  obtain ⟨hpos, hbyte, hbase⟩ := hper
  have hdigits : ∀ d ∈ packedDigits width vs (i / (8 / width)), d < 2 ^ width := by
    simp only [packedDigits, List.mem_map]
    rintro d ⟨k, -, rfl⟩
    exact Nat.mod_lt _ (Nat.two_pow_pos _)
  have hlt : Nat.ofDigits (2 ^ width) (packedDigits width vs (i / (8 / width))) < 2 ^ 8 := by
    have hlen : (packedDigits width vs (i / (8 / width))).length = 8 / width := by simp [packedDigits]
    calc _ < (2 ^ width) ^ (packedDigits width vs (i / (8 / width))).length := Nat.ofDigits_lt_base_pow_length hbase hdigits
      _ = 2 ^ 8 := by rw [hlen, hbyte]
  have hdigit : (packedDigits width vs (i / (8 / width)))[i % (8 / width)]? = some (v % 2 ^ width) := by
    have hrange : (List.range (8 / width))[i % (8 / width)]? = some (i % (8 / width)) := List.getElem?_range (Nat.mod_lt _ hpos)
    rw [packedDigits, List.getElem?_map, hrange, Option.map_some, Nat.div_add_mod, h]
    rfl
  have hfield : bits (Nat.ofDigits (2 ^ width) (packedDigits width vs (i / (8 / width))))
      (width * (i % (8 / width)) + width - 1) (width * (i % (8 / width))) = v % 2 ^ width := by
    have hwidth : width * (i % (8 / width)) + width - 1 + 1 - width * (i % (8 / width)) = width := by omega
    rw [bits, Nat.shiftRight_eq_div_pow, hwidth, Nat.pow_mul]
    exact ofDigits_digit hdigits hdigit
  rw [unpackEntry, packEntry_getElem? vs (packed_byte_lt hw hi), Option.getD_some, BitVec.toNat_ofNat, Nat.mod_eq_of_lt hlt]
  exact hfield

/-! ### The directory -/

section
variable (x : Tile) (e : StashEnt) (name : Nat)

@[simp] theorem Tile.stash_killSlot : (x.killSlot name).stash = x.stash := rfl
@[simp] theorem Tile.stash_reclaim : x.reclaim.stash = x.stash := rfl

/-- Tiles with one directory have one record of each name. -/
theorem Tile.entry?_of_stash {x y : Tile} (h : y.stash = x.stash) (name : Nat) : y.entry? name = x.entry? name := by
  rw [Tile.entry?, Tile.entry?, h]

/-- A record that is written is the record of its name. -/
theorem Tile.entry?_putEntry : (x.putEntry e).entry? e.name = some e := by
  unfold Tile.putEntry
  split
  next hany =>
    have hmem : e ∈ x.stash.map (fun f => if f.name = e.name then e else f) := by
      obtain ⟨f, hf, hname⟩ := List.any_eq_true.mp hany
      exact List.mem_map.mpr ⟨f, hf, if_pos (beq_iff_eq.mp hname)⟩
    cases hfind : (x.stash.map (fun f => if f.name = e.name then e else f)).find? (fun g => g.name == e.name) with
    | none => exact absurd (List.find?_eq_none.mp hfind e hmem) (by simp)
    | some g =>
      obtain ⟨f, -, hg⟩ := List.mem_map.mp (List.mem_of_find?_eq_some hfind)
      have hname : g.name = e.name := by simpa using List.find?_some hfind
      have : g = e := by
        split at hg
        · exact hg.symm
        next hne => exact absurd (hg ▸ hname) hne
      rw [Tile.entry?, hfind, this]
  next hany =>
    have hnone : x.stash.find? (fun g => g.name == e.name) = none := by
      simpa using hany
    simp [Tile.entry?, List.find?_append, hnone]

end

/-- The directory of tile t has a record of a name, of a width and a number of elements, that is not lost. -/
def Core.hasRecord (c : Core) (t name width count : Nat) : Prop :=
  ∃ e, (c.tile t).entry? name = some e ∧ e.width = width ∧ e.count = count ∧ e.loc ≠ .lost

section
variable {c d : Core} {t p name width count : Nat}

theorem Core.hasRecord.of_stash (h : c.hasRecord t name width count) (hs : (d.tile t).stash = (c.tile t).stash) :
    d.hasRecord t name width count := by
  obtain ⟨e, he, hrest⟩ := h
  exact ⟨e, (Tile.entry?_of_stash hs name).trans he, hrest⟩

/-- A sequencer whose directory has been given the record. -/
theorem Core.hasRecord_setTile {x y : Tile} {e : StashEnt} (hs : y.stash = (x.putEntry e).stash) (hl : e.loc ≠ .lost) :
    (c.setTile t y).hasRecord t e.name e.width e.count := by
  refine ⟨e, ?_, rfl, rfl, hl⟩
  rw [Core.tile_setTile_same, Tile.entry?_of_stash hs, Tile.entry?_putEntry]

theorem Core.seqView_peak (c : Core) (f : Fld) (i n : Nat) : (c.peak f i n).seqView = c.seqView := rfl

/-- STASH_USE, STASH_PEAK and STASH_STATUS.LOST of a sequencer (R286). -/
def Core.stashCounts (c : Core) (t : Nat) (x : Tile) : Core :=
  let c := c.wr Regs.TILE_STASH_USE t (x.ringUsed % 2 ^ 16 + x.stash.length % 2 ^ 13 * 2 ^ 16 + x.spillHead % 2 ^ 32 * 2 ^ 32)
  let c := c.peak Regs.TILE_STASH_PEAK_RESIDENT t x.ringUsed
  let c := c.peak Regs.TILE_STASH_PEAK_SPILL_WORDS t x.spillHead
  c.wf Regs.TILE_STASH_STATUS_LOST t (b2n (x.stash.any (fun e => e.loc == .lost)))

theorem Core.stashRegs_eq (c : Core) (t : Nat) :
    c.stashRegs t = (c.setTile t (c.tile t).reclaim).stashCounts t (c.tile t).reclaim := rfl

theorem Core.seqView_stashCounts (c : Core) (t : Nat) (x : Tile) : (c.stashCounts t x).seqView = c.seqView := by
  unfold Core.stashCounts
  exact (Core.seqView_wf _ _ _ _).trans ((Core.seqView_peak _ _ _ _).trans ((Core.seqView_peak _ _ _ _).trans (Core.seqView_wr _ _ _ _)))

/-- The registers of the Shadow store leave the directory. -/
theorem Core.stash_stashRegs (c : Core) (t : Nat) : ((c.stashRegs t).tile t).stash = (c.tile t).stash := by
  rw [Core.stashRegs_eq, Core.tile_of_seqView (Core.seqView_stashCounts _ t _), Core.tile_setTile_same, Tile.stash_reclaim]

theorem Core.seqView_storeEntry (c : Core) (t p : Nat) (e : StashEnt) (bs : List Byte) : (c.storeEntry t p e bs).seqView = c.seqView := by
  unfold Core.storeEntry
  split
  · exact threadAll_view _ (fun c b => c.seqView_writePlace b.1 (.scratch t _)) _ c
  · exact c.seqView_writeView _ _ _
  · rfl

/-- Storing the bytes of an entry and bringing the registers up leave the directory. -/
theorem Core.hasRecord.stored (h : c.hasRecord t name width count) (e : StashEnt) (bs : List Byte) :
    ((c.storeEntry t p e bs).stashRegs t).hasRecord t name width count :=
  h.of_stash ((Core.stash_stashRegs _ _).trans (congrArg Tile.stash (Core.tile_of_seqView (c.seqView_storeEntry t p e bs) t)))

/-- The sequencer once the ring's next words, of so many, hold an entry (R273). -/
def Tile.allocated (x : Tile) (e : StashEnt) (words : Nat) : Tile :=
  let y := x.putEntry e
  { y with ring := y.ring ++ [{ start := e.addr, words := e.words, name := some e.name }], ringNext := (e.addr + e.words) % words }

theorem Core.allocEntry_eq (c : Core) (t p : Nat) (e : StashEnt) (bs : List Byte) : ∃ a, c.allocEntry t p e bs =
    ((c.setTile t ((c.tile t).allocated { e with addr := a } (max (c.resWords t) 1))).storeEntry t p { e with addr := a } bs).stashRegs t :=
  ⟨(c.tile t).ringNext % max (c.resWords t) 1, rfl⟩

theorem Core.hasRecord_allocEntry (c : Core) (t p : Nat) (e : StashEnt) (bs : List Byte) (hl : e.loc ≠ .lost) :
    (c.allocEntry t p e bs).hasRecord t e.name e.width e.count := by
  obtain ⟨a, heq⟩ := c.allocEntry_eq t p e bs
  rw [heq]
  have hstash : ((c.tile t).allocated { e with addr := a } (max (c.resWords t) 1)).stash = ((c.tile t).putEntry { e with addr := a }).stash := rfl
  have hset := Core.hasRecord_setTile (c := c) (t := t) (e := { e with addr := a }) hstash hl
  exact hset.stored _ _

end

/-- An entry that the Shadow store takes has its record (R274). -/
theorem Core.hasRecord_stashEntry {c c' : Core} {t p name width count : Nat} {bs : List Byte} {env : MemEnv}
    (h : c.stashEntry t p name width count bs env = (c', none)) : c'.hasRecord t name width count := by
  unfold Core.stashEntry at h
  extract_lets policy x need old fresh dropped inPlace cDropped c1 c1Reclaimed c1Spill e src c1Spilled c1Counted at h
  split at h
  · cases h
  split at h
  next hdropped =>
    obtain rfl := (Prod.mk.inj h).1
    have hset : cDropped.hasRecord t name width count :=
      Core.hasRecord_setTile (x := x) (y := (x.putEntry { fresh with loc := .dropped }).killSlot name) (e := { fresh with loc := .dropped })
        (Tile.stash_killSlot _ _) (show StashLoc.dropped ≠ .lost by decide)
    refine hset.of_stash ((Core.stash_stashRegs _ t).trans ?_)
    split <;> rfl
  split at h
  next hin =>
    obtain rfl := (Prod.mk.inj h).1
    cases hold : old with
    | none => simp [inPlace, hold] at hin
    | some e =>
      simp only [inPlace, hold, Bool.and_eq_true, Bool.or_eq_true, beq_iff_eq] at hin
      obtain ⟨⟨hwidth, hcount⟩, hloc⟩ := hin
      have hrecord : c.hasRecord t name width count := ⟨e, hold, hwidth, hcount, by rcases hloc with h | h <;> simp [h]⟩
      exact hrecord.of_stash (congrArg Tile.stash (Core.tile_of_seqView (c.seqView_storeEntry t p e bs) t))
  split at h
  next hneed =>
    obtain rfl := (Prod.mk.inj h).1
    have hset := Core.hasRecord_setTile (c := c) (t := t) (x := x.killSlot name) (e := fresh) rfl (show StashLoc.resident ≠ .lost by decide)
    exact hset.of_stash (Core.stash_stashRegs _ t)
  split at h
  next hpolicy =>
    split at h
    · obtain rfl := (Prod.mk.inj h).1
      exact Core.hasRecord_allocEntry _ t p fresh bs (show StashLoc.resident ≠ .lost by decide)
    · cases h
  split at h
  next hres =>
    split at h
    · exact nomatch (Prod.mk.inj h).2
    · obtain rfl := (Prod.mk.inj h).1
      have hset : c1Spilled.hasRecord t name width count :=
        Core.hasRecord_setTile (x := c1Spill.tile t) (e := e) rfl (show StashLoc.spilled ≠ .lost by decide)
      have hcounted : c1Counted.hasRecord t name width count := hset.of_stash rfl
      exact hcounted.stored e bs
  next =>
    split at h
    · exact nomatch (Prod.mk.inj h).2
    · obtain rfl := (Prod.mk.inj h).1
      exact Core.hasRecord_allocEntry _ t p fresh bs (show StashLoc.resident ≠ .lost by decide)

end Sys2Proof.Machine
end

section
/-! PROOFS. Two devices that hold the same bytes at the same places, their banks in the same states: scratchpad writes keep them so, and
replays, which count, leave a device one of them (R332, R338, R362). -/

namespace Sys2Proof.Machine

/-- Two chains of updates from related devices, each step keeping the relation. -/
theorem threadAll_rel {α β : Type} {R : α → α → Prop} {f g : α → β → α} {l : List β} (h : ∀ a a', ∀ b ∈ l, R a a' → R (f a b) (g a' b))
    {a a' : α} (ha : R a a') : R (threadAll f a l) (threadAll g a' l) := by
  induction l generalizing a a' with
  | nil => exact ha
  | cons x r ih => exact ih (fun a a' b hb => h a a' b (List.mem_cons_of_mem _ hb)) (h a a' x List.mem_cons_self ha)

/-- The registers that bytes of scratchpads depend on. -/
def byteRegs : List Reg := Regs.TILE_BANK_STATE :: mapRegs

/-- `d` holds the bytes of `c` at the same places, its banks in the same states. -/
def Core.sameStore (c d : Core) : Prop := d.mems = c.mems ∧ d.map = c.map ∧ ∀ r ∈ byteRegs, ∀ i, d.rd r i = c.rd r i

section
variable {a b c d : Core} {p l t o addr : Nat}

theorem Core.sameStore.refl (c : Core) : c.sameStore c := ⟨rfl, rfl, fun _ _ _ => rfl⟩

theorem Core.sameStore.trans (h : a.sameStore b) (h' : b.sameStore c) : a.sameStore c :=
  ⟨h'.1.trans h.1, h'.2.1.trans h.2.1, fun r hr i => (h'.2.2 r hr i).trans (h.2.2 r hr i)⟩

theorem Core.sameStore.ite {P : Prop} [Decidable P] (h : c.sameStore a) (h' : c.sameStore b) : c.sameStore (if P then a else b) := by
  split
  · exact h
  · exact h'

theorem Core.sameStore.rf (h : c.sameStore d) {f : Fld} (hf : f.reg ∈ byteRegs) (i : Nat) : d.rf f i = c.rf f i := by
  rw [Core.rf, Core.rf, h.2.2 _ hf]

theorem Core.sameStore.bankState (h : c.sameStore d) (t b : Nat) : d.bankState t b = c.bankState t b := by
  rw [Core.bankState, Core.bankState, h.rf (by decide)]

theorem Core.sameStore.physBank (h : c.sameStore d) (t b : Nat) : d.physBank t b = c.physBank t b := by
  rw [Core.physBank, Core.physBank, Core.flag, Core.flag, h.rf (f := Regs.TILE_BANK_MAP_SPARE_USED) (by decide),
    h.rf (f := Regs.TILE_BANK_MAP_SPARE_FOR) (by decide)]

theorem Core.sameStore.scratchKey (h : c.sameStore d) (t o : Nat) : d.scratchKey t o = c.scratchKey t o := by
  rw [Core.scratchKey, Core.scratchKey, h.physBank]

theorem Core.sameStore.scratch (h : c.sameStore d) : d.scratch = c.scratch := congrArg (·.1) h.1

/-! ### Replays -/

theorem Core.sameStore_of_regs (hm : a.mems = c.mems) (hmap : a.map = c.map) (hr : a.regs = c.regs) : c.sameStore a :=
  ⟨hm, hmap, fun r _ i => Core.rd_of_regs hr r i⟩

/-- Writing a counter of wakes or replays. -/
theorem Core.sameStore_wr (c : Core) {r : Reg} (hr : r ∈ replayRegs) (i v : Nat) : c.sameStore (c.wr r i v) :=
  ⟨rfl, rfl, fun q hq j => by
    obtain ⟨m, -, hclear⟩ := replayRegs_clear r hr q hq
    exact c.rd_wr_other v (Reg.at_ne_of_clear hclear j i)⟩

theorem Core.sameStore_count (c : Core) {f : Fld} (hf : f.reg ∈ replayRegs) (i n : Nat) : c.sameStore (c.count f i n) := c.sameStore_wr hf i _

theorem Core.sameStore_bankErr (c : Core) (t b : Nat) : c.sameStore (c.bankErr t b).2 := by
  unfold Core.bankErr
  exact c.sameStore_wr (by decide) _ _

theorem Core.sameStore_wordCounted (c : Core) (t o n : Nat) : c.sameStore (c.wordCounted t o n) := by
  unfold Core.wordCounted
  refine Core.sameStore.trans ?_ (Core.sameStore_wr _ (by decide) _ _)
  refine Core.sameStore.trans ?_ (Core.sameStore_count _ (by decide) _ _)
  exact (c.sameStore_bankErr _ _).trans (Core.sameStore_count _ (by decide) _ _)

theorem Core.sameStore_swapDue (c : Core) (q : List (Nat × Nat)) : c.sameStore { c with swapDue := q } := Core.sameStore_of_regs rfl rfl rfl

theorem Core.sameStore_wordCorrected (c : Core) (t o n : Nat) : c.sameStore (c.wordCorrected t o n) := by
  rw [Core.wordCorrected_eq]
  exact .ite ((c.sameStore_wordCounted t o n).trans (Core.sameStore_swapDue _ _)) (c.sameStore_wordCounted t o n)

theorem Core.sameStore_askRetire (c : Core) (h k : Nat) : c.sameStore (c.askRetire h k) := .ite (.refl c) (Core.sameStore_of_regs rfl rfl rfl)

theorem Core.sameStore_corrTicks (c : Core) (m : SMap (List Nat)) : c.sameStore { c with corrTicks := m } := Core.sameStore_of_regs rfl rfl rfl

theorem Core.sameStore_fresh (c : Core) : c.sameStore c.fresh.2 := Core.sameStore_of_regs rfl rfl rfl

theorem Core.sameStore_countReplays (c : Core) (h edc par : Nat) : c.sameStore (c.countReplays h edc par) :=
  (c.sameStore_count (f := Regs.MEM_EDC_REPLAYS_COUNT) (by decide) h edc).trans
    (Core.sameStore_count _ (f := Regs.MEM_PAR_REPLAYS_COUNT) (by decide) h par)

theorem Core.sameStore_lineCorrected (c : Core) (a edc par : Nat) : c.sameStore (c.lineCorrected a edc par) := by
  have hcount : ∀ w, c.sameStore (((c.fresh.2.countReplays (c.serves a).1 edc par).count Regs.MEM_CORRECTED_COUNT (c.serves a).1).wr
      Regs.MEM_LAST_ERR (c.serves a).1 w) := fun w =>
    ((c.sameStore_fresh.trans (Core.sameStore_countReplays _ _ _ _)).trans
      (Core.sameStore_count _ (f := Regs.MEM_CORRECTED_COUNT) (by decide) _ 1)).trans (Core.sameStore_wr _ (r := Regs.MEM_LAST_ERR) (by decide) _ w)
  exact .ite (((hcount _).trans (Core.sameStore_corrTicks _ _)).trans (Core.sameStore_askRetire _ _ _))
    ((hcount _).trans (Core.sameStore_corrTicks _ _))

/-- Replays count, and leave every byte and every bank. -/
theorem Core.sameStore_replayed (c : Core) (acc : List (Place × Nat)) (env : MemEnv) : c.sameStore (c.replayed acc env) := by
  refine threadAll_inv (fun a => c.sameStore a) (fun a e ha => ha.trans ?_) _ _
    (threadAll_inv (fun a => c.sameStore a) (fun a e ha => ha.trans ?_) _ c (.refl c))
  · exact .ite (a.sameStore_lineCorrected _ _ _) (.refl a)
  · dsimp only
    split
    · exact a.sameStore_wordCorrected _ _ _
    · exact .refl a

/-! ### Banks that wake -/

theorem Core.sameStore.symm (h : c.sameStore d) : d.sameStore c := ⟨h.1.symm, h.2.1.symm, fun r hr i => (h.2.2 r hr i).symm⟩

/-- One write of a counter on both devices. -/
theorem Core.sameStore.wr (h : c.sameStore d) {r : Reg} (hr : r ∈ replayRegs) (i v v' : Nat) : (c.wr r i v).sameStore (d.wr r i v') :=
  (c.sameStore_wr hr i v).symm.trans (h.trans (d.sameStore_wr hr i v'))

theorem Core.sameStore.count (h : c.sameStore d) {f : Fld} (hf : f.reg ∈ replayRegs) (i n : Nat) : (c.count f i n).sameStore (d.count f i n) :=
  h.wr hf i _ _

theorem Core.sameStore.setBankState (h : c.sameStore d) (t b v : Nat) : (c.setBankState t b v).sameStore (d.setBankState t b v) := by
  refine ⟨h.1, h.2.1, fun r hr i => ?_⟩
  have hrd := h.2.2 r hr i
  have hword : d.rd Regs.TILE_BANK_STATE t = c.rd Regs.TILE_BANK_STATE t := h.2.2 _ List.mem_cons_self t
  have hfield : d.rf Regs.TILE_BANK_STATE_STATE t = c.rf Regs.TILE_BANK_STATE_STATE t := h.rf (f := Regs.TILE_BANK_STATE_STATE) (by decide) t
  have hreg : Regs.TILE_BANK_STATE_STATE.reg = Regs.TILE_BANK_STATE := rfl
  unfold Core.setBankState Core.wf
  rw [hfield, hreg, hword]
  generalize setBits _ _ _ _ = w
  rcases List.mem_cons.mp hr with rfl | hmap
  · by_cases hat : Regs.TILE_BANK_STATE.at i = Regs.TILE_BANK_STATE.at t
    · have hsame : ∀ e : Core, (e.wr Regs.TILE_BANK_STATE t w).rd Regs.TILE_BANK_STATE i = w % 2 ^ 64 := fun e => by
        rw [← e.rd_wr_same Regs.TILE_BANK_STATE t w, Core.rd, Core.rd, hat]
      rw [hsame, hsame]
    · rw [Core.rd_wr_other _ _ hat, Core.rd_wr_other _ _ hat, hrd]
  · obtain ⟨m, -, hclear⟩ := bankState_clear r hmap
    rw [Core.rd_wr_other _ _ (Reg.at_ne_of_clear hclear i t), Core.rd_wr_other _ _ (Reg.at_ne_of_clear hclear i t), hrd]

/-- Devices with their scratchpads changed alike. -/
theorem Core.sameStore.withScratch (h : c.sameStore d) (m : SMap Byte) : ({ c with scratch := m } : Core).sameStore { d with scratch := m } := by
  obtain ⟨hm, hmap, hrd⟩ := h
  simp only [Core.mems, Prod.mk.injEq] at hm
  obtain ⟨-, hdram, hkey, hhost, hflash, hremote⟩ := hm
  refine ⟨?_, hmap, hrd⟩
  simp only [Core.mems, hdram, hkey, hhost, hflash, hremote]

theorem Core.sameStore.wakeBank (h : c.sameStore d) (t b : Nat) : (c.wakeBank t b).sameStore (d.wakeBank t b) := by
  unfold Core.wakeBank
  dsimp only
  rw [h.bankState]
  split
  · have hclear : (c.clearBank t (c.physBank t b)).sameStore (d.clearBank t (d.physBank t b)) := by
      unfold Core.clearBank
      rw [h.physBank, h.scratch]
      exact h.withScratch _
    exact ((hclear.setBankState t b bkCLEARING).count (f := Regs.TILE_BANK_WAKES_COUNT) (by decide) t 1).wr (by decide) _ _ _
  · split
    · exact (h.setBankState t b bkON).count (f := Regs.TILE_BANK_WAKES_COUNT) (by decide) t 1
    · exact h

/-! ### Bytes of scratchpads -/

theorem Core.sameStore.writeScratch (h : c.sameStore d) (t o : Nat) (v : Byte) : (c.writeScratch t o [v]).sameStore (d.writeScratch t o [v]) := by
  have hwoken : (c.wakeRange t o 1).sameStore (d.wakeRange t o 1) := threadAll_rel (fun _ _ b _ ha => ha.wakeBank t b) h
  unfold Core.writeScratch
  dsimp only [List.length_singleton]
  generalize c.wakeRange t o 1 = a at hwoken
  generalize d.wakeRange t o 1 = e at hwoken
  have hkey : e.scratchKey t = a.scratchKey t := funext fun o => hwoken.scratchKey t o
  rw [hwoken.scratch, hkey]
  exact hwoken.withScratch _

/-- A unified address of the tile's own scratchpad or of Umbra: the spaces of the units (R145). -/
def unitSpace (addr : Nat) : Prop := bits addr 63 60 = 0 ∨ bits addr 63 60 = 6

/-- The bytes of such an address lie in scratchpads. -/
theorem Core.place_of_unitSpace (c : Core) (hs : unitSpace addr) (p l o : Nat) :
    (∃ t a, c.place p l addr o = .scratch t a) ∨ c.place p l addr o = .nowhere := by
  rcases hs with hs | hs <;> simp only [Core.place, hs] <;> split
  · exact .inl ⟨_, _, rfl⟩
  · exact .inr rfl
  · exact .inl ⟨_, _, rfl⟩
  · exact .inr rfl

theorem Core.sameStore.place (h : c.sameStore d) (hs : unitSpace addr) (p l o : Nat) : d.place p l addr o = c.place p l addr o := by
  have howners : c.sameOwners d := fun p => ⟨h.2.2 _ (by decide) p, h.2.2 _ (by decide) p⟩
  have humbra : ∀ o, d.umbraPhys p o = c.umbraPhys p o := fun o => by
    unfold Core.umbraPhys Core.umbraPlace Core.phys
    rw [howners.groups, h.2.1]
  unfold Core.place Core.phys
  rcases hs with hs | hs <;> rw [hs] <;> simp only [h.2.1, humbra]

theorem Core.sameStore.writeAt (h : c.sameStore d) (hs : unitSpace addr) (p l off : Nat) (bs : List Byte) :
    (c.writeAt p l addr off bs).sameStore (d.writeAt p l addr off bs) := by
  refine threadAll_rel (fun a a' e _ ha => ?_) h
  rw [ha.place hs]
  rcases a.place_of_unitSpace hs p l e.1 with ⟨t, o, hp⟩ | hp <;> rw [hp]
  · exact ha.writeScratch t o e.2
  · exact ha

theorem Core.sameStore.elem (h : c.sameStore d) {ta : Desc} (hs : unitSpace ta.addr) (p l i0 i1 i2 i3 : Nat) :
    d.elem p l ta i0 i1 i2 i3 = c.elem p l ta i0 i1 i2 i3 := by
  unfold Core.elem Core.readAt
  congr 1
  refine List.map_congr_left fun k _ => ?_
  rw [h.place hs]
  rcases c.place_of_unitSpace hs p l k with ⟨t, o, hp⟩ | hp <;> rw [hp]
  · simp only [Core.readPlace, h.scratch, h.scratchKey]
  · rfl

theorem Core.sameStore.putElems (h : c.sameStore d) {td : Desc} (hs : unitSpace td.addr) (p l : Nat)
    (es : List ((Nat × Nat × Nat × Nat) × Nat)) : (c.putElems p l td es).sameStore (d.putElems p l td es) :=
  threadAll_rel (fun _ _ _ _ ha => ha.writeAt hs p l _ _) h

theorem Core.sameStore.zeroPadding (h : c.sameStore d) {td : Desc} (hs : unitSpace td.addr) (p l : Nat) :
    (c.zeroPadding p l td).sameStore (d.zeroPadding p l td) := by
  unfold Core.zeroPadding
  dsimp only
  split
  · exact h
  · split
    · exact h
    · exact h.putElems hs p l _

end

/-- An operation that passes its checks has the right shape, and each operand lies in a space that it accepts (R145, R676). -/
theorem Core.issueChecks_pass {c : Core} {p l : Nat} {ops : List Operand} {shape inPlace : Bool} (h : c.issueChecks p l ops shape inPlace = 0) :
    shape = true ∧ ∀ o ∈ ops, bitOf o.spaces (bits o.d.addr 63 60) = true := by
  unfold Core.issueChecks at h
  split at h
  · cases h
  split at h
  · cases h
  next hshape =>
    split at h
    · cases h
    split at h
    · cases h
    next hbounds =>
      refine ⟨by simpa using hshape, fun o ho => ?_⟩
      simp only [Bool.not_eq_true', Bool.not_eq_false, List.all_eq_true, Core.boundsStage, Bool.and_eq_true] at hbounds
      exact (hbounds o ho).1.1

/-- The operands of a unit that pass its checks lie in its spaces. -/
theorem unitSpace_of_accepted {addr : Nat} (h : bitOf spUnit (bits addr 63 60) = true) : unitSpace addr := by
  have hall : ∀ k, k < 16 → bitOf spUnit k = true → k = 0 ∨ k = 6 := by decide
  exact hall _ (bits_lt addr 63 60) h

end Sys2Proof.Machine
end

section
/-! PROOFS. The S-forms and the G-forms (R219 to R222, R274), O16. -/

namespace Sys2Proof.Machine

section
variable {c b : Core} {x : TArgs} {l p : Nat} {td ta tc : Desc}

/-! ### The S-forms -/

/-- What an S-form gives for each element of td, in the order of R88: its y and its stashed value (R220). -/
def Core.stashValues (b : Core) (l p : Nat) (td ta : Desc) (f : FFmt → SForm) : List (Num × Nat) :=
  (td.indices88.map (fun i => b.elem p l ta i.1 i.2.1 i.2.2.1 i.2.2.2)).zipIdx.map (fun e => f ta.ffmt e.1 (decodeF ta.ffmt e.1) e.2)

/-- The Shadow store asked to take the stashed values of an S-form (R274). -/
def Core.stashAsked (b : Core) (x : TArgs) (l p : Nat) (td ta : Desc) (width : Nat) (f : FFmt → SForm) : Core × Option Exhaust :=
  b.stashEntry x.tile.val p (bits x.mods.toNat 16 0) width td.indices88.length (packEntry width ((b.stashValues l p td ta f).map (·.2))) x.env

/-- The outputs of an S-form written to td, on the device as the Shadow store left it. -/
def Core.stashPut (k b : Core) (l p : Nat) (td ta : Desc) (f : FFmt → SForm) : Core :=
  (k.zeroPadding p l td).putElems p l td (td.indices88.zip ((b.stashValues l p td ta f).map (fun v => roundNum td.ffmt .nearest v.1)))

section
variable {width : Nat} {bad : Bool} {f : FFmt → SForm} {k : Core} (htd : (c.tile x.tile.val).desc x.td.val = td)
  (hta : (c.tile x.tile.val).desc x.ta.val = ta)
  (hchecks : c.issueChecks p l (unitOps td [ta] spUnit) (td.isFP && ta.isFP && ta.sameExt td && !bad) true = 0)
  (hmem : c.memFaults p l (unitOps td [ta] spUnit) x.env = (0, b))
include htd hta hchecks hmem

/-- An S-form whose entry is taken, no line of the spill area being lost, writes its outputs. -/
theorem Core.opStash_writes (he : td.empty = false) (hcol : td.mayCollide = false) (hkept : b.stashAsked x l p td ta width f = (k, none))
    (hlost : k.spillWritesLost x.tile.val p (b.tile x.tile.val).spillHead ((b.tile x.tile.val).entry? (bits x.mods.toNat 16 0)) x.env = []) :
    c.opStash x l p width bad f = { c := k.stashPut b l p td ta f } := by
  subst htd hta
  simp only [unitOps, List.map_cons, List.map_nil] at hchecks hmem
  unfold Core.stashAsked Core.stashValues at hkept
  simp only [Core.opStash, hchecks, hmem, he, hcol, hkept, hlost, ne_eq, not_true, if_false, false_and, Bool.false_eq_true]
  rfl

/-- An S-form whose entry finds no room writes nothing. -/
theorem Core.opStash_full {cause : Nat} (hkept : b.stashAsked x l p td ta width f = (k, some cause)) :
    ∃ work, c.opStash x l p width bad f = { c := k, st := St.STASH_FULL, work := work } := by
  subst htd hta
  simp only [unitOps, List.map_cons, List.map_nil] at hchecks hmem
  unfold Core.stashAsked Core.stashValues at hkept
  simp only [Core.opStash, hchecks, hmem, hkept, ne_eq, not_true, if_false, false_and]
  exact ⟨_, rfl⟩

end

theorem Core.seqView_stashPut (k b : Core) (l p : Nat) (td ta : Desc) (f : FFmt → SForm) : (k.stashPut b l p td ta f).seqView = k.seqView :=
  (Core.seqView_putElems _ p l td _).trans (k.seqView_zeroPadding p l td)

/-! ### The G-forms -/

/-- The gradients of a G-form under the values of its entry (R220). -/
def Core.gradElems (c : Core) (p l : Nat) (td ta : Desc) (g : GForm) (vs : Nat → Nat) : List ((Nat × Nat × Nat × Nat) × Nat) :=
  td.indices88.zipIdx.map (fun e =>
    (e.1, roundNum td.ffmt .nearest (g (decodeF ta.ffmt (c.elem p l ta e.1.1 e.1.2.1 e.1.2.2.1 e.1.2.2.2)) (vs e.2))))

theorem Core.gradOut_eq (c : Core) (hcol : td.mayCollide = false) (g : GForm) (vs : Nat → Nat) :
    c.gradOut p l td ta g vs = (c.zeroPadding p l td).putElems p l td (c.gradElems p l td ta g vs) := by
  simp only [Core.gradOut, hcol, Bool.false_eq_true, if_false]
  rfl

theorem Core.seqView_gradOut (c : Core) (hcol : td.mayCollide = false) (g : GForm) (vs : Nat → Nat) :
    (c.gradOut p l td ta g vs).seqView = c.seqView := by
  rw [c.gradOut_eq hcol]
  exact (Core.seqView_putElems _ p l td _).trans (c.seqView_zeroPadding p l td)

/-- Devices that hold the same bytes hold the same bytes once the gradients are written. -/
theorem Core.sameStore.gradOut {d : Core} (h : c.sameStore d) (hcol : td.mayCollide = false) (htd : unitSpace td.addr) (hta : unitSpace ta.addr)
    (g : GForm) (vs : Nat → Nat) : (c.gradOut p l td ta g vs).sameStore (d.gradOut p l td ta g vs) := by
  have helems : d.gradElems p l td ta g vs = c.gradElems p l td ta g vs := by
    simp only [Core.gradElems, h.elem hta]
  rw [c.gradOut_eq hcol, d.gradOut_eq hcol, helems]
  exact (h.zeroPadding htd p l).putElems htd p l _

/-- The device once a G-form has read its entry: bytes fetched from the spill area are counted, the banks of a resident entry are awake. -/
def Core.entryRead (b : Core) (t : Nat) (e : StashEnt) : Core :=
  if e.loc = .spilled then b.count Regs.TILE_STASH_FETCH_BYTES_COUNT t (64 * e.words)
  else threadAll (fun c k => c.wakeBank t (c.resByte t e.addr (64 * k) / bankBytes)) b (List.range e.words)

theorem Core.seqView_entryRead (b : Core) (t : Nat) (e : StashEnt) : (b.entryRead t e).seqView = b.seqView :=
  Core.seqView_ite (b.seqView_count _ _ _) (threadAll_view _ (fun c _ => c.seqView_wakeBank _ _) _ b)

/-- A G-form over a readable entry of its width writes the gradients; replays of the read are counted first. -/
theorem Core.opGrad_writes {width : Nat} {g : GForm} {e : StashEnt} (htd : (c.tile x.tile.val).desc x.td.val = td)
    (hta : (c.tile x.tile.val).desc x.ta.val = ta)
    (hchecks : c.issueChecks p l (unitOps td [ta] spUnit) (td.isFP && ta.isFP && ta.sameExt td) true = 0)
    (hmem : c.memFaults p l (unitOps td [ta] spUnit) x.env = (0, b)) (he : ta.empty = false)
    (hentry : (c.tile x.tile.val).entry? (bits x.mods.toNat 16 0) = some e) (hcount : e.count = ta.count) (hwidth : e.width = width)
    (hloc : e.loc = .resident ∨ e.loc = .spilled) (hlost : c.entryLost x.tile.val e x.env = none)
    (hspill : c.spillLost x.tile.val p e x.env = none) :
    ∃ d, (b.entryRead x.tile.val e).sameStore d ∧ d.seqView = b.seqView ∧
      c.opGrad x l p width g = { c := d.gradOut p l td ta g (unpackEntry width (b.loadEntry x.tile.val p e)) } := by
  subst htd hta hwidth
  have hdropped : e.loc ≠ .dropped := by rcases hloc with h | h <;> simp [h]
  have hkept : e.loc ≠ .lost := by rcases hloc with h | h <;> simp [h]
  simp only [unitOps, List.map_cons, List.map_nil] at hchecks hmem
  refine ⟨if corrects x.env then (b.entryRead x.tile.val e).replayed ((b.entryRead x.tile.val e).entryAccesses x.tile.val p e) x.env
    else b.entryRead x.tile.val e, .ite (Core.sameStore_replayed _ _ _) (.refl _),
    Core.seqView_ite ((Core.seqView_replayed _ _ _).trans (b.seqView_entryRead _ e)) (b.seqView_entryRead _ e), ?_⟩
  simp only [Core.opGrad, hchecks, hmem, he, hentry, hcount, hdropped, hkept, hlost, hspill, ne_eq, not_true, if_false, if_true,
    Bool.false_eq_true]
  rfl

/-- The values that an X-form takes from tc, or from the seed (R220). -/
def Core.gradXValues (b : Core) (p l : Nat) (td tc : Desc) (useTc : Bool) (f : FFmt → SForm) : List Nat :=
  td.indices88.zipIdx.map (fun e =>
    if useTc then (let w := b.elem p l tc e.1.1 e.1.2.1 e.1.2.2.1 e.1.2.2.2; (f tc.ffmt w (decodeF tc.ffmt w) e.2).2) else (f .fp32 0 .nan e.2).2)

/-- An X-form writes the gradients. -/
theorem Core.opGradX_writes {useTc bad : Bool} {g : GForm} {f : FFmt → SForm} (htd : (c.tile x.tile.val).desc x.td.val = td)
    (hta : (c.tile x.tile.val).desc x.ta.val = ta) (htc : (c.tile x.tile.val).desc x.tc.val = tc)
    (hchecks : c.issueChecks p l (unitOps td ([ta] ++ if useTc then [tc] else []) spUnit)
      (td.isFP && ta.isFP && ta.sameExt td && (!useTc || (tc.isFP && tc.sameExt td)) && !bad) true = 0)
    (hmem : c.memFaults p l (unitOps td ([ta] ++ if useTc then [tc] else []) spUnit) x.env = (0, b)) (he : td.empty = false) :
    c.opGradX x l p useTc bad g f = { c := b.gradOut p l td ta g (fun n => ((b.gradXValues p l td tc useTc f)[n]?).getD 0) } := by
  subst htd hta htc
  cases useTc
  all_goals
    simp only [unitOps, List.map_cons, List.map_nil, List.singleton_append, if_true, if_false, Bool.false_eq_true] at hchecks hmem
    simp only [Core.opGradX, hchecks, hmem, he, List.cons_append, List.nil_append, ne_eq, not_true, if_true, if_false, Bool.false_eq_true]
    rfl

end

/-! ### The instructions -/

theorem Core.stepOf_atUnit (c : Core) (t p : Nat) : (c.atUnit t).stepOf p = c.stepOf p := by
  have hseq := c.seqTo_atIssue t
  have hissue : (c.atIssue t).stepOf p = c.stepOf p := by
    rw [Core.stepOf, Core.stepOf, hseq.owners.lead, hseq.rf (f := Regs.UPD_STEP_STEP) (by decide)]
  exact hissue

section
variable {x : TArgs} {s : State} {p width : Nat} {i : Instr} {op : TOp} {bad useTc : Bool} {g : GForm} {f : FFmt → SForm}

/-- The command of an S-form; dropout takes the step from the device as the unit finds it. -/
theorem stash_exec (hrow : (i, op, width, bad, f) ∈ stashRows x (s.core.stepOf p)) : ∃ form : Core → Nat → FFmt → SForm,
    exec i s = s.on (fun c => c.tensorIns x op (fun c l p => c.opStash x l p width bad (form c p))) ∧
      form (s.core.atUnit x.tile.val) p = f := by
  simp only [stashRows, List.mem_cons, Prod.mk.injEq, List.not_mem_nil, or_false] at hrow
  rcases hrow with h | h | h | h <;> obtain ⟨rfl, rfl, rfl, rfl, rfl⟩ := h
  · exact ⟨fun _ _ _ => reluS, rfl, rfl⟩
  · exact ⟨fun c p _ => dropS (TArgs.dropT x) (TArgs.dropSeed x) (c.stepOf p), rfl, by simp only [Core.stepOf_atUnit]⟩
  · exact ⟨fun _ _ => absS, rfl, rfl⟩
  · exact ⟨fun _ _ _ => clampS (TArgs.lo x) (TArgs.hi x), rfl, rfl⟩

/-- The command of a G-form over its entry. -/
theorem grad_exec (hrow : (i, op, width, g) ∈ gradRows x) :
    exec i s = s.on (fun c => c.tensorIns x op (fun c l p => c.opGrad x l p width g)) := by
  simp only [gradRows, List.mem_cons, Prod.mk.injEq, List.not_mem_nil, or_false] at hrow
  rcases hrow with h | h | h | h <;> obtain ⟨rfl, rfl, rfl, rfl⟩ := h <;> rfl

/-- The command of an X-form. -/
theorem gradX_exec (hrow : (i, op, useTc, bad, g, f) ∈ gradXRows x (s.core.stepOf p)) : ∃ form : Core → Nat → FFmt → SForm,
    exec i s = s.on (fun c => c.tensorIns x op (fun c l p => c.opGradX x l p useTc bad g (form c p))) ∧
      form (s.core.atUnit x.tile.val) p = f := by
  simp only [gradXRows, List.mem_cons, Prod.mk.injEq, List.not_mem_nil, or_false] at hrow
  rcases hrow with h | h | h | h <;> obtain ⟨rfl, rfl, rfl, rfl, rfl, rfl⟩ := h
  · exact ⟨fun _ _ _ => reluS, rfl, rfl⟩
  · exact ⟨fun c p _ => dropS (TArgs.dropT x) (TArgs.dropSeed x) (c.stepOf p), rfl, by simp only [Core.stepOf_atUnit]⟩
  · exact ⟨fun _ _ => absS, rfl, rfl⟩
  · exact ⟨fun _ _ _ => clampS (TArgs.lo x) (TArgs.hi x), rfl, rfl⟩

end

theorem Desc.empty_of_sameExt {d e : Desc} (h : d.sameExt e = true) : d.empty = e.empty := by
  have hexts : d.exts = e.exts := beq_iff_eq.mp h
  simp only [Desc.exts, List.cons.injEq, and_true] at hexts
  obtain ⟨h0, h1, h2, h3⟩ := hexts
  rw [Desc.empty, Desc.empty, Desc.count, Desc.count, h0, h1, h2, h3]

/-- The first operand and the second lie in the unit's spaces when the checks pass. -/
theorem unitSpaces {c : Core} {p l : Nat} {td ta : Desc} {shape inPlace : Bool}
    (h : c.issueChecks p l (unitOps td [ta] spUnit) shape inPlace = 0) : unitSpace td.addr ∧ unitSpace ta.addr := by
  obtain ⟨-, hspaces⟩ := Core.issueChecks_pass h
  exact ⟨unitSpace_of_accepted (hspaces _ List.mem_cons_self), unitSpace_of_accepted (hspaces _ (List.mem_cons_of_mem _ List.mem_cons_self))⟩

/-- An operation that answers `r` is in progress with `r`'s status, and its tile keeps the directory and the ring that `r` left. -/
theorem answers_stashed {s : State} {x : TArgs} {i : Instr} {op : TOp} {body : Core → Nat → Nat → OpRes} {r : OpRes}
    (hexec : exec i s = s.on (fun c => c.tensorIns x op body)) (ht : s.core.takesT x op = true) (hrec : s.core.recordOk x op)
    (hbody : body (s.core.atUnit x.tile.val) (s.core.who x.tile.val).1 (s.core.who x.tile.val).2 = r) :
    Answers s i (fun c => c.mems = r.c.mems ∧ (c.tile x.tile.val).stash = (r.c.tile x.tile.val).stash ∧
      (c.tile x.tile.val).ring = (r.c.tile x.tile.val).ring ∧ ∃ o ∈ c.ops, o.id = r.c.nextOp ∧ o.status = r.st ∧ o.major = op.uses.major) := by
  refine answers_tensor hexec ht hrec hbody fun c hmems _ htile _ hops => ⟨hmems, ?_, ?_, ?_⟩
  · rw [htile]
    rfl
  · rw [htile]
    rfl
  · obtain ⟨unit, pc, item, hops⟩ := hops
    rw [hops]
    exact ⟨_, List.mem_append_right _ List.mem_cons_self, rfl, rfl, rfl⟩

/-- Settles O16: each form is one path of its operation, the Shadow store's records by the branches of its store. -/
theorem stashAndGradients : Obligations.StashAndGradients := by
  refine ⟨fun x s b => ?_, fun width vs i v hw h => unpackEntry_packEntry hw h, fun c c' t p name width count bs env h => Core.hasRecord_stashEntry h⟩
  intro t y l p td ta tc name step raw he hcol
  refine ⟨fun i op width bad f hrow ht hrec hruns => ?_, fun i op width g e hrow ht hrec hruns hentry hcount hwidth hloc hlost hspill => ?_,
    fun i op useTc bad g f hrow ht hrec hruns => ?_⟩
  · obtain ⟨form, hexec, rfl⟩ := stash_exec hrow
    intro ys kept
    refine ⟨fun hkept hlost => ?_, fun cause hkept => ?_⟩
    · have hbody := Core.opStash_writes (c := s.core.atUnit t) (k := kept.1) rfl rfl hruns.1 hruns.2 he hcol (Prod.ext rfl hkept) hlost
      have hview := kept.1.seqView_stashPut b l p td ta (form (s.core.atUnit t) p)
      have htile := Core.tile_of_seqView hview t
      obtain ⟨c, hnext, hmems, hstash, hring, o, ho, hid, hrest⟩ := answers_stashed hexec ht hrec hbody
      exact ⟨c, hnext, hmems, hstash.trans (congrArg Tile.stash htile), hring.trans (congrArg Tile.ring htile), o, ho,
        hid.trans (Core.seqView_eq_iff.mp hview).2.2.2, hrest⟩
    · obtain ⟨work, hbody⟩ := Core.opStash_full (c := s.core.atUnit t) (k := kept.1) rfl rfl hruns.1 hruns.2 (Prod.ext rfl hkept)
      obtain ⟨c, hnext, hmems, -, -, ho⟩ := answers_stashed hexec ht hrec hbody
      exact ⟨c, hnext, hmems, ho⟩
  · intro vs b'
    have hshape := (Core.issueChecks_pass hruns.1).1
    have hempty : ta.empty = false := (Desc.empty_of_sameExt (by simp only [Bool.and_eq_true] at hshape; exact hshape.2)).trans he
    obtain ⟨htd, hta⟩ := unitSpaces hruns.1
    obtain ⟨d, hsame, hview, hbody⟩ := Core.opGrad_writes (c := s.core.atUnit t) rfl rfl hruns.1 hruns.2 hempty hentry hcount hwidth hloc hlost
      hspill
    obtain ⟨c, hnext, hmems, hstarted⟩ := answers_started (grad_exec hrow) ht hrec hbody
      ((d.seqView_gradOut hcol _ _).trans (hview.trans (Core.runsFrom_view hruns)))
    exact ⟨c, hnext, hmems.trans (hsame.gradOut hcol htd hta g vs).1, hstarted⟩
  · obtain ⟨form, hexec, rfl⟩ := gradX_exec hrow
    intro vs
    have hbody := Core.opGradX_writes (c := s.core.atUnit t) (g := g) (f := form (s.core.atUnit t) p) rfl rfl rfl hruns.1 hruns.2 he
    exact answers_started hexec ht hrec hbody ((b.seqView_gradOut hcol _ _).trans (Core.runsFrom_view hruns))

end Sys2Proof.Machine
end

section
/-! PROOFS. The order in which the route unit ranks logits (R253), O18. -/

namespace Sys2Proof.Machine

/-! ### Fractions as rationals -/

/-- The rational a fraction stands for. -/
def Q.toRat (q : Q) : ℚ := q.num / q.den

theorem Q.lt_iff_toRat {a b : Q} (ha : 0 < a.den) (hb : 0 < b.den) : Q.lt a b = true ↔ a.toRat < b.toRat := by
  rw [Q.lt, decide_eq_true_iff, Q.toRat, Q.toRat, div_lt_div_iff₀ (by exact_mod_cast ha) (by exact_mod_cast hb)]
  exact_mod_cast Iff.rfl

theorem Q.isZero_iff_toRat {a : Q} (ha : 0 < a.den) : a.isZero = true ↔ a.toRat = 0 := by
  rw [Q.isZero, beq_iff_eq, Q.toRat, div_eq_zero_iff]
  simp [ha.ne']

theorem Q.mk'_den_pos {n : Int} {d : Nat} (hd : 0 < d) : 0 < (Q.mk' n d).den := by
  rw [Q.mk']
  have hgcd : Nat.gcd n.natAbs d ≠ 0 := (Nat.gcd_pos_of_pos_right _ hd).ne'
  rw [if_neg hgcd]
  exact Nat.div_pos (Nat.gcd_le_right _ hd) (Nat.pos_of_ne_zero hgcd)

theorem Q.pow2_den_pos (e : Int) : 0 < (Q.pow2 e).den := by
  cases e with
  | ofNat n => exact Nat.one_pos
  | negSucc n => exact Nat.two_pow_pos _

theorem Q.mul_den_pos {a b : Q} (ha : 0 < a.den) (hb : 0 < b.den) : 0 < (Q.mul a b).den :=
  Q.mk'_den_pos (Nat.mul_pos ha hb)

/-! ### The order of values -/

/-- The fraction of a finite value has a denominator: true of every decoded value, false of some literals. -/
def Num.Proper : Num → Prop
  | .fin _ q => 0 < q.den
  | _ => True

theorem decodeF_proper (f : FFmt) (w : Nat) : (decodeF f w).Proper := by
  rw [decodeF.eq_def]
  dsimp only
  split_ifs
  · trivial
  · trivial
  · cases f with
    | fp16 => exact Q.mul_den_pos Nat.one_pos (Q.pow2_den_pos _)
    | fp32 => exact Nat.one_pos
  · exact Q.mul_den_pos Nat.one_pos (Q.pow2_den_pos _)

/-- Where R253 puts a value, lowest first: NaN, then −∞, the finite values with -0 just below +0, and +∞. -/
def Num.rankKey : Num → ℤ ×ₗ ℚ ×ₗ Bool
  | .nan => toLex (-2, toLex (0, false))
  | .inf neg => toLex (if neg then -1 else 1, toLex (0, false))
  | .fin neg q => toLex (0, toLex ((Num.fin neg q).toQ.toRat, q.isZero && !neg))

theorem Num.rankKey_nan_le (a : Num) : Num.nan.rankKey ≤ a.rankKey := by
  cases a with
  | nan => exact le_rfl
  | inf neg => cases neg <;> simp [Num.rankKey, Prod.Lex.toLex_le_toLex]
  | fin neg q => simp [Num.rankKey, Prod.Lex.toLex_le_toLex]

theorem Num.rankKey_le_nan {a : Num} : a.rankKey ≤ Num.nan.rankKey ↔ a = .nan := by
  cases a with
  | nan => simp
  | inf neg => cases neg <;> simp [Num.rankKey, Prod.Lex.toLex_le_toLex]
  | fin neg q => simp [Num.rankKey, Prod.Lex.toLex_le_toLex]

theorem Num.toQ_toRat_eq_zero {neg : Bool} {q : Q} (hq : 0 < q.den) : (Num.fin neg q).toQ.toRat = 0 ↔ q.isZero = true := by
  rw [Q.isZero_iff_toRat hq]
  cases neg <;> simp [Num.toQ, Q.neg, Q.toRat]

/-- Two finite values: a pair of zeros is ordered by sign, every other pair by value. -/
theorem ltNum_fin_iff {x y : Bool} {p q : Q} (hp : 0 < p.den) (hq : 0 < q.den) :
    ltNum (.fin x p) (.fin y q) = true ↔ (Num.fin x p).rankKey < (Num.fin y q).rankKey := by
  have hvalue : Q.lt (if x then p.neg else p) (if y then q.neg else q) = true ↔ (Num.fin x p).toQ.toRat < (Num.fin y q).toQ.toRat := by
    rw [← Q.lt_iff_toRat]
    · cases x <;> cases y <;> rfl
    · cases x <;> exact hp
    · cases y <;> exact hq
  have hx := Num.toQ_toRat_eq_zero (neg := x) hp
  have hy := Num.toQ_toRat_eq_zero (neg := y) hq
  simp only [ltNum, Num.rankKey, Prod.Lex.toLex_lt_toLex, lt_irrefl, false_or, true_and, Bool.lt_iff]
  by_cases hzero : p.isZero = true ∧ q.isZero = true
  · rw [if_pos hzero, hx.mpr hzero.1, hy.mpr hzero.2, hzero.1, hzero.2]
    cases x <;> cases y <;> simp
  · rw [if_neg hzero, hvalue, or_iff_left]
    rintro ⟨heq, -, hq0⟩
    have hq0 : q.isZero = true := (Bool.and_eq_true_iff.mp hq0).1
    exact hzero ⟨hx.mp (heq.trans (hy.mpr hq0)), hq0⟩

theorem ltNum_iff {a b : Num} (ha : a.Proper) (hb : b.Proper) : ltNum a b = true ↔ a.rankKey < b.rankKey ∧ a ≠ .nan := by
  match a, b with
  | .nan, b => simp [ltNum]
  | .inf x, .nan => simp [ltNum, (Num.rankKey_nan_le (.inf x)).not_gt]
  | .fin x p, .nan => simp [ltNum, (Num.rankKey_nan_le (.fin x p)).not_gt]
  | .inf x, .inf y => cases x <;> cases y <;> simp [ltNum, Num.rankKey, Prod.Lex.toLex_lt_toLex]
  | .inf x, .fin y q => cases x <;> simp [ltNum, Num.rankKey, Prod.Lex.toLex_lt_toLex]
  | .fin x p, .inf y => cases y <;> simp [ltNum, Num.rankKey, Prod.Lex.toLex_lt_toLex]
  | .fin x p, .fin y q => simpa using ltNum_fin_iff ha hb

theorem ltNum_eq_false_iff {a b : Num} (ha : a.Proper) (hb : b.Proper) : ltNum a b = false ↔ b.rankKey ≤ a.rankKey ∨ a = .nan := by
  rw [← Bool.not_eq_true, ltNum_iff ha hb, not_and_or, not_lt, not_not]

theorem rankNotAfter_eq {a b : Num} : rankNotAfter a b = true ↔ b = .nan ∨ a ≠ .nan ∧ ltNum a b = false := by
  cases a <;> cases b <;> simp [rankNotAfter]

theorem rankNotAfter_iff {a b : Num} (ha : a.Proper) (hb : b.Proper) : rankNotAfter a b = true ↔ b.rankKey ≤ a.rankKey := by
  rw [rankNotAfter_eq, ltNum_eq_false_iff ha hb]
  constructor
  · rintro (rfl | ⟨hnan, hle | rfl⟩)
    · exact Num.rankKey_nan_le a
    · exact hle
    · exact absurd rfl hnan
  · intro hle
    by_cases hnan : a = .nan
    · subst hnan
      exact .inl (Num.rankKey_le_nan.mp hle)
    · exact .inr ⟨hnan, .inl hle⟩

/-! ### The ranking -/

/-- The place of an expert in a token's ranking: by its logit from the highest, then by its index. -/
def rankPlace (e : Nat × Num) : (ℤ ×ₗ ℚ ×ₗ Bool)ᵒᵈ ×ₗ ℕ := toLex (OrderDual.toDual e.2.rankKey, e.1)

theorem rankPlace_lt {a b : Nat × Num} :
    rankPlace a < rankPlace b ↔ b.2.rankKey < a.2.rankKey ∨ a.2.rankKey = b.2.rankKey ∧ a.1 < b.1 := by
  rw [rankPlace, rankPlace, Prod.Lex.toLex_lt_toLex, OrderDual.toDual_lt_toDual, OrderDual.toDual_inj]

theorem insertRank_perm (e : Nat × Num) (l : List (Nat × Num)) : (insertRank e l).Perm (e :: l) := by
  induction l with
  | nil => exact .refl _
  | cons f r ih =>
    rw [insertRank]
    split_ifs
    · exact .refl _
    · exact (ih.cons f).trans (.swap e f r)

theorem foldr_insertRank_perm (es : List (Nat × Num)) : (es.foldr insertRank []).Perm es := by
  induction es with
  | nil => exact .refl _
  | cons e es ih => exact (insertRank_perm e _).trans (ih.cons e)

/-- An expert of the lowest index goes before the first whose logit is not above its own. -/
theorem insertRank_sorted {e : Nat × Num} {l : List (Nat × Num)} (he : e.2.Proper) (hl : ∀ f ∈ l, f.2.Proper ∧ e.1 < f.1)
    (hsorted : l.Pairwise (fun a b => rankPlace a < rankPlace b)) :
    (insertRank e l).Pairwise (fun a b => rankPlace a < rankPlace b) := by
  induction l with
  | nil => exact List.pairwise_singleton _ _
  | cons f r ih =>
    obtain ⟨hf, hr⟩ := List.forall_mem_cons.mp hl
    obtain ⟨hfr, hrest⟩ := List.pairwise_cons.mp hsorted
    have hplace := rankNotAfter_iff he hf.1
    rw [insertRank]
    split_ifs with h
    · have hef : rankPlace e < rankPlace f := rankPlace_lt.mpr ((hplace.mp h).lt_or_eq.imp_right fun heq => ⟨heq.symm, hf.2⟩)
      exact List.pairwise_cons.mpr ⟨List.forall_mem_cons.mpr ⟨hef, fun g hg => hef.trans (hfr g hg)⟩, hsorted⟩
    · have hfe : rankPlace f < rankPlace e := rankPlace_lt.mpr (.inl (not_le.mp (mt hplace.mpr h)))
      refine List.pairwise_cons.mpr ⟨fun g hg => ?_, ih hr hrest⟩
      rcases List.mem_cons.mp ((insertRank_perm e r).mem_iff.mp hg) with rfl | hg
      · exact hfe
      · exact hfr g hg

theorem foldr_insertRank_sorted {es : List (Nat × Num)} (hproper : ∀ e ∈ es, e.2.Proper) (hindex : es.Pairwise (fun a b => a.1 < b.1)) :
    (es.foldr insertRank []).Pairwise (fun a b => rankPlace a < rankPlace b) := by
  induction es with
  | nil => exact .nil
  | cons e es ih =>
    obtain ⟨he, hes⟩ := List.forall_mem_cons.mp hproper
    obtain ⟨hlt, hindex⟩ := List.pairwise_cons.mp hindex
    refine insertRank_sorted he (fun f hf => ?_) (ih hes hindex)
    have hmem := (foldr_insertRank_perm es).mem_iff.mp hf
    exact ⟨hes f hmem, hlt f hmem⟩

/-- The experts of a token in the order of their indices, with their logits. -/
def expertsOf (ls : List Num) : List (Nat × Num) := ls.zipIdx.map (fun e => (e.2, e.1))

theorem mem_expertsOf {ls : List Num} {n : Nat} {v : Num} : (n, v) ∈ expertsOf ls ↔ ls[n]? = some v := by
  simp [expertsOf, List.mem_zipIdx_iff_getElem?]

theorem expertsOf_index (ls : List Num) : (expertsOf ls).map Prod.fst = List.range ls.length := by
  rw [expertsOf, List.map_map, List.range_eq_range']
  exact List.zipIdx_map_snd 0 ls

theorem rankLogits_perm (ls : List Num) : (rankLogits ls).Perm (expertsOf ls) := foldr_insertRank_perm _

theorem rankLogits_sorted {ls : List Num} (h : ∀ v ∈ ls, v.Proper) : (rankLogits ls).Pairwise (fun a b => rankPlace a < rankPlace b) := by
  refine foldr_insertRank_sorted (es := expertsOf ls) (fun e he => h _ (List.mem_of_getElem? (mem_expertsOf.mp he))) ?_
  have hrange : ((expertsOf ls).map Prod.fst).Pairwise (· < ·) := expertsOf_index ls ▸ List.pairwise_lt_range
  exact List.pairwise_map.mp hrange

theorem rankLogits_index_ne (ls : List Num) : (rankLogits ls).Pairwise (fun a b => a.1 ≠ b.1) := by
  have hrange : ((expertsOf ls).map Prod.fst).Nodup := expertsOf_index ls ▸ List.nodup_range
  exact List.pairwise_map.mp (((rankLogits_perm ls).map Prod.fst).nodup_iff.mpr hrange)

/-- What stands before in a ranking has a logit that is not below, NaN last, and of equal logits the lower index first. -/
theorem ranked_of_rankPlace_lt {a b : Nat × Num} (ha : a.2.Proper) (hb : b.2.Proper) (h : rankPlace a < rankPlace b) :
    (a.2 = .nan → b.2 = .nan ∧ a.1 < b.1) ∧ ltNum a.2 b.2 = false ∧ (ltNum b.2 a.2 = false → b.2 ≠ .nan → a.1 < b.1) := by
  have hcases := rankPlace_lt.mp h
  have hle : b.2.rankKey ≤ a.2.rankKey := hcases.elim le_of_lt fun heq => heq.1.ge
  refine ⟨fun hnan => ?_, (ltNum_eq_false_iff ha hb).mpr (.inl hle), fun hnot hnum => ?_⟩
  · rw [hnan] at hle hcases
    exact ⟨Num.rankKey_le_nan.mp hle, (hcases.resolve_left (Num.rankKey_nan_le _).not_gt).2⟩
  · have hge : a.2.rankKey ≤ b.2.rankKey := ((ltNum_eq_false_iff hb ha).mp hnot).resolve_right hnum
    exact (hcases.resolve_left hge.not_gt).2

theorem rankLogits_ranked {ls : List Num} (h : ∀ v ∈ ls, v.Proper) :
    (rankLogits ls).Pairwise (fun a b => a.1 ≠ b.1 ∧ (a.2 = .nan → b.2 = .nan ∧ a.1 < b.1) ∧ ltNum a.2 b.2 = false ∧
      (ltNum b.2 a.2 = false → b.2 ≠ .nan → a.1 < b.1)) := by
  have hproper : ∀ e ∈ rankLogits ls, e.2.Proper := fun e he =>
    h _ (List.mem_of_getElem? (mem_expertsOf.mp ((rankLogits_perm ls).mem_iff.mp he)))
  exact ((rankLogits_index_ne ls).and (rankLogits_sorted h)).imp_of_mem fun ha hb hab =>
    ⟨hab.1, ranked_of_rankPlace_lt (hproper _ ha) (hproper _ hb) hab.2⟩

end Sys2Proof.Machine
end

section
/-! PROOFS. The capacity decision of the route unit (R254), O18. -/

namespace Sys2Proof.Machine

section
variable {cap k : Nat} {reroute : Bool} {ranks : List (List (Nat × Num))}

/-- How many of the assignments are an expert's. -/
def expertLoad (asg : List (Nat × Nat × Nat)) (e : Nat) : Nat := (asg.filter (fun z => z.1 == e)).length

/-- The expert at a rank of a token, with its logit. -/
def rankedAt (ranks : List (List (Nat × Num))) (tr : Nat × Nat) : Option (Nat × Num) := ((ranks[tr.1]?).getD [])[tr.2]?

variable (cap k reroute ranks) in
/-- What one selection does: a rank that does not exist is passed over; one that exists is assigned to an expert with room, which
is the expert of its rank unless POLICY reroutes, or dropped. -/
theorem routeOne_cases (a : RouteAcc) (tr : Nat × Nat) :
    (rankedAt ranks tr = none ∧ routeOne cap k reroute ranks a tr = a) ∨
    ∃ e, rankedAt ranks tr = some e ∧
      ((expertLoad a.asg e.1 < cap ∧ routeOne cap k reroute ranks a tr = { a with asg := a.asg ++ [(e.1, tr)] }) ∨
      (∃ f, reroute = true ∧ expertLoad a.asg f < cap ∧
        routeOne cap k reroute ranks a tr = { a with asg := a.asg ++ [(f, tr)], rerouted := a.rerouted + 1 }) ∨
      routeOne cap k reroute ranks a tr = { a with dropped := a.dropped + 1 }) := by
  obtain ⟨t, r⟩ := tr
  simp only [routeOne, List.getElem?_map]
  cases hrank : ((ranks[t]?).getD [])[r]? with
  | none => exact .inl ⟨hrank, rfl⟩
  | some e =>
    refine .inr ⟨e, hrank, ?_⟩
    simp only [Option.map_some]
    split_ifs with hroom
    · exact .inl ⟨of_decide_eq_true hroom, rfl⟩
    · refine .inr ?_
      split
      case h_1 f hfind =>
        have hok := List.find?_some hfind
        simp only [Bool.and_eq_true, decide_eq_true_eq] at hok
        exact .inl ⟨f, rfl, hok.2, rfl⟩
      case h_2 => exact .inr rfl

theorem expertLoad_append_le {asg : List (Nat × Nat × Nat)} {f : Nat} (tr : Nat × Nat) (hroom : expertLoad asg f < cap)
    (hload : ∀ e, expertLoad asg e ≤ cap) (e : Nat) : expertLoad (asg ++ [(f, tr)]) e ≤ cap := by
  rw [expertLoad, List.filter_append, List.length_append]
  by_cases hfe : f = e
  · subst hfe
    rw [List.filter_singleton, beq_self_eq_true]
    exact hroom
  · rw [List.filter_singleton, beq_false_of_ne hfe]
    exact hload e

theorem routeOne_load_le {a : RouteAcc} (ha : ∀ e, expertLoad a.asg e ≤ cap) (tr : Nat × Nat) :
    ∀ e, expertLoad (routeOne cap k reroute ranks a tr).asg e ≤ cap := by
  rcases routeOne_cases cap k reroute ranks a tr with ⟨-, h⟩ | ⟨g, -, ⟨hroom, h⟩ | ⟨f, -, hroom, h⟩ | h⟩ <;> rw [h]
  · exact ha
  · exact expertLoad_append_le tr hroom ha
  · exact expertLoad_append_le tr hroom ha
  · exact ha

theorem routeOne_count (a : RouteAcc) (tr : Nat × Nat) :
    (routeOne cap k reroute ranks a tr).asg.length + (routeOne cap k reroute ranks a tr).dropped =
      a.asg.length + a.dropped + if tr.2 < ((ranks[tr.1]?).getD []).length then 1 else 0 := by
  rcases routeOne_cases cap k reroute ranks a tr with ⟨hnone, h⟩ | ⟨g, hsome, hcases⟩
  · rw [h, if_neg (List.getElem?_eq_none_iff.mp hnone).not_gt, Nat.add_zero]
  · rw [if_pos (List.getElem?_eq_some_iff.mp hsome).1]
    rcases hcases with ⟨-, h⟩ | ⟨f, -, -, h⟩ | h <;> simp only [h, List.length_append, List.length_singleton] <;> omega

theorem foldl_routeOne_count (sel : List (Nat × Nat)) (a : RouteAcc) :
    (sel.foldl (routeOne cap k reroute ranks) a).asg.length + (sel.foldl (routeOne cap k reroute ranks) a).dropped =
      a.asg.length + a.dropped + (sel.filter (fun z => decide (z.2 < ((ranks[z.1]?).getD []).length))).length := by
  induction sel generalizing a with
  | nil => rfl
  | cons tr sel ih =>
    rw [List.foldl_cons, ih, routeOne_count, List.filter_cons]
    simp only [decide_eq_true_eq]
    split_ifs
    · rw [List.length_cons]
      omega
    · rfl

/-- Nothing was rerouted, and every assignment went to the expert of its rank. -/
def RouteAcc.ByRank (ranks : List (List (Nat × Num))) (a : RouteAcc) : Prop :=
  a.rerouted = 0 ∧ ∀ z ∈ a.asg, (rankedAt ranks z.2).map (·.1) = some z.1

theorem routeOne_byRank {a : RouteAcc} (ha : a.ByRank ranks) (tr : Nat × Nat) : (routeOne cap k false ranks a tr).ByRank ranks := by
  obtain ⟨hzero, hasg⟩ := ha
  rcases routeOne_cases cap k false ranks a tr with ⟨-, h⟩ | ⟨e, hrank, ⟨-, h⟩ | ⟨-, hpolicy, -, -⟩ | h⟩
  · rw [h]
    exact ⟨hzero, hasg⟩
  · rw [h]
    refine ⟨hzero, fun z hz => ?_⟩
    rcases List.mem_append.mp hz with hz | hz
    · exact hasg z hz
    · rw [List.mem_singleton.mp hz, hrank, Option.map_some]
  · cases hpolicy
  · rw [h]
    exact ⟨hzero, hasg⟩

end

/-- Settles O18: a ranking is an insertion sort by logit and index, and the capacity holds selection by selection. -/
theorem routing : Obligations.Routing := by
  refine ⟨fun f ws => ?_, fun cap k reroute ranks sel => ⟨?_, ?_, ?_⟩⟩
  · have hproper : ∀ v ∈ ws.map (decodeF f), v.Proper := List.forall_mem_map.mpr fun w _ => decodeF_proper f w
    refine ⟨fun n hn => ⟨_, ?_, List.getElem?_eq_getElem hn⟩, ?_, rankLogits_ranked hproper⟩
    · exact (rankLogits_perm _).mem_iff.mpr (mem_expertsOf.mpr (List.getElem?_eq_getElem hn))
    · rw [(rankLogits_perm _).length_eq, expertsOf, List.length_map, List.length_zipIdx]
  · exact List.foldlRecOn sel _ (motive := fun a : RouteAcc => ∀ e, expertLoad a.asg e ≤ cap) (fun e => Nat.zero_le cap)
      (fun a ha tr _ => routeOne_load_le ha tr)
  · exact (foldl_routeOne_count sel {}).trans (Nat.zero_add _)
  · rintro rfl
    exact List.foldlRecOn sel _ (motive := RouteAcc.ByRank ranks) ⟨rfl, fun z hz => absurd hz List.not_mem_nil⟩
      (fun a ha tr _ => routeOne_byRank ha tr)

end Sys2Proof.Machine
end

section
/-! PROOFS. The row path of an undecided step (R384 to R387): what accepting a row of an update item does, and what nothing further moves. -/

namespace Sys2Proof.Machine

variable {c d : Core} {p : Nat}

/-! ### What the row path leaves alone -/

/-- From `c` to `d` the tiles, the items, the operations, the memories that hold settled state and every partition but `p` are as they were. -/
def Core.rowsOnly (c d : Core) (p : Nat) : Prop :=
  d.tiles = c.tiles ∧ d.items = c.items ∧ d.ops = c.ops ∧ d.scratch = c.scratch ∧ d.dram = c.dram ∧ d.flash = c.flash ∧
    ∀ u, u ≠ p → d.part u = c.part u

theorem Core.rowsOnly.refl (c : Core) (p : Nat) : c.rowsOnly c p := ⟨rfl, rfl, rfl, rfl, rfl, rfl, fun _ _ => rfl⟩

theorem Core.rowsOnly.setPart (h : c.rowsOnly d p) (x : Part) : c.rowsOnly (d.setPart p x) p := by
  obtain ⟨htiles, hitems, hops, hscratch, hdram, hflash, hpart⟩ := h
  exact ⟨htiles, hitems, hops, hscratch, hdram, hflash, fun u hu => (d.part_setPart_other x hu).trans (hpart u hu)⟩

theorem Core.rowsOnly.updStep (h : c.rowsOnly d p) (f : StepSt → StepSt) : c.rowsOnly (d.updStep p f) p := h.setPart _

/-! ### The directory and the use of the pending buffer (R380, R397) -/

theorem Core.updDir_part (c : Core) (p table g : Nat) (f : Nat → Nat) (u : Nat) : (c.updDir p table g f).part u = c.part u := rfl

theorem Core.rowsOnly.updDir (h : c.rowsOnly d p) (u table g : Nat) (f : Nat → Nat) : c.rowsOnly (d.updDir u table g f) p := h

theorem Core.refreshPend_eq (c : Core) (p table g : Nat) : ∃ dir, c.refreshPend p table g = { c with dir := dir } := ⟨_, rfl⟩

theorem Core.refreshPend_part (c : Core) (p table g u : Nat) : (c.refreshPend p table g).part u = c.part u := by
  obtain ⟨dir, h⟩ := c.refreshPend_eq p table g
  rw [h]
  rfl

theorem Core.rowsOnly.refreshPend (h : c.rowsOnly d p) (u table g : Nat) : c.rowsOnly (d.refreshPend u table g) p := by
  obtain ⟨dir, hd⟩ := d.refreshPend_eq u table g
  rw [hd]
  exact h

theorem Core.refreshUse_part (c : Core) (p u : Nat) : (c.refreshUse p).part u = c.part u := by
  rw [Core.refreshUse, Core.wf_part, Core.wf_part]

theorem Core.rowsOnly.wf (h : c.rowsOnly d p) (f : Fld) (i v : Nat) : c.rowsOnly (d.wf f i v) p := h

theorem Core.rowsOnly.refreshUse (h : c.rowsOnly d p) (u : Nat) : c.rowsOnly (d.refreshUse u) p := (h.wf _ _ _).wf _ _ _

/-- Booking a new entry changes the directory and PEND_USE alone. -/
theorem Core.slowReqs_booked (c : Core) (p table g g' : Nat) (f : Nat → Nat) :
    (((c.updDir p table g f).refreshPend p table g').refreshUse p).slowReqs = c.slowReqs := by
  obtain ⟨dir, h⟩ := (c.updDir p table g f).refreshPend_eq p table g'
  rw [Core.refreshUse, Core.wf_slowReqs, Core.wf_slowReqs, h]
  rfl

/-! ### A step that is not decided applies and settles nothing -/

theorem Core.applyReady_undecided (h : (c.part p).step.committed = false) : c.applyReady p = c := by simp [Core.applyReady, h]

theorem Core.settleItems_undecided (h : (c.part p).step.committed = false) : c.settleItems p = c := by simp [Core.settleItems, h]

/-- With no access to a remote group waiting no message leaves. -/
theorem Core.flushSlow_nil (h : c.slowReqs = []) : c.flushSlow = { c with slowReqs := [], remoteOut := [] } := by
  rw [Core.flushSlow, h]
  rfl

/-- The device once the row path has nothing more to send. -/
def Core.sent (c : Core) : Core := { c with slowReqs := [], remoteOut := [] }

@[simp] theorem Core.sent_part (c : Core) (u : Nat) : c.sent.part u = c.part u := rfl

theorem Core.rowsOnly.sent (h : c.rowsOnly d p) : c.rowsOnly d.sent p := h

/-- Where acceptance changes nothing, nothing of the row path moves before the decision. -/
theorem Core.runRows_undecided (hdrain : c.drainRows p (((c.part p).step.items.map (·.todo.length)).foldl (· + ·) 0) = d)
    (hslow : d.slowReqs = []) (hstep : (d.part p).step.committed = false) : c.runRows p = d.sent := by
  rw [Core.runRows, hdrain, Core.flushSlow_nil hslow]
  exact Core.settleItems_undecided hstep

/-- No row waits to be accepted. -/
def StepSt.accepted (q : StepSt) : Prop := ∀ j ∈ q.items, j.todo = []

theorem Core.drainRows_accepted (hstep : (c.part p).step.committed = false) (hitems : (c.part p).step.accepted) (n : Nat) :
    c.drainRows p n = c := by
  cases n with
  | zero => exact Core.applyReady_undecided hstep
  | succ n =>
    have hnone : (c.part p).step.items.filter (fun i => i.open_ && !i.todo.isEmpty) = [] :=
      List.filter_eq_nil_iff.mpr fun j hj => by simp [hitems j hj]
    simp only [Core.drainRows, Core.applyReady_undecided hstep, hnone, List.isEmpty_nil, if_true]

theorem Core.runRows_accepted (hslow : c.slowReqs = []) (hstep : (c.part p).step.committed = false) (hitems : (c.part p).step.accepted) :
    c.runRows p = c.sent :=
  Core.runRows_undecided (Core.drainRows_accepted hstep hitems _) hslow hstep

/-! ### Accepting one position (R384, R386, R387) -/

section
variable {i : StepItem} {k : Nat}

/-- The pending entry of a table's row, if it has one. -/
def Core.entryOf (c : Core) (p table row : Nat) : Option PendRow := (c.part p).pend.find? (fun r => r.table == table && r.row == row)

/-- The row that a position of an update item names. -/
def StepItem.rowAt (i : StepItem) (k : Nat) : Nat := (i.rows[k]?).getD 0

/-- Position `k` is accepted, which leaves the device `d` with pending entries `rs`. -/
structure Core.acceptsRow (c : Core) (p : Nat) (i : StepItem) (k : Nat) (rs : List PendRow) (d : Core) : Prop where
  row : c.acceptRow p i k = (true, d)
  only : c.rowsOnly d p
  part : d.part p = { c.part p with pend := rs }
  slow : d.slowReqs = c.slowReqs

/-- A row with an entry adds its gradient to the accumulator (R386). -/
theorem Core.acceptRow_entry {r : PendRow} (hr : c.entryOf p (i.table.getD 0) (i.rowAt k) = some r) (hcount : r.count < 4194303) :
    ∃ d, c.acceptsRow p i k ((c.part p).pend.map (fun y => if y.slot = r.slot then r.add (c.gradRow p i k) else y)) d := by
  have hfits : ¬ 4194303 < (r.add (c.gradRow p i k)).count := Nat.not_lt.mpr hcount
  simp only [Core.entryOf, StepItem.rowAt] at hr
  have hrow : ∃ dir, c.acceptRow p i k = (true, { c.setPart p { c.part p with
      pend := (c.part p).pend.map (fun y => if y.slot = r.slot then r.add (c.gradRow p i k) else y) } with dir := dir }) := by
    simp only [Core.acceptRow, hr, hfits, if_false]
    exact ⟨_, rfl⟩
  obtain ⟨dir, hrow⟩ := hrow
  exact ⟨_, hrow, (Core.rowsOnly.refl c p).setPart _, c.part_setPart_same p _, rfl⟩

/-- A row without an entry is refused while none is free (R387). -/
theorem Core.acceptRow_full (hnone : c.entryOf p (i.table.getD 0) (i.rowAt k) = none)
    (hfull : c.rf Regs.SLOW_PEND_ROWS_ROWS p ≤ (c.part p).pend.length) : c.acceptRow p i k = (false, c) := by
  simp only [Core.entryOf, StepItem.rowAt] at hnone
  simp only [Core.acceptRow, hnone, hfull, if_true]

/-- The state of a row in a scratchpad or in device memory is present at once (R384). -/
theorem Core.fetchRow_local {r : PendRow}
    (h : (∃ u o, c.rowAddr p r.table r.row = .view u o) ∨ (∃ t o, c.rowAddr p r.table r.row = .scratch t o)) :
    c.fetchRow p r = ({ r with present := true }, c) := by
  rcases h with ⟨u, o, h⟩ | ⟨t, o, h⟩ <;> simp only [Core.fetchRow, h]

/-- The entry that a row takes: from zero, with its first gradient added (R385, R386). -/
def Core.newEntry (c : Core) (p : Nat) (i : StepItem) (k : Nat) : PendRow :=
  ({ slot := freeSlot (c.part p).pend, table := i.table.getD 0, row := i.rowAt k
     acc := List.replicate (c.rowTable p (i.table.getD 0)).elems 0, count := 0, present := true } : PendRow).add (c.gradRow p i k)

theorem Core.acceptRow_new (hnone : c.entryOf p (i.table.getD 0) (i.rowAt k) = none)
    (hroom : (c.part p).pend.length < c.rf Regs.SLOW_PEND_ROWS_ROWS p)
    (haddr : (∃ u o, c.rowAddr p (i.table.getD 0) (i.rowAt k) = .view u o) ∨ (∃ t o, c.rowAddr p (i.table.getD 0) (i.rowAt k) = .scratch t o)) :
    ∃ d, c.acceptsRow p i k ((c.part p).pend ++ [c.newEntry p i k]) d := by
  have hfetch := Core.fetchRow_local (c := c) (p := p) (r := { c.newEntry p i k with present := false }) haddr
  simp only [Core.newEntry, PendRow.add, StepItem.rowAt] at hfetch
  simp only [Core.entryOf, StepItem.rowAt] at hnone
  have hrow : ∃ g g' f, c.acceptRow p i k = (true, (((c.setPart p { c.part p with pend := (c.part p).pend ++ [c.newEntry p i k] }).updDir p
      (i.table.getD 0) g f).refreshPend p (i.table.getD 0) g').refreshUse p) := by
    simp only [Core.acceptRow, hnone, Nat.not_le.mpr hroom, if_false, PendRow.add, hfetch]
    exact ⟨_, _, _, rfl⟩
  obtain ⟨g, g', f, hrow⟩ := hrow
  refine ⟨_, hrow, ((((Core.rowsOnly.refl c p).setPart _).updDir _ _ _ _).refreshPend _ _ _).refreshUse _, ?_, Core.slowReqs_booked _ _ _ _ _ _⟩
  rw [Core.refreshUse_part, Core.refreshPend_part, Core.updDir_part, Core.part_setPart_same]

/-- A free slot is the slot of no entry. -/
theorem freeSlot_free (rs : List PendRow) : ∀ y ∈ rs, y.slot ≠ freeSlot rs := by
  obtain ⟨n, hn, hfree⟩ : ∃ n ∈ List.range (rs.length + 1), n ∉ rs.map (·.slot) := by
    by_contra! hall
    have hle := (List.nodup_range.subperm hall).length_le
    rw [List.length_range, List.length_map] at hle
    omega
  have hsome : ((List.range (rs.length + 1)).find? (fun i => !rs.any (fun r => r.slot == i))).isSome = true :=
    List.find?_isSome.mpr ⟨n, hn, by simpa using hfree⟩
  obtain ⟨m, hm⟩ := Option.isSome_iff_exists.mp hsome
  have hslot : freeSlot rs = m := by rw [freeSlot, hm, Option.getD_some]
  have hnot := List.find?_some hm
  intro y hy heq
  rw [Bool.not_eq_true', List.any_eq_false] at hnot
  exact hnot y hy (beq_iff_eq.mpr (heq.trans hslot))

end

/-! ### Accepting an item that waits for one position -/

/-- An update of the items that changes none of them writes the partition as it is. -/
theorem Core.updStepItem_self {op : Nat} {f : StepItem → StepItem} (h : ∀ j ∈ (c.part p).step.items, j.op = op → f j = j) :
    c.updStepItem p op f = c.setPart p (c.part p) := by
  have hmap : (c.part p).step.items.map (fun i => if i.op = op then f i else i) = (c.part p).step.items :=
    (List.map_congr_left (g := id) fun j hj => by
      split_ifs with hop
      · exact h j hj hop
      · rfl).trans (List.map_id _)
  simp only [Core.updStepItem, Core.updStep, hmap]

/-- A step in which the items of an operation wait for nothing more. -/
def StepSt.cleared (q : StepSt) (op : Nat) : StepSt :=
  { q with items := q.items.map (fun j => if j.op = op then { j with todo := [] } else j) }

theorem StepSt.accepted_cleared {q : StepSt} {op : Nat} (hothers : ∀ j ∈ q.items, j.op ≠ op → j.todo = []) : (q.cleared op).accepted := by
  intro j hj
  obtain ⟨j, hmem, rfl⟩ := List.mem_map.mp hj
  split_ifs with hop
  · rfl
  · exact hothers j hmem hop

/-- PEND_FULL is posted once a step (R387). -/
def Core.notePendFull (c : Core) (p : Nat) : Core :=
  if (c.part p).step.pendFull then c
  else (c.updStep p (fun s => { s with pendFull := true })).evt Cls.info (Src.updEngine (c.lead p)) p 0x0810 (c.stepOf p)

theorem Core.part_notePendFull (c : Core) (p : Nat) :
    (c.notePendFull p).part p = { c.part p with step := { (c.part p).step with pendFull := true } } := by
  unfold Core.notePendFull
  split_ifs with h
  · rw [← h]
  · rw [Core.evt_part, Core.updStep, Core.part_setPart_same]

theorem Core.evtBuf_notePendFull (c : Core) (p : Nat) : (c.notePendFull p).evtBuf = c.evtBuf ++ (if (c.part p).step.pendFull then []
    else [⟨Cls.info, Src.updEngine (c.lead p), p, 0x0810, c.stepOf p % 2 ^ 64, 0⟩]) := by
  unfold Core.notePendFull
  split_ifs with h
  · rw [List.append_nil]
  · rfl

theorem Core.rowsOnly.notePendFull (h : c.rowsOnly d p) : c.rowsOnly (d.notePendFull p) p := by
  unfold Core.notePendFull
  split_ifs
  · exact h
  · exact h.setPart _

theorem Core.rf_notePendFull (c : Core) (p : Nat) (f : Fld) (i : Nat) : (c.notePendFull p).rf f i = c.rf f i := by
  unfold Core.notePendFull
  split_ifs <;> rfl

theorem Core.slowReqs_notePendFull (c : Core) (p : Nat) : (c.notePendFull p).slowReqs = c.slowReqs := by
  unfold Core.notePendFull
  split_ifs <;> rfl

theorem Core.acceptItem_accepted {i : StepItem} {k : Nat} (hk : i.todo = [k]) (h : c.acceptRow p i k = (true, d)) :
    c.acceptItem p i false = d.updStep p (fun q => q.cleared i.op) := by
  simp only [Core.acceptItem, hk, List.foldl_cons, List.foldl_nil, h, if_true]
  rfl

theorem Core.acceptItem_refused {i : StepItem} {k : Nat} (hk : i.todo = [k]) (h : c.acceptRow p i k = (false, d)) :
    c.acceptItem p i false = (d.updStepItem p i.op (fun j => { j with todo := [k] })).notePendFull p := by
  simp [Core.acceptItem, hk, h, Core.notePendFull]

end Sys2Proof.Machine
end

section
/-! PROOFS. ROW_ACCEPT (R384 to R387): a row with an entry, one without, and one that keeps waiting. -/

namespace Sys2Proof.Machine

variable {c d : Core} {p : Nat} {i : StepItem} {k : Nat}

/-! ### An item that keeps waiting -/

/-- `d` is `c` but for how its partitions are listed. -/
def Core.relisted (c d : Core) : Prop := (∃ ps, d = { c with parts := ps }) ∧ ∀ u, d.part u = c.part u

theorem Core.relisted.refl (c : Core) : c.relisted c := ⟨⟨_, rfl⟩, fun _ => rfl⟩

theorem Core.relisted.trans {b : Core} (h : b.relisted c) (h' : c.relisted d) : b.relisted d := by
  obtain ⟨⟨_, rfl⟩, hb⟩ := h
  obtain ⟨⟨ps, rfl⟩, hc⟩ := h'
  exact ⟨⟨ps, rfl⟩, fun u => (hc u).trans (hb u)⟩

theorem Core.relisted_setPart (c : Core) (p : Nat) : c.relisted (c.setPart p (c.part p)) := by
  refine ⟨⟨_, rfl⟩, fun u => ?_⟩
  by_cases hu : u = p
  · rw [hu, Core.part_setPart_same]
  · exact Core.part_setPart_other _ _ hu

theorem Core.relisted.view (h : c.relisted d) (p : Nat) :
    d.slowReqs = c.slowReqs ∧ d.evtBuf = c.evtBuf ∧ d.lead p = c.lead p ∧ d.stepOf p = c.stepOf p := by
  obtain ⟨⟨_, rfl⟩, -⟩ := h
  exact ⟨rfl, rfl, rfl, rfl⟩

theorem Core.rowsOnly.relisted {b : Core} (h : c.rowsOnly b p) (hd : b.relisted d) : c.rowsOnly d p := by
  obtain ⟨htiles, hitems, hops, hscratch, hdram, hflash, hpart⟩ := h
  obtain ⟨⟨_, rfl⟩, hparts⟩ := hd
  exact ⟨htiles, hitems, hops, hscratch, hdram, hflash, fun u hu => (hparts u).trans (hpart u hu)⟩

/-- Item `i` waits for position `k` alone, whose row has no entry and finds none free; no other item is of its operation. -/
structure Core.refuses (c : Core) (p : Nat) (i : StepItem) (k : Nat) : Prop where
  todo : i.todo = [k]
  absent : c.entryOf p (i.table.getD 0) (i.rowAt k) = none
  full : c.rf Regs.SLOW_PEND_ROWS_ROWS p ≤ (c.part p).pend.length
  sole : ∀ j ∈ (c.part p).step.items, j.op = i.op → j = i

theorem Core.refuses.relisted (h : c.refuses p i k) (hd : c.relisted d) : d.refuses p i k := by
  obtain ⟨⟨ps, rfl⟩, hpart⟩ := hd
  refine ⟨h.todo, ?_, ?_, ?_⟩
  · rw [Core.entryOf, hpart]
    exact h.absent
  · rw [hpart]
    exact h.full
  · rw [hpart]
    exact h.sole

theorem Core.refuses.noted (h : c.refuses p i k) : (c.notePendFull p).refuses p i k := by
  refine ⟨h.todo, ?_, ?_, ?_⟩
  · rw [Core.entryOf, Core.part_notePendFull]
    exact h.absent
  · rw [Core.rf_notePendFull, Core.part_notePendFull]
    exact h.full
  · rw [Core.part_notePendFull]
    exact h.sole

/-- Nothing but PEND_FULL comes of an item that is refused. -/
theorem Core.refuses.acceptItem (h : c.refuses p i k) : c.acceptItem p i false = (c.setPart p (c.part p)).notePendFull p := by
  rw [Core.acceptItem_refused h.todo (Core.acceptRow_full h.absent h.full), Core.updStepItem_self]
  intro j hj hop
  rw [h.sole j hj hop, ← h.todo]

theorem Core.refuses.acceptItem_again (h : c.refuses p i k) (hnoted : (c.part p).step.pendFull = true) :
    c.relisted (c.acceptItem p i false) := by
  rw [h.acceptItem, Core.notePendFull, if_pos (by rw [Core.part_setPart_same, hnoted])]
  exact c.relisted_setPart p

/-- However often it is tried, the refused item alone waits. -/
theorem Core.refuses.drainRows (h : c.refuses p i k) (hstep : (c.part p).step.committed = false) (hnoted : (c.part p).step.pendFull = true)
    (hothers : ∀ j ∈ (c.part p).step.items, j.op ≠ i.op → j.todo = []) (n : Nat) (hd : c.relisted d) : c.relisted (d.drainRows p n) := by
  induction n generalizing d with
  | zero =>
    rw [Core.drainRows, Core.applyReady_undecided (by rw [hd.2, hstep])]
    exact hd
  | succ n ih =>
    simp only [Core.drainRows, Core.applyReady_undecided (show (d.part p).step.committed = false by rw [hd.2, hstep])]
    split_ifs
    · exact hd
    · refine ih (threadAll_inv_mem (P := c.relisted) (fun b j hj hb => hb.trans ?_) d hd)
      obtain ⟨hj, hwaits⟩ := List.mem_filter.mp hj
      rw [hd.2] at hj
      have hji : j = i := by
        refine h.sole j hj (by_contra fun hop => ?_)
        simp [hothers j hj hop] at hwaits
      rw [hji]
      exact (h.relisted hb).acceptItem_again (by rw [hb.2, hnoted])

/-- Before the decision a refused item leaves the device as it was, but for PEND_FULL. -/
theorem Core.refuses.runRows (h : c.refuses p i k) (hquiet : (c.part p).step.committed = false ∧ c.slowReqs = [])
    (hothers : ∀ j ∈ (c.part p).step.items, j.op ≠ i.op → j.todo = []) :
    ∃ b d, c.relisted b ∧ (b.notePendFull p).relisted d ∧ (c.acceptItem p i false).runRows p = d.sent := by
  have hlisted := c.relisted_setPart p
  rw [h.acceptItem]
  generalize c.setPart p (c.part p) = b at hlisted
  have hpart : (b.notePendFull p).part p = { c.part p with step := { (c.part p).step with pendFull := true } } := by
    rw [Core.part_notePendFull, hlisted.2]
  have hopen : ((b.notePendFull p).part p).step.committed = false :=
    (congrArg (fun x : Part => x.step.committed) hpart).trans hquiet.1
  have hdrain := fun n => (h.relisted hlisted).noted.drainRows (n := n) hopen (congrArg (fun x : Part => x.step.pendFull) hpart)
    (by rw [hpart]; exact hothers) (.refl _)
  refine ⟨b, _, hlisted, hdrain _, Core.runRows_undecided rfl ?_ ?_⟩
  · rw [((hdrain _).view p).1, Core.slowReqs_notePendFull, (hlisted.view p).1, hquiet.2]
  · rw [(hdrain _).2, hopen]

/-! ### The command -/

/-- The open item of an operation that waits for an entry. -/
def Core.waitingItem (c : Core) (p op : Nat) : Option StepItem :=
  (c.part p).step.items.find? (fun i => i.op == op && i.open_ && !i.todo.isEmpty)

section
variable {p : PartId} {op : Nat} {s : State}

theorem exec_rowAccept (hfind : s.core.waitingItem p.val op = some i) (hhold : s.core.fwHold = false)
    (hrun : (s.core.acceptItem p.val i false).runRows p.val = d) :
    exec (.rowAccept p op) s = .next { s with core := d } := by
  show execRowAccept p op s = _
  rw [Core.waitingItem] at hfind
  simp only [execRowAccept, State.on, hfind, hhold, Bool.false_eq_true, if_false, hrun]

/-- Without an open item that waits, or while an activation holds the slow tier, nothing is accepted. -/
theorem rowAccept_waits (h : s.core.waitingItem p.val op = none ∨ s.core.fwHold = true) : exec (.rowAccept p op) s = .next s := by
  refine (show exec (.rowAccept p op) s = execRowAccept p op s from rfl).trans (State.on_of_fixed ?_)
  rcases h with h | h
  · rw [Core.waitingItem] at h
    simp only [h]
  · split
    · rw [if_pos h]
    · rfl

theorem op_of_find (h : s.core.waitingItem p.val op = some i) : i.op = op := by
  have hp := List.find?_some h
  simp only [Bool.and_eq_true, beq_iff_eq] at hp
  exact hp.1.1

section
variable (hfind : s.core.waitingItem p.val op = some i)
  (hhold : s.core.fwHold = false) (hquiet : (s.core.part p.val).step.committed = false ∧ s.core.slowReqs = []) (hk : i.todo = [k])
  (hothers : ∀ j ∈ (s.core.part p.val).step.items, j.op ≠ op → j.todo = [])
include hfind hhold hquiet hk hothers

/-- A position accepted leaves nothing waiting, and before the decision nothing more moves. -/
theorem rowAccept_accepts {rs : List PendRow} (h : s.core.acceptsRow p.val i k rs d) :
    Answers s (.rowAccept p op) (fun c => s.core.rowsOnly c p.val ∧ (c.part p.val).pend = rs ∧ (c.part p.val).step.accepted) := by
  have hpart : (d.updStep p.val (fun q => q.cleared op)).part p.val =
      { s.core.part p.val with pend := rs, step := (s.core.part p.val).step.cleared op } := by
    rw [Core.updStep, Core.part_setPart_same, h.part]
  have hopen : ((d.updStep p.val (fun q => q.cleared op)).part p.val).step.committed = false :=
    (congrArg (fun x : Part => x.step.committed) hpart).trans hquiet.1
  have hdone : ((d.updStep p.val (fun q => q.cleared op)).part p.val).step.accepted := by
    rw [hpart]
    exact StepSt.accepted_cleared hothers
  have hslow : (d.updStep p.val (fun q => q.cleared op)).slowReqs = [] := h.slow.trans hquiet.2
  refine ⟨_, exec_rowAccept hfind hhold ?_, (h.only.updStep (fun q => q.cleared op)).sent,
    by rw [Core.sent_part, hpart], hdone⟩
  rw [Core.acceptItem_accepted hk h.row, op_of_find hfind, Core.runRows_accepted hslow hopen hdone]

/-- An item that finds no entry free keeps waiting, and PEND_FULL is posted once a step (R387). -/
theorem rowAccept_full (hsole : ∀ j ∈ (s.core.part p.val).step.items, j.op = op → j = i)
    (habsent : s.core.entryOf p.val (i.table.getD 0) (i.rowAt k) = none)
    (hfull : s.core.rf Regs.SLOW_PEND_ROWS_ROWS p.val ≤ (s.core.part p.val).pend.length) :
    Answers s (.rowAccept p op) (fun c => s.core.rowsOnly c p.val ∧ (c.part p.val).pend = (s.core.part p.val).pend ∧
      (c.part p.val).step = { (s.core.part p.val).step with pendFull := true } ∧
      c.evtBuf = s.core.evtBuf ++ (if (s.core.part p.val).step.pendFull then []
        else [⟨Cls.info, Src.updEngine (s.core.lead p.val), p.val, 0x0810, s.core.stepOf p.val % 2 ^ 64, 0⟩])) := by
  obtain rfl := op_of_find hfind
  have href : s.core.refuses p.val i k := ⟨hk, habsent, hfull, hsole⟩
  obtain ⟨b, d, hb, hd, hrun⟩ := href.runRows hquiet hothers
  obtain ⟨-, hevtb, hlead, hstepOf⟩ := hb.view p.val
  obtain ⟨-, hevtd, -, -⟩ := hd.view p.val
  have hpart : d.part p.val = { s.core.part p.val with step := { (s.core.part p.val).step with pendFull := true } } := by
    rw [hd.2, Core.part_notePendFull, hb.2]
  refine ⟨_, exec_rowAccept hfind hhold hrun, ((((Core.rowsOnly.refl s.core p.val).relisted hb).notePendFull).relisted hd).sent,
    by rw [Core.sent_part, hpart], by rw [Core.sent_part, hpart], ?_⟩
  rw [Core.sent, hevtd, Core.evtBuf_notePendFull, hevtb, hb.2, hlead, hstepOf]

end

end

end Sys2Proof.Machine
end

section
/-! PROOFS. The staging area (R389 to R391): the rows that arrive, the blocks that leave, the write-back of a block and its failure. -/

namespace Sys2Proof.Machine

variable {c d : Core} {p : Nat} {b : StageBlk}

/-! ### Rows that have arrived (R389) -/

/-- Whether a row's block or its remote bytes have arrived. -/
def Core.rowHere (c : Core) (p : Nat) (r : PendRow) : Bool := match c.rowAddr p r.table r.row with
  | .flash a => (match c.stageOf a with | some b => !b.fetching | none => false)
  | .remote _ _ _ => r.remote.isSome && !(c.slowReqs.any (fun q => q.owner == .row p r.table r.row) ||
      c.qps.any (fun q => q.tx.any (fun m => m.owner == .row p r.table r.row)))
  | _ => true

/-- An entry with its row marked present if it has arrived. -/
def Core.arrived (c : Core) (p : Nat) (r : PendRow) : PendRow :=
  if !r.present && r.failed.isNone && c.rowHere p r then { r with present := true } else r

theorem Core.markPresent_eq (c : Core) (p : Nat) : c.markPresent p = c.setPart p { c.part p with pend := (c.part p).pend.map (c.arrived p) } := rfl

theorem Core.arrived_eq (c : Core) (p : Nat) (r : PendRow) : c.arrived p r = { r with present := (c.arrived p r).present } := by
  unfold Core.arrived
  split_ifs <;> rfl

theorem Core.arrived_present {r : PendRow} (h : r.present = true) : c.arrived p r = r := by simp [Core.arrived, h]

theorem Core.arrived_failed {r : PendRow} {st : Nat} (h : r.failed = some st) : c.arrived p r = r := by simp [Core.arrived, h]

/-- A row on flash is present once its block's fetch has ended. -/
theorem Core.arrived_flash {r : PendRow} {a : Nat} (hf : r.failed = none) (ha : c.rowAddr p r.table r.row = .flash a)
    (hb : c.stageOf a = some b) : (c.arrived p r).present = true ↔ r.present = true ∨ b.fetching = false := by
  have hhere : c.rowHere p r = !b.fetching := by simp only [Core.rowHere, ha, hb]
  cases hr : r.present <;> cases hbf : b.fetching <;> simp [Core.arrived, hr, hf, hhere, hbf]

/-! ### Blocks that leave the staging area (R391) -/

/-- Whether a block's rows have all settled without a new state. -/
def Core.idleBlk (c : Core) (b : StageBlk) : Bool :=
  !b.fetching && !b.writing && !b.dirty && !b.stuck && !(c.part b.part).pend.any (fun r => c.rowInBlock r b)

theorem Core.tidyStage_eq (c : Core) : c.tidyStage = threadAll (fun c b => c.dropStage b) c (c.stageBlks.filter c.idleBlk) := rfl

/-- A block that is being fetched or written, has a new state or is stuck stays. -/
def StageBlk.busy (b : StageBlk) : Prop := b.fetching = true ∨ b.writing = true ∨ b.dirty = true ∨ b.stuck = true

theorem Core.idleBlk_busy (h : b.busy) : c.idleBlk b = false := by
  rcases h with h | h | h | h <;> simp [Core.idleBlk, h]

theorem Core.idleBlk_free (hpend : (c.part b.part).pend = []) (hf : b.fetching = false) (hw : b.writing = false) (hd : b.dirty = false)
    (hs : b.stuck = false) : c.idleBlk b = true := by simp [Core.idleBlk, hpend, hf, hw, hd, hs]

theorem Core.tidyStage_busy (h : ∀ b ∈ c.stageBlks, b.busy) : c.tidyStage = c := by
  rw [Core.tidyStage_eq, List.filter_eq_nil_iff.mpr fun b hb => by simp [Core.idleBlk_busy (h b hb)]]
  rfl

/-- Making BUSY right writes the directory alone (R380). -/
theorem Core.busyOf_eq (c : Core) (b : StageBlk) : ∃ dir, c.busyOf b = { c with dir := dir } := by
  unfold Core.busyOf
  split
  · exact ⟨_, rfl⟩
  · exact ⟨_, rfl⟩

/-- Whether two blocks are the same block of the same slot. -/
def StageBlk.same (x b : StageBlk) : Bool := x.slot == b.slot && x.block == b.block

theorem Core.dropStage_eq (c : Core) (b : StageBlk) :
    ∃ staged dir, c.dropStage b = { c with stageBlks := c.stageBlks.filter (fun x => !x.same b), staged := staged, dir := dir } := by
  obtain ⟨dir, h⟩ := Core.busyOf_eq { c with
    stageBlks := c.stageBlks.filter (fun x => !x.same b)
    staged := c.staged.keepIf (fun a => !(a / 2 ^ 45 == b.slot && a % 2 ^ 45 / 4096 == b.block)) } b
  exact ⟨_, dir, h⟩

/-- The blocks dropped leave, and nothing but the staging area and the directory differs. -/
theorem Core.dropStages_eq (bs : List StageBlk) (c : Core) : ∃ staged dir, threadAll (fun c b => c.dropStage b) c bs =
    { c with stageBlks := c.stageBlks.filter (fun x => !bs.any x.same), staged := staged, dir := dir } := by
  induction bs generalizing c with
  | nil => exact ⟨c.staged, c.dir, by simp [threadAll]⟩
  | cons b bs ih =>
    obtain ⟨st, dir, h⟩ := c.dropStage_eq b
    obtain ⟨st', dir', h'⟩ := ih (c.dropStage b)
    refine ⟨st', dir', ?_⟩
    rw [threadAll, h', h]
    simp only [List.filter_filter, List.any_cons, Bool.not_or, Bool.and_comm]

theorem Core.stageBlks_tidyStage (c : Core) :
    c.tidyStage.stageBlks = c.stageBlks.filter (fun x => !(c.stageBlks.filter c.idleBlk).any x.same) := by
  obtain ⟨st, dir, h⟩ := Core.dropStages_eq (c.stageBlks.filter c.idleBlk) c
  rw [Core.tidyStage_eq, h]

theorem Core.tidyStage_view (c : Core) : c.tidyStage.parts = c.parts ∧ c.tidyStage.evtBuf = c.evtBuf ∧ c.tidyStage.items = c.items ∧
    c.tidyStage.ops = c.ops := by
  obtain ⟨st, dir, h⟩ := Core.dropStages_eq (c.stageBlks.filter c.idleBlk) c
  rw [Core.tidyStage_eq, h]
  exact ⟨rfl, rfl, rfl, rfl⟩

theorem Core.rowsOnly.tidyStage (h : c.rowsOnly d p) : c.rowsOnly d.tidyStage p := by
  obtain ⟨st, dir, hd⟩ := Core.dropStages_eq (d.stageBlks.filter d.idleBlk) d
  rw [Core.tidyStage_eq, hd]
  exact h

/-! ### The rows of an undecided step go on -/

theorem Core.restartFetches_none (h : ∀ r ∈ (c.part p).pend, r.waits = false) : c.restartFetches p = c :=
  threadAll_inv_mem (P := fun d => d = c) (fun d r hr hd => by simp [h r hr, hd]) c rfl

theorem Core.rowsGoOn_undecided (hquiet : (c.part p).step.committed = false ∧ c.slowReqs = []) (hitems : (c.part p).step.accepted) :
    c.rowsGoOn p = (c.markPresent p).sent.tidyStage.restartFetches p := by
  have hstep : ((c.markPresent p).part p).step = (c.part p).step := by rw [Core.markPresent_eq, Core.part_setPart_same]
  rw [Core.rowsGoOn, Core.runRows_accepted (c := c.markPresent p) hquiet.2 (hstep ▸ hquiet.1) (hstep ▸ hitems)]

/-- Rows that have arrived are marked, and nothing else moves while every staged block is busy and no row waits for one (R389). -/
theorem rowFetchDone_marks {p : PartId} {s : State} (hquiet : (s.core.part p.val).step.committed = false ∧ s.core.slowReqs = [])
    (hitems : (s.core.part p.val).step.accepted) (hwaits : ∀ r ∈ (s.core.part p.val).pend, r.waits = false)
    (hblks : ∀ b ∈ s.core.stageBlks, b.busy) :
    Answers s (.rowFetchDone p) (fun c => s.core.rowsOnly c p.val ∧ (c.part p.val).step = (s.core.part p.val).step ∧
      c.stageBlks = s.core.stageBlks ∧ (c.part p.val).pend = (s.core.part p.val).pend.map (s.core.arrived p.val)) := by
  have hpart : (s.core.markPresent p.val).sent.part p.val =
      { s.core.part p.val with pend := (s.core.part p.val).pend.map (s.core.arrived p.val) } := by
    rw [Core.sent_part, Core.markPresent_eq, Core.part_setPart_same]
  have hstay : ∀ r ∈ ((s.core.markPresent p.val).sent.part p.val).pend, r.waits = false := by
    rw [hpart]
    intro r hr
    obtain ⟨r, hmem, rfl⟩ := List.mem_map.mp hr
    rw [Core.arrived_eq]
    exact hwaits r hmem
  have hrun : s.core.rowsGoOn p.val = (s.core.markPresent p.val).sent := by
    rw [Core.rowsGoOn_undecided hquiet hitems, Core.tidyStage_busy (c := (s.core.markPresent p.val).sent) hblks, Core.restartFetches_none hstay]
  refine answers_on (f := fun c => c.rowsGoOn p.val) rfl ?_
  rw [hrun, hpart]
  exact ⟨((Core.rowsOnly.refl s.core p.val).setPart _).sent, rfl, rfl, rfl⟩

end Sys2Proof.Machine
end

section
/-! PROOFS. ROW_WRITEBACK and ROW_WRITEBACK_DONE (R390, R391). -/

namespace Sys2Proof.Machine

variable {c d : Core} {b : StageBlk}

/-! ### A write-back that has failed (R390) -/

theorem Core.regs_stopProgram (c : Core) (p st : Nat) (f : Option (Nat × Nat × Nat × Nat)) : (c.stopProgram p st f).regs = c.regs := by
  unfold Core.stopProgram
  split
  · rfl
  next pr _ =>
    split
    · rfl
    · exact (Core.stopTiles_view _ _).1

/-- From `c` to `d` the block is stuck and its failure is Partition fatal. -/
def Core.stuckAt (c d : Core) (b : StageBlk) : Prop :=
  d.rf Regs.PART_STATUS_FATAL b.part = 1 ∧
    d.stageBlks = c.stageBlks.map (fun x => if x.slot = b.slot ∧ x.block = b.block then { x with writing := false, stuck := true } else x) ∧
    d.flash = c.flash ∧ (∃ first, d.evtBuf = c.evtBuf ++ [⟨Cls.partition, Src.ssd b.slot, b.part, 0x0813, first, 0⟩]) ∧
    ∀ pr, (c.part b.part).prog = some pr → pr.stopping = false →
      (d.part b.part).prog = some { pr with stopping := true, endStatus := St.LINK_DOWN, fault := none }

/-- The failed block stays as the state of record and is reported, and then the partition's program stops. -/
theorem Core.writebackFailed_eq (c : Core) (b : StageBlk) : ∃ d : Core, c.writebackFailed b = d.stopProgram b.part St.LINK_DOWN none ∧
    d.rf Regs.PART_STATUS_FATAL b.part = 1 ∧ d.flash = c.flash ∧ d.parts = c.parts ∧
    d.stageBlks = c.stageBlks.map (fun x => if x.slot = b.slot ∧ x.block = b.block then { x with writing := false, stuck := true } else x) ∧
    ∃ first, d.evtBuf = c.evtBuf ++ [⟨Cls.partition, Src.ssd b.slot, b.part, 0x0813, first, 0⟩] := by
  obtain ⟨dir, h⟩ := (c.updStage b.slot b.block (fun x => { x with writing := false, stuck := true })).busyOf_eq b
  refine ⟨_, rfl, Core.rf_wf_fits _ _ _ (by decide) (by decide), ?_⟩
  rw [h]
  exact ⟨rfl, rfl, rfl, _, rfl⟩

theorem Core.stuckAt_writebackFailed (c : Core) (b : StageBlk) : c.stuckAt (c.writebackFailed b) b := by
  obtain ⟨d, h, hfatal, hflash, hparts, hblks, first, hevt⟩ := c.writebackFailed_eq b
  obtain ⟨hothers, hevt'⟩ := d.stopProgram_others b.part St.LINK_DOWN none
  rw [h]
  refine ⟨?_, (congrArg Core.stageBlks hothers).trans hblks, (congrArg Core.flash hothers).trans hflash, ⟨first, hevt'.trans hevt⟩,
    fun pr hpr hrun => (d.stopProgram_view ((congrArg Part.prog (Core.part_of_parts hparts b.part)).trans hpr) hrun _ _).2.2⟩
  rw [Core.rf_of_regs (d.regs_stopProgram _ _ _), hfatal]

/-! ### ROW_WRITEBACK -/

/-- The command that writes a block back (R376). -/
def Core.writeCmd (c : Core) (b : StageBlk) : NvCmd :=
  { id := c.nextNv, slot := b.slot, kind := 1, block := b.block, owner := .writeback b.part, issued := c.tick, began := c.tick }

theorem Core.nvme_writeback (c : Core) (b : StageBlk) :
    (c.nvme b.slot 1 b.block (.writeback b.part)).flash = c.flash ∧ (c.nvme b.slot 1 b.block (.writeback b.part)).staged = c.staged ∧
      (c.nvme b.slot 1 b.block (.writeback b.part)).parts = c.parts ∧ (c.nvme b.slot 1 b.block (.writeback b.part)).stageBlks = c.stageBlks ∧
      (c.nvme b.slot 1 b.block (.writeback b.part)).nvcmds = c.nvcmds ++ [c.writeCmd b] := by
  simp [Core.nvme, Core.writeCmd]

section
variable {n : Fin 8} {k : BitVec 33} {s : State}

/-- The block a command names. -/
def Core.namedBlk (c : Core) (n : Fin 8) (k : BitVec 33) : Option StageBlk :=
  c.stageBlks.find? (fun b => b.slot == n.val && b.block == k.toNat)

/-- What keeps a block from being written back: an activation, a transfer in flight, no new state, a failure, or a row not yet settled. -/
def Core.heldBlk (c : Core) (b : StageBlk) : Bool :=
  c.fwHold || b.fetching || b.writing || !b.dirty || b.stuck || (c.part b.part).pend.any (fun r => c.rowInBlock r b)

/-- Whether the command that writes a block back is in flight. -/
def Core.flyingBlk (c : Core) (b : StageBlk) : Bool :=
  c.nvcmds.any (fun m => m.slot == b.slot && m.block == b.block && m.owner == .writeback b.part)

theorem exec_rowWriteback (n : Fin 8) (k : BitVec 33) (s : State) : exec (.rowWriteback n k) s = s.on (fun c => match c.namedBlk n k with
    | none => c
    | some b => if c.heldBlk b then c else if !c.ssdOk b.slot then c.writebackFailed b
      else ((c.nvme b.slot 1 b.block (.writeback b.part)).updStage b.slot b.block (fun b => { b with writing := true })).busyOf b) := rfl

theorem exec_rowWritebackDone (n : Fin 8) (k : BitVec 33) (s : State) :
    exec (.rowWritebackDone n k) s = s.on (fun c => match c.namedBlk n k with
    | none => c
    | some b => if !b.writing || c.flyingBlk b then c else if b.dirty then c.writebackFailed b
      else ((c.updStage b.slot b.block (fun b => { b with writing := false })).busyOf b).rowsGoOn b.part) := rfl

theorem rowWriteback_absent (h : s.core.namedBlk n k = none) : exec (.rowWriteback n k) s = .next s := by
  rw [exec_rowWriteback]
  exact State.on_of_fixed (by simp only [h])

theorem rowWritebackDone_absent (h : s.core.namedBlk n k = none) : exec (.rowWritebackDone n k) s = .next s := by
  rw [exec_rowWritebackDone]
  exact State.on_of_fixed (by simp only [h])

section
variable (hb : s.core.namedBlk n k = some b)
include hb

theorem rowWriteback_held (hheld : s.core.heldBlk b = true) : exec (.rowWriteback n k) s = .next s := by
  rw [exec_rowWriteback]
  exact State.on_of_fixed (by simp only [hb, hheld, if_true])

theorem rowWriteback_fails (hheld : s.core.heldBlk b = false) (hok : s.core.ssdOk b.slot = false) :
    Answers s (.rowWriteback n k) (fun c => s.core.stuckAt c b) := by
  refine answers_on (exec_rowWriteback n k s) ?_
  simp only [hb, hheld, hok, Bool.false_eq_true, if_false, Bool.not_false, if_true]
  exact s.core.stuckAt_writebackFailed b

theorem rowWriteback_starts (hheld : s.core.heldBlk b = false) (hok : s.core.ssdOk b.slot = true) :
    Answers s (.rowWriteback n k) (fun c => c.flash = s.core.flash ∧ c.staged = s.core.staged ∧ c.parts = s.core.parts ∧
      c.stageBlks = s.core.stageBlks.map (fun x => if x.slot = b.slot ∧ x.block = b.block then { x with writing := true } else x) ∧
      c.nvcmds = s.core.nvcmds ++ [s.core.writeCmd b]) := by
  obtain ⟨hflash, hstaged, hparts, hblks, hcmds⟩ := s.core.nvme_writeback b
  refine answers_on (exec_rowWriteback n k s) ?_
  simp only [hb, hheld, hok, Bool.false_eq_true, if_false, Bool.not_true]
  generalize s.core.nvme b.slot 1 b.block (.writeback b.part) = d at hflash hstaged hparts hblks hcmds
  obtain ⟨dir, h⟩ := (d.updStage b.slot b.block (fun b => { b with writing := true })).busyOf_eq b
  rw [h, ← hblks]
  exact ⟨hflash, hstaged, hparts, rfl, hcmds⟩

/-! ### ROW_WRITEBACK_DONE -/

theorem rowWritebackDone_held (h : b.writing = false ∨ s.core.flyingBlk b = true) : exec (.rowWritebackDone n k) s = .next s := by
  rw [exec_rowWritebackDone]
  refine State.on_of_fixed ?_
  simp only [hb]
  exact if_pos (by rcases h with h | h <;> simp [h])

theorem rowWritebackDone_fails (hw : b.writing = true) (hfly : s.core.flyingBlk b = false) (hdirty : b.dirty = true) :
    Answers s (.rowWritebackDone n k) (fun c => s.core.stuckAt c b) := by
  refine answers_on (exec_rowWritebackDone n k s) ?_
  simp only [hb, hw, hfly, hdirty, Bool.not_true, Bool.or_self, Bool.false_eq_true, if_false, if_true]
  exact s.core.stuckAt_writebackFailed b

end

end

/-! ### A block written back leaves (R391) -/

theorem StageBlk.same_iff {x y : StageBlk} : x.same y = true ↔ x.slot = y.slot ∧ x.block = y.block := by simp [StageBlk.same]

/-- A block `x` once the write-back of block `b` has ended. -/
def StageBlk.endedBy (b x : StageBlk) : StageBlk := if x.slot = b.slot ∧ x.block = b.block then { x with writing := false } else x

theorem StageBlk.endedBy_same {x : StageBlk} (h : x.same b = true) : b.endedBy x = { x with writing := false } :=
  if_pos (StageBlk.same_iff.mp h)

theorem StageBlk.endedBy_other {x : StageBlk} (h : x.same b = false) : b.endedBy x = x :=
  if_neg fun hs => Bool.false_ne_true (h.symm.trans (StageBlk.same_iff.mpr hs))

/-- When one block of a list becomes idle and every other is busy elsewhere, exactly that block leaves. -/
theorem filter_leaving {bs : List StageBlk} {idle : StageBlk → Bool} (hidle : idle { b with writing := false } = true)
    (hbusy : ∀ x, x.busy → idle x = false) (hothers : ∀ x ∈ bs, x ≠ b → x.same b = false ∧ x.busy) :
    (bs.map b.endedBy).filter (fun x => !((bs.map b.endedBy).filter idle).any x.same) = bs.filter (fun x => !x.same b) := by
  have hself : b.same b = true := StageBlk.same_iff.mpr ⟨rfl, rfl⟩
  have hcases : ∀ x ∈ bs, x = b ∨ x.same b = false ∧ x.busy := fun x hx => (eq_or_ne x b).imp_right (hothers x hx)
  have hstays : ∀ x ∈ bs, (!((bs.map b.endedBy).filter idle).any (b.endedBy x).same) = !x.same b := by
    intro x hx
    rcases hcases x hx with rfl | ⟨hx, -⟩
    · rw [StageBlk.endedBy_same hself, hself, Bool.not_inj_iff, List.any_eq_true]
      refine ⟨{ x with writing := false }, List.mem_filter.mpr ⟨List.mem_map.mpr ⟨x, hx, StageBlk.endedBy_same hself⟩, hidle⟩, hself⟩
    · rw [StageBlk.endedBy_other hx, hx, Bool.not_inj_iff, List.any_eq_false]
      intro y hy
      obtain ⟨hy, hyidle⟩ := List.mem_filter.mp hy
      obtain ⟨z, hz, rfl⟩ := List.mem_map.mp hy
      rcases hcases z hz with rfl | ⟨hzb, hzbusy⟩
      · rw [StageBlk.endedBy_same hself]
        exact Bool.not_eq_true _ ▸ hx
      · rw [StageBlk.endedBy_other hzb, hbusy z hzbusy] at hyidle
        cases hyidle
  have hfixed : ∀ x ∈ bs.filter (fun x => !x.same b), b.endedBy x = x := fun x hx =>
    StageBlk.endedBy_other (by simpa using (List.mem_filter.mp hx).2)
  calc (bs.map b.endedBy).filter (fun x => !((bs.map b.endedBy).filter idle).any x.same)
      = (bs.filter (fun x => !((bs.map b.endedBy).filter idle).any (b.endedBy x).same)).map b.endedBy := List.filter_map
    _ = (bs.filter (fun x => !x.same b)).map b.endedBy := by rw [List.filter_congr hstays]
    _ = bs.filter (fun x => !x.same b) := (List.map_congr_left (g := id) hfixed).trans (List.map_id _)

/-- A block written back leaves, when nothing waits for it and every other block is busy. -/
theorem rowWritebackDone_leaves {n : Fin 8} {k : BitVec 33} {s : State} {p : Nat} (hb : s.core.namedBlk n k = some b) (hp : b.part = p)
    (hw : b.writing = true) (hfly : s.core.flyingBlk b = false) (hdirty : b.dirty = false) (hfetch : b.fetching = false) (hstuck : b.stuck = false)
    (hquiet : (s.core.part p).step.committed = false ∧ s.core.slowReqs = []) (hpend : (s.core.part p).pend = [])
    (hitems : (s.core.part p).step.accepted) (hothers : ∀ x ∈ s.core.stageBlks, x ≠ b → x.same b = false ∧ x.busy) :
    Answers s (.rowWritebackDone n k) (fun c => s.core.rowsOnly c p ∧ c.stageBlks = s.core.stageBlks.filter (fun x => !x.same b)) := by
  subst hp
  obtain ⟨dir, hbusyOf⟩ := (s.core.updStage b.slot b.block (fun b => { b with writing := false })).busyOf_eq b
  obtain ⟨c, hc, hparts, hslow, hblks, honly⟩ : ∃ c : Core, (s.core.updStage b.slot b.block (fun b => { b with writing := false })).busyOf b = c ∧
      c.parts = s.core.parts ∧ c.slowReqs = s.core.slowReqs ∧ c.stageBlks = s.core.stageBlks.map b.endedBy ∧ s.core.rowsOnly c b.part :=
    ⟨_, hbusyOf, rfl, rfl, rfl, .refl _ _⟩
  have hpart := Core.part_of_parts hparts b.part
  have hnone : ((c.markPresent b.part).sent.part b.part).pend = [] := by
    rw [Core.sent_part, Core.markPresent_eq, Core.part_setPart_same, hpart, hpend, List.map_nil]
  have hrun : c.rowsGoOn b.part = (c.markPresent b.part).sent.tidyStage := by
    rw [Core.rowsGoOn_undecided (by rw [hpart, hslow]; exact hquiet) (by rw [hpart]; exact hitems), Core.restartFetches_none]
    rw [Core.part_of_parts (Core.tidyStage_view _).1, hnone]
    exact fun r hr => absurd hr List.not_mem_nil
  refine answers_on (exec_rowWritebackDone n k s) ?_
  simp only [hb, hw, hfly, hdirty, Bool.not_true, Bool.or_self, Bool.false_eq_true, if_false]
  rw [hc, hrun]
  refine ⟨((honly.setPart _).sent).tidyStage, ?_⟩
  rw [Core.stageBlks_tidyStage, show (c.markPresent b.part).sent.stageBlks = s.core.stageBlks.map b.endedBy from hblks]
  exact filter_leaving (Core.idleBlk_free hnone hfetch rfl hdirty hstuck) (fun x hx => Core.idleBlk_busy hx) hothers

end Sys2Proof.Machine
end

section
/-! PROOFS. ROW_STEP_DEADLINE (R391): the rows that have not been applied fail. -/

namespace Sys2Proof.Machine

variable {c d : Core} {p : Nat}

/-! ### Logging a failed row -/

/-- A failed row counted and noted in the step. -/
def Core.noteRow (c : Core) (p table row st : Nat) : Core :=
  (c.count Regs.SLOW_ROWS_FAILED_COUNT p).updStep p (fun s => { s with rowsFailed := s.rowsFailed + 1, failed := s.failed ++ [(table, row, st)] })

/-- Besides its note a failed row leaves nothing, the overflow of the failure log, or a record in it (R393). -/
theorem Core.logRow_cases (c : Core) (p table row st : Nat) :
    c.logRow p table row st = c.noteRow p table row st ∨
    c.logRow p table row st = (c.noteRow p table row st).wf Regs.SLOW_SLOW_PSTATUS_FAIL_OVF p 1 ∨
    ∃ off bs v, c.logRow p table row st = ((c.noteRow p table row st).writeView p off bs).wf Regs.SLOW_FAIL_TAIL_TAIL p v := by
  unfold Core.logRow
  dsimp only
  split_ifs
  · exact .inl rfl
  · exact .inr (.inl rfl)
  · exact .inr (.inr ⟨_, _, _, rfl⟩)

theorem Core.writeView_eq (c : Core) (p off : Nat) (bs : List Byte) : ∃ m k, c.writeView p off bs = { c with dram := m, dramKey := k } := by
  refine threadAll_inv (fun d => ∃ m k, d = { c with dram := m, dramKey := k }) (fun d e hd => ?_) _ c ⟨_, _, rfl⟩
  obtain ⟨m, k, rfl⟩ := hd
  split
  · exact ⟨_, _, rfl⟩
  · exact ⟨_, _, rfl⟩

theorem Core.part_writeView (c : Core) (p off : Nat) (bs : List Byte) (u : Nat) : (c.writeView p off bs).part u = c.part u := by
  obtain ⟨m, k, h⟩ := c.writeView_eq p off bs
  rw [h]
  rfl

/-- From `c` to `d` the items, the operations, and the registers that say whose partition is in which step, are as they were. -/
structure Core.keepsStep (c d : Core) (p : Nat) : Prop where
  items : d.items = c.items
  ops : d.ops = c.ops
  lead : d.lead p = c.lead p
  stepOf : d.stepOf p = c.stepOf p

theorem Core.keepsStep.refl (c : Core) (p : Nat) : c.keepsStep c p := ⟨rfl, rfl, rfl, rfl⟩

theorem Core.keepsStep.trans {b : Core} (h : b.keepsStep c p) (h' : c.keepsStep d p) : b.keepsStep d p :=
  ⟨h'.items.trans h.items, h'.ops.trans h.ops, h'.lead.trans h.lead, h'.stepOf.trans h.stepOf⟩

/-- A field of a register apart from those of ownership and of the step counter. -/
theorem Core.keepsStep.wf (h : c.keepsStep d p) {f : Fld} (hf : [Regs.PART_STATE, Regs.PART_TILE_GROUPS, Regs.UPD_STEP].all (·.apart f.reg) = true)
    (i v : Nat) : c.keepsStep (d.wf f i v) p := by
  simp only [List.all_cons, List.all_nil, Bool.and_true, Bool.and_eq_true] at hf
  obtain ⟨hstate, hgroups, hstep⟩ := hf
  have howners : d.sameOwners (d.wf f i v) := fun q => ⟨d.rd_wf_apart _ _ _ hstate, d.rd_wf_apart _ _ _ hgroups⟩
  refine h.trans ⟨rfl, rfl, howners.lead p, ?_⟩
  rw [Core.stepOf, howners.lead, Core.stepOf, d.rf_wf_apart _ _ _ hstep]

theorem Core.keepsStep.setPart (h : c.keepsStep d p) (u : Nat) (x : Part) : c.keepsStep (d.setPart u x) p := ⟨h.items, h.ops, h.lead, h.stepOf⟩

theorem Core.keepsStep.noteRow (h : c.keepsStep d p) (table row st : Nat) : c.keepsStep (d.noteRow p table row st) p :=
  (h.wf (by decide) _ _).setPart _ _

theorem Core.keepsStep.writeView (h : c.keepsStep d p) (u off : Nat) (bs : List Byte) : c.keepsStep (d.writeView u off bs) p := by
  obtain ⟨m, k, hd⟩ := d.writeView_eq u off bs
  rw [hd]
  exact ⟨h.items, h.ops, h.lead, h.stepOf⟩

theorem Core.keepsStep.logRow (h : c.keepsStep d p) (table row st : Nat) : c.keepsStep (d.logRow p table row st) p := by
  rcases d.logRow_cases p table row st with hd | hd | ⟨off, bs, v, hd⟩ <;> rw [hd]
  · exact h.noteRow _ _ _
  · exact (h.noteRow _ _ _).wf (by decide) _ _
  · exact ((h.noteRow _ _ _).writeView _ _ _).wf (by decide) _ _

theorem Core.part_logRow (c : Core) (p table row st : Nat) : (c.logRow p table row st).part p = { c.part p with
    step := { (c.part p).step with rowsFailed := (c.part p).step.rowsFailed + 1, failed := (c.part p).step.failed ++ [(table, row, st)] } } := by
  have hnote : (c.noteRow p table row st).part p = { c.part p with
      step := { (c.part p).step with rowsFailed := (c.part p).step.rowsFailed + 1, failed := (c.part p).step.failed ++ [(table, row, st)] } } := by
    rw [Core.noteRow, Core.updStep, Core.part_setPart_same, Core.count_part]
  rcases c.logRow_cases p table row st with h | h | ⟨off, bs, v, h⟩ <;> rw [h]
  · exact hnote
  · rw [Core.wf_part, hnote]
  · rw [Core.wf_part, Core.part_writeView, hnote]

/-! ### Failing every row that is left -/

theorem Core.keepsStep.refreshPend (h : c.keepsStep d p) (u table g : Nat) : c.keepsStep (d.refreshPend u table g) p := by
  obtain ⟨dir, hd⟩ := d.refreshPend_eq u table g
  rw [hd]
  exact ⟨h.items, h.ops, h.lead, h.stepOf⟩

theorem Core.part_freeRow (c : Core) (p : Nat) (r : PendRow) :
    (c.freeRow p r).part p = { c.part p with pend := (c.part p).pend.filter (fun y => y.slot != r.slot) } := by
  rw [Core.freeRow, Core.refreshUse_part, Core.refreshPend_part, Core.part_setPart_same]

theorem Core.keepsStep.freeRow (h : c.keepsStep d p) (r : PendRow) : c.keepsStep (d.freeRow p r) p :=
  (((h.setPart _ _).refreshPend _ _ _).wf (by decide) _ _).wf (by decide) _ _

/-- The status with which a row that is left fails: its own, or the deadline's. -/
def PendRow.endStatus (r : PendRow) : Nat := r.failed.getD St.ROW_DEADLINE

/-- A row that is left fails, is logged, and its entry is freed. -/
def Core.failRow (p : Nat) (c : Core) (r : PendRow) : Core := (c.logRow p r.table r.row r.endStatus).freeRow p r

theorem Core.keepsStep.failRows (h : c.keepsStep d p) (rs : List PendRow) : c.keepsStep (threadAll (Core.failRow p) d rs) p :=
  threadAll_inv (fun d => c.keepsStep d p) (fun _ r h => (h.logRow _ _ _).freeRow r) rs d h

/-- A step in which a list of rows has failed. -/
def StepSt.fail (q : StepSt) (rs : List PendRow) : StepSt :=
  { q with rowsFailed := q.rowsFailed + rs.length, failed := q.failed ++ rs.map (fun r => (r.table, r.row, r.endStatus)) }

theorem Core.part_failRow (c : Core) (p : Nat) (r : PendRow) : (c.failRow p r).part p = { c.part p with
    pend := (c.part p).pend.filter (fun y => y.slot != r.slot), step := (c.part p).step.fail [r] } := by
  rw [Core.failRow, Core.part_freeRow, Core.part_logRow]
  rfl

theorem StepSt.fail_cons (q : StepSt) (r : PendRow) (rs : List PendRow) : (q.fail [r]).fail rs = q.fail (r :: rs) := by
  simp only [StepSt.fail, List.length_cons, List.length_nil, List.map_cons, List.map_nil, List.append_assoc, List.cons_append, List.nil_append,
    Nat.zero_add, Nat.add_assoc, Nat.add_comm rs.length 1]

theorem Core.part_failRows (rs : List PendRow) (c : Core) : (threadAll (Core.failRow p) c rs).part p = { c.part p with
    pend := (c.part p).pend.filter (fun y => !rs.any (fun r => y.slot == r.slot)), step := (c.part p).step.fail rs } := by
  induction rs generalizing c with
  | nil => simp [threadAll, StepSt.fail]
  | cons r rs ih =>
    rw [threadAll, ih, Core.part_failRow, StepSt.fail_cons]
    simp only [List.filter_filter, List.any_cons, Bool.not_or, Bool.and_comm, bne]

/-- Every entry is freed. -/
theorem Core.part_failPend (c : Core) (p : Nat) : (threadAll (Core.failRow p) c (c.part p).pend).part p = { c.part p with
    pend := [], step := (c.part p).step.fail (c.part p).pend } := by
  have hnone : (c.part p).pend.filter (fun y => !(c.part p).pend.any (fun r => y.slot == r.slot)) = [] :=
    List.filter_eq_nil_iff.mpr fun y hy => by
      rw [Bool.not_eq_true', Bool.not_eq_false]
      exact List.any_eq_true.mpr ⟨y, hy, beq_self_eq_true _⟩
  rw [Core.part_failRows, hnone]

/-! ### The command -/

/-- The rows that still wait to be accepted, by table and row. -/
def StepSt.waitingRows (q : StepSt) : List (Nat × Nat) :=
  q.items.flatMap (fun i => if i.open_ then i.todo.map (fun k => (i.table.getD 0, (i.rows[k]?).getD 0)) else [])

theorem StepSt.waitingRows_accepted {q : StepSt} (h : q.accepted) : q.waitingRows = [] :=
  List.flatMap_eq_nil_iff.mpr fun j hj => by simp [h j hj]

/-- The device once every row that is left has failed: those with an entry, and those that waited for one (R391). -/
def Core.failLeft (c : Core) (p : Nat) : Core :=
  let d := threadAll (Core.failRow p) c (c.part p).pend
  let seen := (d.part p).step.failed.map (fun f => (f.1, f.2.1))
  (threadAll (fun c (w : Nat × Nat) => c.logRow p w.1 w.2 St.ROW_DEADLINE) d
    ((c.part p).step.waitingRows.eraseDups.filter (fun w => !seen.contains w))).updStep p
      (fun s => { s with items := s.items.map (fun i => { i with todo := [] }) })

/-- ROWS_FAILED is posted once a step, if a row has failed (R391). -/
def Core.postFailed (c : Core) (p : Nat) : Core :=
  let n := (c.part p).step.rowsFailed
  if n = 0 ∨ (c.part p).step.rowsPosted then c
  else (c.updStep p (fun s => { s with rowsPosted := true })).stepEvt p Cls.item 0x0811 n (c.stepOf p)

theorem Core.postFailed_posts (hn : (c.part p).step.rowsFailed ≠ 0) (hposted : (c.part p).step.rowsPosted = false) :
    (c.postFailed p).part p = { c.part p with step := { (c.part p).step with rowsPosted := true } } ∧
      (c.postFailed p).evtBuf = c.evtBuf ++ [⟨Cls.item, Src.updEngine (c.lead p), p, 0x0811, (c.part p).step.rowsFailed % 2 ^ 64,
        c.stepOf p % 2 ^ 64⟩] ∧ (c.postFailed p).items = c.items ∧ (c.postFailed p).ops = c.ops := by
  have hpost : c.postFailed p = (c.updStep p (fun s => { s with rowsPosted := true })).stepEvt p Cls.item 0x0811 (c.part p).step.rowsFailed
      (c.stepOf p) := if_neg (by simp [hn, hposted])
  rw [hpost]
  exact ⟨c.part_setPart_same p _, rfl, rfl, rfl⟩

theorem exec_rowStepDeadline (p : PartId) (s : State) : exec (.rowStepDeadline p) s = s.on (fun c =>
    if !(c.part p.val).step.committed || decide (c.tick < (c.part p.val).step.decideTick + c.deadlineTicks p.val) then c
    else
      let d := ((c.failLeft p.val).postFailed p.val).tidyStage.settleItems p.val
      if d.canBoundary p.val then d.boundary p.val else d) := rfl

/-- Before the deadline nothing happens. -/
theorem rowStepDeadline_early {p : PartId} {s : State}
    (h : (s.core.part p.val).step.committed = false ∨ s.core.tick < (s.core.part p.val).step.decideTick + s.core.deadlineTicks p.val) :
    exec (.rowStepDeadline p) s = .next s := by
  refine (exec_rowStepDeadline p s).trans (State.on_of_fixed (if_pos ?_))
  rcases h with h | h <;> simp [h]

theorem Core.settleItems_tableless (h : ∀ j ∈ (c.part p).step.items, j.table = none) : c.settleItems p = c := by
  have hnone : (c.part p).step.items.filter (fun i => i.open_ && i.table.isSome && i.todo.isEmpty &&
      !(c.part p).pend.any (fun r => some r.table == i.table && i.rows.contains r.row)) = [] :=
    List.filter_eq_nil_iff.mpr fun j hj => by simp [h j hj]
  simp only [Core.settleItems, hnone]
  split_ifs <;> rfl

theorem Core.canBoundary_open (h : (c.part p).step.items.any (·.open_) = true) : c.canBoundary p = false := by
  simp [Core.canBoundary, h]

/-- With nothing waiting for an entry, the entries alone fail. -/
theorem Core.failLeft_accepted (h : (c.part p).step.accepted) :
    (c.failLeft p).part p = { c.part p with pend := [], step := (c.part p).step.fail (c.part p).pend } ∧ c.keepsStep (c.failLeft p) p := by
  have hitems : (c.part p).step.items.map (fun i => { i with todo := [] }) = (c.part p).step.items :=
    (List.map_congr_left (g := id) fun j hj => by rw [← h j hj]; rfl).trans (List.map_id _)
  have hleft : c.failLeft p = (threadAll (Core.failRow p) c (c.part p).pend).updStep p
      (fun s => { s with items := s.items.map (fun i => { i with todo := [] }) }) := by
    rw [Core.failLeft, StepSt.waitingRows_accepted h]
    rfl
  rw [hleft]
  refine ⟨?_, ((Core.keepsStep.refl c p).failRows _).setPart _ _⟩
  rw [Core.updStep, Core.part_setPart_same, Core.part_failPend]
  simp only [StepSt.fail, hitems]

/-- At the deadline of a step whose items have no rows left of their own every entry is freed, its row failed, and the failures posted once
(R391). -/
theorem rowStepDeadline_fails {p : PartId} {s : State} (hcommitted : (s.core.part p.val).step.committed = true)
    (hdue : (s.core.part p.val).step.decideTick + s.core.deadlineTicks p.val ≤ s.core.tick)
    (hitems : ∀ j ∈ (s.core.part p.val).step.items, j.table = none ∧ j.todo = [])
    (hopen : (s.core.part p.val).step.items.any (·.open_) = true) (hposted : (s.core.part p.val).step.rowsPosted = false)
    (hpend : (s.core.part p.val).pend ≠ []) :
    Answers s (.rowStepDeadline p) (fun c => (c.part p.val).pend = [] ∧
      (c.part p.val).step = { (s.core.part p.val).step.fail (s.core.part p.val).pend with rowsPosted := true } ∧
      ⟨Cls.item, Src.updEngine (s.core.lead p.val), p.val, 0x0811,
        ((s.core.part p.val).step.rowsFailed + (s.core.part p.val).pend.length) % 2 ^ 64, s.core.stepOf p.val % 2 ^ 64⟩ ∈ c.evtBuf ∧
      c.items = s.core.items ∧ c.ops = s.core.ops) := by
  obtain ⟨hpart, hkeep⟩ := Core.failLeft_accepted (c := s.core) (p := p.val) fun j hj => (hitems j hj).2
  refine answers_on (exec_rowStepDeadline p s) ?_
  generalize s.core.failLeft p.val = d at hpart hkeep
  have hstep : (d.part p.val).step = (s.core.part p.val).step.fail (s.core.part p.val).pend := by rw [hpart]
  have hn : (d.part p.val).step.rowsFailed = (s.core.part p.val).step.rowsFailed + (s.core.part p.val).pend.length := by rw [hstep]; rfl
  obtain ⟨hpost, hevt, hitems', hops⟩ := Core.postFailed_posts (c := d) (p := p.val)
    (by rw [hn]; exact Nat.ne_of_gt (Nat.add_pos_right _ (List.length_pos_of_ne_nil hpend))) (by rw [hstep]; exact hposted)
  generalize d.postFailed p.val = e at hpost hevt hitems' hops
  obtain ⟨hparts, hevtBuf, hitemsBuf, hopsBuf⟩ := e.tidyStage_view
  generalize e.tidyStage = b at hparts hevtBuf hitemsBuf hopsBuf
  have hlast : b.part p.val = { s.core.part p.val with
      pend := [], step := { (s.core.part p.val).step.fail (s.core.part p.val).pend with rowsPosted := true } } := by
    rw [Core.part_of_parts hparts, hpost, hpart]
  have hsettle : b.settleItems p.val = b := Core.settleItems_tableless (by rw [hlast]; exact fun j hj => (hitems j hj).1)
  have hwaits : b.canBoundary p.val = false := Core.canBoundary_open (by rw [hlast]; exact hopen)
  simp only [hcommitted, Nat.not_lt.mpr hdue, Bool.not_true, decide_false, Bool.or_self, Bool.false_eq_true, if_false, hsettle, hwaits]
  refine ⟨by rw [hlast], by rw [hlast], ?_, hitemsBuf.trans (hitems'.trans hkeep.items), hopsBuf.trans (hops.trans hkeep.ops)⟩
  rw [hevtBuf, hevt, hn, hkeep.lead, hkeep.stepOf]
  exact List.mem_append_right _ List.mem_cons_self

end Sys2Proof.Machine
end

section
/-! PROOFS. STASH_SPILL_DONE (R278), and O39. -/

namespace Sys2Proof.Machine

/-! ### The end of a spill -/

theorem stashSpillDone_idle {t : PTile} {s : State} (h : s.core.flag Regs.TILE_STASH_STATUS_SPILLING t.val = false) :
    exec (.stashSpillDone t) s = .next s :=
  (show exec (.stashSpillDone t) s = execStashSpillDone t s from rfl).trans (State.on_of_fixed (if_pos (by rw [h]; rfl)))

/-- A tile that a spill held goes on. -/
def Tile.pastSpill (y : Tile) : Tile := { y with stall := if y.stall = some .spill then none else y.stall }

/-- SPILLING is cleared and the wait is counted (R278). -/
def Core.endSpill (c : Core) (t : Nat) : Core :=
  (c.wf Regs.TILE_STASH_STATUS_SPILLING t 0).fresh.2.count Regs.TILE_STASH_STALL_COUNT t (c.wf Regs.TILE_STASH_STATUS_SPILLING t 0).fresh.1.toNat

theorem Core.endSpill_view (c : Core) (t : Nat) : (c.endSpill t).rf Regs.TILE_STASH_STATUS_SPILLING t = 0 ∧ (c.endSpill t).tiles = c.tiles ∧
    (c.endSpill t).mems = c.mems ∧ (c.endSpill t).parts = c.parts ∧ (c.endSpill t).evtBuf = c.evtBuf := by
  refine ⟨?_, by simp [Core.endSpill, Core.fresh], by simp [Core.endSpill, Core.fresh, Core.mems], by simp [Core.endSpill, Core.fresh],
    by simp [Core.endSpill, Core.fresh]⟩
  have hfresh : (c.wf Regs.TILE_STASH_STATUS_SPILLING t 0).fresh.2.regs = (c.wf Regs.TILE_STASH_STATUS_SPILLING t 0).regs := rfl
  rw [Core.endSpill, Core.rf_count_apart _ _ _ _ (by decide), Core.rf_of_regs hfresh, Core.rf_wf_fits _ _ _ (by decide) (by decide)]

theorem stashSpillDone_ends {t : PTile} {s : State} (h : s.core.flag Regs.TILE_STASH_STATUS_SPILLING t.val = true) :
    Answers s (.stashSpillDone t) (fun c => c.rf Regs.TILE_STASH_STATUS_SPILLING t.val = 0 ∧ c.tile t.val = (s.core.tile t.val).pastSpill ∧
      (∀ u, u ≠ t.val → c.tile u = s.core.tile u) ∧ c.mems = s.core.mems ∧ c.parts = s.core.parts ∧ c.evtBuf = s.core.evtBuf) := by
  have hexec : exec (.stashSpillDone t) s = s.on (fun c => if !c.flag Regs.TILE_STASH_STATUS_SPILLING t.val then c
      else if ((c.endSpill t.val).tile t.val).stall = some .spill then
        (c.endSpill t.val).setTile t.val { (c.endSpill t.val).tile t.val with stall := none }
      else c.endSpill t.val) := rfl
  obtain ⟨hflag, htiles, hmems, hparts, hevt⟩ := s.core.endSpill_view t.val
  refine answers_on hexec ?_
  simp only [h, Bool.not_true, Bool.false_eq_true, if_false]
  generalize s.core.endSpill t.val = d at hflag htiles hmems hparts hevt
  rw [Core.tile_of_tiles htiles]
  split_ifs with hspill
  · exact ⟨hflag, by rw [Core.tile_setTile_same, Tile.pastSpill, if_pos hspill],
      fun u hu => (d.tile_setTile_other _ hu).trans (Core.tile_of_tiles htiles u), hmems, hparts, hevt⟩
  · exact ⟨hflag, by rw [Core.tile_of_tiles htiles, Tile.pastSpill, if_neg hspill], fun u _ => Core.tile_of_tiles htiles u, hmems, hparts, hevt⟩

/-- Settles O39: each command by its outcomes, ROW_ACCEPT by what becomes of the one position that waits. -/
theorem rowPath : Obligations.RowPath := by
  intro p s
  refine ⟨fun op i k hfind hhold hquiet hk hothers hsole => ?_, fun op h => rowAccept_waits h, fun hquiet hitems hwaits hblks => ?_,
    fun n k => ⟨fun h => ⟨rowWriteback_absent h, rowWritebackDone_absent h⟩, fun b hb => ?_⟩, fun h => rowStepDeadline_early h,
    fun hcommitted hdue hitems hopen hposted hpend => ?_, fun t => ⟨fun h => stashSpillDone_idle h, fun h => stashSpillDone_ends h⟩⟩
  · intro row tb g
    refine ⟨fun r hr hcount => ?_, fun hnone hfull => ?_, fun hnone hroom haddr => ?_⟩
    · obtain ⟨d, hd⟩ := Core.acceptRow_entry (i := i) (k := k) hr hcount
      exact rowAccept_accepts hfind hhold hquiet hk hothers hd
    · exact rowAccept_full hfind hhold hquiet hk hothers hsole hnone hfull
    · obtain ⟨d, hd⟩ := Core.acceptRow_new (i := i) (k := k) hnone hroom haddr
      obtain ⟨c, hnext, honly, hpend, hdone⟩ := rowAccept_accepts hfind hhold hquiet hk hothers hd
      exact ⟨c, hnext, honly, hdone, _, hpend, rfl, rfl, rfl, rfl, freeSlot_free _, rfl⟩
  · obtain ⟨c, hnext, honly, hstep, hstage, hpend⟩ := rowFetchDone_marks hquiet hitems hwaits hblks
    refine ⟨c, hnext, honly, hstep, hstage, by rw [hpend, List.length_map], fun j r hr => ?_⟩
    refine ⟨s.core.arrived p.val r, by rw [hpend, List.getElem?_map, hr]; rfl, Core.arrived_eq _ _ _,
      fun h => (Core.arrived_present h).symm ▸ h, fun a b hf ha hb => Core.arrived_flash hf ha hb, fun ⟨st, hst⟩ => Core.arrived_failed hst⟩
  · refine ⟨fun h => rowWriteback_held hb h, fun h hok => rowWriteback_fails hb h hok, fun h hok => rowWriteback_starts hb h hok,
      fun h => rowWritebackDone_held hb h, fun hw hfly hdirty => rowWritebackDone_fails hb hw hfly hdirty,
      fun hw hfly hdirty hp hquiet hpend hitems hothers hfetch hstuck => ?_⟩
    refine rowWritebackDone_leaves hb hp hw hfly hdirty hfetch hstuck hquiet hpend hitems fun x hx hne => ?_
    obtain ⟨happart, hbusy⟩ := hothers x hx hne
    exact ⟨Bool.eq_false_iff.mpr fun hs => happart.elim (absurd (StageBlk.same_iff.mp hs).1) (absurd (StageBlk.same_iff.mp hs).2), hbusy⟩
  · obtain ⟨c, hnext, hnone, hstep, hevt, hkept⟩ := rowStepDeadline_fails hcommitted hdue hitems hopen hposted hpend
    refine ⟨c, hnext, hnone, by rw [hstep]; rfl, fun r hr => ?_, hevt, hkept⟩
    rw [hstep]
    exact List.mem_append_right _ (List.mem_map_of_mem hr)

end Sys2Proof.Machine
end

section
/-! PROOFS. STEP_AGREEMENT_TIMEOUT in a step that is committed and not decided (R304, R324), against O40. -/

namespace Sys2Proof.Machine

/-! ### The end of the held items when no operation is in progress -/

section
variable {c : Core} {m : SMap Byte}

/-- No operation is in progress and the scratchpads hold `m`. -/
def Core.idleWith (c : Core) (m : SMap Byte) : Prop := c.ops = [] ∧ c.scratch = m

theorem Core.idleWith.op? (h : c.idleWith m) (id : Nat) : c.op? id = none := by rw [Core.op?, h.1]; rfl

theorem Core.idleWith.complete (h : c.idleWith m) (id : Nat) : (c.complete id).idleWith m := by simpa only [Core.complete, h.op?] using h

theorem Core.idleWith.endOpItem (h : c.idleWith m) (op st : Nat) : (c.endOpItem op st).idleWith m := by
  simpa only [Core.endOpItem, h.op?, Option.bind_none] using h

theorem Core.idleWith.updOp (h : c.idleWith m) (id : Nat) (f : AOp → AOp) : (c.updOp id f).idleWith m := ⟨by rw [Core.updOp, h.1]; rfl, h.2⟩

theorem Core.idleWith.endStepItem (h : c.idleWith m) (p : Nat) (i : StepItem) (st : Nat) : (c.endStepItem p i st).idleWith m := by
  refine .complete (.updOp ?_ _ _) _
  split_ifs <;> exact h

end

section
variable (c : Core)

theorem Core.scratch_updStep (p : Nat) (f : StepSt → StepSt) : (c.updStep p f).scratch = c.scratch := rfl

theorem Core.scratch_updDir (p table g : Nat) (f : Nat → Nat) : (c.updDir p table g f).scratch = c.scratch := rfl

theorem Core.scratch_dropRows (p : Nat) (all : Bool) : (c.dropRows p all).scratch = c.scratch := by
  rw [Core.dropRows, Core.refreshUse, Core.wf_scratch, Core.wf_scratch]
  refine threadAll_view Core.scratch (f := fun d (g : Nat × Nat) => (d.refreshPend p g.1 g.2).refreshBusy p g.1 g.2) (fun d g => ?_) _ _
  rw [Core.refreshBusy, Core.scratch_updDir, Core.refreshPend, Core.scratch_updDir]

theorem Core.scratch_partFatal (p source code info0 info1 st : Nat) : (c.partFatal p source code info0 info1 st).scratch = c.scratch :=
  congrArg (·.1) (Core.mems_of_others (Core.stopProgram_others _ p st none).1)

theorem Core.scratch_updateIncomplete (p st : Nat) : (c.updateIncomplete p st).scratch = c.scratch := Core.scratch_partFatal _ _ _ _ _ _ _

theorem Core.seqView_spoil (x : Span) : (c.spoil x).seqView = c.seqView := by
  refine threadAll_view _ (fun c k => ?_) _ c
  split
  · rfl
  · exact Core.seqView_writePlace _ _ _

theorem Core.ops_cutPass (p : Nat) (i : StepItem) : (c.cutPass p i).ops = c.ops := by
  obtain ⟨-, -, h, -⟩ := Core.seqView_eq_iff.mp (threadAll_view _ Core.seqView_spoil (c.shardSpans p i) c)
  exact h

theorem Core.scratch_cutPass (p : Nat) (i : StepItem) :
    (c.cutPass p i).scratch = (threadAll (fun c x => c.spoil x) c (c.shardSpans p i)).scratch := rfl

end

/-- The held items end: what the passes that run have written stands, and nothing more is written (R324). -/
theorem Core.scratch_endHeld {c : Core} (h : c.ops = []) (p st : Nat) :
    (c.endHeld p st).scratch = (threadAll (fun c i => c.cutPass p i) c (c.part p).step.passing).scratch := by
  have hcut : (threadAll (fun c i => c.cutPass p i) c (c.part p).step.passing).idleWith _ :=
    ⟨(threadAll_view Core.ops (fun c i => c.ops_cutPass p i) _ c).trans h, rfl⟩
  have hend := threadAll_inv (Core.idleWith · _) (fun _ (i : StepItem) hd => (hd.endOpItem i.op st).endStepItem p i st)
    ((c.part p).step.items.filter (·.open_)) _ hcut
  rw [Core.endHeld, Core.wf_scratch, Core.wf_scratch, Core.scratch_updStep, apply_ite Core.scratch]
  dsimp only
  rw [Core.scratch_updateIncomplete, Core.scratch_updStep, Core.scratch_dropRows, ite_self]
  exact hend.2

/-- A step without values of its agreement group is given up (R304). -/
def Core.giveUp (c : Core) (p : Nat) : Core :=
  let c := (c.endHeld p St.TIMEOUT).wf Regs.UPD_STEP_STATUS_INCOMPLETE ((c.endHeld p St.TIMEOUT).lead p) 1
  c.partFatal p (Src.updEngine (c.lead p)) 0x0609 (c.stepOf p) 0 St.TIMEOUT

theorem exec_stepAgreementTimeout_due {p : PartId} {s : State} (hclosed : (s.core.part p.val).step.closed = true)
    (hagree : (s.core.part p.val).step.agree.isSome = true) (hdecided : (s.core.part p.val).step.decided = false)
    (hlate : (s.core.part p.val).step.closeTick + max 1 (s.core.part p.val).cfg.timeout * Config.ticksPerMs ≤ s.core.tick) :
    exec (.stepAgreementTimeout p) s = .next { s with core := s.core.giveUp p.val } := by
  have hexec : exec (.stepAgreementTimeout p) s = s.on (fun c =>
      let q := (c.part p.val).step
      if q.closed && q.agree.isSome && !q.decided && decide (q.closeTick + max 1 (c.part p.val).cfg.timeout * Config.ticksPerMs ≤ c.tick) then
        c.giveUp p.val
      else c) := rfl
  simp only [hexec, State.on, hclosed, hagree, hdecided, hlate, Bool.not_false, Bool.and_self, decide_true, if_true]

theorem Core.scratch_giveUp {c : Core} (h : c.ops = []) (p : Nat) :
    (c.giveUp p).scratch = (threadAll (fun c i => c.cutPass p i) c (c.part p).step.passing).scratch :=
  (Core.scratch_partFatal _ _ _ _ _ _ _).trans (Core.scratch_endHeld h p St.TIMEOUT)

/-! ### Bytes that take free values -/

/-- A scratchpad byte, by its key, takes a free value, by its number. -/
def putFree (m : SMap Byte) (e : Nat × Nat) : SMap Byte := m.put zeroByte e.1 ((Config.freeWord e.2).setWidth 8)

/-- The device with other scratchpads and another count of free values. -/
def Core.refilled (c : Core) (m : SMap Byte) (f : Nat) : Core := { c with scratch := m, free := f }

/-- A byte of a span takes the next free value. -/
def Core.spoilByte (c : Core) (x : Span) (k : Nat) : Core :=
  match c.place x.part x.ltile x.addr k with
  | .remote _ _ _ => c
  | place => c.fresh.2.writePlace (c.fresh.1.setWidth 8) place

theorem Core.spoil_eq (c : Core) (x : Span) : c.spoil x = threadAll (fun c k => c.spoilByte x k) c (upFrom x.off x.len) := rfl

section
variable {c : Core} {x : Span} {t o k : Nat}

theorem Core.spoilByte_own (hpl : c.place x.part x.ltile x.addr k = .scratch t o) (hon : c.awake t (o / bankBytes)) (m : SMap Byte) (f : Nat) :
    (c.refilled m f).spoilByte x k = c.refilled (putFree m (c.scratchKey t o, f)) (f + 1) := by
  have hplace : (c.refilled m f).place x.part x.ltile x.addr k = .scratch t o := hpl
  rw [Core.spoilByte, hplace]
  exact Core.writePlace_scratch (c.refilled m (f + 1)) _ hon.1 hon.2

end

/-- The bytes of a span of a tile's own scratchpad, in banks that are on, take the free values in turn (R60). -/
theorem Core.spoil_own {c : Core} {x : Span} {t a : Nat} (hpl : ∀ k, c.place x.part x.ltile x.addr k = .scratch t (a + k))
    (hon : ∀ k, k < x.off + x.len → c.awake t ((a + k) / bankBytes)) (m : SMap Byte) (f : Nat) :
    (c.refilled m f).spoil x =
      c.refilled (threadAll putFree m (((upFrom x.off x.len).map (fun k => c.scratchKey t (a + k))).zip (upFrom f x.len))) (f + x.len) := by
  have hrun : ∀ n off m f, off + n ≤ x.off + x.len → threadAll (fun c k => c.spoilByte x k) (c.refilled m f) (upFrom off n) =
      c.refilled (threadAll putFree m (((upFrom off n).map (fun k => c.scratchKey t (a + k))).zip (upFrom f n))) (f + n) := by
    intro n
    induction n with
    | zero => intros; rfl
    | succ n ih =>
      intro off m f hn
      rw [upFrom_succ, upFrom_succ, threadAll, Core.spoilByte_own (hpl off) (hon off (by omega)), ih (off + 1) _ _ (by omega), Nat.add_assoc,
        Nat.add_comm 1 n, List.map_cons, List.zip_cons_cons, threadAll]
  exact hrun x.len x.off m f le_rfl

/-! ### The counterexample -/

/-- A held UPDATE whose shard is one FP16 element at offset 0x1000 of its tile's scratchpad. -/
def heldElem : StepItem := { op := 0, layer := 0, eng := 0, ltile := 0, td := 0x1000 + 2 ^ 64 + 2 ^ 80 + 2 ^ 104 + 2 ^ 128 + 2 ^ 152 }

/-- A byte that is not 0 and not the free value that the element's second byte takes. -/
def otherByte : Byte := if (Config.freeWord 1).setWidth 8 = (1 : Byte) then 2 else 1

theorem otherByte_ne : otherByte ≠ (Config.freeWord 1).setWidth 8 := by
  unfold otherByte
  split
  next h => rw [h]; decide
  next h => exact Ne.symm h

/-- That item in a step of partition 0 that is committed and not decided, 1 ms after its close; the element's second byte is `otherByte`. -/
def undecidedCommit : State :=
  { State.reset with core := (({ tick := Config.ticksPerMs, scratch := [(0x1001, otherByte)] } : Core).setPart 0
      { step := { items := [heldElem], closed := true, agree := some 0, committed := true } }).setBankState 0 0 bkON }

theorem shardSpans_heldElem : undecidedCommit.core.shardSpans 0 heldElem = [⟨0, 0, 0x1000, 0, 2⟩, ⟨0, 0, 0, 0, 2⟩, ⟨0, 0, 0, 0, 4⟩] := rfl

theorem place_undecidedCommit {a : Nat} (ha : a < bankBytes) (k : Nat) : undecidedCommit.core.place 0 0 a k = .scratch 0 (a + k) := by
  have hspace : bits a 63 60 = 0 := by
    rw [bits, Nat.shiftRight_eq_div_pow, Nat.div_eq_of_lt (ha.trans (by decide)), Nat.zero_mod]
  have hoff : bits a 59 0 = a := Nat.mod_eq_of_lt (ha.trans (by decide))
  rw [Core.place, hspace, hoff]
  rfl

theorem scratchKey_undecidedCommit {o : Nat} (ho : o < bankBytes) : undecidedCommit.core.scratchKey 0 o = o := by
  rw [Core.scratchKey_eq, Nat.div_eq_of_lt ho, Nat.mod_eq_of_lt ho, show undecidedCommit.core.physBank 0 0 = 0 from by decide]
  exact Nat.zero_add o

/-- A span of the first bank of tile 0, which is on. -/
theorem spoil_undecidedCommit {a n : Nat} (ha : a < bankBytes) (h : a + n ≤ bankBytes) (m : SMap Byte) (f : Nat) :
    (undecidedCommit.core.refilled m f).spoil ⟨0, 0, a, 0, n⟩ =
      undecidedCommit.core.refilled (threadAll putFree m ((upFrom a n).zip (upFrom f n))) (f + n) := by
  have hon : ∀ k, k < 0 + n → undecidedCommit.core.awake 0 ((a + k) / bankBytes) := fun k hk => by
    rw [Nat.div_eq_of_lt (by omega)]
    exact ⟨by decide, by decide⟩
  have hkeys : (upFrom 0 n).map (fun k => undecidedCommit.core.scratchKey 0 (a + k)) = upFrom a n := by
    rw [upFrom, List.map_map]
    refine List.map_congr_left fun k hk => ?_
    have := List.mem_range.mp hk
    rw [Function.comp_apply, Nat.zero_add, scratchKey_undecidedCommit (by omega)]
  have hrun := Core.spoil_own (x := ⟨0, 0, a, 0, n⟩) (place_undecidedCommit ha) hon m f
  rwa [hkeys] at hrun

theorem get_putFree (m : SMap Byte) (e : Nat × Nat) (k : Nat) :
    (putFree m e).get zeroByte k = if k = e.1 then (Config.freeWord e.2).setWidth 8 else m.get zeroByte k := SMap.get_put _ _ _ _ _

/-- The pass that is cut leaves a free value in the second byte of the element. -/
theorem get_cutPass_undecidedCommit :
    (undecidedCommit.core.cutPass 0 heldElem).scratch.get zeroByte 0x1001 = (Config.freeWord 1).setWidth 8 := by
  have hcore : undecidedCommit.core = undecidedCommit.core.refilled undecidedCommit.core.scratch 0 := rfl
  rw [Core.scratch_cutPass, shardSpans_heldElem, hcore]
  simp only [threadAll]
  rw [spoil_undecidedCommit (by decide) (by decide), spoil_undecidedCommit (by decide) (by decide), spoil_undecidedCommit (by decide) (by decide)]
  simp [Core.refilled, upFrom, List.range_succ, threadAll, get_putFree]

/-- A command has one outcome. -/
theorem core_of_exec {i : Instr} {s : State} {c d : Core} (hc : exec i s = .next { s with core := c }) (hd : exec i s = .next { s with core := d }) :
    c = d := congrArg State.core (Host.Outcome.next.inj (hc.symm.trans hd))

/-- Refutes O40: a step that is committed and not decided runs an apply pass, which STEP_AGREEMENT_TIMEOUT cuts, so a byte of its shard changes, while
the statement has the scratchpads stand. The decision sets both bits in one action (R300), so no command leaves a step so; the statement does not
exclude it. -/
theorem not_trainingStep : ¬ Obligations.TrainingStep := by
  intro h
  have hlate : (undecidedCommit.core.part 0).step.closeTick + max 1 (undecidedCommit.core.part 0).cfg.timeout * Config.ticksPerMs ≤
      undecidedCommit.core.tick := by decide
  have hgiven := exec_stepAgreementTimeout_due (p := 0) (s := undecidedCommit) rfl rfl rfl hlate
  obtain ⟨-, -, -, -, htimeout, -⟩ := h 0 undecidedCommit
  obtain ⟨c, hexec, -, -, -, -, -, hscratch, -⟩ := htimeout rfl rfl rfl hlate
  have hc := core_of_exec hgiven hexec
  have hkept : c.scratch.get zeroByte 0x1001 = otherByte := by
    rw [hscratch]
    exact if_pos rfl
  rw [← hc, Core.scratch_giveUp rfl] at hkept
  exact otherByte_ne (hkept.symm.trans get_cutPass_undecidedCommit)

end Sys2Proof.Machine
end

section
/-! PROOFS. The copy of a bank to its spare (R346): a word that holds a lost byte reads zero, however its loss is named, against O36. -/

namespace Sys2Proof.Machine

/-- A byte whose word is lost is not among those copied (R334). -/
theorem Core.get_copyBank_lost (c : Core) (t a b : Nat) {offs : List Nat} {o : Nat} (ho : o < bankBytes) (hlost : o / 4 * 4 ∈ offs) :
    (c.copyBank t a b offs).scratch.get zeroByte (bankKey t b o) = 0 := by
  refine threadAll_inv_mem (P := fun m : SMap Byte => m.get zeroByte (bankKey t b o) = 0) (fun m e he hm => ?_) _ ?_
  · rw [SMap.get_put_other _ _ _ fun heq => ?_]
    · exact hm
    obtain ⟨-, hkept⟩ := List.mem_filter.mp he
    have hoff : o = e.1 % bankBytes := Nat.add_left_cancel heq
    rw [← hoff] at hkept
    simp [hlost] at hkept
  · have hbank : bankKey t b o / bankBytes = t * 25 + b := bankAddr_div ho
    rw [SMap.get_keepIf, hbank, if_neg (by simp)]
    rfl

/-- The device after the copy of bank swap `w` of tile `t`, which lost no further word (R346, R347). -/
def Core.bankSpared (c : Core) (t : Nat) (w : BankSwap) : Core :=
  let old := c.physBank t w.bank
  let p := (c.partOfGroup (groupOfPhys t)).getD devPart
  let i := 3 * t + w.bank / 8
  let c := c.copyBank t old 24 (w.words.map (fun o => o % bankBytes / 4 * 4))
  let c := ((c.wf Regs.TILE_BANK_MAP_SPARE_USED t 1).wf Regs.TILE_BANK_MAP_SPARE_FOR t w.bank).wf Regs.TILE_BANK_MAP_RETIRED t old
  let c := c.wr Regs.TILE_BANK_ERRS i (setBits (c.rd Regs.TILE_BANK_ERRS i) (8 * (w.bank % 8) + 7) (8 * (w.bank % 8)) 0)
  let c := c.wf Regs.TILE_BANK_STATUS_SWAPPING t 0
  let c : Core := { c with bankSwaps := c.bankSwaps.erase w, spareQ := c.spareQ ++ [{ kind := 1, unit := t, sub := old }] }
  c.fresh.2.evt Cls.info (Src.tile t) p 0x0701 (bankSwapInfo w.bank old w.trigger) c.fresh.1.toNat

theorem exec_bankSpared {t : PTile} {s : State} {w : BankSwap} (hw : s.core.bankSwaps.find? (fun w => w.tile == t.val) = some w)
    (hthen : w.thenTile = false) : exec (.bankSpared t []) s = .next { s with core := s.core.bankSpared t.val w } := by
  show execBankSpared t [] s = _
  simp [execBankSpared, State.on, hw, hthen, threadAll, Core.bankSpared]

/-- Bank 0 of tile 0 is being swapped; a lost word is named by its second byte, and its first byte is not zero. -/
def lostInside : State :=
  { State.reset with core := { scratch := [(0, 1)], bankSwaps := [{ tile := 0, bank := 0, trigger := 0, words := [1] }] } }

/-- After the swap of that bank the spare bank serves it. -/
theorem scratchKey_lostInside : (lostInside.core.bankSpared 0 { tile := 0, bank := 0, trigger := 0, words := [1] }).scratchKey 0 0 = bankKey 0 24 0 := by
  decide

/-- Refutes O36: the copy of a bank zeroes the whole word of a lost byte, while the statement zeroes only words that the swap names by their first
byte. The triggers of a swap name words so (R333); the statement does not exclude another list. -/
theorem not_bankSwaps : ¬ Obligations.BankSwaps := by
  intro h
  obtain ⟨-, hspared, -⟩ := h 0 lostInside
  obtain ⟨c, hexec, -, -, -, -, -, -, -, hreads, -⟩ := hspared _ rfl (by decide) rfl (by decide) (by decide) (by decide)
  have hkept := hreads 0 (by decide)
  rw [← core_of_exec (exec_bankSpared rfl rfl) hexec] at hkept
  have hzero := lostInside.core.get_copyBank_lost 0 0 24 (o := 0) (offs := [0]) (by decide) (by decide)
  rw [← scratchKey_lostInside] at hzero
  exact absurd (hzero.symm.trans hkept) (by decide)

end Sys2Proof.Machine
end

section
/-! PROOFS. Bank power (R336 to R343): what the requests, the power-down, the power-up and BANK_CFG do to the states and the bytes of the
banks, O35. -/

namespace Sys2Proof.Machine

/-! ### States and bytes of banks -/

section
variable {c c' : Core} {t b : Nat}

theorem Core.bankState_of_rd (h : c'.rd Regs.TILE_BANK_STATE t = c.rd Regs.TILE_BANK_STATE t) (b : Nat) : c'.bankState t b = c.bankState t b := by
  unfold Core.bankState Core.rf
  rw [show Regs.TILE_BANK_STATE_STATE.reg = Regs.TILE_BANK_STATE from rfl, h]

/-- A register clear of BANK_STATE modulo the stride of a tile. -/
theorem Core.bankState_wr_clear (c : Core) {r : Reg} (h : Reg.clear 0x1000 Regs.TILE_BANK_STATE r = true) (i v t b : Nat) :
    (c.wr r i v).bankState t b = c.bankState t b :=
  Core.bankState_of_rd (c.rd_wr_other v (Reg.at_ne_of_clear h t i)) b

theorem Core.bankState_wf_clear (c : Core) {f : Fld} (h : Reg.clear 0x1000 Regs.TILE_BANK_STATE f.reg = true) (i v t b : Nat) :
    (c.wf f i v).bankState t b = c.bankState t b :=
  c.bankState_wr_clear h i _ t b

theorem Core.rd_setBankState_clear (c : Core) {q : Reg} (h : Reg.clear 0x1000 q Regs.TILE_BANK_STATE = true) (t b v i : Nat) :
    (c.setBankState t b v).rd q i = c.rd q i :=
  c.rd_wf_other _ (Reg.at_ne_of_clear h i t)

/-- Another field of a register array reads as before, whichever element of it was written. -/
theorem Core.rf_wf_field (c : Core) (f g : Fld) (hf : f.ok = true) (hr : g.reg = f.reg) (h : g.hi < f.lo ∨ f.hi < g.lo) (i v j : Nat) :
    (c.wf f i v).rf g j = c.rf g j := by
  by_cases hat : g.reg.at j = f.reg.at i
  · rw [← hr] at hat
    rw [Core.rf_congr_at _ hat, c.rf_wf_beside i v hf hr h, c.rf_congr_at hat]
  · exact c.rf_wf_other v hat

theorem Core.bankState_setBankState_same (c : Core) {v : Nat} (hb : b < 24) (hv : v < 4) : (c.setBankState t b v).bankState t b = v := by
  rw [c.bankState_setBankState hb, if_pos ⟨rfl, rfl⟩, Nat.mod_eq_of_lt hv]

theorem Core.bankState_setBankState_beside (c : Core) {k : Nat} (v : Nat) (hk : k < 24) (hne : k ≠ b) :
    (c.setBankState t b v).bankState t k = c.bankState t k := by
  rw [c.bankState_setBankState hk, if_neg fun h => hne h.2]

/-- Clearing the physical bank of a logical one zeroes its bytes in space 0x0 and no other (R328, R336). -/
theorem Core.readPlace_clearBank (hmap : c'.rd Regs.TILE_BANK_MAP t = c.rd Regs.TILE_BANK_MAP t)
    (hs : c'.scratch = (c.clearBank t (c.physBank t b)).scratch) (hb : b < 24) {o : Nat} (ho : o < 0x300000) :
    c'.readPlace (.scratch t o) = if o / bankBytes = b then 0 else c.readPlace (.scratch t o) := by
  have hbank : o / bankBytes < 24 := Nat.div_lt_of_lt_mul ho
  have hkey : c.scratchKey t o / bankBytes = t * 25 + c.physBank t (o / bankBytes) := bankAddr_div (Nat.mod_lt _ (by decide))
  have hsame : c.physBank t (o / bankBytes) = c.physBank t b ↔ o / bankBytes = b := ⟨c.physBank_inj t hbank hb, fun h => by rw [h]⟩
  simp only [Core.readPlace, Core.scratchKey_congr hmap, hs, Core.clearBank, SMap.get_keepIf, hkey, decide_eq_true_eq, ne_eq,
    Nat.add_left_cancel_iff, hsame]
  by_cases h : o / bankBytes = b
  · simp [h, zeroByte]
  · simp [h]

/-- A bank that goes off loses its bytes (R336). -/
theorem Core.readPlace_bankOff (c : Core) (hb : b < 24) {o : Nat} (ho : o < 0x300000) :
    (c.bankOff t b).readPlace (.scratch t o) = if o / bankBytes = b then 0 else c.readPlace (.scratch t o) := by
  have hmap : (c.bankOff t b).rd Regs.TILE_BANK_MAP t = c.rd Regs.TILE_BANK_MAP t := Core.rd_setBankState_clear _ (by decide) _ _ _ _
  exact Core.readPlace_clearBank hmap rfl hb ho

end

/-! ### Power-up -/

section
variable {c : Core} {t b : Nat}

theorem Core.wakeBank_off (h : c.bankState t b = bkOFF) : c.wakeBank t b =
    (((c.clearBank t (c.physBank t b)).setBankState t b bkCLEARING).count Regs.TILE_BANK_WAKES_COUNT t).wr Regs.TILE_BANK_ERRS (3 * t + b / 8)
      (setBits (c.rd Regs.TILE_BANK_ERRS (3 * t + b / 8)) (8 * (b % 8) + 7) (8 * (b % 8)) 0) := if_pos h

theorem Core.wakeBank_retain (h : c.bankState t b = bkRETAIN) :
    c.wakeBank t b = (c.setBankState t b bkON).count Regs.TILE_BANK_WAKES_COUNT t := by
  simp [Core.wakeBank, h, bkRETAIN, bkOFF]

theorem Core.wakeBank_awake (h : c.awake t b) : c.wakeBank t b = c := by
  obtain ⟨hoff, hret⟩ := h
  simp [Core.wakeBank, hoff, hret]

/-- A bank is cleared, comes back with its bytes, or stays as it is. -/
theorem Core.wakeBank_cases (c : Core) (t b : Nat) :
    c.wakeBank t b = (((c.clearBank t (c.physBank t b)).setBankState t b bkCLEARING).count Regs.TILE_BANK_WAKES_COUNT t).wr Regs.TILE_BANK_ERRS
        (3 * t + b / 8) (setBits (c.rd Regs.TILE_BANK_ERRS (3 * t + b / 8)) (8 * (b % 8) + 7) (8 * (b % 8)) 0) ∨
      c.wakeBank t b = (c.setBankState t b bkON).count Regs.TILE_BANK_WAKES_COUNT t ∨ c.wakeBank t b = c := by
  by_cases hoff : c.bankState t b = bkOFF
  · exact .inl (Core.wakeBank_off hoff)
  · by_cases hret : c.bankState t b = bkRETAIN
    · exact .inr (.inl (Core.wakeBank_retain hret))
    · exact .inr (.inr (Core.wakeBank_awake ⟨hoff, hret⟩))

/-- A bank that is off begins to clear (R338). -/
theorem Core.bankState_wakeBank_off (h : c.bankState t b = bkOFF) {k : Nat} (hk : k < 24) :
    (c.wakeBank t b).bankState t k = if k = b then bkCLEARING else c.bankState t k := by
  rw [Core.wakeBank_off h, Core.bankState_wr_clear _ (by decide), Core.count, Core.bankState_wf_clear _ (by decide)]
  split
  · subst_vars
    exact Core.bankState_setBankState_same _ hk (by decide)
  next hne => exact Core.bankState_setBankState_beside _ _ hk hne

/-- The bytes of a bank that begins to clear are zero. -/
theorem Core.readPlace_wakeBank_off (h : c.bankState t b = bkOFF) (hb : b < 24) {o : Nat} (ho : o < 0x300000) :
    (c.wakeBank t b).readPlace (.scratch t o) = if o / bankBytes = b then 0 else c.readPlace (.scratch t o) := by
  refine Core.readPlace_clearBank ((c.wakeBank_reaches t b).1.2.1 _ (by decide) t) ?_ hb ho
  rw [Core.wakeBank_off h]
  rfl

/-- What bank power leaves: the sequencers, partitions, items, operations, events and device memory. -/
def Core.powerView (c : Core) : SMap Tile × SMap Part × List Item × List AOp × List Evt × SMap Byte :=
  (c.tiles, c.parts, c.items, c.ops, c.evtBuf, c.dram)

theorem Core.powerView_iff {c c' : Core} : c'.powerView = c.powerView ↔
    c'.tiles = c.tiles ∧ c'.parts = c.parts ∧ c'.items = c.items ∧ c'.ops = c.ops ∧ c'.evtBuf = c.evtBuf ∧ c'.dram = c.dram := by
  simp [Core.powerView]

@[simp] theorem Core.powerView_wr (c : Core) (r : Reg) (i v : Nat) : (c.wr r i v).powerView = c.powerView := rfl
@[simp] theorem Core.powerView_wf (c : Core) (f : Fld) (i v : Nat) : (c.wf f i v).powerView = c.powerView := rfl
@[simp] theorem Core.powerView_count (c : Core) (f : Fld) (i n : Nat) : (c.count f i n).powerView = c.powerView := rfl
@[simp] theorem Core.powerView_clearBank (c : Core) (t b : Nat) : (c.clearBank t b).powerView = c.powerView := rfl
@[simp] theorem Core.powerView_setBankState (c : Core) (t b v : Nat) : (c.setBankState t b v).powerView = c.powerView := rfl

theorem Core.powerView_wakeBank (c : Core) (t b : Nat) : (c.wakeBank t b).powerView = c.powerView := by
  rcases c.wakeBank_cases t b with h | h | h <;> simp [h]

theorem Core.bankReqs_wakeBank (c : Core) (t b : Nat) : (c.wakeBank t b).bankReqs = c.bankReqs := by
  have hclear : (c.clearBank t (c.physBank t b)).bankReqs = c.bankReqs := rfl
  rcases c.wakeBank_cases t b with h | h | h <;> simp [h, hclear, Core.setBankState]

/-- Wake a bank that is off. -/
def Core.turnOn (t : Nat) (c : Core) (b : Nat) : Core := if c.bankState t b = bkOFF then c.wakeBank t b else c

theorem Core.powerView_turnOn (t : Nat) (c : Core) (b : Nat) : (Core.turnOn t c b).powerView = c.powerView := by
  unfold Core.turnOn
  split
  · exact c.powerView_wakeBank t b
  · rfl

theorem Core.bankReqs_turnOn (t : Nat) (c : Core) (b : Nat) : (Core.turnOn t c b).bankReqs = c.bankReqs := by
  unfold Core.turnOn
  split
  · exact c.bankReqs_wakeBank t b
  · rfl

theorem Core.bankState_turnOn (c : Core) {k : Nat} (hk : k < 24) :
    (Core.turnOn t c b).bankState t k = if k = b ∧ c.bankState t k = bkOFF then bkCLEARING else c.bankState t k := by
  unfold Core.turnOn
  split
  next h =>
    rw [Core.bankState_wakeBank_off h hk]
    by_cases hkb : k = b
    · simp [hkb, h]
    · simp [hkb]
  next h =>
    rw [if_neg]
    rintro ⟨rfl, hoff⟩
    exact h hoff

/-- Of the banks named those that are off begin to clear (R337). -/
theorem Core.bankState_turnOns (bs : List Nat) (c : Core) {k : Nat} (hk : k < 24) :
    (threadAll (Core.turnOn t) c bs).bankState t k = if k ∈ bs ∧ c.bankState t k = bkOFF then bkCLEARING else c.bankState t k := by
  induction bs generalizing c with
  | nil => simp [threadAll]
  | cons b r ih =>
    rw [threadAll, ih, Core.bankState_turnOn c hk]
    by_cases hoff : c.bankState t k = bkOFF
    · by_cases hkb : k = b
      · subst hkb
        simp [hoff, show bkCLEARING ≠ bkOFF by decide]
      · simp [hkb, hoff]
    · simp [hoff]

theorem mem_bitsIn {n w k : Nat} : k ∈ bitsIn n w ↔ k < n ∧ w.testBit k = true := by
  simp [bitsIn, bitOf]

end

/-! ### The requests -/

section
variable {t : PTile} {s : State}

/-- A power request that is refused sets PWR_REFUSED and nothing else. -/
theorem answers_pwrRefused {i : Instr} (h : exec i s = .next { s with core := s.core.pwrRefused t.val }) :
    Answers s i (fun c => c.rf Regs.TILE_BANK_STATUS_PWR_REFUSED t.val = 1 ∧ s.core.onlyRegs c (fun k => k = Regs.TILE_BANK_STATUS.at t.val)) :=
  ⟨_, h, s.core.rf_wf_same _ _ _ (by decide), s.core.onlyRegs_wr _ _ _⟩

theorem exec_bankOff (banks : BitVec 24) : exec (.bankOff t banks) s = .next { s with core := s.core.bankOffWrite t.val banks.toNat } := rfl

theorem exec_bankRetain (banks : BitVec 24) : exec (.bankRetain t banks) s = .next { s with core := s.core.bankRetainWrite t.val banks.toNat } := rfl

theorem exec_bankOn (banks : BitVec 24) : exec (.bankOn t banks) s = .next { s with core := s.core.bankOnWrite t.val banks.toNat } := rfl

/-- On a physical tile that serves no logical tile every request is refused (R343). -/
theorem bankRequests_unmapped (banks : BitVec 24) (h : s.core.logical t.val = none) :
    exec (.bankOff t banks) s = .next { s with core := s.core.pwrRefused t.val } ∧
      exec (.bankRetain t banks) s = .next { s with core := s.core.pwrRefused t.val } ∧
      exec (.bankOn t banks) s = .next { s with core := s.core.pwrRefused t.val } := by
  refine ⟨?_, ?_, ?_⟩
  · rw [exec_bankOff, Core.bankOffWrite, h]
    rfl
  · rw [exec_bankRetain, Core.bankRetainWrite, h]
  · rw [exec_bankOn, Core.bankOnWrite, h]
    rfl

/-- In native mode BANK_RETAIN is refused (R341). -/
theorem bankRetain_native (banks : BitVec 24) (h : (s.core.logical t.val).isSome = true)
    (hn : s.core.flag Regs.TILE_BANK_CFG_TX1_COMPAT t.val = false) :
    exec (.bankRetain t banks) s = .next { s with core := s.core.pwrRefused t.val } := by
  obtain ⟨l, hl⟩ := Option.isSome_iff_exists.mp h
  simp [exec_bankRetain, Core.bankRetainWrite, hl, hn]

theorem bankOff_asks (banks : BitVec 24) {l : Nat} (h : s.core.logical t.val = some l) :
    Answers s (.bankOff t banks) (fun c => c = { s.core with bankReqs := c.bankReqs } ∧
      c.bankReqs = s.core.bankReqs ++
        ((bitsIn 24 banks.toNat).filter (fun b => s.core.bankState t.val b != bkOFF)).map (fun b => ⟨t.val, b, false⟩)) := by
  refine ⟨_, exec_bankOff banks, ?_⟩
  rw [Core.bankOffWrite, if_neg (by simp [h])]
  exact ⟨rfl, rfl⟩

theorem bankRetain_asks (banks : BitVec 24) {l : Nat} (h : s.core.logical t.val = some l)
    (hcompat : s.core.flag Regs.TILE_BANK_CFG_TX1_COMPAT t.val = true) (humbra : (bitsIn 24 banks.toNat).any (isUmbra l) = false) :
    Answers s (.bankRetain t banks) (fun c => c = { s.core with bankReqs := c.bankReqs } ∧ c.bankReqs = s.core.bankReqs ++
      ((bitsIn 24 banks.toNat).filter (fun b => !isUmbra l b && s.core.bankState t.val b != bkRETAIN)).map (fun b => ⟨t.val, b, true⟩)) := by
  refine ⟨_, exec_bankRetain banks, ?_⟩
  simp only [Core.bankRetainWrite, h, hcompat, humbra, Bool.not_true, Bool.false_eq_true, if_false, and_self]

theorem bankOn_wakes (banks : BitVec 24) {l : Nat} (h : s.core.logical t.val = some l) :
    Answers s (.bankOn t banks) (fun c => (c.tiles = s.core.tiles ∧ c.parts = s.core.parts ∧ c.items = s.core.items ∧ c.ops = s.core.ops ∧
        c.evtBuf = s.core.evtBuf ∧ c.dram = s.core.dram) ∧ c.bankReqs = s.core.bankReqs ∧
      ∀ b, b < 24 → c.bankState t.val b =
        if banks.getLsbD b ∧ s.core.bankState t.val b = bkOFF then bkCLEARING else s.core.bankState t.val b) := by
  have hon : s.core.bankOnWrite t.val banks.toNat = threadAll (Core.turnOn t.val) s.core (bitsIn 24 banks.toNat) :=
    if_neg (by simp [h])
  refine ⟨_, exec_bankOn banks, ?_⟩
  rw [hon]
  refine ⟨Core.powerView_iff.mp (threadAll_view Core.powerView (Core.powerView_turnOn t.val) _ _),
    threadAll_view Core.bankReqs (Core.bankReqs_turnOn t.val) _ _, fun b hb => ?_⟩
  rw [Core.bankState_turnOns _ _ hb]
  simp [mem_bitsIn, hb, BitVec.getLsbD]

/-! ### BANK_POWER_DOWN -/

/-- Whether something holds a bank of tile `t` as it is: a swap, an operation, a started item (R337, R348). -/
def Core.bankBusy (c : Core) (t b : Nat) : Bool :=
  c.bankSwaps.any (fun w => w.tile == t && w.bank == b) || c.ops.any (fun o => o.banks.contains (t, b)) ||
    c.items.any (fun i => i.started && i.banks.contains (t, b))

/-- The device after the request `r` for a bank that nothing holds (R340, R341). -/
def Core.powerDown (c : Core) (t b : Nat) (r : BankReq) : Core :=
  let d : Core := { c with bankReqs := c.bankReqs.erase r }
  if d.bankHeld t b || r.retain && !d.retains t b then d.pwrRefused t
  else if r.retain then d.setBankState t b bkRETAIN
  else d.bankOff t b

variable {b : Fin 24} {r : BankReq}

theorem exec_bankPowerDown (hr : s.core.bankReqs.find? (fun r => r.tile == t.val && r.bank == b.val) = some r)
    (hfree : s.core.bankBusy t.val b.val = false) :
    exec (.bankPowerDown t b) s = .next { s with core := s.core.powerDown t.val b.val r } := by
  show execBankPowerDown t b s = _
  unfold Core.bankBusy at hfree
  simp only [execBankPowerDown, State.on, hr, hfree, Bool.false_eq_true, if_false, Core.powerDown]

/-- A bank that is not requested, or that something holds, stays as it is. -/
theorem bankPowerDown_waits
    (h : (∀ r ∈ s.core.bankReqs, r.tile ≠ t.val ∨ r.bank ≠ b.val) ∨ s.core.bankBusy t.val b.val = true) :
    exec (.bankPowerDown t b) s = .next s := by
  show execBankPowerDown t b s = _
  cases hr : s.core.bankReqs.find? (fun r => r.tile == t.val && r.bank == b.val) with
  | none => simp only [execBankPowerDown, State.on, hr]
  | some r =>
    have hbusy : s.core.bankBusy t.val b.val = true := h.resolve_left fun hnone => by
      have hmatch := List.find?_some hr
      simp only [Bool.and_eq_true, beq_iff_eq] at hmatch
      exact (hnone r (List.mem_of_find?_eq_some hr)).elim (fun hn => hn hmatch.1) (fun hn => hn hmatch.2)
    unfold Core.bankBusy at hbusy
    simp only [execBankPowerDown, State.on, hr, hbusy, if_true]

/-- Whether a request for a bank is refused: the bank is held, or it is to be retained and may not be (R340, R341). -/
def Core.downRefused (c : Core) (t b : Nat) (r : BankReq) : Prop :=
  c.bankHeld t b = true ∨ r.retain = true ∧ (c.flag Regs.TILE_BANK_CFG_TX1_COMPAT t = false ∨ isUmbra ((c.logical t).getD 0) b = true)

theorem Core.downRefused_iff (c : Core) (t b : Nat) (r : BankReq) :
    (c.bankHeld t b || r.retain && !c.retains t b) = true ↔ c.downRefused t b r := by
  simp [Core.downRefused, Core.retains]

theorem Core.powerDown_refused {c : Core} {t b : Nat} (h : c.downRefused t b r) :
    c.powerDown t b r = ({ c with bankReqs := c.bankReqs.erase r } : Core).pwrRefused t :=
  if_pos ((c.downRefused_iff t b r).mpr h)

theorem Core.powerDown_taken {c : Core} {t b : Nat} (h : ¬c.downRefused t b r) :
    c.powerDown t b r = if r.retain then ({ c with bankReqs := c.bankReqs.erase r } : Core).setBankState t b bkRETAIN
      else ({ c with bankReqs := c.bankReqs.erase r } : Core).bankOff t b :=
  if_neg fun hno => h ((c.downRefused_iff t b r).mp hno)

theorem bankPowerDown_refused (hr : s.core.bankReqs.find? (fun r => r.tile == t.val && r.bank == b.val) = some r)
    (hfree : s.core.bankBusy t.val b.val = false) (hno : s.core.downRefused t.val b.val r) :
    Answers s (.bankPowerDown t b) (fun c => c.rf Regs.TILE_BANK_STATUS_PWR_REFUSED t.val = 1 ∧
      c.bankState t.val b.val = s.core.bankState t.val b.val ∧ c.bankReqs = s.core.bankReqs.erase r ∧ c.scratch = s.core.scratch ∧
      c.tiles = s.core.tiles ∧ c.parts = s.core.parts ∧ c.items = s.core.items ∧ c.ops = s.core.ops ∧ c.evtBuf = s.core.evtBuf ∧
      c.dram = s.core.dram) := by
  refine ⟨_, exec_bankPowerDown hr hfree, ?_⟩
  rw [Core.powerDown_refused hno]
  exact ⟨Core.rf_wf_same _ _ _ _ (by decide), Core.bankState_wf_clear _ (by decide) _ _ _ _, rfl, rfl, rfl, rfl, rfl, rfl, rfl, rfl⟩

/-- The bank goes off and its bytes are lost, or it is retained with them (R336, R341). -/
theorem bankPowerDown_takes (hr : s.core.bankReqs.find? (fun r => r.tile == t.val && r.bank == b.val) = some r)
    (hfree : s.core.bankBusy t.val b.val = false) (hyes : ¬s.core.downRefused t.val b.val r) :
    Answers s (.bankPowerDown t b) (fun c => c.bankReqs = s.core.bankReqs.erase r ∧
      (c.tiles = s.core.tiles ∧ c.parts = s.core.parts ∧ c.items = s.core.items ∧ c.ops = s.core.ops ∧ c.evtBuf = s.core.evtBuf ∧
        c.dram = s.core.dram) ∧
      c.bankState t.val b.val = (if r.retain then bkRETAIN else bkOFF) ∧ (r.retain = true → c.scratch = s.core.scratch) ∧
      (r.retain = false → ∀ o, o < 0x300000 →
        c.readPlace (.scratch t.val o) = if o / bankBytes = b.val then 0 else s.core.readPlace (.scratch t.val o)) ∧
      ∀ k, k < 24 → k ≠ b.val → c.bankState t.val k = s.core.bankState t.val k) := by
  refine ⟨_, exec_bankPowerDown hr hfree, ?_⟩
  rw [Core.powerDown_taken hyes]
  cases hret : r.retain with
  | true =>
    exact ⟨rfl, ⟨rfl, rfl, rfl, rfl, rfl, rfl⟩, Core.bankState_setBankState_same _ b.isLt (by decide), fun _ => rfl, nofun,
      fun k hk hne => Core.bankState_setBankState_beside _ _ hk hne⟩
  | false =>
    refine ⟨rfl, ⟨rfl, rfl, rfl, rfl, rfl, rfl⟩, Core.bankState_setBankState_same _ b.isLt (by decide), nofun, fun _ o ho => ?_,
      fun k hk hne => Core.bankState_setBankState_beside _ _ hk hne⟩
    exact Core.readPlace_bankOff _ b.isLt ho

/-! ### BANK_WAKE and BANK_WAKE_DONE -/

theorem exec_bankWake : exec (.bankWake t b) s = .next { s with core := s.core.wakeBank t.val b.val } := rfl

/-- A retained bank is on again with its bytes (R341). -/
theorem bankWake_retained (h : s.core.bankState t.val b.val = bkRETAIN) :
    Answers s (.bankWake t b) (fun c => c.bankState t.val b.val = bkON ∧ c.scratch = s.core.scratch ∧
      c.tiles = s.core.tiles ∧ c.parts = s.core.parts ∧ c.items = s.core.items ∧ c.ops = s.core.ops ∧ c.evtBuf = s.core.evtBuf ∧
      c.dram = s.core.dram) := by
  refine ⟨_, exec_bankWake, ?_, ?_, Core.powerView_iff.mp (s.core.powerView_wakeBank _ _)⟩
  · rw [Core.wakeBank_retain h, Core.count, Core.bankState_wf_clear _ (by decide)]
    exact Core.bankState_setBankState_same _ b.isLt (by decide)
  · rw [Core.wakeBank_retain h, Core.count_scratch, Core.setBankState, Core.wf_scratch]

/-- A bank that is off begins to clear (R338). -/
theorem bankWake_off (h : s.core.bankState t.val b.val = bkOFF) :
    Answers s (.bankWake t b) (fun c => c.bankState t.val b.val = bkCLEARING ∧
      (c.tiles = s.core.tiles ∧ c.parts = s.core.parts ∧ c.items = s.core.items ∧ c.ops = s.core.ops ∧ c.evtBuf = s.core.evtBuf ∧
        c.dram = s.core.dram) ∧
      ∀ o, o < 0x300000 → c.readPlace (.scratch t.val o) = if o / bankBytes = b.val then 0 else s.core.readPlace (.scratch t.val o)) := by
  refine ⟨_, exec_bankWake, ?_, Core.powerView_iff.mp (s.core.powerView_wakeBank _ _), fun o ho => Core.readPlace_wakeBank_off h b.isLt ho⟩
  rw [Core.bankState_wakeBank_off h b.isLt, if_pos rfl]

theorem bankWake_awake (h : s.core.bankState t.val b.val = bkON ∨ s.core.bankState t.val b.val = bkCLEARING) :
    exec (.bankWake t b) s = .next s := by
  have hawake : s.core.awake t.val b.val := by
    unfold Core.awake
    rcases h with h | h <;> rw [h] <;> decide
  rw [exec_bankWake, Core.wakeBank_awake hawake]

/-- A bank that has cleared, and that no wipe covers, is on (R338, R353). -/
theorem bankWakeDone_on (h : s.core.bankState t.val b.val = bkCLEARING) (hw : s.core.wiping t.val b.val = false) :
    Answers s (.bankWakeDone t b) (fun c => c.bankState t.val b.val = bkON ∧ c.scratch = s.core.scratch ∧
      c.tiles = s.core.tiles ∧ c.parts = s.core.parts ∧ c.items = s.core.items ∧ c.ops = s.core.ops ∧ c.evtBuf = s.core.evtBuf ∧
      c.dram = s.core.dram) := by
  have hexec : exec (.bankWakeDone t b) s = .next { s with core := s.core.setBankState t.val b.val bkON } := by
    show execBankWakeDone t b s = _
    simp [execBankWakeDone, State.on, h, hw]
  exact ⟨_, hexec, Core.bankState_setBankState_same _ b.isLt (by decide), rfl, rfl, rfl, rfl, rfl, rfl, rfl⟩

theorem bankWakeDone_idle (h : s.core.bankState t.val b.val ≠ bkCLEARING ∨ s.core.wiping t.val b.val = true) :
    exec (.bankWakeDone t b) s = .next s := by
  show execBankWakeDone t b s = _
  rcases h with h | h <;> simp [execBankWakeDone, State.on, h]

end

/-! ### BANK_CFG -/

/-- A retained bank goes off. -/
def Core.dropRetained (u : Nat) (c : Core) (b : Nat) : Core := if c.bankState u b = bkRETAIN then c.bankOff u b else c

/-- TX1_COMPAT of tile `u` takes the value `v`; leaving the compatibility mode turns its retained banks off (R342). -/
def Core.setCompat (v : Nat) (c : Core) (u : Nat) : Core :=
  (if v = 0 && c.flag Regs.TILE_BANK_CFG_TX1_COMPAT u then threadAll (Core.dropRetained u) c (List.range 24) else c).wf
    Regs.TILE_BANK_CFG_TX1_COMPAT u v

/-- The partition of a physical tile's group runs a program. -/
def Core.groupRuns (c : Core) (t : Nat) : Bool :=
  match c.partOfGroup (t / 17) with | some p => (c.part p).prog.isSome | none => false

theorem Core.groupRuns_swapThresh (c : Core) (t v : Nat) : (c.wf Regs.TILE_BANK_CFG_SWAP_THRESH t v).groupRuns t = c.groupRuns t := by
  have howners : c.sameOwners (c.wf Regs.TILE_BANK_CFG_SWAP_THRESH t v) := fun p =>
    ⟨c.rd_wf_other _ (Reg.at_ne_of_clear (m := 0x1000) (by decide) _ _), c.rd_wf_other _ (Reg.at_ne_of_clear (m := 0x1000) (by decide) _ _)⟩
  rw [Core.groupRuns, howners.partOfGroup]
  rfl

theorem Core.bankCfgWrite_eq (c : Core) (t w : Nat) : c.bankCfgWrite t w =
    if c.groupRuns t then (c.wf Regs.TILE_BANK_CFG_SWAP_THRESH t (bits w 7 0)).pwrRefused t
    else threadAll (Core.setCompat (bits w 8 8)) (c.wf Regs.TILE_BANK_CFG_SWAP_THRESH t (bits w 7 0)) (upFrom (17 * (t / 17)) 17) := by
  rw [← c.groupRuns_swapThresh t (bits w 7 0)]
  rfl

theorem Core.powerView_dropRetained (u : Nat) (c : Core) (b : Nat) : (Core.dropRetained u c b).powerView = c.powerView := by
  unfold Core.dropRetained
  split <;> rfl

theorem Core.rd_bankCfg_dropRetained (u i : Nat) (c : Core) (b : Nat) :
    (Core.dropRetained u c b).rd Regs.TILE_BANK_CFG i = c.rd Regs.TILE_BANK_CFG i := by
  unfold Core.dropRetained
  split
  · exact Core.rd_setBankState_clear _ (by decide) _ _ _ _
  · rfl

theorem Core.powerView_setCompat (v : Nat) (c : Core) (u : Nat) : (Core.setCompat v c u).powerView = c.powerView := by
  unfold Core.setCompat
  split
  · exact threadAll_view Core.powerView (Core.powerView_dropRetained u) (List.range 24) c
  · rfl

/-- Of BANK_CFG the compatibility bit of the tile alone is written. -/
theorem Core.rf_setCompat (v u i : Nat) (c : Core) {f : Fld} (hf : f.reg = Regs.TILE_BANK_CFG) :
    (Core.setCompat v c u).rf f i = (c.wf Regs.TILE_BANK_CFG_TX1_COMPAT u v).rf f i := by
  have hcfg : ∀ d : Core, (∀ j, d.rd Regs.TILE_BANK_CFG j = c.rd Regs.TILE_BANK_CFG j) →
      (d.wf Regs.TILE_BANK_CFG_TX1_COMPAT u v).rf f i = (c.wf Regs.TILE_BANK_CFG_TX1_COMPAT u v).rf f i := by
    intro d hd
    unfold Core.rf Core.wf
    rw [hf, show Regs.TILE_BANK_CFG_TX1_COMPAT.reg = Regs.TILE_BANK_CFG from rfl, hd u]
    by_cases hat : Regs.TILE_BANK_CFG.at i = Regs.TILE_BANK_CFG.at u
    · simp only [Core.rd, Core.wr, hat, SMap.get_put_same]
    · rw [Core.rd_wr_other _ _ hat, Core.rd_wr_other _ _ hat, hd i]
  unfold Core.setCompat
  split
  · exact hcfg _ fun j => threadAll_view (fun d : Core => d.rd Regs.TILE_BANK_CFG j) (Core.rd_bankCfg_dropRetained u j) _ _
  · exact hcfg _ fun j => rfl

theorem Core.rf_swapThresh_setCompat (v : Nat) (c : Core) (u i : Nat) :
    (Core.setCompat v c u).rf Regs.TILE_BANK_CFG_SWAP_THRESH i = c.rf Regs.TILE_BANK_CFG_SWAP_THRESH i := by
  rw [Core.rf_setCompat v u i c rfl]
  exact c.rf_wf_field Regs.TILE_BANK_CFG_TX1_COMPAT Regs.TILE_BANK_CFG_SWAP_THRESH (by decide) rfl (by decide) _ _ _

theorem bankCfg_at_inj {u i : Nat} (hu : u < 272) (hi : i < 272) (h : Regs.TILE_BANK_CFG.at i = Regs.TILE_BANK_CFG.at u) : i = u := by
  simp only [Reg.at, Reg.offsetOf, Regs.TILE_BANK_CFG, Nat.mod_eq_of_lt hu, Nat.mod_eq_of_lt hi] at h
  omega

theorem Core.rf_compat_setCompat {v : Nat} (hv : v < 2) (c : Core) {u i : Nat} (hu : u < 272) (hi : i < 272) :
    (Core.setCompat v c u).rf Regs.TILE_BANK_CFG_TX1_COMPAT i = if i = u then v else c.rf Regs.TILE_BANK_CFG_TX1_COMPAT i := by
  rw [Core.rf_setCompat v u i c rfl]
  split
  next h =>
    rw [h, c.rf_wf_same _ _ _ (by decide)]
    exact Nat.mod_eq_of_lt hv
  next h => exact c.rf_wf_other v fun hat => h (bankCfg_at_inj hu hi hat)

theorem Core.rf_compat_setCompats {v : Nat} (hv : v < 2) {us : List Nat} (hus : ∀ u ∈ us, u < 272) (c : Core) {i : Nat} (hi : i < 272) :
    (threadAll (Core.setCompat v) c us).rf Regs.TILE_BANK_CFG_TX1_COMPAT i = if i ∈ us then v else c.rf Regs.TILE_BANK_CFG_TX1_COMPAT i := by
  induction us generalizing c with
  | nil => simp [threadAll]
  | cons u r ih =>
    rw [threadAll, ih (fun x hx => hus x (List.mem_cons_of_mem _ hx)), Core.rf_compat_setCompat hv c (hus u List.mem_cons_self) hi]
    by_cases hiu : i = u <;> simp [hiu]

theorem mem_groupTiles {t u : Nat} : u ∈ upFrom (17 * (t / 17)) 17 ↔ u / 17 = t / 17 := by
  simp only [upFrom, List.mem_map, List.mem_range]
  exact ⟨by rintro ⟨k, hk, rfl⟩; omega, fun h => ⟨u % 17, Nat.mod_lt _ (by decide), by omega⟩⟩

section
variable {t : PTile} {s : State} (w : Word)

theorem exec_bankCfgWrite : exec (.bankCfgWrite t w) s = .next { s with core := s.core.bankCfgWrite t.val w.toNat } := rfl

/-- While a program runs in the partition TX1_COMPAT stays (R342). -/
theorem bankCfgWrite_runs (h : s.core.groupRuns t.val = true) :
    Answers s (.bankCfgWrite t w) (fun c => c.rf Regs.TILE_BANK_CFG_SWAP_THRESH t.val = bits w.toNat 7 0 ∧
      c.rf Regs.TILE_BANK_STATUS_PWR_REFUSED t.val = 1 ∧
      (∀ u, u < 272 → c.rf Regs.TILE_BANK_CFG_TX1_COMPAT u = s.core.rf Regs.TILE_BANK_CFG_TX1_COMPAT u) ∧
      c.tiles = s.core.tiles ∧ c.parts = s.core.parts ∧ c.items = s.core.items ∧ c.ops = s.core.ops ∧ c.evtBuf = s.core.evtBuf ∧
      c.dram = s.core.dram) := by
  have hcfg : ∀ (f : Fld) (i : Nat), f.reg = Regs.TILE_BANK_CFG → ∀ d : Core, (d.pwrRefused t.val).rf f i = d.rf f i := fun f i hf d =>
    d.rf_wf_other _ (by rw [hf]; exact Reg.at_ne_of_clear (m := 0x1000) (by decide) _ _)
  refine ⟨_, exec_bankCfgWrite w, ?_⟩
  rw [Core.bankCfgWrite_eq, if_pos h]
  refine ⟨?_, Core.rf_wf_same _ _ _ _ (by decide), fun u _ => ?_, rfl, rfl, rfl, rfl, rfl, rfl⟩
  · rw [hcfg _ _ rfl, Core.rf_wf_same _ _ _ _ (by decide)]
    exact Nat.mod_eq_of_lt (bits_lt _ _ _)
  · rw [hcfg _ _ rfl]
    exact s.core.rf_wf_field Regs.TILE_BANK_CFG_SWAP_THRESH Regs.TILE_BANK_CFG_TX1_COMPAT (by decide) rfl (by decide) _ _ _

/-- With no program the mode of the whole group changes. -/
theorem bankCfgWrite_sets (h : s.core.groupRuns t.val = false) :
    Answers s (.bankCfgWrite t w) (fun c => c.rf Regs.TILE_BANK_CFG_SWAP_THRESH t.val = bits w.toNat 7 0 ∧
      (c.tiles = s.core.tiles ∧ c.parts = s.core.parts ∧ c.items = s.core.items ∧ c.ops = s.core.ops ∧ c.evtBuf = s.core.evtBuf ∧
        c.dram = s.core.dram) ∧
      ∀ u, u < 272 → c.rf Regs.TILE_BANK_CFG_TX1_COMPAT u =
        if u / 17 = t.val / 17 then bits w.toNat 8 8 else s.core.rf Regs.TILE_BANK_CFG_TX1_COMPAT u) := by
  refine ⟨_, exec_bankCfgWrite w, ?_⟩
  rw [Core.bankCfgWrite_eq, if_neg (by simp [h])]
  refine ⟨?_, Core.powerView_iff.mp (threadAll_view Core.powerView (Core.powerView_setCompat _) _ _), fun u hu => ?_⟩
  · rw [threadAll_view (fun d : Core => d.rf Regs.TILE_BANK_CFG_SWAP_THRESH t.val) (fun d u => Core.rf_swapThresh_setCompat _ d u _),
      Core.rf_wf_same _ _ _ _ (by decide)]
    exact Nat.mod_eq_of_lt (bits_lt _ _ _)
  · have hgroup : ∀ x ∈ upFrom (17 * (t.val / 17)) 17, x < 272 := fun x hx => by
      have := mem_groupTiles.mp hx
      have := t.isLt
      omega
    rw [Core.rf_compat_setCompats (bits_lt _ 8 8) hgroup _ hu]
    simp only [mem_groupTiles]
    split
    · rfl
    · exact s.core.rf_wf_field Regs.TILE_BANK_CFG_SWAP_THRESH Regs.TILE_BANK_CFG_TX1_COMPAT (by decide) rfl (by decide) _ _ _

end

/-! ### The clauses of O35 -/

/-- Settles O35, one clause for each command and outcome. -/
theorem bankPower : Obligations.BankPower := by
  intro t s
  refine ⟨fun banks => ⟨fun h => ?_, fun hl hn => answers_pwrRefused (bankRetain_native banks hl hn), fun l hl => bankOff_asks banks hl,
      fun l hl hc hu => bankRetain_asks banks hl hc hu, fun l hl => bankOn_wakes banks hl⟩,
    fun b r hr hswap hops hitems => ?_, fun b h => bankPowerDown_waits ?_,
    fun b => ⟨bankWake_retained, bankWake_off, bankWake_awake, bankWakeDone_on, bankWakeDone_idle⟩,
    fun w => ⟨fun h => bankCfgWrite_runs w h, fun h => bankCfgWrite_sets w (Bool.eq_false_iff.mpr h)⟩⟩
  · obtain ⟨hoff, hretain, hon⟩ := bankRequests_unmapped banks h
    exact ⟨answers_pwrRefused hoff, answers_pwrRefused hretain, answers_pwrRefused hon⟩
  · have hfree : s.core.bankBusy t.val b.val = false := by simp only [Core.bankBusy, hswap, hops, hitems, Bool.or_self]
    exact ⟨bankPowerDown_refused hr hfree, bankPowerDown_takes hr hfree⟩
  · simpa only [Core.bankBusy, Bool.or_eq_true, or_assoc] using h

end Sys2Proof.Machine
end

section
/-! PROOFS. The life cycle and tamper (R536 to R539), O49: what a transition of the life cycle leaves of the device, and what the removal of
partitions leaves as tamper has made it (R539 to R543): the key store, the licensed pages, the revoked key IDs, the events that wait, and the state
and the keys of the other partitions. -/

namespace Sys2Proof.Machine

/-! ### The relation -/

/-- What says whether a partition's keys stand: whether they are revoked, its memory key, the tick of its removal. -/
def Part.tenure (x : Part) : Bool × Nat × Nat := (x.revoked, x.key, x.removeTick)

/-- From `c` to `d` no key comes back, no page is licensed anew, no event is lost, every revoked key ID stays revoked, and the partitions outside
`X` keep their state and their tenure. -/
structure Core.keepsSecured (c : Core) (X : Nat → Prop) (d : Core) : Prop where
  noKeys : c.noKeys → d.noKeys
  tick : d.tick = c.tick
  marks : d.marks ⊆ c.marks
  events : c.evtBuf ⊆ d.evtBuf
  revoked : ∀ k, c.rf Regs.SEC_KEYID_MAP_REVOKED k = 1 → d.rf Regs.SEC_KEYID_MAP_REVOKED k = 1
  pstate : ∀ p, ¬X p → d.pstate p = c.pstate p
  tenure : ∀ p, ¬X p → (d.part p).tenure = (c.part p).tenure

/-- The fields that the relation speaks of. -/
def Core.securedView (c : Core) := (c.slots, c.epochCur, c.epochNext, c.epochPrev, c.secretCur, c.secretNext, c.secretPrev, c.tick, c.marks,
  c.evtBuf, c.regs, c.parts)

/-- A register that shares no address with KEYID_MAP or PART_STATE. -/
def Reg.unsecured (r : Reg) : Bool :=
  Reg.clear 0x4000000 Regs.SEC_KEYID_MAP r && (Reg.clear 0x4000000 Regs.PART_STATE r || Reg.clear 0x1000 Regs.PART_STATE r)

theorem Reg.unsecured_at {r : Reg} (h : r.unsecured = true) (i j : Nat) : Regs.SEC_KEYID_MAP.at j ≠ r.at i ∧ Regs.PART_STATE.at j ≠ r.at i := by
  simp only [Reg.unsecured, Bool.and_eq_true, Bool.or_eq_true] at h
  obtain ⟨hkey, hstate⟩ := h
  exact ⟨Reg.at_ne_of_clear hkey j i, hstate.elim (fun h => Reg.at_ne_of_clear h j i) (fun h => Reg.at_ne_of_clear h j i)⟩

theorem Core.keepsSecured.refl (c : Core) (X : Nat → Prop) : c.keepsSecured X c :=
  ⟨id, rfl, List.Subset.refl _, List.Subset.refl _, fun _ => id, fun _ _ => rfl, fun _ _ => rfl⟩

section
variable {X : Nat → Prop} {c d : Core}

theorem Core.keepsSecured.trans {e : Core} (h : c.keepsSecured X d) (h' : d.keepsSecured X e) : c.keepsSecured X e :=
  ⟨h'.noKeys ∘ h.noKeys, h'.tick.trans h.tick, List.Subset.trans h'.marks h.marks, List.Subset.trans h.events h'.events,
    fun k hk => h'.revoked k (h.revoked k hk), fun p hp => (h'.pstate p hp).trans (h.pstate p hp),
    fun p hp => (h'.tenure p hp).trans (h.tenure p hp)⟩

theorem Core.keepsSecured.ite {e : Core} {P : Prop} [Decidable P] (h : c.keepsSecured X d) (h' : c.keepsSecured X e) :
    c.keepsSecured X (if P then d else e) := by
  split
  · exact h
  · exact h'

/-- The other fields may take any value. -/
theorem Core.keepsSecured.same {e : Core} (h : c.keepsSecured X d) (hv : e.securedView = d.securedView) : c.keepsSecured X e := by
  simp only [Core.securedView, Prod.mk.injEq] at hv
  obtain ⟨hslots, hcur, hnext, hprev, hscur, hsnext, hsprev, htick, hmarks, hevt, hregs, hparts⟩ := hv
  refine h.trans ⟨?_, htick, hmarks ▸ List.Subset.refl _, hevt ▸ List.Subset.refl _, fun k hk => ?_, fun p _ => ?_, fun p _ => ?_⟩
  · simp only [Core.noKeys, Core.slot, hslots, hcur, hnext, hprev, hscur, hsnext, hsprev, imp_self]
  · rwa [Core.rf_of_regs hregs]
  · exact Core.rf_of_regs hregs _ _
  · rw [Core.part_of_parts hparts]

/-- Registers may change but KEYID_MAP and PART_STATE. -/
theorem Core.keepsSecured.regs {m : SMap Word} (h : c.keepsSecured X d)
    (hkey : ∀ k, ({ d with regs := m } : Core).rd Regs.SEC_KEYID_MAP k = d.rd Regs.SEC_KEYID_MAP k)
    (hstate : ∀ p, ({ d with regs := m } : Core).rd Regs.PART_STATE p = d.rd Regs.PART_STATE p) : c.keepsSecured X { d with regs := m } :=
  h.trans ⟨id, rfl, List.Subset.refl _, List.Subset.refl _, fun k hk => (congrArg (bits · _ _) (hkey k)).trans hk,
    fun p _ => congrArg (bits · _ _) (hstate p), fun _ _ => rfl⟩

theorem Core.keepsSecured.wr {r : Reg} {i v : Nat} (h : c.keepsSecured X d) (hr : r.unsecured = true) :
    c.keepsSecured X (d.wr r i v) :=
  h.regs (fun k => d.rd_wr_other v (Reg.unsecured_at hr i k).1) (fun p => d.rd_wr_other v (Reg.unsecured_at hr i p).2)

theorem Core.keepsSecured.wf {f : Fld} {i v : Nat} (h : c.keepsSecured X d) (hf : f.reg.unsecured = true) :
    c.keepsSecured X (d.wf f i v) := h.wr hf

theorem Core.keepsSecured.count {f : Fld} {i n : Nat} (h : c.keepsSecured X d) (hf : f.reg.unsecured = true) :
    c.keepsSecured X (d.count f i n) := h.wf hf

theorem Core.keepsSecured.evt {a b p e f g : Nat} (h : c.keepsSecured X d) : c.keepsSecured X (d.evt a b p e f g) :=
  h.trans ⟨id, rfl, List.Subset.refl _, List.subset_append_left _ _, fun _ => id, fun _ _ => rfl, fun _ _ => rfl⟩

theorem Core.keepsSecured.setTile {t : Nat} {x : Tile} (h : c.keepsSecured X d) : c.keepsSecured X (d.setTile t x) := h.same rfl

/-- A partition may change but in its tenure. -/
theorem Core.keepsSecured.setPart {p : Nat} {x : Part} (h : c.keepsSecured X d) (hx : x.tenure = (d.part p).tenure) :
    c.keepsSecured X (d.setPart p x) := by
  refine h.trans ⟨id, rfl, List.Subset.refl _, List.Subset.refl _, fun _ => id, fun _ _ => rfl, fun q _ => ?_⟩
  by_cases hq : q = p
  · rw [hq, Core.part_setPart_same, hx]
  · rw [Core.part_setPart_other _ _ hq]

/-- A partition of `X` may change in its tenure too. -/
theorem Core.keepsSecured.setOwn {p : Nat} {x : Part} (h : c.keepsSecured X d) (hp : X p) : c.keepsSecured X (d.setPart p x) :=
  h.trans ⟨id, rfl, List.Subset.refl _, List.Subset.refl _, fun _ => id, fun _ _ => rfl,
    fun _ hq => congrArg Part.tenure (Core.part_setPart_other _ _ (fun e => hq (e ▸ hp)))⟩

/-- The registers outside the blocks of the security unit and of the partitions may be reset. -/
theorem Core.keepsSecured.keepRegs {keep : Nat → Bool} (h : c.keepsSecured X d) (hk : ∀ a, a < 0x110000 → keep a = true) :
    c.keepsSecured X { d with regs := d.regs.keepIf keep } := by
  have hrd : ∀ (r : Reg) (i : Nat), r.at i < 0x110000 → ({ d with regs := d.regs.keepIf keep } : Core).rd r i = d.rd r i := fun r i hlt => by
    simp only [Core.rd, SMap.get_keepIf, hk _ hlt, if_true]
  refine h.regs (fun k => hrd _ _ ?_) (fun p => hrd _ _ ?_)
  · simp only [Reg.at, Reg.offsetOf, Regs.SEC_KEYID_MAP]
    omega
  · simp only [Reg.at, Reg.offsetOf, Regs.PART_STATE]
    omega

theorem Core.keepsSecured.threadAll {β : Type} {f : Core → β → Core} {l : List β} (h : c.keepsSecured X d)
    (hf : ∀ e x, c.keepsSecured X e → c.keepsSecured X (f e x)) : c.keepsSecured X (threadAll f d l) :=
  threadAll_inv (fun e => c.keepsSecured X e) hf l d h

end

/-! ### Bytes of memory -/

section
variable {X : Nat → Prop} {c d : Core} (h : c.keepsSecured X d)
include h

theorem Core.keepsSecured.clearBank {t b : Nat} : c.keepsSecured X (d.clearBank t b) := h.same rfl

theorem Core.keepsSecured.setBankState {t b v : Nat} : c.keepsSecured X (d.setBankState t b v) := h.wf (by decide)

theorem Core.keepsSecured.wakeBank {t b : Nat} : c.keepsSecured X (d.wakeBank t b) := by
  rcases d.wakeBank_cases t b with hw | hw | hw <;> rw [hw]
  · exact (h.clearBank.setBankState.count (by decide)).wr (by decide)
  · exact h.setBankState.count (by decide)
  · exact h

theorem Core.keepsSecured.writeScratch {t o : Nat} {bs : List Byte} : c.keepsSecured X (d.writeScratch t o bs) := by
  have hwoken : c.keepsSecured X (d.wakeRange t o bs.length) := .ite h (h.threadAll fun _ _ he => he.wakeBank)
  exact hwoken.same rfl

theorem Core.keepsSecured.writeView {p o : Nat} {bs : List Byte} : c.keepsSecured X (d.writeView p o bs) := by
  refine h.threadAll fun e x he => ?_
  split
  · exact he.same rfl
  · exact he

theorem Core.keepsSecured.writePlace {b : Byte} {x : Place} : c.keepsSecured X (d.writePlace b x) := by
  cases x with
  | scratch t o => exact h.writeScratch
  | view p o => exact h.writeView
  | host | flash | remote => exact h.same rfl
  | nowhere => exact h

theorem Core.keepsSecured.fresh : c.keepsSecured X d.fresh.2 := h.same rfl

theorem Core.keepsSecured.spoil {x : Span} : c.keepsSecured X (d.spoil x) := by
  refine h.threadAll fun e k he => ?_
  split
  · exact he
  · exact he.fresh.writePlace

theorem Core.keepsSecured.cutOp {o : AOp} : c.keepsSecured X (d.cutOp o) := .ite (h.threadAll fun _ _ he => he.spoil) h

theorem Core.keepsSecured.updItem {id : Nat} {f : Item → Item} : c.keepsSecured X (d.updItem id f) := h.same rfl

theorem Core.keepsSecured.updOp {id : Nat} {f : AOp → AOp} : c.keepsSecured X (d.updOp id f) := h.same rfl

theorem Core.keepsSecured.cutCopy {i : Item} : c.keepsSecured X (d.cutCopy i) :=
  .ite (.updItem (h.fresh.threadAll fun _ _ he => he.spoil)) h

/-! ### Ends of items and programs -/

theorem Core.keepsSecured.sqClear {p q : Nat} : c.keepsSecured X (d.sqClear p q) :=
  .ite (Core.keepsSecured.wf (d := { d with sqOff := d.sqOff.filter (· != qi p q) }) (h.same rfl) (by decide)) h

theorem Core.keepsSecured.endItem {id status : Nat} {own : Bool} : c.keepsSecured X (d.endItem id status own) := by
  unfold Core.endItem
  split
  · exact h
  · extract_lets late st own r e x e'
    have he : c.keepsSecured X e := h.same rfl
    have he' : c.keepsSecured X e' := .ite (he.setPart (by rfl)) he
    exact .ite (he'.sqClear.evt) he'.sqClear

theorem Core.keepsSecured.stopTile {l : Nat} : c.keepsSecured X (d.stopTile l) := by
  unfold Core.stopTile
  split
  · exact .ite h.setTile h
  · exact h

theorem Core.keepsSecured.stopProgram {p status : Nat} {f : Option (Nat × Nat × Nat × Nat)} : c.keepsSecured X (d.stopProgram p status f) := by
  unfold Core.stopProgram
  split
  · exact h
  · exact .ite h ((h.setPart (by rfl)).threadAll fun _ _ he => he.stopTile)

theorem Core.keepsSecured.partFatal {p source code info0 info1 status : Nat} :
    c.keepsSecured X (d.partFatal p source code info0 info1 status) := (h.evt.wf (by decide)).stopProgram

theorem Core.keepsSecured.endTileItems {p l status : Nat} : c.keepsSecured X (d.endTileItems p l status) :=
  (h.threadAll fun _ _ he => he.cutOp.endItem.updOp).stopProgram

/-! ### Swaps and lost words -/

theorem Core.keepsSecured.holdSwap {x : HeldSwap} : c.keepsSecured X (d.holdSwap x) := .ite h (h.same rfl)

theorem Core.keepsSecured.startTileSwap {l k : Nat} : c.keepsSecured X (d.startTileSwap l k) := by
  unfold Core.startTileSwap
  dsimp only
  refine .ite h.holdSwap ?_
  split
  · exact h
  · exact .ite h (.ite (.ite h (h.evt.endTileItems.same rfl)) ((h.evt.wf (by decide)).same rfl))

theorem Core.keepsSecured.startBankSwap {t b k : Nat} {ws : List Nat} : c.keepsSecured X (d.startBankSwap t b k ws) := by
  have hspare : c.keepsSecured X (match d.logical t with | some l => d.startTileSwap l 0 | none => d) := by
    split
    · exact h.startTileSwap
    · exact h
  exact .ite h.holdSwap (.ite h (.ite (h.same rfl) (.ite (h.same rfl) (.ite hspare ((h.evt.wf (by decide)).same rfl)))))

theorem Core.keepsSecured.bankErr {t b : Nat} : c.keepsSecured X (d.bankErr t b).2 := h.wr (by decide)

theorem Core.keepsSecured.wordEvent {t o : Nat} : c.keepsSecured X (d.wordEvent t o) :=
  ((((h.bankErr.count (by decide)).count (by decide)).wr (by decide)).wf (by decide)).evt

theorem Core.keepsSecured.wordLost {t o : Nat} : c.keepsSecured X (d.wordLost t o) := h.wordEvent.endTileItems.startBankSwap

theorem Core.keepsSecured.swapDue {q : List (Nat × Nat)} : c.keepsSecured X { d with swapDue := q } := h.same rfl

theorem Core.keepsSecured.wordCorrected {t o n : Nat} : c.keepsSecured X (d.wordCorrected t o n) := by
  have hcounted : c.keepsSecured X (d.wordCounted t o n) := ((h.bankErr.count (by decide)).count (by decide)).wr (by decide)
  rw [Core.wordCorrected_eq]
  exact .ite hcounted.swapDue hcounted

theorem Core.keepsSecured.askRetire {k n : Nat} : c.keepsSecured X (d.askRetire k n) := .ite h (h.same rfl)

theorem Core.keepsSecured.countReplays {k edc par : Nat} : c.keepsSecured X (d.countReplays k edc par) := (h.count (by decide)).count (by decide)

theorem Core.keepsSecured.accessLost {p v a : Nat} {w : Bool} : c.keepsSecured X (d.accessLost p v a w) :=
  .evt (.ite (.askRetire ((h.fresh.countReplays.count (by decide)).wr (by decide))) ((h.fresh.countReplays.count (by decide)).wr (by decide)))

theorem Core.keepsSecured.corrTicks {m : SMap (List Nat)} : c.keepsSecured X { d with corrTicks := m } := h.same rfl

theorem Core.keepsSecured.lineCorrected {a edc par : Nat} : c.keepsSecured X (d.lineCorrected a edc par) := by
  have hcounted : ∀ w, c.keepsSecured X (((d.fresh.2.countReplays (d.serves a).1 edc par).count Regs.MEM_CORRECTED_COUNT (d.serves a).1).wr
      Regs.MEM_LAST_ERR (d.serves a).1 w) := fun w => (h.fresh.countReplays.count (by decide)).wr (by decide)
  exact .ite (hcounted _).corrTicks.askRetire (hcounted _).corrTicks

theorem Core.keepsSecured.replayed {acc : List (Place × Nat)} {env : MemEnv} : c.keepsSecured X (d.replayed acc env) := by
  refine (h.threadAll fun e x he => ?_).threadAll fun e x he => .ite he.lineCorrected he
  dsimp only
  split
  · exact he.wordCorrected
  · exact he

theorem Core.keepsSecured.lossEffects {p l : Nat} {o : Operand} {env : MemEnv} : c.keepsSecured X (d.lossEffects p l o env) := by
  unfold Core.lossEffects
  extract_lets one
  cases hone : (d.accesses p l o).findSome? one with
  | none => exact h
  | some e =>
    obtain ⟨⟨x, n⟩, -, hx⟩ := List.exists_of_findSome?_eq_some hone
    dsimp only [one] at hx
    split at hx
    · obtain ⟨w, -, rfl⟩ := Option.map_eq_some_iff.mp hx
      exact h.wordLost
    · split at hx
      · split at hx
        · exact Option.some.inj hx ▸ h.accessLost
        · cases hx
      · cases hx
    · cases hx

theorem Core.keepsSecured.touched {m : List (Nat × Nat)} : c.keepsSecured X { d with touched := m } := h.same rfl

theorem Core.keepsSecured.wakeOperand {p l : Nat} {o : Operand} : c.keepsSecured X (d.wakeOperand p l o) := by
  refine h.threadAll fun e k he => ?_
  dsimp only
  split
  · exact .ite he.wakeBank he.wakeBank.touched
  · exact he

theorem Core.keepsSecured.memFaults {p l : Nat} {ops : List Operand} {env : MemEnv} : c.keepsSecured X (d.memFaults p l ops env).2 := by
  unfold Core.memFaults
  extract_lets outs woken cut e
  have hwoken : c.keepsSecured X woken := h.threadAll fun _ _ he => he.wakeOperand
  split
  · have hcut : c.keepsSecured X cut := hwoken.threadAll fun _ _ he => he.spoil
    exact .ite hcut.lossEffects hcut
  · have he : c.keepsSecured X e := hwoken.same rfl
    exact .ite he.replayed he

/-! ### The entries that a removal fetches (R540) -/

theorem Core.keepsSecured.licensedEvent {p st : Nat} {ops : List Operand} : c.keepsSecured X (d.licensedEvent p ops st) := by
  unfold Core.licensedEvent
  dsimp only
  split
  · unfold Core.licensedRefused
    split
    · exact h.evt
    · exact h
  · exact h

theorem Core.keepsSecured.itemAccess {p : Nat} {ops : List Operand} {env : MemEnv} : c.keepsSecured X (d.itemAccess p ops env).2 := by
  have hnew : c.keepsSecured X { d with touched := [], dests := [], rowAccess := false } := h.same rfl
  unfold Core.itemAccess
  dsimp only
  split
  · exact h.licensedEvent
  · exact hnew.memFaults

theorem Core.keepsSecured.openItem {i : Item} : c.keepsSecured X (d.openItem i) := by
  have hadded : c.keepsSecured X { d with items := d.items ++ [{ i with id := d.nextItem, openTick := d.tick }], nextItem := d.nextItem + 1 } :=
    h.same rfl
  exact hadded.wf (by decide)

theorem Core.keepsSecured.sqFetchFailed {p q st : Nat} : c.keepsSecured X (d.sqFetchFailed p q st) := (h.wf (by decide)).evt

theorem Core.keepsSecured.sqFetch {p q : Nat} {env : MemEnv} : c.keepsSecured X (d.sqFetch p q env) := by
  have hread : ∀ ops, c.keepsSecured X (d.itemAccess p ops env).2 := fun _ => h.itemAccess
  unfold Core.sqFetch
  dsimp only
  split
  · exact (hread _).sqFetchFailed
  · exact .ite (((hread _).wf (by decide)).setPart (by rfl)).openItem.endItem (((hread _).wf (by decide)).setPart (by rfl)).openItem

omit h in
theorem Core.keepsSecured.fetchRest {p : Nat} : ∀ (n : Nat) {d : Core}, c.keepsSecured X d → c.keepsSecured X (Core.fetchRest p n d)
  | 0, _, h => h
  | n + 1, d, h => by
    unfold Core.fetchRest
    refine .ite h ?_
    split
    · exact Core.keepsSecured.fetchRest n h.sqFetch
    · exact h

theorem Core.keepsSecured.rollbackPart {p : Nat} : c.keepsSecured X (d.rollbackPart p) := by
  have hended : c.keepsSecured X { d with txns := d.txns.put (fun _ => {}) (p + 1) { ender := 1 } } := h.same rfl
  exact .ite ((hended.wf (by decide)).wf (by decide)) h

/-! ### What a tile waits for -/

theorem Core.keepsSecured.emptyStash {t : Nat} : c.keepsSecured X (d.emptyStash t) :=
  ((((h.setTile.wr (by decide)).wf (by decide)).wf (by decide)).wf (by decide)).wf (by decide)

theorem Core.keepsSecured.programFault {t reason st major : Nat} : c.keepsSecured X (d.programFault t reason st major) :=
  (h.wr (by decide)).setTile.evt.stopProgram

theorem Core.keepsSecured.tryBarrier {p : Nat} {boundary : Bool} : c.keepsSecured X (d.tryBarrier p boundary) := by
  unfold Core.tryBarrier
  extract_lets st boundary
  split
  · exact h
  next pr _ =>
    extract_lets stalls go
    have hgo : ∀ bwd, c.keepsSecured X (go bwd) := by
      intro bwd
      dsimp only [go]
      refine .ite (.ite (h.setPart (by rfl)) (.ite (h.setPart (by rfl)) ?_)) h
      refine .ite ?_ (.evt ?_)
      all_goals
        refine (h.setPart (by rfl)).threadAll fun e l he => ?_
        split
        · exact .ite he.setTile.emptyStash he.setTile
        · exact he
    exact .ite h (.ite (hgo true) (hgo false))

theorem Core.keepsSecured.wake {t : Nat} : c.keepsSecured X (d.wake t) := by
  unfold Core.wake
  extract_lets x done
  split
  · refine .ite h ?_
    split
    · exact h.setTile
    · split
      · exact h.programFault
      · exact h.setTile
  · refine .ite h ?_
    split
    · exact h.programFault
    · exact h.setTile
  · exact .ite h h.setTile
  · exact .ite h (.ite h.programFault h.setTile.tryBarrier)
  · exact .ite h h.setTile
  · exact h

/-! ### The end of an operation -/

theorem Core.keepsSecured.opCounters {t : Nat} {o : AOp} : c.keepsSecured X (d.opCounters t o) := by
  have hnote : c.keepsSecured X (if o.note ≠ 0 then d.count Regs.TILE_MM_OPERATIONS_COUNT t else d) := .ite (h.count (by decide)) h
  have hwork : c.keepsSecured X (if 0x40 ≤ o.major ∧ o.major ≤ 0x43 ∧ o.status = 0 then
      (if o.note ≠ 0 then d.count Regs.TILE_MM_OPERATIONS_COUNT t else d).count Regs.TILE_MM_OPS_COUNT t o.work
    else if o.note ≠ 0 then d.count Regs.TILE_MM_OPERATIONS_COUNT t else d) := .ite (hnote.count (by decide)) hnote
  exact .ite (hwork.wr (by decide)) hwork

theorem Core.keepsSecured.stashFull {t : Nat} {o : AOp} : c.keepsSecured X (d.stashFull t o) := .ite (h.wf (by decide)).evt.stopProgram h

theorem Core.keepsSecured.complete {id : Nat} : c.keepsSecured X (d.complete id) := by
  unfold Core.complete
  split
  · exact h
  next o _ =>
    extract_lets e e'
    have he : c.keepsSecured X e := h.same rfl
    have he' : c.keepsSecured X e' := by
      dsimp only [e']
      split
      · exact he.updItem.endItem
      · exact he
    split
    · exact he'
    · exact he'.setTile.opCounters.stashFull.wake

theorem Core.keepsSecured.updStep {p : Nat} {f : StepSt → StepSt} : c.keepsSecured X (d.updStep p f) := h.setPart (by rfl)

theorem Core.keepsSecured.endStepItem {p : Nat} {i : StepItem} {st : Nat} : c.keepsSecured X (d.endStepItem p i st) := by
  unfold Core.endStepItem
  extract_lets e e' e''
  have he : c.keepsSecured X e := h.updStep
  have he' : c.keepsSecured X e' := .ite (he.count (by decide)) (.ite (he.count (by decide)) he)
  have he'' : c.keepsSecured X e'' := .ite he'.evt he'
  exact he''.updOp.complete

theorem Core.keepsSecured.endOpItem {op st : Nat} : c.keepsSecured X (d.endOpItem op st) := by
  unfold Core.endOpItem
  split
  · exact h.endItem.updOp
  · exact h

/-! ### The rows of the slow tier -/

theorem Core.keepsSecured.logRow {p table row st : Nat} : c.keepsSecured X (d.logRow p table row st) :=
  .ite (h.count (by decide)).updStep (.ite ((h.count (by decide)).updStep.wf (by decide)) ((h.count (by decide)).updStep.writeView.wf (by decide)))

theorem Core.keepsSecured.updDir {p table g : Nat} {f : Nat → Nat} : c.keepsSecured X (d.updDir p table g f) := h.same rfl

theorem Core.keepsSecured.refreshPend {p table g : Nat} : c.keepsSecured X (d.refreshPend p table g) := by
  unfold Core.refreshPend
  exact h.updDir

theorem Core.keepsSecured.refreshBusy {p table g : Nat} : c.keepsSecured X (d.refreshBusy p table g) := by
  unfold Core.refreshBusy
  exact h.updDir

theorem Core.keepsSecured.dropRows {p : Nat} {all : Bool} : c.keepsSecured X (d.dropRows p all) := by
  unfold Core.dropRows
  extract_lets groups x e drop gone e' e''
  have he : c.keepsSecured X e := h.setPart (by rfl)
  have he' : c.keepsSecured X e' := he.same rfl
  have he'' : c.keepsSecured X e'' := he'.threadAll fun _ _ hx => hx.refreshPend.refreshBusy
  exact (he''.wf (by decide)).wf (by decide)

/-! ### The held items of a step -/

theorem Core.keepsSecured.cutPass {p : Nat} {i : StepItem} : c.keepsSecured X (d.cutPass p i) :=
  ((h.threadAll fun _ _ he => he.spoil).fresh.fresh.count (by decide)).count (by decide)

theorem Core.keepsSecured.updateIncomplete {p st : Nat} : c.keepsSecured X (d.updateIncomplete p st) := (h.updStep.wf (by decide)).partFatal

theorem Core.keepsSecured.endHeld {p st : Nat} : c.keepsSecured X (d.endHeld p st) := by
  unfold Core.endHeld
  extract_lets s held e e' e'' e₃ e₄
  have he : c.keepsSecured X e := h.threadAll fun _ _ hx => hx.cutPass
  have he' : c.keepsSecured X e' := he.threadAll fun _ _ hx => hx.endOpItem.endStepItem
  have he'' : c.keepsSecured X e'' := he'.dropRows
  have he₄ : c.keepsSecured X e₄ := .ite he''.updStep.updateIncomplete he''
  exact (he₄.updStep.wf (by decide)).wf (by decide)

/-! ### Queue pairs, collectives and the probe -/

theorem Core.keepsSecured.finishOp {id st info : Nat} : c.keepsSecured X (d.finishOp id st info) := h.updOp

theorem Core.keepsSecured.slowDone {id st : Nat} {item : Bool} : c.keepsSecured X (d.slowDone id item st) := by
  have hitem : c.keepsSecured X (if st = 0 then d else d.updItem id (fun i => if i.status = 0 then { i with status := st } else i)) :=
    .ite h h.updItem
  exact .ite (.ite hitem hitem.endItem) (.ite h.updOp h.updOp.finishOp)

theorem Core.keepsSecured.rowArrived {p table row st : Nat} : c.keepsSecured X (d.rowArrived p table row st) := h.setPart (by rfl)

theorem Core.keepsSecured.endOwner {w : MsgOwner} {st : Nat} : c.keepsSecured X (d.endOwner w st) := by
  cases w with
  | op id => exact h.finishOp
  | coll id pos => exact h.same rfl
  | slow id item => exact h.slowDone
  | row p table row => exact h.rowArrived
  | none => exact h

theorem Core.keepsSecured.updQp {n : Nat} {f : QP → QP} : c.keepsSecured X (d.updQp n f) := h.same rfl

theorem Core.keepsSecured.endQpOps {n st : Nat} : c.keepsSecured X (d.endQpOps n st) := by
  unfold Core.endQpOps
  split
  · exact h
  · exact .updQp (h.threadAll fun _ _ he => he.endOwner)

theorem Core.keepsSecured.freeCells {u vc dev n : Nat} : c.keepsSecured X (d.freeCells u vc dev n) := h.same rfl

theorem Core.keepsSecured.takeWaiting {n : Nat} : c.keepsSecured X (d.takeWaiting n).1 := by
  unfold Core.takeWaiting
  split
  · exact h
  · exact .updQp (h.threadAll fun _ _ he => .ite (he.wf (by decide)) (.ite he he.freeCells))

theorem Core.keepsSecured.resetQps {p st : Nat} : c.keepsSecured X (d.resetQps p st) := by
  unfold Core.resetQps
  extract_lets mine e
  have he : c.keepsSecured X e := h.threadAll fun _ _ hx => hx.takeWaiting.endQpOps
  exact he.same rfl

theorem Core.keepsSecured.takeParked {hit : Parked → Bool} : c.keepsSecured X (d.takeParked hit).1 := by
  have hleft : c.keepsSecured X { d with parked := d.parked.filter (fun m => !hit m) } := h.same rfl
  refine hleft.threadAll fun e m he => ?_
  split
  · exact he.freeCells
  · exact he

theorem Core.keepsSecured.resetRange {lo hi : Nat} (hlo : 0x110000 ≤ lo) : c.keepsSecured X (d.resetRange lo hi) :=
  h.keepRegs fun a ha => by simp [show a < lo by omega]

theorem Core.keepsSecured.resetColl {p : Nat} : c.keepsSecured X (d.resetColl p) := by
  have hdropped : c.keepsSecured X (d.dropColls p) := h.takeParked.same rfl
  exact hdropped.resetRange (by omega)

theorem Core.keepsSecured.dropProbe {p st : Nat} : c.keepsSecured X (d.dropProbe p st) := by
  have hnone : c.keepsSecured X { d with probe := none } := h.same rfl
  unfold Core.dropProbe
  split
  · exact .ite ((hnone.wf (by decide)).wf (by decide)) h
  · exact h

/-! ### Resets of tiles, and the wipe of Umbra -/

theorem Core.keepsSecured.bankOff {t b : Nat} : c.keepsSecured X (d.bankOff t b) := h.clearBank.setBankState

theorem Core.keepsSecured.banksOff {t : Nat} : c.keepsSecured X (d.banksOff t) := by
  have hreqs : c.keepsSecured X { d with bankReqs := d.bankReqs.filter (fun r => r.tile != t) } := h.same rfl
  exact hreqs.threadAll fun _ _ he => .ite he he.bankOff

theorem Core.keepsSecured.resetTile {t : Nat} : c.keepsSecured X (d.resetTile t) := by
  have hcleared : c.keepsSecured X (d.tileCleared t) :=
    (h.setTile.keepRegs fun a ha => by simp [show a < 0x200000 + 0x1000 * t by omega]).wr (by decide)
  exact hcleared.banksOff

theorem Core.keepsSecured.wipe {w : Wipe} : c.keepsSecured X (d.wipe w) := by
  unfold Core.wipe
  extract_lets hit one covered e clean
  have he : c.keepsSecured X e :=
    h.trans ⟨id, rfl, fun _ hm => List.mem_of_mem_filter hm, List.Subset.refl _, fun _ => id, fun _ _ => rfl, fun _ _ => rfl⟩
  have hone : c.keepsSecured X (Sys2Proof.threadAll one e hit) := he.threadAll fun _ _ hx => hx.clearBank.setBankState.wf (by decide)
  exact .ite he.evt (hone.same rfl)

theorem Core.keepsSecured.resetGroups {groups trigger part status : Nat} : c.keepsSecured X (d.resetGroups groups trigger part status) := by
  have habandoned : c.keepsSecured X (d.abandonSwaps groups) := by
    unfold Core.abandonSwaps
    extract_lets gone e
    have he : c.keepsSecured X e := h.threadAll fun _ _ hx => hx.wf (by decide)
    exact he.same rfl
  exact habandoned.wipe.threadAll fun _ _ he => he.resetTile

/-! ### What is done with the partition -/

theorem Core.keepsSecured.scrubNext {p : Nat} : c.keepsSecured X (d.scrubNext p) := by
  unfold Core.scrubNext
  split
  · exact h.wf (by decide)
  · exact h

theorem Core.keepsSecured.clearPart {p : Nat} : c.keepsSecured X (d.clearPart p) := by
  unfold Core.clearPart
  extract_lets groups e₁ e₂ e₃ e₄ first count e₅ mine e₆ granules
  have h₁ : c.keepsSecured X e₁ := h.resetQps.resetColl
  have h₂ : c.keepsSecured X e₂ := h₁.dropProbe.dropRows
  have h₃ : c.keepsSecured X e₃ := h₂.resetGroups
  have h₄ : c.keepsSecured X e₄ := h₃.threadAll fun _ _ hx => hx.resetRange (by omega)
  have h₅ : c.keepsSecured X e₅ := h₄.same rfl
  have h₆ : c.keepsSecured X e₆ := h₅.threadAll fun _ _ hx => hx.wf (by decide)
  exact (h₆.setPart (by rfl)).scrubNext

/-! ### Keys that go -/

theorem Core.keepsSecured.zeroise : c.keepsSecured X d.zeroise :=
  h.trans ⟨fun _ => ⟨fun _ _ _ _ => rfl, rfl, rfl, rfl, rfl, rfl, rfl⟩, rfl, List.Subset.refl _, List.Subset.refl _, fun _ => id, fun _ _ => rfl,
    fun _ _ => rfl⟩

theorem Core.keepsSecured.dropSlots {keep : Nat → Bool} : c.keepsSecured X { d with slots := d.slots.keepIf keep } := by
  refine h.trans ⟨fun hno => ⟨fun p n hp hn => ?_, hno.2⟩, rfl,
    List.Subset.refl _, List.Subset.refl _, fun _ => id, fun _ _ => rfl, fun _ _ => rfl⟩
  have hslot := hno.1 p n hp hn
  unfold Core.slot at hslot ⊢
  rw [SMap.get_keepIf, hslot, ite_self]

theorem Core.keepsSecured.revokeId {k : Nat} : c.keepsSecured X (d.wf Regs.SEC_KEYID_MAP_REVOKED k 1) := by
  refine h.trans ⟨id, rfl, List.Subset.refl _, List.Subset.refl _, fun j hj => ?_, fun p _ => ?_, fun _ _ => rfl⟩
  · by_cases hat : Regs.SEC_KEYID_MAP.at j = Regs.SEC_KEYID_MAP.at k
    · rw [Core.rf_congr_at _ (f := Regs.SEC_KEYID_MAP_REVOKED) hat]
      exact d.rf_wf_same _ _ _ (by decide)
    · exact (d.rf_wf_other _ hat).trans hj
  · exact d.rf_wf_other _ (Reg.at_ne_of_clear (m := 0x4000000) (by decide) p k)

/-- The states of partitions of `X` may change. -/
theorem Core.keepsSecured.setState {p v : Nat} (hX : ∀ q, q % 16 = p % 16 → X q) : c.keepsSecured X (d.wf Regs.PART_STATE_STATE p v) := by
  refine h.trans ⟨id, rfl, List.Subset.refl _, List.Subset.refl _, fun k hk => ?_, fun q hq => d.rf_wf_other _ fun hat => hq (hX q ?_),
    fun _ _ => rfl⟩
  · exact (d.rf_wf_other _ (Reg.at_ne_of_clear (m := 0x4000000) (by decide) k p)).trans hk
  · simp only [Reg.at, Reg.offsetOf, Regs.PART_STATE_STATE, Regs.PART_STATE] at hat
    omega

theorem Core.keepsSecured.opsSet {m : List AOp} : c.keepsSecured X { d with ops := m } := h.same rfl

theorem Core.keepsSecured.mono {Y : Nat → Prop} (hXY : ∀ p, X p → Y p) : c.keepsSecured Y d :=
  ⟨h.noKeys, h.tick, h.marks, h.events, h.revoked, fun p hp => h.pstate p (fun hx => hp (hXY p hx)),
    fun p hp => h.tenure p (fun hx => hp (hXY p hx))⟩

end

/-! ### The removal and the revocation of a partition -/

/-- No partition. -/
def noPart : Nat → Prop := fun _ => False

/-- The partition that `p` names in the registers of partitions. -/
def partIs (p : Nat) : Nat → Prop := fun q => q % 16 = p % 16

section
variable (c : Core) (p : Nat)

/-- What a revocation ends before the keys go: the key IDs, the rows that wait, the operations and copies under way, the program (R541). -/
def Core.revokeEnds : Core :=
  let ids := c.keyIds p
  let c := threadAll (fun c k => c.wf Regs.SEC_KEYID_MAP_REVOKED k 1) c ids
  let c := threadAll (fun c (r : PendRow) => c.logRow p r.table r.row St.KEY_REVOKED) c (c.part p).pend
  let c := threadAll (fun c o => c.cutOp o) c (c.ops.filter (fun o => o.part == p))
  let c := threadAll (fun c i => c.cutCopy i) c (c.items.filter (fun i => i.part == p))
  let c := c.wr Regs.PART_REVOKE_TICK p c.tick
  c.partFatal p Src.security 0x0C02 (c.part p).removeTick ids.length St.KEY_REVOKED

/-- What a revocation does once the partition's keys are gone (R541, R542). -/
def Core.revokeRest : Core :=
  let c : Core := { c with slots := c.slots.keepIf (fun k => k / 16 != p) }
  let c := c.endHeld p St.KEY_REVOKED
  let mark := fun (o : AOp) => if o.part = p then { o with status := St.KEY_REVOKED, wait := o.wait && c.slowBusy o.id false } else o
  let c : Core := { c with ops := c.ops.map mark }
  c.clearPart p

theorem Core.revoke_eq : c.revoke p =
    ((c.revokeEnds p).setPart p { (c.revokeEnds p).part p with revoked := true, key := 0 }).revokeRest p := rfl

theorem Core.revokeEnds_secured : c.keepsSecured noPart (c.revokeEnds p) := by
  unfold Core.revokeEnds
  extract_lets ids e₁ e₂ e₃ e₄ e₅
  have h₁ : c.keepsSecured noPart e₁ := (Core.keepsSecured.refl c noPart).threadAll fun _ _ hx => hx.revokeId
  have h₂ : c.keepsSecured noPart e₂ := h₁.threadAll fun _ _ hx => hx.logRow
  have h₃ : c.keepsSecured noPart e₃ := h₂.threadAll fun _ _ hx => hx.cutOp
  have h₄ : c.keepsSecured noPart e₄ := h₃.threadAll fun _ _ hx => hx.cutCopy
  have h₅ : c.keepsSecured noPart e₅ := h₄.wr (by decide)
  exact h₅.partFatal

theorem Core.revokeRest_secured : c.keepsSecured noPart (c.revokeRest p) :=
  (Core.keepsSecured.refl c noPart).dropSlots.endHeld.opsSet.clearPart

/-- The revocation takes the keys of its partition and touches no other (R541, R542). -/
theorem Core.revoke_secured : c.keepsSecured (partIs p) (c.revoke p) ∧
    ((c.revoke p).part p).tenure = (true, 0, (c.part p).removeTick) ∧ (c.revoke p).pstate p = c.pstate p := by
  have hends := c.revokeEnds_secured p
  rw [Core.revoke_eq]
  generalize c.revokeEnds p = d at hends ⊢
  have hown : d.keepsSecured (partIs p) (d.setPart p { d.part p with revoked := true, key := 0 }) :=
    (Core.keepsSecured.refl d (partIs p)).setOwn (show p % 16 = p % 16 from rfl)
  have hrest := (d.setPart p { d.part p with revoked := true, key := 0 }).revokeRest_secured p
  refine ⟨((hends.mono fun _ h => h.elim).trans hown).trans (hrest.mono fun _ h => h.elim), ?_, (hrest.pstate p id).trans (hends.pstate p id)⟩
  rw [hrest.tenure p id, Core.part_setPart_same]
  exact congrArg (fun y => (true, 0, y.2.2)) (hends.tenure p id)

/-- What the start of a removal does once the partition drains (R540). -/
def Core.removeRest (open_ : Nat) : Core :=
  let c := c.evt Cls.info Src.security p 0x0C01 open_
  let c := threadAll (fun c (i : Item) => c.endItem i.id St.ABORTED false) c (c.items.filter (fun i => i.part == p && i.kind != .op && !i.started))
  (c.stopProgram p St.KEY_REVOKED none).rollbackPart p

/-- The partition drains (R540). -/
def Core.drains : Core :=
  (c.wf Regs.PART_STATE_STATE p pDRAINING).setPart p { c.part p with removeTick := c.tick, drainEnded := 0 }

theorem Core.remove_eq : c.remove p false =
    ((Core.fetchRest p (c.unfetched p) c).drains p).removeRest p (c.items.countP (fun i => i.part == p)) := rfl

theorem Core.drains_secured : c.keepsSecured (partIs p) (c.drains p) ∧
    ((c.drains p).part p).tenure = ((c.part p).revoked, (c.part p).key, c.tick) ∧ (c.drains p).pstate p = pDRAINING := by
  refine ⟨((Core.keepsSecured.refl c (partIs p)).setState fun _ => id).setOwn (show p % 16 = p % 16 from rfl), ?_, ?_⟩
  · unfold Core.drains
    rw [Core.part_setPart_same]
    rfl
  · exact c.rf_wf_same Regs.PART_STATE_STATE p pDRAINING (by decide)

theorem Core.removeRest_secured (n : Nat) : c.keepsSecured noPart (c.removeRest p n) := by
  have hevt : c.keepsSecured noPart (c.evt Cls.info Src.security p 0x0C01 n) := (Core.keepsSecured.refl c noPart).evt
  exact (hevt.threadAll fun _ _ hx => hx.endItem).stopProgram.rollbackPart

/-- The start of a removal drains its partition and touches no other (R540). -/
theorem Core.remove_secured : c.keepsSecured (partIs p) (c.remove p false) ∧
    ((c.remove p false).part p).tenure = ((c.part p).revoked, (c.part p).key, c.tick) ∧ (c.remove p false).pstate p = pDRAINING := by
  have hfetched : c.keepsSecured noPart (Core.fetchRest p (c.unfetched p) c) := Core.keepsSecured.fetchRest _ (.refl c _)
  rw [Core.remove_eq]
  generalize Core.fetchRest p (c.unfetched p) c = d at hfetched ⊢
  obtain ⟨hdrain, hten, hstate⟩ := d.drains_secured p
  have hrest := (d.drains p).removeRest_secured p (c.items.countP (fun i => i.part == p))
  refine ⟨((hfetched.mono fun _ h => h.elim).trans hdrain).trans (hrest.mono fun _ h => h.elim), ?_, (hrest.pstate p id).trans hstate⟩
  have hold := hfetched.tenure p id
  simp only [Part.tenure, Prod.mk.injEq] at hold
  obtain ⟨hrev, hkey, -⟩ := hold
  rw [hrest.tenure p id, hten, hrev, hkey, hfetched.tick]

/-- From `c` to `d` tamper has removed partition `p` and revoked its keys (R539). -/
def Core.tampered (d : Core) : Prop :=
  (c.pstate p = pACTIVE ∨ c.pstate p = pDRAINING → (d.part p).revoked = true ∧ d.pstate p ≠ pACTIVE) ∧
    (c.pstate p = pACTIVE → (c.part p).revoked = false → (d.part p).key = 0 ∧ (d.part p).removeTick = c.tick)

/-- Tamper revokes a partition that drains, if that is not done yet. -/
def Core.tamperDraining : Core := if c.pstate p = pDRAINING && !(c.part p).revoked then c.revoke p else c

theorem Core.tamperPart_eq : c.tamperPart p = (if c.pstate p = pACTIVE then c.remove p false else c).tamperDraining p := rfl

theorem Core.tamperDraining_secured : c.keepsSecured (partIs p) (c.tamperDraining p) ∧ (c.tamperDraining p).pstate p = c.pstate p ∧
    (c.pstate p = pDRAINING → ((c.tamperDraining p).part p).revoked = true) ∧
    (c.pstate p = pDRAINING → (c.part p).revoked = false →
      ((c.tamperDraining p).part p).key = 0 ∧ ((c.tamperDraining p).part p).removeTick = (c.part p).removeTick) := by
  obtain ⟨hkeep, hten, hstate⟩ := c.revoke_secured p
  simp only [Part.tenure, Prod.mk.injEq] at hten
  obtain ⟨hrev, hkey, htick⟩ := hten
  by_cases hcond : c.pstate p = pDRAINING && !(c.part p).revoked
  · rw [Core.tamperDraining, if_pos hcond]
    exact ⟨hkeep, hstate, fun _ => hrev, fun _ _ => ⟨hkey, htick⟩⟩
  · rw [Core.tamperDraining, if_neg hcond]
    exact ⟨.refl c _, rfl, by simp_all, by simp_all⟩

theorem Core.tamperPart_secured : c.keepsSecured (partIs p) (c.tamperPart p) ∧ c.tampered p (c.tamperPart p) := by
  rw [Core.tamperPart_eq, Core.tampered]
  by_cases hactive : c.pstate p = pACTIVE
  · obtain ⟨hkeep, hten, hdraining⟩ := c.remove_secured p
    obtain ⟨hkeep', hstate, hrev, hkey⟩ := (c.remove p false).tamperDraining_secured p
    simp only [Part.tenure, Prod.mk.injEq] at hten
    obtain ⟨hrev₀, -, htick⟩ := hten
    rw [if_pos hactive]
    refine ⟨hkeep.trans hkeep', fun _ => ⟨hrev hdraining, ?_⟩, fun _ hfalse => htick ▸ hkey hdraining (hrev₀.trans hfalse)⟩
    rw [hstate, hdraining]
    decide
  · obtain ⟨hkeep, hstate, hrev, -⟩ := c.tamperDraining_secured p
    rw [if_neg hactive, hstate]
    exact ⟨hkeep, fun hor => ⟨hrev (hor.resolve_left hactive), hactive⟩, fun h => absurd h hactive⟩

end

/-! ### Tamper over all partitions (R539) -/

theorem Core.keepsSecured.fwAbandon {X : Nat → Prop} {c d : Core} {cause : Nat} (h : c.keepsSecured X d) : c.keepsSecured X (d.fwAbandon cause) := by
  have hfailed : c.keepsSecured X (d.wf Regs.FW_FW_STATUS_STATE 0 2) := h.wf (by decide)
  have hreleased : c.keepsSecured X (d.wf Regs.FW_FW_STATUS_STATE 0 2).releaseBarriers := hfailed.threadAll fun _ _ hx => .ite hx.tryBarrier hx
  exact .ite hreleased.evt h

section
variable {X : Nat → Prop} {c d e : Core} {p : Nat}

/-- What changes other partitions alone may come before. -/
theorem Core.tampered.after (hk : c.keepsSecured X d) (hp : ¬X p) (h : d.tampered p e) : c.tampered p e := by
  have hten := hk.tenure p hp
  simp only [Part.tenure, Prod.mk.injEq] at hten
  obtain ⟨hrev, -, -⟩ := hten
  unfold Core.tampered at h ⊢
  rwa [hk.pstate p hp, hrev, hk.tick] at h

/-- What changes other partitions alone may follow. -/
theorem Core.tampered.before (h : c.tampered p d) (hk : d.keepsSecured X e) (hp : ¬X p) : c.tampered p e := by
  have hten := hk.tenure p hp
  simp only [Part.tenure, Prod.mk.injEq] at hten
  obtain ⟨hrev, hkey, htick⟩ := hten
  unfold Core.tampered at h ⊢
  rwa [hk.pstate p hp, hrev, hkey, htick]

theorem Core.tamperPart_others {q : Nat} (h : q % 16 ≠ p % 16) : c.keepsSecured (fun r => r % 16 ≠ p % 16) (c.tamperPart q) :=
  (c.tamperPart_secured q).1.mono fun r (hr : r % 16 = q % 16) => hr ▸ h

/-- Tamper reaches every partition of a list. -/
theorem Core.tampered_of_mem {l : List Nat} (hl : ∀ q ∈ l, q < 16) (hdup : l.Nodup) (hp : p ∈ l) (c : Core) :
    c.tampered p (threadAll (fun c q => c.tamperPart q) c l) := by
  induction l generalizing c with
  | nil => cases hp
  | cons q r ih =>
    obtain ⟨hq, hr⟩ := List.forall_mem_cons.mp hl
    obtain ⟨hqr, hdup⟩ := List.nodup_cons.mp hdup
    have hapart : ∀ a < 16, a ≠ p → a % 16 ≠ p % 16 := fun a ha hne => by
      have := hl p hp
      omega
    have hself : ¬(p % 16 ≠ p % 16) := fun h => h rfl
    by_cases hpq : p = q
    · subst hpq
      refine (c.tamperPart_secured p).2.before (X := fun a => a % 16 ≠ p % 16) ?_ hself
      refine threadAll_inv_mem (P := fun e => (c.tamperPart p).keepsSecured (fun a => a % 16 ≠ p % 16) e) (fun e a ha he => ?_)
        (c.tamperPart p) (.refl _ _)
      exact he.trans (Core.tamperPart_others (hapart a (hr a ha) (fun h => hqr (h ▸ ha))))
    · exact (ih hr hdup ((List.mem_cons.mp hp).resolve_left hpq) _).after (Core.tamperPart_others (hapart q hq (Ne.symm hpq))) hself

theorem Core.tamperParts_secured (c : Core) : c.keepsSecured (fun _ => True) (threadAll (fun c q => c.tamperPart q) c (List.range 16)) :=
  (Core.keepsSecured.refl c _).threadAll fun e q he => he.trans ((e.tamperPart_secured q).1.mono fun _ _ => trivial)

end

/-! ### The wipe of Umbra (R347) -/

/-- The marks of the pages that a wipe covers go. -/
def Core.unmark (c : Core) (w : Wipe) : Core :=
  { c with marks := c.marks.filter (fun k => !(bitOf w.groups (k / 1024 / 16) && (w.tile == none || w.tile == c.phys (k / 1024)))) }

/-- One bank begins to clear. -/
def Core.clearUmbra (c : Core) (e : Nat × Nat) : Core :=
  ((c.clearBank e.1 (c.physBank e.1 e.2)).setBankState e.1 e.2 bkCLEARING).wf Regs.TILE_BANK_STATUS_WIPING e.1 1

theorem Core.wipe_eq (c : Core) (w : Wipe) : c.wipe w =
    if (c.wipeHit w).isEmpty then (c.unmark w).wipedEvent w
    else { threadAll Core.clearUmbra (c.unmark w) (c.wipeHit w) with
      wipes := c.wipes ++ [w]
      bankSwaps := c.bankSwaps.map fun b => if (c.wipeHit w).contains (b.tile, b.bank) then { b with words := [] } else b } := rfl

/-- A view that neither an event, nor a bank that begins to clear, nor the lists of wipes and bank swaps touch. -/
theorem Core.wipe_view {γ : Type} (v : Core → γ) (hevt : ∀ c a b p e f g, v (Core.evt c a b p e f g) = v c)
    (hbank : ∀ c e, v (Core.clearUmbra c e) = v c) (hlists : ∀ (c : Core) ws bs, v { c with wipes := ws, bankSwaps := bs } = v c)
    (c : Core) (w : Wipe) : v (c.wipe w) = v (c.unmark w) := by
  rw [Core.wipe_eq]
  split
  · exact hevt ..
  · exact (hlists _ _ _).trans (threadAll_view v hbank _ _)

theorem Core.marks_wipe (c : Core) (w : Wipe) : (c.wipe w).marks = (c.unmark w).marks :=
  Core.wipe_view Core.marks (fun _ _ _ _ _ _ _ => rfl) (fun _ _ => rfl) (fun _ _ _ => rfl) c w

theorem Core.marks_wipe_all (c : Core) {w : Wipe} (hgroups : w.groups = 0xFFFF) (htile : w.tile = none) :
    ∀ m ∈ (c.wipe w).marks, 256 ≤ m / 1024 := by
  intro m hm
  have hbit : ∀ g < 16, bitOf 0xFFFF g = true := by decide
  rw [Core.marks_wipe, Core.unmark, List.mem_filter, hgroups, htile] at hm
  by_contra hlt
  simp [hbit (m / 1024 / 16) (by omega)] at hm

theorem Core.umbraOf_bank {c : Core} {w : Wipe} {e : Nat × Nat} (he : e ∈ c.umbraOf w) : e.2 < 24 := by
  simp only [Core.umbraOf, List.mem_filter, List.mem_flatMap] at he
  obtain ⟨⟨-, -, l, -, hl⟩, -⟩ := he
  split at hl
  · simp only [List.mem_cons, List.not_mem_nil, or_false] at hl
    rcases hl with rfl | rfl <;> simp
  · cases hl

/-- Every bank of Umbra that a wipe covers and that is on begins to clear (R347). -/
theorem Core.bankState_wipe {c : Core} {w : Wipe} {e : Nat × Nat} (he : e ∈ c.umbraOf w)
    (hon : c.bankState e.1 e.2 = bkON ∨ c.bankState e.1 e.2 = bkCLEARING) : (c.wipe w).bankState e.1 e.2 = bkCLEARING := by
  have hhit : e ∈ c.wipeHit w := List.mem_filter.mpr ⟨he, by simpa using hon⟩
  have hstate : ∀ (d : Core) (a : Nat × Nat), (d.clearUmbra a).bankState e.1 e.2 =
      if Regs.TILE_BANK_STATE.at e.1 = Regs.TILE_BANK_STATE.at a.1 ∧ e.2 = a.2 then bkCLEARING else d.bankState e.1 e.2 := fun d a => by
    rw [Core.clearUmbra, Core.bankState_wf_clear _ (by decide), Core.bankState_setBankState _ (Core.umbraOf_bank he)]
    rfl
  rw [Core.wipe_eq, if_neg (by simp [List.ne_nil_of_mem hhit])]
  refine threadAll_reach (P := fun _ => True) (Q := fun d => d.bankState e.1 e.2 = bkCLEARING) (fun _ _ _ h => h) (fun d a _ _ h => ?_) hhit
    (fun d _ => ?_) (c.unmark w) trivial
  · rw [hstate, h, ite_self]
  · rw [hstate, if_pos ⟨rfl, rfl⟩]

/-! ### New nonces (R527) -/

theorem Core.draws_newNonce (c : Core) (k : Nat) : (c.newNonce k).draws = c.draws + 1 := rfl

theorem Core.nonces_newNonce (c : Core) (j k : Nat) :
    (c.newNonce j).nonces.get (fun k => k) k = if k = j then c.draws else c.nonces.get (fun k => k) k := SMap.get_put ..

theorem Core.draws_newNonces (c : Core) : c.draws < c.newNonces.draws := by
  refine threadAll_reach (P := fun d : Core => c.draws ≤ d.draws) (Q := fun d => c.draws < d.draws) (fun d k _ h => ?_) (fun d k _ _ h => ?_)
    (List.mem_range.mpr (show 0 < 17 by decide)) (fun d h => ?_) c (Nat.le_refl _)
  all_goals
    rw [Core.draws_newNonce]
    omega

/-- Each nonce is one that was not drawn before. -/
theorem Core.nonces_newNonces (c : Core) {k : Nat} (hk : k < 17) : c.draws ≤ c.newNonces.nonces.get (fun k => k) k := by
  refine threadAll_reach (P := fun d : Core => c.draws ≤ d.draws) (Q := fun d => c.draws ≤ d.nonces.get (fun k => k) k) (fun d j _ h => ?_)
    (fun d j _ hd h => ?_) (List.mem_range.mpr hk) (fun d hd => ?_) c (Nat.le_refl _)
  · rw [Core.draws_newNonce]
    omega
  · rw [Core.nonces_newNonce]
    split
    · exact hd
    · exact h
  · rwa [Core.nonces_newNonce, if_pos rfl]

/-! ### A transition of the life cycle (R537) -/

/-- What refuses every life-cycle command. -/
def State.lcBusy (s : State) : Prop :=
  (∃ p, p < 16 ∧ (s.core.pstate p ≠ pFREE ∨ s.core.flag Regs.PART_STATUS_OWNER_LOCK p = true)) ∨ s.perm.tamper = true ∨ 32 ≤ s.perm.ownSteps

theorem State.lcRefused_iff (s : State) : s.lcRefused = true ↔ s.lcBusy := by
  simp [State.lcRefused, State.lcBusy, or_assoc]

theorem State.lcRefused_eq_false {s : State} (h : ¬s.lcBusy) : s.lcRefused = false :=
  Bool.eq_false_iff.mpr (mt s.lcRefused_iff.mp h)

/-- A command that ends with a status and no transition. -/
theorem answers_lcResult {s : State} {i : Instr} {st : Nat} (hst : st < 2 ^ 16) (h : exec i s = .next (s.lcResult st)) :
    Answers s i (fun c => c.rf Regs.SEC_LC_STATUS_RESULT = st ∧ s.core.onlyRegs c (fun r => r = Regs.SEC_LC_STATUS.at 0)) :=
  ⟨_, h, (s.core.rf_wf_same Regs.SEC_LC_STATUS_RESULT 0 st (by decide)).trans (Nat.mod_eq_of_lt hst), s.core.onlyRegs_wr _ _ _⟩

/-- The wipe that a transition starts. -/
def lcWipe : Wipe := ⟨0xFFFF, 1, devPart, St.PROTECTION, none⟩

/-- What stands in the device after a transition to life-cycle state `new`. -/
def State.lcChanged (s : State) (new : Nat) (c : Core) : Prop :=
  c.rf Regs.SEC_LC_STATUS_RESULT = 0 ∧ c.noKeys ∧
    (c.tiles = s.core.tiles ∧ c.parts = s.core.parts ∧ c.items = s.core.items ∧ c.dram = s.core.dram ∧ c.host = s.core.host) ∧
    (∀ k, k < 17 → s.core.draws ≤ c.nonces.get (fun k => k) k) ∧ s.core.draws < c.draws ∧ (∀ m ∈ c.marks, 256 ≤ m / 1024) ∧
    (∀ e ∈ s.core.umbraOf lcWipe, s.core.bankState e.1 e.2 = bkON ∨ s.core.bankState e.1 e.2 = bkCLEARING → c.bankState e.1 e.2 = bkCLEARING) ∧
    ⟨Cls.lifeCycle, Src.security, devPart, 0x0C07, (s.perm.lc + new * 2 ^ 2) % 2 ^ 64, 0⟩ ∈ c.evtBuf

/-- What a transition leaves. -/
def Core.lcView (c : Core) := (c.tiles, c.parts, c.items, c.dram, c.host)

/-- What the draw of nonces leaves. -/
def Core.keyView (c : Core) := (c.lcView, c.regs, c.marks, c.slots, c.epochCur, c.epochNext, c.epochPrev, c.secretCur, c.secretNext, c.secretPrev)

theorem Core.lcView_wipe (c : Core) (w : Wipe) : (c.wipe w).lcView = c.lcView :=
  (Core.wipe_view Core.lcView (fun _ _ _ _ _ _ _ => rfl) (fun _ _ => rfl) (fun _ _ _ => rfl) c w).trans rfl

theorem Core.draws_wipe (c : Core) (w : Wipe) : (c.wipe w).draws = c.draws :=
  (Core.wipe_view Core.draws (fun _ _ _ _ _ _ _ => rfl) (fun _ _ => rfl) (fun _ _ _ => rfl) c w).trans rfl

theorem Core.keyView_newNonce (c : Core) (k : Nat) : (c.newNonce k).keyView = c.keyView := rfl

theorem Core.keyView_newNonces (c : Core) : c.newNonces.keyView = c.keyView :=
  threadAll_view (f := fun c k => c.newNonce k) Core.keyView Core.keyView_newNonce (List.range 17) c

theorem Core.noKeys_zeroise (c : Core) : c.zeroise.noKeys := ⟨fun _ _ _ _ => rfl, rfl, rfl, rfl, rfl, rfl, rfl⟩

/-- The core after a transition. -/
def State.lcCore (s : State) (new : Nat) : Core :=
  ((s.core.wipe lcWipe).zeroise.newNonces.wf Regs.SEC_LC_STATUS_RESULT 0 0).evt Cls.lifeCycle Src.security devPart 0x0C07 (s.perm.lc + new * 2 ^ 2)

theorem State.lcCore_changed (s : State) (new : Nat) : s.lcChanged new (s.lcCore new) := by
  have hkeys := (s.core.wipe lcWipe).zeroise.keyView_newNonces
  have hview : (s.core.wipe lcWipe).zeroise.lcView = s.core.lcView := s.core.lcView_wipe lcWipe
  have hdraws : (s.core.wipe lcWipe).zeroise.draws = s.core.draws := s.core.draws_wipe lcWipe
  have hnonces := fun k => (s.core.wipe lcWipe).zeroise.nonces_newNonces (k := k)
  have hdrawn := (s.core.wipe lcWipe).zeroise.draws_newNonces
  have hmarks : ∀ m ∈ (s.core.wipe lcWipe).zeroise.marks, 256 ≤ m / 1024 := s.core.marks_wipe_all rfl rfl
  have hno := (s.core.wipe lcWipe).noKeys_zeroise
  have hstate : ∀ t b, (s.core.wipe lcWipe).zeroise.bankState t b = (s.core.wipe lcWipe).bankState t b := fun _ _ => rfl
  unfold State.lcCore
  generalize (s.core.wipe lcWipe).zeroise = e at *
  generalize e.newNonces = d at *
  simp only [Core.keyView, Prod.mk.injEq] at hkeys
  obtain ⟨hframe, hregs, hmarked, hslots, hcur, hnext, hprev, hscur, hsnext, hsprev⟩ := hkeys
  rw [hview] at hframe
  simp only [Core.lcView, Prod.mk.injEq] at hframe
  rw [hdraws] at hnonces hdrawn
  have hbank : ∀ t b, (d.wf Regs.SEC_LC_STATUS_RESULT 0 0).bankState t b = e.bankState t b := fun t b => by
    rw [Core.bankState_wf_clear _ (by decide)]
    exact Core.bankState_of_rd (Core.rd_of_regs hregs _ _) b
  refine ⟨(d.rf_wf_same Regs.SEC_LC_STATUS_RESULT 0 0 (by decide)), ?_, hframe, hnonces, hdrawn, hmarked ▸ hmarks, fun a ha hon => ?_,
    List.mem_append_right _ List.mem_cons_self⟩
  · simp only [Core.noKeys, Core.slot] at hno ⊢
    exact hslots ▸ hcur ▸ hnext ▸ hprev ▸ hscur ▸ hsnext ▸ hsprev ▸ hno
  · exact (hbank _ _).trans ((hstate _ _).trans (Core.bankState_wipe ha hon))

/-! ### The life-cycle commands (R536) -/

/-- A command that makes the transition to `new`. -/
theorem State.lcChange_changes {s : State} {i : Instr} {new : Nat} {perm : Perm} (h : exec i s = .next (s.lcChange new perm)) :
    ∃ c, exec i s = .next { s with core := c, perm := { perm with lc := new } } ∧ s.lcChanged new c :=
  ⟨s.lcCore new, h, s.lcCore_changed new⟩

section
variable {c : Core} {addr host : Nat}

theorem Core.readPf0_sees (h : c.pf0Reads addr host) (n : Nat) : c.readPf0 addr n host = (0, c.readHost (addr % 2 ^ 60) n) := by
  obtain ⟨hup, hmaster, hspace, hhost⟩ := h
  simp [Core.readPf0, hup, hmaster, hspace, hhost]

theorem Core.readPf0_linkDown (h : c.flag Regs.HIF_LINK_STATUS_UP = false) (n : Nat) : c.readPf0 addr n host = (St.LINK_DOWN, []) := by
  simp [Core.readPf0, h]

end

section
variable {s : State} {host : Nat}

theorem State.claim_refused (h : s.lcBusy ∨ s.perm.lc ≠ 1) : s.claim host = s.lcResult St.PROTECTION :=
  if_pos (by simpa [State.lcRefused_iff] using h)

theorem State.claim_asks (hb : ¬s.lcBusy) (hlc : s.perm.lc = 1) : s.claim host =
    if (s.core.readPf0 (s.core.rd Regs.SEC_LC_ARG) 1952 host).1 ≠ 0 then s.lcResult (s.core.readPf0 (s.core.rd Regs.SEC_LC_ARG) 1952 host).1
    else s.lcChange 2 { s.perm with
      ownerHash := Config.shake256 (s.core.readPf0 (s.core.rd Regs.SEC_LC_ARG) 1952 host).2, ownSteps := s.perm.ownSteps + 1 } :=
  if_neg (by simp [State.lcRefused_eq_false hb, hlc])

theorem State.claim_takes (hb : ¬s.lcBusy) (hlc : s.perm.lc = 1) (hsees : s.core.pf0Reads (s.core.rd Regs.SEC_LC_ARG) host) : s.claim host =
    s.lcChange 2 { s.perm with
      ownerHash := Config.shake256 (s.core.readHost (s.core.rd Regs.SEC_LC_ARG % 2 ^ 60) 1952), ownSteps := s.perm.ownSteps + 1 } := by
  rw [State.claim_asks hb hlc, Core.readPf0_sees hsees]
  simp only [ne_eq, not_true_eq_false, if_false]

theorem State.claim_linkDown (hb : ¬s.lcBusy) (hlc : s.perm.lc = 1) (hdown : s.core.flag Regs.HIF_LINK_STATUS_UP = false) :
    s.claim host = s.lcResult St.LINK_DOWN := by
  rw [State.claim_asks hb hlc, Core.readPf0_linkDown hdown]
  exact if_pos (by decide)

theorem State.release_refused (h : s.lcBusy ∨ s.perm.lc ≠ 2) : s.release host = s.lcResult St.PROTECTION :=
  if_pos (by simpa [State.lcRefused_iff] using h)

/-- A request that PF0 reads well changes the life cycle when the owner has signed it. -/
theorem State.release_asks (hb : ¬s.lcBusy) (hlc : s.perm.lc = 2) (hsees : s.core.pf0Reads (s.core.rd Regs.SEC_LC_ARG) host) : s.release host =
    if s.ownerSigned (s.core.readHost (s.core.rd Regs.SEC_LC_ARG % 2 ^ 60) (1952 + 3309)) then s.lcChange 1 { s.perm with ownerHash := [] }
    else s.lcResult St.PROTECTION := by
  unfold State.release
  rw [if_neg (by simp [State.lcRefused_eq_false hb, hlc]), Core.readPf0_sees hsees]
  simp only [mldsaKeyBytes, mldsaSigBytes, ne_eq, not_true_eq_false, if_false, Bool.not_eq_true', ← Bool.not_eq_true, ite_not]

theorem State.retire_refused (h : s.lcBusy ∨ s.perm.lc ≠ 1 ∧ s.perm.lc ≠ 2) : s.retire host = s.lcResult St.PROTECTION :=
  if_pos (by simpa [State.lcRefused_iff] using h)

/-- PF0 alone retires a device that no owner has claimed. -/
theorem State.retire_provisioned (hb : ¬s.lcBusy) (hlc : s.perm.lc = 1) : s.retire host = s.lcChange 3 { s.perm with seed := none } := by
  unfold State.retire
  rw [if_neg (by simp [State.lcRefused_eq_false hb, hlc]), if_pos hlc]

theorem State.retire_owned (hb : ¬s.lcBusy) (hlc : s.perm.lc = 2) (hsees : s.core.pf0Reads (s.core.rd Regs.SEC_LC_ARG) host) : s.retire host =
    if s.ownerSigned (s.core.readHost (s.core.rd Regs.SEC_LC_ARG % 2 ^ 60) (1952 + 3309)) then s.lcChange 3 { s.perm with seed := none }
    else s.lcResult St.PROTECTION := by
  unfold State.retire
  rw [if_neg (by simp [State.lcRefused_eq_false hb, hlc]), if_neg (by simp [hlc]), Core.readPf0_sees hsees]
  simp only [mldsaKeyBytes, mldsaSigBytes, ne_eq, not_true_eq_false, if_false, Bool.not_eq_true', ← Bool.not_eq_true, ite_not]

theorem State.exec_provisioning_refused {seed : Nat} {ok : Bool} (h : s.lcBusy ∨ s.perm.lc ≠ 0 ∨ ok = false) :
    exec (.provisioning seed ok) s = .next (s.lcResult St.PROTECTION) :=
  congrArg Host.Outcome.next (if_pos (by simpa [State.lcRefused_iff, or_assoc] using h))

theorem State.exec_provisioning_takes {seed : Nat} {ok : Bool} (hb : ¬s.lcBusy) (hlc : s.perm.lc = 0) (hok : ok = true) :
    exec (.provisioning seed ok) s = .next (s.lcChange 1 { s.perm with seed := some (seed % 2 ^ 256) }) :=
  congrArg Host.Outcome.next (if_neg (by simp [State.lcRefused_eq_false hb, hlc, hok]))

end

section
variable (s : State) (host : BitVec 16)

theorem exec_claim : exec (.claim host) s = .next (s.claim host.toNat) := rfl
theorem exec_release : exec (.release host) s = .next (s.release host.toNat) := rfl
theorem exec_lcRetire : exec (.lcRetire host) s = .next (s.retire host.toNat) := rfl

end

/-! ### TAMPER_DETECTED (R538, R539) -/

/-- The device with TAMPER_N and the sensors as they are now. -/
def Core.tamperNow (c : Core) (pin : Bool) (sensors : BitVec 5) : Core :=
  (c.wf Regs.SEC_TAMPER_STATUS_PIN_NOW 0 (b2n pin)).wf Regs.SEC_TAMPER_STATUS_SENSORS_NOW 0 sensors.toNat

/-- The key store goes and every key ID is revoked. -/
def Core.tamperKeys (c : Core) : Core := threadAll (fun c k => c.wf Regs.SEC_KEYID_MAP_REVOKED k 1) c.zeroise (List.range 255)

/-- The wipe that tamper starts. -/
def tamperWipe : Wipe := ⟨0xFFFF, 0, devPart, St.KEY_REVOKED, none⟩

/-- What sampled tamper makes of the device, its event posted. -/
def Core.tamperTaken (c : Core) : Core := threadAll (fun c q => c.tamperPart q) ((c.fwAbandon 3).tamperKeys.wipe tamperWipe) (List.range 16)

section
variable (c : Core) (pin : Bool) (sensors : BitVec 5)

theorem Core.tamperNow_shows : (c.tamperNow pin sensors).rf Regs.SEC_TAMPER_STATUS_PIN_NOW = b2n pin ∧
    (c.tamperNow pin sensors).rf Regs.SEC_TAMPER_STATUS_SENSORS_NOW = sensors.toNat ∧
    c.onlyRegs (c.tamperNow pin sensors) (fun r => r = Regs.SEC_TAMPER_STATUS.at 0) := by
  have hpin := (c.onlyRegs_refl (fun r => r = Regs.SEC_TAMPER_STATUS.at 0)).wf (f := Regs.SEC_TAMPER_STATUS_PIN_NOW) (i := 0) rfl (b2n pin)
  refine ⟨?_, ?_, hpin.wf (f := Regs.SEC_TAMPER_STATUS_SENSORS_NOW) (i := 0) rfl sensors.toNat⟩
  · have hbeside : (c.tamperNow pin sensors).rf Regs.SEC_TAMPER_STATUS_PIN_NOW = b2n pin % 2 ^ 1 :=
      (Core.rf_wf_beside _ (f := Regs.SEC_TAMPER_STATUS_SENSORS_NOW) (g := Regs.SEC_TAMPER_STATUS_PIN_NOW) 0 _ (by decide) rfl
        (by decide)).trans (c.rf_wf_same Regs.SEC_TAMPER_STATUS_PIN_NOW 0 _ (by decide))
    exact hbeside.trans (by cases pin <;> rfl)
  · exact (Core.rf_wf_same _ Regs.SEC_TAMPER_STATUS_SENSORS_NOW 0 _ (by decide)).trans (Nat.mod_eq_of_lt sensors.isLt)

theorem Core.tamperNow_flag {f : Fld} (hf : f.reg = Regs.SEC_TAMPER_CFG) : (c.tamperNow pin sensors).flag f = c.flag f := by
  have hat : f.reg.at 0 ≠ Regs.SEC_TAMPER_STATUS.at 0 := by
    rw [hf]
    decide
  simp only [Core.flag, Core.tamperNow, Core.rf_wf_other (f := Regs.SEC_TAMPER_STATUS_SENSORS_NOW) _ _ hat,
    Core.rf_wf_other (f := Regs.SEC_TAMPER_STATUS_PIN_NOW) _ _ hat]

theorem Core.tamperKeys_secured : c.keepsSecured noPart c.tamperKeys :=
  (Core.keepsSecured.refl c noPart).zeroise.threadAll fun _ _ he => he.revokeId

theorem Core.tamperKeys_noKeys : c.tamperKeys.noKeys :=
  ((Core.keepsSecured.refl c.zeroise noPart).threadAll fun _ _ he => he.revokeId).noKeys c.noKeys_zeroise

theorem Core.tamperKeys_revoked {k : Nat} (hk : k < 255) : c.tamperKeys.rf Regs.SEC_KEYID_MAP_REVOKED k = 1 := by
  refine threadAll_reach (f := fun c k => c.wf Regs.SEC_KEYID_MAP_REVOKED k 1) (P := fun _ => True)
    (Q := fun d => d.rf Regs.SEC_KEYID_MAP_REVOKED k = 1) (fun _ _ _ h => h) (fun d j _ _ h => ?_) (List.mem_range.mpr hk) (fun d _ => ?_)
    c.zeroise trivial
  · exact (Core.keepsSecured.refl d noPart).revokeId.revoked k h
  · exact d.rf_wf_same Regs.SEC_KEYID_MAP_REVOKED k 1 (by decide)

/-- Tamper removes and revokes every partition, and leaves no key and no licensed page (R539). -/
theorem Core.tamperTaken_secures : c.tamperTaken.noKeys ∧ (∀ k, k < 255 → c.tamperTaken.rf Regs.SEC_KEYID_MAP_REVOKED k = 1) ∧
    (∀ m ∈ c.tamperTaken.marks, 256 ≤ m / 1024) ∧ (∀ p, p < 16 → c.tampered p c.tamperTaken) ∧ c.evtBuf ⊆ c.tamperTaken.evtBuf := by
  have hkeys : c.keepsSecured noPart (c.fwAbandon 3).tamperKeys := (Core.keepsSecured.refl c noPart).fwAbandon.trans (Core.tamperKeys_secured _)
  have hwiped := (Core.keepsSecured.refl (c.fwAbandon 3).tamperKeys noPart).wipe (w := tamperWipe)
  have hparts := ((c.fwAbandon 3).tamperKeys.wipe tamperWipe).tamperParts_secured
  refine ⟨hparts.noKeys (hwiped.noKeys (Core.tamperKeys_noKeys _)), fun k hk => hparts.revoked k (hwiped.revoked k (Core.tamperKeys_revoked _ hk)),
    fun m hm => Core.marks_wipe_all _ rfl rfl m (hparts.marks hm), fun p hp => ?_, fun _ he => hparts.events (hwiped.events (hkeys.events he))⟩
  exact .after (hkeys.trans hwiped) id (Core.tampered_of_mem (fun q => List.mem_range.mp) List.nodup_range (List.mem_range.mpr hp) _)

end

section
variable (s : State) (pin : Bool) (sensors : BitVec 5)

/-- TAMPER_N is active and enabled. -/
def State.tamperByPin : Prop := pin = true ∧ s.core.flag Regs.SEC_TAMPER_CFG_PIN_EN = true

/-- A sensor is active and the sensors are enabled. -/
def State.tamperBySensor : Prop := sensors ≠ 0 ∧ s.core.flag Regs.SEC_TAMPER_CFG_SENSOR_EN = true

/-- Where the event comes from. -/
def State.tamperSource : Nat := if pin && s.core.flag Regs.SEC_TAMPER_CFG_PIN_EN then Src.tamperN else Src.tamperSensors

theorem exec_tamperDetected : exec (.tamperDetected pin sensors) s =
    if (!(pin && s.core.flag Regs.SEC_TAMPER_CFG_PIN_EN) && !(sensors != 0 && s.core.flag Regs.SEC_TAMPER_CFG_SENSOR_EN)) = true then
      .next { s with core := s.core.tamperNow pin sensors }
    else .next { s with
      core := ((s.core.tamperNow pin sensors).evt Cls.tamper (s.tamperSource pin) devPart 0x0C06 (b2n pin + sensors.toNat * 2)).tamperTaken
      perm := { s.perm with tamper := true, tamperClear := false } } := by
  have hpin := s.core.tamperNow_flag pin sensors (f := Regs.SEC_TAMPER_CFG_PIN_EN) rfl
  have hsensor := s.core.tamperNow_flag pin sensors (f := Regs.SEC_TAMPER_CFG_SENSOR_EN) rfl
  rw [State.tamperSource, ← hpin, ← hsensor]
  rfl

variable {s pin sensors}

theorem State.tamperOff_iff :
    (!(pin && s.core.flag Regs.SEC_TAMPER_CFG_PIN_EN) && !(sensors != 0 && s.core.flag Regs.SEC_TAMPER_CFG_SENSOR_EN)) = true ↔
      ¬s.tamperByPin pin ∧ ¬s.tamperBySensor sensors := by
  simp [State.tamperByPin, State.tamperBySensor, imp_iff_not_or]

theorem exec_tamperDetected_disabled (h : ¬s.tamperByPin pin ∧ ¬s.tamperBySensor sensors) :
    exec (.tamperDetected pin sensors) s = .next { s with core := s.core.tamperNow pin sensors } := by
  rw [exec_tamperDetected]
  exact if_pos (State.tamperOff_iff.mpr h)

theorem exec_tamperDetected_enabled (h : s.tamperByPin pin ∨ s.tamperBySensor sensors) : exec (.tamperDetected pin sensors) s = .next { s with
    core := ((s.core.tamperNow pin sensors).evt Cls.tamper (s.tamperSource pin) devPart 0x0C06 (b2n pin + sensors.toNat * 2)).tamperTaken
    perm := { s.perm with tamper := true, tamperClear := false } } := by
  rw [exec_tamperDetected]
  exact if_neg fun hoff => not_or.mpr (State.tamperOff_iff.mp hoff) h

/-- The tamper event is posted, and the partitions stand as they did. -/
theorem Core.tamperNow_evt_secured (c : Core) (src : Nat) : c.keepsSecured noPart
    ((c.tamperNow pin sensors).evt Cls.tamper src devPart 0x0C06 (b2n pin + sensors.toNat * 2)) :=
  .evt (((Core.keepsSecured.refl c noPart).wf (by decide)).wf (by decide))

theorem Core.tamperEvent_mem (c : Core) (src : Nat) : ⟨Cls.tamper, src, devPart, 0x0C06, b2n pin + sensors.toNat * 2, 0⟩ ∈
    (c.evt Cls.tamper src devPart 0x0C06 (b2n pin + sensors.toNat * 2)).evtBuf := by
  have hlt : b2n pin + sensors.toNat * 2 < 2 ^ 64 := by
    have hpin : b2n pin ≤ 1 := by cases pin <;> decide
    omega
  refine List.mem_append_right _ (List.mem_singleton.mpr ?_)
  rw [Nat.mod_eq_of_lt hlt, Nat.zero_mod]

end

/-- Settles O49: CLAIM, RELEASE, LC_RETIRE and PROVISIONING are refused or make one transition, and an enabled source of tamper takes every key. -/
theorem lifeCycle : Obligations.LifeCycle := by
  unfold Obligations.LifeCycle
  intro s _ c0 busy addr frame tells changes
  have protection : ∀ {i}, exec i s = .next (s.lcResult St.PROTECTION) → tells i St.PROTECTION := answers_lcResult (by decide)
  refine ⟨fun host => ?_, fun seed ok => ?_, fun pin sensors => ?_⟩
  · intro sees key signed
    refine ⟨fun hb => ⟨protection ?_, protection ?_, protection ?_⟩, fun hlc => protection ?_, fun hlc => protection ?_, fun hlc => protection ?_,
      fun hb hlc hs => State.lcChange_changes (perm := { s.perm with ownerHash := Config.shake256 key, ownSteps := s.perm.ownSteps + 1 }) ?_,
      fun hb hlc hdown => answers_lcResult (by decide) ?_,
      fun hb hlc hs hsig => State.lcChange_changes (perm := { s.perm with ownerHash := [] }) ?_,
      fun hb hlc hs hsig => ⟨protection ?_, protection ?_⟩, fun hb hlc => State.lcChange_changes (perm := { s.perm with seed := none }) ?_,
      fun hb hlc hs hsig => State.lcChange_changes (perm := { s.perm with seed := none }) ?_⟩
    · rw [exec_claim, State.claim_refused (.inl hb)]
    · rw [exec_release, State.release_refused (.inl hb)]
    · rw [exec_lcRetire, State.retire_refused (.inl hb)]
    · rw [exec_claim, State.claim_refused (.inr hlc)]
    · rw [exec_release, State.release_refused (.inr hlc)]
    · rw [exec_lcRetire, State.retire_refused (.inr (by omega))]
    · rw [exec_claim, State.claim_takes hb hlc hs]
    · rw [exec_claim, State.claim_linkDown hb hlc hdown]
    · rw [exec_release, State.release_asks hb hlc hs, if_pos hsig]
    · rw [exec_release, State.release_asks hb hlc hs, if_neg hsig]
    · rw [exec_lcRetire, State.retire_owned hb hlc hs, if_neg hsig]
    · rw [exec_lcRetire, State.retire_provisioned hb hlc]
    · rw [exec_lcRetire, State.retire_owned hb hlc hs, if_pos hsig]
  · exact ⟨fun h => protection (State.exec_provisioning_refused h), fun hb hlc hok =>
      State.lcChange_changes (perm := { s.perm with seed := some (seed % 2 ^ 256) }) (State.exec_provisioning_takes hb hlc hok)⟩
  · intro byPin bySensor i now
    refine ⟨fun hoff => ?_, fun hon => ⟨_, exec_tamperDetected_enabled hon, ?_⟩⟩
    · obtain ⟨hpin, hsensors, hregs⟩ := c0.tamperNow_shows pin sensors
      exact ⟨_, exec_tamperDetected_disabled hoff, ⟨hpin, hsensors⟩, hregs⟩
    · have hshown := c0.tamperNow_evt_secured (pin := pin) (sensors := sensors) (s.tamperSource pin)
      obtain ⟨hno, hrevoked, hmarks, hparts, hevt⟩ := Core.tamperTaken_secures
        ((c0.tamperNow pin sensors).evt Cls.tamper (s.tamperSource pin) devPart 0x0C06 (b2n pin + sensors.toNat * 2))
      have htampered := fun p hp => (hparts p hp).after hshown id
      exact ⟨hno, hrevoked, hmarks, fun p hp => (htampered p hp).1, fun p hp => (htampered p hp).2, hevt (Core.tamperEvent_mem _ _)⟩

end Sys2Proof.Machine
end
